-- ==== Sys2Proof/Word.lean ====
section
/-! DEFINITION. The words the spec counts bits in, and sparse tables of plain data. -/

namespace Sys2Proof

/-- A register, a register value or a core's scalar word: 64 bits (chapter 00, *Registers and access codes*). -/
abbrev W64 := BitVec 64

/-- One byte of memory. -/
abbrev Byte := BitVec 8

/-- A sparse table: pairs of key and value, keys strictly rising. -/
abbrev KV (α : Type) := List (Nat × α)

end Sys2Proof
end

