-- ==== Sys2Proof/Types.lean ====
section
/-! DEFINITION. The things commands carry: cells, markers, identities, requests, command packets, messages. -/

namespace Sys2Proof

/-- A cell (R85): the header fields of both layouts and the 64-byte payload, byte 16 of the cell in bits 7..0.
`slot`, `chunk` and `scales` belong to the collective layout, the rest of bytes 2-15 to the memory layout. -/
structure Cell where
  typ : Nat := 0
  cls : Nat := 0
  age : Nat := 0
  dst : Nat := 0
  opmod : Nat := 0
  src : Nat := 0
  ctx : Nat := 0
  seq : Nat := 0
  offset : Nat := 0
  len : Nat := 0
  fetch : Bool := false
  hint : Nat := 0
  subtype : Nat := 0
  retx : Bool := false
  part : Nat := 0
  slot : Nat := 0
  chunk : Nat := 0
  scales : Nat := 0
  /-- The bits that R85 shows as zero: the three highest of bytes 2-3 (two in the memory layout), then the six highest of
  bytes 14-15. -/
  rsv : Nat := 0
  /-- Space of the address the cell goes to (R25): 1 the register window of an accelerator id. R85 gives it no bit
  (assumption 16). -/
  space : Nat := 0
  payload : BitVec 512 := 0
  deriving DecidableEq, Repr

/-- A received frame marker (R81) with the receiver's own arrival time `t1` and the low 9 bits of the arrival time that the
sender reports, both in units of 78.125 ps. -/
structure Marker where
  frame : Nat := 0
  lock : Nat := 0
  masterPlane : Nat := 0
  relayed : Bool := false
  t1 : Int := 0
  arrival : Nat := 0
  /-- A 20-bit part had no copy outside an uncorrectable codeword: the marker is ignored (R82). -/
  damaged : Bool := false
  deriving DecidableEq, Repr

/-- The identity block of training step 5 (R94). -/
structure Identity where
  proto : Nat := 5
  kind : Nat := 0
  fwMajor : Nat := 0
  fwMinor : Nat := 0
  rack : Nat := 0
  plane : Nat := 0
  port : Nat := 0
  epId : Nat := 0x3FF
  serial : Nat := 0
  wlGood : Nat := 0xFF
  lock : Nat := 0
  /-- m mod 272 of the frame in which the cell was sent; index of the cell within its frame on its wavelength. -/
  linkFrame : Nat := 0
  cellIndex : Nat := 0
  /-- Arrival time of the last frame word received, units of 78.125 ps. -/
  arrivalFull : Nat := 0
  fwOverride : Bool := false
  deriving DecidableEq, Repr

/-- What a training that meets every limit brings to steps 3 to 7 (R93): the far identity and how many identical copies
of it arrived, the wavelengths that passed this end's qualification, this end's arrival time of the far end's frame word,
and the frames since step 3 set the link frame count to 0. -/
structure TrainInfo where
  far : Identity := {}
  copies : Nat := 3
  wlOwn : Nat := 0xFF
  arrival : Int := 0
  frames : Nat := 0
  deriving DecidableEq, Repr

/-- The straps and the rack-ID plug at BS (R19, R548). -/
structure Straps where
  slotId : Nat := 0
  shelfId : Nat := 0
  rackId : Nat := 0
  plug : Bool := true
  deriving DecidableEq, Repr

/-- A memory request as an engine or requester presents it (R164, R206): `op` 0 plain read, 1 volatile read,
2 acquire read, 3 plain write, 4 release write, 5 atomic, 6 INVALIDATE. `observer` is the engine or requester
number within the instance; `dest` says where a returned value goes. -/
structure MemReq where
  observer : Nat := 0
  tag : Nat := 0
  ctx : Nat := 0
  op : Nat := 0
  scope : Nat := 0
  keep : Bool := false
  g : Bool := false
  ms : Option Nat := none
  len : Nat := 0
  addr : Nat := 0
  aop : Nat := 0
  subtype : Nat := 0
  fetch : Bool := false
  /-- HINT asked for an atomic: 0 none, 1 acquire, 2 release. -/
  hint : Nat := 0
  reader : Nat := 0
  /-- A REQUEST asks for a release and an acquire at once (bits 5 and 6 of ATYPE): refused under R206. -/
  bothHints : Bool := false
  data : List Byte := []
  compare : Nat := 0
  deriving DecidableEq, Repr

/-- Where replies and notices go (R404): the host port, and the address and UDP port of the packet's source. -/
structure Route where
  port : Nat := 0
  addr : Nat := 0
  udp : Nat := 0
  deriving DecidableEq, Repr

/-- A command as the control processor starts it: the allow-list entry (0-31) or, for an in-band command,
64 + the source end-point id (R406), the header fields of *Command packets*, and the payload. -/
structure CmdReq where
  owner : Nat := 0
  opcode : Nat := 0
  tag : Nat := 0
  seqn : Nat := 0
  ctx : Nat := 0
  arg : Nat := 0
  commit : Bool := false
  notify : Bool := false
  payload : List Byte := []
  route : Route := {}
  deriving DecidableEq, Repr

/-- A RoCEv2 request packet as H0 or H1 receives it (R421). -/
structure RdmaPkt where
  qp : Nat := 0
  psn : Nat := 0
  port : Nat := 0
  va : Nat := 0
  rkey : Nat := 0
  /-- DMA length of the RETH. -/
  dlen : Nat := 0
  /-- 0 Only, 1 First, 2 Middle, 3 Last. -/
  place : Nat := 0
  icrcOk : Bool := true
  remote : Nat := 0
  data : List Byte := []
  deriving DecidableEq, Repr

/-- An Ethernet frame that is not a command packet, RoCEv2 or IEEE 1588 message (R395 to R398).
`proto`: 0 ARP, 1 neighbour discovery, 2 ICMP or ICMPv6 echo, 3 LLDP, 4 PAUSE or priority flow control,
5 an IP fragment, 6 anything else. -/
structure EthFrame where
  port : Nat := 0
  vlan : Option Nat := none
  bytes : Nat := 64
  proto : Nat := 6
  target : Nat := 0
  ipv4 : Bool := false
  lldpPort : Nat := 0
  lldpChassis : Nat := 0
  deriving DecidableEq, Repr

/-- An IEEE 1588 message as taken at a port (R425): the master it names is or is not the one the best master
clock algorithm selects, and the time it gives. -/
structure PtpMsg where
  port : Nat := 0
  domain : Nat := 0
  /-- The best master clock algorithm, run over the masters heard, selects this message's master. -/
  selected : Bool := true
  /-- The message completes a synchronisation: PTP time in ms. -/
  sync : Option Nat := none
  utcOffset : Nat := 37
  utcOffsetValid : Bool := false
  deriving DecidableEq, Repr

/-- What the busbar sensors give for the frame that ended (R472): 0.1 W, 10 mV, 10 mA. -/
structure PowerSample where
  power : Nat := 0
  volts : Nat := 0
  amps : Nat := 0
  deriving DecidableEq, Repr

/-- The die, package and regulator temperatures of one frame, in °C (R487): 16 core dies, 16 hub dies, 20 optical
engine cases and the voltage regulators one by one, the hottest DRAM package. -/
structure DieTemps where
  switch : Nat := 0
  core : List Nat := []
  hub : List Nat := []
  control : Nat := 0
  optical : List Nat := []
  dram : Nat := 0
  vr : List Nat := []
  deriving DecidableEq, Repr

/-- An inter-rack transfer (R159): the header fields of the head cell and its lines. -/
structure Transfer where
  /-- 1 WRITE_BATCH, 2 ATOMIC_BATCH, 3 READ_BATCH, 4 SINGLE, 5 DATA_RESPONSE, 6 TRANSFER_ACK, 7 TRANSFER_NACK. -/
  kind : Nat := 0
  age : Nat := 0
  hops : Nat := 0
  budget : Nat := 0
  detours : Nat := 0
  srcRack : Nat := 0
  dstRack : Nat := 0
  ctx : Nat := 0
  farId : Nat := 0
  farSpace : Nat := 0
  tid : Nat := 0
  page : Nat := 0
  op : Nat := 0
  opmod : Nat := 0
  lines : Nat := 0
  partialMap : Nat := 0
  status : Nat := 0
  /-- Data cells: line number and 64 bytes. -/
  data : List (Nat × BitVec 512) := []
  /-- Mask cells: line number and 64-bit byte mask. -/
  masks : List (Nat × Nat) := []
  /-- The one original access of a SINGLE transfer: its cell. -/
  single : Option Cell := none
  deriving DecidableEq, Repr

/-- A beacon (R527): the sender and what it hears. -/
structure Beacon where
  sender : Identity := {}
  heard : Option Identity := none
  crcOk : Bool := true
  deriving DecidableEq, Repr

/-- How an access or a scrub finds the DRAM line it reads (R301, R302). -/
inductive LineFault where
  | clean
  | correctable
  /-- Uncorrectable at the first read, clean or correctable at the second. -/
  | transient
  | uncorrectable
  /-- The metadata line stays uncorrectable. -/
  | metadata
  deriving DecidableEq, Repr

/-- What a command takes, and how each DRAM line it reads on the way is found (none: all clean). -/
structure Found (α : Type) where
  what : α
  faults : List LineFault := []
  deriving DecidableEq, Repr

/-- A chunk handed on, and the FCLK of the frame at which it is (R115). -/
structure Handoff where
  chunk : Nat
  fclk : Nat
  deriving DecidableEq, Repr

/-- An MMA's word, and how many more of its groups end in this quantum (R336). -/
structure MmaWork where
  w : W64
  groups : Nat
  deriving DecidableEq, Repr

/-- A port aligned anew, and the 16-bit arrival times of its markers at this end and at the far one (R79, R93). -/
structure Alignment where
  port : Nat
  t1 : Int
  far : Nat
  deriving DecidableEq, Repr

/-- A test pattern (R520): a polynomial sequence from a state of its generator, runs, or symbols that repeat. -/
inductive Pattern where
  | prbs13q (seed : Nat)
  | prbs31q (seed : Nat)
  | square (run : Nat)
  | user (bytes : List Byte)
  deriving DecidableEq, Repr

/-- What the security island finds when it verifies a slot at boot (R431, R447). -/
structure BootCheck where
  railFail : Bool := false
  slotAok : Bool := true
  slotBok : Bool := true
  deriving DecidableEq, Repr

end Sys2Proof
end

