-- ==== Sys2Proof/Syntax.lean ====
section
/-! DEFINITION. The commands of the block: one constructor per row of spec/opcode_table.json. Operands are what the
event brings from outside: a port, a position, a cell, a measurement, a command's header and payload, or an
instruction word and the core (and engine) that issues it. Which numbers name what: core positions, port indices and
end-point ids are the spec's (R14, *Port registers*, R23); port index 160 + k is port k of the chiplet; end-point
instance 0-15 is the hub's, 16 the control processor's, 17 the chiplet (R12); `bank` 0 is the timetable, 1 the signpost
tables, 2 the group table; `fclk` counts from FCLK 0 of the current frame (R6). -/

namespace Sys2Proof

inductive Instr where
  /-- R34. A new frame begins at FCLK 0 and ACLK 0, and every frame-boundary action of the sled or end-point runs. -/
  | frameTick (p : PowerSample)
  /-- R38. A received frame marker updates the follower's offset and delay estimates and slews or steps TBCLK. -/
  | frameMarker (port : Nat) (m : Marker)
  /-- R79. Alignment after a phase step completes within 300 frames, and the link carries cells again. -/
  | realignDone (a : Alignment)
  /-- R39. After the offset has stayed within ±2 ns for 64 consecutive frames, the timebase enters LOCKED. -/
  | lockAchieved
  /-- R39. When the offset exceeds 10 ns in 4 consecutive frames, a LOCKED sled returns to ACQUIRE. -/
  | lockLost
  /-- R39. When no marker arrives from the followed sled in 4 consecutive frames, a LOCKED sled enters HOLDOVER. -/
  | holdoverEntry
  /-- R39. When a sled in HOLDOVER has heard no master after 64 frames and is not itself master, it enters FREE. -/
  | holdoverExpiry
  /-- R45. A sled that hears no lower-numbered sled within 64 frames of entering DISCOVERY declares itself frame master. -/
  | masterDeclare
  /-- R46. After 16 frames in HOLDOVER, the lowest-numbered sled still present declares itself master and keeps its own tick and frame count. -/
  | masterTakeover
  /-- R47. Mastership passes to an arriving lower-numbered sled at the first frame that is a multiple of 4,096 after that sled has been LOCKED for 4,096 frames. -/
  | masterHandover (plane : Nat)
  /-- R48. Sixteen frames after a frame slip, guaranteed admission resumes. -/
  | slipBarEnd
  /-- R414. Command that writes cell and core entry records into the inactive timetable bank. -/
  | timetableLoad (r : CmdReq)
  /-- R60. Command that asks for the inactive timetable bank to be checked and swapped in at frame N. -/
  | timetableSwap (r : CmdReq)
  /-- R60. The check of a bank named in a swap ends; the bank passes to ARMED or stays in BUILDING with a refusal. -/
  | swapCheckDone (bank : Nat)
  /-- R60. At FCLK 0 of frame N an ARMED timetable, signpost or group bank becomes active and its swap command completes. -/
  | bankSwap (bank : Nat)
  /-- R60. At frame N+5 the copy of the active bank into the inactive bank ends, and the inactive bank returns to BUILDING. -/
  | bankCopyDone (bank : Nat)
  /-- R88. A port receives a cell and discards it if it is malformed, lies in an uncorrectable codeword or would overflow the alignment buffer. -/
  | cellReceive (port : Nat) (cell : Cell) (uncorr overflow : Bool)
  /-- R112. A cell entering a core position passes lookup, partition and state checks and timetable admission, and joins an input pool. -/
  | cellIngress (pos : Nat) (cell : Cell) (fclk : Nat)
  /-- R111. In a slot, an input sends one cell to the intermediate it is connected to, in the service order of its groups. -/
  | firstStageSend (input fclk : Nat)
  /-- R114. In a slot, an intermediate sends its oldest eligible cell to the output it is connected to. -/
  | secondStageSend (inter fclk : Nat)
  /-- R118. An output sends the head of its guaranteed-and-control queue, or of its best-effort queue, when the port or hub link can take a cell. -/
  | outputSend (pos fclk : Nat)
  /-- R125. An item whose line is no longer busy is handed to the hub end-point, and its line becomes busy. -/
  | entryHandover (hub fclk : Nat)
  /-- R126. The hub end-point reports an entry performed, and the hub output sends one ACK, or a ST_POISON NACK, per original cell. -/
  | hubPerformed (hub item : Nat) (fault : LineFault)
  /-- R127. Clearing COMBINE_EN closes every open entry and makes every later cell a pass-through item. -/
  | combineEn (v : Bool)
  /-- R128. A best-effort or control cell, store or entry whose age would reach 64 is discarded. -/
  | ageDiscard
  /-- R75. A receiver ring that cannot lock within 20 ms leaves its wavelength out of training. -/
  | ringLockTimeout (port wl : Nat)
  /-- R92. Received power below −12 dBm on every working wavelength for 1,600 FCLK takes the port DOWN. -/
  | lightLoss (port : Nat)
  /-- R92. A DOWN port tries to train again after 1 ms, or every 60 s after eight failures. -/
  | trainingRetry (port : Nat)
  /-- R554. Four frames with every working wavelength uncorrectable or without codeword lock take a trained port DOWN. -/
  | codedStreamLoss (port : Nat)
  /-- R93. Light detected, or RETRAIN, starts training, which runs light, equalisation, codeword lock, qualification, identity, version check and placement. -/
  | trainingStart (port : Nat) (info : Option TrainInfo)
  /-- R93. A training step that exceeds its limit returns the port to DOWN and records FAIL_STEP. -/
  | trainingStepTimeout (port step : Nat)
  /-- R92. Writing ENABLE of OP_PORT_CTL darkens and downs the port, or lets it train. -/
  | enable (port : Nat) (v : Bool)
  /-- R97. Writing FW_OVERRIDE of OP_PORT_CTL sets acceptance of a different firmware major for the next training. -/
  | fwOverride (port : Nat) (v : Bool)
  /-- R93. Writing RETRAIN of OP_PORT_CTL makes the port leave its state and start TRAINING. -/
  | retrain (port : Nat)
  /-- R91. Writing FORCE_DOWN of OP_PORT_CTL holds the port DOWN or releases it. -/
  | forceDown (port : Nat) (v : Bool)
  /-- R555. Writing FORCE_MAINT of OP_PORT_CTL moves a trained port to MAINTENANCE, or on clearing places it again. -/
  | forceMaint (port : Nat) (v : Bool)
  /-- R101. At the end of a 1,000,000-frame interval, per-wavelength BER is evaluated, RX_REPORTs are sent and retirements decided. -/
  | berIntervalEnd (port : Nat) (errors uncorr : List Nat)
  /-- R100. The deciding end receives the far end's per-interval error report. -/
  | rxReport (port : Nat) (errors : List Nat)
  /-- R102. The far end receives RETIRE, revises its own bank for N and replies RETIRE_ACK. -/
  | retire (port wl cause n : Nat)
  /-- R102. The deciding end receives RETIRE_ACK and stops sending RETIRE. -/
  | retireAck (port wl : Nat)
  /-- R103. A wavelength that loses ring lock, goes dark or is uncorrectable for 4 frames is lost; width falls and RETIRE names N = F_L + 4. -/
  | wavelengthLost (port wl : Nat)
  /-- R102. At FCLK 0 of N both ends change the slot mapping to the new width and the revised banks become active. -/
  | widthChange (pos : Nat)
  /-- R138. Command that writes port-table and far-window entries into the inactive signpost bank, optionally with a swap. -/
  | signpostLoad (r : CmdReq)
  /-- R141. Command that replaces the plan and compares every port afresh. -/
  | planLoad (r : CmdReq)
  /-- R146. Command that accepts every current difference of the named DIFF_GEN, optionally adopting swapped mesh and uplink ports. -/
  | planAccept (r : CmdReq)
  /-- R144. A port still DOWN after 150 ms in DISCOVERY counts as settled. -/
  | portSettleTimeout (port : Nat)
  /-- R145. At a frame boundary the sled moves among DISCOVERY, PLAN_CHECK, SERVICE and DEGRADED as its differences allow. -/
  | planStateChange
  /-- R147. At the frame boundary after a change in its inputs, the sled recomputes the live substitution of mesh positions. -/
  | substitutionRecompute
  /-- R156. A cell reaching the Tollgate has its far window checked and joins a batch or becomes a SINGLE transfer. -/
  | tollgateReceive (cell : Cell)
  /-- R157. A batch closes after GATHER_FRAMES frame boundaries and becomes a transfer. -/
  | batchClose (batch : Nat)
  /-- R158. A SINGLE transfer leaves once every earlier batch for its page and context has its TRANSFER_ACK. -/
  | singleRelease (tid : Nat)
  /-- R151. When an uplink can start a train, the oldest waiting transfer leaves on a productive uplink or takes a detour. -/
  | uplinkDispatch (uplink : Nat)
  /-- R159. A train arriving on an uplink is checked for budget and buffer room, forwarded or performed at the far side. -/
  | trainReceive (uplink : Nat) (head : Option Cell) (rest : List (Option Cell))
  /-- R160. When every issued cell is answered, the far Tollgate returns a TRANSFER_ACK, DATA_RESPONSE or TRANSFER_NACK. -/
  | farComplete (key : Nat)
  /-- R153. A transfer whose AGE would reach 1,024 is discarded. -/
  | transferAgeDiscard (key : Nat)
  /-- R162. The origin Tollgate resends an unanswered transfer at 256, 512 and 768 frames. -/
  | transferResend (tid : Nat)
  /-- R162. At 1,024 frames without answer the origin Tollgate NACKs every original with ST_LOST and forgets the transfer. -/
  | transferGiveUp (tid : Nat)
  /-- R162. An answer reaching the origin Tollgate produces one ACK or RESPONSE per original cell. -/
  | transferAnswer (t : Transfer)
  /-- R172. An engine presents a request, which is translated, checked, routed by plane or served from cache or the direct path. -/
  | requestIssue (ep : Nat) (r : MemReq)
  /-- R176. A cell held by the sequence window, table capacity, release hold or reservation pacing is transmitted. -/
  | requestTransmit (ep key : Nat)
  /-- R208. A release held until earlier requests completed is transmitted, or completes with ST_FENCE_LOST. -/
  | releaseSend (ep req : Nat)
  /-- R178. A target accepts a cell through its sequence window and performs it at its home or answers it as a duplicate. -/
  | targetReceive (ep plane : Nat) (cell : Cell) (fault : LineFault)
  /-- R182. A RESPONSE, ACK or NACK reaches the requester, completes its cell and possibly its request, milestone and cache fill. -/
  | answerReceive (ep plane : Nat) (cell : Cell)
  /-- R183. At a retransmission mark, or on a RETRY NACK, an unanswered cell is sent again with RETX and its SEQ. -/
  | retransmit (ep key : Nat)
  /-- R184. A cell unanswered at its final mark completes with ST_LOST, and LOST_PENDING is set. -/
  | requestLost (ep key : Nat)
  /-- R180. A reply record is discarded 256 frames after the atomic was performed. -/
  | replyRecordExpiry (ep : Nat)
  /-- R181. A sequence window with no arrival for 1,024 frames is discarded. -/
  | seqWindowExpiry (ep key : Nat)
  /-- R181. After power-on or reset, an end-point block begins sending requests at SEQ 0 after 1,024 frames. -/
  | startupQuietEnd (ep : Nat)
  /-- R187. On a demotion notice, the end-point sets DEMOTED in matching EP_RESV entries. -/
  | demotionNotice (ep plane : Nat) (cell : Cell)
  /-- R187. Writing DEMOTE_CLR clears every DEMOTED bit. -/
  | demoteClr (ep : Nat)
  /-- R195. Writing VOLATILE turns volatile mode on, dropping every cached line, or off. -/
  | volatileSet (ep : Nat) (v : Bool)
  /-- R189. A register write to COUNT takes effect at once and pending waits are evaluated against it. -/
  | msCountWrite (ep ms : Nat) (v : W64)
  /-- R189. A pending milestone wait is satisfied when COUNT reaches its target and completes as an acquire. -/
  | milestoneSatisfied (ep wait : Nat)
  /-- R189. An unsatisfied milestone wait ends with ST_PENDING at FCLK 0 after its deadline. -/
  | waitDeadline (ep : Nat)
  /-- R217. A fence whose covered requests and scratch writes have all completed completes with ST_OK or ST_FENCE_LOST. -/
  | fenceComplete (ep fence : Nat)
  /-- R221. A token wait completes in the first ACLK in which the token reaches its target. -/
  | tokenWaitDone (core engine : Nat)
  /-- R234. Command that writes group entries into the inactive group bank, optionally with a swap. -/
  | groupLoad (r : CmdReq)
  /-- R239. Command that checks a descriptor and arms a slot and the roots the sled holds, releasing early arrivals. -/
  | instanceArm (r : CmdReq)
  /-- R246. A reduction unit acts on a JOIN, ABORT or DONE: discard, hold early, join, poison or count done. -/
  | joinReceive (cell : Cell) (fclk : Nat)
  /-- R559. A reduction unit acts on a CONTRIB: discard, hold early, handle a residual, or add it into the chunk's entry. -/
  | contribReceive (cell : Found Cell) (fclk : Nat)
  /-- R250. A cell held 32 frames in the early-arrival area is discarded and sets EARLY_DROP for its slot. -/
  | earlyArrivalExpiry
  /-- R252. An entry open 32 frames, or the oldest when units run out, is written to the spill region and freed. -/
  | entrySpill (slot : Nat) (chunk : Found Nat)
  /-- R248. Once per rotation the sled places a map ACK for each source into the output queue when it has room. -/
  | mapAckSend
  /-- R115. A reduction unit hands a held RESULT to the root's unicast queue when that queue has room. -/
  | resultHandoff (slot : Nat) (chunk : Handoff)
  /-- R255. The root writes a RESULT into its region, answers with map ACKs and advances ROOT_MS with the prefix. -/
  | resultReceive (ep : Nat) (cell : Cell)
  /-- R258. The broadcast root sends its next chunk once the gate milestone allows it. -/
  | bcastSend (ep slot : Nat)
  /-- R259. A member writes a BCAST chunk into its destination region and sends DONE once it holds every chunk. -/
  | bcastReceive (ep : Nat) (cell : Cell)
  /-- R259. A member with missing chunks and no BCAST for 4 frames reads them from the root's source region. -/
  | bcastRecovery (ep slot : Nat)
  /-- R261. An instance ends on a sled at its end condition, and the sled sends its end notice and files lateness. -/
  | instanceEnd (slot : Nat)
  /-- R261. At the end of frame D an unfinished instance ends with ST_LATE_MEMBER. -/
  | instanceDeadline (slot : Nat)
  /-- R262. An unanswered end notice is sent again 16, 32 and 48 frames later. -/
  | endNoticeRepeat (slot : Nat)
  /-- R263. A participant combines end notices and completes its request once it has every notice that concerns it. -/
  | endNoticeReceive (ep plane : Nat) (cell : Cell)
  /-- R263. A notice still missing at the end of D + 80 counts as ST_LOST. -/
  | noticeMissing (ep slot : Nat)
  /-- R239. 256 frames after CLOSING began, the slot becomes FREE. -/
  | slotFree (slot : Nat)
  /-- R284. Writing RD_SR_SEED restarts every reduction unit's generator. -/
  | rdSrSeed (seed : W64)
  /-- R288. At each interval end, hub-link lane margin violations are judged and a lane retirement may be planned. -/
  | laneMarginInterval (hub : Nat) (rx tx : List Nat)
  /-- R288. A hub-link lane whose receiver loses lock is lost without a plan. -/
  | laneLost (hub lane : Nat)
  /-- R290. The memory controller performs an accepted read, write or atomic at the point of coherence. -/
  | memoryAccess (hub : Nat) (r : MemReq) (fault : LineFault)
  /-- R304. A bank's refresh interval expires and refresh is issued ahead of every other class. -/
  | refreshDue (hub chan rank bank : Nat)
  /-- R301. Patrol scrub reads the next line and corrects what it finds. -/
  | patrolScrub (hub : Nat) (fault : LineFault)
  /-- R304. Every 16 frames the hub reads package temperatures and sets refresh bands, HOT and holds. -/
  | tempRead (hub : Nat) (temps : List Nat)
  /-- R308. At a boundary after GO or D + 60,000,000 with no conflicting instance, MOVE begins and the populated size falls. -/
  | retireMoveStart (hub : Nat)
  /-- R308. Writing GO of HB_RETIRE_CTL lets a PENDING retirement enter MOVE. -/
  | retireGo (hub : Nat)
  /-- R309. A granule is copied to its spare location and the watermark rises; after the last row the retirement is DONE. -/
  | retireRowCopy (hub : Found Nat)
  /-- R311. Setting a mirror window VALID marks every page dirty, or ignores the window and sets BAD_WINDOW. -/
  | mirrorValidSet (hub window : Nat)
  /-- R314. Writing RESYNC marks every page dirty, clears PARTNER_LOST and resumes sending. -/
  | mirrorResync (hub window : Nat)
  /-- R312. The mirror engine clears the next dirty bit and sends the page as 64 WRITEs to the partner hub. -/
  | mirrorPageSend (hub : Found Nat)
  /-- R313. Writing HB_MIRROR_SYNC starts a sync of the named windows to a milestone, or sets BAD_SYNC. -/
  | mirrorSync (hub ms windows : Nat)
  /-- R313. A sync completes when its pages have been sent and their WRITEs completed, advancing its milestone. -/
  | mirrorSyncComplete (hub : Nat)
  /-- R332. At ACLK 600 the scheduler fixes the kind and context of the next frame and the mover loads the standby set. -/
  | quantumSchedule (core : Nat)
  /-- R337. A reserved quantum ending with an engine short of step end counts an OVERRUN. -/
  | quantumOverrun (core : Nat)
  /-- R343. Scalar add of s[A] and the second operand. -/
  | addS (core : Nat) (w : W64)
  /-- R343. Scalar subtract. -/
  | subS (core : Nat) (w : W64)
  /-- R343. Low 64 bits of the scalar product. -/
  | mulS (core : Nat) (w : W64)
  /-- R343. High 64 bits of the unsigned scalar product. -/
  | mulhu (core : Nat) (w : W64)
  /-- R343. Scalar bitwise AND. -/
  | andS (core : Nat) (w : W64)
  /-- R343. Scalar bitwise OR. -/
  | orS (core : Nat) (w : W64)
  /-- R343. Scalar bitwise XOR. -/
  | xorS (core : Nat) (w : W64)
  /-- R343. Scalar left shift. -/
  | shl (core : Nat) (w : W64)
  /-- R343. Scalar logical right shift. -/
  | shr (core : Nat) (w : W64)
  /-- R343. Scalar arithmetic right shift. -/
  | sra (core : Nat) (w : W64)
  /-- R343. Signed scalar minimum. -/
  | minS (core : Nat) (w : W64)
  /-- R343. Signed scalar maximum. -/
  | maxS (core : Nat) (w : W64)
  /-- R343. Unsigned scalar minimum. -/
  | minu (core : Nat) (w : W64)
  /-- R343. Unsigned scalar maximum. -/
  | maxu (core : Nat) (w : W64)
  /-- R343. Unsigned scalar quotient. -/
  | divu (core : Nat) (w : W64)
  /-- R343. Unsigned scalar remainder. -/
  | remu (core : Nat) (w : W64)
  /-- R343. Scalar set if equal. -/
  | seq (core : Nat) (w : W64)
  /-- R343. Scalar set if less, signed. -/
  | slt (core : Nat) (w : W64)
  /-- R343. Scalar set if less, unsigned. -/
  | sltu (core : Nat) (w : W64)
  /-- R343. Load sign-extended immediate. -/
  | li (core : Nat) (w : W64)
  /-- R343. Load immediate into the upper 32 bits. -/
  | lih (core : Nat) (w : W64)
  /-- R343. Branch if equal. -/
  | beq (core : Nat) (w : W64)
  /-- R343. Branch if not equal. -/
  | bne (core : Nat) (w : W64)
  /-- R343. Branch if less, signed. -/
  | blt (core : Nat) (w : W64)
  /-- R343. Branch if greater or equal, signed. -/
  | bge (core : Nat) (w : W64)
  /-- R343. Branch if less, unsigned. -/
  | bltu (core : Nat) (w : W64)
  /-- R343. Branch if greater or equal, unsigned. -/
  | bgeu (core : Nat) (w : W64)
  /-- R343. Jump and link. -/
  | jal (core : Nat) (w : W64)
  /-- R366. Jump to register, faulting FETCH_RANGE on high bits. -/
  | jr (core : Nat) (w : W64)
  /-- R344. Scalar scratch load. -/
  | sld (core : Nat) (w : W64)
  /-- R344. Scalar scratch store. -/
  | sst (core : Nat) (w : W64)
  /-- R210. Scalar scratch load as an acquire. -/
  | slda (core : Nat) (w : W64)
  /-- R208. Scalar scratch store as a release. -/
  | sstr (core : Nat) (w : W64)
  /-- R345. Read a system value selected by IMM. -/
  | rdsys (core : Nat) (w : W64)
  /-- R345. Read and clear LAST_STATUS into a scalar register. -/
  | rdstat (core : Nat) (w : W64)
  /-- R206. Plain memory read request. -/
  | ld (core : Nat) (w : W64)
  /-- R206. Volatile memory read request. -/
  | ldv (core : Nat) (w : W64)
  /-- R210. Acquire memory read request. -/
  | lda (core : Nat) (w : W64)
  /-- R206. Plain memory write request. -/
  | st (core : Nat) (w : W64)
  /-- R208. Release memory write request. -/
  | str (core : Nat) (w : W64)
  /-- R347. Plain atomic request. -/
  | atm (core : Nat) (w : W64)
  /-- R347. Acquire atomic request, fetching only. -/
  | atma (core : Nat) (w : W64)
  /-- R347. Release atomic request. -/
  | atmr (core : Nat) (w : W64)
  /-- R348. INVALIDATE request aimed at a named reader. -/
  | inval (core : Nat) (w : W64)
  /-- R364. Collective member request from a scratch request block. -/
  | coll (core : Nat) (w : W64)
  /-- R365. Abort of a held collective member request. -/
  | collx (core : Nat) (w : W64)
  /-- R350. DMA of plain reads into scratch. -/
  | dmain (core : Nat) (w : W64)
  /-- R350. DMA of volatile reads into scratch. -/
  | dmainv (core : Nat) (w : W64)
  /-- R350. DMA of plain writes from scratch. -/
  | dmaout (core : Nat) (w : W64)
  /-- R350. DMA of non-fetching ADDs from scratch elements. -/
  | dmaadd (core : Nat) (w : W64)
  /-- R351. Scratch-to-scratch copy. -/
  | dmacp (core : Nat) (w : W64)
  /-- R351. A DMA transfer completes when every piece has completed, advancing its milestone. -/
  | dmaTransferComplete (core xfer : Nat)
  /-- R320. Vector load from scratch. -/
  | vld (core : Nat) (w : W64)
  /-- R320. Vector broadcast load of one element. -/
  | vldb (core : Nat) (w : W64)
  /-- R320. Vector store to scratch. -/
  | vst (core : Nat) (w : W64)
  /-- R281. Vector add. -/
  | vadd (core : Nat) (w : W64)
  /-- R281. Vector subtract. -/
  | vsub (core : Nat) (w : W64)
  /-- R281. Vector multiply. -/
  | vmul (core : Nat) (w : W64)
  /-- R281. Vector fused multiply-add. -/
  | vfma (core : Nat) (w : W64)
  /-- R275. Lane-wise minimum. -/
  | vmin (core : Nat) (w : W64)
  /-- R275. Lane-wise maximum. -/
  | vmax (core : Nat) (w : W64)
  /-- R275. Lane-wise select on comparison. -/
  | vsel (core : Nat) (w : W64)
  /-- R353. Vector reciprocal. -/
  | vrcp (core : Nat) (w : W64)
  /-- R353. Vector reciprocal square root. -/
  | vrsq (core : Nat) (w : W64)
  /-- R353. Vector power of two. -/
  | vexp2 (core : Nat) (w : W64)
  /-- R354. Tree sum of all lanes into lane 0. -/
  | vrsum (core : Nat) (w : W64)
  /-- R354. Maximum of all lanes into lane 0. -/
  | vrmax (core : Nat) (w : W64)
  /-- R355. Vector format conversion. -/
  | vcvt (core : Nat) (w : W64)
  /-- R320. Set every lane to an immediate. -/
  | vsplat (core : Nat) (w : W64)
  /-- R317. Matrix multiply-accumulate into a tile. -/
  | mma (core : Nat) (w : MmaWork)
  /-- R358. Zero an accumulator tile. -/
  | mzero (core : Nat) (w : W64)
  /-- R359. Write an accumulator tile to scratch in a chosen format. -/
  | mout (core : Nat) (w : W64)
  /-- R358. Load an accumulator tile from an fp32 scratch image. -/
  | mload (core : Nat) (w : W64)
  /-- R342. Load index register with immediate. -/
  | xli (core engine : Nat) (w : W64)
  /-- R342. Add immediate to index register. -/
  | xadd (core engine : Nat) (w : W64)
  /-- R342. Branch if index register is non-zero. -/
  | xbnz (core engine : Nat) (w : W64)
  /-- R342. Decrement index register and branch if non-zero. -/
  | xloop (core engine : Nat) (w : W64)
  /-- R342. Relative jump on an index-class engine. -/
  | xjmp (core engine : Nat) (w : W64)
  /-- R345. Read and clear LAST_STATUS into an index register. -/
  | xstat (core engine : Nat) (w : W64)
  /-- R342. Load immediate into upper half of an index register. -/
  | xlih (core engine : Nat) (w : W64)
  /-- R217. Fence of a scope. -/
  | fence (core engine : Nat) (w : W64)
  /-- R221. Token signal after earlier scratch writes. -/
  | tsig (core engine : Nat) (w : W64)
  /-- R221. Token wait to a target. -/
  | twait (core engine : Nat) (w : W64)
  /-- R360. Milestone wait with optional deadline. -/
  | mswait (core engine : Nat) (w : W64)
  /-- R361. Release that adds to a milestone. -/
  | msadd (core engine : Nat) (w : W64)
  /-- R362. Step end of the engine. -/
  | step (core engine : Nat) (w : W64)
  /-- R362. The engine stops for the rest of the kernel. -/
  | endE (core engine : Nat) (w : W64)
  /-- R340. No operation. -/
  | nop (core engine : Nat) (w : W64)
  /-- R370. Command that creates a context with its quota, milestones and standing records. -/
  | contextCreate (r : CmdReq)
  /-- R387. Command that stops a context's work and, once its requests finish, zeroes its sled state. -/
  | contextScrub (r : CmdReq)
  /-- R387. When every outstanding request of the scrubbed context has finished, its structures are zeroed and it becomes FREE. -/
  | scrubDrainDone (ctx : Nat)
  /-- R374. Command that checks and places a kernel image or standard kernel on named cores. -/
  | kernelLoad (r : CmdReq)
  /-- R383. Command that starts or resumes a loaded kernel on named cores. -/
  | kernelStart (r : CmdReq)
  /-- R385. Command that stops a kernel, optionally unloading it. -/
  | kernelStop (r : CmdReq)
  /-- R385. After a stop with UNLOAD, once its requests complete, the partition and code are released. -/
  | unloadDone (ctx core : Nat)
  /-- R384. A kernel has ended on every named core and its KERNEL_START completes. -/
  | kernelEnd (ctx core : Nat)
  /-- R389. A standard ring kernel takes a request record whose STAMP matches, serves it and release-writes FLAG. -/
  | ringRequest (core ctx : Nat)
  /-- R390. Once ROOT_MS covers a batch, a core updates its share of weights and moments and advances DONE_MS and GATE_MS. -/
  | optimizerBatch (core ctx : Nat)
  /-- R395. A frame received on H0 or H1 is filtered by VLAN and protocol and handled or discarded. -/
  | ethernetFrame (f : EthFrame)
  /-- R397. Every 30 s the sled sends an LLDP frame on each port. -/
  | lldpSend
  /-- R402. A UDP command packet is checked against the allow-list and header rules, collected, and its command started. -/
  | commandPacket (port addr udp : Nat) (bytes : List Byte)
  /-- R403. A partial command without a fragment for 1,000,000 frames is discarded. -/
  | partialCommandExpiry
  /-- R408. A pending command completes, its result is stored under its tag and a completion notice may be sent. -/
  | commandComplete (owner tag : Nat)
  /-- R412. Command returning the sled's identity, state, frame and calendar time. -/
  | identify (r : CmdReq)
  /-- R413. Command reading a list of registers. -/
  | regRead (r : CmdReq)
  /-- R413. Command writing a list of registers in order. -/
  | regWrite (r : CmdReq)
  /-- R415. Command reading hub memory through the control-processor end-point. -/
  | memRead (r : CmdReq)
  /-- R415. Command writing hub memory through the control-processor end-point. -/
  | memWrite (r : CmdReq)
  /-- R409. Command returning the state or stored result of a tagged command. -/
  | resultRead (r : CmdReq)
  /-- R410. Command retiring a list of tags. -/
  | tagRetire (r : CmdReq)
  /-- R418. A COMMAND cell piece is acknowledged and collected, and a complete in-band command is checked and started. -/
  | inbandCommandPiece (cell : Cell)
  /-- R418. Pieces that do not complete their command within 4,096 frames are discarded. -/
  | inbandPieceExpiry
  /-- R423. An RDMA WRITE is checked, performed in pieces and acknowledged after every piece is performed. -/
  | rdmaWrite (p : RdmaPkt)
  /-- R423. An RDMA READ request is checked and answered with data read at the point of coherence. -/
  | rdmaRead (p : RdmaPkt)
  /-- R421. Any other RoCEv2 opcode is answered NAK Invalid Request and its queue pair enters ERROR. -/
  | rdmaUnsupported (p : RdmaPkt)
  /-- R424. Writing a queue pair's STATE moves it through RESET and READY. -/
  | qpStateWrite (qp : Nat) (v : W64)
  /-- R425. An IEEE 1588 message updates master selection and calendar time. -/
  | ptpMessage (m : PtpMsg)
  /-- R426. Writing HE_TIME_SET sets calendar time or is ignored while PTP is locked. -/
  | timeSet (v : W64)
  /-- R401. A write to an allow-list entry takes effect for later packets and retires the old entry's tags. -/
  | allowListWrite (entry word : Nat) (v : W64)
  /-- R427. Input entering 46–58 V puts the sled in STANDBY and charges the hold-up store. -/
  | powerOn (volts : Nat)
  /-- R20. A strap or plug change after latching sets STRAP_CHANGED and asserts the alert line. -/
  | strapChange (st : Straps)
  /-- R429. After 100 ms of good conditions, the sled latches its straps and runs BOOT: rails, verification, keys, control processor. -/
  | bootEntry (st : Straps) (chk : BootCheck)
  /-- R432. When all sixteen hubs finish zeroing, INIT ends and the sled enters DISCOVERY or MAINTENANCE. -/
  | initEnd
  /-- R436. Writing MAINT of CP_STATE_CTL drains the sled into MAINTENANCE. -/
  | maint
  /-- R436. Writing RESUME of CP_STATE_CTL moves the sled from MAINTENANCE to DISCOVERY. -/
  | resume
  /-- R439. At the end of the drain, kernels stop, instances end ST_LOST, pages are written and the sled enters MAINTENANCE or STANDBY. -/
  | drainEnd
  /-- R440. A logic die at 105 °C removes core, switch and optical rails in hardware and the sled enters HALT. -/
  | thermalTrip
  /-- R440. Writing BOOT_HOLD of PT_BOOT withholds or releases BOOT, letting a halted sled return to STANDBY. -/
  | bootHold (v : Bool)
  /-- R430. Clearing BOOT_FAIL over the board-management pair lets the sled try BOOT again. -/
  | bootFailClear
  /-- R441. Command that restarts one unit: port, core, hub, Tollgate or control processor. -/
  | resetPartial (r : CmdReq)
  /-- R445. One frame after its reply, a control reset discards tags and commands and restarts the control processor. -/
  | controlReset
  /-- R441. A unit returns to service and RESET_PARTIAL completes with ST_OK. -/
  | resetDone (unit index : Nat)
  /-- R448. Command that writes bundle bytes into the inactive slot and verifies it on LAST. -/
  | fwStage (r : CmdReq)
  /-- R449. Command that activates the staged bundle LIVE or through a FULL drain and boot. -/
  | fwActivate (r : CmdReq)
  /-- R450. The new firmware answers IDENTIFY, sets CONFIRMED and the staged slot becomes running and preferred. -/
  | liveConfirm
  /-- R452. An unconfirmed LIVE activation after 10 s falls back to the previous slot. -/
  | liveTimeout
  /-- R451. A FULL trial that reaches neither DISCOVERY nor MAINTENANCE within 60 s boots the previous slot. -/
  | fullTrialTimeout
  /-- R454. An uncorrectable error in a unit's internal state starts that unit's partial reset in the next frame. -/
  | eccUncorrectable (unit index : Nat)
  /-- R455. An uncorrectable table word invalidates the active entry or makes the next swap refuse. -/
  | tableEccError (addr : Nat)
  /-- R456. In its phase frame every 256 frames, each end of a link sends a periodic heartbeat. -/
  | heartbeatSend (port : Nat)
  /-- R458. Within 2 frames of a change in LEAVE, LINKS, HUB_UP, LEAVING_MAP or DARK, a CHANGE heartbeat is sent. -/
  | changeHeartbeat
  /-- R457. A received heartbeat updates Vigil, leaving and dark status and the mesh-link report. -/
  | heartbeatReceive (port : Nat) (cell : Cell)
  /-- R461. At a subject's window end a missed window is counted and the subject may become SUSPECT. -/
  | vigilWindowEnd (subject : Nat)
  /-- R463. Command applying DEAD, ALIVE or CLEAR verdicts and their CONFIRM GONE marks. -/
  | vigilConfirm (r : CmdReq)
  /-- R465. At a sled's DEPART frame, or after 4 frames without a path, DEPART marks are set on its 18 ids. -/
  | goneDepart (plane : Nat)
  /-- R465. At the boundary after a LIGHT or DEPART clear condition holds, the mark is cleared. -/
  | goneClear (id : Nat)
  /-- R467. Busbar outside 46–58 V for 2 µs starts the input-loss drain sequence. -/
  | inputLoss
  /-- R467. At L+2 every ARMED instance ends with ST_LOST. -/
  | inputLossInstanceEnd
  /-- R467. At L+4,000 the rails are removed and the sled goes OFF. -/
  | inputLossRailsOff
  /-- R551. PRESENT_N rising while powered is handled as an input loss. -/
  | presentNRise
  /-- R468. Every 100 frames flow and inlet are sampled, bands set and a coolant emergency declared. -/
  | coolantSample (flow inlet outlet : Nat)
  /-- R487. Every frame PT reads die sensors, applies pressure, sets HALT at 95 °C and removes DRAM rails at 110 °C. -/
  | dieTempSample (t : DieTemps)
  /-- R469. After 1,000 frames of good flow and cool dies, the emergency and its HALT and OPP_STOP clear. -/
  | emergencyEnd
  /-- R480. After 1,000 quiet frames the ladder falls one position. -/
  | ladderFall
  /-- R477. BOOST_OK clears when the budget reaches 0 or an episode reaches 20,000,000 frames. -/
  | boostExhaust
  /-- R477. BOOST_OK sets again when the budget reaches 8,000 J. -/
  | boostRestore
  /-- R489. Command setting LIMIT, BOOST_EN and LADDER_MIN. -/
  | powerPolicy (r : CmdReq)
  /-- R488. Once per 1,000,000 frames each comb source's WEAR is advanced by its case temperature. -/
  | laserWearUpdate (temps : List Nat)
  /-- R490. At each 4,096-frame period end, per-context throttle counts are advanced. -/
  | throttlePeriod
  /-- R499. Command returning signed evidence or certificates, served by the security island. -/
  | attest (r : CmdReq)
  /-- R500. Writing GO of SI_ATT_CTL makes the island form evidence for the board-management pair. -/
  | attGo
  /-- R497. A failed health test clears RNG_OK and stops the random source. -/
  | rngHealthFail
  /-- R502. Within 8 frames of a table change the island recomputes its hash. -/
  | tableHashUpdate (table : Nat)
  /-- R505. JTAG, UART or SVC I²C activity begins a debug session, recorded and alerted. -/
  | debugSessionStart (source : Nat)
  /-- R505. After 10 s without debug activity the session ends. -/
  | debugSessionEnd
  /-- R509. At a page edge the minute, hour or day page closes and the next opens. -/
  | pageEdge
  /-- R515. A closed page's records are written to flash, with retries and FLASH_FAIL. -/
  | pageWrite (ok : Bool)
  /-- R516. Command returning 16 stored records or a snapshot of an open page. -/
  | almanacWindow (r : CmdReq)
  /-- R517. A held snapshot is released after 1,000,000 frames. -/
  | snapshotExpiry
  /-- R519. Writing GO of TM_SNAP requests a copy of every TM_POS counter. -/
  | tmSnapGo
  /-- R519. At FCLK 0 of the next frame the counters are copied and DONE is set. -/
  | tmShadowCopy
  /-- R521. Command scheduling pattern tests on named wavelengths. -/
  | linkTest (r : CmdReq)
  /-- R522. At frame N the named wavelengths send and check the test pattern. -/
  | linkTestStart (owner tag : Nat)
  /-- R522. A checker locks after 64 error-free symbols or unlocks after excess errors. -/
  | checkerLock (port wl : Nat) (locked : Bool) (errors bits : Nat)
  /-- R522. After DURATION frames the test ends, ports train again and the command completes. -/
  | linkTestEnd (owner tag : Nat) (bits : List (Nat × Nat))
  /-- R523. A generator places a PATTERN cell at its input position in a free FCLK. -/
  | patternPlace (gen fclk : Nat) (free : Bool)
  /-- R526. A checker takes a matching PATTERN cell and counts loss, duplicates, bit errors and latency. -/
  | patternCheck (cell : Cell) (fclk : Nat)
  /-- R526. Setting ENABLE of a checker clears its counters. -/
  | pchkEnable (chk : Nat) (v : W64)
  /-- R529. Command scheduling beacon tracing of named ports. -/
  | wiringVerify (r : CmdReq)
  /-- R529. From N for DURATION named ports beacon and listen, then train and report outcomes. -/
  | wiringVerifyStart (owner tag : Nat)
  /-- R528. A port not UP that receives beacons answers with beacons carrying what it hears. -/
  | beaconReceive (port : Nat) (b : Beacon)
  /-- R528. 20 ms after its last beacon a port resumes training. -/
  | beaconTimeout (port : Nat)
  /-- R530. Command measuring return and insertion loss of named ports. -/
  | connectorInspect (r : CmdReq)
  /-- R530. From N each port launches inspection light on each wavelength in turn and measures it. -/
  | connectorInspectStart (owner tag : Nat) (rl il : List Nat)
  /-- R531. A UCIe module trains at 32 GT/s or is left out until chiplet reset. -/
  | ucieModuleTrain (m : Nat) (ok : Bool)
  /-- R533. A REQUEST message presents one memory request of a requester to the chiplet. -/
  | request (r : MemReq) (rsv : Bool)
  /-- R533. SYNC message operation FENCE for a requester. -/
  | syncFence (rq tag ctx scope : Nat) (keep rsv : Bool)
  /-- R533. SYNC message operation WAIT on a milestone. -/
  | syncWait (rq tag ctx scope : Nat) (keep : Bool) (ms : Nat) (target : W64) (deadline : Nat) (rsv : Bool)
  /-- R533. SYNC message operation ADD to a milestone. -/
  | syncAdd (rq tag ctx scope ms : Nat) (count : W64) (rsv : Bool)
  /-- R542. COLL message operation MEMBER presenting a member request. -/
  | collMember (rq tag ctx : Nat) (ms : Option Nat) (g : Bool) (block : List Byte) (rsv : Bool)
  /-- R542. COLL message operation ROOT_ARM arming the chiplet as root for a slot. -/
  | collRootArm (rq tag ctx : Nat) (ms : Option Nat) (g : Bool) (block : List Byte) (rsv : Bool)
  /-- R542. COLL message operation ABORT for a held member request. -/
  | collAbort (rq tag ctx : Nat) (ms : Option Nat) (g : Bool) (block : List Byte) (rsv : Bool)
  /-- R418. An INBAND message carries an in-band command stream from the accelerator. -/
  | inbandMessage (plane ctx : Nat) (stream : List Byte)
  /-- R536. HOME_DATA fills a line in the store, or makes waiting accesses answer ST_POISON. -/
  | homeData (line : Nat) (data : BitVec 512) (uncorr : Bool)
  /-- R536. HOME_DONE acknowledges a HOME_WRITE and frees the line to leave the store. -/
  | homeDone (line : Nat)
  /-- R536. A HOME_READ or HOME_WRITE unanswered for 64 frames answers waiting cells with ST_POISON. -/
  | homeTimeout (line : Nat)
  /-- R536. An access waiting for a line store slot proceeds once a line can leave. -/
  | lineStoreAdmit (line : Nat)
  /-- R540. Writing PORTS_EN of CH_CTL lets the chiplet's ports train. -/
  | portsEn (v : Bool)
  /-- R539. A fabric write setting SB_LOCK locks sideband writes to translation and related registers. -/
  | sbLock (v : Bool)
  /-- R543. RESET, power-on or a UCIe reset of every module resets the chiplet, completing requests with ST_LOST. -/
  | chipletReset
  /-- R541. Writing GO of CH_TEST runs the far end of a LINK_TEST or CONNECTOR_INSPECT from CH_TEST_BUF. -/
  | chTestGo (kind : Nat)
  /-- R544. At a 105 °C junction or 100 °C optical case the chiplet darkens its ports and holds itself in reset. -/
  | chipletThermalTrip (junction optical : Nat)
  /-- R550. An I²C transaction on the board-management pair reads or writes one register. -/
  | bmTransaction (write : Bool) (addr : Nat) (v : W64)
  /-- R10. A write to a register with no row of its own sets its fields by their access codes. -/
  | registerWrite (via addr : Nat) (v : W64)
  /-- R497. The random source passes its health tests again, RNG_OK returns, and waiting signing and ATTEST commands proceed. -/
  | rngOkReturn
  /-- R544. When the logic junction and the optical case both lie below 85 °C, the chiplet leaves its thermal reset hold. -/
  | chipletThermalRelease (junction optical : Nat)
  /-- R395. H0 or H1 gains or loses PCS alignment and MAC link, or a module is fitted or removed, updating HE_PORT and the port used for notices. -/
  | hostPortLinkChange (port : Nat) (up module : Bool) (kind : Nat)
  /-- R529. At the end of DURATION the named ports stop beaconing, train under R93, and the command completes with its outcomes. -/
  | wiringVerifyEnd (owner tag : Nat)
  /-- R500. The island finishes forming evidence for a GO over the board-management pair, sets DONE and clears BUSY. -/
  | attEvidenceReady
  deriving DecidableEq, Repr

end Sys2Proof
end

