-- ==== Sys2Proof/Decode.lean ====
section
/-! DEFINITION. Commands spelled as bits. The opcode table gives none of its rows bits: the commands arrive as events,
cells and command packets, so no word spells one. -/

namespace Sys2Proof

/-- The command a word spells by the table's bits: none, for no row gives any. -/
def decodeTableWord (_nbits _w : Nat) : Option Instr := none

end Sys2Proof
end

