-- ==== Sys2Proof/Machine/Bits.lean ====
section
/-! DEFINITION. Bit ranges, bytes and sparse tables: the helpers every other definition of the machine uses. -/

namespace Sys2Proof.Machine

/-! ## Sparse tables -/

/-- The value under a key. -/
def kget {α : Type} : KV α → Nat → Option α
  | [], _ => none
  | (a, v) :: t, k => if a = k then some v else kget t k

/-- The value under a key, or a default. -/
def kgetD {α : Type} (m : KV α) (k : Nat) (d : α) : α := (kget m k).getD d

/-- Sets a key's value; keys stay strictly rising. -/
def kset {α : Type} : KV α → Nat → α → KV α
  | [], k, v => [(k, v)]
  | (a, w) :: t, k, v =>
    if k < a then (k, v) :: (a, w) :: t
    else if k = a then (k, v) :: t
    else (a, w) :: kset t k v

/-- Removes a key. -/
def kdel {α : Type} : KV α → Nat → KV α
  | [], _ => []
  | (a, w) :: t, k => if a = k then t else (a, w) :: kdel t k

/-- Changes the value under a key, starting from a default. -/
def kupd {α : Type} (m : KV α) (k : Nat) (d : α) (f : α → α) : KV α := kset m k (f (kgetD m k d))

/-- Keys strictly rising: the canonical order of a sparse table. -/
def krising {α : Type} : KV α → Bool
  | [] => true
  | [_] => true
  | (a, _) :: (b, w) :: t => a < b && krising ((b, w) :: t)

/-! ## Bits -/

/-- Bits [hi:lo] of a number (R2). -/
def bitsOf (v hi lo : Nat) : Nat := v / 2 ^ lo % 2 ^ (hi + 1 - lo)

/-- The number with bits [hi:lo] replaced. -/
def splice (v hi lo f : Nat) : Nat :=
  v % 2 ^ lo + f % 2 ^ (hi + 1 - lo) * 2 ^ lo + v / 2 ^ (hi + 1) * 2 ^ (hi + 1)

/-- Bit i of a number. -/
def bitAt (v i : Nat) : Bool := v / 2 ^ i % 2 == 1

/-- Sets bit i. -/
def bitSet (v i : Nat) : Nat := if bitAt v i then v else v + 2 ^ i

/-- Clears bit i. -/
def bitClr (v i : Nat) : Nat := if bitAt v i then v - 2 ^ i else v

/-- Number of bits set among the low n bits. -/
def popCount (v : Nat) : Nat → Nat
  | 0 => 0
  | n + 1 => popCount v n + (if bitAt v n then 1 else 0)

/-- Indices of the bits set among the low n bits, lowest first. -/
def bitList (v n : Nat) : List Nat := (List.range n).filter (bitAt v ·)

/-- The map whose bits are the list's numbers. -/
def bitMap (l : List Nat) : Nat := l.foldl bitSet 0

/-- The low n bits as a two's complement number. -/
def signed (v n : Nat) : Int :=
  if bitAt v (n - 1) then (v % 2 ^ n : Nat) - (2 ^ n : Nat) else ((v % 2 ^ n : Nat) : Int)

/-- An integer as n bits, two's complement. -/
def unsigned (v : Int) (n : Nat) : Nat := (v % (2 ^ n : Nat)).toNat

/-- Position of the highest bit set, 0 for 0. -/
def log2 (v : Nat) : Nat := Nat.log2 v

/-- Quotient rounded up. -/
def ceilDiv (a b : Nat) : Nat := (a + b - 1) / b

/-! ## Bytes -/

/-- The number a list of bytes makes, little-endian (R3). -/
def leNat : List Byte → Nat
  | [] => 0
  | b :: t => b.toNat + 256 * leNat t

/-- The number a list of bytes makes, big-endian (R4). -/
def beNat (l : List Byte) : Nat := l.foldl (fun a b => 256 * a + b.toNat) 0

/-- n bytes of a number, little-endian (R3). -/
def leBytes (v : Nat) : Nat → List Byte
  | 0 => []
  | n + 1 => BitVec.ofNat 8 v :: leBytes (v / 256) n

/-- n bytes of a number, big-endian (R4). -/
def beBytes (v n : Nat) : List Byte := (leBytes v n).reverse

/-- Bytes [o, o + n) of a list, zero beyond its end. -/
def bytesAt (l : List Byte) (o n : Nat) : List Byte :=
  let t := (l.drop o).take n
  t ++ List.replicate (n - t.length) 0

/-- The little-endian field of n bytes at offset o. -/
def field (l : List Byte) (o n : Nat) : Nat := leNat (bytesAt l o n)

/-- Byte i of a line. -/
def lineByte (d : BitVec 512) (i : Nat) : Byte := BitVec.ofNat 8 (d.toNat / 2 ^ (8 * i))

/-- The 64 bytes of a line. -/
def lineBytes (d : BitVec 512) : List Byte := leBytes d.toNat 64

/-- A line from bytes, zero beyond the end. -/
def lineOf (l : List Byte) : BitVec 512 := BitVec.ofNat 512 (leNat l)

/-- A line with the bytes of a mask replaced. -/
def mergeLine (old new : BitVec 512) (mask : Nat) : BitVec 512 :=
  lineOf ((List.range 64).map fun i => if bitAt mask i then lineByte new i else lineByte old i)

/-- The mask of bytes [o, o + n) of a line. -/
def lineMask (o n : Nat) : Nat := (2 ^ n - 1) * 2 ^ o

/-! ## Lists -/

/-- The first element that satisfies p and the list without it. -/
def takeFirst {α : Type} (p : α → Bool) : List α → Option (α × List α)
  | [] => none
  | x :: t => if p x then some (x, t) else (takeFirst p t).map fun r => (r.1, x :: r.2)

/-- Replaces the first element that satisfies p. -/
def replaceFirst {α : Type} (p : α → Bool) (f : α → α) : List α → List α
  | [] => []
  | x :: t => if p x then f x :: t else x :: replaceFirst p f t

/-- Adds an element that is not there. -/
def addNew (l : List Nat) (x : Nat) : List Nat := if l.contains x then l else l ++ [x]

/-- Index of the first element that satisfies p. -/
def findIdx {α : Type} (p : α → Bool) : List α → Nat → Option Nat
  | [], _ => none
  | x :: t, i => if p x then some i else findIdx p t (i + 1)

end Sys2Proof.Machine
end

