-- ==== Sys2Proof/Machine/Fp.lean ====
section
/-! DEFINITION. Number formats and arithmetic (R265 to R284): exact dyadic values, decoding, rounding, the operations of
reductions, atomics and cores, and MX blocks. -/

namespace Sys2Proof.Machine

/-- A floating-point value: NaN, an infinity, or (-1)^neg × m × 2^e exactly. -/
inductive FV where
  | nan
  | inf (neg : Bool)
  | fin (neg : Bool) (m : Nat) (e : Int)
  deriving DecidableEq, Repr

/-- A format of R265: width, exponent bits, fraction bits, bias, and what its top exponent holds: 0 infinity and NaN,
1 NaN in the all-ones code alone (E4M3), 2 numbers alone. -/
structure Fmt where
  w : Nat
  ew : Nat
  fw : Nat
  bias : Nat
  top : Nat
  deriving DecidableEq, Repr

namespace Fmt
def fp32 : Fmt := ⟨32, 8, 23, 127, 0⟩
def fp16 : Fmt := ⟨16, 5, 10, 15, 0⟩
def bf16 : Fmt := ⟨16, 8, 7, 127, 0⟩
def e5m2 : Fmt := ⟨8, 5, 2, 15, 0⟩
def e4m3 : Fmt := ⟨8, 4, 3, 7, 1⟩
def e3m2 : Fmt := ⟨6, 3, 2, 3, 2⟩
def e2m3 : Fmt := ⟨6, 2, 3, 1, 2⟩
def e2m1 : Fmt := ⟨4, 2, 1, 1, 2⟩
end Fmt

/-- The canonical NaN (R267). -/
def Fmt.nanBits (f : Fmt) : Nat :=
  match f.top with
  | 0 => (2 ^ f.ew - 1) * 2 ^ f.fw + 2 ^ (f.fw - 1)
  | 1 => 2 ^ (f.w - 1) - 1
  | _ => 0

/-- Infinity without its sign. -/
def Fmt.infBits (f : Fmt) : Nat := (2 ^ f.ew - 1) * 2 ^ f.fw

/-- The largest finite magnitude M, as bits. -/
def Fmt.maxBits (f : Fmt) : Nat :=
  match f.top with
  | 0 => f.infBits - 1
  | 1 => 2 ^ (f.w - 1) - 2
  | _ => 2 ^ (f.w - 1) - 1

/-- Exponent of the largest normal (*Encodings*). -/
def Fmt.emax (f : Fmt) : Int := (f.maxBits / 2 ^ f.fw : Nat) - (f.bias : Int)

/-- Reads the bits of a format (R265). -/
def Fmt.decode (f : Fmt) (b : Nat) : FV :=
  let neg := bitAt b (f.w - 1)
  let ex := b / 2 ^ f.fw % 2 ^ f.ew
  let fr := b % 2 ^ f.fw
  if f.top = 0 ∧ ex = 2 ^ f.ew - 1 then (if fr = 0 then .inf neg else .nan)
  else if f.top = 1 ∧ b % 2 ^ (f.w - 1) = 2 ^ (f.w - 1) - 1 then .nan
  else if ex = 0 then .fin neg fr (1 - (f.bias : Int) - f.fw)
  else .fin neg (2 ^ f.fw + fr) ((ex : Int) - f.bias - f.fw)

/-- Sign bit. -/
def Fmt.sign (f : Fmt) (neg : Bool) : Nat := if neg then 2 ^ (f.w - 1) else 0

/-- 2^z for a natural z, 1 for a negative one. -/
def pow2 (z : Int) : Nat := 2 ^ z.toNat

/-- m1 × 2^e1 ≤ m2 × 2^e2. -/
def dyLe (m1 : Nat) (e1 : Int) (m2 : Nat) (e2 : Int) : Bool := m1 * pow2 (e1 - e2) ≤ m2 * pow2 (e2 - e1)

/-- How a result is rounded (R272): to nearest even, or stochastically with the value r drawn. -/
inductive Mode where
  | rne
  | sr (r : Nat)
  deriving DecidableEq, Repr

/-- Rounds a positive magnitude to the format, ignoring its upper limit: exponent and fraction bits (R272). -/
def Fmt.roundMag (f : Fmt) (mode : Mode) (m : Nat) (e : Int) : Nat :=
  let l : Int := (log2 m : Nat) + e
  let q : Int := max l (1 - (f.bias : Int)) - f.fw
  let sh := pow2 (q - e)
  let n := m * pow2 (e - q) / sh
  let rem := m * pow2 (e - q) % sh
  let up := match mode with
    | .rne => 2 * rem > sh || (2 * rem == sh && n % 2 == 1)
    | .sr r => r < rem * 65536 / sh
  let n := if up then n + 1 else n
  if n < 2 ^ f.fw then n
  else
    let n2 := if n = 2 ^ (f.fw + 1) then 2 ^ f.fw else n
    let q2 := if n = 2 ^ (f.fw + 1) then q + 1 else q
    (q2 + f.fw + f.bias).toNat * 2 ^ f.fw + (n2 - 2 ^ f.fw)

/-- The magnitude lies beyond M (R273). -/
def Fmt.beyond (f : Fmt) (m : Nat) (e : Int) : Bool :=
  match f.decode f.maxBits with
  | .fin _ mm em => !dyLe m e mm em
  | _ => false

/-- The magnitude reaches M + ulp / 2, or M + ulp for stochastic rounding (R273). -/
def Fmt.overflows (f : Fmt) (mode : Mode) (m : Nat) (e : Int) : Bool :=
  match f.decode f.maxBits with
  | .fin _ mm em =>
    match mode with
    | .rne => dyLe (2 * mm + 1) (em - 1) m e
    | .sr _ => dyLe (mm + 1) em m e
  | _ => false

/-- Converts a value to a format (R272, R273). `mx`: an MX element, which saturates. -/
def Fmt.encode (f : Fmt) (mode : Mode) (mx : Bool) (v : FV) : Nat :=
  match v with
  | .nan => f.nanBits
  | .inf neg => f.sign neg + (if mx then f.maxBits else f.infBits)
  | .fin neg m e =>
    if m = 0 then f.sign neg
    else if f.beyond m e then
      f.sign neg + (if mx || !f.overflows mode m e then f.maxBits else f.infBits)
    else f.sign neg + f.roundMag mode m e

/-! ## Exact operations -/

/-- A dyadic sum of two signed integers times powers of two. -/
def dyAdd (s1 : Bool) (m1 : Nat) (e1 : Int) (s2 : Bool) (m2 : Nat) (e2 : Int) : Int × Int :=
  let e := min e1 e2
  let a : Int := (m1 * pow2 (e1 - e) : Nat)
  let b : Int := (m2 * pow2 (e2 - e) : Nat)
  ((if s1 then -a else a) + (if s2 then -b else b), e)

/-- Exact sum. A zero sum is -0 only when both are negative (R274). -/
def FV.add (a b : FV) : FV :=
  match a, b with
  | .nan, _ => .nan
  | _, .nan => .nan
  | .inf x, .inf y => if x = y then .inf x else .nan
  | .inf x, _ => .inf x
  | _, .inf y => .inf y
  | .fin s1 m1 e1, .fin s2 m2 e2 =>
    let r := dyAdd s1 m1 e1 s2 m2 e2
    if r.1 = 0 then .fin (s1 && s2) 0 0 else .fin (decide (r.1 < 0)) r.1.natAbs r.2

def FV.neg (a : FV) : FV :=
  match a with
  | .nan => .nan
  | .inf x => .inf (!x)
  | .fin s m e => .fin (!s) m e

/-- Exact product. -/
def FV.mul (a b : FV) : FV :=
  match a, b with
  | .nan, _ => .nan
  | _, .nan => .nan
  | .inf x, .inf y => .inf (x != y)
  | .inf x, .fin s m _ => if m = 0 then .nan else .inf (x != s)
  | .fin s m _, .inf y => if m = 0 then .nan else .inf (s != y)
  | .fin s1 m1 e1, .fin s2 m2 e2 => .fin (s1 != s2) (m1 * m2) (e1 + e2)

/-- A value times 2^k. -/
def FV.scale (a : FV) (k : Int) : FV :=
  match a with
  | .fin s m e => .fin s m (e + k)
  | v => v

/-- The format's sum under RNE. -/
def Fmt.add (f : Fmt) (a b : Nat) : Nat := f.encode .rne false ((f.decode a).add (f.decode b))

/-- fp32 addition (R274, R281, R282). -/
def fadd32 (a b : Nat) : Nat := Fmt.fp32.add a b

/-! ## Comparison (R275) -/

def Fmt.isNan (f : Fmt) (b : Nat) : Bool := f.decode b == .nan

/-- Place in the order of R275: -inf < negatives < -0 < +0 < positives < +inf. -/
def Fmt.key (f : Fmt) (b : Nat) : Int :=
  let m : Int := (b % 2 ^ (f.w - 1) : Nat)
  if bitAt b (f.w - 1) then -m - 1 else m

/-- MIN of R275. -/
def Fmt.fmin (f : Fmt) (a b : Nat) : Nat :=
  if f.isNan a then (if f.isNan b then f.nanBits else b)
  else if f.isNan b then a
  else if f.key b < f.key a then b else a

/-- MAX of R275. -/
def Fmt.fmax (f : Fmt) (a b : Nat) : Nat :=
  if f.isNan a then (if f.isNan b then f.nanBits else b)
  else if f.isNan b then a
  else if f.key a < f.key b then b else a

/-! ## Atomics (R165, R282) -/

/-- Bytes of an element of a SUBTYPE; 0 for a reserved one. -/
def subWidth (t : Nat) : Nat :=
  match t with
  | 0 => 4 | 1 => 8 | 2 => 4 | 3 => 8 | 4 => 4 | 5 => 2 | 6 => 2 | 7 => 4 | 8 => 8
  | _ => 0

/-- The operation and type are allowed (R165): ADD 0-6, MIN and MAX 0-4, CAS 7 or 8. -/
def atomTypeOk (op t : Nat) : Bool :=
  match op with
  | 0 => t ≤ 6
  | 1 => t ≤ 4
  | 2 => t ≤ 4
  | 3 => t == 7 || t == 8
  | _ => false

/-- ADD, MIN or MAX of an element and an operand (R282). -/
def atomOp (op t old x : Nat) : Nat :=
  match op, t with
  | 0, 4 => Fmt.fp32.add old x
  | 0, 5 => Fmt.fp16.add old x
  | 0, 6 => Fmt.bf16.add old x
  | 0, _ => (old + x) % 2 ^ (8 * subWidth t)
  | 1, 4 => Fmt.fp32.fmin old x
  | 1, 0 => if signed x 32 < signed old 32 then x else old
  | 1, 1 => if signed x 64 < signed old 64 then x else old
  | 1, _ => min old x
  | 2, 4 => Fmt.fp32.fmax old x
  | 2, 0 => if signed old 32 < signed x 32 then x else old
  | 2, 1 => if signed old 64 < signed x 64 then x else old
  | 2, _ => max old x
  | _, _ => old

/-! ## MX blocks (R268 to R271, R277) -/

/-- Element i of a packed string of w-bit elements (R268). -/
def packGet (bits w i : Nat) : Nat := bits / 2 ^ (w * i) % 2 ^ w

/-- Packs elements of w bits, element 0 first (R268). -/
def packOf (w : Nat) : List Nat → Nat
  | [] => 0
  | x :: t => x % 2 ^ w + 2 ^ w * packOf w t

/-- The exact value of an MX element under a scale (R269). -/
def Fmt.mxVal (f : Fmt) (scale b : Nat) : FV :=
  if scale = 255 then .nan else (f.decode b).scale ((scale : Int) - 127)

/-- An MX element decoded into fp32 (R271): a product beyond the range becomes an infinity. -/
def Fmt.mxTo32 (f : Fmt) (scale b : Nat) : Nat := Fmt.fp32.encode .rne false (f.mxVal scale b)

/-- A rounded result and how it came out (RD_ARITH): saturated, to infinity, NaN. -/
structure Rounded where
  bits : Nat := 0
  sat : Bool := false
  toInf : Bool := false
  nan : Bool := false
  deriving DecidableEq, Repr

/-- Rounds an fp32 accumulator to fp16 or bf16 (R277). -/
def Fmt.roundAcc (f : Fmt) (mode : Mode) (v : Nat) : Rounded :=
  let x := Fmt.fp32.decode v
  let b := f.encode mode false x
  { bits := b
    nan := x == .nan
    toInf := match x with
      | .fin _ m e => m != 0 && f.beyond m e && f.overflows mode m e
      | _ => false
    sat := match x with
      | .fin _ m e => m != 0 && f.beyond m e && !f.overflows mode m e
      | _ => false }

/-- |a| ≤ |b| for finite fp32 bits. -/
def absLe (a b : Nat) : Bool := a % 2 ^ 31 ≤ b % 2 ^ 31

/-- Re-quantises one block of fp32 values with one mode per element (R277): scale and elements. -/
def Fmt.quantBlock (f : Fmt) (vs : List (Nat × Mode)) : Nat × List Rounded :=
  let bad := vs.any fun v => v.1 % 2 ^ 31 / 2 ^ 23 == 255
  if bad then (255, vs.map fun _ => {})
  else
    let m := vs.foldl (fun m v => max m (v.1 % 2 ^ 31)) 0
    if m = 0 then (127, vs.map fun v => { bits := f.sign (bitAt v.1 31) })
    else
      let lg : Int := match Fmt.fp32.decode m with
        | .fin _ mm e => (log2 mm : Nat) + e
        | _ => 0
      let e : Int := max (-127) (min 127 (lg - f.emax))
      ((e + 127).toNat, vs.map fun v =>
        let x := (Fmt.fp32.decode v.1).scale (-e)
        { bits := f.encode v.2 true x
          sat := match x with
            | .fin _ mm ee => mm != 0 && f.beyond mm ee
            | _ => false })

/-! ## Stochastic generators (R284) -/

/-- One xorshift step of R284. -/
def xorshift (x : W64) : W64 :=
  let x := x ^^^ (x <<< 13)
  let x := x ^^^ (x >>> 7)
  x ^^^ (x <<< 17)

/-- The value r of a state: bits [63:48]. -/
def drawOf (x : W64) : Nat := x.toNat / 2 ^ 48

/-- State of reduction unit m after a write of RD_SR_SEED; a zero state is set to 1. -/
def seedOf (seed : W64) (m : Nat) : W64 :=
  let x := seed ^^^ (BitVec.ofNat 64 m * 0x9E3779B97F4A7C15#64)
  if x = 0#64 then 1#64 else x

end Sys2Proof.Machine
end

