-- ==== Sys2Proof/Config.lean ====
section
/-! DEFINITION. What the spec leaves open: opaque constants with no body, so that no proof can rest on a value.
Each is named in the assumption log. -/

namespace Sys2Proof.Config

/-- The free value number n: every value the spec leaves open or does not state (assumption 4). -/
opaque freeNat : Nat → Nat

/-- The ML-DSA-87 signature of a message by a key of the sled: bytes no rule fixes (R499; assumption 12). -/
opaque signature : Nat → List Byte → List Byte

/-- Acceptance of a signature: public key hash, message, signature (R447; assumption 12). -/
opaque verify : Nat → List Byte → List Byte → Bool

/-- The fp32 result of VRCP, VRSQ (R353) among those within 1 ulp: -1, 0 or 1 in units of the last place, by opcode
and operand bits (assumption 13). -/
opaque ulp : Nat → Nat → Int

/-- Which of the two fp32 values around the exact one VEXP2 gives for a finite operand, by its low bit (R353; assumption
13). -/
opaque exp2 : Nat → Nat

/-- SHA3-512 of component i (R446) of the bundle that the sled left the factory with in a slot (0 A, 1 B), as 64 bytes;
i = 0: of the whole bundle (assumption 70). -/
opaque factoryHash : Nat → Nat → List Byte

/-- SHA3-512 of the recovery image (R431; assumption 70). -/
opaque recoveryHash : List Byte

/-- A line as hub h stores it at an HPA: AES-256-XTS under the hub's own keys, which no rule gives (R300; assumption 151). -/
opaque encrypted : Nat → Nat → BitVec 512 → BitVec 512

/-- The three check symbols over a stored line and the four over 60 bytes of a metadata line (R297), whose field and
generator no rule gives (assumption 151). -/
opaque checkSymbols : BitVec 512 → Nat
opaque metaSymbols : Nat → Nat

/-- The serial number (R412) and the device and intermediate certificates (assumption 71). -/
opaque serial : List Byte
opaque deviceCert : List Byte
opaque issuerCert : List Byte

/-- The busbar power floor of the sled's own calibration (R473), brought under its bound where it is used
(assumption 72). -/
opaque floor : Nat

end Sys2Proof.Config
end

