-- ==== Sys2Proof/Machine/Regs.lean ====
section
/-! DEFINITION. The registers of the block, written out from the register tables of the spec: for each register its
address, a handle per field, and a row of the descriptor table that gives every field's access code and reset value.
Sled registers stand at their 32-bit address; the chiplet's at 2^32 plus their offset (R538). -/

namespace Sys2Proof.Machine

/-- The access codes of R10. -/
inductive Acc where
  | ro | rw | wo | w1c | rc
  deriving DecidableEq, Repr

/-- A register field: the register's address and the bit range [hi:lo] (R2). -/
structure Fld where
  addr : Nat
  hi : Nat
  lo : Nat
  deriving DecidableEq, Repr

/-- A field of a descriptor row: bit range, access code, reset value. -/
structure FDesc where
  hi : Nat
  lo : Nat
  acc : Acc
  reset : Nat
  deriving DecidableEq, Repr

/-- A row of the descriptor table: the addresses base + i * s1 + j * s2 with i < c1 and j < c2. -/
structure RDesc where
  base : Nat
  s1 : Nat
  c1 : Nat
  s2 : Nat
  c2 : Nat
  fields : List FDesc
  deriving DecidableEq, Repr

/-- First address of the registers of end-point instance e: R12 for 0-16, R538 for the chiplet (17). -/
def epBase (e : Nat) : Nat := if e = 17 then 0x100000000 else 0x9000000 + 0x80000 * e

/-- First address of port p's registers (*Port registers*; chiplet port k is 160 + k, R538). -/
def opBase (p : Nat) : Nat := if p < 160 then 0x1000000 + 0x1000 * p else 0x100200000 + 0x1000 * (p - 160)

namespace R

/-- 01, *CP_ID*: the address of CP_ID. -/
abbrev CP_ID.addr : Nat := 0x0
abbrev CP_ID.VENDOR : Fld := ⟨CP_ID.addr, 15, 0⟩
abbrev CP_ID.PART : Fld := ⟨CP_ID.addr, 31, 16⟩
abbrev CP_ID.STEPPING : Fld := ⟨CP_ID.addr, 39, 32⟩
/-- 02, *TB_STATUS*: the address of TB_STATUS. -/
abbrev TB_STATUS.addr : Nat := 0x4000008
abbrev TB_STATUS.LOCK : Fld := ⟨TB_STATUS.addr, 1, 0⟩
abbrev TB_STATUS.MASTER : Fld := ⟨TB_STATUS.addr, 2, 2⟩
abbrev TB_STATUS.RELAYED : Fld := ⟨TB_STATUS.addr, 3, 3⟩
abbrev TB_STATUS.MASTER_PLANE : Fld := ⟨TB_STATUS.addr, 7, 4⟩
abbrev TB_STATUS.FOLLOW_PLANE : Fld := ⟨TB_STATUS.addr, 11, 8⟩
abbrev TB_STATUS.FRAME_SLIP : Fld := ⟨TB_STATUS.addr, 12, 12⟩
abbrev TB_STATUS.OFFSET : Fld := ⟨TB_STATUS.addr, 31, 16⟩
abbrev TB_STATUS.DELAY : Fld := ⟨TB_STATUS.addr, 47, 32⟩
/-- 02, *Cell entry*: the address of CELL0. -/
abbrev CELL0.addr (b n : Nat) : Nat := 0x4100000 + 0x100000 * b + 16 * n
abbrev CELL0.SRC_POS (b n : Nat) : Fld := ⟨CELL0.addr b n, 7, 0⟩
abbrev CELL0.DST_POS (b n : Nat) : Fld := ⟨CELL0.addr b n, 15, 8⟩
abbrev CELL0.CONTEXT (b n : Nat) : Fld := ⟨CELL0.addr b n, 21, 16⟩
abbrev CELL0.KIND (b n : Nat) : Fld := ⟨CELL0.addr b n, 23, 22⟩
abbrev CELL0.CELLS (b n : Nat) : Fld := ⟨CELL0.addr b n, 34, 24⟩
abbrev CELL0.VALID (b n : Nat) : Fld := ⟨CELL0.addr b n, 35, 35⟩
abbrev CELL0.GROUP (b n : Nat) : Fld := ⟨CELL0.addr b n, 47, 36⟩
abbrev CELL0.SRC_EP (b n : Nat) : Fld := ⟨CELL0.addr b n, 57, 48⟩
/-- 02, *Cell entry*: the address of CELL1. -/
abbrev CELL1.addr (b n : Nat) : Nat := 0x4100008 + 0x100000 * b + 16 * n
abbrev CELL1.ORDER (b n : Nat) : Fld := ⟨CELL1.addr b n, 31, 0⟩
/-- 02, *Core entry (entry n at bank base + 8 × n)*: the address of CORE_ENTRY. -/
abbrev CORE_ENTRY.addr (b n : Nat) : Nat := 0x4140000 + 0x100000 * b + 8 * n
abbrev CORE_ENTRY.CORE (b n : Nat) : Fld := ⟨CORE_ENTRY.addr b n, 7, 0⟩
abbrev CORE_ENTRY.CONTEXT (b n : Nat) : Fld := ⟨CORE_ENTRY.addr b n, 13, 8⟩
abbrev CORE_ENTRY.PERIOD_LOG2 (b n : Nat) : Fld := ⟨CORE_ENTRY.addr b n, 16, 14⟩
abbrev CORE_ENTRY.PHASE (b n : Nat) : Fld := ⟨CORE_ENTRY.addr b n, 23, 17⟩
abbrev CORE_ENTRY.POWER (b n : Nat) : Fld := ⟨CORE_ENTRY.addr b n, 35, 24⟩
abbrev CORE_ENTRY.VALID (b n : Nat) : Fld := ⟨CORE_ENTRY.addr b n, 36, 36⟩
/-- 02, *TB_POWER*: the address of TB_POWER. -/
abbrev TB_POWER.addr : Nat := 0x4000020
abbrev TB_POWER.FLOOR : Fld := ⟨TB_POWER.addr, 15, 0⟩
abbrev TB_POWER.LIMIT : Fld := ⟨TB_POWER.addr, 31, 16⟩
abbrev TB_POWER.RESERVED_PEAK : Fld := ⟨TB_POWER.addr, 47, 32⟩
/-- 02, *TB_BANK*: the address of TB_BANK. -/
abbrev TB_BANK.addr : Nat := 0x4000018
abbrev TB_BANK.ACTIVE : Fld := ⟨TB_BANK.addr, 0, 0⟩
abbrev TB_BANK.INACTIVE_STATE : Fld := ⟨TB_BANK.addr, 2, 1⟩
abbrev TB_BANK.CELL_ENTRIES : Fld := ⟨TB_BANK.addr, 18, 4⟩
abbrev TB_BANK.CORE_ENTRIES : Fld := ⟨TB_BANK.addr, 31, 19⟩
abbrev TB_BANK.DEMOTE_HEAD : Fld := ⟨TB_BANK.addr, 39, 32⟩
abbrev TB_BANK.DEMOTE_TOTAL : Fld := ⟨TB_BANK.addr, 63, 40⟩
/-- 02, *TB_DEMOTE[i]*: the address of TB_DEMOTE. -/
abbrev TB_DEMOTE.addr (i : Nat) : Nat := 0x4001000 + 8 * i
abbrev TB_DEMOTE.ENTRY (i : Nat) : Fld := ⟨TB_DEMOTE.addr i, 13, 0⟩
abbrev TB_DEMOTE.VALID (i : Nat) : Fld := ⟨TB_DEMOTE.addr i, 14, 14⟩
abbrev TB_DEMOTE.ORDER (i : Nat) : Fld := ⟨TB_DEMOTE.addr i, 47, 16⟩
abbrev TB_DEMOTE.FRAME (i : Nat) : Fld := ⟨TB_DEMOTE.addr i, 63, 48⟩
/-- 03, *OP_PORT_STATUS*: the address of OP_PORT_STATUS. -/
abbrev OP_PORT_STATUS.addr (p : Nat) : Nat := opBase p + 0x0
abbrev OP_PORT_STATUS.STATE (p : Nat) : Fld := ⟨OP_PORT_STATUS.addr p, 2, 0⟩
abbrev OP_PORT_STATUS.WIDTH (p : Nat) : Fld := ⟨OP_PORT_STATUS.addr p, 7, 4⟩
abbrev OP_PORT_STATUS.WL_WORKING (p : Nat) : Fld := ⟨OP_PORT_STATUS.addr p, 15, 8⟩
abbrev OP_PORT_STATUS.WL_RETIRED (p : Nat) : Fld := ⟨OP_PORT_STATUS.addr p, 23, 16⟩
abbrev OP_PORT_STATUS.FAR_PROTO (p : Nat) : Fld := ⟨OP_PORT_STATUS.addr p, 27, 24⟩
abbrev OP_PORT_STATUS.FAR_KIND (p : Nat) : Fld := ⟨OP_PORT_STATUS.addr p, 31, 28⟩
abbrev OP_PORT_STATUS.FAR_FW_MAJOR (p : Nat) : Fld := ⟨OP_PORT_STATUS.addr p, 39, 32⟩
abbrev OP_PORT_STATUS.FAR_FW_MINOR (p : Nat) : Fld := ⟨OP_PORT_STATUS.addr p, 47, 40⟩
abbrev OP_PORT_STATUS.FAR_PLANE (p : Nat) : Fld := ⟨OP_PORT_STATUS.addr p, 51, 48⟩
abbrev OP_PORT_STATUS.PROTO_HOLD (p : Nat) : Fld := ⟨OP_PORT_STATUS.addr p, 52, 52⟩
abbrev OP_PORT_STATUS.VERSION_HOLD (p : Nat) : Fld := ⟨OP_PORT_STATUS.addr p, 53, 53⟩
abbrev OP_PORT_STATUS.FAIL_STEP (p : Nat) : Fld := ⟨OP_PORT_STATUS.addr p, 56, 54⟩
/-- 03, *OP_PORT_CTL*: the address of OP_PORT_CTL. -/
abbrev OP_PORT_CTL.addr (p : Nat) : Nat := opBase p + 0x8
abbrev OP_PORT_CTL.ENABLE (p : Nat) : Fld := ⟨OP_PORT_CTL.addr p, 0, 0⟩
abbrev OP_PORT_CTL.FW_OVERRIDE (p : Nat) : Fld := ⟨OP_PORT_CTL.addr p, 1, 1⟩
abbrev OP_PORT_CTL.RETRAIN (p : Nat) : Fld := ⟨OP_PORT_CTL.addr p, 2, 2⟩
abbrev OP_PORT_CTL.FORCE_DOWN (p : Nat) : Fld := ⟨OP_PORT_CTL.addr p, 3, 3⟩
abbrev OP_PORT_CTL.FORCE_MAINT (p : Nat) : Fld := ⟨OP_PORT_CTL.addr p, 4, 4⟩
/-- 03, *OP_PORT_STATS*: the address of OP_PORT_STATS. -/
abbrev OP_PORT_STATS.addr (p : Nat) : Nat := opBase p + 0x10
abbrev OP_PORT_STATS.DISCARD_FEC (p : Nat) : Fld := ⟨OP_PORT_STATS.addr p, 31, 0⟩
abbrev OP_PORT_STATS.DISCARD_FORMAT (p : Nat) : Fld := ⟨OP_PORT_STATS.addr p, 47, 32⟩
abbrev OP_PORT_STATS.DISCARD_ALIGN (p : Nat) : Fld := ⟨OP_PORT_STATS.addr p, 63, 48⟩
/-- 03, *OP_DELAY*: the address of OP_DELAY. -/
abbrev OP_DELAY.addr (p : Nat) : Nat := opBase p + 0x18
abbrev OP_DELAY.ONE_WAY (p : Nat) : Fld := ⟨OP_DELAY.addr p, 15, 0⟩
/-- 03, *OP_WL_BER[k]*: the address of OP_WL_BER. -/
abbrev OP_WL_BER.addr (p k : Nat) : Nat := opBase p + 0x100 + 8 * k
abbrev OP_WL_BER.ERRORS_LAST (p k : Nat) : Fld := ⟨OP_WL_BER.addr p k, 31, 0⟩
abbrev OP_WL_BER.UNCORR_LAST (p k : Nat) : Fld := ⟨OP_WL_BER.addr p k, 47, 32⟩
abbrev OP_WL_BER.OVER_RUN (p k : Nat) : Fld := ⟨OP_WL_BER.addr p k, 49, 48⟩
abbrev OP_WL_BER.FAR_OVER (p k : Nat) : Fld := ⟨OP_WL_BER.addr p k, 50, 50⟩
/-- 04, *SW_CTL*: the address of SW_CTL. -/
abbrev SW_CTL.addr : Nat := 0x2000000
abbrev SW_CTL.COMBINE_EN : Fld := ⟨SW_CTL.addr, 0, 0⟩
abbrev SW_CTL.DENY_NACK : Fld := ⟨SW_CTL.addr, 1, 1⟩
/-- 04, *SW_DROP_IN*: the address of SW_DROP_IN. -/
abbrev SW_DROP_IN.addr (x : Nat) : Nat := 0x2010000 + 0x40 * x
abbrev SW_DROP_IN.PARTITION (x : Nat) : Fld := ⟨SW_DROP_IN.addr x, 15, 0⟩
abbrev SW_DROP_IN.GONE (x : Nat) : Fld := ⟨SW_DROP_IN.addr x, 31, 16⟩
abbrev SW_DROP_IN.FULL_BE (x : Nat) : Fld := ⟨SW_DROP_IN.addr x, 47, 32⟩
abbrev SW_DROP_IN.FULL_CTL (x : Nat) : Fld := ⟨SW_DROP_IN.addr x, 55, 48⟩
abbrev SW_DROP_IN.FULL_G (x : Nat) : Fld := ⟨SW_DROP_IN.addr x, 63, 56⟩
/-- 04, *SW_DROP_OUT*: the address of SW_DROP_OUT. -/
abbrev SW_DROP_OUT.addr (x : Nat) : Nat := 0x2010008 + 0x40 * x
abbrev SW_DROP_OUT.LINK (x : Nat) : Fld := ⟨SW_DROP_OUT.addr x, 15, 0⟩
abbrev SW_DROP_OUT.AGED_BE (x : Nat) : Fld := ⟨SW_DROP_OUT.addr x, 47, 16⟩
abbrev SW_DROP_OUT.AGED_CTL (x : Nat) : Fld := ⟨SW_DROP_OUT.addr x, 63, 48⟩
/-- 04, *SW_DEPTH*: the address of SW_DEPTH. -/
abbrev SW_DEPTH.addr (x : Nat) : Nat := 0x2010010 + 0x40 * x
abbrev SW_DEPTH.IN_G (x : Nat) : Fld := ⟨SW_DEPTH.addr x, 8, 0⟩
abbrev SW_DEPTH.IN_BE (x : Nat) : Fld := ⟨SW_DEPTH.addr x, 18, 9⟩
abbrev SW_DEPTH.IN_CTL (x : Nat) : Fld := ⟨SW_DEPTH.addr x, 25, 19⟩
abbrev SW_DEPTH.OUT_G (x : Nat) : Fld := ⟨SW_DEPTH.addr x, 33, 26⟩
abbrev SW_DEPTH.OUT_BE (x : Nat) : Fld := ⟨SW_DEPTH.addr x, 41, 34⟩
abbrev SW_DEPTH.COMB (x : Nat) : Fld := ⟨SW_DEPTH.addr x, 48, 42⟩
/-- 04, *SW_DEPTH_MAX*: the address of SW_DEPTH_MAX. -/
abbrev SW_DEPTH_MAX.addr (x : Nat) : Nat := 0x2010018 + 0x40 * x
abbrev SW_DEPTH_MAX.IN_G (x : Nat) : Fld := ⟨SW_DEPTH_MAX.addr x, 8, 0⟩
abbrev SW_DEPTH_MAX.IN_BE (x : Nat) : Fld := ⟨SW_DEPTH_MAX.addr x, 18, 9⟩
abbrev SW_DEPTH_MAX.IN_CTL (x : Nat) : Fld := ⟨SW_DEPTH_MAX.addr x, 25, 19⟩
abbrev SW_DEPTH_MAX.OUT_G (x : Nat) : Fld := ⟨SW_DEPTH_MAX.addr x, 33, 26⟩
abbrev SW_DEPTH_MAX.OUT_BE (x : Nat) : Fld := ⟨SW_DEPTH_MAX.addr x, 41, 34⟩
abbrev SW_DEPTH_MAX.COMB (x : Nat) : Fld := ⟨SW_DEPTH_MAX.addr x, 48, 42⟩
/-- 04, *SW_COMB*: the address of SW_COMB. -/
abbrev SW_COMB.addr (x : Nat) : Nat := 0x2010020 + 0x40 * x
abbrev SW_COMB.MERGED (x : Nat) : Fld := ⟨SW_COMB.addr x, 31, 0⟩
abbrev SW_COMB.ISSUED (x : Nat) : Fld := ⟨SW_COMB.addr x, 63, 32⟩
/-- 04, *SW_STALL*: the address of SW_STALL. -/
abbrev SW_STALL.addr (x : Nat) : Nat := 0x2010028 + 0x40 * x
abbrev SW_STALL.IN_STALL (x : Nat) : Fld := ⟨SW_STALL.addr x, 31, 0⟩
abbrev SW_STALL.OUT_STALL (x : Nat) : Fld := ⟨SW_STALL.addr x, 63, 32⟩
/-- 05, *Port table entry*: the address of PORT_TABLE. -/
abbrev PORT_TABLE.addr (b n : Nat) : Nat := 0x5100000 + 0x100000 * b + 8 * n
abbrev PORT_TABLE.POS (b n : Nat) : Fld := ⟨PORT_TABLE.addr b n, 7, 0⟩
abbrev PORT_TABLE.PARTITION (b n : Nat) : Fld := ⟨PORT_TABLE.addr b n, 11, 8⟩
abbrev PORT_TABLE.ALL_PART (b n : Nat) : Fld := ⟨PORT_TABLE.addr b n, 12, 12⟩
abbrev PORT_TABLE.ROUTED (b n : Nat) : Fld := ⟨PORT_TABLE.addr b n, 13, 13⟩
/-- 05, *Far window w*: the address of FAR_WINDOW. -/
abbrev FAR_WINDOW.addr (b w : Nat) : Nat := 0x5110000 + 0x100000 * b + 8 * w
abbrev FAR_WINDOW.RACK (b w : Nat) : Fld := ⟨FAR_WINDOW.addr b w, 7, 0⟩
abbrev FAR_WINDOW.SPACE (b w : Nat) : Fld := ⟨FAR_WINDOW.addr b w, 9, 8⟩
abbrev FAR_WINDOW.EP_ID (b w : Nat) : Fld := ⟨FAR_WINDOW.addr b w, 19, 10⟩
abbrev FAR_WINDOW.BASE (b w : Nat) : Fld := ⟨FAR_WINDOW.addr b w, 31, 20⟩
abbrev FAR_WINDOW.PARTITION (b w : Nat) : Fld := ⟨FAR_WINDOW.addr b w, 35, 32⟩
abbrev FAR_WINDOW.VALID (b w : Nat) : Fld := ⟨FAR_WINDOW.addr b w, 36, 36⟩
/-- 05, *SG_STATUS*: the address of SG_STATUS. -/
abbrev SG_STATUS.addr : Nat := 0x5000000
abbrev SG_STATUS.EPOCH : Fld := ⟨SG_STATUS.addr, 31, 0⟩
abbrev SG_STATUS.ACTIVE : Fld := ⟨SG_STATUS.addr, 32, 32⟩
abbrev SG_STATUS.INACTIVE_STATE : Fld := ⟨SG_STATUS.addr, 34, 33⟩
abbrev SG_STATUS.PLAN_LOADED : Fld := ⟨SG_STATUS.addr, 35, 35⟩
abbrev SG_STATUS.DUP_PLANE : Fld := ⟨SG_STATUS.addr, 36, 36⟩
abbrev SG_STATUS.DIFF_GEN : Fld := ⟨SG_STATUS.addr, 52, 37⟩
abbrev SG_STATUS.DIFFS : Fld := ⟨SG_STATUS.addr, 60, 53⟩
/-- 05, *SG_NOROUTE*: the address of SG_NOROUTE. -/
abbrev SG_NOROUTE.addr : Nat := 0x5000008
abbrev SG_NOROUTE.COUNT : Fld := ⟨SG_NOROUTE.addr, 31, 0⟩
/-- 05, *SG_FOUND[p]*: the address of SG_FOUND. -/
abbrev SG_FOUND.addr (p : Nat) : Nat := 0x5002000 + 8 * p
abbrev SG_FOUND.OUTCOME (p : Nat) : Fld := ⟨SG_FOUND.addr p, 2, 0⟩
abbrev SG_FOUND.FAR_KIND (p : Nat) : Fld := ⟨SG_FOUND.addr p, 7, 4⟩
abbrev SG_FOUND.FAR_RACK (p : Nat) : Fld := ⟨SG_FOUND.addr p, 15, 8⟩
abbrev SG_FOUND.FAR_PLANE (p : Nat) : Fld := ⟨SG_FOUND.addr p, 19, 16⟩
abbrev SG_FOUND.FAR_PORT (p : Nat) : Fld := ⟨SG_FOUND.addr p, 28, 20⟩
abbrev SG_FOUND.FAR_EP_ID (p : Nat) : Fld := ⟨SG_FOUND.addr p, 38, 29⟩
abbrev SG_FOUND.REACH_POS (p : Nat) : Fld := ⟨SG_FOUND.addr p, 46, 39⟩
/-- 05, *TG_CTL*: the address of TG_CTL. -/
abbrev TG_CTL.addr : Nat := 0x6000000
abbrev TG_CTL.MODE : Fld := ⟨TG_CTL.addr, 1, 0⟩
abbrev TG_CTL.GATHER_FRAMES : Fld := ⟨TG_CTL.addr, 13, 8⟩
abbrev TG_CTL.DETOUR_MAX : Fld := ⟨TG_CTL.addr, 18, 16⟩
abbrev TG_CTL.DETOUR_WAIT : Fld := ⟨TG_CTL.addr, 29, 24⟩
/-- 05, *TG_STATS*: the address of TG_STATS. -/
abbrev TG_STATS.addr : Nat := 0x6000008
abbrev TG_STATS.TRANSFERS : Fld := ⟨TG_STATS.addr, 23, 0⟩
abbrev TG_STATS.DETOURS : Fld := ⟨TG_STATS.addr, 39, 24⟩
abbrev TG_STATS.AGED : Fld := ⟨TG_STATS.addr, 51, 40⟩
abbrev TG_STATS.BUDGET : Fld := ⟨TG_STATS.addr, 57, 52⟩
abbrev TG_STATS.FULL : Fld := ⟨TG_STATS.addr, 63, 58⟩
/-- 06, *Translation entry n*: the address of TRANS0. -/
abbrev TRANS0.addr (e n : Nat) : Nat := epBase e + 0x10000 + 32 * n
abbrev TRANS0.VALID (e n : Nat) : Fld := ⟨TRANS0.addr e n, 0, 0⟩
abbrev TRANS0.CONTEXT (e n : Nat) : Fld := ⟨TRANS0.addr e n, 6, 1⟩
abbrev TRANS0.SIZE_LOG2 (e n : Nat) : Fld := ⟨TRANS0.addr e n, 12, 7⟩
abbrev TRANS0.READ (e n : Nat) : Fld := ⟨TRANS0.addr e n, 13, 13⟩
abbrev TRANS0.WRITE (e n : Nat) : Fld := ⟨TRANS0.addr e n, 14, 14⟩
abbrev TRANS0.ATOMIC (e n : Nat) : Fld := ⟨TRANS0.addr e n, 15, 15⟩
abbrev TRANS0.CACHE (e n : Nat) : Fld := ⟨TRANS0.addr e n, 16, 16⟩
abbrev TRANS0.WINDOW (e n : Nat) : Fld := ⟨TRANS0.addr e n, 28, 17⟩
/-- 06, *Translation entry n*: the address of TRANS1. -/
abbrev TRANS1.addr (e n : Nat) : Nat := epBase e + 0x10008 + 32 * n
abbrev TRANS1.VA_BASE (e n : Nat) : Fld := ⟨TRANS1.addr e n, 63, 12⟩
/-- 06, *Translation entry n*: the address of TRANS2. -/
abbrev TRANS2.addr (e n : Nat) : Nat := epBase e + 0x10010 + 32 * n
abbrev TRANS2.GA_BASE (e n : Nat) : Fld := ⟨TRANS2.addr e n, 63, 12⟩
/-- 06, *EP_RESV[i]*: the address of EP_RESV. -/
abbrev EP_RESV.addr (e i : Nat) : Nat := epBase e + 0x1000 + 8 * i
abbrev EP_RESV.VALID (e i : Nat) : Fld := ⟨EP_RESV.addr e i, 0, 0⟩
abbrev EP_RESV.PLANE (e i : Nat) : Fld := ⟨EP_RESV.addr e i, 4, 1⟩
abbrev EP_RESV.KIND (e i : Nat) : Fld := ⟨EP_RESV.addr e i, 6, 5⟩
abbrev EP_RESV.CONTEXT (e i : Nat) : Fld := ⟨EP_RESV.addr e i, 12, 7⟩
abbrev EP_RESV.TARGET (e i : Nat) : Fld := ⟨EP_RESV.addr e i, 24, 13⟩
abbrev EP_RESV.CELLS (e i : Nat) : Fld := ⟨EP_RESV.addr e i, 35, 25⟩
abbrev EP_RESV.DEMOTED (e i : Nat) : Fld := ⟨EP_RESV.addr e i, 36, 36⟩
/-- 06, *MS_COUNT[m]*: the address of MS_COUNT. -/
abbrev MS_COUNT.addr (e m : Nat) : Nat := epBase e + 0x40000 + 16 * m
abbrev MS_COUNT.COUNT (e m : Nat) : Fld := ⟨MS_COUNT.addr e m, 63, 0⟩
/-- 06, *MS_INFO[m]*: the address of MS_INFO. -/
abbrev MS_INFO.addr (e m : Nat) : Nat := epBase e + 0x40008 + 16 * m
abbrev MS_INFO.ERRORS (e m : Nat) : Fld := ⟨MS_INFO.addr e m, 31, 0⟩
abbrev MS_INFO.FIRST_STATUS (e m : Nat) : Fld := ⟨MS_INFO.addr e m, 47, 32⟩
abbrev MS_INFO.OWNER (e m : Nat) : Fld := ⟨MS_INFO.addr e m, 53, 48⟩
/-- 06, *EP_CTL*: the address of EP_CTL. -/
abbrev EP_CTL.addr (e : Nat) : Nat := epBase e + 0x0
abbrev EP_CTL.VOLATILE (e : Nat) : Fld := ⟨EP_CTL.addr e, 0, 0⟩
abbrev EP_CTL.CACHE_EN (e : Nat) : Fld := ⟨EP_CTL.addr e, 1, 1⟩
abbrev EP_CTL.BACKOFF_DEPTH (e : Nat) : Fld := ⟨EP_CTL.addr e, 7, 2⟩
abbrev EP_CTL.DEMOTE_CLR (e : Nat) : Fld := ⟨EP_CTL.addr e, 8, 8⟩
/-- 06, *EP_STATUS*: the address of EP_STATUS. -/
abbrev EP_STATUS.addr (e : Nat) : Nat := epBase e + 0x8
abbrev EP_STATUS.VOLATILE_ACTIVE (e : Nat) : Fld := ⟨EP_STATUS.addr e, 0, 0⟩
abbrev EP_STATUS.BAD_ENTRY (e : Nat) : Fld := ⟨EP_STATUS.addr e, 1, 1⟩
abbrev EP_STATUS.ORT_USED (e : Nat) : Fld := ⟨EP_STATUS.addr e, 19, 2⟩
abbrev EP_STATUS.WAITS (e : Nat) : Fld := ⟨EP_STATUS.addr e, 28, 20⟩
/-- 06, *EP_STATS*: the address of EP_STATS. -/
abbrev EP_STATS.addr (e : Nat) : Nat := epBase e + 0x10
abbrev EP_STATS.RETX_G (e : Nat) : Fld := ⟨EP_STATS.addr e, 15, 0⟩
abbrev EP_STATS.RETX_BE (e : Nat) : Fld := ⟨EP_STATS.addr e, 31, 16⟩
abbrev EP_STATS.DUP (e : Nat) : Fld := ⟨EP_STATS.addr e, 47, 32⟩
abbrev EP_STATS.LOST (e : Nat) : Fld := ⟨EP_STATS.addr e, 63, 48⟩
/-- 06, *EP_STATS2*: the address of EP_STATS2. -/
abbrev EP_STATS2.addr (e : Nat) : Nat := epBase e + 0x18
abbrev EP_STATS2.HITS (e : Nat) : Fld := ⟨EP_STATS2.addr e, 31, 0⟩
abbrev EP_STATS2.BACKOFF (e : Nat) : Fld := ⟨EP_STATS2.addr e, 47, 32⟩
abbrev EP_STATS2.REPLY_EVICT (e : Nat) : Fld := ⟨EP_STATS2.addr e, 63, 48⟩
/-- 07, *CO_ORDER_STATUS*: the address of CO_ORDER_STATUS. -/
abbrev CO_ORDER_STATUS.addr (c : Nat) : Nat := 0x8000180 + 0x10000 * c
abbrev CO_ORDER_STATUS.LOST_PENDING (c : Nat) : Fld := ⟨CO_ORDER_STATUS.addr c, 3, 0⟩
abbrev CO_ORDER_STATUS.RUNAHEAD (c : Nat) : Fld := ⟨CO_ORDER_STATUS.addr c, 4, 4⟩
abbrev CO_ORDER_STATUS.RUNAHEAD_LEN (c : Nat) : Fld := ⟨CO_ORDER_STATUS.addr c, 11, 5⟩
abbrev CO_ORDER_STATUS.ACQ_PENDING (c : Nat) : Fld := ⟨CO_ORDER_STATUS.addr c, 15, 12⟩
/-- 07, *CO_ORDER_STATS*: the address of CO_ORDER_STATS. -/
abbrev CO_ORDER_STATS.addr (c : Nat) : Nat := 0x8000188 + 0x10000 * c
abbrev CO_ORDER_STATS.SQUASH (c : Nat) : Fld := ⟨CO_ORDER_STATS.addr c, 31, 0⟩
abbrev CO_ORDER_STATS.FENCE_LOST (c : Nat) : Fld := ⟨CO_ORDER_STATS.addr c, 47, 32⟩
abbrev CO_ORDER_STATS.ACQ_INV (c : Nat) : Fld := ⟨CO_ORDER_STATS.addr c, 63, 48⟩
/-- 08, *Group entry g*: the address of GROUP0. -/
abbrev GROUP0.addr (b g : Nat) : Nat := 0x3100000 + 0x80000 * b + 64 * g
abbrev GROUP0.VALID (b g : Nat) : Fld := ⟨GROUP0.addr b g, 0, 0⟩
abbrev GROUP0.PARTITION (b g : Nat) : Fld := ⟨GROUP0.addr b g, 4, 1⟩
abbrev GROUP0.CONTEXT (b g : Nat) : Fld := ⟨GROUP0.addr b g, 10, 5⟩
abbrev GROUP0.MEMBERS (b g : Nat) : Fld := ⟨GROUP0.addr b g, 18, 11⟩
/-- 08, *Group entry g*: the address of GROUPW. -/
abbrev GROUPW.addr (b g k : Nat) : Nat := 0x3100000 + 0x80000 * b + 64 * g + 8 * k
abbrev GROUPW.MEMBER_MAP (b g k : Nat) : Fld := ⟨GROUPW.addr b g k, 63, 0⟩
/-- 08, *RD_STATUS*: the address of RD_STATUS. -/
abbrev RD_STATUS.addr : Nat := 0x3000000
abbrev RD_STATUS.GROUP_ACTIVE : Fld := ⟨RD_STATUS.addr, 0, 0⟩
abbrev RD_STATUS.GROUP_INACTIVE_STATE : Fld := ⟨RD_STATUS.addr, 2, 1⟩
abbrev RD_STATUS.EARLY_USED : Fld := ⟨RD_STATUS.addr, 15, 3⟩
abbrev RD_STATUS.ARMED : Fld := ⟨RD_STATUS.addr, 29, 16⟩
/-- 08, *RD_STATS*: the address of RD_STATS. -/
abbrev RD_STATS.addr : Nat := 0x3000008
abbrev RD_STATS.EARLY_DROP : Fld := ⟨RD_STATS.addr, 15, 0⟩
abbrev RD_STATS.STALE : Fld := ⟨RD_STATS.addr, 31, 16⟩
abbrev RD_STATS.NOT_MEMBER : Fld := ⟨RD_STATS.addr, 47, 32⟩
abbrev RD_STATS.DUP : Fld := ⟨RD_STATS.addr, 63, 48⟩
/-- 08, *RD_STATS2*: the address of RD_STATS2. -/
abbrev RD_STATS2.addr : Nat := 0x3000010
abbrev RD_STATS2.SPILLS : Fld := ⟨RD_STATS2.addr, 31, 0⟩
abbrev RD_STATS2.POISONED : Fld := ⟨RD_STATS2.addr, 47, 32⟩
abbrev RD_STATS2.RESULT_LOST : Fld := ⟨RD_STATS2.addr, 63, 48⟩
/-- 08, *RD_LATE[id]*: the address of RD_LATE. -/
abbrev RD_LATE.addr (i : Nat) : Nat := 0x3001000 + 8 * i
abbrev RD_LATE.B0 (i : Nat) : Fld := ⟨RD_LATE.addr i, 7, 0⟩
abbrev RD_LATE.B1 (i : Nat) : Fld := ⟨RD_LATE.addr i, 15, 8⟩
abbrev RD_LATE.B2 (i : Nat) : Fld := ⟨RD_LATE.addr i, 23, 16⟩
abbrev RD_LATE.B3 (i : Nat) : Fld := ⟨RD_LATE.addr i, 31, 24⟩
abbrev RD_LATE.B4 (i : Nat) : Fld := ⟨RD_LATE.addr i, 39, 32⟩
abbrev RD_LATE.B5 (i : Nat) : Fld := ⟨RD_LATE.addr i, 47, 40⟩
abbrev RD_LATE.B6 (i : Nat) : Fld := ⟨RD_LATE.addr i, 55, 48⟩
abbrev RD_LATE.B7 (i : Nat) : Fld := ⟨RD_LATE.addr i, 63, 56⟩
/-- 08, *RD_INST[n] word 0*: the address of RD_INST0. -/
abbrev RD_INST0.addr (n : Nat) : Nat := 0x3200000 + 16 * n
abbrev RD_INST0.STATE (n : Nat) : Fld := ⟨RD_INST0.addr n, 1, 0⟩
abbrev RD_INST0.EARLY_DROP (n : Nat) : Fld := ⟨RD_INST0.addr n, 2, 2⟩
abbrev RD_INST0.POISONED (n : Nat) : Fld := ⟨RD_INST0.addr n, 3, 3⟩
abbrev RD_INST0.GROUP (n : Nat) : Fld := ⟨RD_INST0.addr n, 15, 4⟩
abbrev RD_INST0.STATUS (n : Nat) : Fld := ⟨RD_INST0.addr n, 31, 16⟩
abbrev RD_INST0.ISEQ (n : Nat) : Fld := ⟨RD_INST0.addr n, 63, 32⟩
/-- 08, *RD_INST[n] word 1*: the address of RD_INST1. -/
abbrev RD_INST1.addr (n : Nat) : Nat := 0x3200008 + 16 * n
abbrev RD_INST1.DONE (n : Nat) : Fld := ⟨RD_INST1.addr n, 31, 0⟩
abbrev RD_INST1.JOINED (n : Nat) : Fld := ⟨RD_INST1.addr n, 39, 32⟩
/-- 09, *RD_ARITH*: the address of RD_ARITH. -/
abbrev RD_ARITH.addr : Nat := 0x3000018
abbrev RD_ARITH.NAN_BLOCKS : Fld := ⟨RD_ARITH.addr, 15, 0⟩
abbrev RD_ARITH.SATURATED : Fld := ⟨RD_ARITH.addr, 47, 16⟩
abbrev RD_ARITH.TO_INF : Fld := ⟨RD_ARITH.addr, 63, 48⟩
/-- 09, *RD_SR_SEED*: the address of RD_SR_SEED. -/
abbrev RD_SR_SEED.addr : Nat := 0x3000020
abbrev RD_SR_SEED.SEED : Fld := ⟨RD_SR_SEED.addr, 63, 0⟩
/-- 10, *HB_STATUS*: the address of HB_STATUS. -/
abbrev HB_STATUS.addr (h : Nat) : Nat := 0x7000000 + 0x100000 * h
abbrev HB_STATUS.CHANNELS (h : Nat) : Fld := ⟨HB_STATUS.addr h, 6, 0⟩
abbrev HB_STATUS.RETIRE_STATE (h : Nat) : Fld := ⟨HB_STATUS.addr h, 8, 7⟩
abbrev HB_STATUS.RETIRE_BLOCKED (h : Nat) : Fld := ⟨HB_STATUS.addr h, 9, 9⟩
abbrev HB_STATUS.RETIRE_CH (h : Nat) : Fld := ⟨HB_STATUS.addr h, 16, 10⟩
abbrev HB_STATUS.RETIRED_COUNT (h : Nat) : Fld := ⟨HB_STATUS.addr h, 20, 17⟩
abbrev HB_STATUS.ACTIVE_MAP (h : Nat) : Fld := ⟨HB_STATUS.addr h, 21, 21⟩
abbrev HB_STATUS.HOT (h : Nat) : Fld := ⟨HB_STATUS.addr h, 22, 22⟩
abbrev HB_STATUS.HELD (h : Nat) : Fld := ⟨HB_STATUS.addr h, 23, 23⟩
abbrev HB_STATUS.BAD_WINDOW (h : Nat) : Fld := ⟨HB_STATUS.addr h, 24, 24⟩
abbrev HB_STATUS.BAD_SYNC (h : Nat) : Fld := ⟨HB_STATUS.addr h, 25, 25⟩
/-- 10, *HB_SIZE*: the address of HB_SIZE. -/
abbrev HB_SIZE.addr (h : Nat) : Nat := 0x7000008 + 0x100000 * h
abbrev HB_SIZE.POPULATED (h : Nat) : Fld := ⟨HB_SIZE.addr h, 43, 0⟩
/-- 10, *HB_WATERMARK*: the address of HB_WATERMARK. -/
abbrev HB_WATERMARK.addr (h : Nat) : Nat := 0x7000010 + 0x100000 * h
abbrev HB_WATERMARK.WM (h : Nat) : Fld := ⟨HB_WATERMARK.addr h, 43, 0⟩
/-- 10, *HB_RETIRE_CTL*: the address of HB_RETIRE_CTL. -/
abbrev HB_RETIRE_CTL.addr (h : Nat) : Nat := 0x7000018 + 0x100000 * h
abbrev HB_RETIRE_CTL.GO (h : Nat) : Fld := ⟨HB_RETIRE_CTL.addr h, 0, 0⟩
abbrev HB_RETIRE_CTL.RATE (h : Nat) : Fld := ⟨HB_RETIRE_CTL.addr h, 12, 8⟩
/-- 10, *HB_ERR*: the address of HB_ERR. -/
abbrev HB_ERR.addr (h : Nat) : Nat := 0x7000020 + 0x100000 * h
abbrev HB_ERR.CORRECTED (h : Nat) : Fld := ⟨HB_ERR.addr h, 31, 0⟩
abbrev HB_ERR.UNCORR_TRANSIENT (h : Nat) : Fld := ⟨HB_ERR.addr h, 47, 32⟩
abbrev HB_ERR.POISONED (h : Nat) : Fld := ⟨HB_ERR.addr h, 63, 48⟩
/-- 10, *HB_ERR_LAST*: the address of HB_ERR_LAST. -/
abbrev HB_ERR_LAST.addr (h : Nat) : Nat := 0x7000028 + 0x100000 * h
abbrev HB_ERR_LAST.HPA (h : Nat) : Fld := ⟨HB_ERR_LAST.addr h, 40, 0⟩
/-- 10, *HB_TEMP*: the address of HB_TEMP. -/
abbrev HB_TEMP.addr (h : Nat) : Nat := 0x7000030 + 0x100000 * h
abbrev HB_TEMP.MAX_C (h : Nat) : Fld := ⟨HB_TEMP.addr h, 7, 0⟩
abbrev HB_TEMP.MAX_PKG (h : Nat) : Fld := ⟨HB_TEMP.addr h, 11, 8⟩
abbrev HB_TEMP.BAND (h : Nat) : Fld := ⟨HB_TEMP.addr h, 13, 12⟩
/-- 10, *HB_LINK*: the address of HB_LINK. -/
abbrev HB_LINK.addr (h : Nat) : Nat := 0x7000038 + 0x100000 * h
abbrev HB_LINK.LANE_WORKING (h : Nat) : Fld := ⟨HB_LINK.addr h, 7, 0⟩
abbrev HB_LINK.LANE_RETIRED (h : Nat) : Fld := ⟨HB_LINK.addr h, 15, 8⟩
abbrev HB_LINK.WIDTH (h : Nat) : Fld := ⟨HB_LINK.addr h, 19, 16⟩
/-- 10, *HB_BW_CAP*: the address of HB_BW_CAP. -/
abbrev HB_BW_CAP.addr (h : Nat) : Nat := 0x7000040 + 0x100000 * h
abbrev HB_BW_CAP.CAP (h : Nat) : Fld := ⟨HB_BW_CAP.addr h, 6, 0⟩
/-- 10, *HB_MIRROR_SYNC*: the address of HB_MIRROR_SYNC. -/
abbrev HB_MIRROR_SYNC.addr (h : Nat) : Nat := 0x7000048 + 0x100000 * h
abbrev HB_MIRROR_SYNC.MILESTONE (h : Nat) : Fld := ⟨HB_MIRROR_SYNC.addr h, 11, 0⟩
abbrev HB_MIRROR_SYNC.WINDOWS (h : Nat) : Fld := ⟨HB_MIRROR_SYNC.addr h, 27, 12⟩
/-- 10, *HB_MIRROR_STATS*: the address of HB_MIRROR_STATS. -/
abbrev HB_MIRROR_STATS.addr (h : Nat) : Nat := 0x7000050 + 0x100000 * h
abbrev HB_MIRROR_STATS.PAGES_SENT (h : Nat) : Fld := ⟨HB_MIRROR_STATS.addr h, 31, 0⟩
abbrev HB_MIRROR_STATS.MIRROR_SKIP (h : Nat) : Fld := ⟨HB_MIRROR_STATS.addr h, 47, 32⟩
/-- 10, *HB_CHAN[c]*: the address of HB_CHAN. -/
abbrev HB_CHAN.addr (h k : Nat) : Nat := 0x7000400 + 0x100000 * h + 8 * k
abbrev HB_CHAN.STATE (h k : Nat) : Fld := ⟨HB_CHAN.addr h k, 1, 0⟩
abbrev HB_CHAN.UNCORR_24H (h k : Nat) : Fld := ⟨HB_CHAN.addr h k, 17, 2⟩
abbrev HB_CHAN.CORR_1H (h k : Nat) : Fld := ⟨HB_CHAN.addr h k, 49, 18⟩
/-- 10, *HB_IMAP[b][v]*: the address of HB_IMAP. -/
abbrev HB_IMAP.addr (h b v : Nat) : Nat := 0x7001000 + 0x100000 * h + 0x400 * b + 8 * v
abbrev HB_IMAP.CHANNEL (h b v : Nat) : Fld := ⟨HB_IMAP.addr h b v, 6, 0⟩
abbrev HB_IMAP.RETIRED (h b v : Nat) : Fld := ⟨HB_IMAP.addr h b v, 7, 7⟩
/-- 10, *HB_MIRROR[i]*: the address of HB_MIRROR0. -/
abbrev HB_MIRROR0.addr (h i : Nat) : Nat := 0x7002000 + 0x100000 * h + 64 * i
abbrev HB_MIRROR0.VALID (h i : Nat) : Fld := ⟨HB_MIRROR0.addr h i, 0, 0⟩
abbrev HB_MIRROR0.CONTEXT (h i : Nat) : Fld := ⟨HB_MIRROR0.addr h i, 6, 1⟩
abbrev HB_MIRROR0.PARTNER_LOST (h i : Nat) : Fld := ⟨HB_MIRROR0.addr h i, 7, 7⟩
abbrev HB_MIRROR0.RESYNC (h i : Nat) : Fld := ⟨HB_MIRROR0.addr h i, 8, 8⟩
/-- 10, *HB_MIRROR[i]*: the address of HB_MIRROR1. -/
abbrev HB_MIRROR1.addr (h i : Nat) : Nat := 0x7002008 + 0x100000 * h + 64 * i
abbrev HB_MIRROR1.BASE (h i : Nat) : Fld := ⟨HB_MIRROR1.addr h i, 43, 12⟩
/-- 10, *HB_MIRROR[i]*: the address of HB_MIRROR2. -/
abbrev HB_MIRROR2.addr (h i : Nat) : Nat := 0x7002010 + 0x100000 * h + 64 * i
abbrev HB_MIRROR2.PAGES (h i : Nat) : Fld := ⟨HB_MIRROR2.addr h i, 31, 0⟩
/-- 10, *HB_MIRROR[i]*: the address of HB_MIRROR3. -/
abbrev HB_MIRROR3.addr (h i : Nat) : Nat := 0x7002018 + 0x100000 * h + 64 * i
abbrev HB_MIRROR3.PARTNER_BASE (h i : Nat) : Fld := ⟨HB_MIRROR3.addr h i, 43, 12⟩
/-- 10, *HB_MIRROR[i]*: the address of HB_MIRROR4. -/
abbrev HB_MIRROR4.addr (h i : Nat) : Nat := 0x7002020 + 0x100000 * h + 64 * i
abbrev HB_MIRROR4.BITMAP_BASE (h i : Nat) : Fld := ⟨HB_MIRROR4.addr h i, 43, 6⟩
/-- 11, *CO_STATUS*: the address of CO_STATUS. -/
abbrev CO_STATUS.addr (c : Nat) : Nat := 0x8000000 + 0x10000 * c
abbrev CO_STATUS.CONTEXT (c : Nat) : Fld := ⟨CO_STATUS.addr c, 5, 0⟩
abbrev CO_STATUS.KIND (c : Nat) : Fld := ⟨CO_STATUS.addr c, 7, 6⟩
abbrev CO_STATUS.STANDBY_CONTEXT (c : Nat) : Fld := ⟨CO_STATUS.addr c, 13, 8⟩
abbrev CO_STATUS.STANDBY_VALID (c : Nat) : Fld := ⟨CO_STATUS.addr c, 14, 14⟩
abbrev CO_STATUS.ENGINE_BUSY (c : Nat) : Fld := ⟨CO_STATUS.addr c, 19, 16⟩
abbrev CO_STATUS.NEXT_KIND (c : Nat) : Fld := ⟨CO_STATUS.addr c, 21, 20⟩
abbrev CO_STATUS.NEXT_CONTEXT (c : Nat) : Fld := ⟨CO_STATUS.addr c, 27, 22⟩
/-- 11, *CO_POWER*: the address of CO_POWER. -/
abbrev CO_POWER.addr (c : Nat) : Nat := 0x8000008 + 0x10000 * c
abbrev CO_POWER.DUTY (c : Nat) : Fld := ⟨CO_POWER.addr c, 4, 0⟩
abbrev CO_POWER.OPP_STOP (c : Nat) : Fld := ⟨CO_POWER.addr c, 8, 8⟩
abbrev CO_POWER.HALT (c : Nat) : Fld := ⟨CO_POWER.addr c, 9, 9⟩
/-- 11, *CO_FAULT*: the address of CO_FAULT. -/
abbrev CO_FAULT.addr (c : Nat) : Nat := 0x8000010 + 0x10000 * c
abbrev CO_FAULT.CAUSE (c : Nat) : Fld := ⟨CO_FAULT.addr c, 7, 0⟩
abbrev CO_FAULT.CONTEXT (c : Nat) : Fld := ⟨CO_FAULT.addr c, 13, 8⟩
abbrev CO_FAULT.ENGINE (c : Nat) : Fld := ⟨CO_FAULT.addr c, 15, 14⟩
abbrev CO_FAULT.VALID (c : Nat) : Fld := ⟨CO_FAULT.addr c, 16, 16⟩
abbrev CO_FAULT.PC (c : Nat) : Fld := ⟨CO_FAULT.addr c, 46, 32⟩
/-- 11, *CO_STATS*: the address of CO_STATS. -/
abbrev CO_STATS.addr (c : Nat) : Nat := 0x8000018 + 0x10000 * c
abbrev CO_STATS.RESERVED_Q (c : Nat) : Fld := ⟨CO_STATS.addr c, 23, 0⟩
abbrev CO_STATS.OPP_Q (c : Nat) : Fld := ⟨CO_STATS.addr c, 47, 24⟩
abbrev CO_STATS.OVERRUN (c : Nat) : Fld := ⟨CO_STATS.addr c, 63, 48⟩
/-- 11, *CO_STATS2*: the address of CO_STATS2. -/
abbrev CO_STATS2.addr (c : Nat) : Nat := 0x8000020 + 0x10000 * c
abbrev CO_STATS2.BANK_WAIT (c : Nat) : Fld := ⟨CO_STATS2.addr c, 31, 0⟩
abbrev CO_STATS2.IDLE_Q (c : Nat) : Fld := ⟨CO_STATS2.addr c, 55, 32⟩
/-- 11, *CO_PART[x]*: the address of CO_PART. -/
abbrev CO_PART.addr (c x : Nat) : Nat := 0x8000400 + 0x10000 * c + 8 * x
abbrev CO_PART.VALID (c x : Nat) : Fld := ⟨CO_PART.addr c x, 0, 0⟩
abbrev CO_PART.BASE (c x : Nat) : Fld := ⟨CO_PART.addr c x, 8, 1⟩
abbrev CO_PART.UNITS (c x : Nat) : Fld := ⟨CO_PART.addr c x, 17, 9⟩
abbrev CO_PART.ACC_LIVE (c x : Nat) : Fld := ⟨CO_PART.addr c x, 18, 18⟩
abbrev CO_PART.CODE_BASE (c x : Nat) : Fld := ⟨CO_PART.addr c x, 34, 20⟩
abbrev CO_PART.CODE_LEN (c x : Nat) : Fld := ⟨CO_PART.addr c x, 50, 35⟩
/-- 13, *CP_CTX[x]*: the address of CP_CTX. -/
abbrev CP_CTX.addr (x : Nat) : Nat := 0x1000 + 8 * x
abbrev CP_CTX.STATE (x : Nat) : Fld := ⟨CP_CTX.addr x, 1, 0⟩
abbrev CP_CTX.PARTITION (x : Nat) : Fld := ⟨CP_CTX.addr x, 5, 2⟩
abbrev CP_CTX.MASK_THROTTLE (x : Nat) : Fld := ⟨CP_CTX.addr x, 6, 6⟩
abbrev CP_CTX.HUB_MASK (x : Nat) : Fld := ⟨CP_CTX.addr x, 23, 8⟩
abbrev CP_CTX.INST_QUOTA (x : Nat) : Fld := ⟨CP_CTX.addr x, 37, 24⟩
abbrev CP_CTX.INST_ARMED (x : Nat) : Fld := ⟨CP_CTX.addr x, 51, 38⟩
/-- 13, *CO_KSTATE[x]*: the address of CO_KSTATE. -/
abbrev CO_KSTATE.addr (c x : Nat) : Nat := 0x8000600 + 0x10000 * c + 8 * x
abbrev CO_KSTATE.STATE (c x : Nat) : Fld := ⟨CO_KSTATE.addr c x, 2, 0⟩
abbrev CO_KSTATE.KIND (c x : Nat) : Fld := ⟨CO_KSTATE.addr c x, 3, 3⟩
abbrev CO_KSTATE.STD (c x : Nat) : Fld := ⟨CO_KSTATE.addr c x, 6, 4⟩
abbrev CO_KSTATE.STEP_POWER (c x : Nat) : Fld := ⟨CO_KSTATE.addr c x, 19, 8⟩
abbrev CO_KSTATE.FIT_ACLK (c x : Nat) : Fld := ⟨CO_KSTATE.addr c x, 29, 20⟩
abbrev CO_KSTATE.FRAMES (c x : Nat) : Fld := ⟨CO_KSTATE.addr c x, 63, 32⟩
/-- 14, *HE_CTL*: the address of HE_CTL. -/
abbrev HE_CTL.addr : Nat := 0xa000000
abbrev HE_CTL.VLAN : Fld := ⟨HE_CTL.addr, 11, 0⟩
abbrev HE_CTL.INBAND_EN : Fld := ⟨HE_CTL.addr, 12, 12⟩
abbrev HE_CTL.PTP_DOMAIN : Fld := ⟨HE_CTL.addr, 23, 16⟩
abbrev HE_CTL.H0_EN : Fld := ⟨HE_CTL.addr, 24, 24⟩
abbrev HE_CTL.H1_EN : Fld := ⟨HE_CTL.addr, 25, 25⟩
/-- 14, *HE_PORT[p]*: the address of HE_PORT. -/
abbrev HE_PORT.addr (q : Nat) : Nat := 0xa000010 + 8 * q
abbrev HE_PORT.LINK_UP (q : Nat) : Fld := ⟨HE_PORT.addr q, 0, 0⟩
abbrev HE_PORT.MODULE (q : Nat) : Fld := ⟨HE_PORT.addr q, 1, 1⟩
abbrev HE_PORT.MODULE_TYPE (q : Nat) : Fld := ⟨HE_PORT.addr q, 9, 2⟩
abbrev HE_PORT.FEC_UNCORR (q : Nat) : Fld := ⟨HE_PORT.addr q, 47, 16⟩
abbrev HE_PORT.LLDP_PORT (q : Nat) : Fld := ⟨HE_PORT.addr q, 63, 48⟩
/-- 14, *HE_ADDR[p]*: the address of HE_ADDR0. -/
abbrev HE_ADDR0.addr (q : Nat) : Nat := 0xa000100 + 0x20 * q
abbrev HE_ADDR0.MAC (q : Nat) : Fld := ⟨HE_ADDR0.addr q, 47, 0⟩
/-- 14, *HE_ADDR[p]*: the address of HE_ADDR1. -/
abbrev HE_ADDR1.addr (q : Nat) : Nat := 0xa000108 + 0x20 * q
abbrev HE_ADDR1.IPV4 (q : Nat) : Fld := ⟨HE_ADDR1.addr q, 31, 0⟩
abbrev HE_ADDR1.IPV4_PREFIX (q : Nat) : Fld := ⟨HE_ADDR1.addr q, 39, 32⟩
/-- 14, *HE_ADDR[p]*: the address of HE_ADDR2. -/
abbrev HE_ADDR2.addr (q : Nat) : Nat := 0xa000110 + 0x20 * q
abbrev HE_ADDR2.IPV6_HI (q : Nat) : Fld := ⟨HE_ADDR2.addr q, 63, 0⟩
/-- 14, *HE_ADDR[p]*: the address of HE_ADDR3. -/
abbrev HE_ADDR3.addr (q : Nat) : Nat := 0xa000118 + 0x20 * q
abbrev HE_ADDR3.IPV6_LO (q : Nat) : Fld := ⟨HE_ADDR3.addr q, 63, 0⟩
/-- 14, *HE_ALLOW[i]*: the address of HE_ALLOW0. -/
abbrev HE_ALLOW0.addr (i : Nat) : Nat := 0xa001000 + 0x20 * i
abbrev HE_ALLOW0.VALID (i : Nat) : Fld := ⟨HE_ALLOW0.addr i, 0, 0⟩
abbrev HE_ALLOW0.MANAGER (i : Nat) : Fld := ⟨HE_ALLOW0.addr i, 1, 1⟩
abbrev HE_ALLOW0.PREFIX_LEN (i : Nat) : Fld := ⟨HE_ALLOW0.addr i, 9, 2⟩
/-- 14, *HE_ALLOW[i]*: the address of HE_ALLOW1. -/
abbrev HE_ALLOW1.addr (i : Nat) : Nat := 0xa001008 + 0x20 * i
abbrev HE_ALLOW1.CTX_MASK (i : Nat) : Fld := ⟨HE_ALLOW1.addr i, 63, 0⟩
/-- 14, *HE_ALLOW[i]*: the address of HE_ALLOW2. -/
abbrev HE_ALLOW2.addr (i : Nat) : Nat := 0xa001010 + 0x20 * i
abbrev HE_ALLOW2.ADDRESS_HI (i : Nat) : Fld := ⟨HE_ALLOW2.addr i, 63, 0⟩
/-- 14, *HE_ALLOW[i]*: the address of HE_ALLOW3. -/
abbrev HE_ALLOW3.addr (i : Nat) : Nat := 0xa001018 + 0x20 * i
abbrev HE_ALLOW3.ADDRESS_LO (i : Nat) : Fld := ⟨HE_ALLOW3.addr i, 63, 0⟩
/-- 14, *HE_STATS*: the address of HE_STATS. -/
abbrev HE_STATS.addr : Nat := 0xa000020
abbrev HE_STATS.NOT_LISTED : Fld := ⟨HE_STATS.addr, 15, 0⟩
abbrev HE_STATS.MALFORMED : Fld := ⟨HE_STATS.addr, 31, 16⟩
abbrev HE_STATS.RDMA_ERR : Fld := ⟨HE_STATS.addr, 47, 32⟩
abbrev HE_STATS.TIME_IGNORED : Fld := ⟨HE_STATS.addr, 63, 48⟩
/-- 14, *HE_TIME*: the address of HE_TIME. -/
abbrev HE_TIME.addr : Nat := 0xa000028
abbrev HE_TIME.UTC_MS : Fld := ⟨HE_TIME.addr, 47, 0⟩
abbrev HE_TIME.VALID : Fld := ⟨HE_TIME.addr, 48, 48⟩
abbrev HE_TIME.PTP_LOCKED : Fld := ⟨HE_TIME.addr, 49, 49⟩
abbrev HE_TIME.PTP_PORT : Fld := ⟨HE_TIME.addr, 50, 50⟩
/-- 14, *HE_TIME_SET*: the address of HE_TIME_SET. -/
abbrev HE_TIME_SET.addr : Nat := 0xa000030
abbrev HE_TIME_SET.UTC_MS : Fld := ⟨HE_TIME_SET.addr, 47, 0⟩
/-- 14, *HE_QP[q]*: the address of HE_QP0. -/
abbrev HE_QP0.addr (q : Nat) : Nat := 0xa004000 + 0x20 * q
abbrev HE_QP0.VALID (q : Nat) : Fld := ⟨HE_QP0.addr q, 0, 0⟩
abbrev HE_QP0.PORT (q : Nat) : Fld := ⟨HE_QP0.addr q, 1, 1⟩
abbrev HE_QP0.CONTEXT (q : Nat) : Fld := ⟨HE_QP0.addr q, 7, 2⟩
abbrev HE_QP0.STATE (q : Nat) : Fld := ⟨HE_QP0.addr q, 9, 8⟩
abbrev HE_QP0.IPV4 (q : Nat) : Fld := ⟨HE_QP0.addr q, 10, 10⟩
abbrev HE_QP0.DEST_QPN (q : Nat) : Fld := ⟨HE_QP0.addr q, 39, 16⟩
abbrev HE_QP0.EPSN (q : Nat) : Fld := ⟨HE_QP0.addr q, 63, 40⟩
/-- 14, *HE_QP[q]*: the address of HE_QP1. -/
abbrev HE_QP1.addr (q : Nat) : Nat := 0xa004008 + 0x20 * q
abbrev HE_QP1.REMOTE_HI (q : Nat) : Fld := ⟨HE_QP1.addr q, 63, 0⟩
/-- 14, *HE_QP[q]*: the address of HE_QP2. -/
abbrev HE_QP2.addr (q : Nat) : Nat := 0xa004010 + 0x20 * q
abbrev HE_QP2.REMOTE_LO (q : Nat) : Fld := ⟨HE_QP2.addr q, 63, 0⟩
/-- 14, *HE_QP[q]*: the address of HE_QP3. -/
abbrev HE_QP3.addr (q : Nat) : Nat := 0xa004018 + 0x20 * q
abbrev HE_QP3.RESPONSE_PSN (q : Nat) : Fld := ⟨HE_QP3.addr q, 31, 0⟩
/-- 14, *HE_MR[k]*: the address of HE_MR0. -/
abbrev HE_MR0.addr (k : Nat) : Nat := 0xa008000 + 0x20 * k
abbrev HE_MR0.VALID (k : Nat) : Fld := ⟨HE_MR0.addr k, 0, 0⟩
abbrev HE_MR0.CONTEXT (k : Nat) : Fld := ⟨HE_MR0.addr k, 6, 1⟩
abbrev HE_MR0.READ (k : Nat) : Fld := ⟨HE_MR0.addr k, 7, 7⟩
abbrev HE_MR0.WRITE (k : Nat) : Fld := ⟨HE_MR0.addr k, 8, 8⟩
abbrev HE_MR0.R_KEY (k : Nat) : Fld := ⟨HE_MR0.addr k, 63, 32⟩
/-- 14, *HE_MR[k]*: the address of HE_MR1. -/
abbrev HE_MR1.addr (k : Nat) : Nat := 0xa008008 + 0x20 * k
abbrev HE_MR1.VA_BASE (k : Nat) : Fld := ⟨HE_MR1.addr k, 63, 0⟩
/-- 14, *HE_MR[k]*: the address of HE_MR2. -/
abbrev HE_MR2.addr (k : Nat) : Nat := 0xa008010 + 0x20 * k
abbrev HE_MR2.LENGTH (k : Nat) : Fld := ⟨HE_MR2.addr k, 43, 0⟩
/-- 15, *CP_STATE*: the address of CP_STATE. -/
abbrev CP_STATE.addr : Nat := 0x10
abbrev CP_STATE.STATE : Fld := ⟨CP_STATE.addr, 3, 0⟩
abbrev CP_STATE.PREV_STATE : Fld := ⟨CP_STATE.addr, 7, 4⟩
abbrev CP_STATE.RECOVERY : Fld := ⟨CP_STATE.addr, 8, 8⟩
abbrev CP_STATE.BOOT_FAIL : Fld := ⟨CP_STATE.addr, 9, 9⟩
abbrev CP_STATE.CTL_IGNORED : Fld := ⟨CP_STATE.addr, 10, 10⟩
/-- 15, *CP_STATE_CTL*: the address of CP_STATE_CTL. -/
abbrev CP_STATE_CTL.addr : Nat := 0x18
abbrev CP_STATE_CTL.MAINT : Fld := ⟨CP_STATE_CTL.addr, 0, 0⟩
abbrev CP_STATE_CTL.RESUME : Fld := ⟨CP_STATE_CTL.addr, 1, 1⟩
abbrev CP_STATE_CTL.DRAIN_UNITS : Fld := ⟨CP_STATE_CTL.addr, 15, 8⟩
/-- 15, *CP_FW*: the address of CP_FW. -/
abbrev CP_FW.addr : Nat := 0x20
abbrev CP_FW.RUN_MAJOR : Fld := ⟨CP_FW.addr, 7, 0⟩
abbrev CP_FW.RUN_MINOR : Fld := ⟨CP_FW.addr, 15, 8⟩
abbrev CP_FW.RUN_SLOT : Fld := ⟨CP_FW.addr, 16, 16⟩
abbrev CP_FW.PREFERRED : Fld := ⟨CP_FW.addr, 17, 17⟩
abbrev CP_FW.SLOT_A : Fld := ⟨CP_FW.addr, 19, 18⟩
abbrev CP_FW.SLOT_B : Fld := ⟨CP_FW.addr, 21, 20⟩
abbrev CP_FW.TRIAL : Fld := ⟨CP_FW.addr, 22, 22⟩
abbrev CP_FW.CONFIRMED : Fld := ⟨CP_FW.addr, 23, 23⟩
abbrev CP_FW.FALLBACK : Fld := ⟨CP_FW.addr, 24, 24⟩
abbrev CP_FW.SVN_MIN : Fld := ⟨CP_FW.addr, 63, 32⟩
/-- 15, *CP_RESET*: the address of CP_RESET. -/
abbrev CP_RESET.addr : Nat := 0x28
abbrev CP_RESET.BUSY : Fld := ⟨CP_RESET.addr, 4, 0⟩
abbrev CP_RESET.LAST_UNIT : Fld := ⟨CP_RESET.addr, 7, 5⟩
abbrev CP_RESET.LAST_INDEX : Fld := ⟨CP_RESET.addr, 15, 8⟩
abbrev CP_RESET.COUNT : Fld := ⟨CP_RESET.addr, 47, 16⟩
/-- 16, *VG_STATUS*: the address of VG_STATUS. -/
abbrev VG_STATUS.addr : Nat := 0xd100000
abbrev VG_STATUS.SUSPECT_NOW : Fld := ⟨VG_STATUS.addr, 7, 0⟩
abbrev VG_STATUS.DEAD_NOW : Fld := ⟨VG_STATUS.addr, 15, 8⟩
abbrev VG_STATUS.DISAGREE : Fld := ⟨VG_STATUS.addr, 31, 16⟩
abbrev VG_STATUS.MGR_SILENCE : Fld := ⟨VG_STATUS.addr, 63, 32⟩
/-- 16, *VG_PLANES*: the address of VG_PLANES. -/
abbrev VG_PLANES.addr : Nat := 0xd100008
abbrev VG_PLANES.LEAVING : Fld := ⟨VG_PLANES.addr, 15, 0⟩
abbrev VG_PLANES.DEPARTED : Fld := ⟨VG_PLANES.addr, 31, 16⟩
abbrev VG_PLANES.OWN_LEAVING : Fld := ⟨VG_PLANES.addr, 32, 32⟩
abbrev VG_PLANES.OWN_CAUSE : Fld := ⟨VG_PLANES.addr, 35, 33⟩
abbrev VG_PLANES.COOLANT_EMERG : Fld := ⟨VG_PLANES.addr, 36, 36⟩
/-- 16, *VG_FAULT*: the address of VG_FAULT. -/
abbrev VG_FAULT.addr : Nat := 0xd100010
abbrev VG_FAULT.AUTO_RESET : Fld := ⟨VG_FAULT.addr, 15, 0⟩
abbrev VG_FAULT.TABLE_ERR : Fld := ⟨VG_FAULT.addr, 31, 16⟩
abbrev VG_FAULT.BUFFER_DBE : Fld := ⟨VG_FAULT.addr, 47, 32⟩
abbrev VG_FAULT.LAST_UNIT : Fld := ⟨VG_FAULT.addr, 50, 48⟩
/-- 16, *VG_EP[i]*: the address of VG_EP. -/
abbrev VG_EP.addr (i : Nat) : Nat := 0xd100100 + 8 * i
abbrev VG_EP.STATE (i : Nat) : Fld := ⟨VG_EP.addr i, 1, 0⟩
abbrev VG_EP.OPINION (i : Nat) : Fld := ⟨VG_EP.addr i, 3, 2⟩
abbrev VG_EP.MISSED (i : Nat) : Fld := ⟨VG_EP.addr i, 7, 4⟩
abbrev VG_EP.LAST_HB (i : Nat) : Fld := ⟨VG_EP.addr i, 47, 8⟩
abbrev VG_EP.SUSPECTS (i : Nat) : Fld := ⟨VG_EP.addr i, 63, 48⟩
/-- 16, *VG_GONE_CONFIRM[k]*: the address of VG_GONE_CONFIRM. -/
abbrev VG_GONE_CONFIRM.addr (k : Nat) : Nat := 0xd100800 + 8 * k
abbrev VG_GONE_CONFIRM.MAP (k : Nat) : Fld := ⟨VG_GONE_CONFIRM.addr k, 63, 0⟩
/-- 16, *VG_GONE_LIGHT[k]*: the address of VG_GONE_LIGHT. -/
abbrev VG_GONE_LIGHT.addr (k : Nat) : Nat := 0xd100840 + 8 * k
abbrev VG_GONE_LIGHT.MAP (k : Nat) : Fld := ⟨VG_GONE_LIGHT.addr k, 63, 0⟩
/-- 17, *PT_INPUT*: the address of PT_INPUT. -/
abbrev PT_INPUT.addr : Nat := 0xb000000
abbrev PT_INPUT.VOLTS : Fld := ⟨PT_INPUT.addr, 15, 0⟩
abbrev PT_INPUT.AMPS : Fld := ⟨PT_INPUT.addr, 31, 16⟩
abbrev PT_INPUT.POWER : Fld := ⟨PT_INPUT.addr, 47, 32⟩
abbrev PT_INPUT.POWER_MAX : Fld := ⟨PT_INPUT.addr, 63, 48⟩
/-- 17, *PT_LADDER*: the address of PT_LADDER. -/
abbrev PT_LADDER.addr : Nat := 0xb000008
abbrev PT_LADDER.POSITION : Fld := ⟨PT_LADDER.addr, 3, 0⟩
abbrev PT_LADDER.LADDER_MIN : Fld := ⟨PT_LADDER.addr, 7, 4⟩
abbrev PT_LADDER.BOOST_EN : Fld := ⟨PT_LADDER.addr, 8, 8⟩
abbrev PT_LADDER.BOOST_OK : Fld := ⟨PT_LADDER.addr, 9, 9⟩
abbrev PT_LADDER.ENVELOPE_SHORT : Fld := ⟨PT_LADDER.addr, 10, 10⟩
abbrev PT_LADDER.OVERCURRENT : Fld := ⟨PT_LADDER.addr, 11, 11⟩
abbrev PT_LADDER.BE_QUOTA : Fld := ⟨PT_LADDER.addr, 22, 12⟩
abbrev PT_LADDER.CEILING : Fld := ⟨PT_LADDER.addr, 47, 32⟩
/-- 17, *PT_BOOST*: the address of PT_BOOST. -/
abbrev PT_BOOST.addr : Nat := 0xb000010
abbrev PT_BOOST.BUDGET : Fld := ⟨PT_BOOST.addr, 31, 0⟩
abbrev PT_BOOST.EPISODE : Fld := ⟨PT_BOOST.addr, 47, 32⟩
abbrev PT_BOOST.EPISODES : Fld := ⟨PT_BOOST.addr, 63, 48⟩
/-- 17, *PT_COOLANT*: the address of PT_COOLANT. -/
abbrev PT_COOLANT.addr : Nat := 0xb000018
abbrev PT_COOLANT.FLOW : Fld := ⟨PT_COOLANT.addr, 7, 0⟩
abbrev PT_COOLANT.INLET : Fld := ⟨PT_COOLANT.addr, 15, 8⟩
abbrev PT_COOLANT.OUTLET : Fld := ⟨PT_COOLANT.addr, 23, 16⟩
abbrev PT_COOLANT.BAND : Fld := ⟨PT_COOLANT.addr, 25, 24⟩
abbrev PT_COOLANT.FLOW_LOW : Fld := ⟨PT_COOLANT.addr, 26, 26⟩
abbrev PT_COOLANT.INLET_HIGH : Fld := ⟨PT_COOLANT.addr, 27, 27⟩
abbrev PT_COOLANT.INLET_LOW : Fld := ⟨PT_COOLANT.addr, 28, 28⟩
/-- 17, *PT_TEMP*: the address of PT_TEMP. -/
abbrev PT_TEMP.addr : Nat := 0xb000020
abbrev PT_TEMP.SWITCH : Fld := ⟨PT_TEMP.addr, 7, 0⟩
abbrev PT_TEMP.CORE_MAX : Fld := ⟨PT_TEMP.addr, 15, 8⟩
abbrev PT_TEMP.HUB_MAX : Fld := ⟨PT_TEMP.addr, 23, 16⟩
abbrev PT_TEMP.CONTROL : Fld := ⟨PT_TEMP.addr, 31, 24⟩
abbrev PT_TEMP.OPTICAL_MAX : Fld := ⟨PT_TEMP.addr, 39, 32⟩
abbrev PT_TEMP.DRAM_MAX : Fld := ⟨PT_TEMP.addr, 47, 40⟩
abbrev PT_TEMP.VR_MAX : Fld := ⟨PT_TEMP.addr, 55, 48⟩
/-- 17, *PT_CTX_THROTTLE[x]*: the address of PT_CTX_THROTTLE. -/
abbrev PT_CTX_THROTTLE.addr (x : Nat) : Nat := 0xb000100 + 8 * x
abbrev PT_CTX_THROTTLE.OPP (x : Nat) : Fld := ⟨PT_CTX_THROTTLE.addr x, 15, 0⟩
abbrev PT_CTX_THROTTLE.BE (x : Nat) : Fld := ⟨PT_CTX_THROTTLE.addr x, 31, 16⟩
abbrev PT_CTX_THROTTLE.MEM (x : Nat) : Fld := ⟨PT_CTX_THROTTLE.addr x, 47, 32⟩
abbrev PT_CTX_THROTTLE.DUTY (x : Nat) : Fld := ⟨PT_CTX_THROTTLE.addr x, 63, 48⟩
/-- 17, *PT_LASER[k]*: the address of PT_LASER. -/
abbrev PT_LASER.addr (k : Nat) : Nat := 0xb000200 + 8 * k
abbrev PT_LASER.CASE (k : Nat) : Fld := ⟨PT_LASER.addr k, 7, 0⟩
abbrev PT_LASER.CASE_MAX (k : Nat) : Fld := ⟨PT_LASER.addr k, 15, 8⟩
abbrev PT_LASER.WEAR (k : Nat) : Fld := ⟨PT_LASER.addr k, 47, 16⟩
abbrev PT_LASER.WORN (k : Nat) : Fld := ⟨PT_LASER.addr k, 48, 48⟩
/-- 18, *SI_STATUS*: the address of SI_STATUS. -/
abbrev SI_STATUS.addr : Nat := 0xc000000
abbrev SI_STATUS.IDENTITY_OK : Fld := ⟨SI_STATUS.addr, 0, 0⟩
abbrev SI_STATUS.MEMKEYS_LOADED : Fld := ⟨SI_STATUS.addr, 1, 1⟩
abbrev SI_STATUS.RNG_OK : Fld := ⟨SI_STATUS.addr, 2, 2⟩
abbrev SI_STATUS.DEBUG_ACTIVE : Fld := ⟨SI_STATUS.addr, 3, 3⟩
abbrev SI_STATUS.DEBUG_SINCE_BOOT : Fld := ⟨SI_STATUS.addr, 4, 4⟩
abbrev SI_STATUS.ATT_PENDING : Fld := ⟨SI_STATUS.addr, 10, 8⟩
/-- 18, *SI_CTL*: the address of SI_CTL. -/
abbrev SI_CTL.addr : Nat := 0xc000008
abbrev SI_CTL.REGWIN_WRITE : Fld := ⟨SI_CTL.addr, 0, 0⟩
/-- 18, *SI_DEBUG*: the address of SI_DEBUG. -/
abbrev SI_DEBUG.addr : Nat := 0xc000010
abbrev SI_DEBUG.SESSIONS_BOOT : Fld := ⟨SI_DEBUG.addr, 15, 0⟩
abbrev SI_DEBUG.SESSIONS_TOTAL : Fld := ⟨SI_DEBUG.addr, 47, 16⟩
abbrev SI_DEBUG.ACTIVE : Fld := ⟨SI_DEBUG.addr, 48, 48⟩
abbrev SI_DEBUG.SOURCE : Fld := ⟨SI_DEBUG.addr, 50, 49⟩
/-- 18, *SI_ATT_CTL*: the address of SI_ATT_CTL. -/
abbrev SI_ATT_CTL.addr : Nat := 0xc000018
abbrev SI_ATT_CTL.GO : Fld := ⟨SI_ATT_CTL.addr, 0, 0⟩
abbrev SI_ATT_CTL.DONE : Fld := ⟨SI_ATT_CTL.addr, 1, 1⟩
abbrev SI_ATT_CTL.BUSY : Fld := ⟨SI_ATT_CTL.addr, 2, 2⟩
abbrev SI_ATT_CTL.CURSOR : Fld := ⟨SI_ATT_CTL.addr, 28, 16⟩
/-- 18, *SI_ATT_WIN*: the address of SI_ATT_WIN. -/
abbrev SI_ATT_WIN.addr : Nat := 0xc000020
abbrev SI_ATT_WIN.DATA : Fld := ⟨SI_ATT_WIN.addr, 63, 0⟩
/-- 18, *SI_ATT_NONCE[k]*: the address of SI_ATT_NONCE. -/
abbrev SI_ATT_NONCE.addr (k : Nat) : Nat := 0xc000040 + 8 * k
abbrev SI_ATT_NONCE.NONCE (k : Nat) : Fld := ⟨SI_ATT_NONCE.addr k, 63, 0⟩
/-- 19, *TM_POS[x] and TM_SHADOW[x]*: the address of TM_POS. -/
abbrev TM_POS.addr (x k : Nat) : Nat := 0xd210000 + 0x40 * x + 8 * k
abbrev TM_POS.COUNT (x k : Nat) : Fld := ⟨TM_POS.addr x k, 63, 0⟩
/-- 19, *TM_POS[x] and TM_SHADOW[x]*: the address of TM_SHADOW. -/
abbrev TM_SHADOW.addr (x k : Nat) : Nat := 0xd220000 + 0x40 * x + 8 * k
abbrev TM_SHADOW.COUNT (x k : Nat) : Fld := ⟨TM_SHADOW.addr x k, 63, 0⟩
/-- 19, *PGEN[i]*: the address of PGEN0. -/
abbrev PGEN0.addr (i : Nat) : Nat := 0xd300000 + 0x40 * i
abbrev PGEN0.RUN (i : Nat) : Fld := ⟨PGEN0.addr i, 0, 0⟩
abbrev PGEN0.ECHO (i : Nat) : Fld := ⟨PGEN0.addr i, 1, 1⟩
abbrev PGEN0.CLASS (i : Nat) : Fld := ⟨PGEN0.addr i, 3, 2⟩
abbrev PGEN0.IN_POS (i : Nat) : Fld := ⟨PGEN0.addr i, 11, 4⟩
abbrev PGEN0.DST (i : Nat) : Fld := ⟨PGEN0.addr i, 21, 12⟩
abbrev PGEN0.CONTEXT (i : Nat) : Fld := ⟨PGEN0.addr i, 27, 22⟩
abbrev PGEN0.STREAM (i : Nat) : Fld := ⟨PGEN0.addr i, 47, 32⟩
abbrev PGEN0.RATE (i : Nat) : Fld := ⟨PGEN0.addr i, 58, 48⟩
/-- 19, *PGEN[i]*: the address of PGEN1. -/
abbrev PGEN1.addr (i : Nat) : Nat := 0xd300008 + 0x40 * i
abbrev PGEN1.SENT (i : Nat) : Fld := ⟨PGEN1.addr i, 63, 0⟩
/-- 19, *PGEN[i]*: the address of PGEN2. -/
abbrev PGEN2.addr (i : Nat) : Nat := 0xd300010 + 0x40 * i
abbrev PGEN2.SKIPPED (i : Nat) : Fld := ⟨PGEN2.addr i, 31, 0⟩
/-- 19, *PCHK[j]*: the address of PCHK0. -/
abbrev PCHK0.addr (j : Nat) : Nat := 0xd301000 + 0x40 * j
abbrev PCHK0.ENABLE (j : Nat) : Fld := ⟨PCHK0.addr j, 0, 0⟩
abbrev PCHK0.SRC (j : Nat) : Fld := ⟨PCHK0.addr j, 10, 1⟩
abbrev PCHK0.STREAM (j : Nat) : Fld := ⟨PCHK0.addr j, 31, 16⟩
/-- 19, *PCHK[j]*: the address of PCHK1. -/
abbrev PCHK1.addr (j : Nat) : Nat := 0xd301008 + 0x40 * j
abbrev PCHK1.RECEIVED (j : Nat) : Fld := ⟨PCHK1.addr j, 63, 0⟩
/-- 19, *PCHK[j]*: the address of PCHK2. -/
abbrev PCHK2.addr (j : Nat) : Nat := 0xd301010 + 0x40 * j
abbrev PCHK2.LOST (j : Nat) : Fld := ⟨PCHK2.addr j, 31, 0⟩
abbrev PCHK2.DUP (j : Nat) : Fld := ⟨PCHK2.addr j, 63, 32⟩
/-- 19, *PCHK[j]*: the address of PCHK3. -/
abbrev PCHK3.addr (j : Nat) : Nat := 0xd301018 + 0x40 * j
abbrev PCHK3.BIT_ERRORS (j : Nat) : Fld := ⟨PCHK3.addr j, 31, 0⟩
abbrev PCHK3.LAT_MAX (j : Nat) : Fld := ⟨PCHK3.addr j, 47, 32⟩
/-- 19, *PCHK[j]*: the address of PCHK4. -/
abbrev PCHK4.addr (j : Nat) : Nat := 0xd301020 + 0x40 * j
abbrev PCHK4.LAT0 (j : Nat) : Fld := ⟨PCHK4.addr j, 31, 0⟩
abbrev PCHK4.LAT1 (j : Nat) : Fld := ⟨PCHK4.addr j, 63, 32⟩
/-- 19, *PCHK[j]*: the address of PCHK5. -/
abbrev PCHK5.addr (j : Nat) : Nat := 0xd301028 + 0x40 * j
abbrev PCHK5.LAT2 (j : Nat) : Fld := ⟨PCHK5.addr j, 31, 0⟩
abbrev PCHK5.LAT3 (j : Nat) : Fld := ⟨PCHK5.addr j, 63, 32⟩
/-- 19, *PCHK[j]*: the address of PCHK6. -/
abbrev PCHK6.addr (j : Nat) : Nat := 0xd301030 + 0x40 * j
abbrev PCHK6.LAT4 (j : Nat) : Fld := ⟨PCHK6.addr j, 31, 0⟩
abbrev PCHK6.LAT5 (j : Nat) : Fld := ⟨PCHK6.addr j, 63, 32⟩
/-- 19, *PCHK[j]*: the address of PCHK7. -/
abbrev PCHK7.addr (j : Nat) : Nat := 0xd301038 + 0x40 * j
abbrev PCHK7.LAT6 (j : Nat) : Fld := ⟨PCHK7.addr j, 31, 0⟩
abbrev PCHK7.LAT7 (j : Nat) : Fld := ⟨PCHK7.addr j, 63, 32⟩
/-- 19, *AL_STATUS*: the address of AL_STATUS. -/
abbrev AL_STATUS.addr : Nat := 0xd000000
abbrev AL_STATUS.NEWEST : Fld := ⟨AL_STATUS.addr, 31, 0⟩
abbrev AL_STATUS.FLASH_FAIL : Fld := ⟨AL_STATUS.addr, 32, 32⟩
abbrev AL_STATUS.TIME_INVALID : Fld := ⟨AL_STATUS.addr, 33, 33⟩
/-- 19, *AL_OLDEST*: the address of AL_OLDEST. -/
abbrev AL_OLDEST.addr : Nat := 0xd000008
abbrev AL_OLDEST.OLDEST : Fld := ⟨AL_OLDEST.addr, 31, 0⟩
/-- 19, *TM_SNAP*: the address of TM_SNAP. -/
abbrev TM_SNAP.addr : Nat := 0xd200000
abbrev TM_SNAP.GO : Fld := ⟨TM_SNAP.addr, 0, 0⟩
abbrev TM_SNAP.DONE : Fld := ⟨TM_SNAP.addr, 1, 1⟩
/-- 19, *TM_SNAP_FRAME*: the address of TM_SNAP_FRAME. -/
abbrev TM_SNAP_FRAME.addr : Nat := 0xd200008
abbrev TM_SNAP_FRAME.FRAME : Fld := ⟨TM_SNAP_FRAME.addr, 63, 0⟩
/-- 20, *CH_ID*: the address of CH_ID. -/
abbrev CH_ID.addr : Nat := 0x100100000
abbrev CH_ID.VENDOR : Fld := ⟨CH_ID.addr, 15, 0⟩
abbrev CH_ID.PART : Fld := ⟨CH_ID.addr, 31, 16⟩
abbrev CH_ID.STEPPING : Fld := ⟨CH_ID.addr, 39, 32⟩
/-- 20, *CH_CTL*: the address of CH_CTL. -/
abbrev CH_CTL.addr : Nat := 0x100100008
abbrev CH_CTL.EP_ID : Fld := ⟨CH_CTL.addr, 9, 0⟩
abbrev CH_CTL.PORTS_EN : Fld := ⟨CH_CTL.addr, 10, 10⟩
abbrev CH_CTL.SB_LOCK : Fld := ⟨CH_CTL.addr, 11, 11⟩
abbrev CH_CTL.RESET : Fld := ⟨CH_CTL.addr, 12, 12⟩
/-- 20, *CH_STATUS*: the address of CH_STATUS. -/
abbrev CH_STATUS.addr : Nat := 0x100100010
abbrev CH_STATUS.MODULES : Fld := ⟨CH_STATUS.addr, 7, 0⟩
abbrev CH_STATUS.HOME_TIMEOUT : Fld := ⟨CH_STATUS.addr, 8, 8⟩
abbrev CH_STATUS.JUNCTION : Fld := ⟨CH_STATUS.addr, 23, 16⟩
abbrev CH_STATUS.OPTICAL_MAX : Fld := ⟨CH_STATUS.addr, 31, 24⟩
/-- 20, *CH_HOME*: the address of CH_HOME0. -/
abbrev CH_HOME0.addr : Nat := 0x100100018
abbrev CH_HOME0.BASE : Fld := ⟨CH_HOME0.addr, 63, 12⟩
/-- 20, *CH_HOME*: the address of CH_HOME1. -/
abbrev CH_HOME1.addr : Nat := 0x100100020
abbrev CH_HOME1.SIZE : Fld := ⟨CH_HOME1.addr, 44, 0⟩
/-- 20, *CH_ORDER[r]*: the address of CH_ORDER. -/
abbrev CH_ORDER.addr (r : Nat) : Nat := 0x100300000 + 8 * r
abbrev CH_ORDER.LOST_PENDING (r : Nat) : Fld := ⟨CH_ORDER.addr r, 0, 0⟩
abbrev CH_ORDER.ACQ_PENDING (r : Nat) : Fld := ⟨CH_ORDER.addr r, 1, 1⟩
abbrev CH_ORDER.FENCE_LOST (r : Nat) : Fld := ⟨CH_ORDER.addr r, 17, 2⟩
/-- 20, *CH_TEST*: the address of CH_TEST. -/
abbrev CH_TEST.addr : Nat := 0x200100020
abbrev CH_TEST.GO : Fld := ⟨CH_TEST.addr, 0, 0⟩
abbrev CH_TEST.DONE : Fld := ⟨CH_TEST.addr, 1, 1⟩
abbrev CH_TEST.BUSY : Fld := ⟨CH_TEST.addr, 2, 2⟩
abbrev CH_TEST.KIND : Fld := ⟨CH_TEST.addr, 3, 3⟩
abbrev CH_TEST.STATUS : Fld := ⟨CH_TEST.addr, 31, 16⟩
/-- 20, *CH_LASER[k]*: the address of CH_LASER. -/
abbrev CH_LASER.addr (k : Nat) : Nat := 0x100100100 + 8 * k
abbrev CH_LASER.CASE (k : Nat) : Fld := ⟨CH_LASER.addr k, 7, 0⟩
abbrev CH_LASER.CASE_MAX (k : Nat) : Fld := ⟨CH_LASER.addr k, 15, 8⟩
abbrev CH_LASER.WEAR (k : Nat) : Fld := ⟨CH_LASER.addr k, 47, 16⟩
abbrev CH_LASER.WORN (k : Nat) : Fld := ⟨CH_LASER.addr k, 48, 48⟩
/-- 21, *CP_ALERT*: the address of CP_ALERT. -/
abbrev CP_ALERT.addr : Nat := 0x30
abbrev CP_ALERT.STRAP : Fld := ⟨CP_ALERT.addr, 0, 0⟩
abbrev CP_ALERT.LINK : Fld := ⟨CP_ALERT.addr, 1, 1⟩
abbrev CP_ALERT.PLAN : Fld := ⟨CP_ALERT.addr, 2, 2⟩
abbrev CP_ALERT.STATE : Fld := ⟨CP_ALERT.addr, 3, 3⟩
abbrev CP_ALERT.MEMORY : Fld := ⟨CP_ALERT.addr, 4, 4⟩
abbrev CP_ALERT.FAULT : Fld := ⟨CP_ALERT.addr, 5, 5⟩
abbrev CP_ALERT.POWER : Fld := ⟨CP_ALERT.addr, 6, 6⟩
abbrev CP_ALERT.DEBUG : Fld := ⟨CP_ALERT.addr, 7, 7⟩
abbrev CP_ALERT.FIRMWARE : Fld := ⟨CP_ALERT.addr, 8, 8⟩
abbrev CP_ALERT.FLASH : Fld := ⟨CP_ALERT.addr, 9, 9⟩
/-- 21, *PT_BOOT*: the address of PT_BOOT. -/
abbrev PT_BOOT.addr : Nat := 0xb000028
abbrev PT_BOOT.BOOT_HOLD : Fld := ⟨PT_BOOT.addr, 0, 0⟩
abbrev PT_BOOT.BOOT_FAIL : Fld := ⟨PT_BOOT.addr, 1, 1⟩
/-- 02, TB register addresses: the address of TB_FRAME. -/
abbrev TB_FRAME.addr : Nat := 0x4000000
abbrev TB_FRAME.FRAME : Fld := ⟨TB_FRAME.addr, 63, 0⟩
/-- 02, TB register addresses: the address of TB_SWAP_FRAME. -/
abbrev TB_SWAP_FRAME.addr : Nat := 0x4000010
abbrev TB_SWAP_FRAME.FRAME : Fld := ⟨TB_SWAP_FRAME.addr, 63, 0⟩
/-- 02, TB register addresses: the address of TB_CTX_OVER. -/
abbrev TB_CTX_OVER.addr (c : Nat) : Nat := 0x4000100 + 8 * c
abbrev TB_CTX_OVER.COUNT (c : Nat) : Fld := ⟨TB_CTX_OVER.addr c, 31, 0⟩
/-- 05, SG_GONE: the address of SG_GONE. -/
abbrev SG_GONE.addr (k : Nat) : Nat := 0x5000100 + 8 * k
abbrev SG_GONE.MAP (k : Nat) : Fld := ⟨SG_GONE.addr k, 63, 0⟩
/-- 01, CP_LOCATION: the address of CP_LOCATION. -/
abbrev CP_LOCATION.addr : Nat := 0x8
abbrev CP_LOCATION.STRAP_CHANGED : Fld := ⟨CP_LOCATION.addr, 18, 18⟩

end R

/-- Descriptor rows of the registers in block 0x0. -/
def regRows0 : List RDesc := [
  ⟨0x0, 0x10000000000, 1, 8, 1, [⟨15, 0, .ro, 3233⟩, ⟨31, 16, .ro, 352⟩, ⟨39, 32, .ro, 16⟩]⟩,
  ⟨0x1000, 0x10000000000, 1, 8, 64, [⟨1, 0, .ro, 0⟩, ⟨5, 2, .ro, 0⟩, ⟨6, 6, .ro, 0⟩, ⟨23, 8, .ro, 0⟩, ⟨37, 24, .ro, 0⟩, ⟨51, 38, .ro, 0⟩]⟩,
  ⟨0x10, 0x10000000000, 1, 8, 1, [⟨3, 0, .ro, 3⟩, ⟨7, 4, .ro, 2⟩, ⟨8, 8, .ro, 0⟩, ⟨9, 9, .ro, 0⟩, ⟨10, 10, .w1c, 0⟩]⟩,
  ⟨0x18, 0x10000000000, 1, 8, 1, [⟨0, 0, .wo, 0⟩, ⟨1, 1, .wo, 0⟩, ⟨15, 8, .rw, 64⟩]⟩,
  ⟨0x20, 0x10000000000, 1, 8, 1, [⟨7, 0, .ro, 1⟩, ⟨15, 8, .ro, 0⟩, ⟨16, 16, .ro, 0⟩, ⟨17, 17, .ro, 0⟩, ⟨19, 18, .ro, 2⟩, ⟨21, 20, .ro, 2⟩, ⟨22, 22, .ro, 0⟩, ⟨23, 23, .ro, 1⟩, ⟨24, 24, .w1c, 0⟩, ⟨63, 32, .ro, 0⟩]⟩,
  ⟨0x28, 0x10000000000, 1, 8, 1, [⟨4, 0, .ro, 0⟩, ⟨7, 5, .ro, 0⟩, ⟨15, 8, .ro, 0⟩, ⟨47, 16, .rc, 0⟩]⟩,
  ⟨0x30, 0x10000000000, 1, 8, 1, [⟨0, 0, .w1c, 0⟩, ⟨1, 1, .w1c, 0⟩, ⟨2, 2, .w1c, 0⟩, ⟨3, 3, .w1c, 0⟩, ⟨4, 4, .w1c, 0⟩, ⟨5, 5, .w1c, 0⟩, ⟨6, 6, .w1c, 0⟩, ⟨7, 7, .w1c, 0⟩, ⟨8, 8, .w1c, 0⟩, ⟨9, 9, .w1c, 0⟩]⟩]

/-- Descriptor rows of the registers in block 0x1. -/
def regRows1 : List RDesc := [
  ⟨0x1000000, 0x1000, 160, 8, 1, [⟨2, 0, .ro, 0⟩, ⟨7, 4, .ro, 0⟩, ⟨15, 8, .ro, 0⟩, ⟨23, 16, .ro, 0⟩, ⟨27, 24, .ro, 0⟩, ⟨31, 28, .ro, 0⟩, ⟨39, 32, .ro, 0⟩, ⟨47, 40, .ro, 0⟩, ⟨51, 48, .ro, 0⟩, ⟨52, 52, .ro, 0⟩, ⟨53, 53, .ro, 0⟩, ⟨56, 54, .ro, 0⟩]⟩,
  ⟨0x1000008, 0x1000, 160, 8, 1, [⟨0, 0, .rw, 1⟩, ⟨1, 1, .rw, 0⟩, ⟨2, 2, .wo, 0⟩, ⟨3, 3, .rw, 0⟩, ⟨4, 4, .rw, 0⟩]⟩,
  ⟨0x1000010, 0x1000, 160, 8, 1, [⟨31, 0, .rc, 0⟩, ⟨47, 32, .rc, 0⟩, ⟨63, 48, .rc, 0⟩]⟩,
  ⟨0x1000018, 0x1000, 160, 8, 1, [⟨15, 0, .ro, 0⟩]⟩,
  ⟨0x1000100, 0x1000, 160, 8, 8, [⟨31, 0, .ro, 0⟩, ⟨47, 32, .ro, 0⟩, ⟨49, 48, .ro, 0⟩, ⟨50, 50, .ro, 0⟩]⟩]

/-- Descriptor rows of the registers in block 0x2. -/
def regRows2 : List RDesc := [
  ⟨0x2000000, 0x10000000000, 1, 8, 1, [⟨0, 0, .rw, 1⟩, ⟨1, 1, .rw, 1⟩]⟩,
  ⟨0x2010000, 0x40, 160, 8, 1, [⟨15, 0, .rc, 0⟩, ⟨31, 16, .rc, 0⟩, ⟨47, 32, .rc, 0⟩, ⟨55, 48, .rc, 0⟩, ⟨63, 56, .rc, 0⟩]⟩,
  ⟨0x2010008, 0x40, 160, 8, 1, [⟨15, 0, .rc, 0⟩, ⟨47, 16, .rc, 0⟩, ⟨63, 48, .rc, 0⟩]⟩,
  ⟨0x2010010, 0x40, 160, 8, 1, [⟨8, 0, .ro, 0⟩, ⟨18, 9, .ro, 0⟩, ⟨25, 19, .ro, 0⟩, ⟨33, 26, .ro, 0⟩, ⟨41, 34, .ro, 0⟩, ⟨48, 42, .ro, 0⟩]⟩,
  ⟨0x2010018, 0x40, 160, 8, 1, [⟨8, 0, .rc, 0⟩, ⟨18, 9, .rc, 0⟩, ⟨25, 19, .rc, 0⟩, ⟨33, 26, .rc, 0⟩, ⟨41, 34, .rc, 0⟩, ⟨48, 42, .rc, 0⟩]⟩,
  ⟨0x2010020, 0x40, 160, 8, 1, [⟨31, 0, .rc, 0⟩, ⟨63, 32, .rc, 0⟩]⟩,
  ⟨0x2010028, 0x40, 160, 8, 1, [⟨31, 0, .rc, 0⟩, ⟨63, 32, .rc, 0⟩]⟩]

/-- Descriptor rows of the registers in block 0x3. -/
def regRows3 : List RDesc := [
  ⟨0x3100000, 0x80000, 2, 64, 4096, [⟨0, 0, .ro, 0⟩, ⟨4, 1, .ro, 0⟩, ⟨10, 5, .ro, 0⟩, ⟨18, 11, .ro, 0⟩]⟩,
  ⟨0x3100008, 0x80000, 2, 64, 4096, [⟨63, 0, .ro, 0⟩]⟩,
  ⟨0x3100010, 0x80000, 2, 64, 4096, [⟨63, 0, .ro, 0⟩]⟩,
  ⟨0x3100018, 0x80000, 2, 64, 4096, [⟨63, 0, .ro, 0⟩]⟩,
  ⟨0x3100020, 0x80000, 2, 64, 4096, [⟨63, 0, .ro, 0⟩]⟩,
  ⟨0x3100028, 0x80000, 2, 64, 4096, [⟨63, 0, .ro, 0⟩]⟩,
  ⟨0x3100030, 0x80000, 2, 64, 4096, [⟨63, 0, .ro, 0⟩]⟩,
  ⟨0x3000000, 0x10000000000, 1, 8, 1, [⟨0, 0, .ro, 0⟩, ⟨2, 1, .ro, 0⟩, ⟨15, 3, .ro, 0⟩, ⟨29, 16, .ro, 0⟩]⟩,
  ⟨0x3000008, 0x10000000000, 1, 8, 1, [⟨15, 0, .rc, 0⟩, ⟨31, 16, .rc, 0⟩, ⟨47, 32, .rc, 0⟩, ⟨63, 48, .rc, 0⟩]⟩,
  ⟨0x3000010, 0x10000000000, 1, 8, 1, [⟨31, 0, .rc, 0⟩, ⟨47, 32, .rc, 0⟩, ⟨63, 48, .rc, 0⟩]⟩,
  ⟨0x3001000, 0x10000000000, 1, 8, 384, [⟨7, 0, .rc, 0⟩, ⟨15, 8, .rc, 0⟩, ⟨23, 16, .rc, 0⟩, ⟨31, 24, .rc, 0⟩, ⟨39, 32, .rc, 0⟩, ⟨47, 40, .rc, 0⟩, ⟨55, 48, .rc, 0⟩, ⟨63, 56, .rc, 0⟩]⟩,
  ⟨0x3200000, 0x10000000000, 1, 16, 8192, [⟨1, 0, .ro, 0⟩, ⟨2, 2, .ro, 0⟩, ⟨3, 3, .ro, 0⟩, ⟨15, 4, .ro, 0⟩, ⟨31, 16, .ro, 0⟩, ⟨63, 32, .ro, 0⟩]⟩,
  ⟨0x3200008, 0x10000000000, 1, 16, 8192, [⟨31, 0, .ro, 0⟩, ⟨39, 32, .ro, 0⟩]⟩,
  ⟨0x3000018, 0x10000000000, 1, 8, 1, [⟨15, 0, .rc, 0⟩, ⟨47, 16, .rc, 0⟩, ⟨63, 48, .rc, 0⟩]⟩,
  ⟨0x3000020, 0x10000000000, 1, 8, 1, [⟨63, 0, .wo, 0⟩]⟩]

/-- Descriptor rows of the registers in block 0x4. -/
def regRows4 : List RDesc := [
  ⟨0x4000000, 0x10000000000, 1, 8, 1, [⟨63, 0, .ro, 0⟩]⟩,
  ⟨0x4000008, 0x10000000000, 1, 8, 1, [⟨1, 0, .ro, 0⟩, ⟨2, 2, .ro, 0⟩, ⟨3, 3, .ro, 0⟩, ⟨7, 4, .ro, 0⟩, ⟨11, 8, .ro, 0⟩, ⟨12, 12, .w1c, 0⟩, ⟨31, 16, .ro, 0⟩, ⟨47, 32, .ro, 0⟩]⟩,
  ⟨0x4100000, 0x100000, 2, 16, 16384, [⟨7, 0, .ro, 0⟩, ⟨15, 8, .ro, 0⟩, ⟨21, 16, .ro, 0⟩, ⟨23, 22, .ro, 0⟩, ⟨34, 24, .ro, 0⟩, ⟨35, 35, .ro, 0⟩, ⟨47, 36, .ro, 0⟩, ⟨57, 48, .ro, 0⟩]⟩,
  ⟨0x4100008, 0x100000, 2, 16, 16384, [⟨31, 0, .ro, 0⟩]⟩,
  ⟨0x4140000, 0x100000, 2, 8, 4096, [⟨7, 0, .ro, 0⟩, ⟨13, 8, .ro, 0⟩, ⟨16, 14, .ro, 0⟩, ⟨23, 17, .ro, 0⟩, ⟨35, 24, .ro, 0⟩, ⟨36, 36, .ro, 0⟩]⟩,
  ⟨0x4000020, 0x10000000000, 1, 8, 1, [⟨15, 0, .ro, 0⟩, ⟨31, 16, .ro, 17000⟩, ⟨47, 32, .ro, 0⟩]⟩,
  ⟨0x4000018, 0x10000000000, 1, 8, 1, [⟨0, 0, .ro, 0⟩, ⟨2, 1, .ro, 0⟩, ⟨18, 4, .ro, 0⟩, ⟨31, 19, .ro, 0⟩, ⟨39, 32, .ro, 0⟩, ⟨63, 40, .rc, 0⟩]⟩,
  ⟨0x4001000, 0x10000000000, 1, 8, 256, [⟨13, 0, .ro, 0⟩, ⟨14, 14, .ro, 0⟩, ⟨47, 16, .ro, 0⟩, ⟨63, 48, .ro, 0⟩]⟩,
  ⟨0x4000010, 0x10000000000, 1, 8, 1, [⟨63, 0, .ro, 0⟩]⟩,
  ⟨0x4000100, 0x10000000000, 1, 8, 64, [⟨31, 0, .rc, 0⟩]⟩]

/-- Descriptor rows of the registers in block 0x5. -/
def regRows5 : List RDesc := [
  ⟨0x5000100, 0x10000000000, 1, 8, 7, [⟨63, 0, .ro, 0⟩]⟩,
  ⟨0x5110000, 0x100000, 2, 8, 4096, [⟨7, 0, .ro, 0⟩, ⟨9, 8, .ro, 0⟩, ⟨19, 10, .ro, 0⟩, ⟨31, 20, .ro, 0⟩, ⟨35, 32, .ro, 0⟩, ⟨36, 36, .ro, 0⟩]⟩,
  ⟨0x5000000, 0x10000000000, 1, 8, 1, [⟨31, 0, .ro, 0⟩, ⟨32, 32, .ro, 0⟩, ⟨34, 33, .ro, 0⟩, ⟨35, 35, .ro, 0⟩, ⟨36, 36, .ro, 0⟩, ⟨52, 37, .ro, 0⟩, ⟨60, 53, .ro, 0⟩]⟩,
  ⟨0x5000008, 0x10000000000, 1, 8, 1, [⟨31, 0, .rc, 0⟩]⟩,
  ⟨0x5002000, 0x10000000000, 1, 8, 160, [⟨2, 0, .ro, 0⟩, ⟨7, 4, .ro, 0⟩, ⟨15, 8, .ro, 0⟩, ⟨19, 16, .ro, 0⟩, ⟨28, 20, .ro, 0⟩, ⟨38, 29, .ro, 0⟩, ⟨46, 39, .ro, 0⟩]⟩]

/-- Descriptor rows of the registers in block 0x6. -/
def regRows6 : List RDesc := [
  ⟨0x6000000, 0x10000000000, 1, 8, 1, [⟨1, 0, .ro, 0⟩, ⟨13, 8, .rw, 2⟩, ⟨18, 16, .rw, 2⟩, ⟨29, 24, .rw, 1⟩]⟩,
  ⟨0x6000008, 0x10000000000, 1, 8, 1, [⟨23, 0, .rc, 0⟩, ⟨39, 24, .rc, 0⟩, ⟨51, 40, .rc, 0⟩, ⟨57, 52, .rc, 0⟩, ⟨63, 58, .rc, 0⟩]⟩]

/-- Descriptor rows of the registers in block 0x7. -/
def regRows7 : List RDesc := [
  ⟨0x7000000, 0x100000, 16, 8, 1, [⟨6, 0, .ro, 96⟩, ⟨8, 7, .ro, 0⟩, ⟨9, 9, .ro, 0⟩, ⟨16, 10, .ro, 0⟩, ⟨20, 17, .ro, 0⟩, ⟨21, 21, .ro, 0⟩, ⟨22, 22, .ro, 0⟩, ⟨23, 23, .ro, 0⟩, ⟨24, 24, .w1c, 0⟩, ⟨25, 25, .w1c, 0⟩]⟩,
  ⟨0x7000008, 0x100000, 16, 8, 1, [⟨43, 0, .ro, 1159641169920⟩]⟩,
  ⟨0x7000010, 0x100000, 16, 8, 1, [⟨43, 0, .ro, 0⟩]⟩,
  ⟨0x7000018, 0x100000, 16, 8, 1, [⟨0, 0, .wo, 0⟩, ⟨12, 8, .rw, 4⟩]⟩,
  ⟨0x7000020, 0x100000, 16, 8, 1, [⟨31, 0, .rc, 0⟩, ⟨47, 32, .rc, 0⟩, ⟨63, 48, .rc, 0⟩]⟩,
  ⟨0x7000028, 0x100000, 16, 8, 1, [⟨40, 0, .ro, 0⟩]⟩,
  ⟨0x7000030, 0x100000, 16, 8, 1, [⟨7, 0, .ro, 0⟩, ⟨11, 8, .ro, 0⟩, ⟨13, 12, .ro, 0⟩]⟩,
  ⟨0x7000038, 0x100000, 16, 8, 1, [⟨7, 0, .ro, 255⟩, ⟨15, 8, .ro, 0⟩, ⟨19, 16, .ro, 8⟩]⟩,
  ⟨0x7000040, 0x100000, 16, 8, 1, [⟨6, 0, .rw, 64⟩]⟩,
  ⟨0x7000048, 0x100000, 16, 8, 1, [⟨11, 0, .wo, 0⟩, ⟨27, 12, .wo, 0⟩]⟩,
  ⟨0x7000050, 0x100000, 16, 8, 1, [⟨31, 0, .rc, 0⟩, ⟨47, 32, .rc, 0⟩]⟩,
  ⟨0x7000400, 0x100000, 16, 8, 96, [⟨1, 0, .ro, 0⟩, ⟨17, 2, .ro, 0⟩, ⟨49, 18, .ro, 0⟩]⟩,
  ⟨0x7002000, 0x100000, 16, 64, 16, [⟨0, 0, .rw, 0⟩, ⟨6, 1, .rw, 0⟩, ⟨7, 7, .ro, 0⟩, ⟨8, 8, .wo, 0⟩]⟩,
  ⟨0x7002008, 0x100000, 16, 64, 16, [⟨43, 12, .rw, 0⟩]⟩,
  ⟨0x7002010, 0x100000, 16, 64, 16, [⟨31, 0, .rw, 0⟩]⟩,
  ⟨0x7002018, 0x100000, 16, 64, 16, [⟨43, 12, .rw, 0⟩]⟩,
  ⟨0x7002020, 0x100000, 16, 64, 16, [⟨43, 6, .rw, 0⟩]⟩]

/-- Descriptor rows of the registers in block 0x8. -/
def regRows8 : List RDesc := [
  ⟨0x8000180, 0x10000, 256, 8, 1, [⟨3, 0, .ro, 0⟩, ⟨4, 4, .ro, 0⟩, ⟨11, 5, .ro, 0⟩, ⟨15, 12, .ro, 0⟩]⟩,
  ⟨0x8000188, 0x10000, 256, 8, 1, [⟨31, 0, .rc, 0⟩, ⟨47, 32, .rc, 0⟩, ⟨63, 48, .rc, 0⟩]⟩,
  ⟨0x8000000, 0x10000, 256, 8, 1, [⟨5, 0, .ro, 0⟩, ⟨7, 6, .ro, 0⟩, ⟨13, 8, .ro, 0⟩, ⟨14, 14, .ro, 0⟩, ⟨19, 16, .ro, 0⟩, ⟨21, 20, .ro, 0⟩, ⟨27, 22, .ro, 0⟩]⟩,
  ⟨0x8000008, 0x10000, 256, 8, 1, [⟨4, 0, .ro, 16⟩, ⟨8, 8, .ro, 0⟩, ⟨9, 9, .ro, 0⟩]⟩,
  ⟨0x8000010, 0x10000, 256, 8, 1, [⟨7, 0, .ro, 0⟩, ⟨13, 8, .ro, 0⟩, ⟨15, 14, .ro, 0⟩, ⟨16, 16, .w1c, 0⟩, ⟨46, 32, .ro, 0⟩]⟩,
  ⟨0x8000018, 0x10000, 256, 8, 1, [⟨23, 0, .rc, 0⟩, ⟨47, 24, .rc, 0⟩, ⟨63, 48, .rc, 0⟩]⟩,
  ⟨0x8000020, 0x10000, 256, 8, 1, [⟨31, 0, .rc, 0⟩, ⟨55, 32, .rc, 0⟩]⟩,
  ⟨0x8000400, 0x10000, 256, 8, 64, [⟨0, 0, .ro, 0⟩, ⟨8, 1, .ro, 0⟩, ⟨17, 9, .ro, 0⟩, ⟨18, 18, .ro, 0⟩, ⟨34, 20, .ro, 0⟩, ⟨50, 35, .ro, 0⟩]⟩,
  ⟨0x8000600, 0x10000, 256, 8, 64, [⟨2, 0, .ro, 0⟩, ⟨3, 3, .ro, 0⟩, ⟨6, 4, .ro, 0⟩, ⟨19, 8, .ro, 0⟩, ⟨29, 20, .ro, 0⟩, ⟨63, 32, .ro, 0⟩]⟩]

/-- Descriptor rows of the registers in block 0x9. -/
def regRows9 : List RDesc := [
  ⟨0x9010000, 0x80000, 17, 32, 4096, [⟨0, 0, .rw, 0⟩, ⟨6, 1, .rw, 0⟩, ⟨12, 7, .rw, 0⟩, ⟨13, 13, .rw, 0⟩, ⟨14, 14, .rw, 0⟩, ⟨15, 15, .rw, 0⟩, ⟨16, 16, .rw, 0⟩, ⟨28, 17, .rw, 0⟩]⟩,
  ⟨0x9010008, 0x80000, 17, 32, 4096, [⟨63, 12, .rw, 0⟩]⟩,
  ⟨0x9010010, 0x80000, 17, 32, 4096, [⟨63, 12, .rw, 0⟩]⟩,
  ⟨0x9001000, 0x80000, 17, 8, 256, [⟨0, 0, .rw, 0⟩, ⟨4, 1, .rw, 0⟩, ⟨6, 5, .rw, 0⟩, ⟨12, 7, .rw, 0⟩, ⟨24, 13, .rw, 0⟩, ⟨35, 25, .rw, 0⟩, ⟨36, 36, .ro, 0⟩]⟩,
  ⟨0x9040000, 0x80000, 17, 16, 4096, [⟨63, 0, .rw, 0⟩]⟩,
  ⟨0x9040008, 0x80000, 17, 16, 4096, [⟨31, 0, .rc, 0⟩, ⟨47, 32, .rc, 0⟩, ⟨53, 48, .rw, 0⟩]⟩,
  ⟨0x9000000, 0x80000, 17, 8, 1, [⟨0, 0, .rw, 0⟩, ⟨1, 1, .rw, 1⟩, ⟨7, 2, .rw, 16⟩, ⟨8, 8, .wo, 0⟩]⟩,
  ⟨0x9000008, 0x80000, 17, 8, 1, [⟨0, 0, .ro, 0⟩, ⟨1, 1, .w1c, 0⟩, ⟨19, 2, .ro, 0⟩, ⟨28, 20, .ro, 0⟩]⟩,
  ⟨0x9000010, 0x80000, 17, 8, 1, [⟨15, 0, .rc, 0⟩, ⟨31, 16, .rc, 0⟩, ⟨47, 32, .rc, 0⟩, ⟨63, 48, .rc, 0⟩]⟩,
  ⟨0x9000018, 0x80000, 17, 8, 1, [⟨31, 0, .rc, 0⟩, ⟨47, 32, .rc, 0⟩, ⟨63, 48, .rc, 0⟩]⟩]

/-- Descriptor rows of the registers in block 0xa. -/
def regRowsA : List RDesc := [
  ⟨0xa000000, 0x10000000000, 1, 8, 1, [⟨11, 0, .rw, 0⟩, ⟨12, 12, .rw, 0⟩, ⟨23, 16, .rw, 0⟩, ⟨24, 24, .rw, 1⟩, ⟨25, 25, .rw, 1⟩]⟩,
  ⟨0xa000010, 0x10000000000, 1, 8, 2, [⟨0, 0, .ro, 0⟩, ⟨1, 1, .ro, 0⟩, ⟨9, 2, .ro, 0⟩, ⟨47, 16, .rc, 0⟩, ⟨63, 48, .ro, 0⟩]⟩,
  ⟨0xa000100, 0x10000000000, 1, 32, 2, [⟨47, 0, .ro, 0⟩]⟩,
  ⟨0xa000108, 0x10000000000, 1, 32, 2, [⟨31, 0, .rw, 0⟩, ⟨39, 32, .rw, 0⟩]⟩,
  ⟨0xa000110, 0x10000000000, 1, 32, 2, [⟨63, 0, .rw, 0⟩]⟩,
  ⟨0xa000118, 0x10000000000, 1, 32, 2, [⟨63, 0, .rw, 0⟩]⟩,
  ⟨0xa001000, 0x10000000000, 1, 32, 32, [⟨0, 0, .rw, 0⟩, ⟨1, 1, .rw, 0⟩, ⟨9, 2, .rw, 0⟩]⟩,
  ⟨0xa001008, 0x10000000000, 1, 32, 32, [⟨63, 0, .rw, 0⟩]⟩,
  ⟨0xa001010, 0x10000000000, 1, 32, 32, [⟨63, 0, .rw, 0⟩]⟩,
  ⟨0xa001018, 0x10000000000, 1, 32, 32, [⟨63, 0, .rw, 0⟩]⟩,
  ⟨0xa000020, 0x10000000000, 1, 8, 1, [⟨15, 0, .rc, 0⟩, ⟨31, 16, .rc, 0⟩, ⟨47, 32, .rc, 0⟩, ⟨63, 48, .rc, 0⟩]⟩,
  ⟨0xa000028, 0x10000000000, 1, 8, 1, [⟨47, 0, .ro, 0⟩, ⟨48, 48, .ro, 0⟩, ⟨49, 49, .ro, 0⟩, ⟨50, 50, .ro, 0⟩]⟩,
  ⟨0xa000030, 0x10000000000, 1, 8, 1, [⟨47, 0, .wo, 0⟩]⟩,
  ⟨0xa004000, 0x10000000000, 1, 32, 256, [⟨0, 0, .rw, 0⟩, ⟨1, 1, .rw, 0⟩, ⟨7, 2, .rw, 0⟩, ⟨9, 8, .rw, 0⟩, ⟨10, 10, .rw, 0⟩, ⟨39, 16, .rw, 0⟩, ⟨63, 40, .rw, 0⟩]⟩,
  ⟨0xa004008, 0x10000000000, 1, 32, 256, [⟨63, 0, .rw, 0⟩]⟩,
  ⟨0xa004010, 0x10000000000, 1, 32, 256, [⟨63, 0, .rw, 0⟩]⟩,
  ⟨0xa004018, 0x10000000000, 1, 32, 256, [⟨31, 0, .ro, 0⟩]⟩,
  ⟨0xa008000, 0x10000000000, 1, 32, 1024, [⟨0, 0, .rw, 0⟩, ⟨6, 1, .rw, 0⟩, ⟨7, 7, .rw, 0⟩, ⟨8, 8, .rw, 0⟩, ⟨63, 32, .rw, 0⟩]⟩,
  ⟨0xa008008, 0x10000000000, 1, 32, 1024, [⟨63, 0, .rw, 0⟩]⟩,
  ⟨0xa008010, 0x10000000000, 1, 32, 1024, [⟨43, 0, .rw, 0⟩]⟩]

/-- Descriptor rows of the registers in block 0xb. -/
def regRowsB : List RDesc := [
  ⟨0xb000000, 0x10000000000, 1, 8, 1, [⟨15, 0, .ro, 0⟩, ⟨31, 16, .ro, 0⟩, ⟨47, 32, .ro, 0⟩, ⟨63, 48, .rc, 0⟩]⟩,
  ⟨0xb000008, 0x10000000000, 1, 8, 1, [⟨3, 0, .ro, 0⟩, ⟨7, 4, .ro, 0⟩, ⟨8, 8, .ro, 1⟩, ⟨9, 9, .ro, 1⟩, ⟨10, 10, .ro, 0⟩, ⟨11, 11, .w1c, 0⟩, ⟨22, 12, .ro, 1600⟩, ⟨47, 32, .ro, 21000⟩]⟩,
  ⟨0xb000010, 0x10000000000, 1, 8, 1, [⟨31, 0, .ro, 8000000⟩, ⟨47, 32, .ro, 0⟩, ⟨63, 48, .rc, 0⟩]⟩,
  ⟨0xb000018, 0x10000000000, 1, 8, 1, [⟨7, 0, .ro, 0⟩, ⟨15, 8, .ro, 0⟩, ⟨23, 16, .ro, 0⟩, ⟨25, 24, .ro, 0⟩, ⟨26, 26, .ro, 0⟩, ⟨27, 27, .ro, 0⟩, ⟨28, 28, .ro, 0⟩]⟩,
  ⟨0xb000020, 0x10000000000, 1, 8, 1, [⟨7, 0, .ro, 0⟩, ⟨15, 8, .ro, 0⟩, ⟨23, 16, .ro, 0⟩, ⟨31, 24, .ro, 0⟩, ⟨39, 32, .ro, 0⟩, ⟨47, 40, .ro, 0⟩, ⟨55, 48, .ro, 0⟩]⟩,
  ⟨0xb000100, 0x10000000000, 1, 8, 64, [⟨15, 0, .rc, 0⟩, ⟨31, 16, .rc, 0⟩, ⟨47, 32, .rc, 0⟩, ⟨63, 48, .rc, 0⟩]⟩,
  ⟨0xb000200, 0x10000000000, 1, 8, 20, [⟨7, 0, .ro, 0⟩, ⟨15, 8, .rc, 0⟩, ⟨47, 16, .ro, 0⟩, ⟨48, 48, .ro, 0⟩]⟩,
  ⟨0xb000028, 0x10000000000, 1, 8, 1, [⟨0, 0, .rw, 0⟩, ⟨1, 1, .w1c, 0⟩]⟩]

/-- Descriptor rows of the registers in block 0xc. -/
def regRowsC : List RDesc := [
  ⟨0xc000000, 0x10000000000, 1, 8, 1, [⟨0, 0, .ro, 1⟩, ⟨1, 1, .ro, 0⟩, ⟨2, 2, .ro, 0⟩, ⟨3, 3, .ro, 0⟩, ⟨4, 4, .ro, 0⟩, ⟨10, 8, .ro, 0⟩]⟩,
  ⟨0xc000008, 0x10000000000, 1, 8, 1, [⟨0, 0, .rw, 0⟩]⟩,
  ⟨0xc000010, 0x10000000000, 1, 8, 1, [⟨15, 0, .ro, 0⟩, ⟨47, 16, .ro, 0⟩, ⟨48, 48, .ro, 0⟩, ⟨50, 49, .ro, 0⟩]⟩,
  ⟨0xc000018, 0x10000000000, 1, 8, 1, [⟨0, 0, .wo, 0⟩, ⟨1, 1, .ro, 0⟩, ⟨2, 2, .ro, 0⟩, ⟨28, 16, .rw, 0⟩]⟩,
  ⟨0xc000020, 0x10000000000, 1, 8, 1, [⟨63, 0, .ro, 0⟩]⟩,
  ⟨0xc000040, 0x10000000000, 1, 8, 8, [⟨63, 0, .rw, 0⟩]⟩]

/-- Descriptor rows of the registers in block 0xd. -/
def regRowsD : List RDesc := [
  ⟨0xd100000, 0x10000000000, 1, 8, 1, [⟨7, 0, .ro, 0⟩, ⟨15, 8, .ro, 0⟩, ⟨31, 16, .rc, 0⟩, ⟨63, 32, .ro, 0⟩]⟩,
  ⟨0xd100008, 0x10000000000, 1, 8, 1, [⟨15, 0, .ro, 0⟩, ⟨31, 16, .ro, 0⟩, ⟨32, 32, .ro, 0⟩, ⟨35, 33, .ro, 0⟩, ⟨36, 36, .ro, 0⟩]⟩,
  ⟨0xd100010, 0x10000000000, 1, 8, 1, [⟨15, 0, .rc, 0⟩, ⟨31, 16, .rc, 0⟩, ⟨47, 32, .rc, 0⟩, ⟨50, 48, .ro, 0⟩]⟩,
  ⟨0xd100100, 0x10000000000, 1, 8, 144, [⟨1, 0, .ro, 0⟩, ⟨3, 2, .ro, 0⟩, ⟨7, 4, .ro, 0⟩, ⟨47, 8, .ro, 0⟩, ⟨63, 48, .rc, 0⟩]⟩,
  ⟨0xd100800, 0x10000000000, 1, 8, 7, [⟨63, 0, .ro, 0⟩]⟩,
  ⟨0xd100840, 0x10000000000, 1, 8, 2, [⟨63, 0, .ro, 0⟩]⟩,
  ⟨0xd210000, 0x40, 160, 8, 1, [⟨63, 0, .ro, 0⟩]⟩,
  ⟨0xd210008, 0x40, 160, 8, 1, [⟨63, 0, .ro, 0⟩]⟩,
  ⟨0xd210010, 0x40, 160, 8, 1, [⟨63, 0, .ro, 0⟩]⟩,
  ⟨0xd210018, 0x40, 160, 8, 1, [⟨63, 0, .ro, 0⟩]⟩,
  ⟨0xd210020, 0x40, 160, 8, 1, [⟨63, 0, .ro, 0⟩]⟩,
  ⟨0xd210028, 0x40, 160, 8, 1, [⟨63, 0, .ro, 0⟩]⟩,
  ⟨0xd220000, 0x40, 160, 8, 1, [⟨63, 0, .ro, 0⟩]⟩,
  ⟨0xd220008, 0x40, 160, 8, 1, [⟨63, 0, .ro, 0⟩]⟩,
  ⟨0xd220010, 0x40, 160, 8, 1, [⟨63, 0, .ro, 0⟩]⟩,
  ⟨0xd220018, 0x40, 160, 8, 1, [⟨63, 0, .ro, 0⟩]⟩,
  ⟨0xd220020, 0x40, 160, 8, 1, [⟨63, 0, .ro, 0⟩]⟩,
  ⟨0xd220028, 0x40, 160, 8, 1, [⟨63, 0, .ro, 0⟩]⟩,
  ⟨0xd300000, 0x10000000000, 1, 64, 16, [⟨0, 0, .rw, 0⟩, ⟨1, 1, .rw, 0⟩, ⟨3, 2, .rw, 1⟩, ⟨11, 4, .rw, 0⟩, ⟨21, 12, .rw, 0⟩, ⟨27, 22, .rw, 0⟩, ⟨47, 32, .rw, 0⟩, ⟨58, 48, .rw, 1⟩]⟩,
  ⟨0xd300008, 0x10000000000, 1, 64, 16, [⟨63, 0, .ro, 0⟩]⟩,
  ⟨0xd300010, 0x10000000000, 1, 64, 16, [⟨31, 0, .rc, 0⟩]⟩,
  ⟨0xd301000, 0x10000000000, 1, 64, 16, [⟨0, 0, .rw, 0⟩, ⟨10, 1, .rw, 0⟩, ⟨31, 16, .rw, 0⟩]⟩,
  ⟨0xd301008, 0x10000000000, 1, 64, 16, [⟨63, 0, .ro, 0⟩]⟩,
  ⟨0xd301010, 0x10000000000, 1, 64, 16, [⟨31, 0, .ro, 0⟩, ⟨63, 32, .ro, 0⟩]⟩,
  ⟨0xd301018, 0x10000000000, 1, 64, 16, [⟨31, 0, .ro, 0⟩, ⟨47, 32, .ro, 0⟩]⟩,
  ⟨0xd301020, 0x10000000000, 1, 64, 16, [⟨31, 0, .ro, 0⟩, ⟨63, 32, .ro, 0⟩]⟩,
  ⟨0xd301028, 0x10000000000, 1, 64, 16, [⟨31, 0, .ro, 0⟩, ⟨63, 32, .ro, 0⟩]⟩,
  ⟨0xd301030, 0x10000000000, 1, 64, 16, [⟨31, 0, .ro, 0⟩, ⟨63, 32, .ro, 0⟩]⟩,
  ⟨0xd301038, 0x10000000000, 1, 64, 16, [⟨31, 0, .ro, 0⟩, ⟨63, 32, .ro, 0⟩]⟩,
  ⟨0xd000000, 0x10000000000, 1, 8, 1, [⟨31, 0, .ro, 4294967295⟩, ⟨32, 32, .ro, 0⟩, ⟨33, 33, .ro, 1⟩]⟩,
  ⟨0xd000008, 0x10000000000, 1, 8, 1, [⟨31, 0, .ro, 4294967295⟩]⟩,
  ⟨0xd200000, 0x10000000000, 1, 8, 1, [⟨0, 0, .wo, 0⟩, ⟨1, 1, .ro, 0⟩]⟩,
  ⟨0xd200008, 0x10000000000, 1, 8, 1, [⟨63, 0, .ro, 0⟩]⟩]

/-- Descriptor rows of the registers in block 0x100. -/
def regRows100 : List RDesc := [
  ⟨0x100200000, 0x1000, 16, 8, 1, [⟨2, 0, .ro, 0⟩, ⟨7, 4, .ro, 0⟩, ⟨15, 8, .ro, 0⟩, ⟨23, 16, .ro, 0⟩, ⟨27, 24, .ro, 0⟩, ⟨31, 28, .ro, 0⟩, ⟨39, 32, .ro, 0⟩, ⟨47, 40, .ro, 0⟩, ⟨51, 48, .ro, 0⟩, ⟨52, 52, .ro, 0⟩, ⟨53, 53, .ro, 0⟩, ⟨56, 54, .ro, 0⟩]⟩,
  ⟨0x100200008, 0x1000, 16, 8, 1, [⟨0, 0, .rw, 1⟩, ⟨1, 1, .rw, 0⟩, ⟨2, 2, .wo, 0⟩, ⟨3, 3, .rw, 0⟩, ⟨4, 4, .rw, 0⟩]⟩,
  ⟨0x100200010, 0x1000, 16, 8, 1, [⟨31, 0, .rc, 0⟩, ⟨47, 32, .rc, 0⟩, ⟨63, 48, .rc, 0⟩]⟩,
  ⟨0x100200018, 0x1000, 16, 8, 1, [⟨15, 0, .ro, 0⟩]⟩,
  ⟨0x100200100, 0x1000, 16, 8, 8, [⟨31, 0, .ro, 0⟩, ⟨47, 32, .ro, 0⟩, ⟨49, 48, .ro, 0⟩, ⟨50, 50, .ro, 0⟩]⟩,
  ⟨0x100010000, 0x10000000000, 1, 32, 4096, [⟨0, 0, .rw, 0⟩, ⟨6, 1, .rw, 0⟩, ⟨12, 7, .rw, 0⟩, ⟨13, 13, .rw, 0⟩, ⟨14, 14, .rw, 0⟩, ⟨15, 15, .rw, 0⟩, ⟨16, 16, .rw, 0⟩, ⟨28, 17, .rw, 0⟩]⟩,
  ⟨0x100010008, 0x10000000000, 1, 32, 4096, [⟨63, 12, .rw, 0⟩]⟩,
  ⟨0x100010010, 0x10000000000, 1, 32, 4096, [⟨63, 12, .rw, 0⟩]⟩,
  ⟨0x100001000, 0x10000000000, 1, 8, 256, [⟨0, 0, .rw, 0⟩, ⟨4, 1, .rw, 0⟩, ⟨6, 5, .rw, 0⟩, ⟨12, 7, .rw, 0⟩, ⟨24, 13, .rw, 0⟩, ⟨35, 25, .rw, 0⟩, ⟨36, 36, .ro, 0⟩]⟩,
  ⟨0x100040000, 0x10000000000, 1, 16, 4096, [⟨63, 0, .rw, 0⟩]⟩,
  ⟨0x100040008, 0x10000000000, 1, 16, 4096, [⟨31, 0, .rc, 0⟩, ⟨47, 32, .rc, 0⟩, ⟨53, 48, .rw, 0⟩]⟩,
  ⟨0x100000000, 0x10000000000, 1, 8, 1, [⟨0, 0, .rw, 1⟩, ⟨1, 1, .rw, 1⟩, ⟨7, 2, .rw, 16⟩, ⟨8, 8, .wo, 0⟩]⟩,
  ⟨0x100000008, 0x10000000000, 1, 8, 1, [⟨0, 0, .ro, 0⟩, ⟨1, 1, .w1c, 0⟩, ⟨19, 2, .ro, 0⟩, ⟨28, 20, .ro, 0⟩]⟩,
  ⟨0x100000010, 0x10000000000, 1, 8, 1, [⟨15, 0, .rc, 0⟩, ⟨31, 16, .rc, 0⟩, ⟨47, 32, .rc, 0⟩, ⟨63, 48, .rc, 0⟩]⟩,
  ⟨0x100000018, 0x10000000000, 1, 8, 1, [⟨31, 0, .rc, 0⟩, ⟨47, 32, .rc, 0⟩, ⟨63, 48, .rc, 0⟩]⟩,
  ⟨0x100100000, 0x10000000000, 1, 8, 1, [⟨15, 0, .ro, 3233⟩, ⟨31, 16, .ro, 353⟩, ⟨39, 32, .ro, 16⟩]⟩,
  ⟨0x100100008, 0x10000000000, 1, 8, 1, [⟨9, 0, .rw, 1023⟩, ⟨10, 10, .rw, 0⟩, ⟨11, 11, .rw, 0⟩, ⟨12, 12, .wo, 0⟩]⟩,
  ⟨0x100100010, 0x10000000000, 1, 8, 1, [⟨7, 0, .ro, 0⟩, ⟨8, 8, .w1c, 0⟩, ⟨23, 16, .ro, 0⟩, ⟨31, 24, .ro, 0⟩]⟩,
  ⟨0x100100018, 0x10000000000, 1, 8, 1, [⟨63, 12, .rw, 0⟩]⟩,
  ⟨0x100100020, 0x10000000000, 1, 8, 1, [⟨44, 0, .rw, 0⟩]⟩,
  ⟨0x100300000, 0x10000000000, 1, 8, 64, [⟨0, 0, .ro, 0⟩, ⟨1, 1, .ro, 0⟩, ⟨17, 2, .rc, 0⟩]⟩,
  ⟨0x100100100, 0x10000000000, 1, 8, 2, [⟨7, 0, .ro, 0⟩, ⟨15, 8, .rc, 0⟩, ⟨47, 16, .ro, 0⟩, ⟨48, 48, .ro, 0⟩]⟩]

/-- CH_TEST, whose offset the chiplet's window gives to word 1 of CH_HOME: it is kept outside every window, and no access
by address reaches it (assumption 62). -/
def regRows200 : List RDesc := [
  ⟨0x200100020, 0x10000000000, 1, 8, 1, [⟨0, 0, .wo, 0⟩, ⟨1, 1, .ro, 0⟩, ⟨2, 2, .ro, 0⟩, ⟨3, 3, .rw, 0⟩, ⟨31, 16, .ro, 0⟩]⟩]

/-- Descriptor rows by the 16 MiB block that holds the address (R12, R538). -/
def regRows (addr : Nat) : List RDesc :=
  match addr / 0x1000000 with
  | 0 => regRows0
  | 1 => regRows1
  | 2 => regRows2
  | 3 => regRows3
  | 4 => regRows4
  | 5 => regRows5
  | 6 => regRows6
  | 7 => regRows7
  | 8 => regRows8
  | 9 => regRows9
  | 10 => regRowsA
  | 11 => regRowsB
  | 12 => regRowsC
  | 13 => regRowsD
  | 256 => regRows100
  | 512 => regRows200
  | _ => []

/-- The descriptor row covers the address. -/
def RDesc.covers (d : RDesc) (addr : Nat) : Bool :=
  d.base ≤ addr && (addr - d.base) / d.s1 < d.c1 && (addr - d.base) % d.s1 / d.s2 < d.c2
    && (addr - d.base) % d.s1 % d.s2 == 0

/-- Access codes of an address by field; none where no register is assigned (R8). -/
def regFields (addr : Nat) : List FDesc :=
  if 0x5100000 ≤ addr ∧ addr < 0x5300000 ∧ addr % 0x100000 < 0x2000 then
    [⟨7, 0, .ro, 0⟩, ⟨11, 8, .ro, 0⟩, ⟨12, 12, .ro, 0⟩, ⟨13, 13, .ro, 1⟩]
  else if 0x7000000 ≤ addr ∧ addr < 0x8000000 ∧ 0x1000 ≤ addr % 0x100000 ∧ addr % 0x100000 < 0x1800 ∧
      addr % 0x400 < 0x300 then
    [⟨6, 0, .ro, addr % 0x400 / 8⟩, ⟨7, 7, .ro, 0⟩]
  else if addr = 0x8 then [⟨18, 18, .w1c, 0⟩]
  else ((regRows addr).find? (·.covers addr)).elim [] (·.fields)

/-- The value that fields at their reset values make. -/
def resetValue : List FDesc → Nat
  | [] => 0
  | f :: fs => f.reset <<< f.lo + resetValue fs

end Sys2Proof.Machine
end

