-- ==== Sys2Proof/Machine/State.lean ====
section
/-! DEFINITION. The state of the block: one sled with its seventeen end-point instances and one chiplet, as plain data.
Every register of the spec lives in `regs` under its address (the one home of every register, bank entry, milestone and
translation entry); what the spec gives the machine beside registers stands in the structures below. -/

namespace Sys2Proof.Machine

/-- Registers: (address, value), addresses strictly rising, no entry equal to the register's reset value.
Sled registers stand at their 32-bit address, the chiplet's at 2^32 + their offset (R538). -/
abbrev RegFile := List (Nat × W64)

/-- Memory: (address, byte), addresses strictly rising, no entry equal to 0, which every unlisted byte reads as
(R299: after INIT every usable byte reads as zero). -/
abbrev Memory := List Host.Cell

/-! ## Outputs -/

/-- What leaves the block: cells and messages at its ports and pins. The model's own record, newest first. -/
inductive Out where
  /-- A cell sent on optical port `port` (160 + k for chiplet port k), or at hub output 144 + h, in the cell slot of FCLK
  `slot` (R84). On an optical port it is the 64 symbols `Cell.symbols c` on the working wavelength numbered slot mod 8. -/
  | cell (port slot : Nat) (c : Cell)
  /-- A cell that an end-point, the Tollgate, a reduction unit or an arriving link presents at the core's input `pos`;
  160 + k: the cell reaches the chiplet's end-point block at its port k; 320 + u: the Tollgate, from uplink u. -/
  | inject (pos : Nat) (c : Cell)
  /-- A JOIN or CONTRIB that the first stage brings to the reduction unit at intermediate `m` (R110). -/
  | toUnit (m : Nat) (c : Cell)
  /-- A packet of a status reply or completion notice (*Command packets*): where it goes, and its bytes. -/
  | packet (route : Route) (bytes : List Byte)
  /-- A train on an uplink (R159); uplink 16: an answer that reached this Tollgate's own origin side. -/
  | train (uplink : Nat) (t : Transfer)
  /-- A frame begins on a port (R77, R78, R81): the 20-bit frame word of each working wavelength λk, whether a fill symbol
  follows the frame's cells, and whether a codeword begins with the frame words. -/
  | frame (port : Nat) (words : List (Nat × Nat)) (fill start : Bool)
  /-- The identity IDLE cells of training step 5, one in every cell slot of port `port`, with this block (R94). -/
  | identity (port : Nat) (block : Identity)
  /-- A beacon (R527) on a port. -/
  | beacon (port : Nat) (b : Beacon)
  /-- An answer frame on a host port: ARP, neighbour discovery, echo (R396), LLDP (R397); kind and target. -/
  | eth (port kind target : Nat)
  /-- A RoCEv2 answer: queue pair, PSN, kind (0 ACK, 1 READ Response, 2 NAK Invalid Request, 3 NAK Remote Access
  Error, 4 NAK Remote Operational Error, 5 NAK PSN sequence error) and data. -/
  | rdma (qp psn kind : Nat) (data : List Byte)
  /-- A COMPLETE message to the accelerator (R534): requester, tag, status, data. -/
  | complete (rq tag status : Nat) (data : List Byte)
  /-- HOME_READ of a line (R536). -/
  | homeRead (line : Nat)
  /-- HOME_WRITE of a line under a byte mask (R536). -/
  | homeWrite (line mask : Nat) (data : BitVec 512)
  /-- INBAND_REPLY to the accelerator: a reply stream. -/
  | inbandReply (stream : List Byte)
  /-- A value read over the board-management pair (R550). -/
  | bmRead (addr : Nat) (v : W64)
  /-- The rack-manager alert line is asserted for group `bit` of CP_ALERT (R549). -/
  | alert (bit : Nat)
  /-- A refresh command on a hub's channel, rank and bank (R304). -/
  | refresh (hub chan rank bank : Nat)
  /-- Light without the coded stream on the wavelengths of a port (R93, R530): port, mask, kind: 0 the training pattern
  PRBS31Q, 2 inspection light. -/
  | light (port mask kind : Nat)
  /-- The wavelengths of a port send a test pattern (R520, R522). -/
  | pattern (port mask : Nat) (p : Pattern)
  deriving DecidableEq, Repr

/-! ## Timebase and banks -/

/-- What a port's last markers gave (R38, R39, R48). -/
structure MarkerSt where
  frame : Nat := 0
  lock : Nat := 0
  masterPlane : Nat := 0
  relayed : Bool := false
  /-- Frames since the marker arrived. -/
  age : Nat := 0
  /-- The last two markers not ignored carried n and n + 1 (R82). -/
  consecutive : Bool := false
  arrival : Int := 0
  /-- Frames for which this sender's markers have reported LOCKED (R47). -/
  lockedFor : Nat := 0
  deriving DecidableEq, Repr

/-- The timebase (R34 to R48). -/
structure Timebase where
  /-- The 64-bit frame number (TB_FRAME). -/
  frame : W64 := 0
  /-- Consecutive frames with the estimated offset within 2 ns (R39). -/
  okRun : Nat := 0
  /-- Consecutive frames with the estimated offset above 10 ns (R39). -/
  badRun : Nat := 0
  /-- Consecutive frames without a marker from the followed sled (R39). -/
  silent : Nat := 0
  /-- Frames in HOLDOVER. -/
  holdFor : Nat := 0
  /-- Frames in LOCKED. -/
  lockedFor : Nat := 0
  /-- Frames since DISCOVERY was entered (R45, R433). -/
  discFor : Nat := 0
  /-- The last frame in which R48 bars guaranteed admission, plus one. -/
  slipUntil : Nat := 0
  /-- The frame number to adopt at the next boundary (R45, R48). -/
  adopt : Option Nat := none
  /-- The number was adopted from LOCKED: a frame slip (R48). -/
  slipDue : Bool := false
  /-- A phase step is due at the next boundary (R38). -/
  stepDue : Bool := false
  /-- TBCLK's slew accumulated so far, units of 1/1000 ns (R38). -/
  slew : Int := 0
  /-- Ports repeating their alignment step, with the frame of the step (R79). -/
  realign : KV Nat := []
  /-- Markers by port. -/
  markers : KV MarkerSt := []
  /-- Whether a marker of the followed sled arrived in the current frame. -/
  heard : Bool := false
  deriving DecidableEq, Repr

/-- A swap that is being checked or is ARMED (R60): the command and the frame it names. -/
structure SwapReq where
  n : Nat := 0
  owner : Nat := 0
  tag : Nat := 0
  /-- The frame of receipt. -/
  got : Nat := 0
  deriving DecidableEq, Repr

/-- The swap in progress of one bank family. -/
structure SwapSt where
  checking : Option SwapReq := none
  armed : Option SwapReq := none
  /-- Last frame of COPYING (R60 step 5). -/
  copyUntil : Nat := 0
  /-- Bank words found uncorrectable, by address (R455). -/
  eccBad : List Nat := []
  deriving DecidableEq, Repr

/-- A width change that is pending at a position (R67, R68, R72). -/
structure WidthChange where
  pos : Nat := 0
  /-- The wavelength or lane that goes. -/
  wl : Nat := 0
  width : Nat := 0
  n : Nat := 0
  planned : Bool := true
  /-- CAUSE of R98: 0 BER over threshold, 1 lost. -/
  cause : Nat := 0
  /-- The RETIRE was sent by this end and has no RETIRE_ACK yet. -/
  sending : Bool := false
  acked : Bool := false
  deriving DecidableEq, Repr

/-- The timetable's run-time state (R56, R60, R67 to R73). -/
structure Timetable where
  swap : SwapSt := {}
  /-- Credits left this frame, by cell-entry index of the active bank (R56). -/
  credits : KV Nat := []
  /-- Width changes that are pending. -/
  changes : List WidthChange := []
  /-- The revision in REVISING becomes active at this frame. -/
  reviseAt : Option Nat := none
  /-- Entries removed by the running revision. -/
  removed : List Nat := []
  /-- Working width a position had when it was last UP since the last INIT (R51). -/
  lastWidth : KV Nat := []
  deriving DecidableEq, Repr

/-! ## Ports -/

/-- Link state beside the port registers (R91 to R104). Index 0-159 on the sled, 160 + k on the chiplet. -/
structure PortSt where
  failed : Nat := 0
  retryAt : Option Nat := none
  far : Option Identity := none
  /-- MAINTENANCE is due in place of step 7, or holds only because of FORCE_MAINT (R555). -/
  forced : Bool := false
  settled : Bool := false
  firstTry : Bool := false
  /-- Beacons are answered until this frame (R528). -/
  beaconUntil : Nat := 0
  heard : Option Identity := none
  peerHeard : Option Identity := none
  /-- Far end's errors of the last RX_REPORT, λ0 first. -/
  farErrors : List Nat := []
  hbSeq : Nat := 0
  /-- Link management cells and heartbeats sent in the current frame (R98, R457). -/
  mgmtSent : Nat := 0
  /-- FW_OVERRIDE as the running training found it (R97). -/
  fwOver : Bool := false
  /-- Wavelengths whose ring could not lock in the running training (R75). -/
  noLock : Nat := 0
  /-- OVER_RUN of the working wavelengths before the interval last evaluated (R101). -/
  prevRun : KV Nat := []
  /-- FORCE_MAINT takes effect, or ends, at the next frame boundary (R555). -/
  dueMaint : Bool := false
  duePlace : Bool := false
  /-- The link frame count m (R78). -/
  linkFrame : Nat := 0
  /-- The far end's ARRIVAL as last extended to 16 bits (R83). -/
  arrivalExt : Int := 0
  /-- Cells that wait for a slot of the port: those of the chiplet's end-point, and what an alignment holds (R79, R84). -/
  sendQ : List Cell := []
  deriving DecidableEq, Repr

/-! ## Switch core -/

/-- A cell in an input pool (R112): its entry and output positions and its admission FCLK, counted over frames. -/
structure Queued where
  cell : Cell := {}
  outPos : Nat := 0
  /-- Steered intermediate, when the cell is steered (R110). -/
  steer : Option Nat := none
  at_ : Nat := 0
  deriving DecidableEq, Repr

/-- A cell at an intermediate, waiting for its output. -/
structure MidCell where
  cell : Cell := {}
  outPos : Nat := 0
  at_ : Nat := 0
  deriving DecidableEq, Repr

/-- A multicast store (R116): the cell and its 160-bit copy map. -/
structure MStore where
  cell : Cell := {}
  copies : Nat := 0
  at_ : Nat := 0
  deriving DecidableEq, Repr

/-- An output item (R118, R122): a single cell, or a combining entry. An entry's data and mask are what merging its
originals in order gives. -/
structure OutItem where
  id : Nat := 0
  entry : Bool := false
  isOpen : Bool := false
  /-- Originals, oldest first; one for a single cell. -/
  cells : List Cell := []
  /-- Originals of a handed entry that R178 found to be duplicates: answered, not performed. -/
  dups : List Cell := []
  at_ : Nat := 0
  deriving DecidableEq, Repr

/-- The switch core's buffers (R106). Keys are positions, or intermediates. -/
structure Switch where
  inG : KV (List Queued) := []
  inCtl : KV (List Queued) := []
  inBe : KV (List Queued) := []
  ctlSent : KV Nat := []
  beSent : KV Nat := []
  midG : KV (List MidCell) := []
  midBe : KV (List MidCell) := []
  mcG : KV (List MStore) := []
  mcBe : KV (List MStore) := []
  outG : KV (List OutItem) := []
  outBe : KV (List OutItem) := []
  /-- Items handed to the hub end-point and not yet performed, by hub (R125). -/
  handed : KV (List OutItem) := []
  nextItem : Nat := 0
  /-- Cell slots of the current frame that carried a cell, as a map of FCLK, by output (optical ports by `linkKey`, hub
  outputs by position) and by input position (R84, R111). -/
  usedOut : KV Nat := []
  usedIn : KV Nat := []
  /-- Answers of the sled's input stages (R130, R131) that wait for room in an output queue, by position. -/
  answers : KV (List Cell) := []
  /-- Cells of the control processor and the Tollgate that wait to enter the core at 128 + s, oldest first, and whether the
  last best-effort cell taken there was the Tollgate's (R17). -/
  feed : List Cell := []
  feedTg : Bool := false
  deriving DecidableEq, Repr

/-! ## Routing and Tollgate -/

/-- A plan port record (R141). -/
structure PlanRec where
  expect : Nat := 0xFF
  rack : Nat := 0
  plane : Nat := 0
  farPort : Nat := 0
  epId : Nat := 0x3FF
  deriving DecidableEq, Repr

/-- The plan and the live routing state (R135 to R147). -/
structure Signpost where
  swap : SwapSt := {}
  topology : Nat := 0
  dims : Nat := 0
  sizeX : Nat := 0
  sizeY : Nat := 0
  sizeZ : Nat := 0
  /-- Plan records by port index; none: the default plan. -/
  plan : Option (KV PlanRec) := none
  /-- Ports whose current difference is accepted (R146). -/
  accepted : List Nat := []
  /-- Adopted mesh positions: 128 + q reached at the port of the value (R146, R147). -/
  adopted : KV Nat := []
  /-- Live substitution: reach position of mesh position 128 + q; none: no position (R147). -/
  subst : KV (Option Nat) := []
  /-- The inputs of the substitution changed; it is recomputed at the next boundary. -/
  substDue : Bool := false
  /-- Something that R140 counts took effect since the last boundary. -/
  epochDue : Bool := false
  /-- The frame at whose boundary the epoch last rose (R140). -/
  epochAt : Option Nat := none
  /-- A difference arose in SERVICE (R145). -/
  newDiff : Bool := false
  /-- The set of differing ports and outcomes, as last counted by DIFF_GEN. -/
  diffs : KV Nat := []
  /-- PLAN_ACCEPT in PLAN_CHECK moves the sled at the next boundary. -/
  acceptDue : Bool := false
  departMarks : List Nat := []
  /-- Consecutive frames without a position for sled q (R465). -/
  noPath : KV Nat := []
  /-- The frame DEPART of the latest LEAVING heartbeat of sled q. -/
  departAt : KV Nat := []
  deriving DecidableEq, Repr

/-- An open batch (R157). -/
structure Batch where
  id : Nat := 0
  /-- 1 WRITE, 2 ATOMIC, 3 READ batch; 4 a SINGLE. -/
  kind : Nat := 0
  rack : Nat := 0
  space : Nat := 0
  epId : Nat := 0
  page : Nat := 0
  ctx : Nat := 0
  opmod : Nat := 0
  subtype : Nat := 0
  openedAt : Nat := 0
  /-- Line data and byte masks by line of the page; lines requested by a read batch. -/
  data : KV (BitVec 512) := []
  masks : KV Nat := []
  lines : Nat := 0
  originals : List Cell := []
  /-- Frames after which it closes: GATHER_FRAMES as it opened. -/
  gather : Nat := 2
  /-- It is to close as soon as a buffer can be had (R154, R157). -/
  closing : Bool := false
  deriving DecidableEq, Repr

/-- A transfer this Tollgate holds (R151): `key` is its place in the buffers. -/
structure HeldTransfer where
  key : Nat := 0
  t : Transfer := {}
  since : Nat := 0
  /-- DETOUR_MAX and DETOUR_WAIT as it was formed here or arrived. -/
  detourMax : Nat := 2
  detourWait : Nat := 1
  /-- A SINGLE that waits for earlier batches (R158). -/
  blocked : Bool := false
  deriving DecidableEq, Repr

/-- A transfer this Tollgate formed and still answers for (R162). -/
structure Origin where
  tid : Nat := 0
  t : Transfer := {}
  originals : List Cell := []
  firstSent : Option Nat := none
  sends : Nat := 0
  /-- A SINGLE waits for these earlier transfers of its page and context (R158). -/
  waitsFor : List Nat := []
  released : Bool := true
  detourMax : Nat := 2
  detourWait : Nat := 1
  deriving DecidableEq, Repr

/-- A transfer the far side performs (R160). -/
structure FarJob where
  key : Nat := 0
  t : Transfer := {}
  /-- The cells issued and not answered. -/
  waiting : List Cell := []
  status : Nat := 0
  data : List (Nat × BitVec 512) := []
  deriving DecidableEq, Repr

/-- A record of a performed transfer (R161). -/
structure FarRecord where
  srcRack : Nat := 0
  tid : Nat := 0
  answer : Transfer := {}
  at_ : Nat := 0
  deriving DecidableEq, Repr

/-- The Tollgate (R149 to R162). -/
structure Tollgate where
  batches : List Batch := []
  held : List HeldTransfer := []
  origins : List Origin := []
  jobs : List FarJob := []
  records : List FarRecord := []
  nextTid : Nat := 0
  nextKey : Nat := 0
  /-- Next SEQ of the cells the far side issues, by destination * 16 + sequence plane (R176). -/
  seqs : KV Nat := []
  /-- Uplinks whose transmit side is sending a train. -/
  busy : List Nat := []
  /-- SEQ of the next train (R159). -/
  trainSeq : Nat := 0
  /-- GATHER_FRAMES, DETOUR_MAX and DETOUR_WAIT in force: those of TG_CTL at the last tick. -/
  gather : Nat := 2
  detourMax : Nat := 2
  detourWait : Nat := 1
  deriving DecidableEq, Repr

/-! ## End-points -/

/-- A sequence window of a target (R178): highest accepted SEQ, map of accepted values, last arrival. -/
structure SeqWin where
  high : Nat := 0
  /-- Bit i = 1: SEQ high - i was accepted. -/
  seen : Nat := 0
  last : Nat := 0
  deriving DecidableEq, Repr

/-- An outstanding-request entry: one cell until it is answered or lost (R177). -/
structure Outst where
  key : Nat := 0
  req : Nat := 0
  cell : Cell := {}
  /-- Destination, sequence plane and the plane the cell travels on (R175). -/
  seqPlane : Nat := 0
  plane : Nat := 0
  /-- Transmit frame F; none while it is held (R176, R208, R186). -/
  sent : Option Nat := none
  /-- Frame of the latest transmission. -/
  lastSent : Nat := 0
  retries : Nat := 0
  interRack : Bool := false
  /-- A release held under R208. -/
  held : Bool := false
  /-- It found its sequence window or the table full: its engine stalls (R176). -/
  stall : Bool := false
  /-- A retransmission is due that has not gone yet: the frame's CELLS are used, or R176 holds it (R186). -/
  again : Bool := false
  /-- Without a credit it goes best-effort at once (R312). -/
  orBe : Bool := false
  deriving DecidableEq, Repr

/-- What a completed request does with its status and data. -/
inductive Dest where
  | none_
  /-- Scalar register of core c, context x (R345). -/
  | sreg (core ctx reg : Nat)
  /-- DMA transfer of a core: transfer and piece offset in scratch. -/
  | dma (core ctx xfer off : Nat)
  /-- COMPLETE to a chiplet requester (R534). -/
  | complete (rq tag : Nat)
  /-- A piece of a command of the control processor (R416): owner, tag, offset. -/
  | cmd (owner tag off : Nat)
  /-- A piece of an RDMA operation: queue pair, PSN, offset. -/
  | rdma (qp psn off : Nat)
  /-- A mirror WRITE of a hub: window and page (R312). -/
  | mirror (hub window page : Nat)
  /-- A recovery READ of a broadcast member: slot, chunk, and the offset of the line at home (R259). -/
  | bcast (slot chunk off : Nat)
  deriving DecidableEq, Repr

/-- A request in progress (R164). -/
structure Request where
  id : Nat := 0
  r : MemReq := {}
  ga : Nat := 0
  cells : Nat := 0
  answered : Nat := 0
  status : Nat := 0
  /-- OFFSET of its first cell, and the lines returned, by line of that OFFSET. -/
  base : Nat := 0
  data : KV (BitVec 512) := []
  dest : Dest := .none_
  core : Nat := 0
  isRelease : Bool := false
  isAcquire : Bool := false
  cacheable : Bool := false
  /-- Lines of a fill in flight that are not to be entered, counted from its first (R192, R193, R194). -/
  noFill : List Nat := []
  /-- It goes to the hub's own memory (R326). -/
  direct : Bool := false
  /-- A release waits for these earlier requests (R208); one of them was lost. -/
  covered : List Nat := []
  lostCov : Bool := false
  at_ : Nat := 0
  deriving DecidableEq, Repr

/-- A fence, a milestone add or a token signal that waits (R217, R361, R221): `kind` 0 FENCE, 1 MSADD, 2 TSIG. -/
structure Fence where
  id : Nat := 0
  observer : Nat := 0
  core : Nat := 0
  ctx : Nat := 0
  kind : Nat := 0
  scope : Nat := 0
  keep : Bool := false
  /-- Requests and DMA transfers it waits for; one of them was lost. -/
  covers : List Nat := []
  xfers : List Nat := []
  lostCov : Bool := false
  /-- Milestone of an MSADD, token of a TSIG. -/
  ms : Nat := 0
  count : Nat := 0
  tag : Nat := 0
  deriving DecidableEq, Repr

/-- A pending milestone wait (R189). -/
structure MsWait where
  id : Nat := 0
  observer : Nat := 0
  core : Nat := 0
  ctx : Nat := 0
  ms : Nat := 0
  target : Nat := 0
  /-- Frame of issue and deadline; 0 means none. -/
  issued : Nat := 0
  deadline : Nat := 0
  scope : Nat := 0
  keep : Bool := false
  tag : Nat := 0
  deriving DecidableEq, Repr

/-- A reply record of an atomic (R180). -/
structure ReplyRec where
  src : Nat := 0
  plane : Nat := 0
  seq : Nat := 0
  old : Nat := 0
  width : Nat := 0
  fetch : Bool := false
  at_ : Nat := 0
  deriving DecidableEq, Repr

/-- A line of the remote-read cache (R190); the list that holds it is in order of use, latest first. -/
structure CacheLine where
  ctx : Nat := 0
  rack : Nat := 0
  home : Nat := 0
  line : Nat := 0
  data : BitVec 512 := 0
  deriving DecidableEq, Repr

/-- A member request of a collective (R245, R364). -/
structure Member where
  slot : Nat := 0
  group : Nat := 0
  iseq : Nat := 0
  /-- Descriptor bytes 10-23. -/
  desc : List Byte := []
  region : Nat := 0
  sourceBase : Nat := 0
  deadline : Nat := 0
  ctx : Nat := 0
  g : Bool := false
  ms : Option Nat := none
  observer : Nat := 0
  core : Nat := 0
  tag : Nat := 0
  /-- Chunks a broadcast member holds. -/
  have_ : List Nat := []
  lastBcast : Nat := 0
  /-- Notices by plane: status. -/
  notices : KV Nat := []
  ownStatus : Nat := 0
  doneSent : Bool := false
  /-- Chunks in recovery and the reads each still waits for. -/
  recovering : KV Nat := []
  /-- Next chunk to contribute; a member that aborts contributes no more. -/
  next : Nat := 0
  aborted : Bool := false
  /-- Frame of the request. -/
  at_ : Nat := 0
  deriving DecidableEq, Repr

/-- A root armed at an end-point (R237, R255, R258). -/
structure RootArm where
  slot : Nat := 0
  desc : List Byte := []
  iseq : Nat := 0
  group : Nat := 0
  ctx : Nat := 0
  op : Nat := 0
  inType : Nat := 0
  outType : Nat := 0
  round : Nat := 0
  root : Nat := 0
  planeHub : Bool := false
  elements : Nat := 0
  resultBase : Nat := 0
  resBase : Nat := 0
  rootMs : Nat := 0
  gateMs : Nat := 0
  gateBase : Nat := 0
  gateChunks : Nat := 0
  deadline : Nat := 0
  /-- Local indices of the chunks written beyond the prefix; prefix length P (R255). -/
  written : List Nat := []
  prefix_ : Nat := 0
  /-- Next chunk to broadcast (R258); next residual part to send (R256). -/
  next : Nat := 0
  resNext : Nat := 0
  notices : KV Nat := []
  ownStatus : Nat := 0
  observer : Nat := 0
  tag : Nat := 0
  deriving DecidableEq, Repr

/-- One end-point instance beside its registers (R163). -/
structure Endpoint where
  ort : List Outst := []
  reqs : List Request := []
  fences : List Fence := []
  waits : List MsWait := []
  nextKey : Nat := 0
  /-- Next SEQ by destination * 16 + sequence plane (R176). -/
  seqs : KV Nat := []
  /-- Sequence windows by source * 16 + port (R178). -/
  wins : KV SeqWin := []
  replies : List ReplyRec := []
  cache : List CacheLine := []
  /-- Guaranteed cells sent this frame by EP_RESV entry (R186). -/
  resvUsed : KV Nat := []
  /-- No request cell before this frame (R181). -/
  quietUntil : Nat := 1024
  /-- LOST_PENDING (R219) by observer * 64 + context at a hub, whose observers are 4 * core + engine and save the bit
  with their context (R323); by observer * 64 elsewhere. -/
  lost : List Nat := []
  /-- PATTERN cells to be returned that wait for a credit, with the plane they came on (R525). -/
  echoes : List (Nat × Cell) := []
  members : List Member := []
  roots : List RootArm := []
  deriving DecidableEq, Repr

/-! ## Reduction complex -/

/-- A cell of the early-arrival area (R250). -/
structure Early where
  cell : Cell := {}
  at_ : Nat := 0
  deriving DecidableEq, Repr

/-- An armed or closing instance (R237, R239). -/
structure Inst where
  slot : Nat := 0
  ctx : Nat := 0
  group : Nat := 0
  iseq : Nat := 0
  desc : List Byte := []
  hash : Nat := 0
  op : Nat := 0
  inType : Nat := 0
  outType : Nat := 0
  round : Nat := 0
  root : Nat := 0
  planeHub : Bool := false
  elements : Nat := 0
  spillBase : Nat := 0
  spillHub : Nat := 0
  resultBase : Nat := 0
  resBase : Nat := 0
  deadline : Nat := 0
  joined : List Nat := []
  doneMembers : List Nat := []
  /-- Lateness frames by member id (R264). -/
  lastFrame : KV Nat := []
  /-- Local chunks contributed, by member id. -/
  contributed : KV Nat := []
  written : Nat := 0
  /-- The end condition found and its frame; the frame CLOSING began. -/
  endStatus : Option Nat := none
  endAt : Nat := 0
  closedAt : Nat := 0
  deriving DecidableEq, Repr

/-- A reduction entry (R251). -/
structure RdEntry where
  slot : Nat := 0
  chunk : Nat := 0
  /-- Accumulators in element order, fp32 bits or int64 bits; none before the first element reaches one (R274). -/
  acc : List (Option Nat) := []
  members : Nat := 0
  opened : Nat := 0
  residuals : List Nat := []
  deriving DecidableEq, Repr

/-- A RESULT or residual WRITE the reduction complex sends (R254, R256). -/
structure RdResult where
  key : Nat := 0
  slot : Nat := 0
  chunk : Nat := 0
  /-- Root it goes to, and the sequence plane it is numbered on. -/
  root : Nat := 0
  seqPlane : Nat := 0
  cell : Cell := {}
  /-- The chunk was spilled: its RESULT travels best-effort (R253). -/
  spilled : Bool := false
  sent : Option Nat := none
  lastSent : Nat := 0
  /-- A residual WRITE that a final NACK refused: it is never acknowledged, and its RESULT is not released (R256). -/
  refused : Bool := false
  deriving DecidableEq, Repr

/-- An end notice to one participant (R262). -/
structure Notice where
  slot : Nat := 0
  dst : Nat := 0
  seq : Nat := 0
  ctx : Nat := 0
  payload : BitVec 512 := 0
  first : Nat := 0
  sends : Nat := 0
  deriving DecidableEq, Repr

/-- The reduction complex beside its registers. -/
structure Reduction where
  swap : SwapSt := {}
  early : List Early := []
  insts : KV Inst := []
  entries : List RdEntry := []
  /-- Member maps of spilled parts kept on chip: slot * 2^32 + chunk. -/
  spilled : KV Nat := []
  /-- Residual parts already added to a chunk whose entry was spilled. -/
  spilledRes : KV (List Nat) := []
  results : List RdResult := []
  wins : KV SeqWin := []
  nextKey : Nat := 0
  /-- Pending map ACKs by source: base, bit map and context, oldest first (R248). -/
  acks : KV (List (Nat × Nat × Nat)) := []
  /-- Generator states x_m (R284). -/
  rng : KV W64 := []
  notices : List Notice := []
  deriving DecidableEq, Repr

/-! ## Hubs -/

/-- A sync that waits (R313). -/
structure Sync where
  ms : Nat := 0
  windows : Nat := 0
  /-- Pages still to be sent, and pages sent and not yet acknowledged: window * 2^32 + page. -/
  pages : List Nat := []
  out : List Nat := []
  status : Nat := 0
  deriving DecidableEq, Repr

/-- An uncorrectable event of a channel (R306). -/
structure ErrEvent where
  chan : Nat := 0
  row : Nat := 0
  at_ : Nat := 0
  deriving DecidableEq, Repr

/-- An access that waits in the controller for a held package (R305). -/
inductive HubWait where
  | direct (req : Nat)
  | cell (c : Cell)
  deriving DecidableEq, Repr

/-- A hub beside its registers and memory. -/
structure Hub where
  /-- Lines (offset / 64) with POISON set (R302). -/
  poison : List Nat := []
  /-- Remaining frames below each package's band limit (R304) and bands, by package. -/
  bands : KV Nat := []
  coolFor : KV Nat := []
  held : List Nat := []
  /-- Accesses that wait for a held package, oldest first. -/
  waiting : List HubWait := []
  events : List ErrEvent := []
  /-- Corrected errors of the last hour: channel, frame. -/
  corr : List (Nat × Nat) := []
  /-- D of the running retirement; GO was written. -/
  retireAt : Nat := 0
  go : Bool := false
  newSize : Nat := 0
  /-- Bytes the rebuild may still copy: RATE grants them frame by frame (R308). -/
  copyCredit : Nat := 0
  /-- Windows in use when the populated size fell: their pages below it are still sent (R310). -/
  cutWins : List Nat := []
  /-- Next line of patrol scrub: channel and DRAM line. -/
  scrub : Nat := 0
  syncs : List Sync := []
  mirrorScan : Nat := 0
  /-- Pages sent and not yet acknowledged: window * 2^32 + page, WRITEs left. -/
  mirrorOut : KV Nat := []
  /-- Consecutive intervals above the margin limit by lane (R288). -/
  laneOver : KV Nat := []
  ecc : Nat := 0
  deriving DecidableEq, Repr

/-! ## Cores -/

/-- State of one engine of a context (R315, R342, R345). -/
structure Engine where
  pc : Nat := 0
  /-- Stopped by END, a fault, or no ENTRY. -/
  stopped : Bool := true
  /-- STEP reached in the current quantum (R337, R362). -/
  stepEnd : Bool := false
  x : List W64 := [0, 0, 0, 0]
  lastStatus : Nat := 0
  /-- What the engine waits for: 0 nothing, 1 acquire read or atomic, 2 milestone wait, 3 fence, 4 token wait,
  5 a release, which holds its later accesses (R209). -/
  wait : Nat := 0
  waitToken : Nat := 0
  waitTarget : Nat := 0
  /-- The transfer a seventeenth DMA instruction waits for (R352). -/
  oldest : Option Nat := none
  /-- Groups done of the multiply at pc, which the end of a quantum left unfinished (R336). -/
  mmaAt : Nat := 0
  /-- Stochastic instructions since the kernel start (R339). -/
  n : Nat := 0
  deriving DecidableEq, Repr

/-- Scalar run-ahead (R227): the state to return to, the read set and the length. -/
structure RunAhead where
  s : List W64 := []
  pc : Nat := 0
  sectors : List Nat := []
  lines : List (Nat × Nat × Nat) := []
  len : Nat := 0
  squash : Bool := false
  /-- It was squashed as a quantum ended: nothing runs ahead again before the acquire has completed (R228). -/
  cutOff : Bool := false
  deriving DecidableEq, Repr

/-- A register set of a context on a core (R333): scalar, vector and engine state and the tiles. -/
structure RegSet where
  ctx : Nat := 0
  s : List W64 := List.replicate 32 0
  /-- Scalar registers whose value a request still owes (R343). -/
  pendingRegs : List Nat := []
  v : KV (BitVec 2048) := []
  /-- Accumulator elements: tile * 4096 + 64 * row + column, fp32 bits. -/
  acc : KV Nat := []
  tokens : KV Nat := []
  engines : List Engine := [{}, {}, {}, {}]
  seed : W64 := 0
  ra : Option RunAhead := none
  deriving DecidableEq, Repr

/-- A DMA transfer in flight (R351). -/
structure Xfer where
  id : Nat := 0
  ctx : Nat := 0
  op : Nat := 0
  scratch : Nat := 0
  addr : Nat := 0
  len : Nat := 0
  g : Bool := false
  ms : Option Nat := none
  subtype : Nat := 0
  /-- What the translation of its range gave at issue (R350): the global address of its first byte, CACHE and WINDOW. -/
  ga : Nat := 0
  cacheOk : Bool := false
  window : Nat := 0
  /-- Bytes issued so far, pieces outstanding. -/
  issued : Nat := 0
  open_ : Nat := 0
  status : Nat := 0
  /-- Its unissued pieces were abandoned (R367). -/
  cut : Bool := false
  deriving DecidableEq, Repr

/-- A compute core beside its registers. -/
structure Core where
  run : RegSet := {}
  standby : Option RegSet := none
  /-- Save areas by context (R323). -/
  saved : KV RegSet := []
  /-- Scratch bytes at physical offsets 0 to 4 MiB - 1. -/
  scratch : Memory := []
  /-- Instruction store words. -/
  code : KV W64 := []
  xfers : List Xfer := []
  nextXfer : Nat := 0
  /-- Last context that ran an opportunistic frame (R332). -/
  lastOpp : Nat := 0
  /-- Stops that wait for the first frame not yet fixed (R385, R387): context, way (2 STOPPED, 3 SCRUBBED), and 1 once
  QUANTUM_SCHEDULE has fixed a frame without the context. -/
  stops : List (Nat × Nat × Nat) := []
  /-- Contexts whose kernel was started and issues nothing before the first frame not fixed at its start (R383): 1 once
  that frame is the next. -/
  fresh : KV Nat := []
  /-- A reset of the core waits (R442): 1 until a frame is fixed without its kernels, 2 once that frame is the next. -/
  resetDue : Nat := 0
  /-- Ring requests served by context (R389), optimizer batches done by context (R390). -/
  ringNext : KV Nat := []
  batch : KV Nat := []
  /-- Sectors that engines asked their banks for since BANK_WAIT was last read (R322). -/
  asked : Nat := 0
  deriving DecidableEq, Repr

/-- A kernel load (R377): the cores that hold it, its records and its image's entries. -/
structure Load where
  id : Nat := 0
  ctx : Nat := 0
  hub : Nat := 0
  cores : List Nat := []
  std : Nat := 0
  opportunistic : Bool := false
  accLive : Bool := false
  entries : List Nat := []
  params : List Byte := []
  trans : List Nat := []
  deriving DecidableEq, Repr

/-- A KERNEL_START that has not completed (R384): the way each core ended. -/
structure Start where
  owner : Nat := 0
  tag : Nat := 0
  ctx : Nat := 0
  cores : List Nat := []
  ended : KV Nat := []
  frames : Nat := 0
  overruns : Nat := 0
  fault : Option (Nat × Nat × Nat × Nat) := none
  deriving DecidableEq, Repr

/-- What CONTEXT_CREATE recorded of a context beside CP_CTX (R369 to R371). -/
structure CtxRec where
  msBase : Nat := 0
  msCount : Nat := 0
  records : List (Nat × Nat × Nat) := []
  /-- Scrub: the step reached and the command to complete (R387). -/
  scrub : Option (Nat × Nat × Nat) := none
  deriving DecidableEq, Repr

/-- Kernels and contexts. -/
structure Kernels where
  loads : List Load := []
  starts : List Start := []
  ctxs : KV CtxRec := []
  nextLoad : Nat := 0
  /-- UNLOADs that wait: context, core, owner, tag. -/
  unloads : List (Nat × Nat × Nat × Nat) := []
  deriving DecidableEq, Repr

/-! ## Command interface -/

/-- A live tag with its command and result (R406 to R409). -/
structure TagSt where
  owner : Nat := 0
  tag : Nat := 0
  seqn : Nat := 0
  opcode : Nat := 0
  ctx : Nat := 0
  notify : Bool := false
  done : Bool := false
  status : Nat := 0
  progress : Nat := 0
  result : List Byte := []
  /-- The final result was delivered at least once. -/
  delivered : Bool := false
  /-- The tag is held by the security island (R498). -/
  island : Bool := false
  /-- The frame the command names, when it waits for one. -/
  n : Nat := 0
  route : Route := {}
  deriving DecidableEq, Repr

/-- A command being collected from fragments or pieces (R403, R418). -/
structure PartialCmd where
  owner : Nat := 0
  tag : Nat := 0
  seqn : Nat := 0
  hdr : List Byte := []
  total : Nat := 0
  frags : KV (List Byte) := []
  /-- CONTEXTs of the cells collected (R419). -/
  ctxs : List Nat := []
  /-- Frame of the last fragment (R403), of the first piece (R418). -/
  last : Nat := 0
  deriving DecidableEq, Repr

/-- A memory command or RDMA operation in pieces (R416, R423). -/
structure MemCmd where
  owner : Nat := 0
  tag : Nat := 0
  write : Bool := false
  ctx : Nat := 0
  hub : Nat := 0
  /-- Request address, or offset within the hub for context 0. -/
  addr : Nat := 0
  size : Nat := 0
  /-- Bytes whose pieces have been issued; pieces issued and not answered. -/
  issued : Nat := 0
  left : Nat := 0
  status : Nat := 0
  /-- Bytes to be written. -/
  bytes : List Byte := []
  /-- Bytes read, by offset in the range. -/
  data : KV Byte := []
  /-- For RDMA: queue pair + 1 and PSN; 0 for a command. `last`: its end is acknowledged. -/
  qp : Nat := 0
  psn : Nat := 0
  last : Bool := true
  /-- Lowest offset that met poison or was lost. -/
  cut : Option Nat := none
  deriving DecidableEq, Repr

/-- The host side (chapter 14). -/
structure HostIf where
  tags : List TagSt := []
  partials : List PartialCmd := []
  inband : List PartialCmd := []
  memCmds : List MemCmd := []
  /-- Calendar time in ms is HE_TIME; frame of the last selected PTP master; last valid offset (R425). -/
  lastMaster : Option Nat := none
  utcOffset : Nat := 37
  /-- Milliseconds calendar time still has to slew, and the first frame of the next step of 1 ms (R426). -/
  slewLeft : Int := 0
  slewAt : Nat := 0
  /-- Calendar time becomes valid, or steps, at the next frame boundary (R426, R510). -/
  timeDue : Option Nat := none
  /-- Sub-millisecond frames of calendar time. -/
  msFrac : Nat := 0
  lldpChassis : KV Nat := []
  lastLldp : Nat := 0
  /-- Frame of the last command accepted from a manager entry (R470). -/
  lastManager : Nat := 0
  /-- RDMA writes in progress by queue pair: next virtual address and bytes still to come. -/
  writes : KV (Nat × Nat) := []
  deriving DecidableEq, Repr

/-! ## Start-up, resets, firmware -/

/-- A unit in reset (R441). -/
structure UnitReset where
  unit : Nat := 0
  index : Nat := 0
  relayout : Bool := false
  owner : Nat := 0
  tag : Nat := 0
  /-- A command waits for it; false for an automatic reset (R454). -/
  byCmd : Bool := false
  since : Nat := 0
  /-- CORE and CONTROL resets begin later (R442, R445). -/
  begun : Bool := true
  deriving DecidableEq, Repr

/-- A firmware slot (R446 to R448). -/
structure FwSlot where
  total : Nat := 0
  erased : Bool := false
  bytes : KV Byte := []
  major : Nat := 0
  minor : Nat := 0
  hash : Nat := 0
  comps : List Nat := []
  deriving DecidableEq, Repr

/-- A drain in progress (R439, R467): first frame G, end frame, LEAVE cause. -/
structure Drain where
  g : Nat := 0
  endAt : Nat := 0
  cause : Nat := 0
  owner : Nat := 0
  tag : Nat := 0
  deriving DecidableEq, Repr

/-- An activation that is pending (R449): MODE 1 FULL, frame of acceptance, staged slot. -/
structure Activation where
  full : Bool := false
  at_ : Nat := 0
  slot : Nat := 0
  begun : Bool := false
  deriving DecidableEq, Repr

/-- Sled states beside CP_STATE (R427 to R452). -/
structure Boot where
  /-- Power is on (the state is not OFF). -/
  drain : Option Drain := none
  resets : List UnitReset := []
  act : Option Activation := none
  slotA : FwSlot := {}
  slotB : FwSlot := {}
  railFails : Nat := 0
  straps : Straps := {}
  latched : Straps := {}
  /-- 0.1 V of the busbar; the frame of the last loss (R467), DRAIN entry is due at the next boundary. -/
  lossAt : Option Nat := none
  /-- A state change is due at the next frame boundary (R428). -/
  stateDue : Option Nat := none
  inputOk : Bool := true
  presentLow : Bool := true
  bootAt : Nat := 0
  /-- Rails: core-switch-optical group, DRAM and hub group. -/
  railsCore : Bool := true
  railsDram : Bool := true
  rebootDue : Bool := false
  deriving DecidableEq, Repr

/-! ## Liveness, power, security, observation -/

/-- Latest heartbeat of a sled heard on a mesh port, or of a plane heard by the chiplet (R457). -/
structure Beat where
  /-- SRC of the heartbeat. -/
  src : Nat := 0
  at_ : Nat := 0
  state : Nat := 0
  leaving : Bool := false
  cause : Nat := 0
  depart : Nat := 0
  links : Nat := 0
  hubUp : Nat := 0
  leavingMap : Nat := 0
  dark : Nat := 0
  epoch : Nat := 0
  deriving DecidableEq, Repr

/-- Vigil and heartbeats (R456 to R465). -/
structure Vigil where
  /-- Latest heartbeats by port index (160 + k at the chiplet). -/
  beats : KV Beat := []
  /-- Subjects that sent a heartbeat in their current window, and in their previous one. -/
  heardNow : List Nat := []
  heardPrev : List Nat := []
  /-- The map last announced, for CHANGE heartbeats: LEAVE, LINKS, HUB_UP, LEAVING_MAP, DARK. -/
  announced : List Nat := [0, 0, 0, 0, 0]
  changedAt : Option Nat := none
  /-- Ports that still owe the CHANGE heartbeat. -/
  owes : List Nat := []
  sentNow : List Nat := []
  /-- CONFIRM marks that change at the next boundary (R463, R465): id and whether it is set. -/
  confirmDue : List (Nat × Bool) := []
  deriving DecidableEq, Repr

/-- Power and thermal manager beside its registers (chapter 17). -/
structure Power where
  /-- Boost budget in units of 0.1 µJ (R476). -/
  budget : Nat := 80000000000
  /-- Frames of the current episode. -/
  episode : Nat := 0
  /-- The ladder rose at the last boundary (R480). -/
  roseLast : Bool := false
  /-- Consecutive frames that let the ladder fall (R480). -/
  quiet : Nat := 0
  /-- Sensors in pressure (R487): 0 the switch die, 1 + i core die i, 17 + i hub die i, 33 + k optical case k, 53 + j
  regulator j. -/
  hot : List Nat := []
  /-- Some sensor lies at or above its release temperature. -/
  warm : Bool := false
  /-- Every die lies below 85 °C (R440, R469). -/
  cool : Bool := true
  /-- Consecutive samples with flow below 1.0 L/min (R468). -/
  lowFlow : Nat := 0
  /-- Band of the latest samples and how many in a row lay in it (R486); the band before an emergency. -/
  bandNext : Nat := 0
  bandRun : Nat := 0
  bandBefore : Nat := 0
  /-- Consecutive frames with flow at or above 2.0 L/min and every die below 85 °C (R469). -/
  goodFor : Nat := 0
  /-- A coolant emergency was declared and its flags are due at the next boundary (R468). -/
  emergDue : Bool := false
  inputLoss : Bool := false
  /-- A die reached 95 °C (R468): HALT. -/
  haltTemp : Bool := false
  /-- POWER_POLICY accepted and due at the next boundary: LIMIT, BOOST_EN, LADDER_MIN. -/
  policyDue : Option (Nat × Bool × Nat) := none
  /-- Deepest ladder position of the current 4,096-frame period, and the boundary at which it began (R490). -/
  periodMax : Nat := 0
  periodAt : Nat := 0
  /-- The position whose settings are in force (R481). -/
  applied : Nat := 0
  deriving DecidableEq, Repr

/-- An ATTEST in progress (R499). -/
structure Attest where
  owner : Nat := 0
  tag : Nat := 0
  nonce : Nat := 0
  piece : Nat := 0
  deriving DecidableEq, Repr

/-- The security island beside its registers (chapter 18). -/
structure Island where
  pendingAtt : List Attest := []
  /-- Evidence by nonce, newest first, with the frame it describes; 1,376 bytes until it is signed. -/
  held : List (Nat × Nat × List Byte) := []
  /-- Evidence for the board-management pair; the nonce of a GO whose evidence is not taken yet (R500). -/
  window : List Byte := []
  boardGo : Option Nat := none
  kernelLog : Nat := 0
  kernelCount : Nat := 0
  debugBoot : Nat := 0
  debugLastUtc : Nat := 0
  debugSince : Nat := 0
  /-- Table hashes in force and tables that changed, 0 timetable, 1 signpost, 2 group, 3 plan, 4 allow. -/
  hashes : KV Nat := []
  dirty : List Nat := []
  signatures : Nat := 0
  deriving DecidableEq, Repr

/-- An open or closed page of the Almanac (R509): counts and extremes by (record kind * 256 + body offset). -/
structure Page where
  period : Nat := 0
  frame : Nat := 0
  utc : Nat := 0
  short : Bool := false
  timeInvalid : Bool := true
  cause : Nat := 0
  endFrame : Nat := 0
  counts : KV Nat := []
  deriving DecidableEq, Repr

/-- The observation block (chapter 19). -/
structure Almanac where
  pages : List Page := [{ period := 0 }, { period := 1 }, { period := 2 }]
  /-- Closed pages that wait to be written, oldest first; the part and the tries of the next record. -/
  closing : List Page := []
  part : Nat := 0
  tries : Nat := 0
  /-- Flash: records by RSEQ as 256 bytes little-endian, and the locations of those in the circulating area. -/
  flash : KV Nat := []
  locs : KV Nat := []
  nextRseq : Nat := 0
  /-- Next record location of the circulating area, counted without wrapping (R514, R515). -/
  loc : Nat := 0
  /-- Snapshots by period, each ending at its frame; requests that wait for one: owner, tag, period, part (R517). -/
  snaps : KV Page := []
  snapWait : List (Nat × Nat × Nat × Nat) := []
  /-- Frame of a GO of TM_SNAP whose copy is pending (R519). -/
  snapDue : Option Nat := none
  lastEdge : Nat := 0
  deriving DecidableEq, Repr

/-- A wavelength of a running LINK_TEST (R522). -/
structure WlTest where
  port : Nat := 0
  wl : Nat := 0
  rx : Bool := false
  locked : Bool := false
  /-- The checker has locked at least once. -/
  ever : Bool := false
  losses : Nat := 0
  errors : Nat := 0
  bits : Nat := 0
  ended : Bool := false
  deriving DecidableEq, Repr

/-- A LINK_TEST (kind 0), WIRING_VERIFY (1) or CONNECTOR_INSPECT (2) that is scheduled or running; owner 160: CH_TEST of
the chiplet (R541). -/
structure LinkJob where
  owner : Nat := 0
  tag : Nat := 0
  kind : Nat := 0
  n : Nat := 0
  duration : Nat := 0
  /-- The pattern of a LINK_TEST. -/
  pattern : Pattern := .square 1
  /-- Port, wavelength mask, flags: bit 0 TX, bit 1 RX, bit 2 the port is down for the test, bit 3 it was UP (R529). -/
  records : List (Nat × Nat × Nat) := []
  started : Bool := false
  tests : List WlTest := []
  /-- The result of an inspection. -/
  result : List Byte := []
  deriving DecidableEq, Repr

/-- Pattern generators and checkers beside their registers (R523, R526). -/
structure Patterns where
  jobs : List LinkJob := []
  genSeq : KV Nat := []
  placed : KV Nat := []
  chkWins : KV SeqWin := []
  deriving DecidableEq, Repr

/-! ## Chiplet -/

/-- A line of the chiplet's line store (R536); the list that holds it is in order of use, latest first. -/
structure StoreLine where
  line : Nat := 0
  data : BitVec 512 := 0
  valid : Bool := false
  awaitDone : Nat := 0
  awaitData : Bool := false
  since : Nat := 0
  uncorr : Bool := false
  /-- Cells that wait for the line, with the port they arrived on; 16 for the accelerator's own requests. -/
  waiting : List (Nat × Cell) := []
  deriving DecidableEq, Repr

/-- The chiplet beside its registers and its end-point instance (chapter 20). -/
structure Chiplet where
  store : List StoreLine := []
  /-- Cells that wait for a line store slot. -/
  storeQueue : List (Nat × Cell) := []
  /-- Answers of the atomic unit to the chiplet's own requests (R537). -/
  selfAns : List Cell := []
  /-- Slots of collectives whose source read met UNCORR. -/
  badSrc : List Nat := []
  /-- Planes whose sleds have announced LEAVING (R459). -/
  leaving : List Nat := []
  /-- Planes whose LEAVING was heard in the current frame. -/
  leavingDue : List Nat := []
  /-- Held in reset for its temperature (R544). -/
  hold : Bool := false
  /-- UCIe modules left out until the next chiplet reset (R531). -/
  leftOut : List Nat := []
  testBuf : KV Byte := []
  /-- Replies of in-band commands being put together (R420). -/
  replies : List PartialCmd := []
  /-- RACK that the sled on port 0 reported (R540). -/
  rack : Nat := 0xFF
  /-- The plane whose tick it follows (R41), its timebase (its frame number, runs and slew) and lock state, and the master
  it reports in its markers. -/
  follow : Option Nat := none
  tb : Timebase := {}
  lock : Nat := 0
  masterPlane : Nat := 0
  relayed : Bool := false
  /-- The chiplet's own firmware major, as its identity block gives it (R94). -/
  fwMajor : Nat := 1
  deriving DecidableEq, Repr

/-! ## The whole -/

/-- Why a run can stop. -/
inductive Fault where
  /-- A command names a unit the spec says does not exist (a port, position, core, instance or register space out of
  range). Raised by no meaning today: such commands leave the state unchanged. Safe. -/
  | noSuchUnit (what : String)
  deriving DecidableEq, Repr

/-- Why a command is refused. -/
inductive Refusal where
  /-- The command has no meaning in the model yet. Raised only by exec's arms. Safe. -/
  | notModelled (mnemonic : String)
  deriving DecidableEq, Repr

/-- The state of the block. -/
structure State where
  tb : Timebase := {}
  regs : RegFile := []
  /-- Hub memory: hub * 2^44 + offset. -/
  mem : Memory := []
  tt : Timetable := {}
  ports : KV PortSt := []
  sw : Switch := {}
  sg : Signpost := {}
  tg : Tollgate := {}
  eps : KV Endpoint := []
  rd : Reduction := {}
  hubs : KV Hub := []
  cores : KV Core := []
  kern : Kernels := {}
  host : HostIf := {}
  boot : Boot := {}
  vigil : Vigil := {}
  power : Power := {}
  si : Island := {}
  al : Almanac := {}
  pat : Patterns := {}
  chip : Chiplet := {}
  /-- The model's own counter of free values (assumption 4). -/
  free : Nat := 0
  /-- What left the block, newest first (assumption 3). -/
  out : List Out := []
  /-- Commands that wait, first in, first out. -/
  pending : List Instr := []
  deriving DecidableEq, Repr

/-- The sled as it enters INIT after power-on (*Access codes*, R432: CP_STATE resets to 3): every register at its reset
value, memory zeroed, every queue empty. -/
def State.reset : State := {}

end Sys2Proof.Machine
end

