-- ==== Sys2Proof/Machine/Ops.lean ====
section
/-! DEFINITION. The named operations over registers, memory, time, alerts, outputs, free values and command tags. -/

namespace Sys2Proof.Machine

/-- The outcome of every meaning. -/
abbrev Res := Host.Outcome State Fault Refusal

/-! ## Status codes (R417) -/

namespace ST
def OK : Nat := 0x0000
def PENDING : Nat := 0x0001
def BAD_OPCODE : Nat := 0x0010
def BAD_PARAM : Nat := 0x0011
def REFUSED_FIT : Nat := 0x0020
def REFUSED_POWER : Nat := 0x0021
def TAG_BUSY : Nat := 0x0030
def BUSY : Nat := 0x0031
def MISMATCH : Nat := 0x0040
def LATE_MEMBER : Nat := 0x0041
def EARLY_DROPPED : Nat := 0x0042
def NOT_ARMED : Nat := 0x0043
def LOST : Nat := 0x0050
def FENCE_LOST : Nat := 0x0051
def POISON : Nat := 0x0060
def BACKOFF : Nat := 0x0061
def THERMAL : Nat := 0x0070
def DENIED : Nat := 0x0080
end ST

/-! ## Sled states (R427), port states (R91), lock states (R39) -/

namespace SS
def OFF : Nat := 0
def STANDBY : Nat := 1
def BOOT : Nat := 2
def INIT : Nat := 3
def DISCOVERY : Nat := 4
def PLAN_CHECK : Nat := 5
def SERVICE : Nat := 6
def DEGRADED : Nat := 7
def MAINTENANCE : Nat := 8
def DRAIN : Nat := 9
def HALT : Nat := 10
end SS

namespace PS
def DOWN : Nat := 0
def TRAINING : Nat := 1
def MAINTENANCE : Nat := 2
def QUARANTINE : Nat := 3
def MISWIRED : Nat := 4
def UP : Nat := 5
end PS

namespace LK
def FREE : Nat := 0
def ACQUIRE : Nat := 1
def LOCKED : Nat := 2
def HOLDOVER : Nat := 3
end LK

/-! ## Registers -/

/-- A register's reset value (*Access codes*). CP_LOCATION takes the latched straps (R20, R21, R22) and the port
tables the default of R23 for the latched plane. -/
def regReset (l : Straps) (addr : Nat) : W64 :=
  if addr = 0x8 then
    let p := l.slotId % 16
    BitVec.ofNat 64 (p + l.shelfId % 2 * 16 + l.rackId % 256 * 256 + (if l.plug then 65536 else 0)
      + (if l.plug ∧ l.shelfId % 2 = p / 8 then 0 else 131072) + (p ^^^ 8) * 1048576)
  else if 0x5100000 ≤ addr ∧ addr < 0x5300000 ∧ addr % 0x100000 < 0x2000 ∧ addr % 8 = 0 then
    let id := addr % 0x100000 / 8
    let p := l.slotId % 16
    let pos :=
      if id < 128 then id
      else if id < 384 then (if (id - 128) / 16 = p then 144 + (id - 128) % 16 else 128 + (id - 128) / 16)
      else if id < 400 then 128 + (id - 384)
      else if id < 416 then 128 + (id - 400)
      else 0
    if id < 416 then BitVec.ofNat 64 (pos + (if 384 ≤ id then 4096 else 0) + 8192) else 0#64
  else BitVec.ofNat 64 (resetValue (regFields addr))

/-- The stored value of a register. -/
def State.reg (s : State) (addr : Nat) : W64 := (kget s.regs addr).getD (regReset s.boot.latched addr)

/-- Stores a register's value, keeping the register file canonical. -/
def State.setReg (s : State) (addr : Nat) (v : W64) : State :=
  { s with regs := if v = regReset s.boot.latched addr then kdel s.regs addr else kset s.regs addr v }

/-- A field's value. -/
def State.fget (s : State) (f : Fld) : Nat := bitsOf (s.reg f.addr).toNat f.hi f.lo

/-- Stores a field's value, its low bits if it is too wide. -/
def State.fset (s : State) (f : Fld) (v : Nat) : State :=
  s.setReg f.addr (BitVec.ofNat 64 (splice (s.reg f.addr).toNat f.hi f.lo v))

/-- A one-bit field. -/
def State.fbit (s : State) (f : Fld) : Bool := s.fget f == 1

/-- Sets or clears a one-bit field. -/
def State.fsetb (s : State) (f : Fld) (v : Bool) : State := s.fset f (if v then 1 else 0)

/-- Adds to a field that saturates. -/
def State.fsat (s : State) (f : Fld) (n : Nat) : State :=
  s.fset f (min (s.fget f + n) (2 ^ (f.hi + 1 - f.lo) - 1))

/-! ## Free values -/

/-- The next free value (assumption 4). -/
def State.freeVal (s : State) : Nat := Config.freeNat s.free

/-- Uses up the next free value. -/
def State.freeUsed (s : State) : State := { s with free := s.free + 1 }

/-- Adds to a counter field. The spec states no value past its width: there it becomes a free value
(assumption 9). -/
def State.finc (s : State) (f : Fld) (n : Nat) : State :=
  if s.fget f + n < 2 ^ (f.hi + 1 - f.lo) then s.fset f (s.fget f + n)
  else (s.fset f s.freeVal).freeUsed

/-- The largest of the field's value and v. -/
def State.fmax (s : State) (f : Fld) (v : Nat) : State := if s.fget f < v then s.fset f v else s

/-! ## Memory -/

/-- Address of a hub byte in `mem`. -/
def hubAddr (hub off : Nat) : Nat := hub * 2 ^ 44 + off

/-- One byte of a memory: 0 where nothing is listed (R299). -/
def Memory.get (m : Memory) (a : Nat) : Byte := kgetD (α := Byte) m a 0#8

/-- Stores one byte, keeping the canonical form. -/
def Memory.put (m : Memory) (a : Nat) (b : Byte) : Memory :=
  if b = 0#8 then kdel (α := Byte) m a else kset (α := Byte) m a b

/-- n bytes from address a. -/
def Memory.read (m : Memory) (a : Nat) : Nat → List Byte
  | 0 => []
  | n + 1 => Memory.get m a :: Memory.read m (a + 1) n

/-- Stores bytes from address a on. -/
def Memory.write (m : Memory) (a : Nat) : List Byte → Memory
  | [] => m
  | b :: t => Memory.write (Memory.put m a b) (a + 1) t

/-- The canonical form: addresses strictly rising, no entry equal to 0. -/
def Memory.wf (m : Memory) : Bool := krising (α := Byte) m && m.all fun e => e.2 != 0#8

/-- The canonical form of the register file: addresses strictly rising, no entry equal to its reset value. -/
def State.regsWf (s : State) : Bool :=
  krising (α := W64) s.regs && s.regs.all fun e => e.2 != regReset s.boot.latched e.1

/-- Reads hub memory. -/
def State.hubRead (s : State) (hub off n : Nat) : List Byte := Memory.read s.mem (hubAddr hub off) n

/-- Writes hub memory. -/
def State.hubWrite (s : State) (hub off : Nat) (b : List Byte) : State :=
  { s with mem := Memory.write s.mem (hubAddr hub off) b }

/-! ## Where the sled is -/

/-- The current frame. -/
def State.now (s : State) : Nat := s.tb.frame.toNat

/-- Latched plane s (R20). -/
def State.plane (s : State) : Nat := s.boot.latched.slotId % 16

/-- Latched rack (R20). -/
def State.rack (s : State) : Nat := s.boot.latched.rackId % 256

/-- Position 128 + s of the Tollgate and the control processor (R14). -/
def State.ownPos (s : State) : Nat := 128 + s.plane

/-- Sled state (R427). -/
def State.sled (s : State) : Nat := s.fget R.CP_STATE.STATE

/-! ## Outputs and alerts -/

/-- Records something that leaves the block. -/
def State.emit (s : State) (o : Out) : State := { s with out := o :: s.out }

/-- The control processor or the Tollgate presents a cell at core input 128 + s, where it waits for its turn (R17). -/
def State.ownSend (s : State) (c : Cell) : State :=
  { s with sw := { s.sw with feed := s.sw.feed ++ [c] }, out := .inject s.ownPos c :: s.out }

/-- Asserts the rack-manager alert line for a group of CP_ALERT (R549). -/
def State.alert (s : State) (bit : Nat) : State :=
  (s.setReg R.CP_ALERT.STRAP.addr (s.reg R.CP_ALERT.STRAP.addr ||| BitVec.ofNat 64 (2 ^ bit))).emit (.alert bit)

/-- Folds a list of updates. -/
def State.forEach {α : Type} (s : State) (l : List α) (f : State → α → State) : State := l.foldl f s

/-- A change that happens under a condition. -/
def State.when (s : State) (c : Bool) (f : State → State) : State := if c then f s else s

/-! ## Ports, end-points, hubs, cores by number -/

def State.port (s : State) (p : Nat) : PortSt := kgetD s.ports p {}
def State.setPort (s : State) (p : Nat) (x : PortSt) : State := { s with ports := kset s.ports p x }
def State.ep (s : State) (e : Nat) : Endpoint := kgetD s.eps e {}
def State.setEp (s : State) (e : Nat) (x : Endpoint) : State := { s with eps := kset s.eps e x }
def State.hub (s : State) (h : Nat) : Hub := kgetD s.hubs h {}
def State.setHub (s : State) (h : Nat) (x : Hub) : State := { s with hubs := kset s.hubs h x }
def State.core (s : State) (c : Nat) : Core := kgetD s.cores c {}
def State.setCore (s : State) (c : Nat) (x : Core) : State := { s with cores := kset s.cores c x }

/-! ## Commands: replies and tags -/

/-- The live tag of an owner (R406). -/
def State.findTag (s : State) (owner tag : Nat) : Option TagSt :=
  s.host.tags.find? fun t => t.owner == owner && t.tag == tag

/-- Changes a live tag. -/
def State.updTag (s : State) (owner tag : Nat) (f : TagSt → TagSt) : State :=
  { s with host := { s.host with
      tags := replaceFirst (fun t => t.owner == owner && t.tag == tag) f s.host.tags } }

/-- The 32-byte status reply header (*Command packets*); `num` writes a field: big-endian over H0 and H1 (R4),
little-endian in-band (R420). -/
def replyHdr (num : Nat → Nat → List Byte) (r : CmdReq) (status progress frag length : Nat) (more rep : Bool) : List Byte :=
  let flags := 4 + (if more then 2 else 0) + (if rep then 8 else 0) + (if r.notify then 16 else 0)
  num 0x4A58 2 ++ num 1 1 ++ num flags 1 ++ num r.opcode 2 ++ num r.tag 2 ++ num r.ctx 1 ++ num 0 1 ++ num frag 2
    ++ num length 4 ++ num r.seqn 8 ++ num status 2 ++ num 0 2 ++ num progress 4

/-- Header and result of an in-band reply (R418, R420). -/
def replyStream (r : CmdReq) (status progress : Nat) (result : List Byte) (rep : Bool) : List Byte :=
  replyHdr leBytes r status progress 0 result.length false rep ++ result

/-- The packets of a reply over H0 or H1 (R403): fragment k carries result bytes 1,024 k onward, and every fragment but the
last has MORE set. -/
def replyPackets (r : CmdReq) (status progress : Nat) (result : List Byte) (rep : Bool) : List (List Byte) :=
  let n := max 1 (ceilDiv result.length 1024)
  (List.range n).map fun k =>
    replyHdr beBytes r status progress k result.length (k + 1 < n) rep ++ (result.drop (1024 * k)).take 1024

/-- Piece i of n of a stream, as the payload of a COMMAND or STATUS cell (R418). -/
def streamPiece (kind tag i n : Nat) (b : List Byte) : BitVec 512 :=
  lineOf (leBytes kind 1 ++ [0] ++ leBytes tag 2 ++ leBytes i 2 ++ leBytes n 2 ++ bytesAt b (56 * i) 56)

/-- Sends a reply or a notice: to a host over its port, or the other one when that is down (R404); to an accelerator in
STATUS cells of the control class (R420). -/
def State.sendReply (s : State) (r : CmdReq) (status progress : Nat) (result : List Byte) (rep : Bool) : State :=
  if r.owner < 64 then
    let p := r.route.port % 2
    let up (k : Nat) : Bool := s.fbit (R.HE_PORT.LINK_UP k)
    let t := if !up p && up (1 - p) then { r.route with port := 1 - p } else r.route
    s.forEach (replyPackets r status progress result rep) fun s b => s.emit (.packet t b)
  else
    let b := replyStream r status progress result rep
    let n := ceilDiv b.length 56
    s.forEach (List.range n) fun s i =>
      s.ownSend { typ := 0x31, cls := 2, dst := r.owner - 64, src := 384 + s.plane, ctx := r.ctx
                  payload := streamPiece 0x30 r.tag i n b }

/-- Sends a status reply (*Command packets*, R420). -/
def State.reply (s : State) (r : CmdReq) (status progress : Nat) (result : List Byte) : State :=
  s.sendReply r status progress result false

/-- The command of a tag, as its later replies name it. -/
def TagSt.req (t : TagSt) : CmdReq :=
  { owner := t.owner, opcode := t.opcode, tag := t.tag, seqn := t.seqn, ctx := t.ctx, notify := t.notify, route := t.route }

/-- Answers a command at once with its final status and result (R405), stored under its tag (R409). -/
def State.answer (s : State) (r : CmdReq) (status progress : Nat) (result : List Byte) : State :=
  (s.updTag r.owner r.tag fun t =>
    { t with done := true, status := status, progress := progress, result := result, delivered := true }).reply
    r status progress result

/-- Refuses or completes a command with a status alone. -/
def State.answerSt (s : State) (r : CmdReq) (status : Nat) : State := s.answer r status 0 []

/-- Answers a command with ST_PENDING (R405) and the frame it waits for, 0 for none (R411). -/
def State.pend (s : State) (r : CmdReq) (n : Nat) : State :=
  (s.updTag r.owner r.tag fun t => { t with n := n }).reply r ST.PENDING (n - s.now) []

/-- A pending command completes (R408): the result is stored and, when NOTIFY was set, a notice is sent. -/
def State.complete (s : State) (owner tag status progress : Nat) (result : List Byte) : State :=
  match s.findTag owner tag with
  | none => s
  | some t =>
    if t.done then s
    else
      let s := s.updTag owner tag fun t =>
        { t with done := true, status := status, progress := progress, result := result, delivered := t.notify }
      if t.notify then s.reply t.req status progress result else s

/-! ## The Almanac's open pages (R509, R511) -/

/-- Key of a count of the pages: record KIND, entry (port, hub, laser; 0 otherwise), offset in the body or entry. -/
def almKey (kind entry off : Nat) : Nat := kind * 65536 + entry * 256 + off

/-- Changes a count of every open page. -/
def State.almUpd (s : State) (k : Nat) (f : Option Nat → Nat) : State :=
  { s with al := { s.al with pages := s.al.pages.map fun p => { p with counts := kset p.counts k (f (kget p.counts k)) } } }

/-- Adds to a count. -/
def State.almAdd (s : State) (kind entry off n : Nat) : State :=
  s.almUpd (almKey kind entry off) fun o => o.getD 0 + n

/-- Raises an extreme. -/
def State.almMax (s : State) (kind entry off v : Nat) : State :=
  s.almUpd (almKey kind entry off) fun o => max (o.getD 0) v

/-- Lowers an extreme. -/
def State.almMin (s : State) (kind entry off v : Nat) : State :=
  s.almUpd (almKey kind entry off) fun o => min (o.getD v) v

/-- Lowers an extreme that a page carries from its opening; where it carries none it is 0. -/
def State.almLow (s : State) (kind entry off v : Nat) : State :=
  s.almUpd (almKey kind entry off) fun o => (o.map (min v)).getD 0

/-- Sets bits of a map. -/
def State.almOr (s : State) (kind entry off v : Nat) : State :=
  s.almUpd (almKey kind entry off) fun o => o.getD 0 ||| v

/-! ## Contexts (R369) -/

/-- State of a context: 0 FREE, 1 ACTIVE, 2 SCRUBBING; context 0 is always ACTIVE (*CP_CTX*). -/
def State.ctxState (s : State) (x : Nat) : Nat := if x = 0 then 1 else s.fget (R.CP_CTX.STATE x)

/-- The refusal of a command that names a context which is not ACTIVE (R369). -/
def State.ctxRefusal (s : State) (x : Nat) : Option Nat :=
  if s.ctxState x = 1 then none else if s.ctxState x = 2 then some ST.BUSY else some ST.BAD_PARAM

end Sys2Proof.Machine
end

