-- ==== Sys2Proof/Machine/Timebase.lean ====
section
/-! DEFINITION. The timebase (R37 to R48, R79, R81 to R83): markers, lock states, the frame master. -/

namespace Sys2Proof.Machine

/-! ## Ports as the timebase sees them -/

/-- State of a port (R91). -/
def State.portState (s : State) (p : Nat) : Nat := s.fget (R.OP_PORT_STATUS.STATE p)

/-- The port index names a port: a sled port other than 128 + s (R15), or a chiplet port. -/
def State.isPort (s : State) (p : Nat) : Bool := p < 176 && p != s.ownPos

/-- Frame words pass on a port that is trained (R91). -/
def State.trained (s : State) (p : Nat) : Bool := s.isPort p && PS.MAINTENANCE ≤ s.portState p && s.portState p ≤ PS.UP

/-- The mesh port to sled q, q other than s, is UP. -/
def State.meshUp (s : State) (q : Nat) : Bool := q != s.plane && s.portState (128 + q) == PS.UP

/-- Lock state (R39). -/
def State.lock (s : State) : Nat := s.fget R.TB_STATUS.LOCK

/-- This sled is frame master (R44). -/
def State.isMaster (s : State) : Bool := s.fbit R.TB_STATUS.MASTER

/-! ## Choosing whom to follow (R40) -/

/-- What sled q's markers say, while they arrive: none once 4 frames bring none (R39). -/
def State.markerOf (s : State) (q : Nat) : Option MarkerSt :=
  if s.meshUp q then (kget s.tb.markers (128 + q)).filter (·.age < 4) else none

/-- Sled q says that it is master: LOCKED, following itself directly. -/
def State.saysMaster (s : State) (q : Nat) : Bool :=
  (s.markerOf q).any fun m => m.lock == LK.LOCKED && m.masterPlane == q && !m.relayed

/-- Sled q reports following directly a master that it hears and to which this sled is not UP itself. -/
def State.saysDirect (s : State) (q : Nat) : Bool :=
  (s.markerOf q).any fun m =>
    (m.lock == LK.ACQUIRE || m.lock == LK.LOCKED) && m.masterPlane != q && m.masterPlane != s.plane && !m.relayed
      && !s.meshUp m.masterPlane

/-- Whom this sled follows: the master directly where the mesh link to it is UP, else through the lowest-numbered
sled that follows it directly: (followed plane, master plane, relayed). -/
def State.chooseFollow (s : State) : Option (Nat × Nat × Bool) :=
  match (List.range 16).find? s.saysMaster with
  | some q => some (q, q, false)
  | none =>
    match (List.range 16).find? s.saysDirect with
    | some q => some (q, ((s.markerOf q).elim 0 (·.masterPlane)), true)
    | none => none

/-- Takes the choice of R40 into TB_STATUS; a master follows no sled (R39). A sled that hears a master enters ACQUIRE
from FREE and from HOLDOVER (R39, R46); one that hears none falls from ACQUIRE to FREE. -/
def State.follow (s : State) : State :=
  if s.isMaster then s
  else match s.chooseFollow with
    | none => if s.lock = LK.ACQUIRE then s.fset R.TB_STATUS.LOCK LK.FREE else s
    | some (q, m, rel) =>
      let s := ((s.fset R.TB_STATUS.FOLLOW_PLANE q).fset R.TB_STATUS.MASTER_PLANE m).fsetb R.TB_STATUS.RELAYED rel
      if s.lock = LK.FREE ∨ s.lock = LK.HOLDOVER then
        { s.fset R.TB_STATUS.LOCK LK.ACQUIRE with tb := { s.tb with okRun := 0, badRun := 0, silent := 0, holdFor := 0 } }
      else s

/-- The plane the chiplet is to follow: the lowest-numbered one whose port is UP and whose sled reports LOCKED or
HOLDOVER (R41). -/
def State.chipChoose (s : State) : Option Nat :=
  (List.range 16).find? fun k =>
    s.portState (160 + k) == PS.UP &&
      ((kget s.tb.markers (160 + k)).any fun m => m.age < 4 && (m.lock == LK.LOCKED || m.lock == LK.HOLDOVER))

/-- Takes the choice of R41. The chiplet's timebase moves among the states of R39 with the sled it follows in place of a
master (assumption 133): it hears that one, and none at all. -/
def State.chipFollow (s : State) : State :=
  let c := s.chip
  let f := s.chipChoose
  let c := if f.isNone then { c with follow := f, lock := if c.lock = LK.ACQUIRE then LK.FREE else c.lock }
    else if c.lock = LK.FREE ∨ c.lock = LK.HOLDOVER then
      { c with follow := f, lock := LK.ACQUIRE, tb := { c.tb with okRun := 0, badRun := 0, silent := 0, holdFor := 0 } }
    else { c with follow := f }
  { s with chip := c }

/-! ## Markers -/

/-- Records a marker that is not ignored (R82). -/
def State.noteMarker (s : State) (port : Nat) (m : Marker) : State :=
  let old := kgetD s.tb.markers port {}
  let new : MarkerSt :=
    { frame := m.frame, lock := m.lock, masterPlane := m.masterPlane, relayed := m.relayed, age := 0,
      consecutive := (kget s.tb.markers port).isSome && old.frame + 1 == m.frame,
      arrival := m.t1,
      lockedFor := if m.lock = LK.LOCKED then old.lockedFor + 1 else 0 }
  { s with tb := { s.tb with markers := kset s.tb.markers port new } }

/-- The value nearest `prev` whose low 9 bits are `a` (R83). Of two that are equally near, `up` takes the higher. -/
def extendArrival (prev : Int) (a : Nat) (up : Bool) : Int :=
  let d := ((a : Int) - prev) % 512
  if d < 256 ∨ (d = 256 ∧ up = true) then prev + d else prev + d - 512

/-- ARRIVAL of a marker, extended from the link's previous value (R83); of two nearest values either (assumption 10). -/
def State.noteArrival (s : State) (port : Nat) (m : Marker) : State :=
  let x := s.port port
  let e := extendArrival x.arrivalExt m.arrival (s.freeVal % 2 == 1)
  (s.setPort port { x with arrivalExt := e }).when (((m.arrival : Int) - x.arrivalExt) % 512 == 256) State.freeUsed

/-- Half of a whole number of units; of an odd one, either neighbour of the half (assumption 10). -/
def State.halfOf (s : State) (d : Int) : Int := d / 2 + (if d % 2 = 1 then ((s.freeVal % 2 : Nat) : Int) else 0)

/-- What twice an offset of `d` brings a timebase (R38, R39): the runs within 2 ns and above 10 ns, a phase step above
100 ns in ACQUIRE, and a slew of TBCLK by `amt` toward zero. -/
def Timebase.measured (tb : Timebase) (d : Int) (acquire : Bool) (amt : Int) : Timebase :=
  { tb with
    heard := true
    silent := 0
    okRun := if d.natAbs ≤ 51 then tb.okRun + 1 else 0
    badRun := if 256 < d.natAbs then tb.badRun + 1 else 0
    stepDue := tb.stepDue || (acquire && decide (2560 < d.natAbs))
    slew := if d < 0 then tb.slew + amt else tb.slew - amt }

/-- The slew of a frame: toward zero offset and by at most 0.25 ns (R38, assumption 10). -/
def State.slewFor (s : State) (d : Int) : Int :=
  ((s.freeVal % (min 250 (d.natAbs * 390625 / 10000) + 1) : Nat) : Int)

/-- The estimates of R38 from the followed sled's marker: t1 is its arrival time here, t2 the arrival time that the sled
reports for this sled's marker. OFFSET and DELAY are written, the runs counted and TBCLK slewed. -/
def State.estimate (s : State) (t1 t2 : Int) : State :=
  let d := t1 - t2
  let u := (s.fset R.TB_STATUS.OFFSET (unsigned (s.halfOf d) 16)).fset R.TB_STATUS.DELAY (unsigned (s.halfOf (t1 + t2)) 16)
  { u with tb := u.tb.measured d (s.lock == LK.ACQUIRE) (s.slewFor d) }.freeUsed

/-- The frame number of the followed sled's marker: a sled that is not LOCKED adopts it at the next boundary (R45,
R47); a LOCKED one when two consecutive markers say so, with FRAME_SLIP (R48, R82). -/
def State.noteNumber (s : State) (port : Nat) (m : Marker) : State :=
  if m.frame = s.now then { s with tb := { s.tb with adopt := none } }
  else if s.lock = LK.LOCKED then
    if (kgetD s.tb.markers port {}).consecutive then
      let s := (s.fsetb R.TB_STATUS.FRAME_SLIP true).almAdd 2 0 104 1
      { s with tb := { s.tb with adopt := some (m.frame + 1), slipDue := true } }
    else s
  else if s.lock = LK.ACQUIRE then { s with tb := { s.tb with adopt := some (m.frame + 1) } }
  else s

/-- The chiplet's frame number (R540). -/
def State.chipNow (s : State) : Nat := s.chip.tb.frame.toNat

/-- The marker of the sled that the chiplet follows (R38, R41, R540): its frame number is that sled's, and its timebase
is disciplined by R38. Its own markers name that sled's master, heard through the sled unless the sled is the master. -/
def State.chipMarker (s : State) (k : Nat) (m : Marker) : State :=
  let s := s.chipFollow
  if s.chip.follow ≠ some k ∨ s.chip.lock = LK.FREE then s
  else
    let c := s.chip
    let d := m.t1 - (s.port (160 + k)).arrivalExt
    let tb := c.tb.measured d (c.lock == LK.ACQUIRE) (s.slewFor d)
    let adopt := if m.frame = s.chipNow then none
      else if c.lock = LK.LOCKED ∧ !(kgetD s.tb.markers (160 + k) {}).consecutive then c.tb.adopt else some (m.frame + 1)
    { s with chip := { c with tb := { tb with adopt := adopt }, masterPlane := m.masterPlane
                              relayed := m.relayed || k != m.masterPlane } }.freeUsed

/-- A received frame marker (R37 to R41, R45, R48, R82, R83). A PROTO 4 link's frame words are ignored (R96). A sled takes
the tick only from the sled that R40 lets it follow: of another it hears none. -/
def State.frameMarker (s : State) (port : Nat) (m : Marker) : State :=
  if m.damaged || !s.trained port || s.fget (R.OP_PORT_STATUS.FAR_PROTO port) == 4 then s
  else
    let s := (s.noteArrival port m).noteMarker port m
    if 160 ≤ port then s.chipMarker (port - 160) m
    else if port < 128 ∨ 144 ≤ port then s
    else
      let s := s.follow
      if s.isMaster then s
      else if s.chooseFollow.any (·.1 == port - 128) ∧ s.lock ≠ LK.FREE then
        (s.noteNumber port m).estimate m.t1 (s.port port).arrivalExt
      else s

/-- Meaning of FRAME_MARKER. -/
def execFrameMarker (port : Nat) (m : Marker) (s : State) : Res := .next (s.frameMarker port m)

/-- The alignment step's 16-bit arrival times (R83, R93): the far end's is the first extended value of the link, and the
delay is half of the sum of both ends' (R38). -/
def State.aligned (s : State) (port : Nat) (t1 : Int) (far : Nat) : State :=
  ((s.setPort port { s.port port with arrivalExt := (far : Int) }).fset (R.OP_DELAY.ONE_WAY port)
    (unsigned (s.halfOf (t1 + far)) 16)).freeUsed

/-- Alignment after a phase step completes on a port, within 300 frames (R79): its delay is measured anew and the link
carries cells again. -/
def execRealignDone (a : Alignment) (s : State) : Res :=
  .next (if (kget s.tb.realign a.port).isNone then s
    else { s.aligned a.port a.t1 a.far with tb := { s.tb with realign := kdel s.tb.realign a.port } })

/-! ## Lock states -/

/-- Enters LOCKED as frame master (R39, R45, R46, R47): the sled's own tick and count go on. -/
def State.becomeMaster (s : State) : State :=
  let s := (((s.fset R.TB_STATUS.LOCK LK.LOCKED).fsetb R.TB_STATUS.MASTER true).fset R.TB_STATUS.MASTER_PLANE
    s.plane).fsetb R.TB_STATUS.RELAYED false
  { s with tb := { s.tb with okRun := 0, badRun := 0, silent := 0, holdFor := 0, adopt := none, stepDue := false } }

/-- R39: ACQUIRE with 64 consecutive frames within 2 ns becomes LOCKED. -/
def execLockAchieved (s : State) : Res :=
  .next (if s.lock = LK.ACQUIRE ∧ 64 ≤ s.tb.okRun then
      { s.fset R.TB_STATUS.LOCK LK.LOCKED with tb := { s.tb with lockedFor := 0, badRun := 0, silent := 0 } }
    else s)

/-- R39: LOCKED with 4 consecutive frames above 10 ns becomes ACQUIRE; a master stays LOCKED. -/
def execLockLost (s : State) : Res :=
  .next (if s.lock = LK.LOCKED ∧ !s.isMaster ∧ 4 ≤ s.tb.badRun then
      { s.fset R.TB_STATUS.LOCK LK.ACQUIRE with tb := { s.tb with okRun := 0, badRun := 0 } }
    else s)

/-- R39: LOCKED with 4 consecutive frames without a marker from the followed sled becomes HOLDOVER. -/
def execHoldoverEntry (s : State) : Res :=
  .next (if s.lock = LK.LOCKED ∧ !s.isMaster ∧ 4 ≤ s.tb.silent then
      { (s.fset R.TB_STATUS.LOCK LK.HOLDOVER).almAdd 2 0 108 1 with tb := { s.tb with holdFor := 0 } }
    else s)

/-- R39: HOLDOVER without a master heard for 64 frames becomes FREE. -/
def execHoldoverExpiry (s : State) : Res :=
  .next (if s.lock = LK.HOLDOVER ∧ !s.isMaster ∧ 64 ≤ s.tb.holdFor then
      { s.fset R.TB_STATUS.LOCK LK.FREE with tb := { s.tb with holdFor := 0 } }
    else s)

/-- A sled with a lower plane number is heard: a marker within 64 frames (R45). -/
def State.hearsLower (s : State) (frames : Nat) : Bool :=
  (List.range s.plane).any fun q => (kget s.tb.markers (128 + q)).any fun m => m.age < frames

/-- Present (R44): it has left BOOT, its straps are free of conflict, and R143 does not hold it. -/
def State.present (s : State) : Bool :=
  SS.INIT ≤ s.sled && s.sled != SS.HALT && !bitAt (s.reg 8).toNat 17
    && !(s.fbit R.SG_STATUS.DUP_PLANE && s.sled ≤ SS.PLAN_CHECK)

/-- R45: 64 frames after entering DISCOVERY without a lower-numbered sled heard, and with no master, a sled declares
itself master. -/
def execMasterDeclare (s : State) : Res :=
  .next (if s.present ∧ SS.DISCOVERY ≤ s.sled ∧ s.lock = LK.FREE ∧ 64 ≤ s.tb.discFor ∧ !s.hearsLower 64 ∧
      s.chooseFollow.isNone then s.becomeMaster
    else s)

/-- R46: after 16 frames in HOLDOVER the lowest-numbered sled still present declares itself master, without a step. -/
def execMasterTakeover (s : State) : Res :=
  .next (if s.present ∧ s.lock = LK.HOLDOVER ∧ 16 ≤ s.tb.holdFor ∧ !s.hearsLower 4 then s.becomeMaster else s)

/-- R47: at a frame that is a multiple of 4,096, mastership passes to the lower-numbered sled that has been LOCKED for
4,096 frames; phases and counts do not change. -/
def execMasterHandover (plane : Nat) (s : State) : Res :=
  .next (
    if s.now % 4096 ≠ 0 then s
    else if plane = s.plane then
      if !s.isMaster ∧ s.lock = LK.LOCKED ∧ 4096 ≤ s.tb.lockedFor ∧ plane < s.fget R.TB_STATUS.MASTER_PLANE then
        s.becomeMaster
      else s
    else if (s.markerOf plane).any (4096 ≤ ·.lockedFor) ∧ plane < s.fget R.TB_STATUS.MASTER_PLANE then
      let s := s.fset R.TB_STATUS.MASTER_PLANE plane
      let s := if s.isMaster ∨ s.meshUp plane then
          (s.fset R.TB_STATUS.FOLLOW_PLANE plane).fsetb R.TB_STATUS.RELAYED false else s
      s.fsetb R.TB_STATUS.MASTER false
    else s)

/-- R48: guaranteed admission is barred in the 16 frames after an adopted slip. -/
def State.slipBarred (s : State) : Bool := s.now < s.tb.slipUntil

/-- R48: sixteen frames after a slip the bar ends. -/
def execSlipBarEnd (s : State) : Res :=
  .next (if s.tb.slipUntil ≤ s.now then { s with tb := { s.tb with slipUntil := 0 } } else s)

/-! ## The tick -/

/-- The number of the frame that begins: the adopted one, else the next. -/
def Timebase.nextFrame (tb : Timebase) : Nat := tb.adopt.getD (tb.frame.toNat + 1)

/-- A timebase at its frame boundary (R34, R38, R39, R45): the new number, the runs, and a due phase step, which only
ACQUIRE takes. `led` says that no sled is to be heard: a master's. -/
def Timebase.count (tb : Timebase) (lock : Nat) (led : Bool) : Timebase :=
  { tb with
    frame := BitVec.ofNat 64 tb.nextFrame
    adopt := none
    stepDue := false
    heard := false
    okRun := if tb.stepDue ∧ lock = LK.ACQUIRE then 0 else tb.okRun
    silent := if tb.heard ∨ led = true then 0 else tb.silent + 1
    holdFor := if lock = LK.HOLDOVER then tb.holdFor + 1 else 0
    lockedFor := if lock = LK.LOCKED then tb.lockedFor + 1 else 0 }

/-- Ports from `a` up to `b` repeat their alignment step when the timebase they belong to steps its phase (R79). -/
def State.realignFrom (s : State) (tb : Timebase) (lock a b : Nat) (m : KV Nat) : KV Nat :=
  if tb.stepDue ∧ lock = LK.ACQUIRE then
    ((List.range b).filter fun p => a ≤ p && s.trained p).foldl (fun m p => kset m p tb.nextFrame) m
  else m

/-- The sled's new number, a due phase step, the runs (R34, R38, R39, R45, R48, R79). -/
def State.tbCount (s : State) : State :=
  { s with tb := { s.tb.count s.lock s.isMaster with
    realign := s.realignFrom s.tb s.lock 0 160 s.tb.realign
    slipUntil := if s.tb.slipDue then s.tb.nextFrame + 16 else s.tb.slipUntil
    slipDue := false
    discFor := s.tb.discFor + 1
    markers := s.tb.markers.map fun e => (e.1, { e.2 with age := e.2.age + 1 }) } }

/-- The chiplet's lock state at a frame boundary, by the numbers of R39. -/
def chipLock (lock : Nat) (tb : Timebase) : Nat :=
  if lock = LK.ACQUIRE ∧ 64 ≤ tb.okRun then LK.LOCKED
  else if lock = LK.LOCKED ∧ 4 ≤ tb.badRun then LK.ACQUIRE
  else if lock = LK.LOCKED ∧ 4 ≤ tb.silent then LK.HOLDOVER
  else if lock = LK.HOLDOVER ∧ 64 ≤ tb.holdFor then LK.FREE
  else lock

/-- The chiplet's number, runs and lock state. -/
def State.chipCount (s : State) : State :=
  let tb := s.chip.tb.count s.chip.lock false
  let l := chipLock s.chip.lock tb
  let tb := if l = s.chip.lock then tb else { tb with okRun := 0, badRun := 0, holdFor := 0 }
  { s with
    tb := { s.tb with realign := s.realignFrom s.chip.tb s.chip.lock 160 176 s.tb.realign }
    chip := { s.chip with tb := tb, lock := l } }

/-- The timebase at a frame boundary: whom the sled and the chiplet follow is judged anew (R40, R41). -/
def State.tbTick (s : State) : State := s.chipCount.tbCount.follow.chipFollow

/-! ## Widths and the slot mapping (R68, R84, R99, R103) -/

/-- Width of n working wavelengths or lanes; 0: the port or link goes DOWN (R99, R287). -/
def widthOf (n : Nat) : Nat := if 6 ≤ n then min n 8 else if 4 ≤ n then 4 else 0

/-- The number a width change at a port goes by. -/
def chgPos (p : Nat) : Nat := if 144 ≤ p ∧ p < 160 then p + 176 else p

/-- The port of a width change's number. -/
def chgPort (x : Nat) : Nat := if 320 ≤ x then x - 176 else x

/-- The wavelengths or lanes that an unplanned loss takes at a change number, and that the slot mapping still counts:
both ends change the mapping only at FCLK 0 of N (R103). -/
def State.leaving (s : State) (x : Nat) : List Nat := (s.tt.changes.filter fun c => c.pos == x && !c.planned).map (·.wl)

/-- The wavelengths that carry frame words and cells on a port. -/
def State.mapWl (s : State) (p : Nat) : Nat := (s.leaving (chgPos p)).foldl bitSet (s.fget (R.OP_PORT_STATUS.WL_WORKING p))

/-! ## Frame words (R77, R78, R81) -/

/-- The 80 bits of a frame marker. -/
def markerBits (frame lock master : Nat) (relayed : Bool) (arrival : Int) : Nat :=
  frame % 2 ^ 64 + lock % 4 * 2 ^ 64 + master % 16 * 2 ^ 66 + (if relayed then 2 ^ 70 else 0) + unsigned arrival 9 * 2 ^ 71

/-- The frame word of the working wavelength numbered j: a part of the marker, or its copy. -/
def frameWord (marker j : Nat) : Nat := bitsOf marker (20 * (j % 4) + 19) (20 * (j % 4))

/-- A fill symbol follows frame m. -/
def fills (m : Nat) : Bool := (m + 1) * 103 / 136 != m * 103 / 136

/-- A codeword begins with the frame word of frame m. -/
def codewordStarts (m : Nat) : Bool := m % 272 == 0

/-- Lock state of the timebase that a port belongs to. -/
def State.lockOf (s : State) (p : Nat) : Nat := if p < 160 then s.lock else s.chip.lock

/-- The marker that a port sends in this frame (R37). -/
def State.markerFor (s : State) (p : Nat) : Nat :=
  let a := (kgetD s.tb.markers p {}).arrival
  if p < 160 then markerBits s.now s.lock (s.fget R.TB_STATUS.MASTER_PLANE) (s.fbit R.TB_STATUS.RELAYED) a
  else markerBits s.chipNow s.chip.lock s.chip.masterPlane s.chip.relayed a

/-- Every transmitter sends a marker at FCLK 0 (R37), a part or a copy on each wavelength of its slot mapping; on a PROTO 4
uplink the words are zero (R96). The link frame count rises (R78). -/
def State.sendMarkers (s : State) : State :=
  s.forEach ((List.range 176).filter s.trained) fun s p =>
    let x := s.port p
    let m := x.linkFrame + 1
    let marker := if s.fget (R.OP_PORT_STATUS.FAR_PROTO p) = 4 then 0 else s.markerFor p
    let ks := bitList (s.mapWl p) 8
    let words := (List.range ks.length).map fun j => (ks.getD j 0, frameWord marker j)
    (s.setPort p { x with linkFrame := m }).emit (.frame p words (fills m) (codewordStarts m))

end Sys2Proof.Machine
end

