-- ==== Sys2Proof/Machine/Tables.lean ====
section
/-! DEFINITION. Table banks, port-table positions, position status and width, groups: what the tables of the sled
say (R35, R51, R55, R60, R136, R147, R414). -/

namespace Sys2Proof.Machine

/-! ## Banks -/

/-- Bank family: 0 timetable, 1 signpost tables, 2 group table; bank b's first address. -/
def bankBase (fam b : Nat) : Nat :=
  match fam with
  | 0 => 0x4100000 + 0x100000 * b
  | 1 => 0x5100000 + 0x100000 * b
  | _ => 0x3100000 + 0x80000 * b

/-- Bytes of a bank. -/
def bankSize (fam : Nat) : Nat :=
  match fam with
  | 0 => 0x48000
  | 1 => 0x18000
  | _ => 0x40000

/-- Field that names the active bank of a family. -/
def bankActiveFld (fam : Nat) : Fld :=
  match fam with
  | 0 => R.TB_BANK.ACTIVE
  | 1 => R.SG_STATUS.ACTIVE
  | _ => R.RD_STATUS.GROUP_ACTIVE

/-- Field that holds the inactive bank's state: 0 BUILDING, 1 ARMED, 2 COPYING, 3 REVISING. -/
def bankStateFld (fam : Nat) : Fld :=
  match fam with
  | 0 => R.TB_BANK.INACTIVE_STATE
  | 1 => R.SG_STATUS.INACTIVE_STATE
  | _ => R.RD_STATUS.GROUP_INACTIVE_STATE

def State.activeBank (s : State) (fam : Nat) : Nat := s.fget (bankActiveFld fam)
def State.inactiveBank (s : State) (fam : Nat) : Nat := 1 - s.activeBank fam
def State.bankState (s : State) (fam : Nat) : Nat := s.fget (bankStateFld fam)

/-- The swap of a bank family. -/
def State.swapSt (s : State) (fam : Nat) : SwapSt :=
  match fam with
  | 0 => s.tt.swap
  | 1 => s.sg.swap
  | _ => s.rd.swap

def State.setSwapSt (s : State) (fam : Nat) (x : SwapSt) : State :=
  match fam with
  | 0 => { s with tt := { s.tt with swap := x } }
  | 1 => { s with sg := { s.sg with swap := x } }
  | _ => { s with rd := { s.rd with swap := x } }

/-- The registers listed in an address range. -/
def State.regsIn (s : State) (lo hi : Nat) : List (Nat × W64) := s.regs.filter fun e => lo ≤ e.1 && e.1 < hi

/-- Registers of a range return to their reset values. -/
def State.resetRegs (s : State) (lo hi : Nat) : State :=
  { s with regs := s.regs.filter fun e => !(lo ≤ e.1 && e.1 < hi) }

/-- Copies one bank of a family over the other. -/
def State.copyBank (s : State) (fam src : Nat) : State :=
  let a := bankBase fam src
  let d := bankBase fam (1 - src)
  let l := s.regsIn a (a + bankSize fam)
  (s.resetRegs d (d + bankSize fam)).forEach l fun s e => s.setReg (d + (e.1 - a)) e.2

/-- The word at an address of an active bank was found uncorrectable: its entry is not VALID (R455). -/
def State.eccBad (s : State) (fam addr : Nat) : Bool := (s.swapSt fam).eccBad.contains addr

/-! ## Positions -/

/-- Port-table word of an id in a signpost bank; reads as not routed where R455 voids it. -/
def State.portWord (s : State) (b id : Nat) : Nat :=
  let a := R.PORT_TABLE.addr b id
  if id < 416 ∧ !s.eccBad 1 a then
    let v := (s.reg a).toNat
    if 384 ≤ id then bitSet v 12 else v
  else 0

/-- The live substitution of a position (R147): mesh positions other than 128 + s map to a reach position or none. -/
def State.substPos (s : State) (pos : Nat) : Option Nat :=
  if 128 ≤ pos ∧ pos < 144 ∧ pos ≠ s.ownPos then (kget s.sg.subst pos).getD none else some pos

/-- The port-table position of an id from a signpost bank (R136): none when not routed (R137). -/
def State.posIn (s : State) (b id : Nat) : Option Nat :=
  let w := s.portWord b id
  if bitAt w 13 then s.substPos (w % 256) else none

/-- The port-table position of an id from the active bank. -/
def State.posOf (s : State) (id : Nat) : Option Nat := s.posIn (s.activeBank 1) id

/-- Partition of an id, and whether it belongs to every partition. -/
def State.partOf (s : State) (id : Nat) : Nat := bitsOf (s.portWord (s.activeBank 1) id) 11 8
def State.allPart (s : State) (id : Nat) : Bool := bitAt (s.portWord (s.activeBank 1) id) 12

/-- A hub is in reset (R441). -/
def State.unitInReset (s : State) (unit idx : Nat) : Bool :=
  s.boot.resets.any fun u => u.unit == unit && u.index == idx && u.begun

/-- A core position is UP: an optical port by its state, 128 + s always, a hub while its link is not DOWN (R287) and it
is not in reset (R443). -/
def State.posUp (s : State) (x : Nat) : Bool :=
  if x = s.ownPos then true
  else if x < 144 then s.portState x == PS.UP
  else if x < 160 then s.fget (R.HB_LINK.WIDTH (x - 144)) != 0 && !s.unitInReset 2 (x - 144)
  else false

/-- Working width of a position that is UP (R35). -/
def State.liveWidth (s : State) (x : Nat) : Nat :=
  if x = s.ownPos then 8
  else if x < 144 then s.fget (R.OP_PORT_STATUS.WIDTH x)
  else s.fget (R.HB_LINK.WIDTH (x - 144))

/-- The width a position is charged at (R51): the working width, or the one it had when it was last UP since INIT, 8
where it never was. -/
def State.chargeWidth (s : State) (x : Nat) : Nat := if s.posUp x then s.liveWidth x else kgetD s.tt.lastWidth x 8

/-- Guaranteed limit of R35: 1,280 × W / 8. -/
def gLimit (w : Nat) : Nat := 160 * w

/-- Slots carrying cells (R35, R84): FCLK t carries a cell when t mod 8 < W. -/
def slotOpen (w t : Nat) : Bool := t % 8 < w

/-- Width of the slot mapping at a change number: the working width, and until N that before an unplanned loss (R103). -/
def State.mapWidth (s : State) (x : Nat) : Nat :=
  let p := chgPort x
  let old := s.leaving x
  if 144 ≤ x ∧ x < 160 then
    if old.isEmpty then s.fget (R.HB_LINK.WIDTH (x - 144))
    else widthOf (popCount (old.foldl bitSet (s.fget (R.HB_LINK.LANE_WORKING (x - 144)))) 8)
  else if x = s.ownPos then 8
  else if old.isEmpty then s.fget (R.OP_PORT_STATUS.WIDTH p)
  else widthOf (popCount (s.mapWl p) 8)

/-! ## Cell slots (R84, R111) -/

/-- The slot of FCLK t carried a cell out of a position or port in this frame. -/
def State.sent (s : State) (x t : Nat) : Bool := bitAt (kgetD s.sw.usedOut x 0) t

/-- The slot of FCLK t, or a later one of this frame, carried a cell into core position x: cells enter in slot order. -/
def State.came (s : State) (x t : Nat) : Bool := 2 ^ t ≤ kgetD s.sw.usedIn x 0

/-- Records a cell that leaves in the slot of FCLK t. -/
def State.useOut (s : State) (x t : Nat) : State :=
  { s with sw := { s.sw with usedOut := kupd s.sw.usedOut x 0 (bitSet · t) } }

/-- Records a cell that enters in the slot of FCLK t. -/
def State.useIn (s : State) (x t : Nat) : State :=
  { s with sw := { s.sw with usedIn := kupd s.sw.usedIn x 0 (bitSet · t) } }

/-- No alignment repeats on the port (R79). -/
def State.steady (s : State) (p : Nat) : Bool := (kget s.tb.realign p).isNone

/-- The first slot of this frame in which a port can still send a cell. -/
def State.firstSlot (s : State) (p : Nat) : Option Nat :=
  let w := s.mapWidth (chgPos p)
  let used := kgetD s.sw.usedOut (chgPos p) 0
  if s.trained p && s.steady p then (List.range 1600).find? fun t => slotOpen w t && !bitAt used t else none

/-- Sends a cell in a slot of a port. -/
def State.portCell (s : State) (p t : Nat) (c : Cell) : State := (s.useOut (chgPos p) t).emit (.cell p t c)

/-- A link management cell or a heartbeat: four of them leave a port in a frame (R98, R457). -/
def isLinkCell (c : Cell) : Bool := c.typ == 0x40 || (c.typ == 0x31 && c.dst == 1023)

/-- The next cell of a port's queue that may go: link cells within their four, others while the port is UP. -/
def State.queuedCell (s : State) (p : Nat) : Option Cell :=
  (s.port p).sendQ.find? fun c => if isLinkCell c then (s.port p).mgmtSent < 4 else s.portState p == 5

/-- Sends a queued cell in a slot. -/
def State.sendQueued (s : State) (p t : Nat) (c : Cell) : State :=
  let x := s.port p
  (s.setPort p { x with sendQ := x.sendQ.erase c, mgmtSent := x.mgmtSent + (if isLinkCell c then 1 else 0) }).portCell p t c

/-- An uplink or a chiplet port sends what waits, one cell in each free slot of the frame. -/
def State.portPump (s : State) (p : Nat) : State :=
  if p < 144 then s
  else s.forEach (s.port p).sendQ fun s _ =>
    match s.queuedCell p, s.firstSlot p with
    | some c, some t => s.sendQueued p t c
    | _, _ => s

/-- A cell waits for a slot of a port; the core's outputs send in their own steps. -/
def State.portSend (s : State) (p : Nat) (c : Cell) : State :=
  let x := s.port p
  (s.setPort p { x with sendQ := x.sendQ ++ [c] }).portPump p

/-! ## Groups (R234, R235) -/

/-- Word 0 of a group entry; 0 where R455 voids it. -/
def State.groupWord (s : State) (b g : Nat) : Nat :=
  let a := R.GROUP0.addr b g
  if (List.range 7).any fun k => s.eccBad 2 (a + 8 * k) then 0 else (s.reg a).toNat

/-- Members of a group in ascending order of id; the rank of a member is its index (R235). -/
def State.groupMembers (s : State) (b g : Nat) : List Nat :=
  (List.range 6).flatMap fun k => (bitList (s.reg (R.GROUP0.addr b g + 8 * (k + 1))).toNat 64).map (· + 64 * k)

def State.groupValid (s : State) (b g : Nat) : Bool := bitAt (s.groupWord b g) 0
def State.groupPart (s : State) (g : Nat) : Nat := bitsOf (s.groupWord (s.activeBank 2) g) 4 1
def State.groupCtx (s : State) (g : Nat) : Nat := bitsOf (s.groupWord (s.activeBank 2) g) 10 5

/-- The group bank that will be active at a frame: the inactive one when it is ARMED for an earlier or equal frame. -/
def State.groupBankAt (s : State) (n : Nat) : Nat :=
  if (s.swapSt 2).armed.any fun q => q.n ≤ n then s.inactiveBank 2 else s.activeBank 2

/-- Members of a group of the active bank. -/
def State.members (s : State) (g : Nat) : List Nat := s.groupMembers (s.activeBank 2) g

/-- The distinct positions of a group's members. -/
def State.groupPositions (s : State) (gb sb g : Nat) : List Nat :=
  (s.groupMembers gb g).foldl (fun l id => match s.posIn sb id with
    | some x => addNew l x
    | none => l) []

/-! ## Cell and core entries -/

/-- A cell entry of a bank (*The timetable*). -/
structure CellEntry where
  idx : Nat := 0
  src : Nat := 0
  dst : Nat := 0
  ctx : Nat := 0
  kind : Nat := 0
  cells : Nat := 0
  group : Nat := 0
  srcEp : Nat := 0
  order : Nat := 0
  deriving DecidableEq, Repr

/-- A core entry of a bank. -/
structure CoreEntry where
  idx : Nat := 0
  core : Nat := 0
  ctx : Nat := 0
  plog : Nat := 0
  phase : Nat := 0
  power : Nat := 0
  deriving DecidableEq, Repr

/-- Reads the fields of a cell entry. -/
def cellEntryOf (idx w0 w1 : Nat) : CellEntry :=
  { idx := idx, src := bitsOf w0 7 0, dst := bitsOf w0 15 8, ctx := bitsOf w0 21 16, kind := bitsOf w0 23 22,
    cells := bitsOf w0 34 24, group := bitsOf w0 47 36, srcEp := bitsOf w0 57 48, order := bitsOf w1 31 0 }

/-- The valid cell entries of a bank, in ascending index order. -/
def State.cellEntries (s : State) (b : Nat) : List CellEntry :=
  let a := bankBase 0 b
  ((s.regsIn a (a + 0x40000)).filter fun e =>
    e.1 % 16 == 0 && bitAt e.2.toNat 35 && !(b == s.activeBank 0 && (s.eccBad 0 e.1 || s.eccBad 0 (e.1 + 8)))).map
    fun e => cellEntryOf ((e.1 - a) / 16) e.2.toNat (s.reg (e.1 + 8)).toNat

/-- The valid core entries of a bank, in ascending index order. -/
def State.coreEntries (s : State) (b : Nat) : List CoreEntry :=
  let a := bankBase 0 b + 0x40000
  ((s.regsIn a (a + 0x8000)).filter fun e =>
    bitAt e.2.toNat 36 && !(b == s.activeBank 0 && s.eccBad 0 e.1)).map fun e =>
    let w := e.2.toNat
    { idx := (e.1 - a) / 8, core := bitsOf w 7 0, ctx := bitsOf w 13 8, plog := bitsOf w 16 14,
      phase := bitsOf w 23 17, power := bitsOf w 35 24 }

/-! ## Charges (R51) -/

/-- The positions at which an entry charges OUT. -/
def State.outPositions (s : State) (gb sb : Nat) (e : CellEntry) : List Nat :=
  if e.kind = 1 then s.groupPositions gb sb e.group else [e.dst]

/-- IN(x): CELLS of the entries with SRC_POS = x. -/
def inCharge (es : List CellEntry) (x : Nat) : Nat :=
  (es.filter (·.src == x)).foldl (fun a e => a + e.cells) 0

/-- The distinct (GROUP, CONTEXT) pairs of the REDUCE entries to x, each with its largest CELLS. -/
def reducePairs (es : List CellEntry) (x : Nat) : KV Nat :=
  (es.filter fun e => e.kind == 2 && e.dst == x).foldl (fun m e => kupd m (e.group * 64 + e.ctx) 0 (max · e.cells)) []

/-- OUT(x): UNICAST entries to x, MULTICAST entries with a member at x, and the largest CELLS of each REDUCE pair. -/
def State.outCharge (s : State) (gb sb : Nat) (es : List CellEntry) (x : Nat) : Nat :=
  (es.filter fun e => e.kind == 0 && e.dst == x).foldl (fun a e => a + e.cells) 0
    + (es.filter fun e => e.kind == 1 && (s.groupPositions gb sb e.group).contains x).foldl (fun a e => a + e.cells) 0
    + (reducePairs es x).foldl (fun a e => a + e.2) 0

/-- A position whose charges exceed its guaranteed limit at a width. -/
def State.overLimit (s : State) (gb sb : Nat) (es : List CellEntry) (width : Nat → Nat) (x : Nat) : Bool :=
  gLimit (width x) < inCharge es x || gLimit (width x) < s.outCharge gb sb es x

/-- The first position in ascending order that breaks R51. -/
def State.firstOver (s : State) (gb sb : Nat) (es : List CellEntry) (width : Nat → Nat) : Option Nat :=
  (List.range 160).find? (s.overLimit gb sb es width)

/-! ## Admission state (R39, R48, R55) -/

/-- The lock state admits guaranteed cells (R39): LOCKED, or HOLDOVER for up to 64 frames. -/
def State.lockAdmits (s : State) : Bool :=
  s.lock == LK.LOCKED || (s.lock == LK.HOLDOVER && s.tb.holdFor ≤ 64)

/-- R55: guaranteed cells are admitted only in SERVICE and DEGRADED, while the lock state admits them, and not in the
frames R48 bars. -/
def State.admitsG (s : State) : Bool :=
  (s.sled == SS.SERVICE || s.sled == SS.DEGRADED) && s.lockAdmits && !s.slipBarred

end Sys2Proof.Machine
end

