-- ==== Sys2Proof/Machine/Timetable.lean ====
section
/-! DEFINITION. Table loads, bank checks, swaps and copies, and the capacity revision (R49 to R54, R60, R61, R67 to
R73, R138, R234, R236, R382, R414, R455). -/

namespace Sys2Proof.Machine

/-- Type codes of R87 used by what the sled sends. -/
def typSTATUS : Nat := 0x31

/-- A control-class STATUS cell of the control processor with a payload. -/
def State.statusCell (s : State) (dst ctx : Nat) (payload : List Byte) : Cell :=
  { typ := typSTATUS, cls := 2, dst := dst, src := 384 + s.plane, ctx := ctx, payload := lineOf payload }

/-- A command that has been started holds its tag (R406); one presented directly takes it here. -/
def State.begin (s : State) (r : CmdReq) : State :=
  if (s.findTag r.owner r.tag).isSome then s
  else { s with host := { s.host with tags := s.host.tags ++
    [{ owner := r.owner, tag := r.tag, seqn := r.seqn, opcode := r.opcode, ctx := r.ctx, notify := r.notify, route := r.route }] } }

/-! ## Loads (R414) -/

/-- A load or swap of a bank is refused with ST_BUSY (R60, R72). -/
def State.bankBusy (s : State) (fam : Nat) : Bool := s.bankState fam != 0 || (s.swapSt fam).checking.isSome

/-- Every address of a bank that can hold an entry. -/
def bankWords (fam b : Nat) : List Nat :=
  match fam with
  | 1 => (List.range 416).map fun i => R.PORT_TABLE.addr b i
  | _ => []

/-- Zeroes a whole bank (CLEAR of R414); ALL_PART of ids 384 to 415 is 1 whatever is loaded (R135). -/
def State.clearBank (s : State) (fam b : Nat) : State :=
  let a := bankBase fam b
  (s.resetRegs a (a + bankSize fam)).forEach (bankWords fam b) fun s w =>
    s.setReg w (if a + 8 * 384 ≤ w then 4096#64 else 0#64)

/-- Record size of a load. -/
def recSize (fam : Nat) : Nat :=
  match fam with
  | 0 => 24
  | 1 => 16
  | _ => 64

/-- The type byte and index of a record lie in range. -/
def recOk (fam : Nat) (r : List Byte) : Bool :=
  let i := field r 0 2
  let t := field r 2 1
  match fam with
  | 0 => (t == 0 && i < 16384) || (t == 1 && i < 4096)
  | 1 => (t == 0 && i < 416) || (t == 1 && i < 4096)
  | _ => i < 4096

/-- Bits of a register that its table names: a load ignores the others (R9). -/
def definedBits (addr v : Nat) : Nat :=
  (regFields addr).foldl (fun a f => a + bitsOf v f.hi f.lo * 2 ^ f.lo) 0

/-- Writes one record into bank b. MEMBERS of a group is counted by the sled; a group's reserved bits stay for the
check of R234. -/
def State.putRec (s : State) (fam b : Nat) (r : List Byte) : State :=
  let i := field r 0 2
  let w (k : Nat) : Nat := field r (8 + 8 * k) 8
  match fam with
  | 0 =>
    if field r 2 1 = 0 then
      let a := R.CELL0.addr b i
      (s.setReg a (BitVec.ofNat 64 (definedBits a (w 0)))).setReg (a + 8) (BitVec.ofNat 64 (definedBits (a + 8) (w 1)))
    else
      let a := R.CORE_ENTRY.addr b i
      s.setReg a (BitVec.ofNat 64 (definedBits a (w 0)))
  | 1 =>
    let a := if field r 2 1 = 0 then R.PORT_TABLE.addr b i else R.FAR_WINDOW.addr b i
    let v := definedBits a (w 0)
    s.setReg a (BitVec.ofNat 64 (if field r 2 1 = 0 ∧ 384 ≤ i then bitSet v 12 else v))
  | _ =>
    let a := R.GROUP0.addr b i
    let n := (List.range 6).foldl (fun n k => n + popCount (w (k + 1)) 64) 0
    let w0 := splice (w 0) 18 11 n
    (s.setReg a (BitVec.ofNat 64 w0)).forEach (List.range 6) fun s k =>
      s.setReg (a + 8 * (k + 1)) (BitVec.ofNat 64 (w (k + 1)))

/-- The records of a load. -/
def recsOf (fam : Nat) (p : List Byte) : List (List Byte) :=
  (List.range (field p 0 4)).map fun k => bytesAt p (8 + recSize fam * k) (recSize fam)

/-- A load's payload is well formed (R414). -/
def loadOk (fam : Nat) (p : List Byte) : Bool :=
  p.length == 8 + recSize fam * field p 0 4 && (recsOf fam p).all (recOk fam)

/-- Writes the records of a load into the inactive bank. -/
def State.doLoad (s : State) (fam : Nat) (p : List Byte) : State :=
  let b := s.inactiveBank fam
  let s := s.when (bitAt (field p 4 1) 0) (·.clearBank fam b)
  s.forEach (recsOf fam p) fun s r => s.putRec fam b r

/-- What DRAIN refuses with ST_BUSY (R439), and HALT with ST_THERMAL where R468 names the command. -/
def State.drainRefusal (s : State) (thermal : Bool) : Option Nat :=
  if s.sled = SS.DRAIN then some ST.BUSY
  else if thermal && (s.power.haltTemp || s.power.inputLoss) then some ST.THERMAL
  else none

/-- Step 2 of R60: receipt of a swap request. -/
def State.swapRequest (s : State) (fam : Nat) (r : CmdReq) : State :=
  match s.drainRefusal (fam == 0) with
  | some st => s.answerSt r st
  | none =>
  if s.bankBusy fam then s.answerSt r ST.BUSY
  else if r.arg < s.now + 16 then s.answerSt r ST.BAD_PARAM
  else
    (s.setSwapSt fam { s.swapSt fam with
      checking := some { n := r.arg, owner := r.owner, tag := r.tag, got := s.now } }).pend r r.arg

/-- A table load (R414); with COMMIT the swap follows the records. -/
def State.tableLoad (s : State) (fam : Nat) (r : CmdReq) : State :=
  if s.bankBusy fam || (s.sled == SS.DRAIN && r.commit && fam != 0) then s.answerSt r ST.BUSY
  else if !loadOk fam r.payload then s.answerSt r ST.BAD_PARAM
  else
    let s := s.doLoad fam r.payload
    if r.commit && fam != 0 then s.swapRequest fam r else s.answerSt r ST.OK

/-- Meaning of TIMETABLE_LOAD. -/
def execTimetableLoad (r : CmdReq) (s : State) : Res := .next ((s.begin r).tableLoad 0 r)

/-- Meaning of SIGNPOST_LOAD. -/
def execSignpostLoad (r : CmdReq) (s : State) : Res := .next ((s.begin r).tableLoad 1 r)

/-- Meaning of GROUP_LOAD. -/
def execGroupLoad (r : CmdReq) (s : State) : Res := .next ((s.begin r).tableLoad 2 r)

/-- Meaning of TIMETABLE_SWAP. -/
def execTimetableSwap (r : CmdReq) (s : State) : Res := .next ((s.begin r).swapRequest 0 r)

/-! ## Checks -/

/-- A valid cell entry that R53 refuses. -/
def State.badCell (s : State) (e : CellEntry) : Bool :=
  159 < e.src || e.kind == 3 || e.cells == 0 || 1280 < e.cells
    || (e.kind != 1 && (159 < e.dst || e.src == e.dst)) || (e.kind == 1 && e.dst != 0)
    || (e.kind == 0 && e.group != 0)
    || (if e.src = s.ownPos then e.srcEp != 384 + s.plane && e.srcEp != 400 + s.plane else e.srcEp != 0)

/-- A valid core entry that R53 refuses. -/
def badCore (e : CoreEntry) : Bool := 2 ^ e.plog ≤ e.phase

/-- Two core entries of one core collide (R52). -/
def collide (a b : CoreEntry) : Bool :=
  a.idx != b.idx && a.core == b.core && a.phase % 2 ^ min a.plog b.plog == b.phase % 2 ^ min a.plog b.plog

/-- The first core with colliding entries, in ascending order. -/
def firstCollision (es : List CoreEntry) : Option Nat :=
  (List.range 256).find? fun c => es.any fun a => a.core == c && es.any (collide a)

/-- Summed POWER of the entries whose quantum falls in frame f mod 128. -/
def powerAt (es : List CoreEntry) (f : Nat) : Nat :=
  (es.filter fun e => f % 2 ^ e.plog == e.phase).foldl (fun a e => a + e.power) 0

/-- The first f that breaks the power condition of R52. -/
def State.firstPower (s : State) (es : List CoreEntry) : Option Nat :=
  (List.range 128).find? fun f => s.fget R.TB_POWER.LIMIT < s.fget R.TB_POWER.FLOOR + powerAt es f

/-- A core entry smaller than the STEP_POWER of the reserved kernel started under it (R382). -/
def State.weakEntry (s : State) (e : CoreEntry) : Bool :=
  s.fget (R.CO_KSTATE.STATE e.core e.ctx) == 2 && s.fget (R.CO_KSTATE.KIND e.core e.ctx) == 0
    && e.power < s.fget (R.CO_KSTATE.STEP_POWER e.core e.ctx)

/-- An inactive bank's first uncorrectable word, as an entry number (R455). -/
def State.firstBadWord (s : State) (fam : Nat) : Option Nat :=
  let a := bankBase fam (s.inactiveBank fam)
  ((s.swapSt fam).eccBad.find? fun x => a ≤ x && x < a + bankSize fam).map fun x =>
    match fam with
    | 0 => if x - a < 0x40000 then (x - a) / 16 else 16384 + (x - a - 0x40000) / 8
    | 1 => if x - a < 0x10000 then (x - a) / 8 else (x - a - 0x10000) / 8
    | _ => (x - a) / 64

/-- The timetable check (R51 to R53, R382): the refusal and its progress. -/
def State.checkTimetable (s : State) (n : Nat) : Option (Nat × Nat) :=
  let b := s.inactiveBank 0
  let es := s.cellEntries b
  let cs := s.coreEntries b
  match es.find? s.badCell with
  | some e => some (ST.BAD_PARAM, e.idx)
  | none =>
  match cs.find? badCore with
  | some e => some (ST.BAD_PARAM, 16384 + e.idx)
  | none =>
  match s.firstOver (s.groupBankAt n) (s.activeBank 1) es s.chargeWidth with
  | some x => some (ST.REFUSED_FIT, x)
  | none =>
  match firstCollision cs with
  | some c => some (ST.REFUSED_FIT, 256 + c)
  | none =>
  match s.firstPower cs with
  | some f => some (ST.REFUSED_POWER, f)
  | none =>
  match (List.range 256).find? fun c => cs.any fun e => e.core == c && s.weakEntry e with
  | some c => some (ST.REFUSED_POWER, 256 + c)
  | none => none

/-- The signpost check for frame n (R51, R138). -/
def State.checkSignpost (s : State) (n : Nat) : Option (Nat × Nat) :=
  let b := s.inactiveBank 1
  let badPos := (List.range 416).any fun i => 159 < (s.reg (R.PORT_TABLE.addr b i)).toNat % 256
  let a := R.FAR_WINDOW.addr b 0
  let badWin := (s.regsIn a (a + 0x8000)).any fun e =>
    let w := e.2.toNat
    bitAt w 36 && (bitsOf w 7 0 == s.rack || 2 ≤ bitsOf w 9 8)
  if badPos || badWin then some (ST.BAD_PARAM, 0)
  else if (s.firstOver (s.groupBankAt n) b (s.cellEntries (s.activeBank 0)) s.chargeWidth).isSome then
    some (ST.REFUSED_FIT, 0)
  else none

/-- The group check (R54, R234). -/
def State.checkGroups (s : State) : Option (Nat × Nat) :=
  let b := s.inactiveBank 2
  let a := bankBase 2 b
  let bad := (s.regsIn a (a + bankSize 2)).any fun e =>
    let n := (s.groupMembers b ((e.1 - a) / 64)).length
    e.1 % 64 == 0 && bitAt e.2.toNat 0 && (n == 0 || 160 < n || e.2.toNat / 2 ^ 19 != 0)
  let rsv := (s.regsIn a (a + bankSize 2)).any fun e =>
    let g := (e.1 - a) / 64
    e.1 % 64 != 0 && bitAt (s.reg (R.GROUP0.addr b g)).toNat 0 && (s.groupMembers b g).length == 0
  if bad || rsv then some (ST.BAD_PARAM, 0)
  else if (s.firstOver b (s.activeBank 1) (s.cellEntries (s.activeBank 0)) s.chargeWidth).isSome then
    some (ST.REFUSED_FIT, 0)
  else none

/-- The check of a bank family's inactive bank for frame n. -/
def State.checkBank (s : State) (fam n : Nat) : Option (Nat × Nat) :=
  match s.firstBadWord fam with
  | some e => some (ST.BAD_PARAM, e)
  | none =>
    match fam with
    | 0 => s.checkTimetable n
    | 1 => s.checkSignpost n
    | _ => s.checkGroups

/-- The check of a swap ends (step 2 of R60): ARMED, or BUILDING with the command's refusal. -/
def State.swapCheckDone (s : State) (fam : Nat) : State :=
  match (s.swapSt fam).checking with
  | none => s
  | some q =>
    let s' := s.setSwapSt fam { s.swapSt fam with checking := none }
    match s.checkBank fam q.n with
    | some (st, pr) => s'.complete q.owner q.tag st pr []
    | none =>
      let s' := (s'.setSwapSt fam { s'.swapSt fam with armed := some q }).fset (bankStateFld fam) 1
      s'.when (fam == 0) (·.fset R.TB_SWAP_FRAME.FRAME q.n)

/-- Meaning of SWAP_CHECK_DONE. -/
def execSwapCheckDone (bank : Nat) (s : State) : Res := .next (if bank < 3 then s.swapCheckDone bank else s)

/-! ## Swaps and copies -/

/-- Credits of the active bank (R56). -/
def State.grantCredits (s : State) : State :=
  { s with tt := { s.tt with credits := (s.cellEntries (s.activeBank 0)).map fun e => (e.idx, e.cells) } }

/-- TB_BANK's counts and TB_POWER's peak for the active bank. -/
def State.bankFigures (s : State) : State :=
  let b := s.activeBank 0
  let cs := s.coreEntries b
  ((s.fset R.TB_BANK.CELL_ENTRIES (s.cellEntries b).length).fset R.TB_BANK.CORE_ENTRIES cs.length).fset
    R.TB_POWER.RESERVED_PEAK ((List.range 128).foldl (fun m f => max m (powerAt cs f)) 0)

/-- A table changed: its hash is due (R502). -/
def State.tableDirty (s : State) (t : Nat) : State := { s with si := { s.si with dirty := addNew s.si.dirty t } }

/-- The route epoch rises at a frame boundary, once however many changes it counts (R140). -/
def State.epochRise (s : State) : State :=
  if s.sg.epochAt = some s.now then { s with sg := { s.sg with epochDue := false } }
  else
    let s := s.fset R.SG_STATUS.EPOCH (s.fget R.SG_STATUS.EPOCH + 1)
    { s with sg := { s.sg with epochDue := false, epochAt := some s.now } }.almAdd 2 0 60 1

/-- The banks of a family exchange roles (step 4 of R60) and COPYING begins. -/
def State.exchange (s : State) (fam : Nat) : State :=
  let s := (s.fset (bankActiveFld fam) (1 - s.activeBank fam)).fset (bankStateFld fam) 2
  let s := (s.setSwapSt fam { s.swapSt fam with armed := none, copyUntil := s.now + 4 }).tableDirty fam
  match fam with
  | 0 => ((s.fset R.TB_SWAP_FRAME.FRAME 0).grantCredits).bankFigures
  | 1 => s.epochRise
  | _ => s

/-- A group differs between the banks: members, partition, context (R236). -/
def State.groupDiffers (s : State) (g : Nat) : Bool :=
  (List.range 7).any fun k => s.reg (R.GROUP0.addr 0 g + 8 * k) != s.reg (R.GROUP0.addr 1 g + 8 * k)

/-- Slots whose instance is not FREE. -/
def State.busySlots (s : State) : List Nat :=
  (s.regsIn 0x3200000 0x3220000).filterMap fun e =>
    if e.1 % 16 = 0 ∧ e.2.toNat % 4 ≠ 0 then some ((e.1 - 0x3200000) / 16) else none

/-- At FCLK 0 of N an ARMED bank becomes active (R60); a group swap that would change a group in use is abandoned with
ST_BUSY (R236). -/
def State.bankSwap (s : State) (fam : Nat) : State :=
  match (s.swapSt fam).armed with
  | none => s
  | some q =>
    if s.now < q.n then s
    else if fam = 2 ∧ s.busySlots.any fun n => s.groupDiffers (s.fget (R.RD_INST0.GROUP n)) then
      ((s.setSwapSt 2 { s.swapSt 2 with armed := none }).fset (bankStateFld 2) 0).complete q.owner q.tag ST.BUSY 0 []
    else (s.exchange fam).complete q.owner q.tag ST.OK 0 []

/-- Meaning of BANK_SWAP. -/
def execBankSwap (bank : Nat) (s : State) : Res := .next (if bank < 3 then s.bankSwap bank else s)

/-- The copy ends at N + 5 and the inactive bank is BUILDING with the active contents (step 5 of R60). -/
def State.bankCopyDone (s : State) (fam : Nat) : State :=
  if s.bankState fam = 2 ∧ (s.swapSt fam).copyUntil < s.now then
    let d := bankBase fam (s.inactiveBank fam)
    let x := s.swapSt fam
    ((s.copyBank fam (s.activeBank fam)).setSwapSt fam { x with
      eccBad := x.eccBad.filter fun a => !(d ≤ a && a < d + bankSize fam) }).fset (bankStateFld fam) 0
  else s

/-- Meaning of BANK_COPY_DONE. -/
def execBankCopyDone (bank : Nat) (s : State) : Res := .next (if bank < 3 then s.bankCopyDone bank else s)

/-! ## When capacity falls (R67 to R73) -/

/-- Width a revision checks position x at: the lowest any pending change gives it (R72). -/
def State.revWidth (s : State) (x : Nat) : Nat :=
  if s.posUp x then s.tt.changes.foldl (fun w c => if c.pos = x then min w c.width else w) (s.chargeWidth x)
  else s.chargeWidth x

/-- The entry to remove next (R69): the highest ORDER among all entries charged at an over-limit position, ties to the
higher index. Groups count with the members they have in frame n, in which the revised bank becomes active (assumption
135). -/
def State.newestOver (s : State) (n : Nat) (es : List CellEntry) : Option CellEntry :=
  let gb := s.groupBankAt n
  let sb := s.activeBank 1
  let full := (List.range 160).filter (s.overLimit gb sb es s.revWidth)
  (es.filter fun e => full.contains e.src || (s.outPositions gb sb e).any (full.contains ·)).foldl
    (fun m e => match m with
      | none => some e
      | some x => if x.order < e.order ∨ (x.order = e.order ∧ x.idx < e.idx) then some e else some x) none

/-- Removes entries until every position fits (R69): the entries kept and the entries removed, newest first. -/
def State.fitEntries (s : State) (at_ : Nat) : Nat → List CellEntry → List CellEntry × List CellEntry
  | 0, es => (es, [])
  | n + 1, es =>
    match s.newestOver at_ es with
    | none => (es, [])
    | some e =>
      let r := s.fitEntries at_ n (es.filter (·.idx != e.idx))
      (r.1, e :: r.2)

/-- The source end-point of an entry, for its demotion notice (R70): none at a mesh position. -/
def State.entrySource (s : State) (e : CellEntry) : Option Nat :=
  if e.src < 128 then some e.src
  else if e.src = s.ownPos then some e.srcEp
  else if 144 ≤ e.src then some (128 + 16 * s.plane + (e.src - 144))
  else none

/-- One entry is demoted (R70): the ring, the notice, the alert, the Almanac. -/
def State.demote (s : State) (frame : Nat) (e : CellEntry) : State :=
  let h := s.fget R.TB_BANK.DEMOTE_HEAD
  let s := (((s.fset (R.TB_DEMOTE.ENTRY h) e.idx).fset (R.TB_DEMOTE.VALID h) 1).fset (R.TB_DEMOTE.ORDER h)
    e.order).fset (R.TB_DEMOTE.FRAME h) frame
  let s := (s.fset R.TB_BANK.DEMOTE_HEAD (h + 1)).finc R.TB_BANK.DEMOTE_TOTAL 1
  let s := match s.entrySource e with
    | none => s
    | some d => s.ownSend (s.statusCell d e.ctx
        (leBytes 0x10 1 ++ leBytes e.kind 1 ++ leBytes e.dst 1 ++ leBytes e.ctx 1 ++ leBytes e.group 2
          ++ leBytes e.idx 2 ++ leBytes e.order 4 ++ leBytes 0 4 ++ leBytes frame 8))
  (s.alert 1).almAdd 2 0 56 1

/-- A swap that has not completed is abandoned (R71). -/
def State.abandonSwap (s : State) (pos : Nat) : State :=
  let x := s.swapSt 0
  let s' := (s.setSwapSt 0 { x with checking := none, armed := none }).fset R.TB_SWAP_FRAME.FRAME 0
  match x.checking, x.armed with
  | some q, _ => s'.complete q.owner q.tag ST.REFUSED_FIT pos []
  | none, some q => s'.complete q.owner q.tag ST.REFUSED_FIT pos []
  | none, none => s

/-- Runs or restarts the revision for every pending change (R67 to R72). -/
def State.revise (s : State) : State :=
  let cs := s.tt.changes.filter (·.pos < 160)
  match cs with
  | [] => s
  | c :: t =>
    let pos := t.foldl (fun m c => min m c.pos) c.pos
    let at_ := t.foldl (fun m c => min m c.n) c.n
    let s := s.abandonSwap pos
    let s := (s.copyBank 0 (s.activeBank 0)).fset R.TB_BANK.INACTIVE_STATE 3
    let es := s.cellEntries (s.activeBank 0)
    let rm : List CellEntry := (s.fitEntries at_ es.length es).2
    let b := s.inactiveBank 0
    let s := s.forEach rm fun s e => s.fset (R.CELL0.VALID b e.idx) 0
    { s with tt := { s.tt with reviseAt := some at_, removed := rm.map (fun (e : CellEntry) => e.idx) } }

/-- A width change is decided (R67, R68, R72): it joins the pending ones, the earlier frame governing (R103), and the
revision runs. A planned change that the active bank already fits after a revision changes no bank (R72). -/
def State.decideWidth (s : State) (c : WidthChange) : State :=
  let old := s.tt.changes.find? fun d => d.pos == c.pos && d.wl == c.wl
  let c := match old with
    | some d => { c with n := min c.n d.n, sending := c.sending || d.sending }
    | none => c
  let s := { s with tt := { s.tt with
    changes := (s.tt.changes.filter fun d => !(d.pos == c.pos && d.wl == c.wl)) ++ [c] } }
  if c.pos < 160 && s.posUp c.pos then s.revise else s

/-- The revised bank becomes active (R67, R68), COPYING begins (R71) and the entries removed are demoted (R70). -/
def State.activateRevised (s : State) : State :=
  match s.tt.reviseAt with
  | none => s
  | some n =>
    if s.bankState 0 = 3 ∧ n ≤ s.now then
      let es := s.cellEntries (s.activeBank 0)
      let rm : List CellEntry := s.tt.removed.filterMap fun i => es.find? (·.idx == i)
      let s := { s with tt := { s.tt with reviseAt := none, removed := [] } }
      (s.exchange 0).forEach rm fun s e => s.demote s.now e
    else s

end Sys2Proof.Machine
end

