-- ==== Sys2Proof/Machine/Cells.lean ====
section
/-! DEFINITION. What a cell is to the units that handle it: types, format rules, answers, sequence windows, GONE marks,
the instance its SLOT names (R85 to R88, R109, R121, R165 to R168, R175, R178, R237, R244, R465). -/

namespace Sys2Proof

open Machine

/-! ## Types (R87) -/

namespace T
def IDLE : Nat := 0x00
def READ : Nat := 0x01
def WRITE : Nat := 0x02
def ATOMIC : Nat := 0x03
def RESPONSE : Nat := 0x04
def ACK : Nat := 0x05
def NACK : Nat := 0x06
def JOIN : Nat := 0x10
def CONTRIB : Nat := 0x11
def RESULT : Nat := 0x12
def BCAST : Nat := 0x13
def INVALIDATE : Nat := 0x20
def COMMAND : Nat := 0x30
def STATUS : Nat := 0x31
def HEARTBEAT : Nat := 0x40
def PATTERN : Nat := 0x50
end T

/-- The cell has the collective layout (R85). -/
def Cell.collective (c : Cell) : Bool := 0x10 ≤ c.typ && c.typ ≤ 0x13

/-- The classes R87 allows a type; none for a reserved type. 0 guaranteed, 1 best-effort, 2 control. -/
def typeClasses (t : Nat) : List Nat :=
  if t = T.IDLE then [0]
  else if t = T.READ ∨ t = T.WRITE ∨ t = T.ATOMIC ∨ t = T.RESPONSE then [0, 1]
  else if t = T.ACK ∨ t = T.NACK ∨ t = T.STATUS ∨ t = T.HEARTBEAT then [2]
  else if t = T.JOIN ∨ t = T.CONTRIB ∨ t = T.RESULT ∨ t = T.BCAST then [0, 1]
  else if t = T.INVALIDATE ∨ t = T.PATTERN then [0, 1, 2]
  else if t = T.COMMAND then [1, 2]
  else []

/-- Bytes of a length code (R85); 0 for a reserved one. -/
def lenBytes (l : Nat) : Nat := if l ≤ 8 then 2 ^ l else 0

/-- Cells of an access (R85). -/
def lenCells (l : Nat) : Nat := if l = 7 then 2 else if l = 8 then 4 else 1

/-! ## The 80 bytes of a cell (R3, R77, R85) -/

/-- The 16 header bytes, multi-byte fields little-endian. -/
def Cell.header (c : Cell) : List Byte :=
  leBytes c.typ 1 ++ leBytes (min 63 c.age + c.cls % 4 * 64) 1 ++
  leBytes (if c.collective then c.slot % 2 ^ 13 + c.rsv % 8 * 2 ^ 13
    else c.dst % 2 ^ 10 + c.opmod % 16 * 2 ^ 10 + c.rsv % 4 * 2 ^ 14) 2 ++
  leBytes (c.src % 2 ^ 10 + c.ctx % 64 * 2 ^ 10) 2 ++ leBytes c.seq 2 ++
  (if c.collective then leBytes c.chunk 4 ++ leBytes c.scales 4
   else leBytes (c.offset % 2 ^ 44 + c.len % 16 * 2 ^ 44) 6 ++
    leBytes ((if c.fetch then 1 else 0) + c.hint % 4 * 2 + c.subtype % 16 * 8 + (if c.retx then 128 else 0) + c.part % 4 * 256
      + c.rsv / 8 % 64 * 2 ^ 10) 2)

/-- Header and payload. -/
def Cell.image (c : Cell) : List Byte := c.header ++ lineBytes c.payload

/-- The cell that 80 bytes hold. -/
def Cell.ofImage (l : List Byte) : Cell :=
  let w := field l 2 2
  let x := field l 8 6
  let y := field l 14 2
  let base : Cell :=
    { typ := field l 0 1, cls := field l 1 1 / 64, age := field l 1 1 % 64, src := field l 4 2 % 2 ^ 10
      ctx := field l 4 2 / 2 ^ 10, seq := field l 6 2, payload := lineOf (bytesAt l 16 64) }
  if base.collective then
    { base with slot := w % 2 ^ 13, rsv := w / 2 ^ 13, chunk := field l 8 4, scales := field l 12 4 }
  else
    { base with dst := w % 2 ^ 10, opmod := bitsOf w 13 10, offset := x % 2 ^ 44, len := x / 2 ^ 44, fetch := bitAt y 0
                hint := bitsOf y 2 1, subtype := bitsOf y 6 3, retx := bitAt y 7, part := bitsOf y 9 8
                rsv := w / 2 ^ 14 + y / 2 ^ 10 * 8 }

/-- The 64 data symbols of a cell: byte 0 first, bit 0 of each byte first. -/
def Cell.symbols (c : Cell) : List Nat := (List.range 64).map fun i => bitsOf (leNat c.image) (10 * i + 9) (10 * i)

/-- The data symbols of one frame on one wavelength (R77): the frame word, 200 cells, where none is sent IDLE cells, and a
fill symbol where the schedule names one. -/
def frameSymbols (word : Nat) (cells : Nat → Cell) (fill : Bool) : List Nat :=
  [bitsOf word 9 0, bitsOf word 19 10] ++ (List.range 200).flatMap (fun i => (cells i).symbols) ++ (if fill then [0] else [])

/-! ## What R88 discards -/

/-- An IDLE cell has all fields zero, and a READ no payload (R87). -/
def Cell.idleOrReadBad (c : Cell) : Bool :=
  if c.typ = T.IDLE then c != {} else c.typ == T.READ && c.payload != 0

/-- A port discards the cell (R88): reserved TYPE, CLASS or LEN, a class its type does not allow, a nonzero field that
must be zero. -/
def Cell.malformed (c : Cell) : Bool :=
  !(typeClasses c.typ).contains c.cls || (!c.collective && 8 < c.len) || c.rsv != 0 || (c.collective && 8191 < c.slot)
    || c.idleOrReadBad

/-- Bytes this one cell covers: at most 64 (R86). -/
def Cell.bytes (c : Cell) : Nat := min 64 (lenBytes c.len)

/-- The line of the cell's OFFSET. -/
def Cell.line (c : Cell) : Nat := c.offset / 64

/-- The mask of the bytes of its line that the cell covers. -/
def Cell.mask (c : Cell) : Nat := lineMask (c.offset % 64) c.bytes

/-- Length and place are allowed (R165): 128 and 256 bytes aligned to their size with each part at its own offset, at
most 64 bytes within one line. -/
def Cell.placeOk (c : Cell) : Bool :=
  if c.len ≤ 6 then c.offset % 64 + lenBytes c.len ≤ 64 && c.part == 0
  else c.len ≤ 8 && c.part < lenCells c.len && c.offset % lenBytes c.len == 64 * c.part

/-- The CAS and the fetching atomics. -/
def Cell.isCas (c : Cell) : Bool := c.typ == T.ATOMIC && c.opmod == 3

/-- What R165 allows a home to perform. -/
def Cell.allowed (c : Cell) : Bool :=
  if c.typ = T.READ then c.placeOk && c.opmod ≤ 1
  else if c.typ = T.WRITE then c.placeOk
  else if c.typ = T.ATOMIC then
    let w := subWidth c.subtype
    atomTypeOk c.opmod c.subtype && c.placeOk && c.offset % w == 0 &&
      (if c.fetch || c.opmod == 3 then lenBytes c.len == w else w ≤ lenBytes c.len)
  else true

/-- The bytes the cell carries for its range. -/
def Cell.dataBytes (c : Cell) : List Byte := bytesAt (lineBytes c.payload) (c.offset % 64) c.bytes

namespace Machine

/-! ## Answers (R167) -/

def ackOf (c : Cell) : Cell :=
  { typ := T.ACK, cls := 2, dst := c.src, src := c.dst, ctx := c.ctx, seq := c.seq }

/-- A NACK with its payload. -/
def nackOf (c : Cell) (status : Nat) (retry : Bool) (after : Nat) : Cell :=
  { typ := T.NACK, cls := 2, dst := c.src, src := c.dst, ctx := c.ctx, seq := c.seq
    payload := lineOf (leBytes status 2 ++ leBytes (if retry then 1 else 0) 1 ++ leBytes c.typ 1 ++ leBytes after 1
      ++ leBytes c.part 1 ++ leBytes 0 2 ++ leBytes c.offset 6) }

/-- A RESPONSE carries the class, OFFSET, LEN and PART of the request and the data in place (R166). -/
def respOf (c : Cell) (data : List Byte) : Cell :=
  { typ := T.RESPONSE, cls := c.cls, dst := c.src, src := c.dst, ctx := c.ctx, seq := c.seq, offset := c.offset
    len := c.len, part := c.part
    payload := lineOf (List.replicate (c.offset % 64) 0 ++ data) }

/-- STATUS of a NACK payload. -/
def nackStatus (c : Cell) : Nat := field (lineBytes c.payload) 0 2
def nackRetry (c : Cell) : Bool := field (lineBytes c.payload) 2 1 == 1

/-! ## Sequence windows (R178) -/

/-- The plane of a cell as a hub, control-processor or Tollgate destination numbers it (R174, R175). -/
def planeOfId (id : Nat) : Nat :=
  if id < 128 then 0 else if id < 384 then (id - 128) / 16 else if id < 400 then id - 384 else id - 400

/-- The SEQ is new to the window (R178); no window makes it new (R181). -/
def winNew (w : Option SeqWin) (n : Nat) : Bool :=
  match w with
  | none => true
  | some w =>
    let d := (w.high + 65536 - n) % 65536
    32768 ≤ d || (d ≤ 4095 && !bitAt w.seen d)

/-- The window after a cell with SEQ n is accepted in a frame. -/
def winAccept (w : Option SeqWin) (n now : Nat) : SeqWin :=
  match w with
  | none => { high := n, seen := 1, last := now }
  | some w =>
    let d := (w.high + 65536 - n) % 65536
    if 32768 ≤ d then { high := n, seen := (w.seen * 2 ^ (65536 - d) + 1) % 2 ^ 4096, last := now }
    else { w with seen := bitSet w.seen d, last := now }

/-- The window after a duplicate arrived. -/
def winTouch (w : SeqWin) (now : Nat) : SeqWin := { w with last := now }

/-! ## GONE marks (R465) -/

/-- An id is GONE: a CONFIRM, LIGHT or DEPART mark is set. -/
def State.gone (s : State) (id : Nat) : Bool :=
  bitAt (s.reg (R.VG_GONE_CONFIRM.addr (id / 64))).toNat (id % 64)
    || (id < 128 && bitAt (s.reg (R.VG_GONE_LIGHT.addr (id / 64))).toNat (id % 64))
    || (128 ≤ id && id < 416 && s.sg.departMarks.contains (planeOfId id))

/-! ## Instances -/

/-- State of a slot: 0 FREE, 1 ARMED, 2 CLOSING (R239). -/
def State.slotState (s : State) (slot : Nat) : Nat := s.fget (R.RD_INST0.STATE slot)

/-- The instance of a slot that is not FREE. -/
def State.inst (s : State) (slot : Nat) : Option Inst :=
  if s.slotState slot = 0 then none else kget s.rd.insts slot

/-- The armed instance of a slot. -/
def State.armed (s : State) (slot : Nat) : Option Inst :=
  if s.slotState slot = 1 then kget s.rd.insts slot else none

/-- The root of an instance's chunks on this sled (R237): the single root, or hub h of this sled. -/
def State.rootHere (s : State) (i : Inst) : Nat :=
  if i.planeHub then 128 + 16 * s.plane + i.root else i.root

/-- The steered intermediate of R109. -/
def steerOf (slot chunk : Nat) : Nat := (61 * slot + 67 * (chunk / 16) + 10 * (chunk % 16)) % 160

/-- Plane-forwarded (R244): a JOIN or CONTRIB entering at a hub or mesh position for another plane's chunk. -/
def State.forwarded (s : State) (x : Nat) (c : Cell) : Bool :=
  (c.typ == T.JOIN || c.typ == T.CONTRIB) && 128 ≤ x && c.chunk % 16 != s.plane

/-! ## Merging (R121, R122) -/

/-- A cell is mergeable at the output of hub h (R121). -/
def State.mergeable (s : State) (h : Nat) (c : Cell) : Bool :=
  (c.typ == T.WRITE || (c.typ == T.ATOMIC && !c.fetch && c.opmod ≤ 2)) && c.allowed
    && c.offset < s.fget (R.HB_SIZE.POPULATED h) && c.hint == 0 && s.fbit R.SW_CTL.COMBINE_EN && c.cls != 2

/-- Two mergeable cells have equal keys (R122). -/
def sameKey (a b : Cell) : Bool :=
  a.cls == b.cls && a.dst == b.dst && a.ctx == b.ctx && a.line == b.line && a.typ == b.typ
    && (a.typ == T.WRITE || (a.opmod == b.opmod && a.subtype == b.subtype))

/-- Line data and byte mask of merged originals, in order. -/
structure Merged where
  data : BitVec 512 := 0
  mask : Nat := 0
  deriving DecidableEq, Repr

/-- Merges one cell (R122): later bytes win; operands of an element combine by the operation. -/
def mergeCell (m : Merged) (c : Cell) : Merged :=
  if c.typ = T.WRITE then { data := mergeLine m.data c.payload c.mask, mask := m.mask ||| c.mask }
  else
    let w := subWidth c.subtype
    let els := (List.range (64 / w)).filter fun i => bitAt c.mask (i * w)
    let d := els.foldl (fun d i =>
      let x := field (lineBytes c.payload) (i * w) w
      let o := field (lineBytes d) (i * w) w
      let v := if bitAt m.mask (i * w) then atomOp c.opmod c.subtype o x else x
      mergeLine d (lineOf (List.replicate (i * w) 0 ++ leBytes v w)) (lineMask (i * w) w)) m.data
    { data := d, mask := m.mask ||| c.mask }

/-- An entry's content. -/
def mergedOf (cs : List Cell) : Merged := cs.foldl mergeCell {}

/-! ## What does not cross a PROTO 4 link (R96) -/

def noProto4 (t : Nat) : Bool :=
  t == T.JOIN || t == T.CONTRIB || t == T.RESULT || t == T.BCAST || t == T.INVALIDATE || t == T.HEARTBEAT

end Machine
end Sys2Proof
end

