-- ==== Sys2Proof/Machine/Switch.lean ====
section
/-! DEFINITION. The switch core: admission at the inputs, the two stages, multicast copies, output queues, combining,
ageing (R55 to R59, R105 to R134, R148, R196, R244, R482, R518, R556). -/

namespace Sys2Proof.Machine

/-- Absolute FCLK of FCLK k of the current frame. -/
def State.fclk (s : State) (k : Nat) : Nat := s.now * 1600 + k

/-- Class codes of R85. -/
def clsG : Nat := 0
def clsBE : Nat := 1
def clsCtl : Nat := 2

def State.setSw (s : State) (x : Switch) : State := { s with sw := x }

/-! ## Figures (SW_DEPTH) -/

/-- SW_DEPTH of a position. -/
def State.swDepth (s : State) (x : Nat) : W64 :=
  let g := (kgetD s.sw.inG x []).length
  let b := (kgetD s.sw.inBe x []).length
  let c := (kgetD s.sw.inCtl x []).length
  let og := kgetD s.sw.outG x []
  let ob := kgetD s.sw.outBe x []
  BitVec.ofNat 64 (g % 2 ^ 9 + b % 2 ^ 10 * 2 ^ 9 + c % 2 ^ 7 * 2 ^ 19 + og.length % 2 ^ 8 * 2 ^ 26
    + ob.length % 2 ^ 8 * 2 ^ 34 + ((og ++ ob).filter (·.entry)).length % 2 ^ 7 * 2 ^ 42)

/-- Raises SW_DEPTH_MAX and the Almanac's depth extremes to the present depths. -/
def State.noteDepth (s : State) (x : Nat) : State :=
  let d := (s.swDepth x).toNat
  let s := (s.forEach [R.SW_DEPTH_MAX.IN_G x, R.SW_DEPTH_MAX.IN_BE x, R.SW_DEPTH_MAX.IN_CTL x, R.SW_DEPTH_MAX.OUT_G x,
    R.SW_DEPTH_MAX.OUT_BE x, R.SW_DEPTH_MAX.COMB x]) fun s f => s.fmax f (bitsOf d f.hi f.lo)
  (s.almMax 4 x 8 (bitsOf d 8 0)).almMax 4 x 10 (bitsOf d 18 9)

/-- A cell is discarded in the core: the Almanac's count of all causes. -/
def State.coreDrop (s : State) (f : Fld) : State := (s.finc f 1).almAdd 2 0 40 1

/-! ## Admission at the inputs -/

/-- Where a cell is bound. -/
inductive Bound where
  /-- Its steered intermediate (R108). -/
  | steer (m : Nat)
  /-- An output position. -/
  | out (p : Nat)
  /-- A multicast store (R116). -/
  | multi
  /-- Discarded and counted in SG_NOROUTE (R137, R148, R556). -/
  | noRoute
  /-- Discarded and counted in STALE (R244). -/
  | stale
  deriving DecidableEq, Repr

def Bound.ofOpt : Option Nat → Bound
  | some p => .out p
  | none => .noRoute

/-- The raw POS of an id. -/
def State.rawPos (s : State) (id : Nat) : Nat := s.portWord (s.activeBank 1) id % 256

/-- Relaying (R148): a cell that entered at a mesh position for another mesh position goes only to the port that reaches
that sled itself, never through a second relay. -/
def State.relay (s : State) (x raw : Nat) (o : Option Nat) : Bound :=
  match o with
  | none => .noRoute
  | some p =>
    if 128 ≤ x ∧ x < 144 ∧ x ≠ s.ownPos ∧ 128 ≤ p ∧ p < 144 ∧ p ≠ s.ownPos then
      if (p = raw ∨ kget s.sg.adopted raw = some p) ∧ s.posUp p then .out p else .noRoute
    else .out p

/-- Step 1 of R112: where the cell is bound. -/
def State.boundFor (s : State) (x : Nat) (c : Cell) : Bound :=
  if c.typ = T.JOIN ∨ c.typ = T.CONTRIB then
    if c.chunk % 16 = s.plane then .steer (steerOf c.slot c.chunk)
    else if x < 128 then .stale
    else s.relay x (128 + c.chunk % 16) (s.substPos (128 + c.chunk % 16))
  else if c.typ = T.BCAST then .multi
  else if c.typ = T.RESULT then
    match s.armed c.slot with
    | some i => s.relay x (s.rawPos (s.rootHere i)) (s.posOf (s.rootHere i))
    | none => .noRoute
  else s.relay x (s.rawPos c.dst) (s.posOf c.dst)

/-- Source binding of R129. -/
def State.srcOk (s : State) (x : Nat) (c : Cell) : Bool :=
  if x < 128 then c.src == x
  else if x = s.ownPos then c.src == 384 + s.plane || c.src == 400 + s.plane
  else if 144 ≤ x then c.src == 128 + 16 * s.plane + (x - 144)
  else true

/-- Partition condition of R129. A collective cell is held to its instance's group; a slot that is FREE names no
instance, and its cells pass (assumption 14). -/
def State.partOk (s : State) (c : Cell) : Bool :=
  if c.collective then
    match s.inst c.slot with
    | none => true
    | some i => s.allPart c.src || s.partOf c.src == s.groupPart i.group
  else s.allPart c.src || s.allPart c.dst || s.partOf c.src == s.partOf c.dst

/-- Places an answer of the sled's own in the guaranteed-and-control output queue of its destination's position, when
that has room; else it waits (assumption 15). -/
def State.ownAnswer (s : State) (c : Cell) : State :=
  match s.posOf c.dst with
  | none => s
  | some p =>
    if !s.posUp p then s
    else { s with sw := { s.sw with answers := kupd s.sw.answers p [] (· ++ [c]) } }

/-- R130: a partition failure. -/
def State.denyCell (s : State) (x : Nat) (c : Cell) : State :=
  let s := (s.coreDrop (R.SW_DROP_IN.PARTITION x)).almAdd 4 x 16 1
  if s.fbit R.SW_CTL.DENY_NACK ∧ (c.typ = T.READ ∨ c.typ = T.WRITE ∨ c.typ = T.ATOMIC ∨ c.typ = T.INVALIDATE ∨
      c.typ = T.COMMAND) then s.ownAnswer (nackOf c ST.DENIED false 0)
  else s

/-- R131: the destination is GONE. -/
def State.goneCell (s : State) (x : Nat) (c : Cell) : State :=
  let s := s.coreDrop (R.SW_DROP_IN.GONE x)
  if c.typ = T.READ ∨ (c.typ = T.ATOMIC ∧ (c.fetch ∨ c.opmod = 3)) then s.ownAnswer (nackOf c ST.POISON false 0)
  else s

/-- An entry of the active bank matches a guaranteed cell (R57). -/
def State.matchEntry (s : State) (x : Nat) (c : Cell) (b : Bound) (e : CellEntry) : Bool :=
  e.src == x && e.ctx == c.ctx && (x != s.ownPos || e.srcEp == c.src) &&
  (if c.typ = T.CONTRIB ∧ !s.forwarded x c then
    match s.armed c.slot with
    | some i => e.kind == 2 && e.group == i.group && s.posOf (s.rootHere i) == some e.dst
    | none => false
  else if c.typ = T.BCAST then
    match s.armed c.slot with
    | some i => e.kind == 1 && e.group == i.group
    | none => false
  else if s.forwarded x c then 144 ≤ x && e.kind == 0 && e.dst == 128 + c.chunk % 16
  else if c.typ = T.RESULT then
    match s.armed c.slot with
    | some i => e.kind == 0 && s.posOf (s.rootHere i) == some e.dst
    | none => false
  else if c.typ = T.JOIN then false
  else e.kind == 0 && b == .out e.dst)

/-- A relayed cell (R148): it entered at a mesh position and leaves at another. -/
def State.relayed (s : State) (x : Nat) (b : Bound) : Bool :=
  match b with
  | .out p => 128 ≤ x && x < 144 && x != s.ownPos && 128 ≤ p && p < 144 && p != s.ownPos
  | _ => false

/-- The entry whose credit admits a guaranteed cell: the lowest-indexed of those that match and hold one (R57; assumption
83). -/
def State.creditFor (s : State) (x : Nat) (c : Cell) (b : Bound) : Option CellEntry :=
  if s.admitsG && !s.relayed x b then
    (s.cellEntries (s.activeBank 0)).find? fun e => s.matchEntry x c b e && 0 < kgetD s.tt.credits e.idx 0
  else none

/-- Step 3 of R112: admission of a guaranteed cell (R55, R57), or its rewriting (R58). -/
def State.admitCell (s : State) (x : Nat) (c : Cell) (b : Bound) : State × Cell :=
  if c.cls ≠ clsG then (s, c)
  else
    match s.creditFor x c b with
    | some e => ({ s with tt := { s.tt with credits := kset s.tt.credits e.idx (kgetD s.tt.credits e.idx 0 - 1) } }, c)
    | none => (s.finc (R.TB_CTX_OVER.COUNT (c.ctx % 64)) 1, { c with cls := clsBE, age := 0 })

/-- TM_POS word of a class: entering 0 to 2, leaving 3 to 5 (R518): the counters wrap. -/
def State.tmCount (s : State) (x k : Nat) : State :=
  s.fset (R.TM_POS.COUNT x k) (s.fget (R.TM_POS.COUNT x k) + 1)

/-- Step 4 of R112 and R113: the cell joins the pool of its class, or is discarded when the pool is full. -/
def State.joinPool (s : State) (x : Nat) (q : Queued) : State :=
  let sw := s.sw
  let s :=
    if q.cell.cls = clsG then
      if (kgetD sw.inG x []).length < 384 then s.setSw { sw with inG := kupd sw.inG x [] (· ++ [q]) }
      else s.coreDrop (R.SW_DROP_IN.FULL_G x)
    else if q.cell.cls = clsCtl then
      if (kgetD sw.inCtl x []).length < 64 then s.setSw { sw with inCtl := kupd sw.inCtl x [] (· ++ [q]) }
      else s.coreDrop (R.SW_DROP_IN.FULL_CTL x)
    else
      if (kgetD sw.inBe x []).length < 512 then s.setSw { sw with inBe := kupd sw.inBe x [] (· ++ [q]) }
      else s.coreDrop (R.SW_DROP_IN.FULL_BE x)
  s.noteDepth x

/-- Steps 3 and 4 of R112 for a cell that passed its checks. -/
def State.enterPool (s : State) (x : Nat) (c : Cell) (b : Bound) (fclk : Nat) : State :=
  let r := s.admitCell x c b
  let s := (r.1.tmCount x (r.2.cls % 3)).almAdd 2 0 32 1
  let s := s.almAdd 4 x 0 1
  let q : Queued := { cell := r.2, at_ := s.fclk fclk + 3 }
  match b with
  | .steer m => s.joinPool x { q with steer := some m }
  | .out p => s.joinPool x { q with outPos := p }
  | _ => s.joinPool x q

/-- Step 1 finds the DST entry with ROUTED = 0 (R137). -/
def State.unrouted (s : State) (c : Cell) : Bool :=
  !c.collective && !bitAt (s.portWord (s.activeBank 1) c.dst) 13

/-- The state check of step 2 (R132) and the steps after it. -/
def State.checkPos (s : State) (x : Nat) (c : Cell) (b : Bound) (fclk : Nat) : State :=
  match b with
  | .noRoute => s.finc R.SG_NOROUTE.COUNT 1
  | .out p => if s.posUp p then s.enterPool x c b fclk
      else (s.coreDrop (R.SW_DROP_OUT.LINK p)).almAdd 4 p 16 1
  | _ => s.enterPool x c b fclk

/-- A cell enters core position x (R112): ROUTED at step 1, then partition (R129), GONE (R131) and position (R132). -/
def State.ingress (s : State) (x : Nat) (c : Cell) (fclk : Nat) : State :=
  let b := s.boundFor x c
  if b = .stale then s.finc R.RD_STATS.STALE 1
  else if s.unrouted c then s.finc R.SG_NOROUTE.COUNT 1
  else if !(s.srcOk x c && s.partOk c) then s.denyCell x c
  else if !c.collective && s.gone c.dst then s.goneCell x c
  else s.checkPos x c b fclk

/-- A cell can enter position x at FCLK t: one does in an FCLK, in slot order, and a hub link brings one only while it is not
DOWN and in the slots of its width (R84, R111, R287). -/
def State.canEnter (s : State) (x t : Nat) : Bool :=
  x < 160 && t < 1600 && !s.came x t && (x < 144 || (s.posUp x && slotOpen (s.mapWidth x) t))

/-- A best-effort or control cell's age has reached 64. -/
def aged (c : Cell) : Bool := c.cls != clsG && 64 ≤ c.age

/-- A cell at core input 128 + s is the Tollgate's, not the control processor's. -/
def State.fromTg (s : State) (c : Cell) : Bool := c.src == 400 + s.plane

/-- The timetable reserves a slot of core input 128 + s for a guaranteed cell. -/
def State.reserved (s : State) (c : Cell) : Bool :=
  c.cls == clsG && (s.creditFor s.ownPos c (s.boundFor s.ownPos c)).isSome

/-- The cell that core input 128 + s takes next (R17): control cells, the control processor's first; guaranteed cells that
the timetable reserves a slot for; the others alternating between the two end-points (assumption 137). -/
def State.feedNext (s : State) : Option Cell :=
  let l := s.sw.feed.filter fun c => !aged c
  let ctl := l.filter (·.cls == clsCtl)
  let rest := l.filter (·.cls != clsCtl)
  (ctl.find? fun c => !s.fromTg c) <|> ctl.head? <|>
    rest.find? s.reserved <|> (rest.find? fun c => s.fromTg c != s.sw.feedTg) <|> rest.head?

/-- Position x takes this cell: any that comes, but at 128 + s the one whose turn it is. -/
def State.takes (s : State) (x : Nat) (c : Cell) : Bool := x != s.ownPos || s.feedNext == some c

/-- The cell waits at 128 + s no more. -/
def State.takeFeed (s : State) (x : Nat) (c : Cell) : State :=
  if x = s.ownPos then
    { s with sw := { s.sw with feed := s.sw.feed.erase c
                               feedTg := if c.cls = clsCtl ∨ s.reserved c then s.sw.feedTg else s.fromTg c } }
  else s

/-- Meaning of CELL_INGRESS. IDLE cells never enter the core (R88). -/
def execCellIngress (pos : Nat) (cell : Cell) (fclk : Nat) (s : State) : Res :=
  .next (if s.canEnter pos fclk ∧ cell.typ ≠ T.IDLE ∧ s.takes pos cell then
      ((s.takeFeed pos cell).useIn pos fclk).ingress pos cell fclk
    else s)

/-! ## First stage (R105, R110, R111) -/

/-- Room for a cell at an intermediate (R106, R107): 2 per output for guaranteed and control, 4 for best-effort and 256
in all, 16 multicast stores a class; a reduction unit takes every cell. -/
def State.midRoom (s : State) (m : Nat) (q : Queued) : Bool :=
  if q.steer.isSome then true
  else if q.cell.typ = T.BCAST then
    if q.cell.cls = clsBE then (kgetD s.sw.mcBe m []).length < 16 else (kgetD s.sw.mcG m []).length < 16
  else if q.cell.cls = clsBE then
    let l := kgetD s.sw.midBe m []
    l.length < 256 && (l.filter (·.outPos == q.outPos)).length < 4
  else ((kgetD s.sw.midG m []).filter (·.outPos == q.outPos)).length < 2

/-- Positions of the broadcast member set of an instance: the group without its roots (R116, R259). -/
def State.bcastMembers (s : State) (i : Inst) : List Nat :=
  let roots := if i.planeHub then (List.range 16).map fun q => 128 + 16 * q + i.root else [i.root]
  (s.members i.group).filter fun id => !roots.contains id

/-- The copy map of a BCAST that entered at x (R116). A FREE slot gives none. -/
def State.copyMap (s : State) (x : Nat) (c : Cell) : Nat :=
  match s.inst c.slot with
  | none => 0
  | some i =>
    let ps := (s.bcastMembers i).filterMap s.posOf
    let ps := ps.filter fun p => p != x && (x < 128 || 144 ≤ x || x == s.ownPos || p == s.ownPos || 144 ≤ p)
    bitMap (ps.foldl addNew [])

/-- A cell reaches intermediate m, entered at x (R110, R116, R119). -/
def State.arriveMid (s : State) (m x : Nat) (q : Queued) (at_ : Nat) : State :=
  match q.steer with
  | some _ => s.emit (.toUnit m q.cell)
  | none =>
    let sw := s.sw
    if q.cell.typ = T.BCAST then
      let cp := s.copyMap x q.cell
      if cp = 0 then s
      else
        let st : MStore := { cell := q.cell, copies := cp, at_ := at_ }
        if q.cell.cls = clsBE then s.setSw { sw with mcBe := kupd sw.mcBe m [] (· ++ [st]) }
        else s.setSw { sw with mcG := kupd sw.mcG m [] (· ++ [st]) }
    else if !s.posUp q.outPos then s.coreDrop (R.SW_DROP_OUT.LINK q.outPos)
    else
      let mc : MidCell := { cell := q.cell, outPos := q.outPos, at_ := at_ }
      if q.cell.cls = clsBE then s.setSw { sw with midBe := kupd sw.midBe m [] (· ++ [mc]) }
      else s.setSw { sw with midG := kupd sw.midG m [] (· ++ [mc]) }

/-- A waiting cell may leave its pool for m in this FCLK: admitted, not due to be discarded for age, and m has room. A
steered cell goes only to its own intermediate, and only as the first for it in its pool. -/
def State.canGo (s : State) (m now : Nat) (q : Queued) : Bool :=
  q.at_ < now && (q.cell.cls == clsG || q.cell.age < 64) && s.midRoom m q

/-- The steered queue for m inside a pool: the first four cells steered to m, in arrival order; later ones stay in the
pool until room appears (R106, R110). -/
def steeredQueue (m : Nat) (l : List Queued) : List Queued := (l.filter (·.steer == some m)).take 4

/-- The head of the steered queue for m (R110). -/
def steeredHead (m : Nat) (l : List Queued) : Option Queued := (steeredQueue m l).head?

/-- Removes the first equal element. -/
def removeQ (q : Queued) : List Queued → List Queued
  | [] => []
  | x :: t => if x = q then t else x :: removeQ q t

/-- What input i sends to m in this FCLK (R111, R482): the pool, 0 guaranteed, 1 best-effort, 2 control, and the cell. -/
def State.pickFirst (s : State) (i m now : Nat) : Option (Nat × Queued) :=
  let g := kgetD s.sw.inG i []
  let b := kgetD s.sw.inBe i []
  let c := kgetD s.sw.inCtl i []
  let ctl := c.find? (s.canGo m now)
  let held := kgetD s.sw.ctlSent i 0
  let quota := kgetD s.sw.beSent i 0 < s.fget R.PT_LADDER.BE_QUOTA
  match (if held < 32 then ctl else none) with
  | some q => some (2, q)
  | none =>
  match (steeredHead m g).filter (s.canGo m now) with
  | some q => some (0, q)
  | none =>
  match g.find? fun q => q.steer.isNone && s.canGo m now q with
  | some q => some (0, q)
  | none =>
  match ctl with
  | some q => some (2, q)
  | none =>
  if !quota then none
  else
  match (steeredHead m b).filter (s.canGo m now) with
  | some q => some (1, q)
  | none => (b.find? fun q => q.steer.isNone && s.canGo m now q).map fun q => (1, q)

/-- The first stage in one FCLK (R105, R111). -/
def State.firstStage (s : State) (i fclk : Nat) : State :=
  let m := (i + fclk) % 160
  let now := s.fclk fclk
  match s.pickFirst i m now with
  | none =>
    if (kgetD s.sw.inG i []).length + (kgetD s.sw.inCtl i []).length = 0 then s
    else (s.finc (R.SW_STALL.IN_STALL i) 1).almAdd 4 i 12 1
  | some (k, q) =>
    let sw := s.sw
    let s := match k with
      | 0 => s.setSw { sw with inG := kupd sw.inG i [] (removeQ q) }
      | 1 => s.setSw { sw with inBe := kupd sw.inBe i [] (removeQ q), beSent := kupd sw.beSent i 0 (· + 1) }
      | _ => s.setSw { sw with inCtl := kupd sw.inCtl i [] (removeQ q), ctlSent := kupd sw.ctlSent i 0 (· + 1) }
    s.arriveMid m i q (now + 2)

/-- Meaning of FIRST_STAGE_SEND. -/
def execFirstStageSend (input fclk : Nat) (s : State) : Res :=
  .next (if input < 160 ∧ fclk < 1600 then s.firstStage input fclk else s)

/-! ## Output queues and combining (R118, R121 to R125, R196) -/

/-- The line an item belongs to (R121): READ, WRITE and ATOMIC alone. -/
def itemLine (i : OutItem) : Option Nat :=
  match i.cells with
  | [] => none
  | c :: _ => if c.typ = T.READ ∨ c.typ = T.WRITE ∨ c.typ = T.ATOMIC then some c.line else none

/-- Items waiting at an output in arrival order across both queues. -/
def State.outItems (s : State) (p : Nat) : List OutItem := kgetD s.sw.outG p [] ++ kgetD s.sw.outBe p []

/-- Room in an output queue (R106). -/
def State.outRoom (s : State) (p cls : Nat) : Bool :=
  if cls = clsBE then (kgetD s.sw.outBe p []).length < 128 else (kgetD s.sw.outG p []).length < 128

/-- Adds an item at the tail of its class's queue. -/
def State.queueItem (s : State) (p : Nat) (c : Cell) (entry : Bool) (at_ : Nat) : State :=
  let sw := s.sw
  let it : OutItem := { id := sw.nextItem, entry := entry, isOpen := entry, cells := [c], at_ := at_ }
  let sw := { sw with nextItem := sw.nextItem + 1 }
  let s := if c.cls = clsBE then s.setSw { sw with outBe := kupd sw.outBe p [] (· ++ [it]) }
    else s.setSw { sw with outG := kupd sw.outG p [] (· ++ [it]) }
  s.noteDepth p

/-- Changes the items of both queues of an output. -/
def State.mapItems (s : State) (p : Nat) (f : OutItem → OutItem) : State :=
  s.setSw { s.sw with outG := kset s.sw.outG p ((kgetD s.sw.outG p []).map f)
                      outBe := kset s.sw.outBe p ((kgetD s.sw.outBe p []).map f) }

/-- Closes the open entries of a line (R123). -/
def State.closeLine (s : State) (p line : Nat) : State :=
  s.mapItems p fun i => if i.isOpen && itemLine i == some line then { i with isOpen := false } else i

/-- The same cell already waits here, as an original or as a pass-through item (R124). -/
def sameCopy (c : Cell) (i : OutItem) : Bool :=
  i.cells.any fun d => d.src == c.src && d.seq == c.seq && d.dst == c.dst
    && (d.typ == T.WRITE || d.typ == T.ATOMIC)

/-- CAS items for a line waiting at hub output h or in the hub end-point (R196). -/
def State.casWaiting (s : State) (h line : Nat) : Nat :=
  ((s.outItems (144 + h) ++ kgetD s.sw.handed h []).filter fun i =>
    itemLine i == some line && i.cells.any (·.isCas)).length

/-- BACKOFF_DEPTH of an instance; 0 is treated as 1. -/
def State.backoffDepth (s : State) (e : Nat) : Nat := max 1 (s.fget (R.EP_CTL.BACKOFF_DEPTH e))

/-- A CAS meets the threshold of R196. -/
def State.backsOff (s : State) (p : Nat) (c : Cell) : Bool :=
  144 ≤ p && c.isCas && s.backoffDepth (p - 144) ≤ s.casWaiting (p - 144) c.line

/-- A cell reaches hub output p (R121 to R124). -/
def State.arriveHub (s : State) (p : Nat) (c : Cell) (at_ : Nat) : State :=
  let items := s.outItems p
  if !s.mergeable (p - 144) c || items.any (sameCopy c) then
    let s := if c.typ = T.READ ∨ c.typ = T.WRITE ∨ c.typ = T.ATOMIC then s.closeLine p c.line else s
    s.queueItem p c false at_
  else
    match items.find? fun i => i.isOpen && i.cells.any (sameKey c) with
    | some e =>
      let s := s.mapItems p fun i => if i.id = e.id then
          { i with cells := i.cells ++ [c], isOpen := i.cells.length + 1 < 64 } else i
      s.finc (R.SW_COMB.MERGED p) 1
    | none =>
      let s := s.closeLine p c.line
      s.queueItem p c ((items.filter (·.entry)).length < 64) at_

/-- A cell reaches output p. -/
def State.arriveOut (s : State) (p : Nat) (c : Cell) (at_ : Nat) : State :=
  if 144 ≤ p then s.arriveHub p c at_ else s.queueItem p c false at_

/-! ## Second stage (R114, R117) -/

/-- A candidate for an output in this FCLK: a unicast cell, or a copy of a multicast store (its index). -/
inductive Cand where
  | uni (c : MidCell)
  | copy (k : Nat) (st : MStore)
  deriving DecidableEq, Repr

def Cand.at_ : Cand → Nat
  | .uni c => c.at_
  | .copy _ st => st.at_

def Cand.cell : Cand → Cell
  | .uni c => c.cell
  | .copy _ st => st.cell

/-- The oldest candidate of a class for output o (R114); of two that arrived in one FCLK the unicast cell (assumption
138). -/
def oldestCand (uni : List MidCell) (mc : List MStore) (o now : Nat) : Option Cand :=
  let u := (uni.find? fun c => c.outPos == o).filter fun c => c.at_ ≤ now && (c.cell.cls == clsG || c.cell.age < 64)
  let k := findIdx (fun st : MStore => bitAt st.copies o && st.at_ ≤ now && (st.cell.cls == clsG || st.cell.age < 64))
    mc 0
  match u, k with
  | none, none => none
  | some c, none => some (.uni c)
  | none, some k => (mc[k]?).map (.copy k ·)
  | some c, some k =>
    match mc[k]? with
    | none => some (.uni c)
    | some st => if c.at_ ≤ st.at_ then some (.uni c) else some (.copy k st)

def removeM (q : MidCell) : List MidCell → List MidCell
  | [] => []
  | x :: t => if x = q then t else x :: removeM q t

/-- Clears a copy of a store and frees the store when its map is empty. -/
def clearCopy (k o : Nat) : List MStore → List MStore
  | [] => []
  | st :: t =>
    match k with
    | 0 => if bitClr st.copies o = 0 then t else { st with copies := bitClr st.copies o } :: t
    | k + 1 => st :: clearCopy k o t

/-- Every member that a copy to o stands for is GONE (R117). -/
def State.copyGone (s : State) (c : Cell) (o : Nat) : Bool :=
  match s.inst c.slot with
  | none => false
  | some i =>
    let l := (s.bcastMembers i).filter fun id => s.posOf id == some o
    !l.isEmpty && l.all s.gone

/-- Takes a candidate out of intermediate m. -/
def State.takeCand (s : State) (m o : Nat) (be : Bool) (c : Cand) : State :=
  let sw := s.sw
  match c, be with
  | .uni x, true => s.setSw { sw with midBe := kupd sw.midBe m [] (removeM x) }
  | .uni x, false => s.setSw { sw with midG := kupd sw.midG m [] (removeM x) }
  | .copy k _, true => s.setSw { sw with mcBe := kupd sw.mcBe m [] (clearCopy k o) }
  | .copy k _, false => s.setSw { sw with mcG := kupd sw.mcG m [] (clearCopy k o) }

/-- A copy that leaves only to be discarded (R117). -/
def State.copyDropped (s : State) (o : Nat) (c : Cand) : Bool :=
  match c with
  | .uni _ => false
  | .copy _ st => !s.posUp o || s.copyGone st.cell o

/-- The cell can go: the output queue of its class has room, or it is a CAS that is answered (R196). -/
def State.candGoes (s : State) (o : Nat) (c : Cand) : Bool :=
  s.copyDropped o c || s.backsOff o c.cell || s.outRoom o c.cell.cls

/-- Sends a candidate to output o. -/
def State.sendCand (s : State) (m o : Nat) (be : Bool) (c : Cand) (fclk : Nat) : State :=
  let s' := s.takeCand m o be c
  if s.copyDropped o c then s'.coreDrop (R.SW_DROP_OUT.LINK o)
  else if s.backsOff o c.cell then
    let w := s.casWaiting (o - 144) c.cell.line
    (s'.finc (R.EP_STATS2.BACKOFF (o - 144)) 1).ingress o (nackOf c.cell ST.BACKOFF false (1 + w / 25)) fclk
  else s'.arriveOut o c.cell (s.fclk fclk + 2)

/-- The second stage in one FCLK (R114). -/
def State.secondStage (s : State) (m fclk : Nat) : State :=
  let o := (m + fclk) % 160
  let now := s.fclk fclk
  let g := oldestCand (kgetD s.sw.midG m []) (kgetD s.sw.mcG m []) o now
  let b := oldestCand (kgetD s.sw.midBe m []) (kgetD s.sw.mcBe m []) o now
  match g.filter (s.candGoes o) with
  | some c => s.sendCand m o false c fclk
  | none =>
    match b.filter (s.candGoes o) with
    | some c => (s.when g.isSome (·.finc (R.SW_STALL.OUT_STALL o) 1)).sendCand m o true c fclk
    | none => if g.isSome || b.isSome then s.finc (R.SW_STALL.OUT_STALL o) 1 else s

/-- Meaning of SECOND_STAGE_SEND. -/
def execSecondStageSend (inter fclk : Nat) (s : State) : Res :=
  .next (if inter < 160 ∧ fclk < 1600 then s.secondStage inter fclk else s)

/-! ## Leaving the outputs (R118, R125) -/

/-- An output carries cells: it is UP and no alignment repeats on its port (R79). -/
def State.carries (s : State) (p : Nat) : Bool := s.posUp p && (144 ≤ p || s.steady p)

/-- R125 lets an item of hub h leave: no line, or its line is free and no earlier item waits for it. -/
def State.mayLeave (s : State) (h : Nat) (i : OutItem) : Bool :=
  match itemLine i with
  | none => true
  | some l => !(kgetD s.sw.handed h []).any (fun j => itemLine j == some l)
      && !(s.outItems (144 + h)).any (fun j => itemLine j == some l && j.id < i.id)

/-- Removes the item with an id. -/
def dropItem (id : Nat) (l : List OutItem) : List OutItem := l.filter (·.id != id)

/-- Drops an item from both queues of an output. -/
def State.unqueue (s : State) (p id : Nat) : State :=
  s.setSw { s.sw with outG := kset s.sw.outG p (dropItem id (kgetD s.sw.outG p []))
                      outBe := kset s.sw.outBe p (dropItem id (kgetD s.sw.outBe p [])) }

/-- The item an output sends next (R118, R125). -/
def State.nextItem (s : State) (p : Nat) : Option OutItem :=
  let ok (i : OutItem) : Bool := (p < 144 || s.mayLeave (p - 144) i) &&
    i.cells.all fun c => c.cls == clsG || c.age < 64
  let first (l : List OutItem) : Option OutItem := if p < 144 then l.head?.filter ok else l.find? ok
  match first (kgetD s.sw.outG p []) with
  | some i => some i
  | none => first (kgetD s.sw.outBe p [])

/-- Counts the cells that leave an output by class (R518). -/
def State.countOut (s : State) (p : Nat) (i : OutItem) : State :=
  s.forEach i.cells fun s c => (s.tmCount p (3 + c.cls % 3)).almAdd 4 p 4 1

/-- A hub output hands an item to the hub end-point (R125, R126): its line becomes busy; an entry's originals take
their window bits (R178), those that are duplicates being answered without being performed. -/
def State.handItem (s : State) (h t : Nat) (i : OutItem) : State :=
  let s := (s.unqueue (144 + h) i.id).countOut (144 + h) i
  if i.entry then
    let e := s.ep h
    let r := i.cells.foldl (fun (a : KV SeqWin × List Cell × List Cell) c =>
      let k := c.src * 16 + planeOfId c.dst
      let w := kget a.1 k
      if winNew w c.seq then (kset a.1 k (winAccept w c.seq s.now), a.2.1 ++ [c], a.2.2)
      else (kset a.1 k (winTouch (w.getD {}) s.now), a.2.1, a.2.2 ++ [c])) (e.wins, [], [])
    let s := s.setEp h { e with wins := r.1 }
    let s := s.finc (R.SW_COMB.ISSUED (144 + h)) 1
    { s with sw := { s.sw with handed := kupd s.sw.handed h [] (· ++ [{ i with
        isOpen := false, cells := r.2.1, dups := r.2.2 }]) } }
  else
    let s := match i.cells with
      | c :: _ => s.emit (.cell (144 + h) t c)
      | [] => s
    if (itemLine i).isSome then { s with sw := { s.sw with handed := kupd s.sw.handed h [] (· ++ [i]) } } else s

/-- An answer of the sled's own takes its place in the output queue when that has room. -/
def State.drainAnswers (s : State) (p fclk : Nat) : State :=
  match kgetD s.sw.answers p [] with
  | [] => s
  | c :: t =>
    if s.outRoom p clsCtl then
      { s with sw := { s.sw with answers := kset s.sw.answers p t } }.arriveOut p c (s.fclk fclk)
    else s

/-- An output sends an item in the slot of FCLK t. -/
def State.sendItem (s : State) (p t : Nat) (i : OutItem) : State :=
  let s := s.useOut p t
  if 144 ≤ p then s.handItem (p - 144) t i
  else
    let s := (s.unqueue p i.id).countOut p i
    s.forEach i.cells fun s c => s.emit (.cell p t c)

/-- The link cell that a port can send now, ahead of best-effort cells (R98). -/
def State.linkCell (s : State) (p : Nat) : Option Cell := if p < 144 ∧ s.trained p then s.queuedCell p else none

/-- An output sends in one FCLK, in a slot that maps to a wavelength or lane and has carried no cell (R84, R98, R118). -/
def State.outSend (s : State) (p fclk : Nat) : State :=
  let s := s.drainAnswers p fclk
  if s.sent p fclk || !slotOpen (s.mapWidth p) fclk || (p < 144 && !s.steady p) then s
  else
    let i? := if s.carries p then s.nextItem p else none
    match i?, s.linkCell p with
    | some i, none => s.sendItem p fclk i
    | some i, some c => if i.cells.all (·.cls == clsBE) then s.sendQueued p fclk c else s.sendItem p fclk i
    | none, some c => s.sendQueued p fclk c
    | none, none => s

/-- Meaning of OUTPUT_SEND. -/
def execOutputSend (pos fclk : Nat) (s : State) : Res :=
  .next (if pos < 160 ∧ fclk < 1600 then s.outSend pos fclk else s)

/-- Meaning of ENTRY_HANDOVER: an item whose line is free is handed to the hub end-point (R125). -/
def execEntryHandover (hub fclk : Nat) (s : State) : Res :=
  .next (if hub < 16 ∧ fclk < 1600 then s.outSend (144 + hub) fclk else s)

/-- COMBINE_EN changes (R127): clearing it closes every open entry. -/
def State.setCombine (s : State) (v : Bool) : State :=
  let s := s.fsetb R.SW_CTL.COMBINE_EN v
  if v then s
  else s.forEach (List.range 16) fun s h => s.mapItems (144 + h) fun i => { i with isOpen := false }

/-- Meaning of COMBINE_EN. -/
def execCombineEn (v : Bool) (s : State) : Res := .next (s.setCombine v)

/-! ## Positions that leave or enter UP (R119, R140) -/

/-- A position leaves UP, with the width it had (R51, R119). -/
def State.leaveUp (s : State) (x w : Nat) : State :=
  let sw := s.sw
  let n := (s.outItems x).foldl (fun n i => n + i.cells.length) 0
    + (sw.midG ++ sw.midBe).foldl (fun n e => n + (e.2.filter (·.outPos == x)).length) 0
  let cut (l : KV (List MidCell)) : KV (List MidCell) := l.map fun e => (e.1, e.2.filter (·.outPos != x))
  let s := { s with
    sw := { sw with outG := kset sw.outG x [], outBe := kset sw.outBe x [], midG := cut sw.midG, midBe := cut sw.midBe
                    answers := kset sw.answers x [] }
    tt := { s.tt with lastWidth := kset s.tt.lastWidth x w }
    sg := { s.sg with epochDue := true, substDue := s.sg.substDue || (128 ≤ x && x < 144) } }
  let s := s.finc (R.SW_DROP_OUT.LINK x) n
  s.almAdd 2 0 40 n

/-- A position enters UP (R140, R147). -/
def State.enterUp (s : State) (x : Nat) : State :=
  { s with sg := { s.sg with epochDue := true, substDue := s.sg.substDue || (128 ≤ x && x < 144) } }

/-- R127: a hub's partial reset discards every item of its output without ACKs, and counts them nowhere (assumption
136). -/
def State.dropOutput (s : State) (x : Nat) : State :=
  s.setSw { s.sw with outG := kset s.sw.outG x [], outBe := kset s.sw.outBe x []
                      handed := if 144 ≤ x then kset s.sw.handed (x - 144) [] else s.sw.handed }

/-! ## Ageing (R66, R89, R128) -/

/-- A cell one frame older. A guaranteed cell's AGE stops at 63; 64 is no value of the field: it marks a best-effort or
control cell whose age would reach 64, which goes nowhere and is discarded (R66). -/
def olderCell (c : Cell) : Cell := { c with age := if c.cls = clsG then min 63 (c.age + 1) else c.age + 1 }

/-- Every waiting cell ages at the tick, and the per-frame counts begin again (R36, R128, R482). -/
def State.ageAll (s : State) : State :=
  let q (l : KV (List Queued)) := l.map fun e => (e.1, e.2.map fun (x : Queued) => { x with cell := olderCell x.cell })
  let m (l : KV (List MidCell)) := l.map fun e => (e.1, e.2.map fun (x : MidCell) => { x with cell := olderCell x.cell })
  let c (l : KV (List MStore)) := l.map fun e => (e.1, e.2.map fun (x : MStore) => { x with cell := olderCell x.cell })
  let o (l : KV (List OutItem)) := l.map fun e => (e.1, e.2.map fun (x : OutItem) =>
    { x with cells := x.cells.map olderCell })
  let sw := s.sw
  s.setSw { sw with inG := q sw.inG, inCtl := q sw.inCtl, inBe := q sw.inBe, midG := m sw.midG, midBe := m sw.midBe
                    mcG := c sw.mcG, mcBe := c sw.mcBe, outG := o sw.outG, outBe := o sw.outBe
                    answers := sw.answers.map fun e => (e.1, e.2.map olderCell)
                    feed := sw.feed.map olderCell
                    ctlSent := [], beSent := [], usedOut := [], usedIn := [] }

/-- Counts an aged cell under a position (R128). -/
def State.countAged (s : State) (x : Nat) (c : Cell) : State :=
  let s := if c.cls = clsCtl then s.finc (R.SW_DROP_OUT.AGED_CTL x) 1 else s.finc (R.SW_DROP_OUT.AGED_BE x) 1
  (s.almAdd 2 0 40 1).almAdd 4 x 18 1

/-- An item is discarded for age when its oldest original is (R128). -/
def agedItem (i : OutItem) : Bool := i.cells.any aged

/-- Discards what has reached age 64 (R128). -/
def State.ageDiscard (s : State) : State :=
  let sw := s.sw
  let s := s.forEach (sw.inBe ++ sw.inCtl) fun s e =>
    s.forEach (e.2.filter fun (q : Queued) => aged q.cell) fun s q => s.countAged e.1 q.cell
  let s := s.forEach (sw.midG ++ sw.midBe) fun s e =>
    s.forEach (e.2.filter fun (q : MidCell) => aged q.cell) fun s q => s.countAged q.outPos q.cell
  let s := s.forEach (sw.mcG ++ sw.mcBe) fun s e =>
    s.forEach (e.2.filter fun (q : MStore) => aged q.cell) fun s q =>
      s.forEach (bitList q.copies 160) fun s o => s.countAged o q.cell
  let s := s.forEach (sw.outG ++ sw.outBe) fun s e =>
    s.forEach (e.2.filter agedItem) fun s i => s.forEach i.cells fun s c => s.countAged e.1 c
  let s := s.forEach (sw.feed.filter aged) fun s c => s.countAged s.ownPos c
  s.setSw { s.sw with
    inBe := sw.inBe.map fun e => (e.1, e.2.filter fun (q : Queued) => !aged q.cell)
    inCtl := sw.inCtl.map fun e => (e.1, e.2.filter fun (q : Queued) => !aged q.cell)
    midG := sw.midG.map fun e => (e.1, e.2.filter fun (q : MidCell) => !aged q.cell)
    midBe := sw.midBe.map fun e => (e.1, e.2.filter fun (q : MidCell) => !aged q.cell)
    mcG := sw.mcG.map fun e => (e.1, e.2.filter fun (q : MStore) => !aged q.cell)
    mcBe := sw.mcBe.map fun e => (e.1, e.2.filter fun (q : MStore) => !aged q.cell)
    outG := sw.outG.map fun e => (e.1, e.2.filter fun i => !agedItem i)
    outBe := sw.outBe.map fun e => (e.1, e.2.filter fun i => !agedItem i)
    answers := sw.answers.map fun e => (e.1, e.2.filter fun c => !aged c)
    feed := sw.feed.filter fun c => !aged c }

/-- Meaning of AGE_DISCARD: in the core, and for the cells of the control processor and the Tollgate that wait before it
(R66, R128). -/
def execAgeDiscard (s : State) : Res := .next s.ageDiscard

end Sys2Proof.Machine
end

