-- ==== Sys2Proof/Machine/Signpost.lean ====
section
/-! DEFINITION. Sled states and their entries, the plan, the discovered map, link placement and the live substitution
(R135, R140 to R149, R195, R427, R428, R433, R435). -/

namespace Sys2Proof.Machine

/-! ## Sled states -/

/-- The line a cacheable request fills with its line k: context, rack, home, line. -/
def fillLine (q : Request) (k : Nat) : Nat × Nat × Nat × Nat :=
  (q.r.ctx, q.ga / 2 ^ 56, q.ga / 2 ^ 44 % 1024, q.ga % 2 ^ 44 / 64 + k)

/-- Drops the cached lines of an instance that satisfy p; a fill in flight of such a line is not entered, and run-ahead
of its cores that read one is squashed (R192 to R195, R228). -/
def State.dropLines (s : State) (e : Nat) (p : Nat × Nat × Nat × Nat → Bool) : State :=
  let x := s.ep e
  let keep (l : CacheLine) : Bool := !p (l.ctx, l.rack, l.home, l.line)
  let f (q : Request) : Request :=
    if q.cacheable then
      { q with noFill := ((List.range q.cells).filter fun k => p (fillLine q k)).foldl addNew q.noFill }
    else q
  let s := s.setEp e { x with cache := x.cache.filter keep, reqs := x.reqs.map f }
  let g (c : Nat) (k : Core) : Core :=
    if c / 16 ≠ e then k
    else match k.run.ra with
      | none => k
      | some a =>
        let hit := a.lines.any fun l => p (k.run.ctx, l.1, l.2.1, l.2.2)
        { k with run := { k.run with ra := some { a with squash := a.squash || hit } } }
  { s with cores := s.cores.map fun (c, k) => (c, g c k) }

/-- Drops every cached line of an instance (R195). -/
def State.dropCache (s : State) (e : Nat) : State := s.dropLines e fun _ => true

/-- Volatile mode of an instance is on (R195, R435). -/
def State.volatileOn (s : State) (e : Nat) : Bool :=
  s.fbit (R.EP_CTL.VOLATILE e) || (e ≤ 16 && s.sled != SS.SERVICE && s.sled != SS.DEGRADED)

/-- The sled takes a state (R428): PREV_STATE, the alert, the hour page's count and the cached lines that leaving
SERVICE and DEGRADED drops (R435). What R145 and R146 held for the boundary of the state it leaves lapses. -/
def State.takeState (s : State) (st : Nat) : State :=
  let old := s.sled
  let s := (s.fset R.CP_STATE.PREV_STATE old).fset R.CP_STATE.STATE st
  let s := s.when (st == SS.DEGRADED || st == SS.MAINTENANCE || st == SS.DRAIN || st == SS.HALT) (·.alert 3)
  let s := { s.almAdd 1 0 (116 + st) 1 with sg := { s.sg with newDiff := false, acceptDue := false } }
  let s := s.when ((old == SS.SERVICE || old == SS.DEGRADED) && st != SS.SERVICE && st != SS.DEGRADED)
    (·.forEach (List.range 17) State.dropCache)
  if st = SS.DISCOVERY then
    { s with tb := { s.tb with discFor := 0 }
             ports := s.ports.map fun e => (e.1, { e.2 with settled := false, firstTry := false, failed := 0 }) }
  else s

/-! ## The plan -/

/-! Placement outcomes of SG_FOUND. -/

namespace OC
def NOT_TRAINED : Nat := 0
def MATCH : Nat := 1
def EXTRA : Nat := 2
def MISMATCH : Nat := 3
def SWAP : Nat := 4
def ACCEPTED_ABSENT : Nat := 5
def ADOPTED : Nat := 6
def DUP : Nat := 7
end OC

/-- The record of a port in the default plan. -/
def State.defaultRec (s : State) (p : Nat) : PlanRec :=
  if p < 128 then { expect := 2, rack := s.rack, plane := s.plane, epId := p }
  else if p < 144 then { expect := 0, rack := s.rack, plane := p - 128, farPort := 128 + s.plane }
  else {}

/-- The plan's record of a port (index as in OP). -/
def State.planRec (s : State) (p : Nat) : PlanRec :=
  match s.sg.plan with
  | none => s.defaultRec p
  | some m => kgetD m p {}

/-- The ports of the sled that the plan covers. -/
def State.planPorts (s : State) : List Nat := (List.range 160).filter (· != s.ownPos)

/-- A port's plan expects a link. -/
def State.planned (s : State) (p : Nat) : Bool := (s.planRec p).expect != 0xFF

/-- The port number of a record or an identity: uplinks are 0x100 + u. -/
def portNum (p : Nat) : Nat := if p < 144 then p else 0x100 + (p - 144)

/-- The fields R142 compares match. -/
def matchRec (r : PlanRec) (f : Identity) : Bool :=
  r.expect == f.kind &&
  (if f.kind = 0 then r.rack == f.rack && r.plane == f.plane && r.farPort == f.port
   else if f.kind = 2 then r.epId == f.epId && r.plane == f.plane && (f.rack == 0xFF || r.rack == f.rack)
   else r.rack == f.rack && r.farPort == f.port)

/-- The outcome of a far identity at a port (R142). -/
def State.placement (s : State) (p : Nat) (f : Identity) : Nat :=
  if f.rack = s.rack ∧ f.kind = 0 ∧ f.plane = s.plane then OC.DUP
  else if !s.planned p then OC.EXTRA
  else if matchRec (s.planRec p) f then OC.MATCH
  else if s.planPorts.any fun q => q != p && matchRec (s.planRec q) f then OC.SWAP
  else OC.MISMATCH

/-- Link state of an outcome (R142). -/
def outcomeState (o : Nat) : Nat :=
  if o = OC.MATCH ∨ o = OC.ADOPTED then PS.UP else if o = OC.SWAP then PS.MISWIRED else PS.QUARANTINE

def State.outcome (s : State) (p : Nat) : Nat := s.fget (R.SG_FOUND.OUTCOME p)

/-- The port's outcome differs from the plan (R144). -/
def State.differs (s : State) (p : Nat) : Bool :=
  let o := s.outcome p
  o == OC.EXTRA || o == OC.MISMATCH || o == OC.SWAP || o == OC.DUP || (o == OC.NOT_TRAINED && s.planned p)

/-- Counts the differences afresh: DIFFS, DIFF_GEN (R144), and a new difference in SERVICE (R145). -/
def State.recount (s : State) : State :=
  let ds : KV Nat := (s.planPorts.filter s.differs).map fun p => (p, s.outcome p)
  if ds = s.sg.diffs then s
  else
    let new := ds.any fun d => kget s.sg.diffs d.1 != some d.2
    let s := (s.fset R.SG_STATUS.DIFFS ds.length).finc R.SG_STATUS.DIFF_GEN 1
    { s with sg := { s.sg with diffs := ds, newDiff := s.sg.newDiff || (new && s.sled == SS.SERVICE) } }

/-- The sled enters a state, and the differences stand counted there (R144). -/
def State.enterState (s : State) (st : Nat) : State := (s.takeState st).recount

/-- Sets a port's outcome, to be counted by `recount`; a changed outcome ends its acceptance and its adoption (R146). -/
def State.setOutcome (s : State) (p o : Nat) : State :=
  if s.outcome p = o then s
  else
    let s := s.fset (R.SG_FOUND.OUTCOME p) o
    let s := s.when (o == OC.DUP) (·.fsetb R.SG_STATUS.DUP_PLANE true)
    { s with sg := { s.sg with
      accepted := s.sg.accepted.filter (· != p)
      adopted := if o = OC.ADOPTED then s.sg.adopted else s.sg.adopted.filter (·.2 != p)
      substDue := s.sg.substDue || (128 ≤ p && p < 144) || s.sg.adopted.any (·.2 == p) } }

/-- Records a far identity in SG_FOUND. -/
def State.recordFound (s : State) (p : Nat) (f : Identity) : State :=
  ((((s.fset (R.SG_FOUND.FAR_KIND p) f.kind).fset (R.SG_FOUND.FAR_RACK p) f.rack).fset (R.SG_FOUND.FAR_PLANE p)
    f.plane).fset (R.SG_FOUND.FAR_PORT p) f.port).fset (R.SG_FOUND.FAR_EP_ID p) f.epId

/-! ## Link states and what they move (R119, R140) -/

/-- Changes a port's link state; leaving or entering UP moves the position, or an uplink's usability. -/
def State.setLink (s : State) (p st : Nat) : State :=
  let old := s.portState p
  let w := s.fget (R.OP_PORT_STATUS.WIDTH p)
  let s := s.fset (R.OP_PORT_STATUS.STATE p) st
  if old = st ∨ (old ≠ PS.UP ∧ st ≠ PS.UP) ∨ 160 ≤ p then s
  else if p < 144 then (if old = PS.UP then s.leaveUp p w else s.enterUp p)
  else { s with sg := { s.sg with epochDue := true, substDue := s.sg.substDue || s.sg.adopted.any (·.2 == p) } }

/-- Step 7 of R93: SG records the far identity and places the link; an end-point block places its own ports in UP. -/
def State.placePort (s : State) (p : Nat) (f : Identity) : State :=
  if 160 ≤ p then s.setLink p PS.UP
  else
    let s := s.recordFound p f
    let o := s.placement p f
    (s.setOutcome p o).setLink p (outcomeState o)

/-! ## The live substitution (R147) -/

/-- The latest heartbeat from sled r, on whatever mesh port it came. -/
def State.beatFrom (s : State) (r : Nat) : Option Beat :=
  s.vigil.beats.foldl (fun m e =>
    if e.1 < 128 ∨ 144 ≤ e.1 ∨ e.2.src ≠ 384 + r then m
    else match m with
      | some b => if b.at_ ≤ e.2.at_ then some e.2 else m
      | none => some e.2) none

/-- Reach position of mesh position 128 + q. A far end found at an uplink has no position in the core (assumption 140). -/
def State.reach (s : State) (q : Nat) : Option Nat :=
  if s.portState (128 + q) = PS.UP ∧ !(s.sg.adopted.any fun a => a.2 == 128 + q && a.1 != 128 + q) then some (128 + q)
  else
    match (kget s.sg.adopted (128 + q)).filter fun p => p < 144 && s.portState p == PS.UP with
    | some p => some p
    | none => ((List.range 16).find? fun r => r != s.plane && r != q && s.portState (128 + r) == PS.UP &&
        (s.beatFrom r).any fun b => bitAt b.links q).map (128 + ·)

/-- Recomputes the live substitution; a change takes effect with an epoch advance. -/
def State.substitute (s : State) : State :=
  let new : KV (Option Nat) := ((List.range 16).filter (· != s.plane)).map fun q => (128 + q, s.reach q)
  let s' := { s with sg := { s.sg with subst := new, substDue := false } }
  if new.all fun e => s.substPos e.1 == e.2 then s' else s'.epochRise

/-- Meaning of SUBSTITUTION_RECOMPUTE. -/
def execSubstitutionRecompute (s : State) : Res := .next (if s.sg.substDue then s.substitute else s)

/-! ## PLAN_LOAD (R141, R149) -/

/-- A plan header. -/
structure PlanHdr where
  topology : Nat := 0
  dims : Nat := 0
  x : Nat := 0
  y : Nat := 0
  z : Nat := 0
  deriving DecidableEq, Repr

/-- Neighbour rack and far uplink of uplink u under a topology; none for an uplink it leaves unused. -/
def wiring (h : PlanHdr) (rack u : Nat) : Option (Nat × Nat) :=
  if h.topology = 1 then
    if u / 2 < h.dims then some (rack ^^^ 2 ^ (u / 2), u) else none
  else if h.topology = 2 then
    if 12 ≤ u then none
    else
      let n := if u < 4 then h.x else if u < 8 then h.y else h.z
      let st := if u < 4 then 1 else if u < 8 then h.x else h.x * h.y
      let c := rack / st % n
      let up := u % 4 < 2
      let c' := if up then (c + 1) % n else (c + n - 1) % n
      if n ≤ 1 then none else some (rack - c * st + c' * st, if up then u + 2 else u - 2)
  else none

/-- Port index of a record's PORT field. -/
def portIdx (n : Nat) : Option Nat :=
  if n < 144 then some n else if 0x100 ≤ n ∧ n < 0x110 then some (n - 0x100 + 144) else none

/-- A record of the payload. -/
def planRecOf (r : List Byte) : PlanRec :=
  { expect := field r 2 1, rack := field r 3 1, plane := field r 4 1, farPort := field r 6 2, epId := field r 8 2 }

/-- A record's fields lie in their ranges. -/
def planRecOk (r : List Byte) : Bool :=
  let x := planRecOf r
  (portIdx (field r 0 2)).isSome && (x.expect ≤ 3 || x.expect == 0xFF) && x.plane < 16
    && (portIdx x.farPort).isSome && (if x.expect = 2 then x.epId < 128 else x.epId == 0x3FF)

/-- The header's fields lie in their ranges. -/
def planHdrOk (p : List Byte) (h : PlanHdr) : Bool :=
  field p 0 2 == 0x7A05 && h.topology ≤ 2 &&
  (if h.topology = 1 then 1 ≤ h.dims && h.dims ≤ 8 else h.dims == 0) &&
  (if h.topology = 2 then
    1 ≤ h.x && h.x ≤ 16 && 1 ≤ h.y && h.y ≤ 16 && 1 ≤ h.z && h.z ≤ 16 && h.x * h.y * h.z ≤ 256
   else h.x == 0 && h.y == 0 && h.z == 0)

/-- An uplink's record agrees with the topology's wiring: the wired neighbour's Tollgate of the same plane, or no link,
which the wiring of an uplink does not exclude (assumption 141). -/
def uplinkOk (h : PlanHdr) (rack plane u : Nat) (r : PlanRec) : Bool :=
  r.expect == 0xFF ||
  (match wiring h rack u with
   | none => false
   | some (n, f) => (r.expect == 1 || (r.expect == 3 && h.topology == 2)) && r.rack == n && r.plane == plane
       && r.farPort == 0x100 + f)

/-- The header of a PLAN_LOAD payload. -/
def planHdrOf (p : List Byte) : PlanHdr :=
  { topology := field p 2 1, dims := field p 3 1, x := field p 4 1, y := field p 5 1, z := field p 6 1 }

/-- The records of a payload by port index. -/
def planMap (p : List Byte) : KV PlanRec :=
  (List.range 159).foldl (fun m k =>
    let r := bytesAt p (16 + 16 * k) 16
    match portIdx (field r 0 2) with
    | some i => kset m i (planRecOf r)
    | none => m) []

/-- R141 accepts the payload. -/
def State.planOk (s : State) (p : List Byte) : Bool :=
  let h := planHdrOf p
  let m := planMap p
  p.length == 2560 && planHdrOk p h && (List.range 159).all (fun k => planRecOk (bytesAt p (16 + 16 * k) 16)) &&
    s.planPorts.all (fun i => (kget m i).isSome) && m.length == 159 &&
    (h.topology != 1 || s.rack < 2 ^ h.dims) && (h.topology != 2 || s.rack < h.x * h.y * h.z) &&
    (List.range 16).all fun u => uplinkOk h s.rack s.plane u (kgetD m (144 + u) {})

/-- An uplink that the plan leaves unused is held dark with ENABLE = 0 (R149). -/
def State.holdUnused (s : State) : State :=
  s.forEach ((List.range 16).filter fun u => !s.planned (144 + u)) fun s u =>
    let p := 144 + u
    let s := s.fset (R.OP_PORT_CTL.ENABLE p) 0
    let s := (s.fset (R.OP_PORT_STATUS.WIDTH p) 0).fset (R.OP_PORT_STATUS.WL_WORKING p) 0
    let s := s.setPort p { s.port p with far := none, retryAt := none, sendQ := [] }
    (s.setLink p PS.DOWN).setOutcome p OC.NOT_TRAINED

/-- In a torus every uplink runs at width 4 on λ0 to λ3 (R149): one that trained wider keeps those, or goes DOWN. -/
def State.narrow (s : State) : State :=
  if s.sg.topology ≠ 2 then s
  else s.forEach (List.range 16) fun s u =>
    let p := 144 + u
    let w := s.fget (R.OP_PORT_STATUS.WL_WORKING p)
    if w < 16 then s
    else if w % 16 = 15 then
      (s.fset (R.OP_PORT_STATUS.WL_WORKING p) 15).fset (R.OP_PORT_STATUS.WIDTH p) 4
    else
      let s := (s.fset (R.OP_PORT_STATUS.WL_WORKING p) 0).fset (R.OP_PORT_STATUS.WIDTH p) 0
      (((s.setPort p { s.port p with far := none, sendQ := [] }).setLink p PS.DOWN).setOutcome p OC.NOT_TRAINED)

/-- Compares every port afresh (R141). A port that MAINTENANCE holds after its placement keeps that state. -/
def State.replaceAll (s : State) : State :=
  s.forEach s.planPorts fun s p =>
    if s.outcome p = OC.ACCEPTED_ABSENT then s.setOutcome p OC.NOT_TRAINED
    else
      match (s.port p).far, decide (PS.MAINTENANCE < s.portState p ∧ s.portState p ≤ PS.UP) with
      | some f, true => s.placePort p f
      | some f, false => if s.outcome p = OC.NOT_TRAINED then s else s.setOutcome p (s.placement p f)
      | none, _ => s

/-- A plan replaces the plan in force (R141). -/
def State.newPlan (s : State) (h : PlanHdr) (m : KV PlanRec) : State :=
  let s := (s.fset R.TG_CTL.MODE h.topology).fsetb R.SG_STATUS.PLAN_LOADED true
  let s := { s with sg := { s.sg with
    topology := h.topology, dims := h.dims, sizeX := h.x, sizeY := h.y, sizeZ := h.z, plan := some m,
    accepted := [], adopted := [], acceptDue := false, substDue := true } }
  (((s.holdUnused).narrow.replaceAll).recount).tableDirty 3

/-- Meaning of PLAN_LOAD. -/
def execPlanLoad (r : CmdReq) (s : State) : Res :=
  let s := s.begin r
  .next (if s.planOk r.payload then (s.newPlan (planHdrOf r.payload) (planMap r.payload)).answerSt r ST.OK
    else s.answerSt r ST.BAD_PARAM)

/-! ## PLAN_ACCEPT (R146) -/

/-- A SWAP port that ADOPT takes: a mesh link or an uplink. -/
def State.adoptable (s : State) (p : Nat) : Bool :=
  s.outcome p == OC.SWAP && s.portState p == PS.MISWIRED && 128 ≤ p && p < 160

/-- The port whose record the far identity at p matches. -/
def State.swapOf (s : State) (p : Nat) : Option Nat :=
  match (s.port p).far with
  | none => none
  | some f => s.planPorts.find? fun q => q != p && matchRec (s.planRec q) f

/-- Accepts one difference. -/
def State.acceptDiff (s : State) (adopt : Bool) (p : Nat) : State :=
  let o := s.outcome p
  if o = OC.NOT_TRAINED then s.setOutcome p OC.ACCEPTED_ABSENT
  else if o = OC.DUP then s
  else
    match s.swapOf p, adopt && s.adoptable p with
    | some q, true =>
      let s := (s.setOutcome p OC.ADOPTED).setLink p PS.UP
      { s with sg := { s.sg with adopted := kset s.sg.adopted q p, substDue := true } }
    | _, _ => { s with sg := { s.sg with accepted := addNew s.sg.accepted p } }

/-- Meaning of PLAN_ACCEPT: ARG [15:0] DIFF_GEN, [16] ADOPT. -/
def execPlanAccept (r : CmdReq) (s : State) : Res :=
  let s := s.begin r
  .next (
    if r.arg % 65536 ≠ s.fget R.SG_STATUS.DIFF_GEN ∨ 2 ^ 17 ≤ r.arg then s.answerSt r ST.BAD_PARAM
    else
      let s := s.forEach (s.planPorts.filter s.differs) fun s p => s.acceptDiff (bitAt r.arg 16) p
      let s := { s with sg := { s.sg with acceptDue := s.sled == SS.PLAN_CHECK } }
      s.recount.answerSt r ST.OK)

/-! ## Moves among DISCOVERY, PLAN_CHECK, SERVICE and DEGRADED (R143 to R145) -/

/-- A port is settled (R144). -/
def State.settled (s : State) (p : Nat) : Bool :=
  let st := s.portState p
  PS.MAINTENANCE ≤ st || (st == PS.DOWN && ((s.port p).firstTry || (s.port p).settled))

/-- Meaning of PORT_SETTLE_TIMEOUT: DOWN after 150 ms in DISCOVERY. -/
def execPortSettleTimeout (port : Nat) (s : State) : Res :=
  .next (if port < 160 ∧ s.isPort port ∧ s.sled = SS.DISCOVERY ∧ 150000 ≤ s.tb.discFor ∧ s.portState port = PS.DOWN then
      (s.setPort port { s.port port with settled := true }).recount
    else s)

/-- Every enabled port is settled. -/
def State.allSettled (s : State) : Bool :=
  s.planPorts.all fun p => !s.fbit (R.OP_PORT_CTL.ENABLE p) || s.settled p

/-- Every planned port is MATCH and no port is EXTRA, MISMATCH or SWAP. -/
def State.planMet (s : State) : Bool :=
  s.planPorts.all fun p => (!s.planned p || s.outcome p == OC.MATCH) &&
    (let o := s.outcome p
     o != OC.EXTRA && o != OC.MISMATCH && o != OC.SWAP)

/-- On a running sled DUP_PLANE clears at the boundary after no port records DUP (R143). -/
def State.dupClear (s : State) : State :=
  if (s.sled = SS.SERVICE ∨ s.sled = SS.DEGRADED) ∧ s.fbit R.SG_STATUS.DUP_PLANE ∧
      !(s.planPorts.any fun p => s.outcome p == OC.DUP) then
    s.fsetb R.SG_STATUS.DUP_PLANE false
  else s

/-- Every difference is accepted. -/
def State.allAccepted (s : State) : Bool := s.planPorts.all fun p => !s.differs p || s.sg.accepted.contains p

/-- The move at a frame boundary (R145). -/
def State.planMove (s : State) : State :=
  let s := s.dupClear
  let st := s.sled
  if st = SS.DISCOVERY then
    if s.allSettled && 64 ≤ s.tb.discFor then s.enterState SS.PLAN_CHECK else s
  else if st = SS.PLAN_CHECK then
    let acc := s.sg.acceptDue
    let s := { s with sg := { s.sg with acceptDue := false } }
    if s.fbit R.SG_STATUS.DUP_PLANE then s
    else if s.planMet then s.enterState SS.SERVICE
    else if acc || s.allAccepted then s.enterState SS.DEGRADED
    else s
  else if st = SS.SERVICE then
    if s.sg.newDiff then
      ({ s with sg := { s.sg with newDiff := false } }.enterState SS.DEGRADED).alert 2
    else s
  else if st = SS.DEGRADED then
    if s.planMet then s.enterState SS.SERVICE else s
  else s

/-- Meaning of PLAN_STATE_CHANGE. -/
def execPlanStateChange (s : State) : Res := .next s.planMove

end Sys2Proof.Machine
end

