-- ==== Sys2Proof/Machine/Ports.lean ====
section
/-! DEFINITION. Optical ports: cells received, link states, training, versions, link management, wavelength retirement
and loss (R75, R80, R84, R88, R90 to R104, R554, R555). -/

namespace Sys2Proof.Machine

/-! ## Link management (R98) -/

/-- A link management cell. No rule gives its SRC, CONTEXT and SEQ (assumption 139). -/
def State.mgmtCell (s : State) (p kind wl cause n : Nat) (errors : List Nat) : Cell :=
  { typ := T.STATUS, cls := clsCtl, dst := 1023, src := if p < 160 then 384 + s.plane else s.fget R.CH_CTL.EP_ID
    payload := lineOf (leBytes kind 1 ++ leBytes wl 1 ++ leBytes cause 1 ++ leBytes 0 5 ++ leBytes n 8
      ++ (List.range 8).flatMap fun k => leBytes (errors.getD k 0) 4) }

/-- A trained port sends a link management message in a slot of its own; one that still waits is not queued twice. -/
def State.sendMgmt (s : State) (p kind wl cause n : Nat) (errors : List Nat) : State :=
  let c := s.mgmtCell p kind wl cause n errors
  if !s.trained p || (s.port p).sendQ.contains c then s else s.portSend p c

/-- A cell that waits at a port grows older; a train's cells age with their transfer (R89, R153). -/
def agedQueue (p : Nat) (l : List Cell) : List Cell :=
  if 144 ≤ p ∧ p < 160 then l else (l.map olderCell).filter fun c => !aged c

/-- A new frame: each port's four link cells and its slots are free again, and what waited goes. -/
def State.mgmtTick (s : State) : State :=
  s.forEach ((List.range 176).filter s.trained) fun s p =>
    let x := s.port p
    (s.setPort p { x with mgmtSent := 0, sendQ := agedQueue p x.sendQ }).portPump p

/-! ## Cells received (R80, R88, R90) -/

/-- Types that a trained port which is not UP carries (R91). -/
def carriedUnrouted (c : Cell) : Bool := c.typ == T.PATTERN || (c.typ == T.STATUS && c.dst == 1023)

/-- Where a port's cells go on: the core's input, the Tollgate, or the chiplet's end-point block. -/
def nextStop (p : Nat) : Nat := if 144 ≤ p ∧ p < 160 then p + 176 else p

/-- A port receives a cell. Link management cells and heartbeats end at the port; what they say is handled by their own
commands. R80 judges the timebase the port belongs to; while an alignment repeats, the link carries no cells (R79). -/
def State.cellReceive (s : State) (p : Nat) (c : Cell) (uncorr overflow : Bool) : State :=
  if !s.trained p || !s.steady p then s
  else if uncorr then (s.finc (R.OP_PORT_STATS.DISCARD_FEC p) 1).almAdd 2 0 64 1
  else if c.malformed then (s.finc (R.OP_PORT_STATS.DISCARD_FORMAT p) 1).almAdd 2 0 68 1
  else if overflow && (s.lockOf p == LK.FREE || s.lockOf p == LK.ACQUIRE) then s.finc (R.OP_PORT_STATS.DISCARD_ALIGN p) 1
  else if c.typ = T.IDLE ∨ c.typ = T.HEARTBEAT ∨ (c.typ = T.STATUS ∧ c.dst = 1023) then s
  else if s.portState p = PS.UP then s.emit (.inject (nextStop p) c)
  else s

/-- Meaning of CELL_RECEIVE. -/
def execCellReceive (port : Nat) (cell : Cell) (uncorr overflow : Bool) (s : State) : Res :=
  .next (s.cellReceive port cell uncorr overflow)

/-! ## Going DOWN -/

/-- A LINK_TEST on a working wavelength, a WIRING_VERIFY or a CONNECTOR_INSPECT occupies the port (R522, R529, R530), or
it answers beacons (R528): it does not train. -/
def State.tested (s : State) (p : Nat) : Bool :=
  s.pat.jobs.any (fun j => j.started && j.records.any fun r => r.1 == p && bitAt r.2.2 2) || s.now < (s.port p).beaconUntil

/-- A LINK_TEST ends on a port at once (R522). -/
def State.testEnd (s : State) (p : Nat) : State :=
  let f (j : LinkJob) : LinkJob :=
    if j.kind ≠ 0 ∨ !j.started then j
    else { j with
      records := j.records.map fun r => if r.1 = p then (r.1, r.2.1, bitClr r.2.2 2) else r
      tests := j.tests.map fun t => if t.port = p then { t with ended := true } else t }
  { s with pat := { s.pat with jobs := s.pat.jobs.map f } }

/-- The port may transmit light and train: enabled, not forced down, not in reset or under test, no uplink that the plan
leaves unused (R149), and its sled or chiplet in a state that trains. -/
def State.lit (s : State) (p : Nat) : Bool :=
  s.isPort p && s.fbit (R.OP_PORT_CTL.ENABLE p) && !s.fbit (R.OP_PORT_CTL.FORCE_DOWN p) && !s.tested p &&
    !s.unitInReset 0 p && (p < 144 || 160 ≤ p || s.planned p) &&
  (if p < 160 then
    (s.sled == SS.DISCOVERY || s.sled == SS.PLAN_CHECK || s.sled == SS.SERVICE || s.sled == SS.DEGRADED
      || s.sled == SS.DRAIN)
   else s.fbit R.CH_CTL.PORTS_EN && !s.chip.hold)

/-- No interval of the link stands behind OVER_RUN any more: only a link that stays trained has consecutive ones (R101). -/
def State.clearRuns (s : State) (p : Nat) : State :=
  s.forEach (List.range 8) fun s k =>
    if s.fget (R.OP_WL_BER.OVER_RUN p k) = 0 ∧ s.fget (R.OP_WL_BER.FAR_OVER p k) = 0 then s
    else (s.fset (R.OP_WL_BER.OVER_RUN p k) 0).fset (R.OP_WL_BER.FAR_OVER p k) 0

/-- The port leaves whatever link it had: positions that were UP lose what is queued (R119), the outcome is NOT_TRAINED
unless it was accepted as absent, and pending width changes of the port end. -/
def State.unlink (s : State) (p : Nat) : State :=
  let s := s.setLink p PS.DOWN
  let s := (((s.fset (R.OP_PORT_STATUS.WIDTH p) 0).fset (R.OP_PORT_STATUS.WL_WORKING p) 0).fset
    (R.OP_PORT_STATUS.PROTO_HOLD p) 0).fset (R.OP_PORT_STATUS.VERSION_HOLD p) 0
  let x := s.port p
  let s := s.setPort p { x with far := none, forced := false, dueMaint := false, duePlace := false, sendQ := [],
                                farErrors := [], prevRun := [], noLock := 0 }
  let s := s.clearRuns p
  let s := { s with
    tb := { s.tb with realign := kdel s.tb.realign p, markers := kdel s.tb.markers p }
    tt := { s.tt with changes := s.tt.changes.filter (·.pos != chgPos p) } }
  if 160 ≤ p then { s with chip := { s.chip with leaving := s.chip.leaving.filter (· != p - 160) } }.chipFollow
  else if s.outcome p = OC.ACCEPTED_ABSENT then s
  else (s.setOutcome p OC.NOT_TRAINED).recount

/-- The port goes DOWN; `light` says that light was lost (R92, R465). -/
def State.portDown (s : State) (p : Nat) (light : Bool) : State :=
  if s.portState p = PS.DOWN then s
  else
    let s := ((s.unlink p).almAdd 4 p 21 1).almLow 4 p 20 0
    let s := s.when (light && p < 128) fun s =>
      let f := R.VG_GONE_LIGHT.MAP (p / 64)
      (s.fset f (bitSet (s.fget f) (p % 64))).almAdd 3 0 38 1
    if light then s.setPort p { s.port p with retryAt := some (s.now + 1000) } else s

/-- Meaning of LIGHT_LOSS (R92): DOWN at the frame boundary, training again after 1 ms. -/
def execLightLoss (port : Nat) (s : State) : Res :=
  .next (if s.isPort port then s.portDown port true else s)

/-- Meaning of CODED_STREAM_LOSS (R554): the link is lost, no wavelength is, and no LIGHT mark is set. -/
def execCodedStreamLoss (port : Nat) (s : State) : Res :=
  .next (if s.trained port then s.portDown port false else s)

/-! ## Training (R93 to R97) -/

/-- The port enters TRAINING. -/
def State.trainBegin (s : State) (p : Nat) : State :=
  let s := s.setLink p PS.TRAINING
  let s := s.fset (R.OP_PORT_STATUS.WL_RETIRED p) 0
  (s.setPort p { s.port p with retryAt := none, noLock := 0, linkFrame := 0
                               fwOver := s.fbit (R.OP_PORT_CTL.FW_OVERRIDE p) }).emit (.light p 0xFF 0)

/-- A training step failed: DOWN, FAIL_STEP, and the next try after 1 ms, or 60 s after eight failures (R92, R93). -/
def State.trainFail (s : State) (p step : Nat) : State :=
  let s := (s.portDown p false).fset (R.OP_PORT_STATUS.FAIL_STEP p) step
  let x := s.port p
  let n := x.failed + 1
  s.setPort p { x with failed := n, firstTry := true
                       retryAt := some (s.now + (if 8 ≤ n then 60000000 else 1000)) }

/-- Firmware major of the port's own end. -/
def State.ownMajor (s : State) (p : Nat) : Nat := if p < 160 then s.fget R.CP_FW.RUN_MAJOR else s.chip.fwMajor

/-- Wavelengths a port may use: λ0 to λ3 on an uplink of a torus or to a PROTO 4 end (R96, R149). -/
def State.gridOf (s : State) (p : Nat) (f : Identity) : Nat :=
  if 144 ≤ p ∧ p < 160 ∧ (s.sg.topology = 2 ∨ f.proto = 4) then 0x0F else 0xFF

/-- Step 6 holds the link: (PROTO_HOLD, VERSION_HOLD). -/
def State.holds (s : State) (p : Nat) (f : Identity) : Bool × Bool :=
  if f.proto = 4 ∧ 144 ≤ p ∧ p < 160 then (false, false)
  else if f.proto ≠ 5 then (true, false)
  else (false, f.fwMajor != s.ownMajor p && !(s.port p).fwOver && !f.fwOverride)

/-- The far end's fields of OP_PORT_STATUS. -/
def State.recordFar (s : State) (p : Nat) (f : Identity) : State :=
  ((((s.fset (R.OP_PORT_STATUS.FAR_PROTO p) f.proto).fset (R.OP_PORT_STATUS.FAR_KIND p) f.kind).fset
    (R.OP_PORT_STATUS.FAR_FW_MAJOR p) f.fwMajor).fset (R.OP_PORT_STATUS.FAR_FW_MINOR p) f.fwMinor).fset
    (R.OP_PORT_STATUS.FAR_PLANE p) f.plane

/-- The serial number as the identity block gives it: 16 bytes. -/
def serialNum : Nat := leNat (bytesAt Config.serial 0 16)

/-- The identity that a port's own end sends in training step 5 and in beacons (R94): `wl` is the working set its receiver
qualified. -/
def State.ownIdentity (s : State) (p wl : Nat) : Identity :=
  let x := s.port p
  let chip := decide (160 ≤ p)
  { kind := if chip then 2 else if 144 ≤ p then 1 else 0
    fwMajor := s.ownMajor p
    fwMinor := if chip then 0 else s.fget R.CP_FW.RUN_MINOR
    rack := if chip then s.chip.rack else s.rack
    plane := if chip then p - 160 else s.plane
    port := if chip then s.fget R.CH_CTL.EP_ID else portNum p
    epId := if chip then s.fget R.CH_CTL.EP_ID else 0x3FF
    serial := serialNum
    wlGood := wl
    lock := s.lockOf p
    linkFrame := x.linkFrame % 272
    arrivalFull := unsigned (kgetD s.tb.markers p {}).arrival 16
    fwOverride := s.fbit (R.OP_PORT_CTL.FW_OVERRIDE p) }

/-- The 64 payload bytes of an identity IDLE cell (R94). -/
def identityBytes (i : Identity) : List Byte :=
  leBytes 0x1D05 2 ++ leBytes i.proto 1 ++ leBytes i.kind 1 ++ leBytes i.fwMajor 1 ++ leBytes i.fwMinor 1
    ++ leBytes i.rack 1 ++ leBytes i.plane 1 ++ leBytes i.port 2 ++ leBytes i.epId 2 ++ leBytes i.serial 16
    ++ leBytes i.wlGood 1 ++ leBytes i.lock 1 ++ leBytes i.linkFrame 2 ++ leBytes i.cellIndex 1 ++ leBytes 0 1
    ++ leBytes i.arrivalFull 2 ++ leBytes (1 + (if i.fwOverride then 2 else 0)) 2 ++ leBytes 0 26

/-- The identity IDLE cell in the slot of FCLK t: CELL_INDEX counts the cells of its wavelength in the frame. -/
def identityCell (i : Identity) (t : Nat) : Cell := { payload := lineOf (identityBytes { i with cellIndex := t / 8 }) }

/-- Steps 3 to 7 of a training that meets every limit: the link's count of frames stands at the frames since step 3 set it
to 0, identity cells have gone out in every slot, the far identity came in three identical copies, and the arrival times
of both ends give the delay. -/
def State.trainEnd (s : State) (p : Nat) (i : TrainInfo) : State :=
  let x := s.port p
  let f := i.far
  let w := (bitList (i.wlOwn &&& f.wlGood &&& s.gridOf p f) 8).filter fun k => !bitAt x.noLock k
  let width := widthOf w.length
  let s := (s.setPort p { x with linkFrame := i.frames }).emit (.identity p (s.ownIdentity p i.wlOwn))
  if width = 0 then s.trainFail p 4
  else if i.copies < 3 then s.trainFail p 5
  else
    let s := (s.fset (R.OP_PORT_STATUS.WL_WORKING p) (bitMap w)).fset (R.OP_PORT_STATUS.WIDTH p) width
    let s := (s.recordFar p f).aligned p i.arrival f.arrivalFull
    let s := s.setPort p { s.port p with far := some f, failed := 0, retryAt := none }
    let s := if p = 160 then { s with chip := { s.chip with rack := f.rack } } else s
    let h := s.holds p f
    if h.1 || h.2 then
      ((s.fsetb (R.OP_PORT_STATUS.PROTO_HOLD p) h.1).fsetb (R.OP_PORT_STATUS.VERSION_HOLD p) h.2).setLink p PS.MAINTENANCE
    else if s.fbit (R.OP_PORT_CTL.FORCE_MAINT p) then
      (s.setPort p { s.port p with forced := true }).setLink p PS.MAINTENANCE
    else
      let s := s.placePort p f
      if p < 160 then s.recount else s

/-- Meaning of TRAINING_START: without `info` the training begins; with it, it ends within every limit. -/
def execTrainingStart (port : Nat) (info : Option TrainInfo) (s : State) : Res :=
  .next (match info with
    | none =>
      if s.lit port && s.portState port == PS.DOWN && (s.port port).retryAt.all (· ≤ s.now) then s.trainBegin port else s
    | some i => if s.isPort port && s.portState port == PS.TRAINING then s.trainEnd port i else s)

/-- Meaning of TRAINING_STEP_TIMEOUT: a step from 1 to 5 exceeds its limit. -/
def execTrainingStepTimeout (port step : Nat) (s : State) : Res :=
  .next (if s.isPort port ∧ s.portState port = PS.TRAINING ∧ 1 ≤ step ∧ step ≤ 5 then s.trainFail port step else s)

/-- Meaning of TRAINING_RETRY: the port transmits again and trains when it detects light. -/
def execTrainingRetry (port : Nat) (s : State) : Res :=
  .next (if s.lit port && s.portState port == PS.DOWN && (s.port port).retryAt.any (· ≤ s.now) then
      (s.setPort port { s.port port with retryAt := none }).emit (.light port 0xFF 0)
    else s)

/-- Meaning of RING_LOCK_TIMEOUT (R75): the wavelength is left out of the running training. -/
def execRingLockTimeout (port wl : Nat) (s : State) : Res :=
  .next (if s.isPort port ∧ s.portState port = PS.TRAINING ∧ wl < 8 then
      s.setPort port { s.port port with noLock := bitSet (s.port port).noLock wl }
    else s)

/-! ## OP_PORT_CTL -/

/-- Meaning of ENABLE (R92): 0 makes the port dark and DOWN; 1 lets it train, but for an uplink that the plan leaves
unused, whose ENABLE is held at 0 (R149). -/
def execEnable (port : Nat) (v : Bool) (s : State) : Res :=
  .next (if !s.isPort port then s
    else
      let v := v && (port < 144 || 160 ≤ port || s.planned port)
      let s := s.fsetb (R.OP_PORT_CTL.ENABLE port) v
      if v then s
      else
        let s := s.portDown port false
        s.setPort port { s.port port with failed := 0, retryAt := none })

/-- Meaning of FW_OVERRIDE (R97): it takes effect at the next training. -/
def execFwOverride (port : Nat) (v : Bool) (s : State) : Res :=
  .next (if s.isPort port then s.fsetb (R.OP_PORT_CTL.FW_OVERRIDE port) v else s)

/-- Meaning of RETRAIN (R93): the port leaves its state and starts TRAINING. -/
def execRetrain (port : Nat) (s : State) : Res :=
  .next (if s.lit port then (s.unlink port).trainBegin port else s)

/-- Meaning of FORCE_DOWN (R91): 1 holds the port DOWN; 0 releases it. -/
def execForceDown (port : Nat) (v : Bool) (s : State) : Res :=
  .next (if !s.isPort port then s
    else
      let was := s.fbit (R.OP_PORT_CTL.FORCE_DOWN port)
      let s := s.fsetb (R.OP_PORT_CTL.FORCE_DOWN port) v
      if v then s.portDown port false else s.when was (·.testEnd port))

/-- Meaning of FORCE_MAINT (R555): the move, or the placing again, falls to the next frame boundary. -/
def execForceMaint (port : Nat) (v : Bool) (s : State) : Res :=
  .next (if !s.isPort port then s
    else
      let old := s.fbit (R.OP_PORT_CTL.FORCE_MAINT port)
      let s := s.fsetb (R.OP_PORT_CTL.FORCE_MAINT port) v
      let x := s.port port
      s.setPort port { x with dueMaint := v && s.trained port, duePlace := !v && (old || x.duePlace) })

/-- A port's due moves at a frame boundary (R555). -/
def State.portTick (s : State) (p : Nat) : State :=
  let x := s.port p
  let s := s.setPort p { x with dueMaint := false, duePlace := false }
  if x.dueMaint && s.trained p then
    if s.portState p = PS.MAINTENANCE then s
    else (s.setPort p { s.port p with forced := true }).setLink p PS.MAINTENANCE
  else if x.duePlace && x.forced && s.portState p == PS.MAINTENANCE then
    match x.far with
    | some f =>
      let s := (s.setPort p { s.port p with forced := false }).placePort p f
      if p < 160 then s.recount else s
    | none => s
  else s

/-- Every port's due moves. -/
def State.portsTick (s : State) : State :=
  s.forEach (s.ports.filter fun e => e.2.dueMaint || e.2.duePlace) fun s e => s.portTick e.1

/-! ## Retirement and loss (R99 to R104) -/

/-- This end decides on retirement (R100), by what the far end is: a chiplet never does, of two sleds' core ports the
lower-numbered sled, of two uplinks the Tollgate of the lower-numbered rack. -/
def State.decides (s : State) (p : Nat) : Bool :=
  p < 160 && (s.port p).far.any fun f =>
    if f.kind = 2 then true else if f.kind = 0 then s.plane < f.plane else s.rack < f.rack

/-- Working wavelengths of a port without those that a pending change takes. -/
def State.leftWl (s : State) (p : Nat) : List Nat :=
  (bitList (s.fget (R.OP_PORT_STATUS.WL_WORKING p)) 8).filter fun k =>
    !s.tt.changes.any fun c => c.pos == chgPos p && c.wl == k

/-- A change of width at a port is decided: wavelength k leaves at frame n. A port that goes DOWN keeps its charges
(R51), so the change asks no narrower width of the timetable. -/
def State.portChange (s : State) (p k n cause : Nat) (sending : Bool) : State :=
  let left := (s.leftWl p).filter (· != k)
  let w := widthOf left.length
  s.decideWidth { pos := chgPos p, wl := k, width := if w = 0 then s.fget (R.OP_PORT_STATUS.WIDTH p) else w, n := n
                  planned := cause == 0, cause := cause, sending := sending }

/-- Step 1 of R102: the deciding end names N = D + 32 and sends RETIRE. -/
def State.retireDecide (s : State) (p k : Nat) : State :=
  if !(s.leftWl p).contains k then s
  else (s.portChange p k (s.now + 32) 0 true).sendMgmt p 2 k 0 (s.now + 32) []

/-- The wavelengths of a port that 3 consecutive intervals found above 1e-4 are retired by the deciding end (R101). -/
def State.retireDue (s : State) (p : Nat) : State :=
  if !s.decides p then s
  else s.forEach ((s.leftWl p).filter fun k => s.fget (R.OP_WL_BER.OVER_RUN p k) = 3) fun s k => s.retireDecide p k

/-- Errors that make an interval count as above 1e-4. -/
def berLimit : Nat := 13550001

/-- 10 times the negative decimal logarithm of a BER, rounded down: the largest v up to 255 with
errors^10 × 10^v ≤ (135.5 × 10^9)^10. -/
def berLevel (errors : Nat) : Nat :=
  (List.range 256).foldl (fun m v => if errors ^ 10 * 10 ^ v ≤ 135500000000 ^ 10 then v else m) 0

/-- One wavelength at the end of an interval: the last counts, the run of intervals above 1e-4. A far end's report of
the same interval can still raise the run. -/
def State.berWl (s : State) (p k e u : Nat) : State :=
  let above := berLimit ≤ e || u != 0
  let old := s.fget (R.OP_WL_BER.OVER_RUN p k)
  let s := (s.fset (R.OP_WL_BER.ERRORS_LAST p k) (min e 0xFFFFFFFF)).fset (R.OP_WL_BER.UNCORR_LAST p k) (min u 0xFFFF)
  let s := s.setPort p { s.port p with prevRun := kset (s.port p).prevRun k old }
  let s := s.fset (R.OP_WL_BER.OVER_RUN p k) (if above then min 3 (old + 1) else 0)
  let lvl := berLevel e + (if 0 < e then s.freeVal % 2 else 0)
  (s.almMin 4 p 24 (min 255 lvl)).freeUsed

/-- Meaning of BER_INTERVAL_END: at frames that are multiples of 1,000,000, on a trained port. -/
def execBerIntervalEnd (port : Nat) (errors uncorr : List Nat) (s : State) : Res :=
  .next (if !s.trained port ∨ s.now % 1000000 ≠ 0 then s
    else
      let s := s.forEach (bitList (s.fget (R.OP_PORT_STATUS.WL_WORKING port)) 8) fun s k =>
        s.berWl port k (errors.getD k 0) (uncorr.getD k 0)
      if s.decides port then s.retireDue port
      else s.sendMgmt port 1 0 0 (s.now - 1000000) errors)

/-- Meaning of RX_REPORT: the far end's errors of the interval; an interval above 1e-4 in either direction counts
(R101). -/
def execRxReport (port : Nat) (errors : List Nat) (s : State) : Res :=
  .next (if !s.trained port then s
    else
      let s := s.setPort port { s.port port with farErrors := errors }
      let s := s.forEach (bitList (s.fget (R.OP_PORT_STATUS.WL_WORKING port)) 8) fun s k =>
        let above := berLimit ≤ errors.getD k 0
        let s := s.fsetb (R.OP_WL_BER.FAR_OVER port k) above
        match kget (s.port port).prevRun k with
        | none => s
        | some old =>
          let s := s.setPort port { s.port port with prevRun := kdel (s.port port).prevRun k }
          if above && s.fget (R.OP_WL_BER.OVER_RUN port k) == 0 then s.fset (R.OP_WL_BER.OVER_RUN port k) (min 3 (old + 1))
          else s
      s.retireDue port)

/-- Meaning of RETIRE: the far end revises its own bank for N and replies RETIRE_ACK. -/
def execRetire (port wl cause n : Nat) (s : State) : Res :=
  .next (if !s.trained port ∨ 8 ≤ wl then s
    else
      let known := s.tt.changes.any fun c => c.pos == chgPos port && c.wl == wl && c.n ≤ n
      let work := bitAt (s.fget (R.OP_PORT_STATUS.WL_WORKING port)) wl
        || s.tt.changes.any fun c => c.pos == chgPos port && c.wl == wl
      let s := if work ∧ !known then s.portChange port wl n cause false else s
      s.sendMgmt port 3 wl cause n [])

/-- Meaning of RETIRE_ACK: the deciding end stops sending RETIRE. -/
def execRetireAck (port wl : Nat) (s : State) : Res :=
  let cs : List WidthChange := s.tt.changes.map fun c =>
    if c.pos = chgPos port ∧ c.wl = wl then { c with sending := false, acked := true } else c
  .next { s with tt := { s.tt with changes := cs } }

/-- A wavelength leaves the working set: maps, the count of the page, the alert (R104). -/
def State.wlOut (s : State) (p k : Nat) : State :=
  let w := s.fget (R.OP_PORT_STATUS.WL_WORKING p)
  if !bitAt w k then s
  else
    let s := (s.fset (R.OP_PORT_STATUS.WL_WORKING p) (bitClr w k)).fset (R.OP_PORT_STATUS.WL_RETIRED p)
      (bitSet (s.fget (R.OP_PORT_STATUS.WL_RETIRED p)) k)
    let s := (s.fset (R.OP_WL_BER.OVER_RUN p k) 0).fset (R.OP_WL_BER.FAR_OVER p k) 0
    if 160 ≤ p then s else ((s.almAdd 2 0 48 1).almOr 4 p 22 (2 ^ k)).alert 1

/-- The width follows the working set; with fewer than four the port goes DOWN (R99). -/
def State.fitWidth (s : State) (p : Nat) : State :=
  let w := widthOf (popCount (s.fget (R.OP_PORT_STATUS.WL_WORKING p)) 8)
  if w = 0 then s.portDown p false else (s.fset (R.OP_PORT_STATUS.WIDTH p) w).almLow 4 p 20 w

/-- Meaning of WAVELENGTH_LOST (R68, R103): RETIRE names N = F_L + 4, F_L the next frame, at whose start the width
falls. -/
def execWavelengthLost (port wl : Nat) (s : State) : Res :=
  .next (if !s.trained port ∨ !bitAt (s.fget (R.OP_PORT_STATUS.WL_WORKING port)) wl ∨ 8 ≤ wl then s
    else (s.portChange port wl (s.now + 5) 1 true).sendMgmt port 2 wl 1 (s.now + 5) [])

/-- RETIRE is sent in every frame until it is acknowledged or N is reached (R102). -/
def State.retireTick (s : State) : State :=
  s.forEach (s.tt.changes.filter fun c => c.sending && s.now < c.n && (c.pos < 144 || 160 ≤ c.pos)) fun s c =>
    s.sendMgmt (chgPort c.pos) 2 c.wl c.cause c.n []

/-- A hub-link lane leaves (R288). -/
def State.laneOut (s : State) (h k : Nat) : State :=
  let w := s.fget (R.HB_LINK.LANE_WORKING h)
  if !bitAt w k then s
  else
    let s := (s.fset (R.HB_LINK.LANE_WORKING h) (bitClr w k)).fset (R.HB_LINK.LANE_RETIRED h)
      (bitSet (s.fget (R.HB_LINK.LANE_RETIRED h)) k)
    (s.alert 1).almAdd 2 0 52 1

/-- The hub link's width follows its lanes; with fewer than four the position goes DOWN (R287). -/
def State.fitLanes (s : State) (h : Nat) : State :=
  let old := s.fget (R.HB_LINK.WIDTH h)
  let w := widthOf (popCount (s.fget (R.HB_LINK.LANE_WORKING h)) 8)
  let s := s.fset (R.HB_LINK.WIDTH h) w
  if w = 0 ∧ old ≠ 0 then
    let s := { s with tt := { s.tt with changes := s.tt.changes.filter (·.pos != 144 + h) } }
    s.leaveUp (144 + h) old
  else s

/-- At the start of F_L, four frames before the mapping changes, a wavelength or lane lost without a plan leaves the
working set and the width falls (R68, R103). -/
def State.lossTick (s : State) : State :=
  s.forEach (s.tt.changes.filter fun c => !c.planned && decide (c.n ≤ s.now + 4)) fun s c =>
    if 144 ≤ c.pos ∧ c.pos < 160 then
      if bitAt (s.fget (R.HB_LINK.LANE_WORKING (c.pos - 144))) c.wl then
        (s.laneOut (c.pos - 144) c.wl).fitLanes (c.pos - 144)
      else s
    else if bitAt (s.fget (R.OP_PORT_STATUS.WL_WORKING (chgPort c.pos))) c.wl then
      (s.wlOut (chgPort c.pos) c.wl).fitWidth (chgPort c.pos)
    else s

/-- A width change takes effect at FCLK 0 of its frame (R102, R103), and the revised bank with it (R67, R68). -/
def State.widthChange (s : State) (x : Nat) : State :=
  let due : List WidthChange := s.tt.changes.filter fun c => c.pos == x && decide (c.n ≤ s.now)
  if due.isEmpty = true then s
  else
    let s := { s with tt := { s.tt with changes := s.tt.changes.filter fun c => !(c.pos == x && c.n ≤ s.now) } }
    let s := if 144 ≤ x ∧ x < 160 then (s.forEach due fun s c => s.laneOut (x - 144) c.wl).fitLanes (x - 144)
      else (s.forEach due fun s c => s.wlOut (chgPort x) c.wl).fitWidth (chgPort x)
    s.activateRevised

/-- Meaning of WIDTH_CHANGE. -/
def execWidthChange (pos : Nat) (s : State) : Res := .next (s.widthChange pos)

end Sys2Proof.Machine
end

