-- ==== Sys2Proof/Machine/Tollgate.lean ====
section
/-! DEFINITION. The Tollgate: far windows, batches, transfers, routing between racks, the far side (R149 to R162). -/

namespace Sys2Proof.Machine

def State.setTg (s : State) (x : Tollgate) : State := { s with tg := x }

/-- Id of this sled's Tollgate. -/
def State.tgId (s : State) : Nat := 400 + s.plane

/-- A cell of the Tollgate enters the core at position 128 + s. -/
def State.tgSend (s : State) (c : Cell) : State := s.ownSend c

/-! ## Settings -/

/-- A change to TG_CTL applies from the next frame: what is in force is what the register held at the last tick. -/
def State.gather (s : State) : Nat := s.tg.gather
def State.detourMax (s : State) : Nat := s.tg.detourMax

/-! ## Trains (R159) -/

/-- Bytes of a byte mask's pieces that a line lacks nothing of. -/
def fullMask : Nat := 2 ^ 64 - 1

/-- OP of a transfer: header bytes 14 and 15 of the original, OPMOD in their bits 13 to 10, which R85 leaves zero, and for
a SINGLE its type in bits 15 and 14: 0 READ, 1 WRITE, 2 ATOMIC (assumption 142). -/
def opField (t : Transfer) : Nat :=
  let ty := match t.single with
    | some c => if c.typ = T.READ then 0 else if c.typ = T.WRITE then 1 else 2
    | none => 0
  t.op % 2 ^ 10 + t.opmod % 16 * 2 ^ 10 + ty * 2 ^ 14

/-- The lines a train names, its partial ones with their masks, and the data it carries. A SINGLE names the one line of
its access, with the bytes it covers, and carries its payload unless it reads. -/
def trainContent (t : Transfer) : Nat × KV Nat × KV (BitVec 512) :=
  match t.kind, t.single with
  | 4, some c =>
    let l := c.offset % 4096 / 64
    (2 ^ l, if c.mask = fullMask then [] else [(l, c.mask)], if c.typ = T.READ then [] else [(l, c.payload)])
  | _, _ => (t.lines, (bitList t.partialMap 64).map fun l => (l, kgetD t.masks l fullMask),
      (bitList t.lines 64).filterMap fun l => (kget t.data l).map fun d => (l, d))

/-- The head cell's payload. -/
def trainHeader (t : Transfer) : List Byte :=
  let k := trainContent t
  leBytes t.kind 1 ++ leBytes (k.2.2.length + ceilDiv k.2.1.length 8) 1 ++ leBytes t.age 2 ++ leBytes t.hops 1
    ++ leBytes t.budget 1 ++ leBytes t.detours 1 ++ leBytes t.srcRack 1 ++ leBytes t.dstRack 1 ++ leBytes t.ctx 1
    ++ leBytes (t.farId % 1024 + t.farSpace % 4 * 1024) 2 ++ leBytes t.tid 4 ++ leBytes t.page 6
    ++ leBytes (opField t) 2 ++ leBytes k.1 8 ++ leBytes (bitMap (k.2.1.map (·.1))) 8 ++ leBytes t.status 4 ++ leBytes 0 20

/-- The cells of a train: the head cell, the data cells in ascending line order, the mask cells of eight masks each. No
rule gives their TYPE, which is WRITE (assumption 142). -/
def trainCells (t : Transfer) (id seq : Nat) : List Cell :=
  let k := trainContent t
  let c : Cell := { typ := T.WRITE, cls := clsBE, dst := id, src := id, seq := seq }
  let masks := k.2.1.map (·.2)
  { c with fetch := true, payload := lineOf (trainHeader t) } :: k.2.2.map (fun d => { c with payload := d.2 })
    ++ (List.range (ceilDiv masks.length 8)).map fun i =>
      { c with payload := lineOf (((masks.drop (8 * i)).take 8).flatMap (leBytes · 8)) }

/-- The length code of a mask's bytes. -/
def maskLen (mask : Nat) : Nat := log2 (popCount mask 64)

/-- The byte at which a mask begins. -/
def maskStart (mask : Nat) : Nat := ((List.range 64).find? (bitAt mask ·)).getD 0

/-- The access of a SINGLE as its train gives it: the bytes of its mask. -/
def singleOf (h : List Byte) (page line mask : Nat) (d : BitVec 512) : Cell :=
  let op := field h 22 2
  let ty := op / 2 ^ 14
  { typ := if ty = 0 then T.READ else if ty = 1 then T.WRITE else T.ATOMIC
    cls := clsBE, ctx := field h 9 1, offset := page + 64 * line + maskStart mask, len := maskLen mask
    fetch := bitAt op 0, hint := bitsOf op 2 1, subtype := bitsOf op 6 3, opmod := bitsOf op 13 10, payload := d }

/-- The transfer that a train's cells bring, in order; none marks a cell discarded under R88 or R90. A train with such a
cell, with a cell of another SEQ or with FETCH set beyond its head, or with more or fewer cells than CELLS is discarded
whole. -/
def trainOf (cells : List (Option Cell)) : Option Transfer :=
  match cells with
  | some c :: rest =>
    let h := lineBytes c.payload
    let cs := rest.filterMap id
    let lines := bitList (field h 24 8) 64
    let parts := bitList (field h 32 8) 64
    let n := field h 1 1 - ceilDiv parts.length 8
    if c.fetch && rest.all (·.any fun d => !d.fetch && d.seq == c.seq) && rest.length == field h 1 1 then
      let ms := (cs.drop n).flatMap fun d => (List.range 8).map fun k => field (lineBytes d.payload) (8 * k) 8
      let masks : KV Nat := (List.range parts.length).map fun k => (parts.getD k 0, ms.getD k 0)
      let data : KV (BitVec 512) := (List.range n).map fun k => (lines.getD k 0, (cs.getD k {}).payload)
      let kind := field h 0 1
      let op := field h 22 2
      let l := lines.headD 0
      some
        { kind := kind, age := field h 2 2, hops := field h 4 1, budget := field h 5 1, detours := field h 6 1
          srcRack := field h 7 1, dstRack := field h 8 1, ctx := field h 9 1, farId := field h 10 2 % 1024
          farSpace := bitsOf (field h 10 2) 11 10, tid := field h 12 4, page := field h 16 6, op := op % 2 ^ 10
          opmod := bitsOf op 13 10, status := field h 40 4
          lines := if kind = 4 then 0 else field h 24 8
          partialMap := if kind = 4 then 0 else field h 32 8
          masks := if kind = 4 then [] else masks
          data := if kind = 4 then [] else data
          single := if kind = 4 then some (singleOf h (field h 16 6) l (kgetD masks l fullMask) (kgetD data l 0)) else none }
    else none
  | _ => none

/-! ## Routing (R150 to R152) -/

/-- Rack r's coordinate, its size and its stride in a dimension of the torus. -/
def State.coord (s : State) (r dim : Nat) : Nat × Nat :=
  let n := if dim = 0 then s.sg.sizeX else if dim = 1 then s.sg.sizeY else s.sg.sizeZ
  let st := if dim = 0 then 1 else if dim = 1 then s.sg.sizeX else s.sg.sizeX * s.sg.sizeY
  (if n = 0 then 0 else r / st % n, n)

/-- Hops up and hops down from c to d in a dimension of the torus. -/
def State.torusHops (s : State) (c d dim : Nat) : Nat × Nat :=
  let a := s.coord c dim
  let b := s.coord d dim
  if a.2 = 0 then (0, 0) else ((b.1 + a.2 - a.1) % a.2, (a.1 + a.2 - b.1) % a.2)

/-- Hops by productive uplinks alone from rack c to rack d. -/
def State.distance (s : State) (c d : Nat) : Nat :=
  if s.sg.topology = 1 then popCount (c ^^^ d) 8
  else if s.sg.topology = 2 then
    (List.range 3).foldl (fun n i => let h := s.torusHops c d i; n + min h.1 h.2) 0
  else 0

/-- Uplink numbers of the topology that are productive from rack c to rack d (R150). -/
def State.productive (s : State) (c d v : Nat) : Bool :=
  if s.sg.topology = 1 then v / 2 < s.sg.dims && bitAt (c ^^^ d) (v / 2)
  else if s.sg.topology = 2 then
    let h := s.torusHops c d (v / 4)
    v < 12 && h.1 != 0 && (if v % 4 < 2 then h.1 ≤ h.2 else h.2 ≤ h.1)
  else false

/-- The uplink number at whose place in the topology uplink u works: its own, or the one whose far end was adopted at
it (R146). -/
def State.roleOf (s : State) (u : Nat) : Nat :=
  match s.sg.adopted.find? fun a => a.2 == 144 + u && 144 ≤ a.1 with
  | some a => a.1 - 144
  | none => u

/-- An uplink is usable: UP, which only MATCH and ADOPTED are (R149). -/
def State.usable (s : State) (u : Nat) : Bool := s.portState (144 + u) == PS.UP

/-- The uplink a waiting transfer takes now (R151), and whether the hop is a detour. -/
def State.chooseUplink (s : State) (h : HeldTransfer) : Option (Nat × Bool) :=
  let idle (u : Nat) : Bool := s.usable u && !s.tg.busy.contains u
  let prod (u : Nat) : Bool := s.productive s.rack h.t.dstRack (s.roleOf u)
  match (List.range 16).find? fun u => idle u && prod u with
  | some u => some (u, false)
  | none =>
    if h.since + h.detourWait ≤ s.now ∧ h.t.detours < h.detourMax then
      ((List.range 16).find? fun u => idle u && !prod u).map fun u => (u, true)
    else none

/-! ## Buffers (R154) -/

/-- Transfer buffers in use: transfers formed here and not answered, transfers of others held, and far-side work. -/
def State.buffersUsed (s : State) : Nat :=
  s.tg.origins.length + (s.tg.held.filter fun h => h.t.srcRack != s.rack || 5 ≤ h.t.kind).length + s.tg.jobs.length

/-- A new transfer may be formed. -/
def State.mayForm (s : State) : Bool := s.buffersUsed + 64 < 512

/-- Puts a transfer among those that wait, with the detour settings that go with it. -/
def State.holdAs (s : State) (t : Transfer) (mx wait : Nat) (blocked : Bool) : State :=
  let g := s.tg
  s.setTg { g with
    held := g.held ++ [{ key := g.nextKey, t := t, since := s.now, detourMax := mx, detourWait := wait, blocked := blocked }]
    nextKey := g.nextKey + 1 }

/-- Puts a transfer among those that wait for an uplink, under the settings in force. -/
def State.hold (s : State) (t : Transfer) : State := s.holdAs t s.tg.detourMax s.tg.detourWait false

/-! ## Forming transfers (R152, R157, R158) -/

/-- Header bytes 14-15 and OPMOD of an original. -/
def opWord (c : Cell) : Nat :=
  (if c.fetch then 1 else 0) + c.hint * 2 + c.subtype * 8 + (if c.retx then 128 else 0) + c.part * 256

/-- The transfer a batch becomes. -/
def State.transferOf (s : State) (b : Batch) (tid : Nat) : Transfer :=
  let c := b.originals.headD {}
  { kind := b.kind, budget := s.distance s.rack b.rack + 2 * s.detourMax, srcRack := s.rack, dstRack := b.rack,
    ctx := b.ctx, farId := b.epId, farSpace := b.space, tid := tid, page := b.page * 4096,
    op := if b.kind = 2 ∨ b.kind = 4 then opWord c else 0,
    opmod := if b.kind = 2 ∨ b.kind = 4 then c.opmod else 0,
    lines := if b.kind = 3 then b.lines else bitMap (b.data.map (·.1)),
    partialMap := bitMap ((b.masks.filter fun m => m.2 != 2 ^ 64 - 1).map (·.1)),
    data := b.data,
    masks := b.masks.filter fun m => m.2 != 2 ^ 64 - 1,
    single := if b.kind = 4 then some c else none }

/-- Earlier transfers of the same context for the same far page that a SINGLE waits for (R158). -/
def State.earlier (s : State) (b : Batch) : List Nat :=
  (s.tg.origins.filter fun o => o.t.kind ≤ 3 && o.t.ctx == b.ctx && o.t.dstRack == b.rack && o.t.farId == b.epId
    && o.t.farSpace == b.space && o.t.page == b.page * 4096).map (·.tid)

/-- Forms a transfer from a batch. -/
def State.formTransfer (s : State) (b : Batch) : State :=
  let g := s.tg
  let tid := g.nextTid
  let t := s.transferOf b tid
  let w := if b.kind = 4 then s.earlier b else []
  let o : Origin := { tid := tid, t := t, originals := b.originals, waitsFor := w, released := w.isEmpty
                      detourMax := g.detourMax, detourWait := g.detourWait }
  let s := s.setTg { g with nextTid := (tid + 1) % 2 ^ 32, batches := g.batches.filter (·.id != b.id)
                            origins := g.origins ++ [o] }
  let s := (s.finc R.TG_STATS.TRANSFERS 1).almAdd 2 0 80 1
  s.holdAs t g.detourMax g.detourWait (!w.isEmpty)

/-- Two batches are for one far page and context. -/
def samePage (a b : Batch) : Bool :=
  a.rack == b.rack && a.space == b.space && a.epId == b.epId && a.page == b.page && a.ctx == b.ctx

/-- A batch that is to close becomes a transfer when buffers allow, a SINGLE after the batches before it. -/
def State.tryClose (s : State) (id : Nat) : State :=
  match s.tg.batches.find? (·.id == id) with
  | none => s
  | some b =>
    let first := (s.tg.batches.takeWhile (·.id != id)).all fun a => !(samePage a b && (a.closing || b.kind == 4))
    if s.mayForm && first then s.formTransfer b
    else
      let l : List Batch := s.tg.batches.map fun a => if a.id = id then { a with closing := true } else a
      s.setTg { s.tg with batches := l }

/-! ## Accesses that reach the Tollgate (R156 to R158) -/

/-- The access travels alone (R158). -/
def isSingle (c : Cell) (space : Nat) : Bool :=
  !c.allowed || space == 1 || c.hint != 0 || (c.typ == T.READ && c.opmod != 0)
    || (c.typ == T.ATOMIC && (c.fetch || c.opmod == 3))

/-- Batch kind of an access that gathers. -/
def batchKind (c : Cell) : Nat := if c.typ = T.WRITE then 1 else if c.typ = T.ATOMIC then 2 else 3

/-- Adds an access to a batch; later bytes and operands merge as R122 merges them. -/
def gatherInto (b : Batch) (c : Cell) (line : Nat) : Batch :=
  if b.kind = 3 then { b with lines := bitSet b.lines line, originals := b.originals ++ [c] }
  else
    let m := mergeCell { data := kgetD b.data line 0, mask := kgetD b.masks line 0 } c
    { b with data := kset b.data line m.data, masks := kset b.masks line m.mask, originals := b.originals ++ [c] }

/-- Every byte is written, or every line requested. -/
def batchFull (b : Batch) : Bool :=
  if b.kind = 3 then b.lines == 2 ^ 64 - 1
  else b.masks.length == 64 && b.masks.all fun m => m.2 == 2 ^ 64 - 1

/-- The copy of an original that a pending transfer or batch already holds (R162). -/
def State.heldOriginal (s : State) (c : Cell) : Bool :=
  let eq (d : Cell) : Bool := d.src == c.src && d.seq == c.seq && d.dst == c.dst
  (s.tg.batches.any fun b => b.originals.any eq) || s.tg.origins.any fun o => o.originals.any eq

/-- An access that passed its window joins a batch or becomes a SINGLE. -/
def State.tgAccess (s : State) (c : Cell) (rack space epId base : Nat) : State :=
  let off := base * 2 ^ 32 + c.offset % 2 ^ 32
  let new : Batch := { id := s.tg.nextKey, rack := rack, space := space, epId := epId, page := off / 4096, ctx := c.ctx
                       openedAt := s.now, gather := s.gather }
  let line := off % 4096 / 64
  let bump (s : State) (b : Batch) : State :=
    s.setTg { s.tg with nextKey := s.tg.nextKey + 1, batches := s.tg.batches ++ [b] }
  if isSingle c space then
    let s := s.forEach (s.tg.batches.filter fun b => b.kind ≤ 3 && b.rack == rack && b.space == space && b.epId == epId
      && b.page == off / 4096) fun s b => s.tryClose b.id
    (bump s { new with id := s.tg.nextKey, kind := 4, originals := [c], closing := true }).tryClose s.tg.nextKey
  else
    let k := batchKind c
    let fits (b : Batch) : Bool := !b.closing && b.kind == k && samePage b new
      && (k != 2 || (b.opmod == c.opmod && b.subtype == c.subtype))
    match s.tg.batches.find? fits with
    | some b =>
      let b' := gatherInto b c line
      let s := s.setTg { s.tg with batches := s.tg.batches.map fun a => if a.id = b.id then b' else a }
      if batchFull b' then s.tryClose b.id else s
    | none =>
      let b := gatherInto { new with kind := k, opmod := c.opmod, subtype := c.subtype } c line
      let full := 256 ≤ (s.tg.batches.filter fun b => b.kind ≤ 3 && !b.closing).length
      let s := bump s b
      if full || batchFull b then s.tryClose b.id else s

/-- The answer of a cell the far side issued (R160). A transient refusal (R168) is no answer: the cell goes again. -/
def State.farAnswer (s : State) (c : Cell) : State :=
  let mine (d : Cell) : Bool := d.dst == c.src && d.seq == c.seq
  if c.typ = T.NACK ∧ nackRetry c then
    s.forEach ((s.tg.jobs.flatMap (·.waiting)).filter mine) fun s d => s.tgSend { d with retx := true }
  else
  let f (j : FarJob) : FarJob :=
    if j.waiting.any mine then
      let st := if c.typ = T.NACK then nackStatus c else 0
      { j with
        waiting := j.waiting.filter fun d => !mine d
        status := if j.status = 0 then st else j.status
        data := if c.typ = T.RESPONSE then j.data ++ [(c.offset % 4096 / 64, c.payload)] else j.data }
    else j
  s.setTg { s.tg with jobs := s.tg.jobs.map f }

/-- A cell reaches the Tollgate (R156). -/
def State.tollgateReceive (s : State) (c : Cell) : State :=
  if c.dst ≠ s.tgId ∨ s.unitInReset 3 0 then s
  else if c.typ = T.ACK ∨ c.typ = T.NACK ∨ c.typ = T.RESPONSE then s.farAnswer c
  else if c.typ ≠ T.READ ∧ c.typ ≠ T.WRITE ∧ c.typ ≠ T.ATOMIC then s
  else
    let b := s.activeBank 1
    let w := c.offset / 2 ^ 32 % 4096
    let a := R.FAR_WINDOW.addr b w
    let v := (s.reg a).toNat
    if !bitAt v 36 ∨ s.eccBad 1 a then s.tgSend (nackOf c ST.BAD_PARAM false 0)
    else if !s.allPart c.src ∧ s.partOf c.src ≠ bitsOf v 35 32 then
      if s.fbit R.SW_CTL.DENY_NACK then s.tgSend (nackOf c ST.DENIED false 0) else s
    else if c.retx && s.heldOriginal c then s
    else s.tgAccess c (bitsOf v 7 0) (bitsOf v 9 8) (bitsOf v 19 10) (bitsOf v 31 20)

/-- Meaning of TOLLGATE_RECEIVE. -/
def execTollgateReceive (cell : Cell) (s : State) : Res := .next (s.tollgateReceive cell)

/-- Meaning of BATCH_CLOSE (R157): GATHER_FRAMES boundaries after it opened, or as soon as one that is to close can. -/
def execBatchClose (batch : Nat) (s : State) : Res :=
  .next (match s.tg.batches.find? (·.id == batch) with
    | none => s
    | some b => if b.closing || b.openedAt + b.gather ≤ s.now then s.tryClose batch else s)

/-- A transfer that this Tollgate formed is held here. -/
def State.ownHeld (s : State) (h : HeldTransfer) (tid : Nat) : Bool :=
  h.t.srcRack == s.rack && h.t.kind ≤ 4 && h.t.tid == tid

/-- Meaning of SINGLE_RELEASE (R158): the batches it waits for have had their TRANSFER_ACK, or are forgotten without one
(assumption 143). -/
def execSingleRelease (tid : Nat) (s : State) : Res :=
  .next (match s.tg.origins.find? (·.tid == tid) with
    | none => s
    | some o =>
      if o.released || o.waitsFor.any fun w => s.tg.origins.any (·.tid == w) then s
      else
        let l : List Origin := s.tg.origins.map fun x => if x.tid = tid then { x with released := true, waitsFor := [] } else x
        let hs : List HeldTransfer := s.tg.held.map fun h => if s.ownHeld h tid then { h with blocked := false } else h
        s.setTg { s.tg with origins := l, held := hs })

/-! ## Uplinks (R151, R159) -/

/-- Sends a held transfer on an uplink: its train takes the next cell slots. -/
def State.sendTrain (s : State) (u : Nat) (h : HeldTransfer) (detour : Bool) : State :=
  let t := if detour then { h.t with detours := h.t.detours + 1 } else h.t
  let l : List Origin := s.tg.origins.map fun o =>
    if h.t.srcRack = s.rack ∧ h.t.kind ≤ 4 ∧ o.tid = h.t.tid then
      { o with firstSent := some (o.firstSent.getD s.now), sends := o.sends + 1 }
    else o
  let s := s.setTg { s.tg with held := s.tg.held.filter (·.key != h.key), busy := addNew s.tg.busy u, origins := l }
  let s := s.when detour fun s => (s.finc R.TG_STATS.DETOURS 1).almAdd 2 0 72 1
  let q := s.tg.trainSeq
  let s := s.setTg { s.tg with trainSeq := (q + 1) % 65536 }
  (trainCells t s.tgId q).foldl (fun s c => s.portSend (144 + u) c) (s.emit (.train u t))

/-- A train still waits for slots on an uplink. -/
def State.sending (s : State) (u : Nat) : Bool := (s.port (144 + u)).sendQ.any fun c => !isLinkCell c

/-- Meaning of UPLINK_DISPATCH: the transmit side of the uplink can start a train once the one before has left. -/
def execUplinkDispatch (uplink : Nat) (s : State) : Res :=
  .next (if 16 ≤ uplink ∨ !s.usable uplink ∨ !s.steady (144 + uplink) ∨ s.sending uplink then s
    else
      let s := s.setTg { s.tg with busy := s.tg.busy.filter (· != uplink) }
      match s.tg.held.find? fun h => !h.blocked && h.t.age < 1024 && (s.chooseUplink h).any (·.1 == uplink) with
      | none => s
      | some h => s.sendTrain uplink h ((s.chooseUplink h).any (·.2)))

/-! ## The far side (R160, R161) -/

/-- The naturally aligned power-of-two pieces of a byte mask: (offset, log2 of length), from byte i on. -/
def maskPieces (mask : Nat) : Nat → Nat → List (Nat × Nat)
  | 0, _ => []
  | fuel + 1, i =>
    if 64 ≤ i then []
    else if !bitAt mask i then maskPieces mask fuel (i + 1)
    else
      let k := ([6, 5, 4, 3, 2, 1].find? fun k => i % 2 ^ k == 0 && (List.range (2 ^ k)).all fun j => bitAt mask (i + j)).getD 0
      (i, k) :: maskPieces mask fuel (i + 2 ^ k)

/-- The sequence plane of a destination of this sled's (R174, R175). -/
def State.seqPlaneOf (s : State) (id : Nat) : Nat := if id < 128 then s.plane else planeOfId id

/-- The cells a transfer becomes, without SEQ (R160). -/
def State.farCells (s : State) (t : Transfer) : List Cell :=
  let base : Cell := { cls := clsBE, dst := t.farId, src := s.tgId, ctx := t.ctx, space := t.farSpace }
  if t.kind = 4 then
    match t.single with
    | none => []
    | some c => [{ c with cls := clsBE, age := 0, dst := t.farId, src := s.tgId, offset := t.page + c.offset % 4096
                          retx := false, space := t.farSpace }]
  else if t.kind = 3 then
    (bitList t.lines 64).map fun l => { base with typ := T.READ, offset := t.page + 64 * l, len := 6 }
  else
    t.data.flatMap fun d =>
      let mask := kgetD t.masks d.1 (2 ^ 64 - 1)
      let c : Cell := { base with typ := if t.kind = 1 then T.WRITE else T.ATOMIC, opmod := if t.kind = 2 then t.opmod else 0
                                  subtype := if t.kind = 2 then t.op / 8 % 16 else 0, payload := d.2 }
      if mask = 2 ^ 64 - 1 then [{ c with offset := t.page + 64 * d.1, len := 6 }]
      else (maskPieces mask 64 0).map fun p =>
        { c with offset := t.page + 64 * d.1 + p.1, len := p.2
                 payload := mergeLine 0 d.2 (lineMask p.1 (2 ^ p.2)) }

/-- Numbers and sends the cells. -/
def State.farIssue (s : State) (t : Transfer) : State :=
  let r := (s.farCells t).foldl (fun (a : KV Nat × List Cell) c =>
    let k := c.dst * 16 + s.seqPlaneOf c.dst
    let n := kgetD a.1 k 0
    (kset a.1 k ((n + 1) % 65536), a.2 ++ [{ c with seq := n }])) (s.tg.seqs, [])
  let g := s.tg
  let j : FarJob := { key := g.nextKey, t := t, waiting := r.2 }
  let s := s.setTg { g with seqs := r.1, nextKey := g.nextKey + 1, jobs := g.jobs ++ [j] }
  s.forEach r.2 fun s c => s.tgSend c

/-- A repeat of a transfer that is being performed: its unanswered cells go out again, with RETX (R178 performs each
once). -/
def State.farRepeat (s : State) (j : FarJob) : State :=
  s.forEach j.waiting fun s c => s.tgSend { c with retx := true }

/-- A transfer for the local rack (R152, R160, R161). A transfer that is being performed counts as the record it will leave
(assumption 144). -/
def State.farArrive (s : State) (t : Transfer) : State :=
  if 5 ≤ t.kind then s.emit (.train 16 t)
  else
    match s.tg.records.find? fun r => r.srcRack == t.srcRack && r.tid == t.tid with
    | some r => s.hold r.answer
    | none =>
      match s.tg.jobs.find? fun j => j.t.srcRack == t.srcRack && j.t.tid == t.tid with
      | some j => s.farRepeat j
      | none =>
        if 16384 ≤ (s.tg.records.filter fun r => s.now < r.at_ + 4096).length + s.tg.jobs.length then
          s.fsat R.TG_STATS.FULL 1
        else s.farIssue t

/-- A train arrives on an uplink (R152, R153, R154, R159). -/
def State.trainReceive (s : State) (t : Transfer) : State :=
  let t := { t with hops := t.hops + 1, age := t.age + 1 }
  if t.budget < t.hops then s.fsat R.TG_STATS.BUDGET 1
  else if 1024 ≤ t.age then (s.finc R.TG_STATS.AGED 1).almAdd 2 0 76 1
  else if 512 ≤ s.buffersUsed then s.fsat R.TG_STATS.FULL 1
  else if t.dstRack = s.rack then s.farArrive t
  else s.hold t

/-- Meaning of TRAIN_RECEIVE: a head cell and the cells up to the next one, in order. -/
def execTrainReceive (uplink : Nat) (head : Option Cell) (rest : List (Option Cell)) (s : State) : Res :=
  .next (match trainOf (head :: rest) with
    | none => s
    | some t =>
      if uplink < 16 ∧ s.usable uplink ∧ s.steady (144 + uplink) ∧ !s.unitInReset 3 0 then s.trainReceive t else s)

/-- The answer of a job whose cells have all been answered. Any status that is not ST_OK makes it a TRANSFER_NACK; R160 names
two of them (assumption 145). -/
def State.answerOf (s : State) (j : FarJob) : Transfer :=
  let t := j.t
  let fetch := t.kind = 3 ∨ (t.kind = 4 ∧ t.single.any fun c =>
    c.typ == T.READ || (c.typ == T.ATOMIC && c.fetch))
  { kind := if j.status ≠ 0 then 7 else if fetch then 5 else 6,
    budget := s.distance s.rack t.srcRack + 2 * s.detourMax, srcRack := s.rack, dstRack := t.srcRack, ctx := t.ctx,
    farId := t.farId, farSpace := t.farSpace, tid := t.tid, page := t.page, status := j.status,
    lines := if j.status = 0 ∧ fetch then bitMap (j.data.map (·.1)) else 0,
    data := if j.status = 0 ∧ fetch then j.data else [] }

/-- Adds a record; one at least 4,096 frames old makes way when all 16,384 are in use (R161). -/
def State.addRecord (s : State) (r : FarRecord) : State :=
  let l := s.tg.records
  let l := if 16384 ≤ l.length then
      match takeFirst (fun x : FarRecord => x.at_ + 4096 ≤ s.now) l with
      | some y => y.2
      | none => l
    else l
  s.setTg { s.tg with records := l ++ [r] }

/-- Meaning of FAR_COMPLETE. -/
def execFarComplete (key : Nat) (s : State) : Res :=
  .next (match s.tg.jobs.find? fun j => j.key == key && j.waiting.isEmpty with
    | none => s
    | some j =>
      let a := s.answerOf j
      let s := s.setTg { s.tg with jobs := s.tg.jobs.filter (·.key != key) }
      (s.addRecord { srcRack := j.t.srcRack, tid := j.t.tid, answer := a, at_ := s.now }).hold a)

/-! ## Marks of the origin (R153, R162) -/

/-- Held transfers age at a frame boundary (R153); a train sent in the last frame has left its uplink. -/
def State.tgTick (s : State) : State :=
  let l : List HeldTransfer := s.tg.held.map fun h => { h with t := { h.t with age := h.t.age + 1 } }
  s.setTg { s.tg with held := l, busy := [], gather := max 1 (s.fget R.TG_CTL.GATHER_FRAMES)
                      detourMax := min 4 (s.fget R.TG_CTL.DETOUR_MAX), detourWait := s.fget R.TG_CTL.DETOUR_WAIT }

/-- Meaning of TRANSFER_AGE_DISCARD. A transfer of this rack that was never sent is forgotten with it: its originals'
retransmissions form a new one. -/
def execTransferAgeDiscard (key : Nat) (s : State) : Res :=
  .next (match s.tg.held.find? fun h => h.key == key && 1024 ≤ h.t.age with
    | none => s
    | some h =>
      let own (o : Origin) : Bool := h.t.srcRack == s.rack && h.t.kind ≤ 4 && o.tid == h.t.tid && o.firstSent.isNone
      let s := s.setTg { s.tg with held := s.tg.held.filter (·.key != key), origins := s.tg.origins.filter fun o => !own o }
      (s.finc R.TG_STATS.AGED 1).almAdd 2 0 76 1)

/-- Meaning of TRANSFER_RESEND: 256, 512 and 768 frames after the first send, with AGE, HOPS and DETOURS 0 (assumption
146). -/
def execTransferResend (tid : Nat) (s : State) : Res :=
  .next (match s.tg.origins.find? (·.tid == tid) with
    | none => s
    | some o =>
      if o.firstSent.any (fun f => f + 256 * o.sends ≤ s.now && s.now < f + 1024) && 1 ≤ o.sends && o.sends ≤ 3 &&
          !(s.tg.held.any (s.ownHeld · tid)) then s.holdAs o.t o.detourMax o.detourWait false
      else s)

/-- Forgets a transfer of this rack. -/
def State.forget (s : State) (tid : Nat) : State :=
  s.setTg { s.tg with
    origins := s.tg.origins.filter (·.tid != tid)
    held := s.tg.held.filter fun h => !(h.t.srcRack == s.rack && h.t.kind ≤ 4 && h.t.tid == tid) }

/-- Meaning of TRANSFER_GIVE_UP: 1,024 frames without an answer. -/
def execTransferGiveUp (tid : Nat) (s : State) : Res :=
  .next (match s.tg.origins.find? (·.tid == tid) with
    | none => s
    | some o =>
      if o.firstSent.any fun f => f + 1024 ≤ s.now then
        (s.forget tid).forEach o.originals fun s c => s.tgSend (nackOf c ST.LOST true 0)
      else s)

/-- The answer to one original. -/
def originAnswer (t : Transfer) (c : Cell) : Cell :=
  if t.kind = 7 then nackOf c t.status false 0
  else if t.kind = 5 then
    let d := kgetD t.data (c.offset % 4096 / 64) (kgetD t.data ((t.data.headD (0, 0)).1) 0)
    respOf c (bytesAt (lineBytes d) (c.offset % 64) c.bytes)
  else ackOf c

/-- Meaning of TRANSFER_ANSWER (R162): one ACK, RESPONSE or NACK per original. -/
def execTransferAnswer (t : Transfer) (s : State) : Res :=
  .next (match s.tg.origins.find? fun o => o.tid == t.tid && o.t.dstRack == t.srcRack with
    | none => s
    | some o =>
      if t.kind < 5 ∨ 7 < t.kind ∨ t.dstRack ≠ s.rack then s
      else (s.forget t.tid).forEach o.originals fun s c => s.tgSend (originAnswer t c))

/-- A TOLLGATE reset (R444): a NACK with RETRY = 0 to every original held, and nothing is kept. -/
def State.tgReset (s : State) : State :=
  let cs := (s.tg.batches.flatMap (·.originals)) ++ (s.tg.origins.flatMap (·.originals))
  let s := s.forEach cs fun s c => s.tgSend (nackOf c ST.LOST false 0)
  (s.setTg { nextTid := s.tg.nextTid, nextKey := s.tg.nextKey, seqs := s.tg.seqs, gather := s.tg.gather
             detourMax := s.tg.detourMax, detourWait := s.tg.detourWait }).setReg R.TG_STATS.TRANSFERS.addr 0#64

end Sys2Proof.Machine
end

