-- ==== Sys2Proof/Machine/Hub.lean ====
section
/-! DEFINITION. Memory hubs: interleave, errors and poison, the point of coherence, refresh and temperature, channel
retirement, hub-link lanes (R27, R126, R169, R282, R287 to R311, R329). -/

namespace Sys2Proof.Machine

/-! ## Interleave (R294 to R296, R309) -/

/-- Working channels of an interleave map bank, ascending. -/
def State.goodCh (s : State) (h b : Nat) : List Nat :=
  let used := (List.range 96).filterMap fun v =>
    if s.fbit (R.HB_IMAP.RETIRED h b v) then none else some (s.fget (R.HB_IMAP.CHANNEL h b v))
  (List.range 96).filter used.contains

/-- Retired slots of a bank, ascending. -/
def State.retiredSlots (s : State) (h b : Nat) : List Nat :=
  (List.range 96).filter fun v => s.fbit (R.HB_IMAP.RETIRED h b v)

def State.populated (s : State) (h : Nat) : Nat := s.fget (R.HB_SIZE.POPULATED h)

/-- The map bank an offset is read through: the new one below the watermark of a MOVE. -/
def State.mapBank (s : State) (h off : Nat) : Nat :=
  let a := s.fget (R.HB_STATUS.ACTIVE_MAP h)
  if s.fget (R.HB_STATUS.RETIRE_STATE h) = 2 ∧ off < s.fget (R.HB_WATERMARK.WM h) then 1 - a else a

/-- The rotation f of a row. -/
def rowFold (w : Nat) : Nat := (w ^^^ (w >>> 6) ^^^ (w >>> 12) ^^^ (w >>> 18) ^^^ (w >>> 24)) % 64

/-- Channel and row of an offset's granule (R294). -/
def State.place (s : State) (h off : Nat) : Nat × Nat :=
  let b := s.mapBank h off
  let n := off / 256
  let w := n / 96
  let v := (n % 96 + 5 * rowFold w) % 96
  if !s.fbit (R.HB_IMAP.RETIRED h b v) then (s.fget (R.HB_IMAP.CHANNEL h b v), w)
  else
    let good := s.goodCh h b
    let c := good.length
    let t := w * (96 - c) + ((s.retiredSlots h b).filter (· < v)).length
    (good.getD (t % c) 0, c * 491520 + t / c)

/-- DRAM line of data line i of a channel. -/
def dramLine (i : Nat) : Nat := 16 * (i / 15) + i % 15

/-- Channel and data line index of an offset. -/
def State.chanLine (s : State) (h off : Nat) : Nat × Nat :=
  let p := s.place h off
  (p.1, 4 * p.2 + off / 64 % 4)

/-- HPA of an offset's line (R286). -/
def State.hpa (s : State) (h off : Nat) : Nat :=
  let p := s.chanLine h off
  p.1 * 2 ^ 34 + 64 * dramLine p.2

/-- Rank, row and bank of a DRAM line's page p = d >> 5 (R295). -/
def dramRank (d : Nat) : Nat := d / 32 / 16 % 2
def dramRowNo (d : Nat) : Nat := d / 32 / 32
def dramBank (d : Nat) : Nat := (d / 32 % 16) ^^^ (d / 32 / 32 % 16)

/-- The DRAM row of a line: its row within one bank of one rank. -/
def dramRow (d : Nat) : Nat := dramRowNo d * 32 + dramRank d * 16 + dramBank d

/-- Offset of data line i of a channel under a map bank; none where no offset lies there. -/
def State.offsetAt (s : State) (h b ch i : Nat) : Option Nat :=
  let row := i / 4
  let good := s.goodCh h b
  let c := good.length
  let at_ (w v : Nat) : Nat := (w * 96 + (v + 96 * 5 - 5 * rowFold w % 96) % 96) * 256 + i % 4 * 64
  let o : Option Nat :=
    if row < c * 491520 then
      ((List.range 96).find? fun v => !s.fbit (R.HB_IMAP.RETIRED h b v) && s.fget (R.HB_IMAP.CHANNEL h b v) == ch).map
        (at_ row)
    else
      match findIdx (· == ch) good 0 with
      | none => none
      | some g =>
        let t := (row - c * 491520) * c + g
        if c = 96 then none else ((s.retiredSlots h b)[t % (96 - c)]?).map (at_ (t / (96 - c)))
  o.filter (· < s.populated h)

/-- The offset whose line data line i of a channel holds: during a MOVE each map serves its side of the watermark. -/
def State.physOffset (s : State) (h ch i : Nat) : Option Nat :=
  let a := s.fget (R.HB_STATUS.ACTIVE_MAP h)
  [a, 1 - a].findSome? fun b => (s.offsetAt h b ch i).filter fun o => s.mapBank h o == b

/-! ## Retirement decisions (R306 to R308) -/

/-- Usable bytes of C working channels. -/
def sizeOf (c : Nat) : Nat := c * 12079595520

/-- A channel is to be retired: PENDING while all 96 channels work, blocked otherwise. -/
def State.retireChannel (s : State) (h ch : Nat) : State :=
  if s.fget (R.HB_CHAN.STATE h ch) ≠ 0 then s
  else if s.fget (R.HB_STATUS.CHANNELS h) = 96 ∧ s.fget (R.HB_STATUS.RETIRE_STATE h) = 0 then
    let b := 1 - s.fget (R.HB_STATUS.ACTIVE_MAP h)
    let s := ((s.fset (R.HB_STATUS.RETIRE_STATE h) 1).fset (R.HB_STATUS.RETIRE_CH h) ch).fset (R.HB_CHAN.STATE h ch) 1
    let s := s.forEach (List.range 96) fun s v =>
      let c := s.fget (R.HB_IMAP.CHANNEL h (1 - b) v)
      (s.fset (R.HB_IMAP.CHANNEL h b v) c).fsetb (R.HB_IMAP.RETIRED h b v) (c == ch)
    let s := s.setHub h { s.hub h with retireAt := s.now, go := false, newSize := sizeOf 95 }
    (s.alert 4).almAdd 2 0 92 1
  else ((s.fsetb (R.HB_STATUS.RETIRE_BLOCKED h) true).fset (R.HB_CHAN.STATE h ch) 3).alert 4

/-- 24 h and one hour in frames. -/
def dayFrames : Nat := 86400000000
def hourFrames : Nat := 3600000000

/-- Two events in one row, or events at 16 distinct rows, of a channel within 24 h. -/
def State.uncorrDue (s : State) (h ch : Nat) : Bool :=
  let rows := ((s.hub h).events.filter (·.chan == ch)).map (·.row)
  16 ≤ (rows.foldl addNew []).length || rows.any fun r => 2 ≤ (rows.filter (· == r)).length

/-- An event that stays uncorrectable at a DRAM line. -/
def State.uncorrEvent (s : State) (h ch d : Nat) : State :=
  let x := s.hub h
  let ev := (x.events.filter fun e => s.now < e.at_ + dayFrames) ++ [{ chan := ch, row := dramRow d, at_ := s.now }]
  let s := s.setHub h { x with events := ev }
  let s := s.fset (R.HB_CHAN.UNCORR_24H h ch) (min 0xFFFF (ev.filter (·.chan == ch)).length)
  s.when (s.uncorrDue h ch) (·.retireChannel h ch)

/-- Events that have left their window count no more (R306). -/
def State.errorTick (s : State) (h : Nat) : State :=
  let x := s.hub h
  let ev := x.events.filter fun e => s.now < e.at_ + dayFrames
  let co := x.corr.filter fun e => s.now < e.2 + hourFrames
  if ev.length = x.events.length ∧ co.length = x.corr.length then s
  else
    let s := s.setHub h { x with events := ev, corr := co }
    s.forEach ((x.events.map (·.chan) ++ x.corr.map (·.1)).foldl addNew []) fun s ch =>
      (s.fset (R.HB_CHAN.UNCORR_24H h ch) (min 0xFFFF (ev.filter (·.chan == ch)).length)).fset (R.HB_CHAN.CORR_1H h ch)
        (min 0xFFFFFFFF (co.filter (·.1 == ch)).length)

/-- A corrected error (R301). -/
def State.corrected (s : State) (h ch : Nat) : State :=
  let x := s.hub h
  let co := (x.corr.filter fun e => s.now < e.2 + hourFrames) ++ [(ch, s.now)]
  let n := (co.filter (·.1 == ch)).length
  let s := (s.setHub h { x with corr := co }).finc (R.HB_ERR.CORRECTED h) 1
  let s := (s.fset (R.HB_CHAN.CORR_1H h ch) (min 0xFFFFFFFF n)).almAdd 5 h 8 1
  s.when (decide (100000 < n)) (·.retireChannel h ch)

/-! ## Errors and poison (R301 to R303) -/

/-- A line is poisoned. -/
def State.poisoned (s : State) (h off : Nat) : Bool := (s.hub h).poison.contains (off / 64)

/-- Sets POISON on the line of an offset. -/
def State.setPoison (s : State) (h off : Nat) : State :=
  if s.poisoned h off then s
  else
    let s := s.setHub h { s.hub h with poison := addNew (s.hub h).poison (off / 64) }
    ((s.finc (R.HB_ERR.POISONED h) 1).almAdd 5 h 14 1).almAdd 2 0 84 1

/-- Clears POISON of a line. -/
def State.clearPoison (s : State) (h off : Nat) : State :=
  s.setHub h { s.hub h with poison := (s.hub h).poison.filter (· != off / 64) }

/-- POISON on data line i of a channel: of the offset it holds; a line that holds none is counted alone (R302). -/
def State.poisonPhys (s : State) (h ch i : Nat) : State :=
  let s := match s.physOffset h ch i with
    | some o => s.setPoison h o
    | none => ((s.finc (R.HB_ERR.POISONED h) 1).almAdd 5 h 14 1).almAdd 2 0 84 1
  s.fset (R.HB_ERR_LAST.HPA h) (ch * 2 ^ 34 + 64 * dramLine i)

/-- How a read finds data line i of a channel, or its metadata line; an uncorrectable metadata line poisons its 15 data
lines (R301, R302). -/
def State.physRead (s : State) (h ch i : Nat) (f : LineFault) : State :=
  match f with
  | .clean => s
  | .correctable => s.corrected h ch
  | .transient => ((s.finc (R.HB_ERR.UNCORR_TRANSIENT h) 1).almAdd 5 h 12 1).almAdd 2 0 88 1
  | .uncorrectable => (s.poisonPhys h ch i).uncorrEvent h ch (dramLine i)
  | .metadata =>
    (s.forEach (List.range 15) fun s j => s.poisonPhys h ch (i / 15 * 15 + j)).uncorrEvent h ch (16 * (i / 15) + 15)

/-- How a read finds the line of an offset. -/
def State.lineRead (s : State) (h off : Nat) (f : LineFault) : State :=
  s.physRead h (s.chanLine h off).1 (s.chanLine h off).2 f

/-! ## Mirror windows (R311) -/

def State.winBase (s : State) (h i : Nat) : Nat := 4096 * s.fget (R.HB_MIRROR1.BASE h i)
def State.winPages (s : State) (h i : Nat) : Nat := s.fget (R.HB_MIRROR2.PAGES h i)
def State.winPartner (s : State) (h i : Nat) : Nat := 4096 * s.fget (R.HB_MIRROR3.PARTNER_BASE h i)
def State.winBitmap (s : State) (h i : Nat) : Nat := 64 * s.fget (R.HB_MIRROR4.BITMAP_BASE h i)

/-- A window's range, bitmap and partner range lie below the populated size and its bitmap is outside its range. -/
def State.winOk (s : State) (h i : Nat) : Bool :=
  let n := s.winPages h i
  let b := s.winBase h i
  let m := s.winBitmap h i
  let e := b + 4096 * n
  let me := m + ceilDiv n 8
  e ≤ s.populated h && me ≤ s.populated h && s.winPartner h i + 4096 * n ≤ s.populated h && (me ≤ b || e ≤ m)

/-- A window in use: one that was when the populated size fell stays so (R310). -/
def State.winLive (s : State) (h i : Nat) : Bool :=
  s.fbit (R.HB_MIRROR0.VALID h i) && (s.winOk h i || (s.hub h).cutWins.contains i)

/-- A window's range, partner range or bitmap was written: one that turns bad in use is ignored (R311). -/
def State.winWritten (s : State) (h i : Nat) : State :=
  let s := s.setHub h { s.hub h with cutWins := (s.hub h).cutWins.filter (· != i) }
  s.when (s.fbit (R.HB_MIRROR0.VALID h i) && !s.winOk h i) (·.fsetb (R.HB_STATUS.BAD_WINDOW h) true)

/-- Windows that stay in use as the populated size falls to `size`: those whose bitmap lies below it. -/
def State.keptWins (s : State) (h size : Nat) : List Nat :=
  (List.range 16).filter fun i => s.winLive h i && s.winBitmap h i + ceilDiv (s.winPages h i) 8 ≤ size

/-- Dirty bit of a page of a window. -/
def State.dirtyBit (s : State) (h i p : Nat) : Bool :=
  bitAt (Memory.get s.mem (hubAddr h (s.winBitmap h i + p / 8))).toNat (p % 8)

def State.setDirty (s : State) (h i p : Nat) (v : Bool) : State :=
  let a := s.winBitmap h i + p / 8
  let o := (Memory.get s.mem (hubAddr h a)).toNat
  s.hubWrite h a [BitVec.ofNat 8 (if v then bitSet o (p % 8) else bitClr o (p % 8))]

/-- A write performed at an offset marks its page in every window in use (R311). -/
def State.markDirty (s : State) (h off : Nat) : State :=
  s.forEach ((List.range 16).filter fun i => s.winLive h i) fun s i =>
    let b := s.winBase h i
    if b ≤ off ∧ off < b + 4096 * s.winPages h i then s.setDirty h i ((off - b) / 4096) true else s

/-- Every page of a window is marked. -/
def State.markAll (s : State) (h i : Nat) : State :=
  let n := s.winPages h i
  let s := s.hubWrite h (s.winBitmap h i) (List.replicate (n / 8) 0xFF#8)
  if n % 8 = 0 then s
  else
    let a := s.winBitmap h i + n / 8
    let o := (Memory.get s.mem (hubAddr h a)).toNat
    s.hubWrite h a [BitVec.ofNat 8 (o / 2 ^ (n % 8) * 2 ^ (n % 8) + (2 ^ (n % 8) - 1))]

/-- Meaning of MIRROR_VALID_SET. -/
def execMirrorValidSet (hub window : Nat) (s : State) : Res :=
  .next (if 16 ≤ hub ∨ 16 ≤ window then s
    else
      let s := s.fsetb (R.HB_MIRROR0.VALID hub window) true
      if s.winOk hub window then s.markAll hub window else s.fsetb (R.HB_STATUS.BAD_WINDOW hub) true)

/-- Meaning of MIRROR_RESYNC: every page is marked, PARTNER_LOST clears and sending resumes (R314). -/
def execMirrorResync (hub window : Nat) (s : State) : Res :=
  .next (if 16 ≤ hub ∨ 16 ≤ window then s
    else
      let s := s.fsetb (R.HB_MIRROR0.PARTNER_LOST hub window) false
      if s.winOk hub window then s.markAll hub window else s.fsetb (R.HB_STATUS.BAD_WINDOW hub) true)

/-! ## Stored form (R297, R298, R300) -/

/-- A data line of a channel as stored, and its metadata entry: three check bytes and FLAGS. -/
def State.storedLine (s : State) (h ch i : Nat) : BitVec 512 :=
  Config.encrypted h (ch * 2 ^ 34 + 64 * dramLine i)
    (((s.physOffset h ch i).map fun o => lineOf (s.hubRead h (o / 64 * 64) 64)).getD 0)

def State.metaEntry (s : State) (h ch i : Nat) : List Byte :=
  leBytes (Config.checkSymbols (s.storedLine h ch i)) 3
    ++ [if (s.physOffset h ch i).any (s.poisoned h) then 1 else 0]

/-- The metadata line of ECC group g of a channel: it follows the lines it covers, so every write updates it. -/
def State.metaLine (s : State) (h ch g : Nat) : List Byte :=
  let b := (List.range 15).flatMap fun j => s.metaEntry h ch (15 * g + j)
  b ++ leBytes (Config.metaSymbols (leNat b)) 4

/-! ## The point of coherence (R169, R282, R290, R298, R303) -/

/-- Line data as stored. -/
def State.hubLine (s : State) (h off : Nat) : BitVec 512 := lineOf (s.hubRead h (off / 64 * 64) 64)

/-- Writes the masked bytes of a line: a full line clears POISON, fewer keep it. -/
def State.lineWrite (s : State) (h off : Nat) (data : BitVec 512) (mask : Nat) (f : LineFault) : State :=
  let a := off / 64 * 64
  if mask = 2 ^ 64 - 1 then ((s.clearPoison h a).hubWrite h a (lineBytes data)).markDirty h a
  else
    let s := s.lineRead h a f
    (s.hubWrite h a (lineBytes (mergeLine (s.hubLine h a) data mask))).markDirty h a

/-- Applies an ADD, MIN or MAX to each element of the mask. -/
def lineAtomic (old x : BitVec 512) (mask op t : Nat) : BitVec 512 :=
  let w := subWidth t
  ((List.range (64 / w)).filter fun i => bitAt mask (i * w)).foldl (fun d i =>
    let o := field (lineBytes d) (i * w) w
    let v := atomOp op t o (field (lineBytes x) (i * w) w)
    mergeLine d (lineOf (List.replicate (i * w) 0 ++ leBytes v w)) (lineMask (i * w) w)) old

/-- What a cell or a direct access finds at its line: the state after it, its status and the line as it was. -/
structure Performed where
  s : State
  status : Nat := ST.OK
  old : BitVec 512 := 0

/-- One READ, WRITE or ATOMIC on its line; nothing is performed on a poisoned line but a write. -/
def State.performLine (s : State) (h : Nat) (c : Cell) (f : LineFault) : Performed :=
  if c.typ = T.WRITE then
    let s := if c.mask = 2 ^ 64 - 1 then s else s.almAdd 5 h 0 64
    { s := (s.lineWrite h c.offset c.payload c.mask f).almAdd 5 h 4 64 }
  else
    let s := (s.lineRead h c.offset f).almAdd 5 h 0 64
    let old := s.hubLine h c.offset
    if s.poisoned h c.offset then { s := s, status := ST.POISON }
    else if c.typ = T.READ then { s := s, old := old }
    else
      let w := subWidth c.subtype
      let o := c.offset % 64
      let new :=
        if c.opmod = 3 then
          let cmp := field (lineBytes c.payload) ((c.offset + 8) % 64) w
          if field (lineBytes old) o w = cmp then mergeLine old c.payload (lineMask o w) else old
        else lineAtomic old c.payload c.mask c.opmod c.subtype
      { s := ((s.hubWrite h (c.offset / 64 * 64) (lineBytes new)).markDirty h c.offset).almAdd 5 h 4 64, old := old }

/-- The answer of a performed cell: RESPONSE, ACK or NACK (R164, R198). -/
def cellAnswer (c : Cell) (status : Nat) (old : BitVec 512) : Cell :=
  if status ≠ ST.OK then nackOf c status false 0
  else if c.typ = T.READ ∨ (c.typ = T.ATOMIC ∧ c.fetch) then respOf c (bytesAt (lineBytes old) (c.offset % 64) c.bytes)
  else ackOf c

/-- A hub position sends into its own core (R558). -/
def State.hubSend (s : State) (h : Nat) (c : Cell) : State := s.emit (.inject (144 + h) c)

/-- Package of an offset. -/
def State.pkgOf (s : State) (h off : Nat) : Nat := (s.chanLine h off).1 / 8

/-- Accesses to the package of an offset wait (R305). -/
def State.heldAt (s : State) (h off : Nat) : Bool := (s.hub h).held.contains (s.pkgOf h off)

/-- Accesses to some line of a range wait. -/
def State.heldIn (s : State) (h off n : Nat) : Bool :=
  (List.range ((off + max 1 n + 63) / 64 - off / 64)).any fun k => s.heldAt h ((off / 64 + k) * 64)

/-- Keeps a reply record, evicting the oldest of a full store (R180). -/
def State.addReply (s : State) (e cap : Nat) (r : ReplyRec) : State :=
  let x := s.ep e
  if x.replies.length < cap then s.setEp e { x with replies := x.replies ++ [r] }
  else (s.setEp e { x with replies := x.replies.drop 1 ++ [r] }).finc (R.EP_STATS2.REPLY_EVICT e) 1

/-- A hub performs an accepted cell and answers it (R27, R165, R169, R180, R198). -/
def State.hubCell (s : State) (h : Nat) (c : Cell) (f : LineFault) : State :=
  if !c.allowed then s.hubSend h (nackOf c ST.BAD_PARAM false 0)
  else if s.populated h < c.offset + c.bytes then s.hubSend h (nackOf c ST.BAD_PARAM false 0)
  else if s.heldAt h c.offset then s.setHub h { s.hub h with waiting := (s.hub h).waiting ++ [.cell c] }
  else
    let p := s.performLine h c f
    let s := if c.typ = T.ATOMIC ∧ (c.fetch ∨ c.opmod = 3) ∧ p.status = ST.OK then
        p.s.addReply h 16384 { src := c.src, plane := s.plane, seq := c.seq
                               old := field (lineBytes p.old) (c.offset % 64) (subWidth c.subtype)
                               width := subWidth c.subtype, fetch := c.fetch, at_ := s.now }
      else p.s
    s.hubSend h (cellAnswer c p.status p.old)

/-! ## Combining entries (R126) -/

/-- Takes a handed item out of the hub end-point: its line is free. -/
def State.freeItem (s : State) (h id : Nat) : State :=
  { s with sw := { s.sw with handed := kset s.sw.handed h (dropItem id (kgetD s.sw.handed h [])) } }

/-- Performs an entry's merged operation and answers every original (R27, R122, R126, R198). An original that the window
finds a duplicate is answered with ACK whatever becomes of the entry (R179; assumption 150). -/
def State.entryPerform (s : State) (h : Nat) (i : OutItem) (f : LineFault) : State :=
  match i.cells with
  | [] => s.forEach i.dups fun s c => s.hubSend h (ackOf c)
  | c :: _ =>
    let m := mergedOf i.cells
    let a := c.offset / 64 * 64
    let r : State × Nat :=
      if s.populated h < a + 64 then (s, ST.BAD_PARAM)
      else if c.typ = T.WRITE then (s.lineWrite h a m.data m.mask f, ST.OK)
      else
        let s := s.lineRead h a f
        if s.poisoned h a then (s, ST.POISON)
        else
          let new := lineAtomic (s.hubLine h a) m.data m.mask c.opmod c.subtype
          ((s.hubWrite h a (lineBytes new)).markDirty h a, ST.OK)
    let s := r.1.forEach i.cells fun s c => s.hubSend h (cellAnswer c r.2 0)
    s.forEach i.dups fun s c => s.hubSend h (ackOf c)

/-- Meaning of HUB_PERFORMED: an entry is performed and answered, or a single item's line is free again. -/
def execHubPerformed (hub item : Nat) (fault : LineFault) (s : State) : Res :=
  .next (match (kgetD s.sw.handed hub []).find? (·.id == item) with
    | none => s
    | some i =>
      if !i.entry then s.freeItem hub item
      else
        match i.cells ++ i.dups with
        | [] => s.freeItem hub item
        | c :: _ => if s.heldAt hub c.offset then s else (s.entryPerform hub i fault).freeItem hub item)

/-! ## Direct accesses (R327 to R329) -/

/-- The cells a direct request would be: one per line it covers. -/
def directLines (r : MemReq) : List Cell :=
  let o := r.addr
  let n := (o + max 1 r.len + 63) / 64 - o / 64
  (List.range n).map fun k =>
    let a := if k = 0 then o else (o / 64 + k) * 64
    let e := min (o + r.len) ((o / 64 + k + 1) * 64)
    let d := lineOf (List.replicate (a % 64) 0 ++ (r.data.drop (a - o)).take (e - a))
    let cas := mergeLine d (lineOf (List.replicate ((a + 8) % 64) 0 ++ leBytes r.compare (subWidth r.subtype)))
      (lineMask ((a + 8) % 64) (subWidth r.subtype))
    { typ := if r.op ≤ 2 then T.READ else if r.op = 5 then T.ATOMIC else T.WRITE
      dst := 0, opmod := if r.op = 5 then r.aop else 0, offset := a, len := log2 (e - a), fetch := r.fetch
      subtype := r.subtype, payload := if r.op = 5 ∧ r.aop = 3 then cas else d }

/-- A direct request's outcome: the state after it, its status, the bytes of the lines that are not poisoned. -/
structure Direct where
  s : State
  status : Nat := ST.OK
  data : List (Nat × Byte) := []

/-- Performs one line of a direct request. -/
def Direct.line (a : Direct) (h addr : Nat) (f : LineFault) (c : Cell) (n : Nat) : Direct :=
  let full := n == 64
  let p := if c.typ = T.WRITE then { s := a.s.lineWrite h c.offset c.payload (if full then 2 ^ 64 - 1 else lineMask (c.offset % 64) n) f }
    else a.s.performLine h { c with len := log2 n } f
  let out := if p.status = ST.OK ∧ (c.typ = T.READ ∨ (c.typ = T.ATOMIC ∧ c.fetch)) then
      (bytesAt (lineBytes p.old) (c.offset % 64) n).mapIdx fun k b => (c.offset - addr + k, b)
    else []
  { s := p.s, status := if a.status = ST.OK then p.status else a.status, data := a.data ++ out }

/-- The memory controller performs a direct request of a core at an offset of the hub. -/
def State.directPerform (s : State) (h : Nat) (r : MemReq) (f : LineFault) : Direct :=
  if s.populated h < r.addr + r.len then { s := s, status := ST.BAD_PARAM }
  else (directLines r).foldl (fun a c =>
    a.line h r.addr f c (min (r.addr + r.len) ((c.offset / 64 + 1) * 64) - c.offset)) { s := s }

/-! ## Patrol scrub, refresh, temperature (R301, R304, R305) -/

/-- DRAM lines of a channel. -/
def chanLines : Nat := 201326592

/-- Meaning of PATROL_SCRUB: the next line of the working channels is read and treated under R301 and R302; in a held
package it waits (R305). -/
def execPatrolScrub (hub : Nat) (fault : LineFault) (s : State) : Res :=
  .next (if 16 ≤ hub then s
    else
      let good := s.goodCh hub (s.fget (R.HB_STATUS.ACTIVE_MAP hub))
      let x := s.hub hub
      let n := x.scrub
      let ch := good.getD (n / chanLines % max 1 good.length) 0
      let d := n % chanLines
      if x.held.contains (ch / 8) then s else
      let s := s.setHub hub { x with scrub := if n + 1 < good.length * chanLines then n + 1 else 0 }
      let i := 15 * (d / 16) + (if d % 16 = 15 then 0 else d % 16)
      s.physRead hub ch i (if d % 16 = 15 ∧ fault = .uncorrectable then .metadata else fault))

/-- Meaning of REFRESH_DUE (R291, R304): refresh is issued to a channel that is in refresh and power. -/
def execRefreshDue (hub chan rank bank : Nat) (s : State) : Res :=
  .next (if hub < 16 ∧ chan < 96 ∧ rank < 2 ∧ bank < 16 ∧ s.fget (R.HB_CHAN.STATE hub chan) ≠ 2 then
      s.emit (.refresh hub chan rank bank)
    else s)

/-- Refresh band of a temperature. -/
def tempBand (t : Nat) : Nat := if t ≤ 85 then 0 else if t ≤ 95 then 1 else if t ≤ 105 then 2 else 3

/-- Lower limit of a band. -/
def bandFloor (b : Nat) : Nat := if b = 1 then 85 else if b = 2 then 95 else 105

/-- One package's band, its frames 3 °C below the band's limit, and its hold. -/
def State.readPackage (s : State) (h p t : Nat) : State :=
  let x := s.hub h
  let b := kgetD x.bands p 0
  let cool : Option Nat := if 0 < b ∧ t + 3 ≤ bandFloor b then some ((kget x.coolFor p).elim 0 (· + 16)) else none
  let b' := if b ≤ tempBand t then tempBand t else if cool.any (1000 ≤ ·) then tempBand t else b
  let held := if 105 < t then addNew x.held p else if t ≤ 100 then x.held.filter (· != p) else x.held
  let s := s.setHub h { x with bands := kset x.bands p b', coolFor := match cool with
                                 | some n => if b' < b then kdel x.coolFor p else kset x.coolFor p n
                                 | none => kdel x.coolFor p
                               held := held }
  s.when (held.length > x.held.length) (·.almAdd 5 h 19 1)

/-- A hub's summary of its packages. -/
def State.hubTemps (s : State) (h : Nat) (temps : List Nat) : State :=
  let m := temps.foldl max 0
  let p := (findIdx (· == m) temps 0).getD 0
  let hot := temps.any (95 < ·)
  let was := s.fbit (R.HB_STATUS.HOT h)
  let b := kgetD (s.hub h).bands p 0
  let s := ((s.fset (R.HB_TEMP.MAX_C h) m).fset (R.HB_TEMP.MAX_PKG h) p).fset (R.HB_TEMP.BAND h) b
  let s := (s.fsetb (R.HB_STATUS.HOT h) hot).fsetb (R.HB_STATUS.HELD h) (!(s.hub h).held.isEmpty)
  let s := s.when (hot && !was) (·.alert 4)
  (s.almMax 5 h 17 m).almMax 5 h 18 b

/-! ## Online retirement (R308, R309) -/

/-- Meaning of RETIRE_GO. -/
def execRetireGo (hub : Nat) (s : State) : Res :=
  .next (if hub < 16 ∧ s.fget (R.HB_STATUS.RETIRE_STATE hub) = 1 then s.setHub hub { s.hub hub with go := true } else s)

/-- MOVE ends: the new bank is the only bank, the channel is out of refresh and power. -/
def State.retireDone (s : State) (h : Nat) : State :=
  let a := 1 - s.fget (R.HB_STATUS.ACTIVE_MAP h)
  let ch := s.fget (R.HB_STATUS.RETIRE_CH h)
  let s := (s.fset (R.HB_STATUS.ACTIVE_MAP h) a).fset (R.HB_STATUS.RETIRE_STATE h) 0
  let s := (s.fset (R.HB_STATUS.CHANNELS h) (s.goodCh h a).length).fset (R.HB_CHAN.STATE h ch) 2
  let s := (s.finc (R.HB_STATUS.RETIRED_COUNT h) 1).fset (R.HB_WATERMARK.WM h) 0
  s.forEach (List.range 96) fun s v =>
    (s.fset (R.HB_IMAP.CHANNEL h (1 - a) v) (s.fget (R.HB_IMAP.CHANNEL h a v))).fset (R.HB_IMAP.RETIRED h (1 - a) v)
      (s.fget (R.HB_IMAP.RETIRED h a v))

/-- Offset of the granule of the row at the watermark that lies in the channel being retired. -/
def State.movedGranule (s : State) (h : Nat) : Option Nat :=
  let w := s.fget (R.HB_WATERMARK.WM h) / 24576
  s.offsetAt h (s.fget (R.HB_STATUS.ACTIVE_MAP h)) (s.fget (R.HB_STATUS.RETIRE_CH h)) (4 * w)

/-- The granule's lines are read in the old channel, as R302 treats what is found there. -/
def State.readGranule (s : State) (h : Nat) (faults : List LineFault) : State :=
  match s.movedGranule h with
  | none => s
  | some o => s.forEach (List.range 4) fun s k => s.lineRead h (o + 64 * k) (faults.getD k .clean)

/-- The copy waits for a held package: the old channel's, or that of the spare location (R305). -/
def State.copyHeld (s : State) (h : Nat) : Bool :=
  (s.movedGranule h).any fun o =>
    s.heldAt h o || (s.fset (R.HB_WATERMARK.WM h) (s.fget (R.HB_WATERMARK.WM h) + 24576)).heldAt h o

/-- RETIRE_ROW_COPY's effect: one granule moves and the watermark rises by a row; a poisoned line stays poisoned. -/
def State.rowCopy (s : State) (h : Nat) (faults : List LineFault) : State :=
  let x := s.hub h
  let s := (s.setHub h { x with copyCredit := x.copyCredit - 256 }).readGranule h faults
  let wm := s.fget (R.HB_WATERMARK.WM h) + 24576
  let s := s.fset (R.HB_WATERMARK.WM h) wm
  if s.populated h ≤ wm then s.retireDone h else s

/-- Meaning of RETIRE_ROW_COPY: at RATE, and not while a package is held. -/
def execRetireRowCopy (hub : Found Nat) (s : State) : Res :=
  let h := hub.what
  .next (if 16 ≤ h ∨ s.fget (R.HB_STATUS.RETIRE_STATE h) ≠ 2 ∨ (s.hub h).copyCredit < 256 ∨ s.copyHeld h then s
    else s.rowCopy h hub.faults)

/-- A frame of a MOVE grants RATE times 500 bytes (R308). -/
def State.copyTick (s : State) (h : Nat) : State :=
  if s.fget (R.HB_STATUS.RETIRE_STATE h) ≠ 2 then s
  else
    let x := s.hub h
    s.setHub h { x with copyCredit := x.copyCredit + 500 * s.fget (R.HB_RETIRE_CTL.RATE h) }

/-- What a frame boundary brings to the hubs: credits of the rebuild, events that leave their windows. -/
def State.hubsTick (s : State) : State := s.forEach (s.hubs.map (·.1)) fun s h => (s.copyTick h).errorTick h

/-! ## Hub-link lanes (R287, R288) -/

/-- Meaning of LANE_MARGIN_INTERVAL: violations above 1,000 in either direction, in each of 3 consecutive intervals,
retire a lane with N = D + 32. -/
def execLaneMarginInterval (hub : Nat) (rx tx : List Nat) (s : State) : Res :=
  .next (if 16 ≤ hub ∨ s.now % 1000000 ≠ 0 then s
    else s.forEach (bitList (s.fget (R.HB_LINK.LANE_WORKING hub)) 8) fun s k =>
      let above := 1000 < rx.getD k 0 || 1000 < tx.getD k 0
      let n := if above then kgetD (s.hub hub).laneOver k 0 + 1 else 0
      let s := s.setHub hub { s.hub hub with laneOver := kset (s.hub hub).laneOver k n }
      let pend (j : Nat) : Bool := s.tt.changes.any fun c => c.pos == 144 + hub && c.wl == j
      if n < 3 ∨ pend k then s
      else
        let left := (bitList (s.fget (R.HB_LINK.LANE_WORKING hub)) 8).filter fun j => j != k && !pend j
        let w := widthOf left.length
        s.decideWidth { pos := 144 + hub, wl := k, width := if w = 0 then s.fget (R.HB_LINK.WIDTH hub) else w
                        n := s.now + 32, planned := true })

/-- Meaning of LANE_LOST (R68, R103, R288): the width falls at the start of F_L, the next frame, and the bank is revised
by F_L + 4. -/
def execLaneLost (hub lane : Nat) (s : State) : Res :=
  let gone (k : Nat) : Bool := k == lane || s.tt.changes.any fun c => c.pos == 144 + hub && c.wl == k
  .next (if 16 ≤ hub ∨ !bitAt (s.fget (R.HB_LINK.LANE_WORKING hub)) lane ∨ 8 ≤ lane then s
    else
      let w := widthOf ((bitList (s.fget (R.HB_LINK.LANE_WORKING hub)) 8).filter fun k => !gone k).length
      s.decideWidth { pos := 144 + hub, wl := lane, width := if w = 0 then s.fget (R.HB_LINK.WIDTH hub) else w
                      n := s.now + 5, planned := false, cause := 1 })

end Sys2Proof.Machine
end

