-- ==== Sys2Proof/Machine/Home.lean ====
section
/-! DEFINITION. Home memory of the chiplet: the atomic unit and its line store (R27, R197, R198, R535, R536, R537). -/

namespace Sys2Proof.Machine

/-- Accelerator line of an offset (R535). -/
def State.homeLine (s : State) (off : Nat) : Nat :=
  (4096 * s.fget R.CH_HOME0.BASE + off) % 2 ^ 64 / 64

/-- A plane is usable: always for a sled instance, which sends through its own sled; for the chiplet, its port to the plane
is UP and the plane's sled has not announced that it is leaving (R174). -/
def State.planeUsable (s : State) (e q : Nat) : Bool :=
  e ≤ 16 || (s.portState (160 + q) == PS.UP && !s.chip.leaving.contains q)

/-- The chiplet's answer leaves on the port at which the cell arrived, when that is usable (R558); port 16 stands for the
accelerator's own requests (R537), port 17 for the reads of a collective's source, whose SEQ is its slot. -/
def State.homeAnswer (s : State) (k : Nat) (c : Cell) : State :=
  if k = 16 then { s with chip := { s.chip with selfAns := s.chip.selfAns ++ [c] } }
  else if k = 17 then
    if c.typ = T.NACK then { s with chip := { s.chip with badSrc := addNew s.chip.badSrc c.seq } } else s
  else if s.planeUsable 17 k then s.portSend (160 + k) c
  else s

def State.findLine (s : State) (l : Nat) : Option StoreLine := s.chip.store.find? (·.line == l)

/-- Stores a line as the one used last. -/
def State.useLine (s : State) (x : StoreLine) : State :=
  { s with chip := { s.chip with store := x :: s.chip.store.filter (·.line != x.line) } }

def State.dropLine (s : State) (l : Nat) : State :=
  { s with chip := { s.chip with store := s.chip.store.filter (·.line != l) } }

/-- The atomic unit changes a line: HOME_WRITE of the masked bytes (R536). -/
def State.putLine (s : State) (x : StoreLine) (data : BitVec 512) (mask : Nat) : State :=
  (s.useLine { x with data := data, valid := true, awaitDone := x.awaitDone + 1, since := s.now }).emit
    (.homeWrite x.line mask data)

/-- Performs a cell on a line that the store holds. -/
def State.performHome (s : State) (x : StoreLine) (k : Nat) (c : Cell) : State :=
  if c.typ = T.WRITE then (s.putLine x (mergeLine x.data c.payload c.mask) c.mask).homeAnswer k (ackOf c)
  else if c.typ = T.READ then
    (s.useLine x).homeAnswer k (respOf c (bytesAt (lineBytes x.data) (c.offset % 64) c.bytes))
  else
    let w := subWidth c.subtype
    let o := c.offset % 64
    let cas := c.opmod == 3
    let ok := field (lineBytes x.data) o w == field (lineBytes c.payload) ((c.offset + 8) % 64) w
    let new :=
      if cas then (if ok then mergeLine x.data c.payload (lineMask o w) else x.data)
      else lineAtomic x.data c.payload c.mask c.opmod c.subtype
    let s' := if cas && !ok then s.useLine x else s.putLine x new c.mask
    let s' := if (c.fetch || cas) && k < 16 then
        s'.addReply 17 65536 { src := c.src, plane := if c.src < 128 then k else planeOfId c.src, seq := c.seq
                               old := field (lineBytes x.data) o w, width := w, fetch := c.fetch, at_ := s.now }
      else s'
    s'.homeAnswer k (cellAnswer c ST.OK x.data)

/-- CAS items that wait in the atomic unit for a line (R197). -/
def State.homeCas (s : State) (l : Nat) : Nat :=
  (((s.findLine l).map (·.waiting)).getD [] |>.filter (·.2.isCas)).length
    + (s.chip.storeQueue.filter fun a => a.2.isCas && s.homeLine a.2.offset == l).length

/-- A line leaves a full store: the least recently used one that awaits nothing (R536). -/
def evictLine : List StoreLine → Option (List StoreLine)
  | [] => none
  | x :: t =>
    match evictLine t with
    | some t' => some (x :: t')
    | none => if x.awaitDone = 0 ∧ !x.awaitData ∧ x.waiting.isEmpty then some t else none

/-- Makes room for a line; none when every line is busy. -/
def State.homeRoom (s : State) : Option State :=
  if s.chip.store.length < 8192 then some s
  else (evictLine s.chip.store).map fun t => { s with chip := { s.chip with store := t } }

/-- The atomic unit takes up a cell: its line is in the store, is fetched, or can enter; with a full store it waits. -/
def State.homePlace (s : State) (k : Nat) (c : Cell) : State :=
  let l := s.homeLine c.offset
  match s.findLine l with
  | some x =>
    if x.valid && x.waiting.isEmpty then s.performHome x k c
    else s.useLine { x with waiting := x.waiting ++ [(k, c)] }
  | none =>
    match s.homeRoom with
    | none => { s with chip := { s.chip with storeQueue := s.chip.storeQueue ++ [(k, c)] } }
    | some s =>
      if c.typ = T.WRITE ∧ c.bytes = 64 then s.performHome { line := l } k c
      else (s.useLine { line := l, awaitData := true, since := s.now, waiting := [(k, c)] }).emit (.homeRead l)

/-- The atomic unit takes a cell whose range lies below SIZE, behind what already waits for its line (R197). -/
def State.homeTake (s : State) (k : Nat) (c : Cell) : State :=
  if s.chip.storeQueue.any fun a => s.homeLine a.2.offset == s.homeLine c.offset then
    { s with chip := { s.chip with storeQueue := s.chip.storeQueue ++ [(k, c)] } }
  else s.homePlace k c

/-- What the chiplet's home refuses a cell with: its form, its range, or a CAS beyond BACKOFF_DEPTH (R165, R197, R535). -/
def State.homeRefusal (s : State) (c : Cell) : Option (Nat × Nat) :=
  let w := s.homeCas (s.homeLine c.offset)
  if !c.allowed || s.fget R.CH_HOME1.SIZE < c.offset + c.bytes then some (ST.BAD_PARAM, 0)
  else if c.isCas && s.backoffDepth 17 ≤ w then some (ST.BACKOFF, 1 + w / 25)
  else none

/-- An accepted READ, WRITE or ATOMIC at the chiplet's home (R165, R197, R535). -/
def State.homeCell (s : State) (k : Nat) (c : Cell) : State :=
  match s.homeRefusal c with
  | some (st, after) =>
    (s.when (st == ST.BACKOFF) (·.finc (R.EP_STATS2.BACKOFF 17) 1)).homeAnswer k (nackOf c st false after)
  | none => s.homeTake k c

/-- Performs what waits for a line, in order of arrival. -/
def State.homeWaiters (s : State) (l : Nat) (w : List (Nat × Cell)) : State :=
  s.forEach w fun s a => match s.findLine l with
    | some x => s.performHome x a.1 a.2
    | none => s

/-- A line that did not come: what waits for it answers ST_POISON, but a full-line WRITE is performed, and what follows it
finds its line (R197, R198, R536). -/
def State.homeGone (s : State) (l : Nat) (w : List (Nat × Cell)) : State :=
  (s.dropLine l).forEach w fun s a => match s.findLine l with
    | some x => s.performHome x a.1 a.2
    | none =>
      if a.2.typ = T.WRITE ∧ a.2.bytes = 64 then s.performHome { line := l } a.1 a.2
      else s.homeAnswer a.1 (nackOf a.2 ST.POISON false 0)

/-- Meaning of HOME_DATA: the line is in the store, or it is uncorrectable. -/
def State.homeData (s : State) (line : Nat) (data : BitVec 512) (uncorr : Bool) : State :=
  match s.findLine line with
  | none => s
  | some x =>
    if !x.awaitData then s
    else if uncorr then s.homeGone line x.waiting
    else
      let s := s.useLine { x with data := data, valid := true, awaitData := false, waiting := [] }
      s.homeWaiters line x.waiting

/-- Meaning of HOME_DONE. -/
def execHomeDone (line : Nat) (s : State) : Res :=
  .next (match s.findLine line with
    | none => s
    | some x =>
      let f (y : StoreLine) : StoreLine := if y.line = x.line then { y with awaitDone := y.awaitDone - 1 } else y
      { s with chip := { s.chip with store := s.chip.store.map f } })

/-- HOME_TIMEOUT's effect: 64 frames without an answer. -/
def State.homeTimeout (s : State) (line : Nat) : State :=
  match s.findLine line with
  | none => s
  | some x =>
    if !(x.awaitData || 0 < x.awaitDone) || s.now < x.since + 64 then s
    else
      let s := s.fsetb R.CH_STATUS.HOME_TIMEOUT true
      if x.awaitData then s.homeGone line x.waiting else s

/-- LINE_STORE_ADMIT's effect: the oldest access that waits for the line proceeds once a line can leave. -/
def State.lineAdmit (s : State) (line : Nat) : State :=
  match takeFirst (fun a : Nat × Cell => s.homeLine a.2.offset == line) s.chip.storeQueue with
  | none => s
  | some (a, t) =>
    if (s.findLine line).isNone && s.homeRoom.isNone then s
    else { s with chip := { s.chip with storeQueue := t } }.homePlace a.1 a.2

/-- The chiplet writes home bytes of its own (a collective's region): up to 64 bytes within one line. -/
def State.homePut (s : State) (off : Nat) (b : List Byte) : State :=
  let d := lineOf (List.replicate (off % 64) 0 ++ b)
  let l := s.homeLine off
  let m := lineMask (off % 64) b.length
  match s.findLine l with
  | some x =>
    if x.valid then s.putLine x (mergeLine x.data d m) m
    else s.emit (.homeWrite l m d)
  | none => if b.length = 64 then s.putLine { line := l } d m else s.emit (.homeWrite l m d)

end Sys2Proof.Machine
end

