-- ==== Sys2Proof/Machine/Endpoint.lean ====
section
/-! DEFINITION. The end-point block: translation, sender checks, planes, sequence numbers, retransmission, completion,
the remote-read cache, milestones, waits and fences (R163 to R198, R200, R201, R206 to R223, R326, R345). -/

namespace Sys2Proof.Machine

/-! ## The instances (R163) -/

/-- The frame number an instance's deadlines are counted in: the chiplet keeps its own (R41, R540). -/
def State.epNow (s : State) (e : Nat) : Nat := if e = 17 then s.chipNow else s.now

/-- End-point id of an instance. -/
def State.epId (s : State) (e : Nat) : Nat :=
  if e < 16 then 128 + 16 * s.plane + e else if e = 16 then 384 + s.plane else s.fget R.CH_CTL.EP_ID

def State.epRack (s : State) (e : Nat) : Nat := if e = 17 then s.chip.rack else s.rack

/-- Outstanding-request entries. -/
def ortCap (e : Nat) : Nat := if e < 16 then 16384 else if e = 16 then 4096 else 131072

/-- Sets of the 16-way cache; which set a line maps to is the model's choice (assumption 17). -/
def cacheSets (e : Nat) : Nat := if e < 16 then 1024 else if e = 16 then 0 else 16384

/-- A cell leaves the instance on a plane: into its own sled's core, or on the chiplet's port. A collective cell carries
no DST (R85). -/
def State.epSend (s : State) (e q : Nat) (c : Cell) : State :=
  let c := if c.collective then { c with dst := 0 } else c
  if e < 16 then s.emit (.inject (144 + e) c)
  else if e = 16 then s.ownSend c
  else s.portSend (160 + q) c

/-! ## Translation (R170, R171) -/

/-- What a matching translation entry gives a request. -/
structure Xlat where
  ga : Nat
  read : Bool
  write : Bool
  atomic : Bool
  cache : Bool
  window : Nat
  /-- End of its range in request addresses. -/
  limit : Nat := 0
  deriving DecidableEq, Repr

/-- The words of the VALID entries of an instance, lowest-numbered first. -/
def State.transEntries (s : State) (e : Nat) : List (Nat × Nat × Nat) :=
  let lo := epBase e + 0x10000
  (s.regsIn lo (lo + 0x20000)).filterMap fun a =>
    if (a.1 - lo) % 32 = 0 ∧ bitAt a.2.toNat 0 then some (a.2.toNat, (s.reg (a.1 + 8)).toNat, (s.reg (a.1 + 16)).toNat)
    else none

/-- R170 ignores the entry. -/
def State.badEntry (s : State) (e : Nat) (w : Nat × Nat × Nat) : Bool :=
  let z := bitsOf w.1 12 7
  let va := w.2.1 / 4096 * 4096
  let ga := w.2.2 / 4096 * 4096
  z < 12 || 44 < z || va % 2 ^ z != 0 || ga % 2 ^ z != 0 || 2 ≤ bitsOf ga 55 54 || (ga / 2 ^ 56 != s.epRack e && 32 < z)

/-- The translation of an address. -/
def State.lookup (s : State) (e ctx v : Nat) : Option Xlat :=
  let hit (w : Nat × Nat × Nat) : Bool :=
    !s.badEntry e w && bitsOf w.1 6 1 == ctx && v / 2 ^ bitsOf w.1 12 7 == w.2.1 / 4096 * 4096 / 2 ^ bitsOf w.1 12 7
  ((s.transEntries e).find? hit).map fun w =>
    let va := w.2.1 / 4096 * 4096
    { ga := (w.2.2 / 4096 * 4096 + (v - va)) % 2 ^ 64, read := bitAt w.1 13, write := bitAt w.1 14
      atomic := bitAt w.1 15, cache := bitAt w.1 16, window := bitsOf w.1 28 17, limit := va + 2 ^ bitsOf w.1 12 7 }

/-- A lookup marks the entries it ignores. -/
def State.markBad (s : State) (e : Nat) : State :=
  s.when ((s.transEntries e).any (s.badEntry e)) (·.fsetb (R.EP_STATUS.BAD_ENTRY e) true)

/-! ## Sender checks (R172) -/

/-- Length code of a length. -/
def lenCode (n : Nat) : Option Nat := (List.range 9).find? (2 ^ · == n)

def reqRelease (r : MemReq) : Bool := r.op == 4 || (r.op == 5 && r.hint == 2)
def reqAcquire (r : MemReq) : Bool := r.op == 2 || (r.op == 5 && r.hint == 1)

/-- The request returns a value. -/
def reqReturns (r : MemReq) : Bool := r.op ≤ 2 || (r.op == 5 && r.fetch)

/-- Check 3: the id is not reserved and agrees with the space (R24, R26). -/
def idOk (ga : Nat) : Bool :=
  let id := ga / 2 ^ 44 % 1024
  let sp := ga / 2 ^ 54 % 4
  if sp = 0 then id < 384 else if sp = 1 then id < 128 || (384 ≤ id && id < 400) else false

/-- Check 4: length, alignment, type, and the limits of R206. -/
def formOk (r : MemReq) (ga : Nat) : Bool :=
  let o := ga % 2 ^ 44
  match lenCode r.len with
  | none => false
  | some _ =>
    if ga / 2 ^ 54 % 4 = 1 then o % 8 == 0 && r.len == 8 && r.op ≤ 4
    else
      (if 128 ≤ r.len then o % r.len == 0 else o % 64 + r.len ≤ 64) && !r.bothHints &&
      (if r.op = 5 then
        let w := subWidth r.subtype
        atomTypeOk r.aop r.subtype && o % w == 0 && (r.hint != 1 || r.fetch) &&
          (if r.fetch || r.aop == 3 then r.len == w else w ≤ r.len)
      else true)

/-- The plane R174 gives a destination, before usability: none for a sled instance, which sends through its own sled. -/
def State.namedPlane (s : State) (e id off : Nat) : Nat :=
  if e ≤ 16 then s.plane else if id < 128 then (id + off / 4096 % 16) % 16 else planeOfId id

/-- R460: the latest heartbeat on a chiplet's plane, and whether it has DARK set for an accelerator. -/
def State.saysDark (s : State) (q a : Nat) : Option Bool := (kget s.vigil.beats (160 + q)).map fun b => bitAt b.dark a

/-- R460: a plane that reports the destination dark is not used while another usable plane reports it lit. -/
def State.avoids (s : State) (e q id : Nat) : Bool :=
  e == 17 && id < 128 && s.saysDark q id == some true
    && (List.range 16).any fun k => k != q && s.planeUsable e k && s.saysDark k id == some false

/-- The plane the request takes; none when no plane is usable. -/
def State.choosePlane (s : State) (e id off : Nat) : Option Nat :=
  let p := s.namedPlane e id off
  ((List.range 16).map fun k => (p + k) % 16).find? fun q => s.planeUsable e q && !s.avoids e q id

/-- Checks 1 and 2: the translation, when it allows the request's kind. -/
def State.permitted (s : State) (e : Nat) (r : MemReq) : Option Xlat :=
  (s.lookup e r.ctx r.addr).filter fun x => if r.op ≤ 2 then x.read else if r.op = 5 then x.atomic else x.write

/-- Checks 3 to 6 of a request whose translation is t. -/
def State.checkAt (s : State) (e : Nat) (r : MemReq) (t : Xlat) : Nat :=
  let id := if r.op = 6 then r.reader else t.ga / 2 ^ 44 % 1024
  let own := id == s.epId e && t.ga / 2 ^ 56 == s.epRack e && t.ga / 2 ^ 54 % 4 == 0 && r.op != 6
  if !idOk t.ga || (r.op == 6 && 416 ≤ r.reader) || !formOk r t.ga then ST.BAD_PARAM
  else if r.ms.any fun m => s.fget (R.MS_INFO.OWNER e m) != r.ctx then ST.DENIED
  else if !own && (s.choosePlane e id (t.ga % 2 ^ 44)).isNone then ST.LOST
  else ST.OK

/-- The six checks in order: a refusal's status, or the translation. -/
def State.check (s : State) (e : Nat) (r : MemReq) : Nat × Option Xlat :=
  match s.permitted e r with
  | none => (ST.DENIED, none)
  | some t => if s.checkAt e r t = ST.OK then (ST.OK, some t) else (s.checkAt e r t, none)

/-! ## Milestones (R188) -/

/-- A milestone advances: COUNT, and the record of a status that is not ST_OK. COUNT is 64 bits and wraps. -/
def State.msAdvance (s : State) (e m n st : Nat) : State :=
  let s := s.fset (R.MS_COUNT.COUNT e m) (s.fget (R.MS_COUNT.COUNT e m) + n)
  if st = ST.OK then s
  else
    let s := s.finc (R.MS_INFO.ERRORS e m) 1
    if s.fget (R.MS_INFO.FIRST_STATUS e m) = 0 then s.fset (R.MS_INFO.FIRST_STATUS e m) st else s

/-! ## Observers -/

/-- Key of an observer's LOST_PENDING. -/
def lostKey (e obs ctx : Nat) : Nat := if e < 16 then obs * 64 + ctx else obs * 64

def State.lostPending (s : State) (e obs ctx : Nat) : Bool := (s.ep e).lost.contains (lostKey e obs ctx)

def State.setLost (s : State) (e obs ctx : Nat) (v : Bool) : State :=
  let x := s.ep e
  let k := lostKey e obs ctx
  s.setEp e { x with lost := if v then addNew x.lost k else x.lost.filter (· != k) }

/-- The scope an observer of the instance is served under (R200, R201). -/
def scopeFor (e sc : Nat) : Nat :=
  let sc := min sc 4
  if e < 16 then sc else if e = 16 then (if sc = 1 ∨ sc = 2 then 3 else sc) else if sc = 0 then 0 else 4

/-- A fence or release completed with ST_FENCE_LOST. -/
def State.countFenceLost (s : State) (e obs : Nat) : State :=
  if e < 16 then s.finc (R.CO_ORDER_STATS.FENCE_LOST (16 * e + obs / 4)) 1
  else if e = 17 then s.finc (R.CH_ORDER.FENCE_LOST obs) 1 else s

/-- An acquire or fence of scope SLED or RACK with option INV reaches the cache (R192, R215). -/
def State.reachCache (s : State) (e obs ctx sc : Nat) (keep : Bool) : State :=
  if keep || scopeFor e sc < 3 then s
  else
    let s := s.dropLines e fun l => l.1 == ctx
    if e < 16 then s.finc (R.CO_ORDER_STATS.ACQ_INV (16 * e + obs / 4)) 1 else s

/-! ## Register sets of a core (R333, R335) -/

/-- Changes the register set of a context, wherever it is; core 256 stands for a core whose reset has discarded it. -/
def State.withSet (s : State) (c ctx : Nat) (f : RegSet → RegSet) : State :=
  let k := s.core c
  if 256 ≤ c then s
  else if k.run.ctx = ctx then s.setCore c { k with run := f k.run }
  else
    match k.standby with
    | some r =>
      if r.ctx = ctx then s.setCore c { k with standby := some (f r) }
      else s.setCore c { k with saved := kupd k.saved ctx { ctx := ctx } f }
    | none => s.setCore c { k with saved := kupd k.saved ctx { ctx := ctx } f }

def onEngine (i : Nat) (f : Engine → Engine) (r : RegSet) : RegSet :=
  { r with engines := r.engines.mapIdx fun j e => if j = i then f e else e }

/-- LAST_STATUS keeps the first status that is not ST_OK (R345). -/
def noteStatus (st : Nat) (e : Engine) : Engine :=
  if st ≠ ST.OK ∧ e.lastStatus = 0 then { e with lastStatus := st } else e

/-- Writes s[d]; s0 discards (R342). -/
def RegSet.setS (r : RegSet) (d : Nat) (v : W64) : RegSet := if d = 0 then r else { r with s := r.s.set d v }

/-- A returned value reaches s[d] and the state a squash returns to (R229, R335). -/
def RegSet.retS (r : RegSet) (d : Nat) (v : W64) : RegSet :=
  let r := r.setS d v
  { r with ra := r.ra.map fun a => { a with s := if d = 0 then a.s else a.s.set d v } }

/-- The scalar engine's acquire has completed: its run-ahead stands, or is squashed (R228, R229). -/
def RegSet.endAhead (ok : Bool) (r : RegSet) : RegSet :=
  match r.ra with
  | none => r
  | some a =>
    if a.cutOff || (ok && !a.squash) then { r with ra := none }
    else onEngine 2 (fun e => { e with pc := a.pc }) { r with ra := none, s := a.s }

/-- The quantum ends: run-ahead is squashed, and none follows before the acquire has completed (R228). -/
def RegSet.cutAhead (r : RegSet) : RegSet :=
  match r.ra with
  | none => r
  | some a =>
    if a.cutOff then r
    else onEngine 2 (fun e => { e with pc := a.pc }) { r with ra := some { s := a.s, pc := a.pc, cutOff := true }, s := a.s }

def RegSet.squashes (ok : Bool) (r : RegSet) : Bool :=
  match r.ra with
  | none => false
  | some a => !a.cutOff && (!ok || a.squash)

/-- An engine's wait ends. -/
def State.wake (s : State) (c ctx eng : Nat) (ok : Bool) : State :=
  let k := s.core c
  let sq := eng == 2 && k.run.ctx == ctx && k.run.squashes ok
  let s := s.when sq fun s => (s.finc (R.CO_ORDER_STATS.SQUASH c) 1).almAdd 5 (c / 16) 44 1
  s.withSet c ctx fun r =>
    onEngine eng (fun e => { e with wait := 0 }) (if eng = 2 then r.endAhead ok else r)

/-! ## Scratch (R321, R323) -/

/-- Physical scratch offset of a context's partition offset. -/
def State.scratchAt (s : State) (c ctx off : Nat) : Nat := 16384 * s.fget (R.CO_PART.BASE c ctx) + off

/-- Bytes of scratch an instruction of the context may reach: the partition less its save area. -/
def State.scratchLimit (s : State) (c ctx : Nat) : Nat :=
  16384 * (s.fget (R.CO_PART.UNITS c ctx) - (if s.fbit (R.CO_PART.ACC_LIVE c ctx) then 5 else 1))

def State.scratchRead (s : State) (c ctx off n : Nat) : List Byte :=
  Memory.read (s.core c).scratch (s.scratchAt c ctx off) n

/-- An engine asks the banks for the sectors of n bytes (R322). -/
def State.askBanks (s : State) (c off n : Nat) : State :=
  let k := s.core c
  s.setCore c { k with asked := k.asked + (ceilDiv (off + n) 32 - off / 32) }

/-- Writes scratch; a sector that the scalar engine read ahead squashes it when another engine writes it (R228). -/
def State.scratchWrite (s : State) (c ctx eng off : Nat) (b : List Byte) : State :=
  let k := s.core c
  let a := s.scratchAt c ctx off
  let hit (q : Nat) : Bool := a / 32 ≤ q && q ≤ (a + b.length - 1) / 32
  let ra := k.run.ra.map fun x =>
    { x with squash := x.squash || (eng != 2 && !b.isEmpty && x.sectors.any hit) }
  s.setCore c { k with scratch := Memory.write k.scratch a b, run := { k.run with ra := ra } }

/-! ## Completion (R164, R168, R184, R188, R198, R208, R210, R219, R345) -/

/-- A piece of a command or RDMA operation is answered (R416, R423). -/
def memPiece (off st : Nat) (data : List (Nat × Byte)) (m : MemCmd) : MemCmd :=
  { m with
    left := m.left - 1
    status := if m.status = ST.OK then st else m.status
    data := data.foldl (fun d b => kset d (off + b.1) b.2) m.data
    cut := if st = ST.OK then m.cut else some (min off (m.cut.getD off)) }

/-- Marks a mirror page (R312, R314): a lost WRITE sets the page's bit again and PARTNER_LOST, and the pending syncs on the
window complete with ST_LOST. -/
def State.mirrorAck (s : State) (h win page st : Nat) : State :=
  let x := s.hub h
  let k := win * 2 ^ 32 + page
  let n := kgetD x.mirrorOut k 1 - 1
  let out := if n = 0 then kdel x.mirrorOut k else kset x.mirrorOut k n
  let f (y : Sync) : Sync :=
    if y.out.contains k then
      { y with out := if n = 0 then y.out.filter (· != k) else y.out
               status := if y.status = ST.OK then st else y.status }
    else y
  let s := s.setHub h { x with mirrorOut := out, syncs := x.syncs.map f }
  if st ≠ ST.LOST then s
  else
    let s := (s.setDirty h win page true).fsetb (R.HB_MIRROR0.PARTNER_LOST h win) true
    let y := s.hub h
    let hit (z : Sync) : Bool := bitAt z.windows win
    (s.setHub h { y with syncs := y.syncs.filter fun z => !hit z }).forEach (y.syncs.filter hit) fun s z =>
      s.msAdvance h z.ms 1 ST.LOST

/-- Writes up to 64 bytes of an instance's own memory at the point of coherence. -/
def State.ownPut (s : State) (e off : Nat) (b : List Byte) : State :=
  if e < 16 then
    s.lineWrite e off (lineOf (List.replicate (off % 64) 0 ++ b))
      (if b.length = 64 then 2 ^ 64 - 1 else lineMask (off % 64) b.length) .clean
  else if e = 17 then s.homePut off b else s

/-- Order of a participant's statuses (R263); ST_DENIED, which R263 does not place, comes last before ST_OK
(assumption 18). -/
def partRank (st : Nat) : Nat :=
  if st = ST.MISMATCH then 0 else if st = ST.POISON then 1 else if st = ST.NOT_ARMED then 2
  else if st = ST.EARLY_DROPPED then 3 else if st = ST.LOST then 4 else if st = ST.LATE_MEMBER then 5
  else if st = ST.OK then 7 else 6

/-- The first of two statuses in that order. -/
def worst (a b : Nat) : Nat := if partRank b < partRank a then b else a

/-- A line of a chunk in recovery came, or did not (R259); where the regions lie differently in their lines it is stored in
two parts. -/
def State.bcastLine (s : State) (e slot chunk off st : Nat) (data : List (Nat × Byte)) : State :=
  let b := data.map (·.2)
  let n := 64 - off % 64
  let s := s.when (st == ST.OK) (·.ownPut e off (b.take n))
  let s := s.when (st == ST.OK && decide (n < b.length)) (·.ownPut e (off + n) (b.drop n))
  let x := s.ep e
  let f (m : Member) : Member :=
    if m.slot ≠ slot then m
    else
      let n := kgetD m.recovering chunk 1 - 1
      if st ≠ ST.OK then
        { m with recovering := kset m.recovering chunk 1000
                 ownStatus := worst m.ownStatus st }
      else if n = 0 then { m with recovering := kdel m.recovering chunk, have_ := addNew m.have_ chunk }
      else { m with recovering := kset m.recovering chunk n }
  s.setEp e { x with members := x.members.map f }

/-- What a completed request's status and data do. -/
def State.deliver (s : State) (e : Nat) (q : Request) (st : Nat) (data : List (Nat × Byte)) : State :=
  match q.dest with
  | .none_ => s
  | .sreg c ctx d =>
    let s := if q.isAcquire then s.wake c ctx (q.r.observer % 4) (st == ST.OK)
      else if q.isRelease then s.withSet c ctx (onEngine (q.r.observer % 4) fun g =>
        if g.wait = 5 then { g with wait := 0 } else g)
      else s
    s.withSet c ctx fun r =>
      let r := onEngine (q.r.observer % 4) (noteStatus st) r
      if !reqReturns q.r then r
      else
        let r := { r with pendingRegs := r.pendingRegs.filter (· != d) }
        if st = ST.OK then r.retS d (BitVec.ofNat 64 (leNat (data.map (·.2)))) else r
  | .dma c ctx x off =>
    let s := if q.r.op ≤ 2 then
        (s.askBanks c off data.length).forEach data fun s b => s.scratchWrite c ctx 3 (off + b.1) [b.2]
      else s
    let k := s.core c
    let f (t : Xfer) : Xfer :=
      if t.id = x then { t with open_ := t.open_ - 1, status := if t.status = ST.OK then st else t.status } else t
    s.setCore c { k with xfers := k.xfers.map f }
  | .complete rq tag => s.emit (.complete rq tag st (data.map (·.2)))
  | .cmd o t off =>
    let f (m : MemCmd) : MemCmd := if m.owner = o ∧ m.tag = t ∧ m.qp = 0 then memPiece off st data m else m
    { s with host := { s.host with memCmds := s.host.memCmds.map f } }
  | .rdma qp psn off =>
    let f (m : MemCmd) : MemCmd := if m.qp = qp + 1 ∧ m.psn = psn then memPiece off st data m else m
    { s with host := { s.host with memCmds := s.host.memCmds.map f } }
  | .mirror h w p => s.mirrorAck h w p st
  | .bcast slot ch off => s.bcastLine e slot ch off st data

/-- Waiting fences and releases learn that a covered request was lost (R208, R218). -/
def State.coverLost (s : State) (e id : Nat) : State :=
  let x := s.ep e
  let f (q : Request) : Request := if q.covered.contains id then { q with lostCov := true } else q
  let g (w : Fence) : Fence := if w.covers.contains id then { w with lostCov := true } else w
  s.setEp e { x with reqs := x.reqs.map f, fences := x.fences.map g }

/-- A request completes with a status and the bytes it delivers. -/
def State.requestDone (s : State) (e : Nat) (q : Request) (st : Nat) (data : List (Nat × Byte)) : State :=
  let o := q.r.observer
  let late := q.isRelease && (q.lostCov || s.lostPending e o q.r.ctx)
  let s := if late then (s.setLost e o q.r.ctx false).countFenceLost e o else s
  let st := if late then ST.FENCE_LOST else st
  let s := if st = ST.LOST then ((s.setLost e o q.r.ctx true).finc (R.EP_STATS.LOST e) 1).coverLost e q.id else s
  let s := if q.isAcquire then s.reachCache e o q.r.ctx q.r.scope q.r.keep else s
  let s := match q.r.ms with
    | some m => match q.dest with
      | .dma .. => s
      | _ => s.msAdvance e m 1 st
    | none => s
  s.deliver e q st data

/-! ## The remote-read cache (R190) -/

/-- Enters a line, replacing the least recently used of its set. -/
def State.cacheFill (s : State) (e : Nat) (l : CacheLine) : State :=
  let n := cacheSets e
  if n = 0 then s
  else
    let same (a : CacheLine) : Bool := a.ctx == l.ctx && a.rack == l.rack && a.home == l.home && a.line == l.line
    let set (a : CacheLine) : Bool := a.line % n == l.line % n
    let others := (s.ep e).cache.filter fun a => !same a
    let inSet := others.filter set
    let s := match (if inSet.length < 16 then none else inSet.getLast?) with
      | some v => s.dropLines e fun k => k == (v.ctx, v.rack, v.home, v.line)
      | none => s
    let x := s.ep e
    s.setEp e { x with cache := l :: x.cache.filter fun a => !same a }

/-- The cached lines an access covers, or none on a miss. -/
def State.cacheHit (s : State) (e ctx ga n : Nat) : Option (List CacheLine) :=
  let o := ga % 2 ^ 44
  let ls := (List.range ((o + n + 63) / 64 - o / 64)).map (o / 64 + ·)
  ls.mapM fun l => (s.ep e).cache.find? fun a =>
    a.ctx == ctx && a.rack == ga / 2 ^ 56 && a.home == ga / 2 ^ 44 % 1024 && a.line == l

/-- The lines become the ones used last. -/
def State.cacheTouch (s : State) (e : Nat) (ls : List CacheLine) : State :=
  let x := s.ep e
  s.setEp e { x with cache := ls ++ x.cache.filter fun a => !ls.contains a }

/-- A request's bytes from the lines it got. -/
def reqBytes (q : Request) : List (Nat × Byte) :=
  (List.range q.r.len).map fun i =>
    let a := q.base + i
    (i, lineByte (kgetD q.data (a / 64) 0) (a % 64))

/-- A cacheable read fills its lines, but for those dropped meanwhile. -/
def State.fillAll (s : State) (e : Nat) (q : Request) : State :=
  s.forEach ((List.range q.cells).filter fun k => !q.noFill.contains k) fun s k =>
    let l := fillLine q k
    s.cacheFill e { ctx := l.1, rack := l.2.1, home := l.2.2.1, line := l.2.2.2
                    data := kgetD q.data (q.base / 64 + k) 0 }

/-- A request whose cells have all been answered completes. -/
def State.finish (s : State) (e : Nat) (q : Request) : State :=
  let x := s.ep e
  let s := s.setEp e { x with reqs := x.reqs.filter (·.id != q.id) }
  let s := if q.cacheable && q.status == ST.OK then s.fillAll e q else s
  s.requestDone e q q.status (if q.status = ST.OK ∧ reqReturns q.r then reqBytes q else [])

/-- A request's status after a cell's: ST_POISON on any part is a read's (R198), a cell without an answer makes it ST_LOST
(R184), otherwise the first that is not ST_OK stands (R168). The order of the first two is assumption 147. -/
def Request.statusAfter (q : Request) (st : Nat) (unanswered : Bool) : Nat :=
  if q.r.op ≤ 2 ∧ (st = ST.POISON ∨ q.status = ST.POISON) then ST.POISON
  else if unanswered ∨ q.status = ST.OK then st
  else q.status

/-- A cell of a request is answered, or is lost unanswered. -/
def State.cellDone (s : State) (e : Nat) (key req st : Nat) (unanswered : Bool) (line : Option (Nat × BitVec 512)) : State :=
  let x := s.ep e
  let s := s.setEp e { x with ort := x.ort.filter (·.key != key) }
  match x.reqs.find? (·.id == req) with
  | none =>
    match x.ort.find? (·.key == key) with
    | some o =>
      -- a cell of a collective: its member records the loss (R184, R263)
      let f (m : Member) : Member :=
        if m.slot = o.cell.slot ∧ o.cell.collective then { m with ownStatus := worst m.ownStatus st } else m
      let y := s.ep e
      s.setEp e { y with members := y.members.map f }
    | none => s
  | some q =>
    let q := { q with
      answered := q.answered + 1
      status := q.statusAfter st unanswered
      data := match line with
        | some l => kset q.data l.1 l.2
        | none => q.data }
    if q.cells ≤ q.answered then s.finish e q
    else
      let y := s.ep e
      s.setEp e { y with reqs := y.reqs.map fun a => if a.id = req then q else a }

/-! ## Sending (R175, R176, R181, R186) -/

def seqPlaneFor (dst plane : Nat) : Nat := if dst < 128 then plane else planeOfId dst

/-- KIND and target of the reservation a cell may use (R57, R186, R244): MULTICAST for a BCAST, REDUCE for a member's
CONTRIB, UNICAST for everything else, a hub's plane-forwarded CONTRIB included. -/
def State.resvKey (s : State) (e : Nat) (c : Cell) : Nat × Nat :=
  let x := s.ep e
  let fwd := e < 16 && c.chunk % 16 != s.plane
  let m := if c.typ = T.CONTRIB ∧ !fwd then (x.members.find? (·.slot == c.slot)).map (·.group) else none
  let r := if c.typ = T.BCAST then (x.roots.find? (·.slot == c.slot)).map (·.group) else none
  match m, r with
  | some g, _ => (2, g)
  | none, some g => (1, g)
  | none, none => (0, c.dst)

/-- An EP_RESV entry that matches a cell: its index. -/
def State.resvFor (s : State) (e plane : Nat) (c : Cell) : Option Nat :=
  let lo := epBase e + 0x1000
  let k := s.resvKey e c
  ((s.regsIn lo (lo + 2048)).find? fun a =>
    let v := a.2.toNat
    bitAt v 0 && !bitAt v 36 && bitsOf v 4 1 == plane && bitsOf v 6 5 == k.1 && bitsOf v 12 7 == c.ctx
      && (if k.1 = 0 then bitsOf v 22 13 else bitsOf v 24 13) == k.2).map fun a => (a.1 - lo) / 8

/-- Entries that hold a place in the outstanding-request table. -/
def ortUsed (x : Endpoint) : Nat := (x.ort.filter fun o => o.sent.isSome || o.held).length

/-- The next SEQ stays within 2,047 of the oldest unanswered one. -/
def seqFits (x : Endpoint) (dst sp : Nat) : Bool :=
  let n := kgetD x.seqs (dst * 16 + sp) 0
  x.ort.all fun o => o.sent.isNone || o.cell.dst != dst || o.seqPlane != sp || (n + 65536 - o.cell.seq) % 65536 < 2048

/-- Class a cell goes in: guaranteed with an entry and a credit, waiting without the credit, best-effort otherwise. -/
def State.paceG (s : State) (e plane : Nat) (c : Cell) : Option (Option Nat) :=
  match s.resvFor e plane c with
  | none => some none
  | some i =>
    if kgetD (s.ep e).resvUsed i 0 < min 1280 (s.fget (R.EP_RESV.CELLS e i)) then some (some i) else none

/-- Counts a guaranteed cell against its entry. -/
def State.useResv (s : State) (e : Nat) (i : Option Nat) : State :=
  match i with
  | none => s
  | some i =>
    let x := s.ep e
    s.setEp e { x with resvUsed := kupd x.resvUsed i 0 (· + 1) }

/-- Marks an entry as waiting on R176. -/
def State.stallOrt (s : State) (e key : Nat) : State :=
  let x := s.ep e
  s.setEp e { x with ort := x.ort.map fun o => if o.key = key then { o with stall := true } else o }

/-- Transmits a cell that waits, if it may go now. -/
def State.transmit (s : State) (e key : Nat) : State :=
  let x := s.ep e
  match x.ort.find? (·.key == key) with
  | none => s
  | some o =>
    if o.sent.isSome || o.held || s.now < x.quietUntil then s
    else if o.cell.collective && !s.planeUsable e o.plane then s.cellDone e key o.req ST.LOST true none
    else
      let plane? := if s.planeUsable e o.plane then some o.plane else s.choosePlane e o.cell.dst o.cell.offset
      match plane? with
      | none => s
      | some plane =>
        let sp := seqPlaneFor o.cell.dst plane
        if ortCap e ≤ ortUsed x || !seqFits x o.cell.dst sp then s.stallOrt e key
        else
          match (if o.cell.cls = clsG then (s.paceG e plane o.cell).orElse fun _ => if o.orBe then some none else none
              else some none) with
          | none =>
            s.setEp e { x with ort := x.ort.map fun a => if a.key = key then { a with stall := false } else a }
          | some i =>
            let sk := o.cell.dst * 16 + sp
            let n := kgetD x.seqs sk 0
            let c := { o.cell with seq := n, cls := if i.isSome then clsG else clsBE }
            let o' := { o with cell := c, seqPlane := sp, plane := plane, sent := some s.now, lastSent := s.now
                               stall := false }
            let s := s.setEp e { x with seqs := kset x.seqs sk ((n + 1) % 65536)
                                        ort := x.ort.map fun a => if a.key = key then o' else a }
            (s.useResv e i).epSend e plane c

/-! ## Cells of a request (R86, R164, R166, R173, R194) -/

/-- Payload of part p of a write or an atomic. -/
def partPayload (r : MemReq) (off p : Nat) : BitVec 512 :=
  let o := (off + 64 * p) % 64
  let d := lineOf (List.replicate o 0 ++ bytesAt r.data (64 * p) (min 64 r.len))
  if r.op = 5 ∧ r.aop = 3 then
    let w := subWidth r.subtype
    let co := (off + 8) % 64
    mergeLine d (lineOf (List.replicate co 0 ++ leBytes r.compare w)) (lineMask co w)
  else d

/-- The cells, without SEQ: class 0 asks for the guaranteed class. -/
def cellsOf (r : MemReq) (src dst base space volatile : Nat) (lines : Bool) : List Cell :=
  let n := if lines then (base + r.len + 63) / 64 - base / 64 else lenCells ((lenCode r.len).getD 0)
  (List.range n).map fun p =>
    { typ := if r.op ≤ 2 then T.READ else if r.op ≤ 4 then T.WRITE else if r.op = 5 then T.ATOMIC else T.INVALIDATE
      cls := if r.g then clsG else clsBE
      dst := dst, src := src, ctx := r.ctx, space := space
      opmod := if r.op ≤ 2 then (if r.op = 0 then volatile else 1) else if 5 ≤ r.op then r.aop else 0
      offset := if lines then (base / 64 + p) * 64 else base + 64 * p
      len := if lines then 6 else (lenCode r.len).getD 0
      part := if lines then 0 else p
      fetch := r.op == 5 && r.fetch
      hint := if r.op = 2 then 1 else if r.op = 4 then 2 else if r.op = 5 then r.hint else 0
      subtype := if r.op = 5 then r.subtype else 0
      payload := if 3 ≤ r.op ∧ r.op ≤ 5 then partPayload r base p else 0 }

/-- The INVALIDATE cell of a translated range. -/
def invalCell (r : MemReq) (src ga : Nat) : Cell :=
  { typ := T.INVALIDATE, cls := if r.g then clsG else clsBE, dst := r.reader, src := src, ctx := r.ctx, opmod := r.aop
    offset := ga % 2 ^ 44, len := (lenCode r.len).getD 0
    payload := lineOf (leBytes (ga / 2 ^ 44 % 1024) 2 ++ leBytes (ga / 2 ^ 56) 1) }

/-! ## Issue (R164, R172, R190, R193, R208, R326, R327) -/

/-- The request is a mirror WRITE. -/
def Dest.mirrors : Dest → Bool
  | .mirror .. => true
  | _ => false

/-- Enters the cells of a request and transmits those that may go. -/
def State.enterCells (s : State) (e : Nat) (q : Request) (cs : List Cell) (inter : Bool) (far : Nat) : State :=
  let x := s.ep e
  let id := q.id
  let held := !q.covered.isEmpty
  let os : List Outst := cs.mapIdx fun i c =>
    { key := x.nextKey + i, req := id, cell := c, interRack := inter, held := held, orBe := q.dest.mirrors
      plane := (s.choosePlane e far (q.ga % 2 ^ 44)).getD 0 }
  let s := s.setEp e { x with reqs := x.reqs ++ [{ q with cells := cs.length }], ort := x.ort ++ os
                              nextKey := x.nextKey + cs.length }
  if held then s else s.forEach os fun s o => s.transmit e o.key

/-- Performs a direct request, or leaves it with its held package (R305). -/
def State.directGo (s : State) (h : Nat) (q : Request) (f : LineFault) : State :=
  let o := q.ga % 2 ^ 44
  if o + q.r.len ≤ s.populated h ∧ s.heldIn h o q.r.len then
    let y := s.hub h
    s.setHub h { y with waiting := y.waiting ++ [.direct q.id] }
  else
    let d := s.directPerform h { q.r with addr := o } f
    let x := d.s.ep h
    let s := d.s.setEp h { x with reqs := x.reqs.filter (·.id != q.id) }
    s.requestDone h q d.status d.data

/-- Ids of the requests an observer has outstanding. -/
def State.outstanding (s : State) (e obs ctx : Nat) : List Nat :=
  ((s.ep e).reqs.filter fun q => q.r.observer == obs && (16 ≤ e || q.r.ctx == ctx)).map (·.id)

/-- A request that the sender checks refuse completes at once; only a milestone of its own context advances. -/
def State.refuseReq (s : State) (e : Nat) (q : Request) (st : Nat) : State :=
  s.requestDone e { q with r := { q.r with ms := q.r.ms.filter fun m => s.fget (R.MS_INFO.OWNER e m) == q.r.ctx } } st []

/-- A request whose translation is t (R164): refused by a later check, served by the cache, performed on the direct path,
or sent. -/
def State.issueAt (s : State) (e : Nat) (q : Request) (t : Xlat) (f : LineFault) : State :=
  let r := q.r
  if s.checkAt e r t ≠ ST.OK then s.refuseReq e q (s.checkAt e r t)
  else
    let id := t.ga / 2 ^ 44 % 1024
    let rack := t.ga / 2 ^ 56
    let sp := t.ga / 2 ^ 54 % 4
    let off := t.ga % 2 ^ 44
    let inter := rack != s.epRack e
    let q := { q with ga := t.ga, base := off
                      covered := if q.isRelease then s.outstanding e r.observer r.ctx else [] }
    let s := if 3 ≤ r.op ∧ r.op ≤ 5 then
        let a := off / 64
        let b := (off + r.len - 1) / 64
        s.dropLines e fun l => l.2.1 == rack && l.2.2.1 == id && a ≤ l.2.2.2 && l.2.2.2 ≤ b
      else s
    if r.op = 6 then s.enterCells e { q with base := 0 } [invalCell r (s.epId e) t.ga] false r.reader
    else if !inter && sp == 0 && id == s.epId e && e < 16 then
      let q := { q with direct := true, cells := 1 }
      if q.covered.isEmpty then
        let y := s.ep e
        (s.setEp e { y with reqs := y.reqs ++ [q] }).directGo e q f
      else
        let y := s.ep e
        s.setEp e { y with reqs := y.reqs ++ [q] }
    else if !inter && sp == 0 && id == s.epId e && e == 17 then
      let cs := (cellsOf r id id off 0 (if r.op = 0 ∧ !s.volatileOn e then 0 else 1) false).map fun c => { c with seq := q.id }
      let y := s.ep e
      let s := s.setEp e { y with reqs := y.reqs ++ [{ q with cells := cs.length, direct := true }] }
      if q.covered.isEmpty then s.forEach cs fun s c => s.homeCell 16 c else s
    else
      let cached := r.op == 0 && sp == 0 && t.cache && s.fbit (R.EP_CTL.CACHE_EN e) && e != 16 && !s.volatileOn e
      let hit := if cached then s.cacheHit e r.ctx t.ga r.len else none
      match hit with
      | some ls =>
        let s := (s.cacheTouch e ls).finc (R.EP_STATS2.HITS e) 1
        let d := ls.foldl (fun d l => kset d l.line l.data) q.data
        s.requestDone e q ST.OK (reqBytes { q with data := d })
      | none =>
        let plane := (s.choosePlane e id off).getD 0
        let base := if inter then t.window * 2 ^ 32 + off % 2 ^ 32 else off
        let dst := if inter then 400 + plane else id
        let cs := cellsOf r (s.epId e) dst base (if inter then 0 else sp) (if s.volatileOn e then 1 else 0) cached
        s.enterCells e { q with base := base, cacheable := cached } cs inter id

/-- A new request, without its translation. -/
def State.newReq (s : State) (e : Nat) (r : MemReq) (core : Nat) (dest : Dest) : Request :=
  { id := (s.ep e).nextKey, r := { r with ms := r.ms.map (· % 4096) }, dest := dest, core := core
    isRelease := reqRelease r, isAcquire := reqAcquire r, at_ := s.now }

/-- The next key of an instance is taken. -/
def State.takeKey (s : State) (e : Nat) : State := s.setEp e { s.ep e with nextKey := (s.ep e).nextKey + 1 }

/-- An engine presents a request: the end-point translates it once, at issue (R171), and checks it (R172). -/
def State.issue (s : State) (e : Nat) (r : MemReq) (core : Nat) (dest : Dest) (f : LineFault) : State :=
  let q := s.newReq e r core dest
  let s := (s.markBad e).takeKey e
  match s.permitted e q.r with
  | none => s.refuseReq e q ST.DENIED
  | some t => s.issueAt e q t f

/-- An observer performs none of its later accesses: an acquire, a fence, a wait or a release of its own is pending, or a
cell of its own stalls (R176, R209, R210, R217). A token signal holds back no memory request (R221). -/
def State.observerHeld (s : State) (e obs ctx : Nat) : Bool :=
  let x := s.ep e
  let mine (o c : Nat) : Bool := o == obs && (16 ≤ e || c == ctx)
  let stuck (q : Request) : Bool := q.isAcquire || q.isRelease || x.ort.any fun o => o.req == q.id && o.stall
  x.reqs.any (fun q => mine q.r.observer q.r.ctx && stuck q)
    || x.fences.any (fun w => mine w.observer w.ctx && w.kind != 2) || x.waits.any fun w => mine w.observer w.ctx

/-- While a request is outstanding its destination register is pending, and an acquire or a release holds the engine
(R209, R210, R343). -/
def State.holdEngine (s : State) (e id core ctx d : Nat) (r : MemReq) : State :=
  if (s.ep e).reqs.all (·.id != id) then s
  else
    let w := if reqAcquire r then 1 else if reqRelease r then 5 else 0
    s.withSet core ctx fun k =>
      let k := if reqReturns r && d != 0 then { k with pendingRegs := addNew k.pendingRegs d } else k
      if w = 0 then k else onEngine (r.observer % 4) (fun g => { g with wait := w }) k

/-- An engine's request, which its observer's earlier accesses let go. -/
def State.presentReq (s : State) (h core ctx d : Nat) (r : MemReq) : State :=
  let id := (s.ep h).nextKey
  (s.issue h r core (.sreg core ctx d) .clean).holdEngine h id core ctx d r

/-- Hands the atomic unit's answers to the chiplet's own requests. -/
def State.selfPump (s : State) : State :=
  let l := s.chip.selfAns
  let s := { s with chip := { s.chip with selfAns := [] } }
  s.forEach l fun s c =>
    s.cellDone 17 (2 ^ 64) c.seq (if c.typ = T.NACK then nackStatus c else ST.OK) false
      (if c.typ = T.RESPONSE then some (c.offset / 64, c.payload) else none)

/-- Meaning of REQUEST_ISSUE; an observer that waits presents it later. -/
def execRequestIssue (ep : Nat) (r : MemReq) (s : State) : Res :=
  let core := 16 * ep + r.observer / 4
  .next (if 18 ≤ ep ∨ s.observerHeld ep r.observer r.ctx then s
    else if ep < 16 then s.presentReq ep core r.ctx (r.tag % 32) r
    else (s.issue ep r core (if ep = 17 then .complete r.observer r.tag else .none_) .clean).selfPump)

/-- Meaning of REQUEST_TRANSMIT. -/
def execRequestTransmit (ep key : Nat) (s : State) : Res := .next (if 18 ≤ ep then s else s.transmit ep key)

/-- Every request of a list has completed. -/
def State.allDone (s : State) (e : Nat) (ids : List Nat) : Bool := (s.ep e).reqs.all fun q => !ids.contains q.id

/-- A release whose earlier requests have completed goes, or completes with ST_FENCE_LOST (R208). -/
def State.releaseSend (s : State) (e req : Nat) : State :=
  match (s.ep e).reqs.find? (·.id == req) with
  | none => s
  | some q =>
    if q.covered.isEmpty || !s.allDone e q.covered then s
    else
      let x := s.ep e
      if q.lostCov then
        let s := s.setEp e { x with reqs := x.reqs.filter (·.id != req), ort := x.ort.filter (·.req != req) }
        s.requestDone e q ST.FENCE_LOST []
      else
        let q' := { q with covered := [] }
        let s := s.setEp e { x with
          reqs := x.reqs.map fun a => if a.id = req then q' else a
          ort := x.ort.map fun o => if o.req = req then { o with held := false } else o }
        if q.direct ∧ e < 16 then s.directGo e q' .clean
        else if q.direct then
          let cs := (cellsOf q.r (s.epId e) (s.epId e) q.base 0 1 false).map fun c => { c with seq := q.id }
          s.forEach cs fun s c => s.homeCell 16 c
        else s.forEach (x.ort.filter (·.req == req)) fun s o => s.transmit e o.key

/-- Meaning of RELEASE_SEND. -/
def execReleaseSend (ep req : Nat) (s : State) : Res := .next (if 18 ≤ ep then s else (s.releaseSend ep req).selfPump)

/-! ## Answers and retransmission (R168, R182 to R185, R558) -/

/-- Replaces an outstanding entry. -/
def State.putOut (s : State) (e : Nat) (o : Outst) : State :=
  let y := s.ep e
  s.setEp e { y with ort := y.ort.map fun a => if a.key = o.key then o else a }

/-- An entry's cell leaves again on a plane, with RETX; without a credit it waits for the next frame (R186). -/
def State.resendOn (s : State) (e : Nat) (o : Outst) (plane : Nat) : State :=
  match (if o.cell.cls = clsG then s.paceG e plane o.cell else some none) with
  | none => s.putOut e { o with again := true }
  | some i =>
    let c := { o.cell with retx := true }
    let o' := { o with cell := c, plane := plane, lastSent := s.now, retries := o.retries + 1, again := false }
    let s := (s.putOut e o').finc (if c.cls = clsG then R.EP_STATS.RETX_G e else R.EP_STATS.RETX_BE e) 1
    (s.useResv e i).epSend e plane c

/-- A READ or WRITE to an accelerator leaves again on another plane, with a new SEQ of it, when R176 gives one (R183). -/
def State.resendMoved (s : State) (e : Nat) (o : Outst) (p : Nat) : State :=
  let x := s.ep e
  let sk := o.cell.dst * 16 + p
  let n := kgetD x.seqs sk 0
  if !seqFits x o.cell.dst p then s.putOut e { o with again := true, stall := true }
  else if o.cell.cls = clsG ∧ (s.paceG e p o.cell).isNone then s.putOut e { o with again := true }
  else
    (s.setEp e { x with seqs := kset x.seqs sk ((n + 1) % 65536) }).resendOn e
      { o with seqPlane := p, stall := false, cell := { o.cell with seq := n } } p

/-- Sends a cell again (R183): on its plane, on another where that is not usable; an atomic or INVALIDATE to an accelerator
is not moved but completes with ST_LOST. A cell of a collective stays with its plane. -/
def State.resend (s : State) (e : Nat) (o : Outst) : State :=
  if s.planeUsable e o.plane then s.resendOn e o o.plane
  else if o.cell.collective then s
  else if o.cell.dst < 128 ∧ o.cell.typ ≠ T.READ ∧ o.cell.typ ≠ T.WRITE then s.cellDone e o.key o.req ST.LOST true none
  else
    match s.choosePlane e o.cell.dst o.cell.offset with
    | none => s.putOut e { o with again := true }
    | some p => if o.cell.dst < 128 then s.resendMoved e o p else s.resendOn e o p

/-- Marks of R65 and R66: the offsets of retransmissions and the final mark. -/
def marksOf (o : Outst) : List Nat := if o.cell.cls = clsG then [5] else [64, 128, 192]
def finalMark (o : Outst) : Nat := if o.interRack then 4096 else if o.cell.cls = clsG then 10 else 256

/-- A retransmission is due. -/
def State.dueAgain (s : State) (o : Outst) : Bool :=
  match o.sent with
  | none => false
  | some f =>
    if f + finalMark o ≤ s.now then false
    else if o.again then true
    else if o.interRack then o.retries < 3 && o.lastSent + 1024 ≤ s.now
    else (marksOf o).any fun m => f + m ≤ s.now && o.lastSent < f + m

/-- A retransmission mark of a cell. -/
def State.retransmit (s : State) (e key : Nat) : State :=
  match (s.ep e).ort.find? (·.key == key) with
  | some o => if s.dueAgain o then s.resend e o else s
  | none => s

/-- At a frame's beginning the retransmissions that are due go, ahead of new cells (R65, R186). -/
def State.resendDue (s : State) (e : Nat) : State :=
  s.forEach (s.ep e).ort fun s o => s.retransmit e o.key

/-- The final mark of a cell: no answer came. -/
def State.lose (s : State) (e key : Nat) : State :=
  match (s.ep e).ort.find? (·.key == key) with
  | some o => if o.sent.any (fun f => f + finalMark o ≤ s.now) then s.cellDone e key o.req ST.LOST true none else s
  | none => s

/-- An answer reaches the requester on a plane. -/
def State.answerReceive (s : State) (e plane : Nat) (c : Cell) : State :=
  let sp := seqPlaneFor c.src plane
  match (s.ep e).ort.find? fun o => o.sent.isSome && o.cell.dst == c.src && o.cell.seq == c.seq && o.seqPlane == sp with
  | none => s.finc (R.EP_STATS.DUP e) 1
  | some o =>
    if c.typ = T.NACK ∧ nackRetry c then
      if o.interRack ∧ 3 ≤ o.retries then s.cellDone e o.key o.req ST.LOST false none else s.resend e o
    else
      s.cellDone e o.key o.req (if c.typ = T.NACK then nackStatus c else ST.OK) false
        (if c.typ = T.RESPONSE then some (c.offset / 64, c.payload) else none)

/-- A cell that answers a memory request. -/
def State.memAnswer (s : State) (e plane : Nat) (c : Cell) : State :=
  if c.typ = T.ACK ∨ c.typ = T.NACK ∨ c.typ = T.RESPONSE then s.answerReceive e plane c else s

/-! ## Ages of records and windows (R180, R181) -/

/-- Meaning of REPLY_RECORD_EXPIRY: records 256 frames old are discarded. -/
def execReplyRecordExpiry (ep : Nat) (s : State) : Res :=
  let x := s.ep ep
  .next (if 18 ≤ ep then s
    else s.setEp ep { x with replies := x.replies.filter fun r => s.now < r.at_ + 256 })

/-- Meaning of SEQ_WINDOW_EXPIRY: a window without an arrival for 1,024 frames is discarded. -/
def execSeqWindowExpiry (ep key : Nat) (s : State) : Res :=
  let x := s.ep ep
  .next (match kget x.wins key with
    | some w => if ep < 18 ∧ w.last + 1024 ≤ s.now then s.setEp ep { x with wins := kdel x.wins key } else s
    | none => s)

/-- Meaning of STARTUP_QUIET_END: requests may be sent. -/
def execStartupQuietEnd (ep : Nat) (s : State) : Res :=
  .next (if ep < 18 ∧ (s.ep ep).quietUntil ≤ s.now then s.setEp ep { s.ep ep with quietUntil := 0 } else s)

/-! ## Demotion (R187), volatile mode (R195) -/

/-- The position R23 gives an id on sled q. -/
def posOn (q id : Nat) : Nat :=
  if id < 128 then id
  else if id < 384 then (if (id - 128) / 16 = q then 144 + (id - 128) % 16 else 128 + (id - 128) / 16)
  else 128 + planeOfId id

/-- A demotion notice from the sled of plane q. -/
def State.demotionNotice (s : State) (e q : Nat) (c : Cell) : State :=
  let p := lineBytes c.payload
  if c.typ ≠ T.STATUS ∨ field p 0 1 ≠ 0x10 then s
  else
    let lo := epBase e + 0x1000
    s.forEach (s.regsIn lo (lo + 2048)) fun s a =>
      let v := a.2.toNat
      let t := bitsOf v 24 13
      let hit := bitAt v 0 && bitsOf v 4 1 == q && bitsOf v 12 7 == field p 3 1 % 64 && bitsOf v 6 5 == field p 1 1 &&
        (if bitsOf v 6 5 = 0 then posOn q (t % 1024) == field p 2 1 else t == field p 4 2 % 4096)
      if hit then s.setReg a.1 (BitVec.ofNat 64 (bitSet v 36)) else s

/-- Meaning of DEMOTION_NOTICE. -/
def execDemotionNotice (ep plane : Nat) (cell : Cell) (s : State) : Res :=
  .next (if 18 ≤ ep then s else s.demotionNotice ep plane cell)

/-- Every DEMOTED bit clears. -/
def State.demoteClr (s : State) (e : Nat) : State :=
  let lo := epBase e + 0x1000
  s.forEach (s.regsIn lo (lo + 2048)) fun s a => s.setReg a.1 (BitVec.ofNat 64 (bitClr a.2.toNat 36))

/-- Meaning of DEMOTE_CLR. -/
def execDemoteClr (ep : Nat) (s : State) : Res := .next (if 18 ≤ ep then s else s.demoteClr ep)

/-- VOLATILE is written; volatile mode drops every line. -/
def State.setVolatile (s : State) (e : Nat) (v : Bool) : State :=
  (s.fsetb (R.EP_CTL.VOLATILE e) v).when v (·.dropCache e)

/-- Meaning of VOLATILE_SET. -/
def execVolatileSet (ep : Nat) (v : Bool) (s : State) : Res := .next (if 18 ≤ ep then s else s.setVolatile ep v)

/-! ## Waits (R189, R215, R360) -/

/-- A wait ends: satisfied, it completes as an acquire; at its deadline, with ST_PENDING and without one. -/
def State.waitEnd (s : State) (e : Nat) (w : MsWait) (st : Nat) : State :=
  let x := s.ep e
  let s := s.setEp e { x with waits := x.waits.filter (·.id != w.id) }
  let s := if st = ST.OK then s.reachCache e w.observer w.ctx w.scope w.keep else s
  if e < 16 then
    let s := s.wake w.core w.ctx (w.observer % 4) (st == ST.OK)
    s.withSet w.core w.ctx (onEngine (w.observer % 4) (noteStatus st))
  else if e = 17 then s.emit (.complete w.observer w.tag st [])
  else s

/-- COUNT of a wait's milestone has reached its target. -/
def State.waitMet (s : State) (e : Nat) (w : MsWait) : Bool := w.target ≤ s.fget (R.MS_COUNT.COUNT e w.ms)

/-- Every pending wait that its milestone satisfies ends. -/
def State.evalWaits (s : State) (e : Nat) : State :=
  s.forEach (s.ep e).waits fun s w => if s.waitMet e w then s.waitEnd e w ST.OK else s

/-- Meaning of MILESTONE_SATISFIED. -/
def execMilestoneSatisfied (ep wait : Nat) (s : State) : Res :=
  .next (match (s.ep ep).waits.find? (·.id == wait) with
    | some w => if ep < 18 ∧ s.waitMet ep w then s.waitEnd ep w ST.OK else s
    | none => s)

/-- Meaning of WAIT_DEADLINE: at FCLK 0 after the deadline frame. -/
def execWaitDeadline (ep : Nat) (s : State) : Res :=
  .next (if 18 ≤ ep then s
    else s.forEach (s.ep ep).waits fun s w =>
      if s.waitMet ep w then s.waitEnd ep w ST.OK
      else if w.deadline ≠ 0 ∧ w.issued + w.deadline < s.now then s.waitEnd ep w ST.PENDING else s)

/-- A register write to COUNT (R189). -/
def State.writeCount (s : State) (e m : Nat) (v : W64) : State :=
  (s.setReg (R.MS_COUNT.addr e m) v).evalWaits e

/-- Meaning of MS_COUNT_WRITE. -/
def execMsCountWrite (ep ms : Nat) (v : W64) (s : State) : Res :=
  .next (if ep < 18 ∧ ms < 4096 then s.writeCount ep ms v else s)

/-! ## Fences, milestone adds, token signals (R217 to R222, R361) -/

/-- Adds to a token of the context's set. -/
def State.tokenAdd (s : State) (c ctx t n : Nat) : State :=
  s.withSet c ctx fun r => { r with tokens := kset r.tokens t ((kgetD r.tokens t 0 + n) % 65536) }

/-- A fence whose covered requests and transfers have completed completes. -/
def State.fenceEnd (s : State) (e : Nat) (w : Fence) : State :=
  let x := s.ep e
  let s := s.setEp e { x with fences := x.fences.filter (·.id != w.id) }
  let o := w.observer
  let eng := o % 4
  if w.kind = 2 then s.tokenAdd w.core w.ctx w.ms w.count
  else
    let lost := w.lostCov || s.lostPending e o w.ctx
    let s := if lost then (s.setLost e o w.ctx false).countFenceLost e o else s
    let st := if lost then ST.FENCE_LOST else ST.OK
    let s :=
      if w.kind = 0 then s.reachCache e o w.ctx w.scope w.keep
      else if lost then (if e < 16 then s.withSet w.core w.ctx (onEngine eng (noteStatus st)) else s)
      else s.msAdvance e w.ms w.count ST.OK
    if e < 16 then s.wake w.core w.ctx eng true
    else if e = 17 then s.emit (.complete o w.tag st [])
    else s

/-- What a fence waits for has completed. -/
def State.fenceMet (s : State) (e : Nat) (w : Fence) : Bool :=
  s.allDone e w.covers && (s.core w.core).xfers.all fun t => !w.xfers.contains t.id

/-- Meaning of FENCE_COMPLETE. -/
def execFenceComplete (ep fence : Nat) (s : State) : Res :=
  .next (match (s.ep ep).fences.find? (·.id == fence) with
    | some w => if ep < 18 ∧ s.fenceMet ep w then s.fenceEnd ep w else s
    | none => s)

/-- A transfer writes scratch: DMAIN or DMAINV (R351). -/
def Xfer.fills (t : Xfer) : Bool := t.op < 0xA2

/-- DMA transfers a context has in flight on a core; `fills`: those that write scratch alone (R221, R351). -/
def State.xferIds (s : State) (c ctx : Nat) (fills : Bool) : List Nat :=
  ((s.core c).xfers.filter fun t => t.ctx == ctx && (!fills || t.fills)).map (·.id)

/-- Issues a fence, a milestone add or a token signal: it completes at once when nothing is left to wait for. -/
def State.fenceIssue (s : State) (e : Nat) (w : Fence) : State :=
  let x := s.ep e
  let w := { w with
    id := x.nextKey
    covers := if w.kind = 2 then [] else s.outstanding e w.observer w.ctx
    xfers := if e < 16 ∧ w.observer % 4 = 3 then s.xferIds w.core w.ctx (w.kind == 2) else [] }
  let s := s.setEp e { x with nextKey := x.nextKey + 1, fences := x.fences ++ [w] }
  if s.fenceMet e w then s.fenceEnd e w
  else if e < 16 ∧ w.kind ≠ 2 then
    s.withSet w.core w.ctx (onEngine (w.observer % 4) fun g => { g with wait := if w.kind = 0 then 3 else 5 })
  else s

/-- A token has reached a target (R221). -/
def tokenMet (t target : Nat) : Bool := (t + 65536 - target % 65536) % 65536 < 32768

/-- Meaning of TOKEN_WAIT_DONE. -/
def execTokenWaitDone (core engine : Nat) (s : State) : Res :=
  .next (if 256 ≤ core then s
    else
      let r := (s.core core).run
      match r.engines[engine]? with
      | some e =>
        if e.wait = 4 ∧ tokenMet (kgetD r.tokens e.waitToken 0) e.waitTarget then s.wake core r.ctx engine true else s
      | none => s)

/-! ## INVALIDATE at its reader (R194) -/

/-- Drops what an INVALIDATE names, then answers. -/
def State.invalidate (s : State) (e : Nat) (c : Cell) : State × Cell :=
  if 3 ≤ c.opmod then (s, nackOf c ST.BAD_PARAM false 0)
  else
    let p := lineBytes c.payload
    let home := field p 0 2 % 1024
    let rack := field p 2 1
    let a := c.offset / 64
    let b := (c.offset + max 1 (lenBytes c.len) - 1) / 64
    let hit (l : Nat × Nat × Nat × Nat) : Bool :=
      l.1 == c.ctx && (c.opmod == 2 || (l.2.1 == rack && l.2.2.1 == home && (c.opmod == 1 || (a ≤ l.2.2.2 && l.2.2.2 ≤ b))))
    (s.dropLines e hit, ackOf c)

end Sys2Proof.Machine
end

