-- ==== Sys2Proof/Machine/Mirror.lean ====
section
/-! DEFINITION. What the hub does through its end-point: direct accesses under a given line state, held packages, the
mirror engine and its syncs (R290, R304, R305, R312 to R314). -/

namespace Sys2Proof.Machine

/-- Meaning of MEMORY_ACCESS: a direct access of a core of the hub at a hub offset, with what its lines are found to be.
A value goes to scalar register `tag`; a release waits for the engine's earlier requests (R208), an engine that waits
presents the access later. -/
def execMemoryAccess (hub : Nat) (r : MemReq) (fault : LineFault) (s : State) : Res :=
  .next (if 16 ≤ hub ∨ 64 ≤ r.observer ∨ 6 ≤ r.op ∨ s.observerHeld hub r.observer r.ctx then s
    else
      let core := 16 * hub + r.observer / 4
      let q := s.newReq hub r core (.sreg core r.ctx (r.tag % 32))
      let q := { q with ga := r.addr % 2 ^ 44, cells := 1, direct := true
                        covered := if q.isRelease then s.outstanding hub r.observer r.ctx else [] }
      if !formOk r q.ga then s.requestDone hub q ST.BAD_PARAM []
      else
        let t := s.takeKey hub
        let t := t.setEp hub { t.ep hub with reqs := (t.ep hub).reqs ++ [q] }
        (if q.covered.isEmpty then t.directGo hub q fault else t).holdEngine hub q.id core r.ctx (r.tag % 32) r)

/-- Takes up an access that waited for a held package. -/
def State.takeWait (s : State) (h : Nat) (w : HubWait) : State :=
  match w with
  | .cell c => s.hubCell h c .clean
  | .direct id =>
    match (s.ep h).reqs.find? (·.id == id) with
    | some q => s.directGo h q .clean
    | none => s

/-- Meaning of TEMP_READ: every 16 frames, the highest reading of each of the twelve packages; accesses to a package that
is held no more go on. -/
def execTempRead (hub : Nat) (temps : List Nat) (s : State) : Res :=
  .next (if 16 ≤ hub ∨ s.now % 16 ≠ 0 ∨ temps.length ≠ 12 then s
    else
      let s := s.forEach ((List.range 12).zip temps) fun s a => s.readPackage hub a.1 a.2
      let s := s.hubTemps hub temps
      let w := (s.hub hub).waiting
      let s := s.setHub hub { s.hub hub with waiting := [] }
      s.forEach w fun s x => s.takeWait hub x)

/-! ## The mirror engine (R312 to R314) -/

/-- Dirty pages of a window that lie below the populated size (R310), ascending. -/
def State.dirtyPages (s : State) (h i : Nat) : List Nat :=
  let n := min (s.winPages h i) ((s.populated h - s.winBase h i) / 4096)
  let lo := hubAddr h (s.winBitmap h i)
  ((s.mem.filter fun c => lo ≤ c.1 && c.1 < lo + ceilDiv n 8).flatMap fun c =>
    (bitList c.2.toNat 8).map (8 * (c.1 - lo) + ·)).filter (· < n)

/-- The engine sends for this window. -/
def State.winSends (s : State) (h i : Nat) : Bool := s.winLive h i && !s.fbit (R.HB_MIRROR0.PARTNER_LOST h i)

/-- Every dirty page it may send, as window * 2^32 + page, ascending. -/
def State.mirrorWork (s : State) (h : Nat) : List Nat :=
  ((List.range 16).filter (s.winSends h)).flatMap fun i => (s.dirtyPages h i).map (i * 2 ^ 32 + ·)

/-- Sends one line of a page to the partner, guaranteed when it has a credit and best-effort otherwise; a poisoned line is
skipped. -/
def State.mirrorLine (s : State) (h win page k : Nat) (f : LineFault) : State :=
  let off := s.winBase h win + 4096 * page + 64 * k
  let s := s.lineRead h off f
  if s.poisoned h off then s.finc (R.HB_MIRROR_STATS.MIRROR_SKIP h) 1
  else
    let x := s.ep h
    let dst := 128 + 16 * (s.plane ^^^ 8) + h
    let ctx := s.fget (R.HB_MIRROR0.CONTEXT h win)
    let dstOff := s.winPartner h win + 4096 * page + 64 * k
    let s := s.dropLines h fun l => l.2.1 == s.rack && l.2.2.1 == dst && l.2.2.2 == dstOff / 64
    let r : MemReq := { observer := 64, ctx := ctx, op := 3, g := true, len := 64, data := lineBytes (s.hubLine h off) }
    let q : Request := { id := x.nextKey, r := r, ga := s.rack * 2 ^ 56 + dst * 2 ^ 44 + dstOff, base := dstOff
                         dest := .mirror h win page, at_ := s.now }
    let y := s.hub h
    let key := win * 2 ^ 32 + page
    let s := s.setHub h { y with mirrorOut := kupd y.mirrorOut key 0 (· + 1) }
    (s.setEp h { x with nextKey := x.nextKey + 1 }).enterCells h q (cellsOf r (s.epId h) dst dstOff 0 0 false) false dst

/-- The page the engine takes next. -/
def State.mirrorNext (s : State) (h : Nat) : Option Nat :=
  let work := s.mirrorWork h
  (work.find? fun k => (s.hub h).mirrorScan ≤ k).orElse fun _ => work.head?

/-- The engine takes the next dirty page: clears its bit, then sends its lines; in a held package it waits (R305). -/
def State.mirrorPage (s : State) (h : Nat) (faults : List LineFault) : State :=
  match s.mirrorNext h with
  | none => s
  | some k =>
    let win := k / 2 ^ 32
    let page := k % 2 ^ 32
    if s.heldIn h (s.winBase h win + 4096 * page) 4096 then s else
    let s := s.setDirty h win page false
    let s := s.setHub h { s.hub h with mirrorScan := k + 1 }
    let s := (s.forEach (List.range 64) fun s i => s.mirrorLine h win page i (faults.getD i .clean)).finc (R.HB_MIRROR_STATS.PAGES_SENT h) 1
    let s := s.almAdd 5 h 24 1
    let x := s.hub h
    let waits := (kget x.mirrorOut k).isSome
    let f (y : Sync) : Sync :=
      if y.pages.contains k then
        { y with pages := y.pages.filter (· != k), out := if waits then addNew y.out k else y.out }
      else y
    s.setHub h { x with syncs := x.syncs.map f }

/-- Meaning of MIRROR_PAGE_SEND. -/
def execMirrorPageSend (hub : Found Nat) (s : State) : Res :=
  .next (if 16 ≤ hub.what then s else s.mirrorPage hub.what hub.faults)

/-- HB_MIRROR_SYNC is written (R313, R314). -/
def State.mirrorSync (s : State) (h ms windows : Nat) : State :=
  let ws := bitList windows 16
  let x := s.hub h
  if ws.any (fun i => s.fget (R.MS_INFO.OWNER h ms) != s.fget (R.HB_MIRROR0.CONTEXT h i)) || 16 ≤ x.syncs.length then
    s.fsetb (R.HB_STATUS.BAD_SYNC h) true
  else
    if ws.any fun i => s.fbit (R.HB_MIRROR0.PARTNER_LOST h i) then s.msAdvance h ms 1 ST.LOST
    else
      let pages := (ws.filter (s.winLive h)).flatMap fun i => (s.dirtyPages h i).map (i * 2 ^ 32 + ·)
      s.setHub h { x with syncs := x.syncs ++ [{ ms := ms, windows := windows, pages := pages }] }

/-- Meaning of MIRROR_SYNC. -/
def execMirrorSync (hub ms windows : Nat) (s : State) : Res :=
  .next (if 16 ≤ hub then s else s.mirrorSync hub (ms % 4096) (windows % 65536))

/-- Meaning of MIRROR_SYNC_COMPLETE: the syncs with nothing left to send or acknowledge advance their milestones. -/
def execMirrorSyncComplete (hub : Nat) (s : State) : Res :=
  .next (if 16 ≤ hub then s
    else
      let x := s.hub hub
      let done (y : Sync) : Bool := y.pages.isEmpty && y.out.isEmpty
      let s := s.setHub hub { x with syncs := x.syncs.filter fun y => !done y }
      s.forEach (x.syncs.filter done) fun s y => s.msAdvance hub y.ms 1 y.status)

end Sys2Proof.Machine
end

