-- ==== Sys2Proof/Machine/Sha3.lean ====
section
/-! DEFINITION. SHA3-512 (FIPS 202), which R238 and chapter 18 name: Keccak-f[1600] over 25
lanes, that at (x, y) under index x + 5 * y. -/

namespace Sys2Proof.Machine

/-- Lane i; every list of lanes here has 25. -/
def laneAt (a : List Nat) (i : Nat) : Nat := a.getD i 0

/-- Rotation of a 64-bit lane to the left. -/
def rotl (v n : Nat) : Nat := (v * 2 ^ n) % 2 ^ 64 + v / 2 ^ (64 - n)

/-- The 8-bit register from which the round constants take their bits, after n steps. -/
def rcReg : Nat → Nat
  | 0 => 1
  | n + 1 => let d := 2 * rcReg n; if 256 ≤ d then d ^^^ 0x171 else d

/-- Constant of round r: its bit 2^j - 1 is the low bit of the register after 7 r + j steps. -/
def roundConst (r : Nat) : Nat :=
  (List.range 7).foldl (fun v j => v + rcReg (7 * r + j) % 2 * 2 ^ (2 ^ j - 1)) 0

/-- Column parities, each mixed into the two columns beside it. -/
def mixColumns (a : List Nat) : List Nat :=
  let par := (List.range 5).map fun x => (List.range 5).foldl (fun v y => v ^^^ laneAt a (x + 5 * y)) 0
  a.mapIdx fun i v => v ^^^ laneAt par ((i + 4) % 5) ^^^ rotl (laneAt par ((i + 1) % 5)) 1

/-- Rotates the lanes and moves them in one walk from (1, 0): `left` lanes still to move, the t-th of which turns
by (t + 1)(t + 2) / 2 and goes from (x, y) to (y, 2 x + 3 y). -/
def walkLanes (a : List Nat) : Nat → Nat → Nat → Nat → List Nat → List Nat
  | 0, _, _, _, b => b
  | left + 1, t, x, y, b =>
    let y' := (2 * x + 3 * y) % 5
    walkLanes a left (t + 1) y y' (b.set (y + 5 * y') (rotl (laneAt a (x + 5 * y)) ((t + 1) * (t + 2) / 2 % 64)))

/-- A lane takes what its two right neighbours of the row leave. -/
def mixRows (a : List Nat) : List Nat :=
  a.mapIdx fun i v =>
    let near (k : Nat) : Nat := laneAt a (i / 5 * 5 + (i + k) % 5)
    v ^^^ (near 2 - (near 1 &&& near 2))

/-- Round r. -/
def keccakRound (a : List Nat) (r : Nat) : List Nat :=
  let m := mixColumns a
  (mixRows (walkLanes m 24 0 1 0 m)).modifyHead (· ^^^ roundConst r)

/-- Keccak-f[1600]. -/
def keccakF (a : List Nat) : List Nat := (List.range 24).foldl keccakRound a

/-- Absorbs blocks of 72 bytes. -/
def absorb (a : List Nat) : List (List Byte) → List Nat
  | [] => a
  | b :: t => absorb (keccakF (a.mapIdx fun i v => if i < 9 then v ^^^ field b (8 * i) 8 else v)) t

/-- The first n blocks of 72 bytes. -/
def blocks72 : Nat → List Byte → List (List Byte)
  | 0, _ => []
  | n + 1, p => p.take 72 :: blocks72 n (p.drop 72)

/-- Pads a message to whole blocks of 72 bytes: 0x06, zeros, 0x80. -/
def sha3Blocks (m : List Byte) : List (List Byte) :=
  let n := m.length / 72 + 1
  let p := m ++ List.replicate (72 * n - m.length) 0#8
  let p := p.mapIdx fun i b => b ^^^ (if i = m.length then 0x06#8 else 0#8) ^^^ (if i + 1 = 72 * n then 0x80#8 else 0#8)
  blocks72 n p

/-- SHA3-512: 64 bytes. -/
def sha3 (m : List Byte) : List Byte :=
  (absorb (List.replicate 25 0) (sha3Blocks m)).take 8 |>.flatMap fun v => leBytes v 8

end Sys2Proof.Machine
end

