-- ==== Sys2Proof/Machine/Chunks.lean ====
section
/-! DEFINITION. Collective descriptors, chunks, regions and the arithmetic of a chunk (R235, R237 to R239, R241, R242,
R271, R274 to R279, R284). -/

namespace Sys2Proof.Machine

/-! ## Descriptors (R237 to R239) -/

/-- Descriptor bytes 10-23. -/
structure Desc where
  op : Nat := 0
  inT : Nat := 0
  outT : Nat := 0
  round : Nat := 0
  rootW : Nat := 0
  elements : Nat := 0
  deriving DecidableEq, Repr

def descOf (d : List Byte) : Desc :=
  { op := field d 0 1, inT := field d 1 1, outT := field d 2 1, round := field d 3 1, rootW := field d 4 2
    elements := field d 6 8 }

/-- ROOT_PLANE_HUB. -/
def Desc.planeHub (d : Desc) : Bool := bitAt d.rootW 15

/-- Root id, or the hub number of every plane's root. -/
def Desc.root (d : Desc) : Nat := if d.planeHub then d.rootW % 16 else d.rootW % 1024

def Desc.bcast (d : Desc) : Bool := d.op == 3
def Desc.stochastic (d : Desc) : Bool := bitAt d.round 0
def Desc.feedback (d : Desc) : Bool := bitAt d.round 1

/-- DESC_HASH (R238). -/
def descHash (d : List Byte) : Nat := leNat ((sha3 (bytesAt d 0 14)).take 8)

/-- Width of an element of a type code, and elements per cell (R241). -/
def typeWidth (t : Nat) : Nat :=
  if t = 0 ∨ t = 8 then 32 else if t = 1 ∨ t = 2 then 16 else if t ≤ 4 then 8 else if t ≤ 6 then 6 else if t = 7 then 4
  else 64
def typeCount (t : Nat) : Nat :=
  if t = 0 ∨ t = 8 then 16 else if t = 1 ∨ t = 2 then 32 else if t ≤ 6 then 64 else if t = 7 then 128 else 8
def isMx (t : Nat) : Bool := 3 ≤ t && t ≤ 7
def isInt (t : Nat) : Bool := t == 8 || t == 9

/-- The format of a float type code. -/
def fmtOf (t : Nat) : Fmt :=
  match t with
  | 1 => Fmt.bf16
  | 2 => Fmt.fp16
  | 3 => Fmt.e4m3
  | 4 => Fmt.e5m2
  | 5 => Fmt.e3m2
  | 6 => Fmt.e2m3
  | 7 => Fmt.e2m1
  | _ => Fmt.fp32

/-- K (R241). -/
def Desc.k (d : Desc) : Nat := min (typeCount d.inT) (typeCount d.outT)

/-- N, the number of chunks. -/
def Desc.n (d : Desc) : Nat := ceilDiv d.elements d.k

/-- Chunks of plane p. -/
def Desc.nOf (d : Desc) (p : Nat) : Nat := if d.n ≤ p then 0 else ceilDiv (d.n - p) 16

/-- Bytes of a chunk in a type, and of its scales. -/
def Desc.bytes (d : Desc) (t : Nat) : Nat := d.k * typeWidth t / 8
def Desc.scaleBytes (d : Desc) (t : Nat) : Nat := if isMx t then d.k / 32 else 0

/-- The rules of R239 that depend on descriptor bytes 10-23 alone. -/
def Desc.ok (d : Desc) : Bool :=
  d.op ≤ 3 && d.inT ≤ 9 && d.outT ≤ 9 && d.round ≤ 3 && isInt d.inT == isInt d.outT
    && (d.op != 3 || d.inT == d.outT)
    && (if d.planeHub then bitsOf d.rootW 14 4 == 0 else bitsOf d.rootW 14 10 == 0 && d.rootW % 1024 ≤ 383)
    && (!(isMx d.inT || isMx d.outT) || (d.k % 32 == 0 && d.elements % 32 == 0))
    && d.elements != 0 && d.elements < 2 ^ 40
    && (!d.feedback || ((d.planeHub || 128 ≤ d.rootW % 1024) && d.outT != 0 && !isInt d.outT))

/-- P(I) (R237). -/
def Desc.planes (d : Desc) : List Nat :=
  if d.bcast ∧ !d.planeHub ∧ 128 ≤ d.root then [(d.root - 128) / 16] else List.range 16

/-- The root of the chunks of plane p. -/
def Desc.rootOn (d : Desc) (p : Nat) : Nat := if d.planeHub then 128 + 16 * p + d.root else d.root

/-- Every root of the instance. -/
def Desc.roots (d : Desc) : List Nat := if d.planeHub then (List.range 16).map d.rootOn else [d.root]

/-! ## Regions (R242) -/

/-- Place of a chunk in a root's region: its local index there with ROOT_PLANE_HUB set, else its number. -/
def Desc.index (d : Desc) (c : Nat) : Nat := if d.planeHub then c / 16 else c

/-- Chunks a root's region holds. -/
def Desc.count (d : Desc) (p : Nat) : Nat := if d.planeHub then d.nOf p else d.n

/-- Byte ranges (offset, length) of chunk place i in a region of n chunks of a type: data, and scales when it has any. -/
def Desc.dataAt (d : Desc) (base t i : Nat) : Nat := base + i * d.bytes t
def Desc.scaleAt (d : Desc) (base t n i : Nat) : Nat := base + n * d.bytes t + i * d.scaleBytes t

/-- Bytes of a region of n chunks. -/
def Desc.regionSize (d : Desc) (t n : Nat) : Nat := n * (d.bytes t + d.scaleBytes t)

/-- U, the bytes of a spilled entry (R251, R252). -/
def Desc.unit (d : Desc) : Nat := 64 * (1 + ceilDiv (d.k * (if isInt d.inT then 8 else 4)) 64)

/-! ## Bytes of an end-point's own memory -/

/-- The pieces of a byte range within single lines: offset, first byte, length; an empty range has none. -/
def linePieces (off n : Nat) : List (Nat × Nat × Nat) :=
  (List.range (if n = 0 then 0 else (off + n + 63) / 64 - off / 64)).map fun k =>
    let a := max off ((off / 64 + k) * 64)
    let b := min (off + n) ((off / 64 + k + 1) * 64)
    (a, a - off, b - a)

/-- Residual slots of a root on sled s: one for each local index j (R242, R256). -/
def Desc.resSlots (d : Desc) (s : Nat) : Nat := d.nOf (if d.planeHub then s else 0)

/-- A range in the largest naturally aligned pieces of at most 64 bytes, ascending: offset and length (R165). -/
def writePieces (off n : Nat) : Nat → List (Nat × Nat)
  | 0 => []
  | fuel + 1 =>
    if n = 0 then []
    else
      let k := ((List.range 7).map fun j => 2 ^ (6 - j)).find? (fun k => off % k == 0 && k ≤ n) |>.getD 1
      (off, k) :: writePieces (off + k) (n - k) fuel

/-- Writes bytes at the point of coherence of an instance's own memory. -/
def State.putBytes (s : State) (e off : Nat) (b : List Byte) : State :=
  s.forEach (linePieces off b.length) fun s p => s.ownPut e p.1 ((b.drop p.2.1).take p.2.2)

/-- Outcome of reading bytes of an instance's own memory. -/
inductive Got where
  | ready (b : List Byte)
  /-- The chiplet has asked the accelerator for lines that its store lacks. -/
  | wait
  | bad
  deriving DecidableEq, Repr

/-- Reads bytes of an instance's own memory for the collective of a slot (R198, R536). -/
def State.getBytes (s : State) (e slot off n : Nat) : State × Got :=
  if n = 0 then (s, .ready [])
  else if e < 16 then
    if s.heldIn e off n then (s, .wait)
    else if (linePieces off n).any fun p => s.poisoned e p.1 then (s, .bad) else (s, .ready (s.hubRead e off n))
  else if s.chip.badSrc.contains slot then (s, .bad)
  else
    let ps := linePieces off n
    let have_ := ps.mapM fun p => ((s.findLine (s.homeLine p.1)).filter (·.valid)).map fun x =>
      bytesAt (lineBytes x.data) (p.1 % 64) p.2.2
    match have_ with
    | some bs => (s, .ready bs.flatten)
    | none =>
      (s.forEach ps fun s p =>
        if (s.findLine (s.homeLine p.1)).isSome || s.chip.storeQueue.any (fun a => s.homeLine a.2.offset == s.homeLine p.1) then s
        else s.homeTake 17 { typ := T.READ, len := 6, offset := p.1 / 64 * 64, seq := slot }, .wait)

/-! ## Elements (R241, R271, R274) -/

/-- Elements of a chunk in the accumulator format: fp32 or int64 bits. -/
def decodeChunk (d : Desc) (t : Nat) (payload : BitVec 512) (scales : Nat) : List Nat :=
  let w := typeWidth t
  (List.range d.k).map fun i =>
    let b := packGet payload.toNat w i
    if t = 0 ∨ t = 9 then b
    else if t = 8 then unsigned (signed b 32) 64
    else if isMx t then (fmtOf t).mxTo32 (bitsOf scales (8 * (i / 32) + 7) (8 * (i / 32))) b
    else Fmt.fp32.encode .rne false ((fmtOf t).decode b)

/-- One reduction operation on two accumulators (R274, R275). -/
def reduceOp (op : Nat) (int : Bool) (a b : Nat) : Nat :=
  if int then
    if op = 0 then (a + b) % 2 ^ 64
    else if op = 1 then (if signed b 64 < signed a 64 then b else a)
    else (if signed a 64 < signed b 64 then b else a)
  else if op = 0 then fadd32 a b
  else if op = 1 then Fmt.fp32.fmin a b
  else Fmt.fp32.fmax a b

/-- An element reaches an accumulator: the first sets it. -/
def accOne (d : Desc) (a : Option Nat) (x : Nat) : Option Nat :=
  match a with
  | none => some x
  | some v => some (reduceOp d.op (isInt d.inT) v x)

/-- Elements, from index i on, reach the accumulators. -/
def accumulate (d : Desc) (acc : List (Option Nat)) (i : Nat) (xs : List Nat) : List (Option Nat) :=
  acc.mapIdx fun j a => if i ≤ j then match xs[j - i]? with
    | some x => accOne d a x
    | none => a
  else a

/-! ## Results (R276 to R279) -/

/-- A chunk's result: payload, scales, and what RD_ARITH counts of it. -/
structure ChunkOut where
  els : List Nat := []
  scales : Nat := 0
  nan : Nat := 0
  sat : Nat := 0
  inf : Nat := 0
  deriving DecidableEq, Repr

/-- Counts of rounded elements. -/
def countOut (nan : Nat) (l : List Rounded) : ChunkOut :=
  { els := l.map (·.bits), nan := nan, sat := (l.filter (·.sat)).length, inf := (l.filter (·.toInf)).length }

/-- Re-quantises the accumulators, one mode per element; `last` elements belong to the instance. -/
def requantize (d : Desc) (vs : List (Nat × Mode)) (last : Nat) : ChunkOut :=
  let live := vs.take last
  let t := d.outT
  if t = 0 then { els := live.map (·.1) }
  else if t = 8 then { els := live.map (·.1 % 2 ^ 32) }
  else if t = 9 then { els := live.map (·.1) }
  else if isMx t then
    let blocks := (List.range (ceilDiv live.length 32)).map fun j => (fmtOf t).quantBlock ((live.drop (32 * j)).take 32)
    let o := countOut (blocks.filter (·.1 == 255)).length (blocks.flatMap (·.2))
    { o with scales := leNat (blocks.map fun b => BitVec.ofNat 8 b.1) }
  else
    let rs := live.map fun v => (fmtOf t).roundAcc v.2 v.1
    countOut (rs.filter (·.nan)).length rs

/-- Payload of a result. -/
def ChunkOut.payload (o : ChunkOut) (d : Desc) : BitVec 512 := BitVec.ofNat 512 (packOf (typeWidth d.outT) o.els)

/-- The new residuals of a chunk: bf16 of v - decode(q), +0 when either is not finite (R279). -/
def residuals (d : Desc) (vs : List Nat) (o : ChunkOut) : List Nat :=
  vs.mapIdx fun i v =>
    match o.els[i]? with
    | none => 0
    | some q =>
      let dv :=
        if isMx d.outT then (fmtOf d.outT).mxTo32 (bitsOf o.scales (8 * (i / 32) + 7) (8 * (i / 32))) q
        else Fmt.fp32.encode .rne false ((fmtOf d.outT).decode q)
      match Fmt.fp32.decode v, Fmt.fp32.decode dv with
      | .fin a m e, .fin b m' e' => Fmt.bf16.encode .rne false ((FV.fin a m e).add (FV.fin (!b) m' e'))
      | _, _ => 0

/-- n draws from a generator state (R284): the values and the state after them. -/
def drawList : Nat → W64 → List Nat × W64
  | 0, x => ([], x)
  | n + 1, x =>
    let x := xorshift x
    let r := drawList n x
    (drawOf x :: r.1, r.2)

end Sys2Proof.Machine
end

