-- ==== Sys2Proof/Machine/Reduce.lean ====
section
/-! DEFINITION. The reduction complex: joins, contributions, early arrivals, entries and spills, results, map ACKs, the
end of an instance and its notices (R115, R239, R240, R246 to R256, R261, R262, R264, R284, R559). -/

namespace Sys2Proof.Machine

def State.setRd (s : State) (x : Reduction) : State := { s with rd := x }

def State.setInst (s : State) (slot : Nat) (i : Inst) : State := s.setRd { s.rd with insts := kset s.rd.insts slot i }

/-- Id of this sled's reduction complex. -/
def State.rdId (s : State) : Nat := 384 + s.plane

/-- Rank of a member of a group (R235). -/
def State.rankOf (s : State) (g id : Nat) : Option Nat := findIdx (· == id) (s.members g) 0

def State.fixEarly (s : State) : State := s.fset R.RD_STATUS.EARLY_USED s.rd.early.length

/-! ## Acknowledgement (R248, R249) -/

/-- Adds a SEQ to the map ACKs that a source is owed. -/
def addAck (seq ctx : Nat) : List (Nat × Nat × Nat) → List (Nat × Nat × Nat)
  | [] => [(seq, 1, ctx)]
  | a :: t =>
    let d := (seq + 65536 - a.1) % 65536
    if d < 512 then (a.1, bitSet a.2.1 d, a.2.2) :: t else a :: addAck seq ctx t

def State.oweAck (s : State) (c : Cell) : State :=
  s.setRd { s.rd with acks := kupd s.rd.acks c.src [] (addAck c.seq c.ctx) }

/-- A map ACK (R248). -/
def mapAck (dst src base map ctx : Nat) : Cell :=
  { typ := T.ACK, cls := 2, dst := dst, src := src, ctx := ctx, seq := base, opmod := 1, payload := BitVec.ofNat 512 map }

/-- Places one source's oldest map ACK into the output queue of its position, when that has room. -/
def State.placeAck (s : State) (src : Nat) : State :=
  match kgetD s.rd.acks src [] with
  | [] => s
  | a :: t =>
    let go := s.setRd { s.rd with acks := if t.isEmpty then kdel s.rd.acks src else kset s.rd.acks src t }
    match s.posOf src with
    | none => go
    | some p =>
      if !s.posUp p then go
      else if s.outRoom p clsCtl then go.arriveOut p (mapAck src s.rdId a.1 a.2.1 a.2.2) (s.fclk 0) else s

/-- Meaning of MAP_ACK_SEND: one map ACK to each source that is owed one. -/
def execMapAckSend (s : State) : Res := .next (s.forEach (s.rd.acks.map (·.1)) State.placeAck)

/-! ## Ending (R239, R261, R262, R264) -/

/-- Order of the end conditions of R261. -/
def endRank (st : Nat) : Nat :=
  if st = ST.MISMATCH then 0 else if st = ST.POISON then 1 else if st = ST.NOT_ARMED then 2 else if st = ST.LOST then 3
  else if st = ST.OK then 4 else 5

/-- Drops what the complex holds for a slot: partial sums, spills, results and residual WRITEs. -/
def State.discardSlot (s : State) (slot : Nat) : State :=
  let own (k : Nat) : Bool := k / 2 ^ 32 == slot
  s.setRd { s.rd with
    entries := s.rd.entries.filter (·.slot != slot)
    spilled := s.rd.spilled.filter fun a => !own a.1
    spilledRes := s.rd.spilledRes.filter fun a => !own a.1
    results := s.rd.results.filter (·.slot != slot) }

/-- An instance that was poisoned or aborted: nothing more of it is added up or released (R261). -/
def Inst.poisoned (i : Inst) : Bool := i.endStatus.any fun st => st == ST.MISMATCH || st == ST.POISON

/-- An end condition holds: the first to hold ends the instance, and of two in one frame the earlier row governs. -/
def State.endWith (s : State) (slot st : Nat) : State :=
  match s.armed slot with
  | none => s
  | some i =>
    if i.endStatus.all fun o => i.endAt = s.now && endRank st < endRank o then
      let s := s.setInst slot { i with endStatus := some st, endAt := s.now }
      s.when (st == ST.MISMATCH || st == ST.POISON) (·.discardSlot slot)
    else s

/-- A member finished its part on this sled. -/
def State.finished (s : State) (i : Inst) (id : Nat) : Bool :=
  let d := descOf i.desc
  if d.bcast then i.doneMembers.contains id else i.joined.contains id && d.nOf s.plane ≤ kgetD i.contributed id 0

/-- Members a broadcast waits for, or every member of a reduce. -/
def State.waited (s : State) (i : Inst) : List Nat :=
  if (descOf i.desc).bcast then s.bcastMembers i else s.members i.group

/-- LATE_MAP of the end notice. -/
def State.lateMap (s : State) (i : Inst) : Nat :=
  let ms := s.members i.group
  let w := s.waited i
  bitMap ((List.range ms.length).filter fun r =>
    let id := ms.getD r 0
    !i.joined.contains id || (w.contains id && !s.finished i id))

/-- Field of RD_LATE for a lateness. -/
def lateFld (id n : Nat) (done : Bool) : Fld :=
  if !done || 256 ≤ n then R.RD_LATE.B7 id else if n = 0 then R.RD_LATE.B0 id else if n = 1 then R.RD_LATE.B1 id
  else if n ≤ 3 then R.RD_LATE.B2 id else if n ≤ 7 then R.RD_LATE.B3 id else if n ≤ 15 then R.RD_LATE.B4 id
  else if n ≤ 63 then R.RD_LATE.B5 id else R.RD_LATE.B6 id

/-- Files each member's lateness. -/
def State.fileLate (s : State) (i : Inst) : State :=
  let fs := (s.waited i).filterMap fun id => kget i.lastFrame id
  let first := fs.foldl min (fs.headD 0)
  s.forEach (s.waited i) fun s id =>
    s.fsat (lateFld id (kgetD i.lastFrame id first - first) (s.finished i id)) 1

/-- Payload of an end notice. -/
def noticePayload (st iseq slot group done late : Nat) : BitVec 512 :=
  lineOf (leBytes 0x20 1 ++ leBytes 0 1 ++ leBytes st 2 ++ leBytes iseq 4 ++ leBytes slot 2 ++ leBytes group 2
    ++ leBytes done 4 ++ leBytes late 20)

/-- The control-processor instance's next SEQ for a destination and sequence plane. -/
def State.cpSeq (s : State) (dst sp : Nat) : State × Nat :=
  let x := s.ep 16
  let n := kgetD x.seqs (dst * 16 + sp) 0
  (s.setEp 16 { x with seqs := kset x.seqs (dst * 16 + sp) ((n + 1) % 65536) }, n)

/-- The notice's cell. -/
def State.noticeCell (s : State) (n : Notice) : Cell :=
  { typ := T.STATUS, cls := 2, dst := n.dst, src := s.rdId, ctx := n.ctx, seq := n.seq, payload := n.payload
    retx := 0 < n.sends }

/-- Sends a notice to each participant and keeps it until it is answered. -/
def State.sendNotices (s : State) (slot ctx : Nat) (dsts : List Nat) (payload : BitVec 512) : State :=
  s.forEach dsts fun s dst =>
    let r := s.cpSeq dst (if dst < 128 then s.plane else planeOfId dst)
    let n : Notice := { slot := slot, dst := dst, seq := r.2, ctx := ctx, payload := payload, first := s.now }
    (r.1.setRd { r.1.rd with notices := r.1.rd.notices ++ [n] }).ownSend (r.1.noticeCell n)

/-- Slots that are not FREE, and those of a context (CP_CTX). -/
def State.countSlots (s : State) (ctx : Nat) : State :=
  let b := s.busySlots
  let mine := b.filter fun n => ((kget s.rd.insts n).map (·.ctx)) == some ctx
  (s.fset R.RD_STATUS.ARMED b.length).fset (R.CP_CTX.INST_ARMED ctx) mine.length

/-- The instance of a slot ends with a status: CLOSING, its notice to every member and root, its lateness. -/
def State.instEnd (s : State) (slot st : Nat) : State :=
  match s.armed slot with
  | none => s
  | some i =>
    let bad := st == ST.MISMATCH || st == ST.POISON
    let done := s.fget (R.RD_INST1.DONE slot)
    let late := s.lateMap i
    let s := ((s.fset (R.RD_INST0.STATE slot) 2).fset (R.RD_INST0.STATUS slot) st).fsetb (R.RD_INST0.POISONED slot) bad
    let s := s.when bad (·.finc R.RD_STATS2.POISONED 1)
    let s := s.when (st == ST.LOST) (·.finc R.RD_STATS2.RESULT_LOST 1)
    let s := s.when (st != ST.OK) (·.almAdd 2 0 100 1)
    let s := if bad then s else s.fileLate i
    let s := (s.discardSlot slot).setInst slot { i with endStatus := some st, closedAt := s.now }
    let root := s.rootHere i
    let dsts := addNew (s.members i.group) root
    s.sendNotices slot i.ctx dsts (noticePayload st i.iseq slot i.group done late)

/-- ST_OK and ST_LATE_MEMBER give way to ST_EARLY_DROPPED when EARLY_DROP is set for the slot. -/
def State.withDrop (s : State) (slot st : Nat) : Nat := if s.fbit (R.RD_INST0.EARLY_DROP slot) then ST.EARLY_DROPPED else st

/-- Every local chunk is written and acknowledged, or every broadcast member is done. -/
def State.instDone (s : State) (i : Inst) : Bool :=
  let d := descOf i.desc
  if d.bcast then (s.bcastMembers i).all i.doneMembers.contains else d.nOf s.plane ≤ i.written

/-- The instance ends with ST_OK as soon as nothing of it is left to do (R261). -/
def State.okCheck (s : State) (slot : Nat) : State :=
  match s.armed slot with
  | none => s
  | some i => if s.instDone i then s.endWith slot ST.OK else s

/-- The status a found end condition gives the notice. -/
def State.endedWith (s : State) (slot st : Nat) : Nat := if st = ST.OK then s.withDrop slot ST.OK else st

/-- Meaning of INSTANCE_END. -/
def execInstanceEnd (slot : Nat) (s : State) : Res :=
  .next (match s.armed slot with
    | none => s
    | some i =>
      match i.endStatus with
      | some st => s.instEnd slot (s.endedWith slot st)
      | none => if s.instDone i then s.instEnd slot (s.withDrop slot ST.OK) else s)

/-- Meaning of INSTANCE_DEADLINE: the end of frame D has passed. -/
def execInstanceDeadline (slot : Nat) (s : State) : Res :=
  .next (match s.armed slot with
    | none => s
    | some i =>
      if s.now ≤ i.deadline then s
      else
        match i.endStatus with
        | some st => s.instEnd slot (s.endedWith slot st)
        | none => s.instEnd slot (s.withDrop slot (if s.instDone i then ST.OK else ST.LATE_MEMBER)))

/-- Meaning of END_NOTICE_REPEAT: an unanswered notice goes out again 16, 32 and 48 frames after the first. -/
def execEndNoticeRepeat (slot : Nat) (s : State) : Res :=
  .next (s.forEach (s.rd.notices.filter fun n => n.slot == slot && n.sends < 3 && n.first + 16 * (n.sends + 1) ≤ s.now)
    fun s n =>
      let n' := { n with sends := n.sends + 1 }
      (s.setRd { s.rd with notices := s.rd.notices.map fun a => if a = n then n' else a }).ownSend
        (s.noticeCell n'))

/-- Meaning of SLOT_FREE: 256 frames after CLOSING began. -/
def execSlotFree (slot : Nat) (s : State) : Res :=
  .next (match kget s.rd.insts slot with
    | none => s
    | some i =>
      if s.slotState slot ≠ 2 ∨ s.now < i.closedAt + 256 then s
      else
        let s := s.fset (R.RD_INST0.STATE slot) 0
        let s := s.setRd { s.rd with insts := kdel s.rd.insts slot, notices := s.rd.notices.filter (·.slot != slot) }
        s.countSlots i.ctx)

/-! ## Entries and spills (R251, R252) -/

/-- Key of a chunk in the tables of spilled parts. -/
def chunkKey (slot chunk : Nat) : Nat := slot * 2 ^ 32 + chunk

/-- Image of a spilled chunk: its accumulators; unset ones are those that neither a member nor a residual part set. -/
def State.readImage (s : State) (i : Inst) (chunk : Nat) : List (Option Nat) :=
  let d := descOf i.desc
  let k := chunkKey i.slot chunk
  let w := if isInt d.inT then 8 else 4
  let off := i.spillBase + chunk / 16 * d.unit
  let b := if (linePieces off d.unit).any fun p => s.poisoned i.spillHub p.1 then leBytes s.freeVal d.unit
    else s.hubRead i.spillHub off d.unit
  let parts := kgetD s.rd.spilledRes k []
  (List.range d.k).map fun j =>
    if kgetD s.rd.spilled k 0 ≠ 0 ∨ parts.contains (j / 32) then some (field b (64 + w * j) w) else none

/-- An entry combined with an image, element by element (R274). -/
def joinAcc (d : Desc) (a b : List (Option Nat)) : List (Option Nat) :=
  a.mapIdx fun i x => match b.getD i none with
    | some v => accOne d x v
    | none => x

/-- The reading back of a chunk's image finds its lines as `faults` says, if `act` reads it back. -/
def State.onImage (s : State) (slot chunk : Nat) (faults : List LineFault) (act : State → State) : State :=
  let k := chunkKey slot chunk
  let t := act s
  match s.inst slot, kget s.rd.spilled k with
  | some i, some m =>
    let open_ (s : State) : Bool := s.rd.entries.any fun e => e.slot == slot && e.chunk == chunk
    if kget t.rd.spilled k = some m ∧ (open_ t ∨ !open_ s) then t
    else
      let d := descOf i.desc
      let ps := linePieces (i.spillBase + chunk / 16 * d.unit) d.unit
      act (s.forEach (ps.zip faults) fun s p => s.lineRead i.spillHub p.1.1 p.2)
  | _, _ => t

/-- The spill port waits for a chunk's image in a held package (R305). -/
def State.imageHeld (s : State) (i : Inst) (chunk : Nat) : Bool :=
  let d := descOf i.desc
  (kget s.rd.spilled (chunkKey i.slot chunk)).isSome
    && s.heldIn i.spillHub (i.spillBase + chunk / 16 * d.unit) d.unit

/-- Writes an entry, combined with the chunk's image when it has one, to the spill region and frees it. -/
def State.spill (s : State) (i : Inst) (e : RdEntry) : State :=
  let d := descOf i.desc
  let k := chunkKey e.slot e.chunk
  let had := (kget s.rd.spilled k).isSome
  let acc := if had then joinAcc d e.acc (s.readImage i e.chunk) else e.acc
  let map := e.members ||| kgetD s.rd.spilled k 0
  let w := if isInt d.inT then 8 else 4
  let b := leBytes map 20 ++ leBytes 0 4 ++ leBytes e.opened 8 ++ leBytes 0 32 ++ acc.flatMap fun v => leBytes (v.getD 0) w
  let s := s.putBytes i.spillHub (i.spillBase + e.chunk / 16 * d.unit) (bytesAt b 0 d.unit)
  let s := s.setRd { s.rd with
    entries := s.rd.entries.filter fun a => a.slot != e.slot || a.chunk != e.chunk
    spilled := kset s.rd.spilled k map
    spilledRes := kset s.rd.spilledRes k (e.residuals.foldl addNew (kgetD s.rd.spilledRes k [])) }
  (s.finc R.RD_STATS2.SPILLS 1).almAdd 2 0 96 1

/-- Units an entry of a slot takes. -/
def State.unitsOf (s : State) (slot : Nat) : Nat :=
  match s.inst slot with
  | some i => (descOf i.desc).unit / 64
  | none => 1

/-- Entries of a reduction unit. -/
def State.unitEntries (s : State) (m : Nat) : List RdEntry := s.rd.entries.filter fun e => steerOf e.slot e.chunk == m

/-- Frees units of unit m until `need` are free: its oldest entries, which the list names first, are spilled. -/
def State.makeRoom (s : State) (m need : Nat) : List RdEntry → State
  | [] => s
  | e :: t =>
    let used := (s.unitEntries m).foldl (fun a x => a + s.unitsOf x.slot) 0
    if used + need ≤ 4096 then s
    else
      match s.inst e.slot with
      | some i => (s.spill i e).makeRoom m need t
      | none => s.makeRoom m need t

/-- Meaning of ENTRY_SPILL: an entry still open 32 frames after it was opened; what is found is an image of the chunk, read
back. -/
def execEntrySpill (slot : Nat) (chunk : Found Nat) (s : State) : Res :=
  let k := chunk.what
  .next (match s.inst slot, s.rd.entries.find? (fun e => e.slot == slot && e.chunk == k) with
    | some i, some e =>
      if e.opened + 32 ≤ s.now ∧ !s.imageHeld i k then s.onImage slot k chunk.faults (·.spill i e) else s
    | _, _ => s)

/-! ## Results (R115, R254, R256, R277, R279, R284) -/

/-- The generator state of reduction unit m. -/
def State.rdRng (s : State) (m : Nat) : W64 := kgetD s.rd.rng m (seedOf 0 m)

/-- Sets every generator (R284). -/
def State.seedRd (s : State) (seed : W64) : State :=
  s.setRd { s.rd with rng := (List.range 160).map fun m => (m, seedOf seed m) }

/-- Meaning of RD_SR_SEED. -/
def execRdSrSeed (seed : W64) (s : State) : Res := .next (s.seedRd seed)

/-- Adds a RESULT or a residual WRITE to those the complex sends. -/
def State.addResult (s : State) (r : RdResult) : State :=
  s.setRd { s.rd with results := s.rd.results ++ [{ r with key := s.rd.nextKey }], nextKey := s.rd.nextKey + 1 }

/-- Residual WRITEs of a chunk to its root. -/
def State.addResiduals (s : State) (i : Inst) (chunk : Nat) (vs : List Nat) : State :=
  let d := descOf i.desc
  let root := s.rootHere i
  s.forEach (List.range (ceilDiv d.k 32)) fun s p =>
    let part := (vs.drop (32 * p)).take 32
    let off := i.resBase + chunk / 16 * (2 * d.k) + 64 * p
    let b := part.flatMap fun v => leBytes v 2
    s.forEach (writePieces off b.length b.length) fun s w =>
      let c : Cell := { typ := T.WRITE, cls := clsG, dst := root, src := s.rdId, ctx := s.groupCtx i.group, offset := w.1
                        len := log2 w.2
                        payload := lineOf (List.replicate (w.1 % 64) 0 ++ (b.drop (w.1 - off)).take w.2) }
      s.addResult { slot := i.slot, chunk := chunk, root := root, seqPlane := planeOfId root, cell := c }

/-- A complete chunk is combined with its image, re-quantised and becomes a RESULT (R254). -/
def State.chunkDone (s : State) (i : Inst) (e : RdEntry) : State :=
  let d := descOf i.desc
  let k := chunkKey e.slot e.chunk
  let m := steerOf e.slot e.chunk
  let had := (kget s.rd.spilled k).isSome
  let acc := (if had then joinAcc d e.acc (s.readImage i e.chunk) else e.acc).map (·.getD 0)
  let sr := d.stochastic && d.outT != 0 && !isInt d.outT
  let draws := if sr then drawList d.k (s.rdRng m) else ([], s.rdRng m)
  let vs := acc.mapIdx fun j v => (v, if sr then Mode.sr (draws.1.getD j 0) else Mode.rne)
  let o := requantize d vs (min d.k (d.elements - e.chunk * d.k))
  let s := s.setRd { s.rd with
    rng := if sr then kset s.rd.rng m draws.2 else s.rd.rng
    entries := s.rd.entries.filter fun a => a.slot != e.slot || a.chunk != e.chunk
    spilled := kdel s.rd.spilled k
    spilledRes := kdel s.rd.spilledRes k }
  let s := ((s.fsat R.RD_ARITH.NAN_BLOCKS o.nan).finc R.RD_ARITH.SATURATED o.sat).fsat R.RD_ARITH.TO_INF o.inf
  let s := if d.feedback then s.addResiduals i e.chunk (residuals d acc o) else s
  s.addResult { slot := e.slot, chunk := e.chunk, root := s.rootHere i, seqPlane := s.plane, spilled := had
                cell := { typ := T.RESULT, src := s.rdId, ctx := s.groupCtx i.group, slot := e.slot, chunk := e.chunk
                          scales := o.scales, payload := o.payload d } }

/-- A chunk is complete: every member's bit and every residual part. -/
def State.chunkComplete (s : State) (i : Inst) (e : RdEntry) : Bool :=
  let d := descOf i.desc
  let k := chunkKey e.slot e.chunk
  let map := e.members ||| kgetD s.rd.spilled k 0
  let parts := e.residuals ++ kgetD s.rd.spilledRes k []
  map == 2 ^ (s.members i.group).length - 1 && (!d.feedback || (List.range (ceilDiv d.k 32)).all parts.contains)

/-- The open entry of a chunk, a fresh one when there is none. -/
def State.openEntry (s : State) (i : Inst) (chunk : Nat) : State × RdEntry :=
  match s.rd.entries.find? fun e => e.slot == i.slot && e.chunk == chunk with
  | some e => (s, e)
  | none =>
    let d := descOf i.desc
    let m := steerOf i.slot chunk
    let s := s.makeRoom m (d.unit / 64) (s.unitEntries m)
    (s, { slot := i.slot, chunk := chunk, opened := s.now, acc := List.replicate d.k none })

/-- Stores an entry, or the result it has become. -/
def State.closeEntry (s : State) (i : Inst) (e : RdEntry) : State :=
  let same (a : RdEntry) : Bool := a.slot == e.slot && a.chunk == e.chunk
  if s.chunkComplete i e && !s.imageHeld i e.chunk then s.chunkDone i e
  else if s.rd.entries.any same then
    s.setRd { s.rd with entries := s.rd.entries.map fun a => if same a then e else a }
  else s.setRd { s.rd with entries := s.rd.entries ++ [e] }

/-! ## Handling of JOIN and CONTRIB (R246, R250, R559) -/

/-- Places a cell in the early-arrival area; false when it is full. -/
def State.holdEarly (s : State) (c : Cell) : State × Bool :=
  if 4096 ≤ s.rd.early.length then (s, false)
  else ((s.setRd { s.rd with early := s.rd.early ++ [{ cell := c, at_ := s.now }] }).fixEarly, true)

/-- A cell that is discarded and counted in STALE. -/
def State.staleCell (s : State) : State × Bool := (s.finc R.RD_STATS.STALE 1, true)

/-- A residual part reaches its chunk (R256). -/
def State.addResidual (s : State) (i : Inst) (c : Cell) : State :=
  let d := descOf i.desc
  let p := c.scales % 256
  if i.poisoned then s else
  let r := s.openEntry i c.chunk
  let k := chunkKey i.slot c.chunk
  if (r.2.residuals ++ kgetD r.1.rd.spilledRes k []).contains p then s.finc R.RD_STATS.DUP 1
  else
    let xs := (List.range (min 32 (d.k - 32 * p))).map fun j =>
      Fmt.fp32.encode .rne false (Fmt.bf16.decode (packGet c.payload.toNat 16 j))
    r.1.closeEntry i { r.2 with acc := accumulate d r.2.acc (32 * p) xs, residuals := r.2.residuals ++ [p] }

/-- A contribution is added (R251). -/
def State.addContrib (s : State) (i : Inst) (c : Cell) (rank : Nat) : State :=
  let d := descOf i.desc
  let e := s.rd.entries.find? fun e => e.slot == i.slot && e.chunk == c.chunk
  let have_ := ((e.map (·.members)).getD 0) ||| kgetD s.rd.spilled (chunkKey i.slot c.chunk) 0
  let sent := s.rd.results.any fun r => r.slot == i.slot && r.chunk == c.chunk
  if bitAt have_ rank || sent then s.finc R.RD_STATS.DUP 1
  else
    let i := { i with contributed := kupd i.contributed c.src 0 (· + 1), lastFrame := kset i.lastFrame c.src s.now }
    if i.poisoned then s.setInst i.slot i else
    let r := (s.setInst i.slot i).openEntry i c.chunk
    r.1.closeEntry i { r.2 with
      acc := accumulate d r.2.acc 0 (decodeChunk d d.inT c.payload c.scales), members := bitSet r.2.members rank }

/-- A reduction unit acts on a CONTRIB (R559); false when it is not accepted. -/
def State.rdContrib (s : State) (c : Cell) : State × Bool :=
  match s.inst c.slot with
  | none => s.holdEarly c
  | some i =>
    let d := descOf i.desc
    if s.slotState c.slot = 2 then s.staleCell
    else if d.feedback && c.src == s.rootHere i then (s.addResidual i c, true)
    else
      match s.rankOf i.group c.src with
      | none => (s.finc R.RD_STATS.NOT_MEMBER 1, true)
      | some r =>
        if c.ctx ≠ s.groupCtx i.group then (s.finc R.RD_STATS.NOT_MEMBER 1, true)
        else if !i.joined.contains c.src then s.holdEarly c
        else if d.bcast || d.n ≤ c.chunk then s.staleCell
        else (s.addContrib i c r, true)

/-- The held CONTRIBs that satisfy p are handed on. -/
def State.releaseContribs (s : State) (p : Cell → Bool) : State :=
  let out := s.rd.early.filter fun e => e.cell.typ == T.CONTRIB && p e.cell
  let s := (s.setRd { s.rd with early := s.rd.early.filter fun e => !(e.cell.typ == T.CONTRIB && p e.cell) }).fixEarly
  s.forEach out fun s e => (s.rdContrib e.cell).1

/-- A reduction unit acts on a JOIN, DONE or ABORT (R246); false when it is not accepted. -/
def State.rdJoin (s : State) (c : Cell) : State × Bool :=
  let p := lineBytes c.payload
  let g := field p 12 2 % 4096
  let kind := field p 14 1
  if (s.rankOf g c.src).isNone ∨ c.ctx ≠ s.groupCtx g then (s.finc R.RD_STATS.NOT_MEMBER 1, true)
  else
    match s.inst c.slot with
    | none => s.holdEarly c
    | some i =>
      if s.slotState c.slot = 2 ∨ g ≠ i.group ∨ field p 8 4 ≠ i.iseq then s.staleCell
      else if kind = 2 then (s.endWith c.slot ST.POISON, true)
      else if kind = 0 then
        if field p 0 8 ≠ i.hash then (s.endWith c.slot ST.MISMATCH, true)
        else if i.joined.contains c.src then (s, true)
        else
          let i := { i with joined := i.joined ++ [c.src] }
          let s := (s.setInst c.slot i).fset (R.RD_INST1.JOINED c.slot) i.joined.length
          (s.releaseContribs fun d => d.slot == c.slot && d.src == c.src, true)
      else if kind = 1 then
        if i.doneMembers.contains c.src ∨ !(descOf i.desc).bcast then (s, true)
        else
          let i := { i with doneMembers := i.doneMembers ++ [c.src], lastFrame := kset i.lastFrame c.src s.now }
          (((s.setInst c.slot i).fset (R.RD_INST1.DONE c.slot) i.doneMembers.length).okCheck c.slot, true)
      else (s, true)

/-- A JOIN or CONTRIB passes its window (R248, R249): a duplicate is acknowledged and counted, a new cell acted on. A
window without an arrival for 1,024 frames is gone (R181). -/
def State.rdReceive (s : State) (c : Cell) (act : State → Cell → State × Bool) : State :=
  let w := (kget s.rd.wins c.src).filter fun w => s.now < w.last + 1024
  if !winNew w c.seq then
    let s := s.setRd { s.rd with wins := kset s.rd.wins c.src (winTouch (w.getD {}) s.now) }
    (s.finc R.RD_STATS.DUP 1).oweAck c
  else
    let r := act s c
    if r.2 then
      (r.1.setRd { r.1.rd with wins := kset r.1.rd.wins c.src (winAccept w c.seq s.now) }).oweAck c
    else r.1

/-- Meaning of JOIN_RECEIVE. -/
def execJoinReceive (cell : Cell) (fclk : Nat) (s : State) : Res :=
  .next (if cell.typ = T.JOIN ∧ fclk < 1600 then s.rdReceive cell State.rdJoin else s)

/-- Meaning of CONTRIB_RECEIVE; what is found is an image of its chunk, read back. -/
def execContribReceive (cell : Found Cell) (fclk : Nat) (s : State) : Res :=
  let c := cell.what
  .next (if c.typ = T.CONTRIB ∧ fclk < 1600 then
      s.onImage c.slot c.chunk cell.faults (·.rdReceive c State.rdContrib)
    else s)

/-- Meaning of EARLY_ARRIVAL_EXPIRY: a cell held for 32 frames is discarded and sets EARLY_DROP for its slot. -/
def execEarlyArrivalExpiry (s : State) : Res :=
  let old := s.rd.early.filter fun e => e.at_ + 32 ≤ s.now
  .next (((s.setRd { s.rd with early := s.rd.early.filter fun e => s.now < e.at_ + 32 }).fixEarly).forEach old fun s e =>
    (s.finc R.RD_STATS.EARLY_DROP 1).fsetb (R.RD_INST0.EARLY_DROP e.cell.slot) true)

/-- What is held for a slot is handed on as the slot is armed: JOINs, then the CONTRIBs that are left. -/
def State.releaseSlot (s : State) (slot : Nat) : State :=
  let js := s.rd.early.filter fun e => e.cell.typ == T.JOIN && e.cell.slot == slot
  let s := (s.setRd { s.rd with early := s.rd.early.filter fun e => !(e.cell.typ == T.JOIN && e.cell.slot == slot) }).fixEarly
  let s := s.forEach js fun s e => (s.rdJoin e.cell).1
  s.releaseContribs fun c => c.slot == slot

/-! ## Sending results and residuals -/

/-- SEQs of the complex for a root stay within 2,047 of the oldest unanswered one (R176). -/
def State.rdSeqFits (s : State) (root sp : Nat) : Bool :=
  let n := kgetD (s.ep 16).seqs (root * 16 + sp) 0
  seqFits (s.ep 16) root sp && s.rd.results.all fun r =>
    r.sent.isNone || r.root != root || r.seqPlane != sp || (n + 65536 - r.cell.seq) % 65536 < 2048

def State.putResult (s : State) (r : RdResult) : State :=
  s.setRd { s.rd with results := s.rd.results.map fun a => if a.key = r.key then r else a }

/-- The active timetable holds a REDUCE entry for the group and context to the root's position (R254). -/
def State.reduceBooked (s : State) (g ctx pos : Nat) : Bool :=
  (s.cellEntries (s.activeBank 0)).any fun e => e.kind == 2 && e.group == g && e.ctx == ctx && e.dst == pos

/-- A cell of the complex at its intermediate's unicast queue: the state when it is taken, none without room. -/
def State.toQueue (s : State) (m : Nat) (c : Cell) (root fclk : Nat) : Option State :=
  match s.posOf root with
  | none => some (s.finc R.SG_NOROUTE.COUNT 1)
  | some p =>
    if !s.posUp p then some ((s.coreDrop (R.SW_DROP_OUT.LINK p)).almAdd 4 p 16 1)
    else
      let q : Queued := { cell := c, outPos := p }
      if !s.midRoom m q then none
      else
        let mc : MidCell := { cell := c, outPos := p, at_ := s.fclk fclk }
        some (if c.cls = clsBE then s.setSw { s.sw with midBe := kupd s.sw.midBe m [] (· ++ [mc]) }
          else s.setSw { s.sw with midG := kupd s.sw.midG m [] (· ++ [mc]) })

/-- Sends a RESULT or residual WRITE for the first time. -/
def State.sendResult (s : State) (r : RdResult) (fclk : Nat) : State :=
  if r.sent.isSome || !s.rdSeqFits r.root r.seqPlane then s
  else
    let q := s.cpSeq r.root r.seqPlane
    let booked :=
      if r.cell.typ = T.RESULT then
        !r.spilled && (match s.inst r.slot, s.posOf r.root with
          | some i, some p => s.reduceBooked i.group r.cell.ctx p
          | _, _ => false)
      else (s.cellEntries (s.activeBank 0)).any fun e =>
        e.kind == 0 && e.src == s.ownPos && e.srcEp == s.rdId && e.ctx == r.cell.ctx && s.posOf r.root == some e.dst
    let c := { r.cell with seq := q.2, cls := if booked && s.admitsG then clsG else clsBE }
    let r' := { r with cell := c, sent := some s.now, lastSent := s.now }
    if c.typ = T.RESULT then
      match q.1.toQueue (steerOf r.slot r.chunk) c r.root fclk with
      | some t => t.putResult r'
      | none => s
    else (q.1.putResult r').ownSend c

/-- Residual WRITEs of a chunk that are not acknowledged hold its RESULT (R256). -/
def State.resultHeld (s : State) (slot chunk : Nat) : Bool :=
  s.rd.results.any fun r => r.slot == slot && r.chunk == chunk && r.cell.typ == T.WRITE

/-- A complete chunk whose image's package is held no more is read back and done (R252, R305). -/
def State.heldDone (s : State) (slot chunk : Nat) : State :=
  match s.inst slot, s.rd.entries.find? (fun e => e.slot == slot && e.chunk == chunk) with
  | some i, some e => if s.chunkComplete i e && !s.imageHeld i chunk then s.chunkDone i e else s
  | _, _ => s

/-- Meaning of RESULT_HANDOFF: the chunk's residual WRITEs, or its RESULT once they are acknowledged and its queue has
room, at an FCLK of the frame. -/
def execResultHandoff (slot : Nat) (chunk : Handoff) (s : State) : Res :=
  let k := chunk.chunk
  let s := s.heldDone slot k
  let mine := s.rd.results.filter fun r => r.slot == slot && r.chunk == k && r.sent.isNone
  let go (s : State) (r : RdResult) : State := s.sendResult r chunk.fclk
  .next (if 1600 ≤ chunk.fclk then s
    else if s.resultHeld slot k then s.forEach (mine.filter (·.cell.typ == T.WRITE)) go
    else s.forEach mine go)

/-- The complex's cell as an outstanding entry, for its marks. -/
def RdResult.outst (r : RdResult) : Outst := { cell := r.cell, sent := r.sent, lastSent := r.lastSent }

/-- The complex's cell goes again, with RETX. -/
def State.rdResend (s : State) (r : RdResult) : State :=
  let c := { r.cell with retx := true }
  let r' := { r with cell := c, lastSent := s.now }
  if c.typ = T.RESULT then ((s.toQueue (steerOf r.slot r.chunk) c r.root 0).map (·.putResult r')).getD s
  else (s.putResult r').ownSend c

/-- A retransmission mark of the complex's cell; an instance that has ended retransmits none (R261). -/
def State.rdRetransmit (s : State) (key : Nat) : State :=
  match s.rd.results.find? (·.key == key) with
  | none => s
  | some r =>
    if r.refused || !s.dueAgain r.outst || (s.inst r.slot).any (·.endStatus.isSome) then s else s.rdResend r

/-- The final mark of the complex's cell: its instance ends with ST_LOST (R261). -/
def State.rdLose (s : State) (key : Nat) : State :=
  match s.rd.results.find? (·.key == key) with
  | none => s
  | some r => if !r.refused && r.sent.any (fun f => f + finalMark r.outst ≤ s.now) then s.endWith r.slot ST.LOST else s

/-- A RESULT is acknowledged: the chunk is written. -/
def State.resultAcked (s : State) (r : RdResult) : State :=
  let s := s.setRd { s.rd with results := s.rd.results.filter (·.key != r.key) }
  match s.armed r.slot with
  | none => s
  | some i =>
    ((s.setInst r.slot { i with written := i.written + 1 }).fset (R.RD_INST1.DONE r.slot) (i.written + 1)).okCheck r.slot

/-- An answer for the reduction complex (R249, R256, R261, R262); none when it answers nothing of the complex's. -/
def State.rdAnswer (s : State) (c : Cell) : Option State :=
  let sp (r : RdResult) : Bool := r.sent.isSome && r.root == c.src
  if c.typ = T.ACK ∧ c.opmod = 1 then
    let hit := s.rd.results.filter fun r =>
      sp r && r.cell.typ == T.RESULT && (r.cell.seq + 65536 - c.seq) % 65536 < 512
        && bitAt c.payload.toNat ((r.cell.seq + 65536 - c.seq) % 65536)
    if hit.isEmpty then none else some (s.forEach hit State.resultAcked)
  else
    match s.rd.results.find? (fun r => sp r && r.cell.seq == c.seq && (c.typ == T.NACK || r.cell.typ == T.WRITE)) with
    | some r =>
      if c.typ = T.NACK ∧ nackRetry c then some (if (s.inst r.slot).any (·.endStatus.isSome) then s else s.rdResend r)
      else if c.typ = T.NACK ∧ r.cell.typ = T.RESULT then
        some (if nackStatus c = ST.NOT_ARMED then s.endWith r.slot ST.NOT_ARMED else s)
      else if c.typ = T.NACK then some (s.putResult { r with refused := true })
      else some (s.setRd { s.rd with results := s.rd.results.filter (·.key != r.key) })
    | none =>
      if s.rd.notices.any fun n => n.dst == c.src && n.seq == c.seq then
        some (s.setRd { s.rd with notices := s.rd.notices.filter fun n => !(n.dst == c.src && n.seq == c.seq) })
      else none

/-! ## Retirement of a channel and the regions of instances (R308) -/

/-- An ARMED instance names a region of hub h that reaches the new size. -/
def State.regionAbove (s : State) (h size : Nat) : Bool :=
  s.rd.insts.any fun a =>
    let i := a.2
    let d := descOf i.desc
    let rootHub := s.rootHere i == 128 + 16 * s.plane + h
    s.slotState a.1 == 1 &&
      ((!d.bcast && i.spillHub == h && size < i.spillBase + d.nOf s.plane * d.unit)
        || (rootHub && size < i.resultBase + d.regionSize d.outT (d.count s.plane))
        || (rootHub && d.feedback && size < i.resBase + d.resSlots s.plane * 2 * d.k))

/-- Meaning of RETIRE_MOVE_START: at a frame boundary after GO, or 60,000,000 frames after D. -/
def execRetireMoveStart (hub : Nat) (s : State) : Res :=
  .next (
    let x := s.hub hub
    if 16 ≤ hub ∨ s.fget (R.HB_STATUS.RETIRE_STATE hub) ≠ 1 ∨ !(x.go || x.retireAt + 60000000 ≤ s.now)
        ∨ s.regionAbove hub x.newSize then s
    else
      let lo := hubAddr hub x.newSize
      let hi := hubAddr hub (s.populated hub)
      let s := { s with mem := s.mem.filter fun c => !(lo ≤ c.1 && c.1 < hi) }
      let s := s.setHub hub { x with
        poison := x.poison.filter (· < x.newSize / 64), copyCredit := 0, cutWins := s.keptWins hub x.newSize }
      ((s.fset (R.HB_SIZE.POPULATED hub) x.newSize).fset (R.HB_STATUS.RETIRE_STATE hub) 2).fset (R.HB_WATERMARK.WM hub) 0)

end Sys2Proof.Machine
end

