-- ==== Sys2Proof/Machine/Member.lean ====
section
/-! DEFINITION. The end-point side of collectives: member requests, contributions, results at the root, broadcast and its
recovery, end notices; arming; and the answers and marks of every cell an end-point or the reduction complex sent
(R182 to R185, R236 to R239, R243 to R245, R255 to R263, R364, R365, R542). -/

namespace Sys2Proof.Machine

/-! ## Cells of a participant -/

/-- Enters a collective cell for plane p and transmits it if it may go. -/
def State.enterColl (s : State) (e p : Nat) (c : Cell) : State :=
  let x := s.ep e
  let o : Outst := { key := x.nextKey, req := 2 ^ 64, cell := { c with dst := 384 + p, src := s.epId e }
                     plane := if e < 16 then s.plane else p }
  (s.setEp e { x with ort := x.ort ++ [o], nextKey := x.nextKey + 1 }).transmit e o.key

/-- A JOIN, DONE (1) or ABORT (2) to one plane (R245). -/
def State.sendJoin (s : State) (e : Nat) (m : Member) (kind p : Nat) : State :=
  s.enterColl e p { typ := T.JOIN, cls := clsBE, ctx := m.ctx, slot := m.slot, chunk := p
                    payload := lineOf (leBytes (descHash m.desc) 8 ++ leBytes m.iseq 4 ++ leBytes m.group 2 ++ leBytes kind 1) }

/-- To every plane of P(I). -/
def State.sendJoins (s : State) (e : Nat) (m : Member) (kind : Nat) : State :=
  s.forEach (descOf m.desc).planes fun s p => s.sendJoin e m kind p

def State.member (s : State) (e slot : Nat) : Option Member := (s.ep e).members.find? (·.slot == slot)

def State.setMember (s : State) (e : Nat) (m : Member) : State :=
  let x := s.ep e
  s.setEp e { x with members := x.members.map fun a => if a.slot = m.slot then m else a }

def State.root (s : State) (e slot : Nat) : Option RootArm := (s.ep e).roots.find? (·.slot == slot)

def State.setRoot (s : State) (e : Nat) (r : RootArm) : State :=
  let x := s.ep e
  s.setEp e { x with roots := x.roots.map fun a => if a.slot = r.slot then r else a }

/-- A member aborts (R245). -/
def State.memberAbort (s : State) (e : Nat) (m : Member) : State :=
  (s.setMember e { m with aborted := true }).sendJoins e m 2

/-! ## Contributions (R242, R243, R245) -/

/-- Data and scales of chunk place i of a region. -/
def State.readChunk (s : State) (e slot : Nat) (d : Desc) (base t n i : Nat) : State × Option (Option (BitVec 512 × Nat)) :=
  let a := s.getBytes e slot (d.dataAt base t i) (d.bytes t)
  let b := a.1.getBytes e slot (d.scaleAt base t n i) (d.scaleBytes t)
  match a.2, b.2 with
  | .bad, _ => (b.1, some none)
  | _, .bad => (b.1, some none)
  | .ready x, .ready y => (b.1, some (some (lineOf x, leNat y)))
  | _, _ => (b.1, none)

/-- The elements of a chunk that the instance has: bytes beyond its last element are zero. -/
def clipChunk (d : Desc) (t c : Nat) (v : BitVec 512 × Nat) : BitVec 512 × Nat :=
  let n := min d.k (d.elements - c * d.k)
  (BitVec.ofNat 512 (v.1.toNat % 2 ^ (n * typeWidth t)), v.2 % 2 ^ (8 * ceilDiv n 32))

/-- Sends the member's next contributions, as many as its table, windows and reservations take. -/
def State.contribPump (s : State) (e slot : Nat) : Nat → State
  | 0 => s
  | fuel + 1 =>
    match s.member e slot with
    | none => s
    | some m =>
      let d := descOf m.desc
      let c := m.next
      let p := c % 16
      let x := s.ep e
      if d.bcast || m.aborted || d.n ≤ c then s
      else if (kget m.notices p).isSome then (s.setMember e { m with next := c + 1 }).contribPump e slot fuel
      else if !s.planeUsable e p then
        (s.setMember e { m with next := c + 1, ownStatus := worst m.ownStatus ST.LOST }).contribPump e slot fuel
      else if ortCap e ≤ ortUsed x || !seqFits x (384 + p) p || x.ort.any (fun o => o.sent.isNone && o.cell.collective)
          || s.now < x.quietUntil then s
      else
        let r := s.readChunk e slot d m.region d.inT d.n c
        match r.2 with
        | none => r.1
        | some none => r.1.memberAbort e m
        | some (some v) =>
          let v := clipChunk d d.inT c v
          let s := r.1.setMember e { m with next := c + 1 }
          (s.enterColl e p { typ := T.CONTRIB, cls := if m.g then clsG else clsBE, ctx := m.ctx, slot := slot, chunk := c
                             payload := v.1, scales := v.2 }).contribPump e slot fuel

/-- Sends the residual parts of a root's region (R256). -/
def State.residualPump (s : State) (e slot : Nat) : Nat → State
  | 0 => s
  | fuel + 1 =>
    match s.root e slot with
    | none => s
    | some r =>
      let d := descOf r.desc
      let parts := ceilDiv d.k 32
      let i := r.resNext / parts
      let part := r.resNext % parts
      let c := if d.planeHub then 16 * i + s.plane else i
      let x := s.ep e
      if !d.feedback || d.count s.plane ≤ i || ortCap e ≤ ortUsed x || !seqFits x (384 + c % 16) (c % 16)
          || x.ort.any (fun o => o.sent.isNone && o.cell.collective) || s.now < x.quietUntil then s
      else
        let g := s.getBytes e slot (r.resBase + c / 16 * (2 * d.k) + 64 * part) (min 64 (2 * d.k))
        match g.2 with
        | .wait => g.1
        | .bad => g.1.setRoot e { r with resNext := r.resNext + 1, ownStatus := worst r.ownStatus ST.POISON }
        | .ready b =>
          let s := g.1.setRoot e { r with resNext := r.resNext + 1 }
          (s.enterColl e (c % 16) { typ := T.CONTRIB, cls := clsG, ctx := r.ctx, slot := slot, chunk := c, scales := part
                                    payload := lineOf b }).residualPump e slot fuel

/-- Whatever an instance's collectives can send now. -/
def State.collPump (s : State) (e : Nat) : State :=
  let s := s.forEach ((s.ep e).members.map (·.slot)) fun s n => s.contribPump e n 65536
  s.forEach ((s.ep e).roots.map (·.slot)) fun s n => s.residualPump e n 65536

/-! ## Completion of a participant (R263) -/

/-- Every cell of a slot has been answered. -/
def State.acked (s : State) (e slot : Nat) : Bool :=
  (s.ep e).ort.all fun o => !(o.cell.collective && o.cell.slot == slot)

/-- A member's request completes once it has every notice and its own cells are acknowledged. -/
def State.memberCheck (s : State) (e slot : Nat) : State :=
  match s.member e slot with
  | none => s
  | some m =>
    let d := descOf m.desc
    if !d.planes.all (fun p => (kget m.notices p).isSome) || !s.acked e slot then s
    else
      let own := if d.bcast && m.have_.length < d.n && m.deadline < s.epNow e then worst m.ownStatus ST.LOST
        else m.ownStatus
      let st := m.notices.foldl (fun a n => worst a n.2) own
      let x := s.ep e
      let s := s.setEp e { x with members := x.members.filter (·.slot != slot) }
      let s := match m.ms with
        | some k => s.msAdvance e k 1 st
        | none => s
      if e < 16 then s.withSet m.core m.ctx (onEngine 2 (noteStatus st))
      else if e = 17 then s.emit (.complete m.observer m.tag st []) else s

/-- A root arm ends once it has every notice that concerns it. -/
def State.rootCheck (s : State) (e slot : Nat) : State :=
  match s.root e slot with
  | none => s
  | some r =>
    let d := descOf r.desc
    let ps := if d.planeHub then [s.plane] else d.planes
    if !ps.all (fun p => (kget r.notices p).isSome) || !s.acked e slot then s
    else
      let st := r.notices.foldl (fun a n => worst a n.2) r.ownStatus
      let x := s.ep e
      let s := s.setEp e { x with roots := x.roots.filter (·.slot != slot) }
      if e = 17 then s.emit (.complete r.observer r.tag st []) else s

def State.partCheck (s : State) (e slot : Nat) : State := (s.memberCheck e slot).rootCheck e slot

/-- Every participant of an instance is checked. -/
def State.partCheckAll (s : State) (e : Nat) : State :=
  let x := s.ep e
  s.forEach ((x.members.map (·.slot)) ++ x.roots.map (·.slot)) fun s n => s.partCheck e n

/-- An end notice from the sled of plane q reaches a participant, which answers it. -/
def State.noticeReceive (s : State) (e plane : Nat) (c : Cell) : State :=
  let p := lineBytes c.payload
  if c.typ ≠ T.STATUS ∨ field p 0 1 ≠ 0x20 then s
  else
    let st := field p 2 2
    let slot := field p 8 2 % 8192
    let q := planeOfId c.src
    let s := s.epSend e (if e = 17 then plane else s.plane) (ackOf c)
    let iseq := field p 4 4
    let s := match s.member e slot with
      | some m => if m.iseq = iseq then s.setMember e { m with notices := kset m.notices q st } else s
      | none => s
    let s := match s.root e slot with
      | some r => if r.iseq = iseq then s.setRoot e { r with notices := kset r.notices q st } else s
      | none => s
    s.partCheck e slot

/-- Meaning of END_NOTICE_RECEIVE. -/
def execEndNoticeReceive (ep plane : Nat) (cell : Cell) (s : State) : Res :=
  .next (if 18 ≤ ep then s else s.noticeReceive ep plane cell)

/-- Meaning of NOTICE_MISSING: at the end of frame D + 80 a missing notice counts as ST_LOST. -/
def execNoticeMissing (ep slot : Nat) (s : State) : Res :=
  let fillIn (ps : List Nat) (n : KV Nat) : KV Nat := ps.foldl (fun n p => if (kget n p).isSome then n else kset n p ST.LOST) n
  .next (if 18 ≤ ep then s
    else
      let s := match s.member ep slot with
        | some m =>
          if m.deadline + 80 < s.epNow ep then s.setMember ep { m with notices := fillIn (descOf m.desc).planes m.notices } else s
        | none => s
      let s := match s.root ep slot with
        | some r =>
          if r.deadline + 80 < s.epNow ep then
            let d := descOf r.desc
            s.setRoot ep { r with notices := fillIn (if d.planeHub then [s.plane] else d.planes) r.notices }
          else s
        | none => s
      s.partCheck ep slot)

/-! ## Results at the root (R255) -/

/-- The prefix written, as chunks are added beyond it. -/
def growPrefix (p : Nat) (w : List Nat) : Nat → Nat × List Nat
  | 0 => (p, w)
  | fuel + 1 => if w.contains p then growPrefix (p + 1) (w.filter (· != p)) fuel else (p, w)

/-- Answers a RESULT on the plane it came on. -/
def State.rootAnswer (s : State) (e : Nat) (c a : Cell) : State :=
  s.epSend e (planeOfId c.src) { a with src := s.epId e, dst := c.src }

/-- A RESULT reaches a root end-point. -/
def State.resultReceive (s : State) (e : Nat) (c : Cell) : State :=
  match (s.root e c.slot).filter (fun r => !(descOf r.desc).bcast) with
  | none => s.rootAnswer e c (nackOf c ST.NOT_ARMED false 0)
  | some r =>
    let d := descOf r.desc
    if (d.planeHub && c.chunk % 16 != s.plane) || d.n ≤ c.chunk then s.rootAnswer e c (nackOf c ST.NOT_ARMED false 0)
    else
      let i := d.index c.chunk
      let x := s.ep e
      let k := c.src * 16 + planeOfId c.src
      let w := kget x.wins k
      let ack (s : State) : State := s.rootAnswer e c (mapAck c.src 0 c.seq 1 c.ctx)
      if !winNew w c.seq then
        ack ((s.setEp e { x with wins := kset x.wins k (winTouch (w.getD {}) s.now) }).finc (R.EP_STATS.DUP e) 1)
      else if r.prefix_ + 262144 ≤ i then s
      else
        let s := s.setEp e { x with wins := kset x.wins k (winAccept w c.seq s.now) }
        let s := s.putBytes e (d.dataAt r.resultBase d.outT i) (bytesAt (lineBytes c.payload) 0 (d.bytes d.outT))
        let s := s.putBytes e (d.scaleAt r.resultBase d.outT (d.count s.plane) i) (leBytes c.scales (d.scaleBytes d.outT))
        let g := if r.prefix_ ≤ i then growPrefix r.prefix_ (addNew r.written i) (r.written.length + 1)
          else (r.prefix_, r.written)
        let s := s.setRoot e { r with prefix_ := g.1, written := g.2 }
        let s := s.fset (R.MS_COUNT.COUNT e r.rootMs) (s.fget (R.MS_COUNT.COUNT e r.rootMs) + (g.1 - r.prefix_))
        ack s

/-- Meaning of RESULT_RECEIVE. -/
def execResultReceive (ep : Nat) (cell : Cell) (s : State) : Res :=
  .next (if ep < 18 ∧ ep ≠ 16 ∧ cell.typ = T.RESULT then s.resultReceive ep cell else s)

/-! ## Broadcast (R258, R259) -/

/-- The gate has opened for chunk index j. -/
def State.gateOpen (s : State) (e : Nat) (r : RootArm) (j : Nat) : Bool :=
  r.gateChunks == 0 ||
    decide (j / r.gateChunks + 1 ≤ (s.fget (R.MS_COUNT.COUNT e r.gateMs) + 2 ^ 64 - r.gateBase) % 2 ^ 64)

/-- A broadcast root sends its next chunk, or goes on past one it cannot read or send. -/
def State.bcastSend (s : State) (e slot : Nat) : State :=
  match (s.root e slot).filter (fun r => (descOf r.desc).bcast) with
  | none => s
  | some r =>
    let d := descOf r.desc
    let n := d.count s.plane
    if n ≤ r.next || !s.gateOpen e r r.next then s
    else
      let c := if d.planeHub then 16 * r.next + s.plane else r.next
      let plane := if e = 17 then c % 16 else s.plane
      let on (st : Nat) (s : State) : State :=
        s.setRoot e { r with next := r.next + 1, ownStatus := worst r.ownStatus st }
      if !s.planeUsable e plane then on ST.LOST s
      else
        let cell : Cell := { typ := T.BCAST, src := s.epId e, ctx := r.ctx, slot := slot, chunk := c }
        match s.paceG e plane cell with
        | none => s
        | some i =>
          let v := s.readChunk e slot d r.resultBase d.inT n r.next
          match v.2 with
          | none => v.1
          | some none => on ST.POISON v.1
          | some (some w) =>
            let v' := clipChunk d d.inT c w
            ((on ST.OK v.1).useResv e i).epSend e plane
              { cell with cls := if i.isSome then clsG else clsBE, payload := v'.1, scales := v'.2 }

/-- Meaning of BCAST_SEND. -/
def execBcastSend (ep slot : Nat) (s : State) : Res := .next (if ep < 18 ∧ ep ≠ 16 then s.bcastSend ep slot else s)

/-- A broadcast member that holds every chunk sends DONE, once. -/
def State.doneCheck (s : State) (e slot : Nat) : State :=
  match s.member e slot with
  | none => s
  | some m =>
    let d := descOf m.desc
    if d.bcast && d.n ≤ m.have_.length && !m.doneSent && !m.aborted then
      (s.setMember e { m with doneSent := true }).sendJoins e m 1
    else s

/-- A BCAST reaches a member. -/
def State.bcastReceive (s : State) (e : Nat) (c : Cell) : State :=
  match (s.member e c.slot).filter (fun m => (descOf m.desc).bcast && m.ctx == c.ctx) with
  | none => s
  | some m =>
    let d := descOf m.desc
    if d.n ≤ c.chunk then s
    else
      let s := s.setMember e { m with lastBcast := s.now, have_ := addNew m.have_ c.chunk }
      let s := s.putBytes e (d.dataAt m.region d.inT c.chunk) (bytesAt (lineBytes c.payload) 0 (d.bytes d.inT))
      let s := s.putBytes e (d.scaleAt m.region d.inT d.n c.chunk) (leBytes c.scales (d.scaleBytes d.inT))
      s.doneCheck e c.slot

/-- Meaning of BCAST_RECEIVE. -/
def execBcastReceive (ep : Nat) (cell : Cell) (s : State) : Res :=
  .next (if ep < 18 ∧ ep ≠ 16 ∧ cell.typ = T.BCAST then s.bcastReceive ep cell else s)

/-- A translation entry of the context allows READ of a global range (R259). -/
def State.mayRead (s : State) (e ctx ga n : Nat) : Bool :=
  (s.transEntries e).any fun w =>
    let z := bitsOf w.1 12 7
    let b := w.2.2 / 4096 * 4096
    !s.badEntry e w && bitsOf w.1 6 1 == ctx && bitAt w.1 13 && b ≤ ga && ga + n ≤ b + 2 ^ z

/-- One piece of a missing chunk is read from the root's memory. -/
def State.recoverPiece (s : State) (e : Nat) (m : Member) (chunk root src dst n : Nat) : State :=
  let x := s.ep e
  let r : MemReq := { observer := m.observer, ctx := m.ctx, op := 1, len := n }
  let q : Request := { id := x.nextKey, r := r, ga := s.epRack e * 2 ^ 56 + root * 2 ^ 44 + src, base := src
                       dest := .bcast m.slot chunk dst, core := m.core, at_ := s.now }
  (s.setEp e { x with nextKey := x.nextKey + 1 }).enterCells e q (cellsOf r (s.epId e) root src 0 1 true) false root

/-- Reads a missing chunk, each of its lines that a translation entry lets the member read; a line that none does is not
read, and the member records ST_DENIED. -/
def State.recoverChunk (s : State) (e slot chunk : Nat) : State :=
  match s.member e slot with
  | none => s
  | some m =>
    let d := descOf m.desc
    let p := chunk % 16
    let root := d.rootOn p
    let i := d.index chunk
    let n := d.count p
    let sd := d.dataAt m.sourceBase d.inT i
    let ss := d.scaleAt m.sourceBase d.inT n i
    let dd := d.dataAt m.region d.inT chunk
    let ds := d.scaleAt m.region d.inT d.n chunk
    let g := s.epRack e * 2 ^ 56 + root * 2 ^ 44
    if (s.choosePlane e root sd).isNone then
      s.setMember e { m with ownStatus := worst m.ownStatus ST.LOST, recovering := kset m.recovering chunk 1000 }
    else
      let ps := (linePieces sd (d.bytes d.inT)).map (fun a => (a.1, dd + a.2.1, a.2.2))
        ++ (linePieces ss (d.scaleBytes d.inT)).map (fun a => (a.1, ds + a.2.1, a.2.2))
      let go := ps.filter fun a => s.mayRead e m.ctx (g + a.1) a.2.2
      let denied := decide (go.length < ps.length)
      let m := { m with recovering := kset m.recovering chunk (if denied then 1000 else ps.length)
                        ownStatus := if denied then worst m.ownStatus ST.DENIED else m.ownStatus }
      (s.setMember e m).forEach go fun s a => s.recoverPiece e m chunk root a.1 a.2.1 a.2.2

/-- Missing chunks that are not in recovery, at most n. -/
def missing (have_ : List Nat) (rec : KV Nat) (c n : Nat) : Nat → List Nat
  | 0 => []
  | fuel + 1 =>
    if n ≤ c then []
    else if have_.contains c || (kget rec c).isSome then missing have_ rec (c + 1) n fuel
    else c :: missing have_ rec (c + 1) n fuel

/-- The end of a frame D has passed: a broadcast member whose deadline it was and that still lacks chunks records ST_LOST
(R263). -/
def State.lackTick (s : State) (e : Nat) : State :=
  let f (m : Member) : Member :=
    let d := descOf m.desc
    if d.bcast && m.have_.length < d.n && m.deadline < s.epNow e then { m with ownStatus := worst m.ownStatus ST.LOST } else m
  s.setEp e { s.ep e with members := (s.ep e).members.map f }

/-- Meaning of BCAST_RECOVERY: a member with missing chunks and no BCAST for 4 frames reads each from the root. -/
def execBcastRecovery (ep slot : Nat) (s : State) : Res :=
  .next (if 18 ≤ ep ∨ ep = 16 then s
    else match (s.member ep slot).filter (fun m => (descOf m.desc).bcast && !m.aborted) with
    | none => s
    | some m =>
      let s := s.doneCheck ep slot
      if s.now < m.lastBcast + 4 then s
      else
        let d := descOf m.desc
        s.forEach (missing m.have_ m.recovering 0 d.n d.n) fun s c => s.recoverChunk ep slot c)

/-! ## Member requests (R364, R365, R542) -/

/-- A member request as COLL or a COLL message presents it: its 64-byte block. -/
structure CollReq where
  observer : Nat := 0
  core : Nat := 0
  tag : Nat := 0
  ctx : Nat := 0
  g : Bool := false
  ms : Option Nat := none
  block : List Byte := []
  deriving DecidableEq, Repr

/-- The block's fields that must be zero are zero. -/
def blockZero (b : List Byte) : Bool :=
  field b 22 2 == 0 && field b 46 18 == 0 && field b 0 2 < 8192 && field b 2 2 < 4096 && field b 40 6 < 2 ^ 44

/-- A request that completes at once: status, milestone, LAST_STATUS or COMPLETE. -/
def State.collRefuse (s : State) (e : Nat) (q : CollReq) (st : Nat) : State :=
  let s := match q.ms.filter (fun k => s.fget (R.MS_INFO.OWNER e k) == q.ctx) with
    | some k => s.msAdvance e k 1 st
    | none => s
  if e < 16 then s.withSet q.core q.ctx (onEngine 2 (noteStatus st))
  else if e = 17 then s.emit (.complete q.observer q.tag st []) else s

/-- Capacity for member requests. -/
def memberCap (e : Nat) : Nat := if e < 16 then 64 else 256

/-- Presents a member request; the caller has checked that one more can be held. -/
def State.collMember (s : State) (e : Nat) (q : CollReq) : State :=
  let b := q.block
  let desc := bytesAt b 8 14
  let d := descOf desc
  let bad := !blockZero b || !d.ok || (!d.bcast && field b 40 6 != 0)
  if bad then s.collRefuse e q ST.BAD_PARAM
  else
    let s := s.markBad e
    let size := d.regionSize d.inT d.n
    let va := field b 24 8
    match s.lookup e q.ctx va with
    | none => s.collRefuse e q ST.DENIED
    | some x =>
      if x.limit < va + size || !(if d.bcast then x.write else x.read) then s.collRefuse e q ST.DENIED
      else if x.ga / 2 ^ 44 ≠ s.epRack e * 4096 + s.epId e then s.collRefuse e q ST.BAD_PARAM
      else if q.ms.any fun k => s.fget (R.MS_INFO.OWNER e k) != q.ctx then s.collRefuse e q ST.DENIED
      else
        let m : Member := { slot := field b 0 2, group := field b 2 2, iseq := field b 4 4, desc := desc
                            region := x.ga % 2 ^ 44, sourceBase := field b 40 6, deadline := field b 32 8, ctx := q.ctx
                            g := q.g, ms := q.ms, observer := q.observer, core := q.core, tag := q.tag
                            lastBcast := s.now, at_ := s.now }
        let y := s.ep e
        let s := s.setEp e { y with members := y.members ++ [m] }
        ((s.sendJoins e m 0).doneCheck e m.slot).collPump e

/-- COLLX and COLL ABORT: the held request whose SLOT, GROUP and ISEQ match sends the ABORT. -/
def State.collAbort (s : State) (e : Nat) (b : List Byte) : State :=
  match (s.ep e).members.find? fun m =>
    m.slot == field b 0 2 % 8192 && m.group == field b 2 2 % 4096 && m.iseq == field b 4 4 with
  | some m => s.memberAbort e m
  | none => s

/-! ## Arming (R236, R237, R239) -/

/-- The descriptor's own fields lie in range; a broadcast's spill and residual fields are not checked, and its reserved
bytes are ignored (R9). -/
def armZero (p : List Byte) : Bool :=
  field p 0 2 < 8192 && field p 2 1 ≤ 1 && field p 8 2 < 4096 && field p 24 6 < 2 ^ 44
    && (field p 10 1 == 3 || (field p 30 6 < 2 ^ 44 && field p 36 1 < 16 && field p 38 6 < 2 ^ 44))
    && field p 44 2 < 4096 && field p 46 2 < 4096

/-- The size a hub's regions are checked against (R308). -/
def State.armSize (s : State) (h : Nat) : Nat :=
  if s.fget (R.HB_STATUS.RETIRE_STATE h) = 0 then s.populated h else min (s.populated h) (s.hub h).newSize

/-- The regions that the instance uses on this sled lie below the size of their hubs. -/
def State.regionsOk (s : State) (p : List Byte) (d : Desc) : Bool :=
  let root := d.rootOn s.plane
  let here := 128 + 16 * s.plane ≤ root && root < 144 + 16 * s.plane
  let size := s.armSize (root % 16)
  (!here || field p 24 6 + d.regionSize d.outT (d.count s.plane) ≤ size)
    && (d.bcast || field p 30 6 + d.nOf s.plane * d.unit ≤ s.armSize (field p 36 1))
    && (!d.feedback || d.bcast || !here || field p 38 6 + d.resSlots s.plane * 2 * d.k ≤ size)

/-- Every root's partition is the group's or every partition. -/
def State.rootsOk (s : State) (g : Nat) (d : Desc) : Bool :=
  d.roots.all fun id => s.allPart id || s.partOf id == s.groupPart g

/-- A root arm of a descriptor. -/
def rootArmOf (p : List Byte) (ctx : Nat) : RootArm :=
  let desc := bytesAt p 10 14
  let d := descOf desc
  { slot := field p 0 2 % 8192, desc := desc, iseq := field p 4 4, group := field p 8 2 % 4096, ctx := ctx, op := d.op
    inType := d.inT, outType := d.outT, round := d.round, root := d.root, planeHub := d.planeHub, elements := d.elements
    resultBase := field p 24 6 % 2 ^ 44, resBase := field p 38 6 % 2 ^ 44, rootMs := field p 44 2 % 4096
    gateMs := field p 46 2 % 4096, deadline := field p 48 8, gateBase := field p 56 8, gateChunks := field p 64 4 }

/-- ST_BAD_PARAM of R239 without what only a sled checks. -/
def descRefused (p : List Byte) (d : Desc) : Bool :=
  p.length != 80 || !armZero p || !d.ok || (!d.feedback && !d.bcast && field p 38 6 != 0)

/-- The status R239 gives an INSTANCE_ARM. -/
def State.armStatus (s : State) (p : List Byte) : Nat :=
  let d := descOf (bytesAt p 10 14)
  let g := field p 8 2
  let slot := field p 0 2
  let dl := field p 48 8
  let ctx := s.groupCtx g
  if descRefused p d then ST.BAD_PARAM
  else if !s.groupValid (s.activeBank 2) g || !s.rootsOk g d || dl < s.now + 64 || s.now + 2 ^ 24 < dl
      || !s.regionsOk p d || (d.feedback && d.roots.any (s.members g).contains) then ST.BAD_PARAM
  else
    let root := d.rootOn s.plane
    let here := 128 + 16 * s.plane ≤ root && root < 144 + 16 * s.plane
    if s.slotState slot ≠ 0 || (here && (s.root (root % 16) slot).isSome)
        || (s.bankState 2 == 1 && s.groupDiffers g) then ST.BUSY
    else if s.fbit (R.RD_INST0.EARLY_DROP slot) && !bitAt (field p 2 1) 0 then ST.EARLY_DROPPED
    else if s.fget (R.CP_CTX.INST_QUOTA ctx) ≤ s.fget (R.CP_CTX.INST_ARMED ctx) then ST.REFUSED_FIT
    else ST.OK

/-- Arms the slot and the root this sled holds. -/
def State.arm (s : State) (p : List Byte) : State :=
  let desc := bytesAt p 10 14
  let d := descOf desc
  let slot := field p 0 2
  let g := field p 8 2
  let ctx := s.groupCtx g
  let i : Inst := { slot := slot, ctx := ctx, group := g, iseq := field p 4 4, desc := desc, hash := descHash desc
                    op := d.op, inType := d.inT, outType := d.outT, round := d.round, root := d.root
                    planeHub := d.planeHub, elements := d.elements, spillBase := field p 30 6, spillHub := field p 36 1
                    resultBase := field p 24 6, resBase := field p 38 6, deadline := field p 48 8 }
  let w : Nat := 1 + g * 16 + field p 4 4 * 2 ^ 32
  let s := (s.setReg (R.RD_INST0.addr slot) (BitVec.ofNat 64 w)).setReg (R.RD_INST1.addr slot) 0
  let s := (s.setInst slot i).countSlots ctx
  let root := d.rootOn s.plane
  let here := 128 + 16 * s.plane ≤ root && root < 144 + 16 * s.plane
  let s := if here then
      let x := s.ep (root % 16)
      (s.setEp (root % 16) { x with roots := x.roots ++ [rootArmOf p ctx] }).collPump (root % 16)
    else s
  s.releaseSlot slot

/-- Refusal with ST_EARLY_DROPPED: the held cells go, and every member and the named root hear of it (R250). -/
def State.armDropped (s : State) (p : List Byte) : State :=
  let slot := field p 0 2
  let g := field p 8 2
  let d := descOf (bytesAt p 10 14)
  let s := (s.setRd { s.rd with early := s.rd.early.filter (·.cell.slot != slot) }).fixEarly
  let dsts := addNew (s.members g) (d.rootOn s.plane)
  (s.sendNotices slot (s.groupCtx g) dsts (noticePayload ST.EARLY_DROPPED (field p 4 4) slot g 0 0)).almAdd 2 0 100 1

/-- Meaning of INSTANCE_ARM. -/
def execInstanceArm (r : CmdReq) (s : State) : Res :=
  let s := s.begin r
  let st := ((s.drainRefusal true).orElse fun _ => s.ctxRefusal r.ctx).getD (s.armStatus r.payload)
  .next ((if st = ST.OK then s.arm r.payload else if st = ST.EARLY_DROPPED then s.armDropped r.payload else s).answerSt r st)

/-! ## Answers and marks of every sender (R182 to R185, R248, R249) -/

/-- Map ACK for a participant's JOIN and CONTRIB cells. -/
def State.mapAcked (s : State) (e plane : Nat) (c : Cell) : State :=
  let q := planeOfId c.src
  let hit := (s.ep e).ort.filter fun o =>
    o.sent.isSome && o.cell.collective && o.cell.dst == c.src && o.seqPlane == q
      && (o.cell.seq + 65536 - c.seq) % 65536 < 512 && bitAt c.payload.toNat ((o.cell.seq + 65536 - c.seq) % 65536)
  if hit.isEmpty then s.finc (R.EP_STATS.DUP e) 1
  else
    let _ := plane
    s.forEach hit fun s o => s.cellDone e o.key o.req ST.OK false none

/-- An answer reaches an instance; the control processor's also serve the reduction complex. -/
def State.answerAt (s : State) (e plane : Nat) (c : Cell) : State :=
  let direct (s : State) : State :=
    if c.typ = T.ACK ∧ c.opmod = 1 then s.mapAcked e plane c else s.memAnswer e plane c
  let s := if e = 16 then (s.rdAnswer c).getD (direct s) else direct s
  (s.collPump e).partCheckAll e

/-- Meaning of ANSWER_RECEIVE. -/
def execAnswerReceive (ep plane : Nat) (cell : Cell) (s : State) : Res :=
  .next (if 18 ≤ ep then s else s.answerAt ep plane cell)

/-- Meaning of RETRANSMIT: a mark of an end-point's cell, or, with ep 18, of the reduction complex's. -/
def execRetransmit (ep key : Nat) (s : State) : Res :=
  .next (if ep < 18 then s.retransmit ep key else if ep = 18 then s.rdRetransmit key else s)

/-- Meaning of REQUEST_LOST: the final mark of an end-point's cell, or, with ep 18, of the reduction complex's. -/
def execRequestLost (ep key : Nat) (s : State) : Res :=
  .next (if ep < 18 then (s.lose ep key).partCheckAll ep else if ep = 18 then s.rdLose key else s)

end Sys2Proof.Machine
end

