-- ==== Sys2Proof/Machine/Flags.lean ====
section
/-! DEFINITION. What a core records beside its results: faults in CO_FAULT, the ways a kernel ends, LAST_STATUS
(R345, R366, R367, R384). The block has no arithmetic flags. -/

namespace Sys2Proof.Machine

/-! Fault causes (R366). -/
namespace FC
def ILLEGAL : Nat := 1
def WRONG_ENGINE : Nat := 2
def FETCH_RANGE : Nat := 3
def SCRATCH_RANGE : Nat := 4
def SCRATCH_ALIGN : Nat := 5
def BAD_FORMAT : Nat := 6
end FC

/-! States of a kernel (*CO_KSTATE*). -/
namespace KS
def LOADED : Nat := 1
def STARTED : Nat := 2
def STOPPED : Nat := 3
def ENDED : Nat := 4
def FAULTED : Nat := 5
end KS

/-- Engine e of the running set. -/
def State.eng (s : State) (c e : Nat) : Engine := ((s.core c).run.engines[e]?).getD {}

/-- Changes engine e of the running set. -/
def State.setEng (s : State) (c e : Nat) (f : Engine → Engine) : State :=
  let k := s.core c
  s.setCore c { k with run := onEngine e f k.run }

/-- The kernel of a context has ended on a core: 0 END, 1 FAULT, 2 STOPPED, 3 SCRUBBED (R384). -/
def State.kernelEnded (s : State) (c ctx how : Nat) : State :=
  let st := if how = 0 then KS.ENDED else if how = 1 then KS.FAULTED else KS.STOPPED
  let k := s.core c
  let s := s.setCore c { k with stops := k.stops.filter (·.1 != ctx), fresh := kdel k.fresh ctx }
  let s := s.fset (R.CO_KSTATE.STATE c ctx) st
  let f (x : Start) : Start :=
    if x.ctx = ctx ∧ x.cores.contains c ∧ (kget x.ended c).isNone then { x with ended := kset x.ended c how } else x
  { s with kern := { s.kern with starts := s.kern.starts.map f } }

/-- The unissued pieces of a context's transfers are abandoned: they complete with ST_LOST, whatever their other pieces
bring (R367). -/
def abandon (ctx : Nat) (x : Xfer) : Xfer :=
  if x.ctx = ctx ∧ x.issued < x.len then { x with len := x.issued, cut := true }
  else x

/-- An engine faults: all four engines of the context stop, the fault is recorded unless one stands (R366, R367). -/
def State.takeFault (s : State) (c e cause : Nat) : State :=
  let k := s.core c
  let ctx := k.run.ctx
  let pc := (s.eng c e).pc
  let run := { k.run with engines := k.run.engines.map fun g => { g with stopped := true } }
  let s := s.setCore c { k with run := run, xfers := k.xfers.map (abandon ctx) }
  let word := (s.fget (R.CO_PART.CODE_BASE c ctx) + pc) % 2 ^ 15
  let s :=
    if s.fbit (R.CO_FAULT.VALID c) then s
    else s.setReg (R.CO_FAULT.addr c) (BitVec.ofNat 64 (cause + ctx * 2 ^ 8 + e * 2 ^ 14 + 2 ^ 16 + word * 2 ^ 32))
  let f (x : Start) : Start :=
    if x.ctx = ctx ∧ x.cores.contains c ∧ (kget x.ended c).isNone ∧ x.fault.isNone then
      { x with fault := some (c, cause, e, pc) }
    else x
  let s := { s with kern := { s.kern with starts := s.kern.starts.map f } }
  s.kernelEnded c ctx 1

/-- The running scalar engine runs ahead of a pending acquire (R227). -/
def State.ahead (s : State) (c e : Nat) : Bool :=
  e == 2 && ((s.eng c e).wait == 1 || (s.eng c e).wait == 2 || (s.eng c e).wait == 4)

/-- An instruction of engine e faults; run-ahead stops before it instead (R368). -/
def State.faultAt (s : State) (c e cause : Nat) : State := if s.ahead c e then s else s.takeFault c e cause

end Sys2Proof.Machine
end

