-- ==== Sys2Proof/Machine/Operands.lean ====
section
/-! DEFINITION. Instruction words and their operands: the formats S, Q, V, M, D, X and Y, the fetch, what may issue, and
how an engine goes on (R315, R323, R325, R327, R336 to R344, R366 to R368). -/

namespace Sys2Proof.Machine

/-! ## Word formats -/

/-- Bits [hi:lo] of a word. -/
def wf (w : W64) (hi lo : Nat) : Nat := bitsOf w.toNat hi lo

/-- A signed field as 64 bits. -/
def wfs (w : W64) (hi lo : Nat) : W64 := BitVec.ofInt 64 (signed (wf w hi lo) (hi + 1 - lo))

def opOf (w : W64) : Nat := wf w 7 0

/-- Format S. -/
structure FS where
  d : Nat
  a : Nat
  b : Nat
  i : Nat
  sz : Nat
  scope : Nat
  imm : W64
  deriving DecidableEq, Repr

def fmtS (w : W64) : FS :=
  { d := wf w 12 8, a := wf w 17 13, b := wf w 22 18, i := wf w 23 23, sz := wf w 25 24, scope := wf w 28 26, imm := wfs w 63 29 }

/-- Format Q. -/
structure FQ where
  d : Nat
  a : Nat
  b : Nat
  c : Nat
  scope : Nat
  keep : Nat
  g : Nat
  msv : Nat
  ms : Nat
  sz : Nat
  aop : Nat
  sub : Nat
  f : Nat
  rsv : Nat
  imm : W64
  deriving DecidableEq, Repr

def fmtQ (w : W64) : FQ :=
  { d := wf w 12 8, a := wf w 17 13, b := wf w 22 18, c := wf w 27 23, scope := wf w 30 28, keep := wf w 31 31
    g := wf w 32 32, msv := wf w 33 33, ms := wf w 45 34, sz := wf w 47 46, aop := wf w 49 48, sub := wf w 53 50
    f := wf w 54 54, rsv := wf w 55 55, imm := wfs w 63 56 }

/-- Format V. -/
structure FVec where
  vd : Nat
  va : Nat
  vb : Nat
  vc : Nat
  fmt : Nat
  sr : Nat
  half : Nat
  x : Nat
  imm : Nat
  rsv : Nat
  deriving DecidableEq, Repr

def fmtV (w : W64) : FVec :=
  { vd := wf w 12 8, va := wf w 17 13, vb := wf w 22 18, vc := wf w 27 23, fmt := wf w 29 28, sr := wf w 30 30
    half := wf w 31 31, x := wf w 33 32, imm := wf w 57 34, rsv := wf w 63 58 }

/-- Format M. -/
structure FM where
  td : Nat
  xa : Nat
  xb : Nat
  kg : Nat
  fa : Nat
  fb : Nat
  nsa : Nat
  nsb : Nat
  sr : Nat
  clr : Nat
  rsv : Nat
  deriving DecidableEq, Repr

def fmtM (w : W64) : FM :=
  { td := wf w 9 8, xa := wf w 11 10, xb := wf w 13 12, kg := wf w 23 14, fa := wf w 27 24, fb := wf w 31 28
    nsa := wf w 32 32, nsb := wf w 33 33, sr := wf w 34 34, clr := wf w 35 35, rsv := wf w 63 36 }

/-- Format D. -/
structure FD where
  xm : Nat
  xs : Nat
  len : Nat
  g : Nat
  msv : Nat
  ms : Nat
  sub : Nat
  rsv : Nat
  deriving DecidableEq, Repr

def fmtD (w : W64) : FD :=
  { xm := wf w 9 8, xs := wf w 11 10, len := wf w 33 12, g := wf w 34 34, msv := wf w 35 35, ms := wf w 47 36
    sub := wf w 51 48, rsv := wf w 63 52 }

/-- Format X. -/
structure FX where
  d : Nat
  a : Nat
  imm : W64
  deriving DecidableEq, Repr

def fmtX (w : W64) : FX := { d := wf w 9 8, a := wf w 11 10, imm := wfs w 63 12 }

/-- Format Y. -/
structure FY where
  scope : Nat
  keep : Nat
  token : Nat
  count : Nat
  ms : Nat
  reg : Nat
  imm16 : Nat
  rsv : Nat
  deriving DecidableEq, Repr

def fmtY (w : W64) : FY :=
  { scope := wf w 10 8, keep := wf w 11 11, token := wf w 15 12, count := wf w 23 16, ms := wf w 35 24, reg := wf w 40 36
    imm16 := wf w 56 41, rsv := wf w 63 57 }

/-! ## Opcodes (R340, R341) -/

/-- The engine executes the class of an opcode. -/
def classOk (e op : Nat) : Bool :=
  if op < 0x40 then e == 2
  else if op < 0x80 then e == 1
  else if op < 0xA0 then e == 0
  else if op < 0xC0 then e == 3
  else if op < 0xE0 then e < 4
  else if op < 0xF0 then e == 0 || e == 1 || e == 3
  else false

/-- A table of the chapter lists the opcode. -/
def listed (op : Nat) : Bool :=
  op ≤ 0x14 || (0x18 ≤ op && op ≤ 0x1F) || (0x20 ≤ op && op ≤ 0x25) ||
  [0x28, 0x29, 0x2A, 0x2C, 0x2D, 0x30, 0x31, 0x32, 0x34, 0x36, 0x37].contains op ||
  [0x40, 0x41, 0x42, 0x48, 0x49, 0x4A, 0x4B, 0x4C, 0x4D, 0x4E, 0x50, 0x51, 0x52, 0x54, 0x55, 0x58, 0x59].contains op ||
  (0x80 ≤ op && op ≤ 0x83) || (0xA0 ≤ op && op ≤ 0xA4) || (0xC0 ≤ op && op ≤ 0xC7) || (0xE0 ≤ op && op ≤ 0xE6)

/-- Opcodes that run ahead (R346). -/
def runsAhead (op : Nat) : Bool := op < 0x20 || op == 0x20 || op == 0x28

/-! ## Legal words (R341, R347, R355 to R357, R359 to R361) -/

/-- Format S: the fields an opcode does not use are zero. -/
def okS (op : Nat) (w : W64) : Bool :=
  let x := fmtS w
  let noB := x.b == 0 && x.i == 0
  let noSz := x.sz == 0 && x.scope == 0
  if op < 0x13 then noSz
  else if op = 0x13 ∨ op = 0x1E then x.a == 0 && noB && noSz
  else if op = 0x14 then noB && noSz
  else if op < 0x1E then x.d == 0 && x.i == 0 && noSz
  else if op = 0x1F then x.d == 0 && noB && noSz && x.imm == 0
  else if op = 0x20 ∨ op = 0x22 then noB && (op == 0x22 || x.scope == 0)
  else if op = 0x21 ∨ op = 0x23 then x.d == 0 && x.i == 0 && (op == 0x23 || x.scope == 0)
  else if op = 0x24 then x.a == 0 && noB && noSz && x.imm.toNat < 7
  else x.a == 0 && noB && noSz && x.imm == 0

/-- Request op of an instruction of format Q (0 to 6 as `MemReq`; 7 COLL, 8 COLLX) and HINT of an atomic. -/
def qKind (op : Nat) : Nat × Nat :=
  match op with
  | 0x28 => (0, 0)
  | 0x29 => (1, 0)
  | 0x2A => (2, 0)
  | 0x2C => (3, 0)
  | 0x2D => (4, 0)
  | 0x30 => (5, 0)
  | 0x31 => (5, 1)
  | 0x32 => (5, 2)
  | 0x34 => (6, 0)
  | 0x36 => (7, 0)
  | _ => (8, 0)

/-- Format Q. -/
def okQ (op : Nat) (w : W64) : Bool :=
  let x := fmtQ w
  let k := (qKind op).1
  let hint := (qKind op).2
  let ordered := k == 2 || k == 4 || hint != 0
  let acq := k == 2 || hint == 1
  let coll := k == 7 || k == 8
  x.rsv == 0 && (ordered || x.scope == 0) && (acq || x.keep == 0)
    && (k == 5 || (x.c == 0 && x.f == 0)) && (k == 5 || k == 6 || (x.aop == 0 && x.sub == 0))
    && (k ≤ 2 || k == 5 || x.d == 0) && ((3 ≤ k && k ≤ 6) || x.b == 0) && (k < 5 || x.sz == 0)
    && (k != 6 || (x.aop ≤ 2 && x.sub ≤ 8)) && (!coll || x.imm == 0)
    && (k != 8 || (x.g == 0 && x.msv == 0 && x.ms == 0))

/-- Format V. -/
def okV (op : Nat) (w : W64) : Bool :=
  let x := fmtV w
  let noReg := x.va == 0 && x.vb == 0 && x.vc == 0
  let noOff := x.x == 0 && x.imm == 0
  x.rsv == 0 && x.fmt < 3 &&
  (if op = 0x40 ∨ op = 0x42 then noReg && x.fmt == 0 && x.sr == 0
  else if op = 0x41 then noReg && x.sr == 0 && x.half == 0
  else if op = 0x59 then noReg && x.sr == 0 && x.half == 0 && x.x == 0
  else if op = 0x58 then
    x.vb == 0 && noOff && x.vc < 3 && x.fmt != x.vc && (x.sr == 0 || x.fmt == 0)
  else
    let vb := 0x48 ≤ op && op ≤ 0x4E
    let vc := op == 0x4B || op == 0x4E
    let sr := op ≤ 0x4B && x.fmt != 0
    x.half == 0 && noOff && (vb || x.vb == 0) && (vc || x.vc == 0) && (sr || x.sr == 0)
      && (x.fmt == 0 || !(0x50 ≤ op && op ≤ 0x52)))

/-- Format M. -/
def okM (op : Nat) (w : W64) : Bool :=
  let x := fmtM w
  if op = 0x80 then x.rsv == 0 && x.sr == 0 && x.clr == 0 && x.kg != 0 && x.fa < 8 && x.fb < 8
  else if op = 0x81 then w.toNat / 2 ^ 10 == 0
  else if op = 0x82 then
    x.rsv == 0 && x.xb == 0 && x.kg == 0 && x.fb == 0 && x.nsa == 0 && x.nsb == 0 && x.fa < 8 && (x.sr == 0 || x.fa != 0)
  else w.toNat / 2 ^ 12 == 0

/-- The pairing of formats of an MMA (R318, R357); what it refuses is BAD_FORMAT. -/
def pairOk (x : FM) : Bool :=
  let mx (f : Nat) : Bool := 3 ≤ f && f ≤ 7
  ((x.fa == 1 && x.fb == 1) || (x.fa == 2 && x.fb == 2) || (mx x.fa && mx x.fb))
    && (x.nsa == 0 || x.fa == 3 || x.fa == 4) && (x.nsb == 0 || x.fb == 3 || x.fb == 4)

/-- Format D. -/
def okD (op : Nat) (w : W64) : Bool :=
  let x := fmtD w
  x.rsv == 0 && x.len != 0 &&
  (if op = 0xA3 then x.sub ≤ 6 && x.len % subWidth x.sub == 0
  else if op = 0xA4 then x.g == 0 && x.msv == 0 && x.ms == 0 && x.sub == 0
  else x.sub == 0)

/-- Format X. -/
def okX (op : Nat) (w : W64) : Bool :=
  let x := fmtX w
  match op with
  | 0xE0 => x.a == 0
  | 0xE2 => x.d == 0
  | 0xE3 => x.d == 0
  | 0xE4 => x.d == 0 && x.a == 0
  | 0xE5 => x.a == 0 && x.imm == 0
  | _ => true

/-- Format Y; REG is in range for the engine. -/
def okY (e op : Nat) (w : W64) : Bool :=
  let y := fmtY w
  let reg := e == 2 || y.reg < 4
  let noWait := y.reg == 0 && y.imm16 == 0
  y.rsv == 0 &&
  (match op with
  | 0xC0 => y.token == 0 && y.count == 0 && y.ms == 0 && noWait
  | 0xC1 => y.scope == 0 && y.keep == 0 && y.count != 0 && y.ms == 0 && noWait
  | 0xC2 => y.scope == 0 && y.keep == 0 && y.count == 0 && y.ms == 0 && reg
  | 0xC3 => y.token == 0 && y.count == 0 && reg
  | 0xC4 => y.keep == 0 && y.token == 0 && y.count != 0 && noWait
  | _ => w.toNat / 256 == 0)

/-- A listed word whose fields are legal on engine e. -/
def wordOk (e : Nat) (w : W64) : Bool :=
  let op := opOf w
  listed op &&
  (if op < 0x28 then okS op w
  else if op < 0x40 then okQ op w
  else if op < 0x80 then okV op w
  else if op < 0xA0 then okM op w
  else if op < 0xC0 then okD op w
  else if op < 0xE0 then okY e op w
  else okX op w)

/-! ## Issue -/

/-- The word an engine of the running context fetches (R315, R325). -/
def State.fetched (s : State) (c e : Nat) : W64 :=
  kgetD (s.core c).code (s.fget (R.CO_PART.CODE_BASE c (s.core c).run.ctx) + (s.eng c e).pc) 0

/-- Observer number of an engine within its hub. -/
def obsOf (c e : Nat) : Nat := 4 * (c % 16) + e

/-- The engine is stalled under R176. -/
def State.stalled (s : State) (c e : Nat) : Bool :=
  let x := s.ep (c / 16)
  x.ort.any fun o => o.stall && x.reqs.any fun q =>
    q.id == o.req && q.r.observer == obsOf c e && q.r.ctx == (s.core c).run.ctx

/-- An instruction that an engine would issue: its engine, opcode and word, whether it is an access (which a pending
release holds, R209), and the scalar registers it reads and writes. -/
structure Iss where
  c : Nat
  e : Nat
  op : Nat
  w : W64
  access : Bool := false
  regs : List Nat := []

/-- The instruction issues memory requests. -/
def asksMemory (op : Nat) : Bool := (0x28 ≤ op && op ≤ 0x36) || (0xA0 ≤ op && op < 0xA4)

/-- The engine may issue: its context runs a started kernel in this frame, it has neither stopped nor ended its step, and
no wait, stall or interlock holds it (R227, R337, R338, R343, R362, R383); a SCRUBBING context sends no request (R387). -/
def State.mayIssue (s : State) (i : Iss) : Bool :=
  let k := s.core i.c
  let ctx := k.run.ctx
  let g := s.eng i.c i.e
  let kind := s.fget (R.CO_STATUS.KIND i.c)
  i.c < 256 && i.e < 4 && kind != 0 && !s.unitInReset 1 i.c && s.fget (R.CO_KSTATE.STATE i.c ctx) == KS.STARTED
    && (kget k.fresh ctx).isNone && !(s.fget (R.CP_CTX.STATE ctx) == 2 && asksMemory i.op) && !g.stopped && !(kind == 1 && g.stepEnd) && !s.stalled i.c i.e
    && i.regs.all (fun r => r == 0 || !k.run.pendingRegs.contains r)
    && (if s.ahead i.c i.e then runsAhead i.op && k.run.ra.all fun a =>
            a.len < 64 && !a.squash && !a.cutOff && a.sectors.length < 64 && a.lines.length < 16
        else g.wait == 0 || (g.wait == 5 && !i.access))

/-- Issues an instruction: a fetch outside the code range, an opcode of another class, a reserved one and an illegal field
fault; a word that is not the one the engine fetches, or another instruction's, is not this instruction. -/
def State.go (s : State) (i : Iss) (f : State → State) : State :=
  if !s.mayIssue i then s
  else if s.fget (R.CO_PART.CODE_LEN i.c (s.core i.c).run.ctx) ≤ (s.eng i.c i.e).pc then s.faultAt i.c i.e FC.FETCH_RANGE
  else if s.fetched i.c i.e ≠ i.w then s
  else if !classOk i.e (opOf i.w) then s.faultAt i.c i.e FC.WRONG_ENGINE
  else if !wordOk i.e i.w then s.faultAt i.c i.e FC.ILLEGAL
  else if opOf i.w ≠ i.op then s
  else f s

/-! ## Going on -/

/-- The engine's next instruction is the one at `pc`; run-ahead counts the instruction and keeps what a squash returns
to (R227, R229). -/
def State.nextPc (s : State) (c e pc : Nat) : State :=
  let s :=
    if s.ahead c e then
      let k := s.core c
      let a := k.run.ra.getD { s := k.run.s, pc := (s.eng c e).pc }
      s.setCore c { k with run := { k.run with ra := some { a with len := a.len + 1 } } }
    else s
  s.setEng c e fun g => { g with pc := pc }

/-- Goes on with the next word. -/
def State.pass (s : State) (c e : Nat) : State := s.nextPc c e ((s.eng c e).pc + 1)

/-- A taken branch by a signed distance: a target outside the code range faults (R325, R366). -/
def State.branch (s : State) (c e : Nat) (by_ : W64) (f : State → State) : State :=
  let t : Int := ((s.eng c e).pc : Int) + by_.toInt
  if t < 0 ∨ (s.fget (R.CO_PART.CODE_LEN c (s.core c).run.ctx) : Int) ≤ t then s.faultAt c e FC.FETCH_RANGE
  else f (s.nextPc c e t.toNat)

/-! ## Registers -/

/-- s[i]; s0 reads as zero (R342). -/
def State.sv (s : State) (c i : Nat) : W64 := if i = 0 then 0 else ((s.core c).run.s[i]?).getD 0

/-- Writes s[d]. -/
def State.setSv (s : State) (c d : Nat) (v : W64) : State :=
  let k := s.core c
  s.setCore c { k with run := k.run.setS d v }

/-- x[i] of an engine. -/
def State.xv (s : State) (c e i : Nat) : W64 := ((s.eng c e).x[i]?).getD 0

def State.setXv (s : State) (c e i : Nat) (v : W64) : State := s.setEng c e fun g => { g with x := g.x.set i v }

/-! ## Scratch operands (R323, R344) -/

/-- The fault of a scratch access of n bytes at an offset, aligned to `al`, if it has one. -/
def State.scratchFault (s : State) (c al off n : Nat) : Option Nat :=
  if off % al ≠ 0 then some FC.SCRATCH_ALIGN
  else if s.scratchLimit c (s.core c).run.ctx < off + n then some FC.SCRATCH_RANGE
  else none

/-- Performs an access of scratch, or faults. -/
def State.onScratch (s : State) (c e al off n : Nat) (f : State → State) : State :=
  match s.scratchFault c al off n with
  | some cause => s.faultAt c e cause
  | none => f (s.askBanks c off n)

/-- Scratch bytes of the running context. -/
def State.sget (s : State) (c off n : Nat) : List Byte := s.scratchRead c (s.core c).run.ctx off n

def State.sput (s : State) (c e off : Nat) (b : List Byte) : State := s.scratchWrite c (s.core c).run.ctx e off b

end Sys2Proof.Machine
end

