-- ==== Sys2Proof/Machine/Scalar.lean ====
section
/-! DEFINITION. The scalar engine: arithmetic, branches, scratch and system values (R343 to R346, R366). -/

namespace Sys2Proof.Machine

/-! ## Arithmetic -/

/-- An instruction of format S that computes d = f a b'. -/
def State.alu (s : State) (c op : Nat) (w : W64) (f : W64 → W64 → W64) : State :=
  let x := fmtS w
  let regs := if x.i = 1 then [x.d, x.a] else [x.d, x.a, x.b]
  s.go { c := c, e := 2, op := op, w := w, regs := regs } fun s =>
    let b := if x.i = 1 then x.imm else s.sv c x.b
    (s.pass c 2).setSv c x.d (f (s.sv c x.a) b)

/-- 1 when the comparison holds. -/
def setIf (b : Bool) : W64 := if b then 1 else 0

def execAddS (core : Nat) (w : W64) (s : State) : Res := .next (s.alu core 0x00 w (· + ·))
def execSubS (core : Nat) (w : W64) (s : State) : Res := .next (s.alu core 0x01 w (· - ·))
def execMulS (core : Nat) (w : W64) (s : State) : Res := .next (s.alu core 0x02 w (· * ·))
def execMulhu (core : Nat) (w : W64) (s : State) : Res :=
  .next (s.alu core 0x03 w fun a b => BitVec.ofNat 64 (a.toNat * b.toNat / 2 ^ 64))
def execAndS (core : Nat) (w : W64) (s : State) : Res := .next (s.alu core 0x04 w (· &&& ·))
def execOrS (core : Nat) (w : W64) (s : State) : Res := .next (s.alu core 0x05 w (· ||| ·))
def execXorS (core : Nat) (w : W64) (s : State) : Res := .next (s.alu core 0x06 w (· ^^^ ·))
def execShl (core : Nat) (w : W64) (s : State) : Res := .next (s.alu core 0x07 w fun a b => a <<< (b.toNat % 64))
def execShr (core : Nat) (w : W64) (s : State) : Res := .next (s.alu core 0x08 w fun a b => a >>> (b.toNat % 64))
def execSra (core : Nat) (w : W64) (s : State) : Res := .next (s.alu core 0x09 w fun a b => a.sshiftRight (b.toNat % 64))
def execMinS (core : Nat) (w : W64) (s : State) : Res := .next (s.alu core 0x0A w fun a b => if b.slt a then b else a)
def execMaxS (core : Nat) (w : W64) (s : State) : Res := .next (s.alu core 0x0B w fun a b => if a.slt b then b else a)
def execMinu (core : Nat) (w : W64) (s : State) : Res := .next (s.alu core 0x0C w fun a b => if b.ult a then b else a)
def execMaxu (core : Nat) (w : W64) (s : State) : Res := .next (s.alu core 0x0D w fun a b => if a.ult b then b else a)
def execDivu (core : Nat) (w : W64) (s : State) : Res :=
  .next (s.alu core 0x0E w fun a b => if b = 0 then BitVec.allOnes 64 else a / b)
def execRemu (core : Nat) (w : W64) (s : State) : Res := .next (s.alu core 0x0F w fun a b => if b = 0 then a else a % b)
def execSeq (core : Nat) (w : W64) (s : State) : Res := .next (s.alu core 0x10 w fun a b => setIf (a == b))
def execSlt (core : Nat) (w : W64) (s : State) : Res := .next (s.alu core 0x11 w fun a b => setIf (a.slt b))
def execSltu (core : Nat) (w : W64) (s : State) : Res := .next (s.alu core 0x12 w fun a b => setIf (a.ult b))

/-- LI: d = the sign-extended immediate. -/
def execLi (core : Nat) (w : W64) (s : State) : Res :=
  let x := fmtS w
  .next (s.go { c := core, e := 2, op := 0x13, w := w, regs := [x.d] } fun s =>
    (s.pass core 2).setSv core x.d x.imm)

/-- IMM[31:0] over the low half of a. -/
def upper (imm a : W64) : W64 := BitVec.ofNat 64 (imm.toNat % 2 ^ 32 * 2 ^ 32 + a.toNat % 2 ^ 32)

/-- LIH: d = IMM[31:0] over the low half of a. -/
def execLih (core : Nat) (w : W64) (s : State) : Res :=
  let x := fmtS w
  .next (s.go { c := core, e := 2, op := 0x14, w := w, regs := [x.d, x.a] } fun s =>
    (s.pass core 2).setSv core x.d (upper x.imm (s.sv core x.a)))

/-! ## Branches -/

/-- A conditional branch: I must be 0. -/
def State.brIf (s : State) (c op : Nat) (w : W64) (f : W64 → W64 → Bool) : State :=
  let x := fmtS w
  s.go { c := c, e := 2, op := op, w := w, regs := [x.a, x.b] } fun s =>
    if f (s.sv c x.a) (s.sv c x.b) then s.branch c 2 x.imm id else s.pass c 2

def execBeq (core : Nat) (w : W64) (s : State) : Res := .next (s.brIf core 0x18 w (· == ·))
def execBne (core : Nat) (w : W64) (s : State) : Res := .next (s.brIf core 0x19 w (· != ·))
def execBlt (core : Nat) (w : W64) (s : State) : Res := .next (s.brIf core 0x1A w (·.slt ·))
def execBge (core : Nat) (w : W64) (s : State) : Res := .next (s.brIf core 0x1B w fun a b => !a.slt b)
def execBltu (core : Nat) (w : W64) (s : State) : Res := .next (s.brIf core 0x1C w (·.ult ·))
def execBgeu (core : Nat) (w : W64) (s : State) : Res := .next (s.brIf core 0x1D w fun a b => !a.ult b)

/-- JAL: d = PC + 1, then a jump by IMM. -/
def execJal (core : Nat) (w : W64) (s : State) : Res :=
  let x := fmtS w
  .next (s.go { c := core, e := 2, op := 0x1E, w := w, regs := [x.d] } fun s =>
    let link := BitVec.ofNat 64 ((s.eng core 2).pc + 1)
    s.branch core 2 x.imm (·.setSv core x.d link))

/-- JR: PC = a; high bits or a target outside the code range fault. -/
def execJr (core : Nat) (w : W64) (s : State) : Res :=
  let x := fmtS w
  .next (s.go { c := core, e := 2, op := 0x1F, w := w, regs := [x.a] } fun s =>
    let t := (s.sv core x.a).toNat
    if 2 ^ 15 ≤ t ∨ s.fget (R.CO_PART.CODE_LEN core (s.core core).run.ctx) ≤ t then s.faultAt core 2 FC.FETCH_RANGE
    else s.nextPc core 2 t)

/-! ## Scratch -/

/-- Run-ahead notes the sector it reads (R228). -/
def State.noteSector (s : State) (c q : Nat) : State :=
  let k := s.core c
  s.setCore c { k with run := { k.run with ra := k.run.ra.map fun a => { a with sectors := addNew a.sectors q } } }

/-- A scalar scratch load; `acq`: as an acquire of SCOPE, complete as soon as its value has returned (R210). Its format
has no cache option: INV (R215). -/
def State.scratchLoad (s : State) (c op : Nat) (w : W64) (acq : Bool) : State :=
  let x := fmtS w
  s.go { c := c, e := 2, op := op, w := w, access := true, regs := [x.d, x.a] } fun s =>
    let off := (s.sv c x.a + x.imm).toNat
    let n := 2 ^ x.sz
    s.onScratch c 2 n off n fun s =>
      let v := BitVec.ofNat 64 (leNat (s.sget c off n))
      let s := (s.pass c 2).setSv c x.d v
      let s := s.when (s.ahead c 2) (·.noteSector c (s.scratchAt c (s.core c).run.ctx off / 32))
      if acq then s.reachCache (c / 16) (obsOf c 2) (s.core c).run.ctx x.scope false else s

def execSld (core : Nat) (w : W64) (s : State) : Res := .next (s.scratchLoad core 0x20 w false)
def execSlda (core : Nat) (w : W64) (s : State) : Res := .next (s.scratchLoad core 0x22 w true)

/-- A scalar scratch store; `rel`: as a release, which waits for the engine's earlier memory requests (R207), and reports
and clears LOST_PENDING (R208, R219). -/
def State.scratchStore (s : State) (c op : Nat) (w : W64) (rel : Bool) : State :=
  let x := fmtS w
  s.go { c := c, e := 2, op := op, w := w, access := true, regs := [x.a, x.b] } fun s =>
    let off := (s.sv c x.a + x.imm).toNat
    let n := 2 ^ x.sz
    if rel && !(s.outstanding (c / 16) (obsOf c 2) (s.core c).run.ctx).isEmpty then s
    else s.onScratch c 2 n off n fun s =>
      let s := (s.sput c 2 off (leBytes (s.sv c x.b).toNat n)).pass c 2
      let ctx := (s.core c).run.ctx
      if rel && s.lostPending (c / 16) (obsOf c 2) ctx then
        (s.setLost (c / 16) (obsOf c 2) ctx false).countFenceLost (c / 16) (obsOf c 2)
      else s

def execSst (core : Nat) (w : W64) (s : State) : Res := .next (s.scratchStore core 0x21 w false)
def execSstr (core : Nat) (w : W64) (s : State) : Res := .next (s.scratchStore core 0x23 w true)

/-! ## System values and status -/

/-- The value RDSYS returns. The model keeps no ACLK count within a frame: that one is a free value below 1,000
(assumption 60). -/
def State.sysValue (s : State) (c i : Nat) : W64 :=
  match i with
  | 0 => BitVec.ofNat 64 c
  | 1 => BitVec.ofNat 64 (s.core c).run.ctx
  | 2 => s.tb.frame
  | 3 => BitVec.ofNat 64 (s.freeVal % 1000)
  | 4 => BitVec.ofNat 64 s.plane
  | 5 => BitVec.ofNat 64 s.rack
  | _ => BitVec.ofNat 64 (s.epId (c / 16))

def execRdsys (core : Nat) (w : W64) (s : State) : Res :=
  let x := fmtS w
  .next (s.go { c := core, e := 2, op := 0x24, w := w, regs := [x.d] } fun s =>
    ((s.pass core 2).setSv core x.d (s.sysValue core x.imm.toNat)).when (x.imm == 3) State.freeUsed)

def execRdstat (core : Nat) (w : W64) (s : State) : Res :=
  let x := fmtS w
  .next (s.go { c := core, e := 2, op := 0x25, w := w, regs := [x.d] } fun s =>
    let v := BitVec.ofNat 64 (s.eng core 2).lastStatus
    ((s.pass core 2).setSv core x.d v).setEng core 2 fun g => { g with lastStatus := 0 })

end Sys2Proof.Machine
end

