-- ==== Sys2Proof/Machine/MemReqs.lean ====
section
/-! DEFINITION. The memory requests and collective requests of the scalar engine (R346 to R349, R364, R365). -/

namespace Sys2Proof.Machine

/-- The memory request of an instruction of format Q; `kind`: op of the request, `hint`: HINT of an atomic. -/
def State.qReq (s : State) (c : Nat) (w : W64) (kind hint : Nat) : MemReq :=
  let x := fmtQ w
  let n := if kind = 5 then subWidth x.sub else if kind = 6 then 2 ^ x.sub else 2 ^ x.sz
  { observer := obsOf c 2, ctx := (s.core c).run.ctx, op := kind, scope := x.scope, keep := x.keep == 1, g := x.g == 1
    ms := if x.msv = 1 then some x.ms else none, len := n, addr := (s.sv c x.a + x.imm).toNat, aop := x.aop
    subtype := x.sub, fetch := kind == 5 && x.f == 1, hint := hint, reader := (s.sv c x.b).toNat % 1024
    data := if 3 ≤ kind ∧ kind ≤ 5 then leBytes (s.sv c x.b).toNat n else []
    compare := if kind = 5 then (s.sv c x.c).toNat % 2 ^ (8 * n) else 0 }

/-- The request of a run-ahead load hits the remote-read cache and names no milestone (R227). -/
def State.aheadHit (s : State) (c : Nat) (r : MemReq) : Bool :=
  let e := c / 16
  match s.check e r with
  | (_, some t) =>
    r.ms.isNone && r.op == 0 && t.ga / 2 ^ 54 % 4 == 0 && t.cache && s.fbit (R.EP_CTL.CACHE_EN e) && !s.volatileOn e
      && !(t.ga / 2 ^ 56 == s.epRack e && t.ga / 2 ^ 44 % 1024 == s.epId e) && (s.cacheHit e r.ctx t.ga r.len).isSome
  | _ => false

/-- Run-ahead notes the lines it reads. -/
def State.noteLines (s : State) (c : Nat) (r : MemReq) : State :=
  match s.lookup (c / 16) r.ctx r.addr with
  | none => s
  | some t =>
    let o := t.ga % 2 ^ 44
    let l := (t.ga / 2 ^ 56, t.ga / 2 ^ 44 % 1024, o / 64)
    let k := s.core c
    let f (a : RunAhead) : RunAhead := if a.lines.contains l then a else { a with lines := a.lines ++ [l] }
    s.setCore c { k with run := { k.run with ra := k.run.ra.map f } }

/-- The running context's scalar engine presents a request. -/
def State.sendReq (s : State) (c d : Nat) (r : MemReq) : State := s.presentReq (c / 16) c (s.core c).run.ctx d r

/-- A run-ahead load takes its value from the cache; the state a squash returns to keeps the register (R228, R229). -/
def State.aheadLoad (s : State) (c d : Nat) (r : MemReq) : State :=
  let t := s.sendReq c d r
  let k := t.core c
  let back := (s.core c).run.ra.map (·.s)
  t.setCore c { k with run := { k.run with ra := k.run.ra.map fun a => { a with s := back.getD a.s } } }

/-- A memory request instruction. -/
def State.memOp (s : State) (c op kind hint : Nat) (w : W64) : State :=
  let x := fmtQ w
  let regs := [x.a] ++ (if 3 ≤ kind then [x.b] else []) ++ (if kind = 5 then [x.c] else [])
    ++ (if kind ≤ 2 ∨ (kind = 5 ∧ x.f = 1) then [x.d] else [])
  s.go { c := c, e := 2, op := op, w := w, access := true, regs := regs } fun s =>
    let r := s.qReq c w kind hint
    if s.ahead c 2 then
      if s.aheadHit c r then ((s.pass c 2).noteLines c r).aheadLoad c x.d r else s
    else (s.pass c 2).sendReq c x.d r

def execLd (core : Nat) (w : W64) (s : State) : Res := .next (s.memOp core 0x28 0 0 w)
def execLdv (core : Nat) (w : W64) (s : State) : Res := .next (s.memOp core 0x29 1 0 w)
def execLda (core : Nat) (w : W64) (s : State) : Res := .next (s.memOp core 0x2A 2 0 w)
def execSt (core : Nat) (w : W64) (s : State) : Res := .next (s.memOp core 0x2C 3 0 w)
def execStr (core : Nat) (w : W64) (s : State) : Res := .next (s.memOp core 0x2D 4 0 w)
def execAtm (core : Nat) (w : W64) (s : State) : Res := .next (s.memOp core 0x30 5 0 w)
def execAtma (core : Nat) (w : W64) (s : State) : Res := .next (s.memOp core 0x31 5 1 w)
def execAtmr (core : Nat) (w : W64) (s : State) : Res := .next (s.memOp core 0x32 5 2 w)
def execInval (core : Nat) (w : W64) (s : State) : Res := .next (s.memOp core 0x34 6 0 w)

/-! ## Collective requests -/

/-- COLL: presents the member request whose block stands in scratch at s[A]; with 64 held the engine stalls. -/
def execColl (core : Nat) (w : W64) (s : State) : Res :=
  let x := fmtQ w
  let h := core / 16
  .next (s.go { c := core, e := 2, op := 0x36, w := w, access := true, regs := [x.a] } fun s =>
    let off := (s.sv core x.a).toNat
    if memberCap h ≤ (s.ep h).members.length then s
    else s.onScratch core 2 32 off 64 fun s =>
      let ctx := (s.core core).run.ctx
      let ms := if x.msv = 1 then some x.ms else none
      (s.pass core 2).collMember h { observer := obsOf core 2, core := core, ctx := ctx, g := x.g == 1, ms := ms
                                     block := s.sget core off 64 })

/-- COLLX: sends the ABORT of the held request that the block names. -/
def execCollx (core : Nat) (w : W64) (s : State) : Res :=
  let x := fmtQ w
  .next (s.go { c := core, e := 2, op := 0x37, w := w, access := true, regs := [x.a] } fun s =>
    let off := (s.sv core x.a).toNat
    s.onScratch core 2 32 off 64 fun s => (s.pass core 2).collAbort (core / 16) (s.sget core off 64))

end Sys2Proof.Machine
end

