-- ==== Sys2Proof/Machine/Vector.lean ====
section
/-! DEFINITION. The vector engine (R281, R320, R339, R344, R353 to R356). -/

namespace Sys2Proof.Machine

/-! ## Lanes -/

/-- The format of FMT: 0 fp32, 1 bf16, 2 fp16. -/
def laneFmt (f : Nat) : Fmt := if f = 1 then Fmt.bf16 else if f = 2 then Fmt.fp16 else Fmt.fp32

/-- Lanes of a format. -/
def laneCount (f : Nat) : Nat := if f = 0 then 64 else 128

/-- Lane i of a register value. -/
def lane (f : Nat) (v : BitVec 2048) (i : Nat) : Nat := packGet v.toNat (laneFmt f).w i

/-- A register value from its lanes. -/
def ofLanes (f : Nat) (l : List Nat) : BitVec 2048 := BitVec.ofNat 2048 (packOf (laneFmt f).w l)

/-- Computes every lane from its number. -/
def mapLanes (f : Nat) (g : Nat → Nat) : BitVec 2048 := ofLanes f ((List.range (laneCount f)).map g)

/-- v[i] of the running set. -/
def State.vv (s : State) (c i : Nat) : BitVec 2048 := kgetD (s.core c).run.v i 0

def State.setVv (s : State) (c i : Nat) (v : BitVec 2048) : State :=
  let k := s.core c
  s.setCore c { k with run := { k.run with v := kset k.run.v i v } }

/-! ## Stochastic values (R339) -/

/-- z of the generator for seed, counter, engine and element. -/
def drawZ (seed : W64) (n eng e : Nat) : W64 :=
  let z := seed + BitVec.ofNat 64 (n * 2 ^ 13 + eng * 2 ^ 12 + e + 1) * 0x9e3779b97f4a7c15#64
  let z := (z ^^^ (z >>> 30)) * 0xbf58476d1ce4e5b9#64
  let z := (z ^^^ (z >>> 27)) * 0x94d049bb133111eb#64
  z ^^^ (z >>> 31)

/-- The rounding mode of result element e of an instruction. -/
def State.roundMode (s : State) (c eng : Nat) (sr : Bool) (e : Nat) : Mode :=
  if sr then .sr ((drawZ (s.core c).run.seed (s.eng c eng).n eng e).toNat / 2 ^ 48) else .rne

/-- An instruction that rounds stochastically takes one value of the counter N. -/
def State.countSr (s : State) (c eng : Nat) (sr : Bool) : State :=
  s.when sr (·.setEng c eng fun g => { g with n := g.n + 1 })

/-! ## Loads and stores (R320, R344) -/

/-- x[X] + IMM. -/
def State.vOff (s : State) (c : Nat) (x : FVec) : Nat :=
  (s.xv c 1 x.x + BitVec.ofInt 64 (signed x.imm 24)).toNat

def execVld (core : Nat) (w : W64) (s : State) : Res :=
  let x := fmtV w
  .next (s.go { c := core, e := 1, op := 0x40, w := w, access := true } fun s =>
    let n := if x.half = 1 then 128 else 256
    let off := s.vOff core x
    s.onScratch core 1 32 off n fun s => (s.setVv core x.vd (BitVec.ofNat 2048 (leNat (s.sget core off n)))).pass core 1)

/-- VLDB: every lane is the one element at the offset, which is aligned as every vector access is. -/
def execVldb (core : Nat) (w : W64) (s : State) : Res :=
  let x := fmtV w
  .next (s.go { c := core, e := 1, op := 0x41, w := w, access := true } fun s =>
    let n := (laneFmt x.fmt).w / 8
    let off := s.vOff core x
    s.onScratch core 1 32 off n fun s =>
      let e := leNat (s.sget core off n)
      (s.setVv core x.vd (mapLanes x.fmt fun _ => e)).pass core 1)

def execVst (core : Nat) (w : W64) (s : State) : Res :=
  let x := fmtV w
  .next (s.go { c := core, e := 1, op := 0x42, w := w, access := true } fun s =>
    let n := if x.half = 1 then 128 else 256
    let off := s.vOff core x
    s.onScratch core 1 32 off n fun s => (s.sput core 1 off (leBytes (s.vv core x.vd).toNat n)).pass core 1)

/-! ## Lane operations -/

/-- A lane-wise instruction: `f` computes a lane from its format, mode, the lanes of va, vb and vc, and the old lane. -/
def State.laneOp (s : State) (c op : Nat) (w : W64) (f : Fmt → Mode → Nat → Nat → Nat → Nat → Nat) : State :=
  let x := fmtV w
  s.go { c := c, e := 1, op := op, w := w } fun s =>
    let r := mapLanes x.fmt fun i =>
      f (laneFmt x.fmt) (s.roundMode c 1 (x.sr == 1) i) (lane x.fmt (s.vv c x.va) i) (lane x.fmt (s.vv c x.vb) i)
        (lane x.fmt (s.vv c x.vc) i) (lane x.fmt (s.vv c x.vd) i)
    ((s.setVv c x.vd r).countSr c 1 (x.sr == 1)).pass c 1

def execVadd (core : Nat) (w : W64) (s : State) : Res :=
  .next (s.laneOp core 0x48 w fun t m a b _ _ => t.encode m false ((t.decode a).add (t.decode b)))
def execVsub (core : Nat) (w : W64) (s : State) : Res :=
  .next (s.laneOp core 0x49 w fun t m a b _ _ => t.encode m false ((t.decode a).add (t.decode b).neg))
def execVmul (core : Nat) (w : W64) (s : State) : Res :=
  .next (s.laneOp core 0x4A w fun t m a b _ _ => t.encode m false ((t.decode a).mul (t.decode b)))
def execVfma (core : Nat) (w : W64) (s : State) : Res :=
  .next (s.laneOp core 0x4B w fun t m a b c _ =>
    t.encode m false (((t.decode a).mul (t.decode b)).add (t.decode c)))
def execVmin (core : Nat) (w : W64) (s : State) : Res :=
  .next (s.laneOp core 0x4C w fun t _ a b _ _ => t.fmin a b)
def execVmax (core : Nat) (w : W64) (s : State) : Res :=
  .next (s.laneOp core 0x4D w fun t _ a b _ _ => t.fmax a b)
def execVsel (core : Nat) (w : W64) (s : State) : Res :=
  .next (s.laneOp core 0x4E w fun t _ a b c d =>
    if !t.isNan a && !t.isNan b && t.key a < t.key b then c else d)

/-! ## Reciprocal, reciprocal square root, power of two (R353) -/

/-- The largest y with y × y ≤ v, by bits from 2^n down. -/
def isqrt (v : Nat) : Nat → Nat → Nat
  | 0, y => if (y + 1) * (y + 1) ≤ v then y + 1 else y
  | n + 1, y => isqrt v n (if (y + 2 ^ (n + 1)) * (y + 2 ^ (n + 1)) ≤ v then y + 2 ^ (n + 1) else y)

/-- A magnitude within 1 ulp of q × 2^e, where q is the exact quotient cut to 64 bits or more: one of the fp32 values on
either side of it, as the opaque choice of opcode and operand says (assumption 13). -/
def near32 (op b q : Nat) (e : Int) : Nat :=
  let lo := Fmt.fp32.roundMag (.sr 65536) q e
  let n := if (Config.ulp op b) % 2 = 0 then lo else lo + 1
  min n Fmt.fp32.infBits

/-- 1 / a. -/
def rcp32 (a : Nat) : Nat :=
  match Fmt.fp32.decode a with
  | .nan => Fmt.fp32.nanBits
  | .inf neg => Fmt.fp32.sign neg
  | .fin neg m e =>
    if m = 0 then Fmt.fp32.sign neg + Fmt.fp32.infBits
    else Fmt.fp32.sign neg + near32 0x50 a (2 ^ 96 / m) (-96 - e)

/-- 1 / sqrt(a). The spec gives no value for -0: it is an opaque one (assumption 13). -/
def rsq32 (a : Nat) : Nat :=
  match Fmt.fp32.decode a with
  | .nan => Fmt.fp32.nanBits
  | .inf neg => if neg then Fmt.fp32.nanBits else 0
  | .fin neg m e =>
    if m = 0 then (if neg then (Config.ulp 0x51 a).toNat % 2 ^ 32 else Fmt.fp32.infBits)
    else if neg then Fmt.fp32.nanBits
    else
      let m := if e % 2 = 0 then m else 2 * m
      let e := if e % 2 = 0 then e else e - 1
      near32 0x51 a (isqrt (2 ^ 160 / m) 80 0) (-80 - e / 2)

/-- 2^(f / 2^n) in units of 2^-96, cut: bit by bit from the lowest, each halves what lies below it. Under 2 below the
exact value. -/
def exp2Frac (f : Nat) : Nat → Nat
  | 0 => 2 ^ 96
  | n + 1 => isqrt (exp2Frac f n * 2 ^ (if f.testBit n then 97 else 96)) 97 0

/-- A floor of a finite a in units of 2^-64. -/
def fixed64 (neg : Bool) (m : Nat) (e : Int) : Int :=
  let n := m * pow2 (e + 64)
  let d := pow2 (-(e + 64))
  if neg then -((n + d - 1) / d : Nat) else (n / d : Nat)

/-- A magnitude within 1 ulp of 2^a (R353). The exact value lies between two bounds that are 2^-62 of it apart: where
they meet in one fp32 interval, either end of it by the opaque choice (assumption 13), else the value between the bounds. -/
def exp2Mag (a : Nat) (x : Int) : Nat :=
  let k := x / 2 ^ 64
  let p := exp2Frac (x % 2 ^ 64).toNat 64
  let lo := Fmt.fp32.roundMag (.sr 65536) p (k - 96)
  let hi := Fmt.fp32.roundMag (.sr 65536) (p + 2 ^ 34) (k - 96)
  min (if lo = hi then lo + Config.exp2 a % 2 else hi) (Fmt.fp32.infBits - 1)

/-- 2^a. -/
def exp2f (a : Nat) : Nat :=
  match Fmt.fp32.decode a with
  | .nan => Fmt.fp32.nanBits
  | .inf neg => if neg then 0 else Fmt.fp32.infBits
  | .fin neg m e =>
    if !neg && dyLe 128 0 m e then Fmt.fp32.infBits
    else if neg && !dyLe m e 149 0 then 0
    else exp2Mag a (fixed64 neg m e)

/-- A special function: fp32 only. -/
def State.special (s : State) (c op : Nat) (w : W64) (f : Nat → Nat) : State :=
  let x := fmtV w
  s.go { c := c, e := 1, op := op, w := w } fun s =>
    (s.setVv c x.vd (mapLanes 0 fun i => f (lane 0 (s.vv c x.va) i))).pass c 1

def execVrcp (core : Nat) (w : W64) (s : State) : Res := .next (s.special core 0x50 w rcp32)
def execVrsq (core : Nat) (w : W64) (s : State) : Res := .next (s.special core 0x51 w rsq32)
def execVexp2 (core : Nat) (w : W64) (s : State) : Res := .next (s.special core 0x52 w exp2f)

/-! ## Reductions over lanes (R354) -/

/-- Adds lanes in pairs. -/
def pairSums (t : Fmt) : List Nat → List Nat
  | a :: b :: l => t.add a b :: pairSums t l
  | l => l

/-- The fixed tree: pairs until one value is left. -/
def treeSum (t : Fmt) : Nat → List Nat → Nat
  | 0, l => l.headD 0
  | n + 1, l => treeSum t n (pairSums t l)

/-- An instruction that leaves one value in lane 0 and +0 elsewhere. -/
def State.foldLanes (s : State) (c op : Nat) (w : W64) (f : Fmt → List Nat → Nat) : State :=
  let x := fmtV w
  s.go { c := c, e := 1, op := op, w := w } fun s =>
    let l := (List.range (laneCount x.fmt)).map (lane x.fmt (s.vv c x.va))
    (s.setVv c x.vd (ofLanes x.fmt [f (laneFmt x.fmt) l])).pass c 1

def execVrsum (core : Nat) (w : W64) (s : State) : Res := .next (s.foldLanes core 0x54 w fun t l => treeSum t 7 l)
def execVrmax (core : Nat) (w : W64) (s : State) : Res :=
  .next (s.foldLanes core 0x55 w fun t l =>
    match l with
    | a :: r => r.foldl t.fmax a
    | [] => 0)

/-! ## Conversion and immediates (R355) -/

/-- The converted register: 64 narrowed lanes, 64 widened ones, or 128 lanes between the 16-bit formats. -/
def State.convert (s : State) (c : Nat) (x : FVec) : BitVec 2048 :=
  let dstFmt := x.vc % 4
  let v := s.vv c x.va
  let one (i j : Nat) : Nat :=
    (laneFmt dstFmt).encode (s.roundMode c 1 (x.sr == 1) j) false ((laneFmt x.fmt).decode (lane x.fmt v i))
  if x.fmt = 0 ∨ dstFmt = 0 then
    ofLanes dstFmt ((List.range 64).map fun j => one (if x.fmt ≠ 0 ∧ x.half = 1 then j + 64 else j) j)
  else mapLanes dstFmt fun j => one j j

def execVcvt (core : Nat) (w : W64) (s : State) : Res :=
  let x := fmtV w
  .next (s.go { c := core, e := 1, op := 0x58, w := w } fun s =>
    ((s.setVv core x.vd (s.convert core x)).countSr core 1 (x.sr == 1)).pass core 1)

def execVsplat (core : Nat) (w : W64) (s : State) : Res :=
  let x := fmtV w
  let v := if x.fmt = 0 then x.imm * 256 else x.imm % 2 ^ 16
  .next (s.go { c := core, e := 1, op := 0x59, w := w } fun s =>
    (s.setVv core x.vd (mapLanes x.fmt fun _ => v)).pass core 1)

end Sys2Proof.Machine
end

