-- ==== Sys2Proof/Machine/Matrix.lean ====
section
/-! DEFINITION. The matrix engine (R270, R280, R317 to R319, R357 to R359). -/

namespace Sys2Proof.Machine

/-- Element (row, col) of a tile, as fp32 bits. -/
def State.accAt (s : State) (c t i : Nat) : Nat := kgetD (s.core c).run.acc (t * 4096 + i) 0

/-- Replaces every element of a tile. -/
def State.setTile (s : State) (c t : Nat) (f : Nat → Nat) : State :=
  let k := s.core c
  let acc := (List.range 4096).foldl (fun m i => let v := f i; if v = 0 then kdel m (t * 4096 + i) else kset m (t * 4096 + i) v) k.run.acc
  s.setCore c { k with run := { k.run with acc := acc } }

/-! ## Operands (R317) -/

/-- Bytes of a block of 32 k steps: the elements, then 64 scales unless it carries none. -/
def blockBytes (f ns : Nat) : Nat := 32 * 64 * typeWidth f / 8 + (if isMx f && ns == 0 then 64 else 0)

/-- Bytes of an operand of kg blocks. -/
def operandBytes (f ns kg : Nat) : Nat := kg * blockBytes f ns

/-- Element (k, row or column i) of a block. -/
def blockVal (b : List Byte) (f ns k i : Nat) : FV :=
  let w := typeWidth f
  let e := packGet (leNat (b.take (256 * w))) w (64 * k + i)
  if isMx f then (fmtOf f).mxVal (if ns = 0 then field b (256 * w + i) 1 else 127) e else (fmtOf f).decode e

/-- The sum of 32 exact products for row r and column q. -/
def groupSum (a b : Nat → Nat → FV) (r q : Nat) : FV :=
  match (List.range 32).map fun k => (a k r).mul (b k q) with
  | p :: l => l.foldl FV.add p
  | [] => .fin false 0 0

/-- Adds one group of 32 k steps into a tile. -/
def State.addGroup (s : State) (c : Nat) (x : FM) (a b : List Byte) : State :=
  let fa := blockVal a x.fa x.nsa
  let fb := blockVal b x.fb x.nsb
  s.setTile c x.td fun i =>
    fadd32 (s.accAt c x.td i) (Fmt.fp32.encode .rne false (groupSum fa fb (i / 64) (i % 64)))

/-- The multiply has done its groups up to `g`: the engine goes on, or resumes at group `g` (R336). -/
def State.mmaGoOn (s : State) (c kg g : Nat) : State :=
  if g < kg then s.setEng c 0 fun e => { e with mmaAt := g }
  else (s.pass c 0).setEng c 0 fun e => { e with mmaAt := 0 }

/-- Meaning of MMA: as many of its groups as end in this quantum (R336). -/
def execMma (core : Nat) (w : MmaWork) (s : State) : Res :=
  let x := fmtM w.w
  .next (s.go { c := core, e := 0, op := 0x80, w := w.w, access := true } fun s =>
    if !pairOk x then s.faultAt core 0 FC.BAD_FORMAT
    else
      let a := (s.xv core 0 x.xa).toNat
      let b := (s.xv core 0 x.xb).toNat
      s.onScratch core 0 32 a (operandBytes x.fa x.nsa x.kg) fun s =>
        s.onScratch core 0 32 b (operandBytes x.fb x.nsb x.kg) fun s =>
          let i := (s.eng core 0).mmaAt
          let n := min w.groups (x.kg - i)
          (s.forEach ((List.range n).map (i + ·)) fun s g =>
            s.addGroup core x (s.sget core (a + g * blockBytes x.fa x.nsa) (blockBytes x.fa x.nsa))
              (s.sget core (b + g * blockBytes x.fb x.nsb) (blockBytes x.fb x.nsb))).mmaGoOn core x.kg (i + n))

def execMzero (core : Nat) (w : W64) (s : State) : Res :=
  let x := fmtM w
  .next (s.go { c := core, e := 0, op := 0x81, w := w } fun s => (s.setTile core x.td fun _ => 0).pass core 0)

/-! ## Write-out and load (R319, R359) -/

/-- One row of a tile in format f: element bits and scales. -/
def State.rowOut (s : State) (c : Nat) (x : FM) (r : Nat) : List Nat × List Nat :=
  let v (e : Nat) : Nat × Mode := (s.accAt c x.td e, s.roundMode c 0 (x.sr == 1) e)
  if isMx x.fa then
    let blk (j : Nat) : Nat × List Rounded := (fmtOf x.fa).quantBlock ((List.range 32).map fun k => v (64 * r + 32 * j + k))
    let b0 := blk 0
    let b1 := blk 1
    ((b0.2 ++ b1.2).map (·.bits), [b0.1, b1.1])
  else
    ((List.range 64).map fun k =>
      let y := v (64 * r + k)
      if x.fa = 0 then y.1 else (fmtOf x.fa).encode y.2 false (Fmt.fp32.decode y.1), [])

/-- The bytes MOUT writes: data row-major, then scales. -/
def State.tileOut (s : State) (c : Nat) (x : FM) : List Byte :=
  let w := typeWidth x.fa
  let rows := (List.range 64).map (s.rowOut c x)
  (rows.map fun r => leBytes (packOf w r.1) (64 * w / 8)).flatten ++ (rows.map fun r => r.2.map (BitVec.ofNat 8)).flatten

def execMout (core : Nat) (w : W64) (s : State) : Res :=
  let x := fmtM w
  .next (s.go { c := core, e := 0, op := 0x82, w := w, access := true } fun s =>
    let off := (s.xv core 0 x.xa).toNat
    let n := 512 * typeWidth x.fa + (if isMx x.fa then 128 else 0)
    s.onScratch core 0 32 off n fun s =>
      let s := (s.sput core 0 off (s.tileOut core x)).countSr core 0 (x.sr == 1)
      (s.when (x.clr == 1) (·.setTile core x.td fun _ => 0)).pass core 0)

def execMload (core : Nat) (w : W64) (s : State) : Res :=
  let x := fmtM w
  .next (s.go { c := core, e := 0, op := 0x83, w := w, access := true } fun s =>
    let off := (s.xv core 0 x.xa).toNat
    s.onScratch core 0 32 off 16384 fun s =>
      let v := leNat (s.sget core off 16384)
      (s.setTile core x.td fun i => packGet v 32 i).pass core 0)

end Sys2Proof.Machine
end

