-- ==== Sys2Proof/Machine/Dma.lean ====
section
/-! DEFINITION. The DMA engine (R171, R329, R336, R344, R350 to R352, R367). -/

namespace Sys2Proof.Machine

/-- The largest naturally aligned piece of at most 256 bytes that fits. -/
def pieceLen (addr left : Nat) : Nat :=
  ((List.range 9).map fun k => 2 ^ (8 - k)).find? (fun n => addr % n == 0 && n ≤ left) |>.getD 1

/-- Request op of a transfer: plain read, volatile read, plain write, atomic. -/
def xferOp (op : Nat) : Nat := if op = 0xA0 then 0 else if op = 0xA1 then 1 else if op = 0xA2 then 3 else 5

/-- Changes a transfer. -/
def State.updXfer (s : State) (c id : Nat) (f : Xfer → Xfer) : State :=
  let k := s.core c
  s.setCore c { k with xfers := k.xfers.map fun x => if x.id = id then f x else x }

/-- The global address of a transfer's byte k, by the translation of its issue (R171, R350). -/
def Xfer.xlat (x : Xfer) (k : Nat) : Xlat :=
  { ga := (x.ga + k) % 2 ^ 64, read := true, write := true, atomic := true, cache := x.cacheOk, window := x.window }

/-- Bytes of the next piece of a transfer. -/
def Xfer.piece (x : Xfer) : Nat := pieceLen (x.addr + x.issued) (x.len - x.issued)

/-- Scratch bytes from `off` on wait for an earlier transfer of the context: it still fills one of them, or has yet to read
one that is to be written (R207). -/
def State.scratchBusy (s : State) (c ctx id off n : Nat) (writes : Bool) : Bool :=
  (s.core c).xfers.any fun t => t.id < id && t.ctx == ctx && t.scratch < off + n && off < t.scratch + t.len
    && (t.fills || (writes && t.issued < t.len))

/-- Issues the next piece of a transfer. A DMAOUT or DMAADD reads its bytes from scratch as the piece issues (R352). -/
def State.issuePiece (s : State) (c : Nat) (x : Xfer) : State :=
  let h := c / 16
  let kind := xferOp x.op
  let r : MemReq :=
    { observer := obsOf c 3, ctx := x.ctx, op := kind, g := x.g, len := x.piece, addr := (x.addr + x.issued) % 2 ^ 64
      subtype := x.subtype, data := if x.fills then [] else s.scratchRead c x.ctx (x.scratch + x.issued) x.piece }
  let q := s.newReq h r c (.dma c x.ctx x.id (x.scratch + x.issued))
  let s := s.updXfer c x.id fun x => { x with issued := x.issued + x.piece, open_ := x.open_ + 1 }
  let s := s.when (!x.fills) (·.askBanks c (x.scratch + x.issued) x.piece)
  (s.takeKey h).issueAt h q (x.xlat x.issued) .clean

/-- Issues pieces of a transfer until none is left, the engine stalls (R176) or its scratch bytes wait. -/
def State.pumpXfer (s : State) (c id : Nat) : Nat → State
  | 0 => s
  | n + 1 =>
    match (s.core c).xfers.find? (·.id == id) with
    | some x =>
      if x.len ≤ x.issued || s.stalled c 3 || s.scratchBusy c x.ctx id (x.scratch + x.issued) x.piece x.fills then s
      else (s.issuePiece c x).pumpXfer c id n
    | none => s

/-- The running context's transfers go on, in a frame that is not idle (R336). -/
def State.dmaPump (s : State) (c : Nat) : State :=
  if s.fget (R.CO_STATUS.KIND c) = 0 then s
  else
    let k := s.core c
    s.forEach (k.xfers.filter fun x => x.ctx == k.run.ctx && x.issued < x.len) fun s x =>
      s.pumpXfer c x.id (x.len / 128 + 16)

/-- A transfer completes: its milestone, LAST_STATUS. -/
def State.xferDone (s : State) (c : Nat) (x : Xfer) : State :=
  let x := { x with status := if x.cut then ST.LOST else x.status }
  let k := s.core c
  let s := s.setCore c { k with xfers := k.xfers.filter (·.id != x.id) }
  let s := match x.ms with
    | some m => s.msAdvance (c / 16) m 1 x.status
    | none => s
  let s := s.when (x.status == ST.LOST) (·.setLost (c / 16) (obsOf c 3) x.ctx true)
  s.withSet c x.ctx (onEngine 3 (noteStatus x.status))

/-- The transfer a memory DMA instruction starts. -/
def State.newXfer (s : State) (c op : Nat) (x : FD) : Xfer :=
  { id := (s.core c).nextXfer, ctx := (s.core c).run.ctx, op := op, scratch := (s.xv c 3 x.xs).toNat
    addr := (s.xv c 3 x.xm).toNat, len := x.len, g := x.g == 1, ms := if x.msv = 1 then some x.ms else none
    subtype := x.sub }

/-- The transfer with the translation of its whole range; none where that is refused: outside one translation entry,
without the permission, or with another context's milestone (R172, R350). -/
def State.xferXlat (s : State) (c : Nat) (x : Xfer) : Option Xfer :=
  let kind := xferOp x.op
  ((s.lookup (c / 16) x.ctx x.addr).filter fun t =>
    x.addr + x.len ≤ t.limit && (if kind ≤ 1 then t.read else if kind = 5 then t.atomic else t.write)
      && x.ms.all fun m => s.fget (R.MS_INFO.OWNER (c / 16) m) == x.ctx).map fun t =>
    { x with ga := t.ga, cacheOk := t.cache, window := t.window }

/-- A DMA instruction waits: sixteen transfers are in flight, or the one that was the oldest when it found sixteen still is
(R352). -/
def State.dmaFull (s : State) (c : Nat) : Bool :=
  16 ≤ (s.core c).xfers.length || (s.core c).xfers.any fun t => (s.eng c 3).oldest == some t.id

/-- The instruction that waits notes the oldest transfer. -/
def State.dmaWait (s : State) (c : Nat) : State :=
  if (s.core c).xfers.any fun t => (s.eng c 3).oldest == some t.id then s
  else s.setEng c 3 fun g => { g with oldest := (s.core c).xfers.head?.map (·.id) }

/-- A memory DMA instruction. -/
def State.dmaMem (s : State) (c op : Nat) (w : W64) : State :=
  let x := fmtD w
  let wd := subWidth x.sub
  s.go { c := c, e := 3, op := op, w := w, access := true } fun s =>
    let t := s.newXfer c op x
    if t.scratch % 32 ≠ t.addr % 32 ∨ (op = 0xA3 ∧ t.scratch % wd ≠ 0) then s.faultAt c 3 FC.SCRATCH_ALIGN
    else if s.scratchLimit c t.ctx < t.scratch + t.len then s.faultAt c 3 FC.SCRATCH_RANGE
    else if s.dmaFull c then s.dmaWait c
    else
      let s := (s.pass c 3).markBad (c / 16)
      match s.xferXlat c t with
      | none =>
        let own := t.ms.filter fun m => s.fget (R.MS_INFO.OWNER (c / 16) m) == t.ctx
        s.xferDone c { t with ms := own, status := ST.DENIED }
      | some t =>
        let k := s.core c
        let s := s.setCore c { k with xfers := k.xfers ++ [t], nextXfer := k.nextXfer + 1 }
        s.pumpXfer c t.id (t.len / 128 + 16)

def execDmain (core : Nat) (w : W64) (s : State) : Res := .next (s.dmaMem core 0xA0 w)
def execDmainv (core : Nat) (w : W64) (s : State) : Res := .next (s.dmaMem core 0xA1 w)
def execDmaout (core : Nat) (w : W64) (s : State) : Res := .next (s.dmaMem core 0xA2 w)
def execDmaadd (core : Nat) (w : W64) (s : State) : Res := .next (s.dmaMem core 0xA3 w)

/-- DMACP: a copy within scratch, once the earlier transfers leave its bytes alone (R207). Where the ranges overlap the spec gives no order of the reads and writes: the bytes
written are free values (assumption 61). -/
def execDmacp (core : Nat) (w : W64) (s : State) : Res :=
  let x := fmtD w
  .next (s.go { c := core, e := 3, op := 0xA4, w := w, access := true } fun s =>
    let a := (s.xv core 3 x.xm).toNat
    let b := (s.xv core 3 x.xs).toNat
    let lim := s.scratchLimit core (s.core core).run.ctx
    if lim < a + x.len ∨ lim < b + x.len then s.faultAt core 3 FC.SCRATCH_RANGE
    else if s.dmaFull core then s.dmaWait core
    else if s.scratchBusy core (s.core core).run.ctx (s.core core).nextXfer a x.len false
        || s.scratchBusy core (s.core core).run.ctx (s.core core).nextXfer b x.len true then s
    else
      let mixed := a ≠ b ∧ a < b + x.len ∧ b < a + x.len
      let d := if mixed then leBytes s.freeVal x.len else s.sget core a x.len
      let s := (s.askBanks core a x.len).askBanks core b x.len
      ((s.sput core 3 b d).when (decide mixed) State.freeUsed).pass core 3)

/-- Meaning of DMA_TRANSFER_COMPLETE: a transfer with pieces left goes on; one without completes. -/
def execDmaTransferComplete (core xfer : Nat) (s : State) : Res :=
  .next (if 256 ≤ core then s
    else
      let s := s.dmaPump core
      match (s.core core).xfers.find? (·.id == xfer) with
      | some x => if x.len ≤ x.issued ∧ x.open_ = 0 then (s.xferDone core x).dmaPump core else s
      | none => s)

end Sys2Proof.Machine
end

