-- ==== Sys2Proof/Machine/IndexSync.lean ====
section
/-! DEFINITION. Index, synchronisation and control instructions (R189, R217, R221, R342, R345, R360 to R363). -/

namespace Sys2Proof.Machine

/-! ## Index instructions, engines 0, 1 and 3 -/

/-- XLI: x[D] = the sign-extended immediate. -/
def execXli (core engine : Nat) (w : W64) (s : State) : Res :=
  let x := fmtX w
  .next (s.go { c := core, e := engine, op := 0xE0, w := w } fun s =>
    (s.setXv core engine x.d x.imm).pass core engine)

def execXadd (core engine : Nat) (w : W64) (s : State) : Res :=
  let x := fmtX w
  .next (s.go { c := core, e := engine, op := 0xE1, w := w } fun s =>
    (s.setXv core engine x.d (s.xv core engine x.a + x.imm)).pass core engine)

def execXbnz (core engine : Nat) (w : W64) (s : State) : Res :=
  let x := fmtX w
  .next (s.go { c := core, e := engine, op := 0xE2, w := w } fun s =>
    if s.xv core engine x.a = 0 then s.pass core engine else s.branch core engine x.imm id)

/-- XLOOP: the decrement and the branch are one instruction: a target outside the code range faults without either. -/
def execXloop (core engine : Nat) (w : W64) (s : State) : Res :=
  let x := fmtX w
  .next (s.go { c := core, e := engine, op := 0xE3, w := w } fun s =>
    let v := s.xv core engine x.a - 1
    if v = 0 then (s.setXv core engine x.a v).pass core engine
    else s.branch core engine x.imm (·.setXv core engine x.a v))

def execXjmp (core engine : Nat) (w : W64) (s : State) : Res :=
  let x := fmtX w
  .next (s.go { c := core, e := engine, op := 0xE4, w := w } fun s =>
    s.branch core engine x.imm id)

def execXstat (core engine : Nat) (w : W64) (s : State) : Res :=
  let x := fmtX w
  .next (s.go { c := core, e := engine, op := 0xE5, w := w } fun s =>
    let v := BitVec.ofNat 64 (s.eng core engine).lastStatus
    ((s.setXv core engine x.d v).setEng core engine fun g => { g with lastStatus := 0 }).pass core engine)

def execXlih (core engine : Nat) (w : W64) (s : State) : Res :=
  let x := fmtX w
  .next (s.go { c := core, e := engine, op := 0xE6, w := w } fun s =>
    (s.setXv core engine x.d (upper x.imm (s.xv core engine x.a))).pass core engine)

/-! ## Format Y -/

/-- The value of REG: s[REG], or x[REG[1:0]] of the other engines. -/
def State.regVal (s : State) (c e r : Nat) : W64 := if e = 2 then s.sv c r else s.xv c e (r % 4)

/-- FENCE of SCOPE with the option KEEP. -/
def execFence (core engine : Nat) (w : W64) (s : State) : Res :=
  let y := fmtY w
  .next (s.go { c := core, e := engine, op := 0xC0, w := w, access := true } fun s =>
    (s.pass core engine).fenceIssue (core / 16)
      { observer := obsOf core engine, core := core, ctx := (s.core core).run.ctx, kind := 0, scope := y.scope
        keep := y.keep == 1 })

/-- A TSIG of the engine to a token is unfinished: what the engine does with the token next waits for it (R343). -/
def State.tokenBusy (s : State) (c e t : Nat) : Bool :=
  (s.ep (c / 16)).fences.any fun w =>
    w.kind == 2 && w.observer == obsOf c e && w.ctx == (s.core c).run.ctx && w.ms == t

/-- TSIG: adds COUNT to a token after the engine's earlier scratch writes. -/
def execTsig (core engine : Nat) (w : W64) (s : State) : Res :=
  let y := fmtY w
  .next (s.go { c := core, e := engine, op := 0xC1, w := w, access := true } fun s =>
    if s.tokenBusy core engine y.token then s
    else (s.pass core engine).fenceIssue (core / 16)
      { observer := obsOf core engine, core := core, ctx := (s.core core).run.ctx, kind := 2, ms := y.token
        count := y.count })

/-- TWAIT: completes at once when the token has reached its target. -/
def execTwait (core engine : Nat) (w : W64) (s : State) : Res :=
  let y := fmtY w
  let i : Iss := { c := core, e := engine, op := 0xC2, w := w, access := true
                   regs := if engine = 2 then [y.reg] else [] }
  .next (s.go i fun s =>
    let t := (y.imm16 + (s.regVal core engine y.reg).toNat) % 65536
    let busy := s.tokenBusy core engine y.token
    let s := s.when (!busy) (·.pass core engine)
    if busy then s
    else if tokenMet (kgetD (s.core core).run.tokens y.token 0) t then s
    else s.setEng core engine fun g => { g with wait := 4, waitToken := y.token, waitTarget := t })

/-- MSWAIT: another context's milestone is denied at once, a met one completes at once; with 256 waits pending the engine
stalls (R360). -/
def execMswait (core engine : Nat) (w : W64) (s : State) : Res :=
  let y := fmtY w
  let h := core / 16
  let i : Iss := { c := core, e := engine, op := 0xC3, w := w, access := true
                   regs := if engine = 2 then [y.reg] else [] }
  .next (s.go i fun s =>
    let ctx := (s.core core).run.ctx
    if s.fget (R.MS_INFO.OWNER h y.ms) ≠ ctx then (s.pass core engine).setEng core engine (noteStatus ST.DENIED)
    else if 256 ≤ (s.ep h).waits.length then s
    else
      let x := s.ep h
      let wt : MsWait := { id := x.nextKey, observer := obsOf core engine, core := core, ctx := ctx, ms := y.ms
                           target := (s.regVal core engine y.reg).toNat, issued := s.now, deadline := y.imm16
                           scope := y.scope, keep := y.keep == 1 }
      let s := s.pass core engine
      if s.waitMet h wt then s.reachCache h wt.observer ctx wt.scope wt.keep
      else
        (s.setEp h { x with nextKey := x.nextKey + 1, waits := x.waits ++ [wt] }).setEng core engine fun g =>
          { g with wait := 2 })

/-- MSADD: a release that adds COUNT to a milestone of the running context. -/
def execMsadd (core engine : Nat) (w : W64) (s : State) : Res :=
  let y := fmtY w
  let h := core / 16
  .next (s.go { c := core, e := engine, op := 0xC4, w := w, access := true } fun s =>
    let ctx := (s.core core).run.ctx
    let s := s.pass core engine
    if s.fget (R.MS_INFO.OWNER h y.ms) ≠ ctx then s.setEng core engine (noteStatus ST.DENIED)
    else
      (s.fenceIssue h { observer := obsOf core engine, core := core, ctx := ctx, kind := 1, scope := y.scope, ms := y.ms
                        count := y.count }).evalWaits h)

/-- STEP: the engine's step ends. -/
def execStep (core engine : Nat) (w : W64) (s : State) : Res :=
  .next (s.go { c := core, e := engine, op := 0xC5, w := w } fun s =>
    (s.pass core engine).setEng core engine fun g => { g with stepEnd := true })

/-- END: the engine stops; with all four stopped the kernel has ended on the core (R362, R384). -/
def execEndE (core engine : Nat) (w : W64) (s : State) : Res :=
  .next (s.go { c := core, e := engine, op := 0xC6, w := w } fun s =>
    let s := (s.pass core engine).setEng core engine fun g => { g with stopped := true }
    let r := (s.core core).run
    if r.engines.all (·.stopped) then s.kernelEnded core r.ctx 0 else s)

def execNop (core engine : Nat) (w : W64) (s : State) : Res :=
  .next (s.go { c := core, e := engine, op := 0xC7, w := w } fun s => s.pass core engine)

end Sys2Proof.Machine
end

