-- ==== Sys2Proof/Machine/Quanta.lean ====
section
/-! DEFINITION. Frame quanta of a core: the schedule, the exchange of register sets, stops and starts (R331 to R338,
R362, R383, R385). -/

namespace Sys2Proof.Machine

/-- A context holds a started kernel of a kind on the core that no stop awaits. -/
def State.startedKind (s : State) (c ctx kind : Nat) : Bool :=
  s.fget (R.CO_KSTATE.STATE c ctx) == KS.STARTED && s.fget (R.CO_KSTATE.KIND c ctx) == kind
    && (s.core c).stops.all (·.1 != ctx)

/-- Kind and context of frame f (R331, R332, R338). -/
def State.frameKind (s : State) (c f : Nat) : Nat × Nat :=
  let k := s.core c
  if s.fbit (R.CO_POWER.HALT c) || s.unitInReset 1 c || 0 < k.resetDue then (0, k.run.ctx)
  else
    let named := (s.coreEntries (s.activeBank 0)).find? fun e => e.core == c && f % 2 ^ e.plog == e.phase
    match named.filter fun e => s.startedKind c e.ctx 0 with
    | some e => (1, e.ctx)
    | none =>
      let order := (List.range 64).map fun i => (k.lastOpp + 1 + i) % 64
      match (if s.fbit (R.CO_POWER.OPP_STOP c) then none else order.find? fun x => s.startedKind c x 1) with
      | some x => (2, x)
      | none => (0, k.run.ctx)

/-- The standby set goes back to its context's save area. -/
def Core.park (k : Core) : Core :=
  match k.standby with
  | none => k
  | some r => { k with standby := none, saved := kset k.saved r.ctx r }

/-- Loads the standby set of a context from its save area (R334). -/
def Core.load (k : Core) (ctx : Nat) : Core :=
  let k := k.park
  { k with standby := some (kgetD k.saved ctx { ctx := ctx }), saved := kdel k.saved ctx }

/-- ACLK 600: the kind and context of the next frame are fixed, and its register set is loaded. -/
def State.quantumSchedule (s : State) (c : Nat) : State :=
  let n := s.frameKind c (s.now + 1)
  let s := (s.fset (R.CO_STATUS.NEXT_KIND c) n.1).fset (R.CO_STATUS.NEXT_CONTEXT c) n.2
  let k := s.core c
  let stops : List (Nat × Nat × Nat) := k.stops.map fun x => (x.1, x.2.1, 1)
  let fresh : KV Nat := k.fresh.map fun x => (x.1, 1)
  let k := { k with stops := stops, fresh := fresh, resetDue := if k.resetDue = 1 then 2 else k.resetDue }
  if n.1 = 0 ∨ n.2 = k.run.ctx then s.setCore c k.park
  else
    let s := s.setCore c (k.load n.2)
    (s.fset (R.CO_STATUS.STANDBY_CONTEXT c) n.2).fsetb (R.CO_STATUS.STANDBY_VALID c) true

/-- Meaning of QUANTUM_SCHEDULE. -/
def execQuantumSchedule (core : Nat) (s : State) : Res := .next (if 256 ≤ core then s else s.quantumSchedule core)

/-- Meaning of QUANTUM_OVERRUN: a reserved quantum ends with an engine short of step end (R337). -/
def execQuantumOverrun (core : Nat) (s : State) : Res :=
  let r := (s.core core).run
  let f (x : Start) : Start :=
    if x.ctx = r.ctx ∧ x.cores.contains core ∧ (kget x.ended core).isNone then { x with overruns := x.overruns + 1 } else x
  .next (if core < 256 ∧ s.fget (R.CO_STATUS.KIND core) = 1 ∧ r.engines.any (fun g => !g.stopped && !g.stepEnd) then
      let s := ((s.finc (R.CO_STATS.OVERRUN core) 1).almAdd 1 0 128 1).almAdd 5 (core / 16) 40 1
      { s with kern := { s.kern with starts := s.kern.starts.map f } }
    else s)

/-- Run-ahead of the running set is squashed as its quantum ends (R228). -/
def State.squashAhead (s : State) (c : Nat) : State :=
  let k := s.core c
  if k.run.ra.all (·.cutOff) then s
  else (s.setCore c { k with run := k.run.cutAhead }).finc (R.CO_ORDER_STATS.SQUASH c) 1 |>.almAdd 5 (c / 16) 44 1

/-- Stops whose frame has come end their kernels, but for one that ended otherwise before (R385). -/
def State.takeStops (s : State) (c : Nat) : State :=
  let k := s.core c
  let due := k.stops.filter (·.2.2 == 1)
  let s := s.setCore c { k with stops := k.stops.filter (·.2.2 != 1), fresh := k.fresh.filter (·.2 != 1) }
  s.forEach due fun s x =>
    if s.fget (R.CO_KSTATE.STATE c x.1) = KS.STARTED then s.kernelEnded c x.1 x.2.1 else s

/-- The register sets exchange roles and the mover saves the outgoing one; without ACC_LIVE its tiles are lost (R333,
R334). -/
def State.swapSets (s : State) (c ctx : Nat) : State :=
  let k := s.core c
  let old := k.run
  let k := if k.standby.any (·.ctx == ctx) then k else k.load ctx
  let keep := s.fbit (R.CO_PART.VALID c old.ctx)
  let out := if s.fbit (R.CO_PART.ACC_LIVE c old.ctx) then old else { old with acc := [] }
  let k := { k with run := k.standby.getD {}, standby := none, saved := if keep then kset k.saved old.ctx out else k.saved }
  let s := s.setCore c k
  (s.fset (R.CO_STATUS.STANDBY_CONTEXT c) old.ctx).fsetb (R.CO_STATUS.STANDBY_VALID c) keep

/-- ACLK 0: the frame fixed before begins on the core. -/
def State.coreTick (s : State) (c : Nat) : State :=
  let s := (s.squashAhead c).takeStops c
  let kind := s.fget (R.CO_STATUS.NEXT_KIND c)
  let ctx := s.fget (R.CO_STATUS.NEXT_CONTEXT c)
  let s := s.fset (R.CO_STATUS.KIND c) kind
  if kind = 0 then (s.finc (R.CO_STATS2.IDLE_Q c) 1).almAdd 5 (c / 16) 36 1
  else
    let s := if ctx = (s.core c).run.ctx then s else s.swapSets c ctx
    let s := s.fset (R.CO_STATUS.CONTEXT c) ctx
    let k := s.core c
    let k := { k with run := { k.run with engines := k.run.engines.map fun g => { g with stepEnd := false } }
                      lastOpp := if kind = 2 then ctx else k.lastOpp }
    let s := s.setCore c k
    let s := if kind = 1 then (s.finc (R.CO_STATS.RESERVED_Q c) 1).almAdd 5 (c / 16) 28 1
      else (s.finc (R.CO_STATS.OPP_Q c) 1).almAdd 5 (c / 16) 32 1
    let s := s.fsat (R.CO_KSTATE.FRAMES c ctx) 1
    let f (x : Start) : Start :=
      if x.ctx = ctx ∧ x.cores.contains c ∧ (kget x.ended c).isNone then { x with frames := x.frames + 1 } else x
    ({ s with kern := { s.kern with starts := s.kern.starts.map f } }).dmaPump c

end Sys2Proof.Machine
end

