-- ==== Sys2Proof/Machine/Contexts.lean ====
section
/-! DEFINITION. Contexts: CONTEXT_CREATE and CONTEXT_SCRUB (R369 to R371, R387, R424). -/

namespace Sys2Proof.Machine

/-- What is recorded of a context. -/
def State.ctxRec (s : State) (x : Nat) : CtxRec := kgetD s.kern.ctxs x {}

def State.setCtxRec (s : State) (x : Nat) (c : CtxRec) : State :=
  { s with kern := { s.kern with ctxs := kset s.kern.ctxs x c } }

/-! ## Records of translation entries (R170, R371, R373, R377) -/

/-- Words 0 to 2 of the 32-byte record at an offset. -/
def recWords (p : List Byte) (o : Nat) : Nat × Nat × Nat := (field p o 8, field p (o + 8) 8, field p (o + 16) 8)

/-- Request addresses a record covers: first and one past the last. -/
def recRange (w : Nat × Nat × Nat) : Nat × Nat :=
  let a := w.2.1 / 4096 * 4096
  (a, a + 2 ^ bitsOf w.1 12 7)

/-- Two ranges overlap. -/
def rangesMeet (a b : Nat × Nat) : Bool := a.1 < b.2 && b.1 < a.2

/-- Some two records of a list overlap. -/
def anyOverlap : List (Nat × Nat × Nat) → Bool
  | [] => false
  | w :: l => l.any (fun v => rangesMeet (recRange w) (recRange v)) || anyOverlap l

/-- A record names the context, is VALID, has a zero word 3 and would not be ignored. -/
def State.recordOk (s : State) (ctx : Nat) (p : List Byte) (o : Nat) : Bool :=
  let w := recWords p o
  bitAt w.1 0 && bitsOf w.1 6 1 == ctx && field p (o + 24) 8 == 0 && !s.badEntry 0 w

/-- Entries of an instance that are not VALID, lowest first. -/
def State.freeEntries (s : State) (e : Nat) : List Nat := (List.range 4096).filter fun n => !s.fbit (R.TRANS0.VALID e n)

/-- Writes an entry; undefined bits read as 0 (R9). -/
def State.putEntry (s : State) (e n : Nat) (w : Nat × Nat × Nat) : State :=
  ((s.setReg (R.TRANS0.addr e n) (BitVec.ofNat 64 (w.1 % 2 ^ 29))).setReg (R.TRANS1.addr e n)
    (BitVec.ofNat 64 (w.2.1 / 4096 * 4096))).setReg (R.TRANS2.addr e n) (BitVec.ofNat 64 (w.2.2 / 4096 * 4096))

/-- Zeroes all four words of an entry. -/
def State.zeroEntry (s : State) (e n : Nat) : State := s.resetRegs (R.TRANS0.addr e n) (R.TRANS0.addr e n + 32)

/-- Installs records in the lowest free entries: the state and the entries used. -/
def State.install (s : State) (e : Nat) (ws : List (Nat × Nat × Nat)) : State × List Nat :=
  let ns := (s.freeEntries e).take ws.length
  ((List.zip ns ws).foldl (fun s x => s.putEntry e x.1 x.2) s, ns)

/-! ## CONTEXT_CREATE -/

/-- The status R370 gives. -/
def State.createStatus (s : State) (ctx : Nat) (p : List Byte) : Nat :=
  let n := field p 10 1
  let base := field p 6 2
  let count := field p 8 2
  let offs := (List.range n).map fun i => 16 + 32 * i
  let recs := offs.map (recWords p)
  let others := (List.range 64).filter fun x => x != 0 && s.ctxState x != 0
  let quota := others.foldl (fun a x => a + s.fget (R.CP_CTX.INST_QUOTA x)) 0
  if ctx = 0 || s.ctxState ctx != 0 || 64 < n || p.length != 16 + 32 * n || 16 ≤ field p 0 1 || 2 ≤ field p 1 1
      || 8192 < field p 4 2 || 4096 ≤ base || 4096 < count || 4096 < base + count
      || !offs.all (s.recordOk ctx p) || anyOverlap recs then ST.BAD_PARAM
  else if 8192 < quota + field p 4 2
      || others.any (fun x => rangesMeet (base, base + count) ((s.ctxRec x).msBase, (s.ctxRec x).msBase + (s.ctxRec x).msCount)
          && 0 < count && 0 < (s.ctxRec x).msCount)
      || (bitList (field p 2 2) 16).any (fun h => (s.freeEntries h).length < n) then ST.REFUSED_FIT
  else ST.OK

/-- The context becomes ACTIVE (R371). -/
def State.createContext (s : State) (ctx : Nat) (p : List Byte) : State :=
  let recs := (List.range (field p 10 1)).map fun i => recWords p (16 + 32 * i)
  let hubs := bitList (field p 2 2) 16
  let ms := (List.range (field p 8 2)).map (field p 6 2 + ·)
  let s := s.forEach hubs fun s h =>
    (s.install h recs).1.forEach ms fun s m => s.fset (R.MS_INFO.OWNER h m) ctx
  let s := s.setReg (R.CP_CTX.addr ctx)
    (BitVec.ofNat 64 (1 + field p 0 1 * 4 + field p 1 1 * 64 + field p 2 2 * 256 + field p 4 2 * 2 ^ 24))
  s.setCtxRec ctx { msBase := field p 6 2, msCount := field p 8 2, records := recs }

/-- Meaning of CONTEXT_CREATE. -/
def execContextCreate (r : CmdReq) (s : State) : Res :=
  let s := s.begin r
  let st := s.createStatus r.ctx r.payload
  .next ((if st = ST.OK then s.createContext r.ctx r.payload else s).answerSt r st)

/-! ## CONTEXT_SCRUB (R387) -/

/-- Every word of a register range whose value satisfies a test gets a bit cleared. -/
def State.clearWhere (s : State) (lo hi bit : Nat) (p : Nat → Nat → Bool) : State :=
  s.forEach (s.regsIn lo hi) fun s a => if p a.1 a.2.toNat then s.setReg a.1 (BitVec.ofNat 64 (bitClr a.2.toNat bit)) else s

/-- Step 1: the context's work stops. -/
def State.scrubBegin (s : State) (ctx : Nat) : State :=
  let s := s.fset (R.CP_CTX.STATE ctx) 2
  let s := s.forEach (List.range 256) fun s c =>
    let k := s.core c
    let k := { k with xfers := k.xfers.map (abandon ctx) }
    if s.fget (R.CO_KSTATE.STATE c ctx) = KS.STARTED then s.setCore c { k with stops := k.stops.filter (·.1 != ctx) ++ [(ctx, 3, 0)] }
    else if k.xfers.isEmpty then s else s.setCore c k
  let s := s.forEach ((s.rd.insts.map (·.1)).filter fun t => (s.armed t).any (·.ctx == ctx)) fun s t => s.instEnd t ST.POISON
  let s := s.forEach (List.range 17) fun s e =>
    s.clearWhere (epBase e + 0x1000) (epBase e + 0x1800) 0 fun _ v => bitsOf v 12 7 == ctx
  let s := s.forEach (List.range 16) fun s h =>
    s.clearWhere (R.HB_MIRROR0.addr h 0) (R.HB_MIRROR0.addr h 0 + 0x400) 0 fun a v =>
      (a - R.HB_MIRROR0.addr h 0) % 64 == 0 && bitsOf v 6 1 == ctx
  let s := s.forEach ((List.range 256).filter fun q =>
      s.fbit (R.HE_QP0.VALID q) && s.fget (R.HE_QP0.CONTEXT q) == ctx) fun s q => s.fset (R.HE_QP0.STATE q) 2
  s.forEach ((List.range 1024).filter fun k => s.fget (R.HE_MR0.CONTEXT k) == ctx) fun s k => s.fsetb (R.HE_MR0.VALID k) false

/-- Meaning of CONTEXT_SCRUB. -/
def execContextScrub (r : CmdReq) (s : State) : Res :=
  let s := s.begin r
  .next (
    if r.ctx = 0 then s.answerSt r ST.BAD_PARAM
    else match s.ctxRefusal r.ctx with
      | some st => s.answerSt r st
      | none =>
        let s := (s.scrubBegin r.ctx).pend r 0
        s.setCtxRec r.ctx { s.ctxRec r.ctx with scrub := some (1, r.owner, r.tag) })

/-- Nothing of the context is outstanding (step 2). -/
def State.scrubDrained (s : State) (ctx : Nat) : Bool :=
  (List.range 17).all (fun e => (s.ep e).reqs.all (·.r.ctx != ctx) && (s.ep e).members.all (·.ctx != ctx))
    && s.cores.all fun k => k.2.xfers.all (fun x => x.ctx != ctx || x.open_ == 0) && k.2.stops.all (·.1 != ctx)

/-- Releases a context's partition and code on a core: every unit outside a partition holds zero (R376). -/
def State.releasePart (s : State) (c ctx : Nat) : State :=
  if !s.fbit (R.CO_PART.VALID c ctx) then s
  else
    let k := s.core c
    let lo := 16384 * s.fget (R.CO_PART.BASE c ctx)
    let hi := lo + 16384 * s.fget (R.CO_PART.UNITS c ctx)
    let a := s.fget (R.CO_PART.CODE_BASE c ctx)
    let b := a + s.fget (R.CO_PART.CODE_LEN c ctx)
    let k := { k with
      scratch := k.scratch.filter fun e => !(lo ≤ e.1 && e.1 < hi)
      code := k.code.filter fun e => !(a ≤ e.1 && e.1 < b)
      saved := kdel k.saved ctx
      standby := k.standby.filter (·.ctx != ctx)
      run := if k.run.ctx = ctx then { ctx := ctx } else k.run
      xfers := k.xfers.filter (·.ctx != ctx)
      ringNext := kdel k.ringNext ctx
      batch := kdel k.batch ctx }
    ((s.setCore c k).setReg (R.CO_PART.addr c ctx) 0).setReg (R.CO_KSTATE.addr c ctx) 0

/-- A core leaves a load; with its last core the load's records go (R377). -/
def State.leaveLoad (s : State) (c ctx : Nat) : State :=
  match s.kern.loads.find? fun l => l.ctx == ctx && l.cores.contains c with
  | none => s
  | some l =>
    let cores := l.cores.filter (· != c)
    let keep := s.kern.loads.filter (·.id != l.id)
    if cores.isEmpty then
      { s.forEach l.trans fun s n => s.zeroEntry l.hub n with kern := { s.kern with loads := keep } }
    else { s with kern := { s.kern with loads := keep ++ [{ l with cores := cores }] } }

/-- Step 3: nothing of the context remains. -/
def State.scrubZero (s : State) (ctx : Nat) : State :=
  let s := s.forEach (List.range 256) fun s c => (s.releasePart c ctx).leaveLoad c ctx
  let x := s.ctxRec ctx
  let s := s.forEach (List.range 17) fun s e =>
    let s := s.forEach ((List.range 4096).filter fun n => s.fbit (R.TRANS0.VALID e n) && s.fget (R.TRANS0.CONTEXT e n) == ctx)
      fun s n => s.zeroEntry e n
    let s := s.dropLines e (·.1 == ctx)
    let mine := (List.range 4096).filter fun m => s.fget (R.MS_INFO.OWNER e m) == ctx
    let s := s.forEach mine fun s m => (s.setReg (R.MS_COUNT.addr e m) 0).setReg (R.MS_INFO.addr e m) 0
    s.forEach ((s.ep e).waits.filter fun w => w.ctx == ctx || mine.contains w.ms) fun s w => s.waitEnd e w ST.DENIED
  let s := s.setReg (R.TB_CTX_OVER.addr ctx) 0
  let s := s.setReg (R.CP_CTX.addr ctx) 0
  s.setCtxRec ctx { x with msBase := 0, msCount := 0, records := [], scrub := none }

/-- Meaning of SCRUB_DRAIN_DONE: steps 3 and 4. -/
def execScrubDrainDone (ctx : Nat) (s : State) : Res :=
  .next (match (s.ctxRec ctx).scrub with
    | some (_, owner, tag) =>
      if ctx < 64 ∧ s.ctxState ctx = 2 ∧ s.scrubDrained ctx then (s.scrubZero ctx).complete owner tag ST.OK 0 [] else s
    | none => s)

end Sys2Proof.Machine
end

