-- ==== Sys2Proof/Machine/FrameFit.lean ====
section
/-! DEFINITION. The loader's figures of a reserved kernel: frame fit and step power (R378 to R380). -/

namespace Sys2Proof.Machine

/-- A bound record. -/
structure BoundRec where
  pc : Nat
  engine : Nat
  kind : Nat
  value : Nat
  deriving DecidableEq, Repr

def boundOf (v : Nat) : BoundRec := { pc := v % 2 ^ 15, engine := bitsOf v 16 15, kind := bitsOf v 18 17, value := v / 2 ^ 32 }

/-- VALUE of the record of a kind at a PC of an engine. -/
def boundAt (bs : List BoundRec) (e pc kind : Nat) : Option Nat :=
  (bs.find? fun b => b.pc == pc && b.engine == e && b.kind == kind).map (·.value)

/-! ## What an instruction reads, writes and costs -/

/-- Keys of results: s registers 0-31, v registers 32-63, x registers 64-67, tiles 128-131, and
192-195 for the update an MMA leaves outstanding in a tile. -/
def resultOf (w : W64) : Option Nat :=
  let op := opOf w
  if op < 0x18 ∨ op = 0x1E ∨ op = 0x20 ∨ op = 0x22 ∨ op = 0x24 ∨ op = 0x25 then some (wf w 12 8)
  else if 0x40 ≤ op ∧ op < 0x60 ∧ op ≠ 0x42 then some (32 + wf w 12 8)
  else if op = 0x80 then some (192 + wf w 9 8)
  else if 0x81 ≤ op ∧ op < 0x84 ∧ (op ≠ 0x82 ∨ (fmtM w).clr = 1) then some (128 + wf w 9 8)
  else if op = 0xE3 then some (64 + wf w 11 10)
  else if op = 0xE0 ∨ op = 0xE1 ∨ op = 0xE5 ∨ op = 0xE6 then some (64 + wf w 9 8)
  else none

/-- Scalar register a memory request returns a value to. -/
def requestDest (w : W64) : Option Nat :=
  let op := opOf w
  if (0x28 ≤ op ∧ op ≤ 0x2A) ∨ (0x30 ≤ op ∧ op ≤ 0x32 ∧ (fmtQ w).f = 1) then some (wf w 12 8) else none

/-- Keys an instruction reads (R343). An MMA does not wait for the update of an earlier one of its tile, which only MOUT,
MZERO and MLOAD await (*Frame-fit charges*). -/
def sourcesOf (e : Nat) (w : W64) : List Nat :=
  let op := opOf w
  let a := wf w 17 13
  let b := wf w 22 18
  if op < 0x13 then (if (fmtS w).i = 1 then [a] else [a, b])
  else if op = 0x14 ∨ op = 0x1F ∨ op = 0x20 ∨ op = 0x22 then [a]
  else if (0x18 ≤ op ∧ op < 0x1E) ∨ op = 0x21 ∨ op = 0x23 then [a, b]
  else if 0x28 ≤ op ∧ op ≤ 0x2A then [a]
  else if op = 0x2C ∨ op = 0x2D ∨ op = 0x34 then [a, b]
  else if 0x30 ≤ op ∧ op ≤ 0x32 then [a, b, wf w 27 23]
  else if op = 0x36 ∨ op = 0x37 then [a]
  else if op = 0x40 ∨ op = 0x41 then [64 + (fmtV w).x]
  else if op = 0x42 then [64 + (fmtV w).x, 32 + wf w 12 8]
  else if op = 0x4B then [32 + a, 32 + b, 32 + wf w 27 23]
  else if op = 0x4E then [32 + a, 32 + b, 32 + wf w 27 23, 32 + wf w 12 8]
  else if 0x48 ≤ op ∧ op < 0x4E then [32 + a, 32 + b]
  else if 0x50 ≤ op ∧ op < 0x59 then [32 + a]
  else if op = 0x80 then [64 + (fmtM w).xa, 64 + (fmtM w).xb, 128 + wf w 9 8]
  else if op = 0x81 then [128 + wf w 9 8, 192 + wf w 9 8]
  else if op = 0x82 ∨ op = 0x83 then [64 + (fmtM w).xa, 128 + wf w 9 8, 192 + wf w 9 8]
  else if 0xA0 ≤ op ∧ op < 0xC0 then [64 + (fmtD w).xm, 64 + (fmtD w).xs]
  else if op = 0xC2 ∨ op = 0xC3 then (if e = 2 then [(fmtY w).reg] else [64 + (fmtY w).reg % 4])
  else if 0xE1 ≤ op ∧ op < 0xF0 ∧ op ≠ 0xE4 ∧ op ≠ 0xE5 then [64 + wf w 11 10]
  else []

/-- ACLK of an MMA (R318). -/
def mmaAclk (x : FM) : Nat :=
  let r (f : Nat) : Nat := if f = 7 then 16 else if f = 1 ∨ f = 2 then 128 else 32
  x.kg * max (r x.fa) (r x.fb)

/-- Issue ACLK of an MOUT. -/
def moutAclk (f : Nat) : Nat :=
  if f = 0 then 32 else if f = 1 ∨ f = 2 then 16 else (if f ≤ 4 then 8 else if f ≤ 6 then 6 else 4) + 1

/-- ACLK after which the engine's next instruction issues, without waits (*Frame-fit charges*). -/
def issueCost (w : W64) (direct taken : Bool) : Nat :=
  let op := opOf w
  if op = 0x1E ∨ op = 0x1F ∨ op = 0xE4 then 2
  else if taken then 2
  else if (0x20 ≤ op ∧ op ≤ 0x23) ∨ (0x40 ≤ op ∧ op ≤ 0x42) then 4
  else if op = 0x80 then mmaAclk (fmtM w) + 3
  else if op = 0x82 then moutAclk (fmtM w).fa + 3
  else if op = 0x83 then 35
  else if op = 0xA4 then ceilDiv (fmtD w).len 256 + 3
  else if 0xA0 ≤ op ∧ op < 0xA4 then ceilDiv (fmtD w).len (if direct then 256 else 64) + 8
  else 1

/-- ACLK after issue at which the result can be read. -/
def resultCost (w : W64) : Nat :=
  let op := opOf w
  if op = 0x02 ∨ op = 0x03 then 3
  else if op = 0x0E ∨ op = 0x0F then 34
  else if op = 0x20 ∨ op = 0x22 then 6
  else if op = 0x24 then 3
  else if op = 0x40 ∨ op = 0x41 then 7
  else if (0x48 ≤ op ∧ op ≤ 0x4E) ∨ op = 0x58 then 6
  else if 0x50 ≤ op ∧ op ≤ 0x52 then 12
  else if op = 0x54 ∨ op = 0x55 then 10
  else if op = 0x80 then mmaAclk (fmtM w) + 27
  else if op = 0x82 then moutAclk (fmtM w).fa + 3
  else if op = 0x83 then 36
  else 1

/-- Scratch sectors an instruction reads and writes. -/
def sectorsOf (w : W64) : Nat :=
  let op := opOf w
  let opnd (f ns kg : Nat) : Nat := ceilDiv (kg * (256 * typeWidth f + (if isMx f && ns == 0 then 64 else 0))) 32
  if (0x20 ≤ op ∧ op ≤ 0x23) ∨ op = 0x41 then 1
  else if op = 0x40 ∨ op = 0x42 then (if (fmtV w).half = 1 then 4 else 8)
  else if op = 0x80 then
    let x := fmtM w
    opnd x.fa x.nsa x.kg + opnd x.fb x.nsb x.kg
  else if op = 0x82 then 16 * typeWidth (fmtM w).fa + (if isMx (fmtM w).fa then 4 else 0)
  else if op = 0x83 then 512
  else if 0xA0 ≤ op ∧ op < 0xA4 then ceilDiv (fmtD w).len 32
  else if op = 0xA4 then 2 * ceilDiv (fmtD w).len 32
  else 0

/-- Bytes of memory traffic charged. Every line of a DMAADD is an atomic of 128 bytes (assumption 64). -/
def trafficOf (w : W64) : Nat :=
  let op := opOf w
  if 0x28 ≤ op ∧ op ≤ 0x2A then 2 ^ (fmtQ w).sz
  else if (0x2C ≤ op ∧ op ≤ 0x2D) ∨ (0x30 ≤ op ∧ op ≤ 0x32) then 128
  else if op = 0xA0 ∨ op = 0xA1 then (fmtD w).len
  else if op = 0xA2 then (if (fmtD w).len < 64 then 128 else (fmtD w).len)
  else if op = 0xA3 then 128 * ceilDiv (fmtD w).len 64
  else 0

/-- pJ of an instruction (*Energy charges*). -/
def energyOf (w : W64) : Nat :=
  let op := opOf w
  let mma := if op = 0x80 then
      let x := fmtM w
      let r (f : Nat) : Nat := if f = 7 then 400 else if f = 1 ∨ f = 2 then 3200 else 800
      32 * x.kg * max (r x.fa) (r x.fb)
    else 0
  let tile := if op = 0x81 then 20 else if op = 0x82 then 20 * moutAclk (fmtM w).fa else if op = 0x83 then 640 else 0
  10 + mma + tile + (if 0x48 ≤ op ∧ op ≤ 0x58 then 120 else 0) + 4 * sectorsOf w + 30 * trafficOf w

/-! ## Paths -/

/-- A path through a segment, so far. -/
structure FitPath where
  time : Nat := 0
  energy : Nat := 0
  /-- ACLK at which a result can be read, by key. -/
  ready : KV Nat := []
  /-- Scalar registers a memory request left pending. -/
  pend : List Nat := []
  /-- Executions of backward branches, by PC. -/
  loops : KV Nat := []
  dmas : Nat := 0
  /-- A memory request of the engine precedes. -/
  asked : Bool := false

/-- The largest figures over paths, and the first instruction that is refused. -/
structure FitRes where
  fit : Nat := 0
  energy : Nat := 0
  fail : Option Nat := none
  deriving DecidableEq, Repr

def FitRes.join (a b : FitRes) : FitRes :=
  { fit := max a.fit b.fit, energy := max a.energy b.energy, fail := if a.fail.isSome then a.fail else b.fail }

/-- The instruction waits (*Frame-fit charges*): a fence or wait always; a milestone add or token signal once something
it waits for precedes it; a seventeenth transfer; a read of a pending register. -/
def waitsAt (e : Nat) (w : W64) (p : FitPath) : Bool :=
  let op := opOf w
  op == 0xC0 || op == 0xC2 || op == 0xC3 || (op == 0xC4 && (p.asked || 0 < p.dmas)) || (op == 0xC1 && 0 < p.dmas)
    || (0xA0 ≤ op && op < 0xC0 && 16 ≤ p.dmas) || (sourcesOf e w).any p.pend.contains

/-- Signed distance of a branch. -/
def branchBy (w : W64) : Int := if opOf w < 0x40 then (fmtS w).imm.toInt else (fmtX w).imm.toInt

/-- Distances of an instruction's successors: next, taken. -/
def goesNext (op : Nat) : Bool := op != 0x1E && op != 0x1F && op != 0xE4 && op != 0xC5 && op != 0xC6
def canBranch (op : Nat) : Bool := (0x18 ≤ op && op ≤ 0x1E) || (0xE2 ≤ op && op ≤ 0xE4)

/-- The path after an instruction that issues at t. -/
def FitPath.after (p : FitPath) (w : W64) (t next : Nat) : FitPath :=
  let op := opOf w
  let ready := match resultOf w with
    | some k => if k = 0 then p.ready else kset p.ready k (t + resultCost w)
    | none => p.ready
  let pend := match requestDest w with
    | some d => if d = 0 then p.pend else addNew p.pend d
    | none => p.pend
  { p with time := next, energy := p.energy + energyOf w, ready := ready, pend := pend
           dmas := if 0xA0 ≤ op ∧ op < 0xC0 then p.dmas + 1 else p.dmas
           asked := p.asked || (0x28 ≤ op && op < 0x36) }

/-- The figures over every path from a PC on. Every instruction takes an ACLK, so the fuel bounds a path that fits. -/
def fitFrom (code : List W64) (bs : List BoundRec) (e : Nat) : Nat → Nat → FitPath → FitRes
  | 0, pc, _ => { fail := some pc }
  | n + 1, pc, p =>
    match code[pc]? with
    | none => { energy := p.energy }
    | some w =>
      let op := opOf w
      let srcs := sourcesOf e w
      let t := srcs.foldl (fun t k => max t (kgetD p.ready k 0)) p.time
      if 999 < t ∨ op = 0x1F ∨ op = 0x36 ∨ op = 0x37 then { fail := some pc }
      else
        let wait := waitsAt e w p
        match (if wait then boundAt bs e pc 1 else some 0) with
        | none => { fail := some pc }
        | some v =>
          let p := { p with pend := p.pend.filter fun r => !srcs.contains r }
          let direct := (boundAt bs e pc 2).isSome
          if op = 0xC5 ∨ op = 0xC6 then { fit := t, energy := p.energy + energyOf w }
          else
            let issued := if wait then max t v else t
            let next (taken : Bool) : Nat := issued + (if wait then 1 else issueCost w direct taken)
            let onward := if goesNext op then fitFrom code bs e n (pc + 1) (p.after w issued (next false)) else {}
            if !canBranch op then onward
            else
              let target : Int := (pc : Int) + branchBy w
              let taken := p.after w issued (next true)
              if target < 0 then onward.join { energy := taken.energy }
              else if (pc : Int) < target then onward.join (fitFrom code bs e n target.toNat taken)
              else
                match boundAt bs e pc 0 with
                | none => { fail := some pc }
                | some lim =>
                  let k := kgetD p.loops pc 0 + 1
                  if lim < k then {}
                  else
                    let q := { taken with loops := kset taken.loops pc k }
                    let onward := if goesNext op then
                        fitFrom code bs e n (pc + 1) { p.after w issued (next false) with loops := kset p.loops pc k } else {}
                    onward.join (fitFrom code bs e n target.toNat q)

/-- PCs an engine can reach from a list of PCs. -/
def reachFrom (code : List W64) : Nat → List Nat → List Nat → List Nat
  | 0, _, seen => seen
  | _ + 1, [], seen => seen
  | n + 1, pc :: l, seen =>
    if seen.contains pc then reachFrom code n l seen
    else match code[pc]? with
      | none => reachFrom code n l seen
      | some w =>
        let op := opOf w
        let next := if goesNext op ∨ op = 0xC5 then [pc + 1] else []
        let target : Int := (pc : Int) + branchBy w
        let jump := if canBranch op ∧ 0 ≤ target then [target.toNat] else []
        reachFrom code n (next ++ jump ++ l) (seen ++ [pc])

/-- The figures of one engine over its segments (R378, R380). -/
def fitEngine (code : List W64) (bs : List BoundRec) (e entry : Nat) : FitRes :=
  if entry = 0x7FFF then {}
  else
    let seen := reachFrom code (3 * code.length + 3) [entry] []
    let starts := entry :: (seen.filter fun pc => (code[pc]?).any fun w => opOf w == 0xC5).map (· + 1)
    starts.foldl (fun r pc => r.join (fitFrom code bs e 1001 pc {})) {}

/-- The figures of a kernel: FIT_ACLK, the step's energy, and the first engine and PC refused. -/
def fitKernel (code : List W64) (bs : List BoundRec) (entries : List Nat) : Nat × Nat × Option (Nat × Nat) :=
  let rs := (List.range 4).map fun e => fitEngine code bs e ((entries[e]?).getD 0x7FFF)
  let bad := (List.range 4).findSome? fun e => ((rs[e]?).bind (·.fail)).map (e, ·)
  (rs.foldl (fun a r => max a r.fit) 0, 150000 + rs.foldl (fun a r => a + r.energy) 0, bad)

/-- STEP_POWER in 0.1 W (R380). -/
def stepPower (energy : Nat) : Nat := ceilDiv energy 100000

end Sys2Proof.Machine
end

