-- ==== Sys2Proof/Machine/Kernels.lean ====
section
/-! DEFINITION. Kernels: images, the loader, start, stop and end (R372 to R377, R381, R383 to R386, R388, R503). -/

namespace Sys2Proof.Machine

/-! ## Images (R372, R373) -/

/-- The parts of an image. -/
structure Image where
  kind : Nat := 0
  accLive : Bool := false
  entries : List Nat := []
  code : List W64 := []
  bounds : List BoundRec := []
  recs : List (Nat × Nat × Nat) := []
  init : List Byte := []
  scratch : Nat := 0

/-- Words of the code. -/
def imageCode (p : List Byte) : List W64 := (List.range (field p 12 4)).map fun i => BitVec.ofNat 64 (field p (64 + 8 * i) 8)

/-- Offset of the bound records, and of the translation records. -/
def boundsAt (p : List Byte) : Nat := 64 + 8 * field p 12 4
def transAt (p : List Byte) : Nat := boundsAt p + 8 * field p 24 2

/-- Units of the save area. -/
def saveUnits (acc : Bool) : Nat := if acc then 5 else 1

/-- Reads an image whose sizes agree. -/
def imageOf (p : List Byte) : Image :=
  { kind := field p 2 1, accLive := field p 3 1 == 1, entries := (List.range 4).map fun e => field p (4 + 2 * e) 2
    code := imageCode p, bounds := (List.range (field p 24 2)).map fun i => boundOf (field p (boundsAt p + 8 * i) 8)
    recs := (List.range (field p 26 1)).map fun i => recWords p (transAt p + 32 * i)
    init := bytesAt p (transAt p + 32 * field p 26 1) (field p 20 4), scratch := field p 16 4 }

/-- The header's fields lie in range and the sizes add up. -/
def headerOk (p : List Byte) : Bool :=
  64 ≤ p.length && field p 0 2 == 0x4B05 && field p 2 1 ≤ 1 && field p 3 1 ≤ 1 && 1 ≤ field p 12 4 && field p 12 4 ≤ 32768
    && field p 16 4 ≤ 16384 * (256 - saveUnits (field p 3 1 == 1)) && field p 20 4 ≤ field p 16 4 && field p 24 2 ≤ 4096
    && field p 26 1 ≤ 16
    && p.length == transAt p + 32 * field p 26 1 + field p 20 4
    && (List.range 4).all fun e => field p (4 + 2 * e) 2 == 0x7FFF || field p (4 + 2 * e) 2 < field p 12 4

/-- The engine class of an opcode, for the check of its fields: 2 where every engine executes it. -/
def classEngine (op : Nat) : Nat :=
  if op < 0x40 then 2 else if op < 0x80 then 1 else if op < 0xA0 then 0 else if op < 0xC0 then 3 else if op < 0xE0 then 2
  else 0

/-- A code word that never faults under R341 nor for its formats: only register values can fault at run time. -/
def codeWordOk (w : W64) : Bool := wordOk (classEngine (opOf w)) w && (opOf w != 0x80 || pairOk (fmtM w))

/-- The first of the bound records that an earlier one shares PC, ENGINE and KIND with. -/
def boundRepeat : List BoundRec → Option BoundRec
  | [] => none
  | b :: l => (l.find? fun c => c.pc == b.pc && c.engine == b.engine && c.kind == b.kind).or (boundRepeat l)

/-- A bound record names code, a kind, and a value in range; its reserved bits are ignored (R9). -/
def boundOk (words : Nat) (b : BoundRec) : Bool :=
  b.pc < words && b.kind < 3
    && (if b.kind = 0 then 1 ≤ b.value else if b.kind = 1 then b.value ≤ 999 else b.value == 0)

/-- A kernel record lies in one of the context's standing records, with its WINDOW and no permission beyond it. -/
def withinStanding (stand : List (Nat × Nat × Nat)) (w : Nat × Nat × Nat) : Bool :=
  let lo (v : Nat × Nat × Nat) : Nat := v.2.2 / 4096 * 4096
  let hi (v : Nat × Nat × Nat) : Nat := lo v + 2 ^ bitsOf v.1 12 7
  stand.any fun v => lo v ≤ lo w && hi w ≤ hi v && bitsOf v.1 28 17 == bitsOf w.1 28 17
    && [13, 14, 15].all fun b => !bitAt w.1 b || bitAt v.1 b

/-- The loads of a context that end when its kernel on some cores is replaced. -/
def State.freedLoads (s : State) (ctx : Nat) (cores : List Nat) : List Load :=
  s.kern.loads.filter fun l => l.ctx == ctx && l.cores.all cores.contains

/-- Records a context keeps in hub h's instance when its kernel on some cores is replaced: the standing ones and those of
its other loads there (assumption 125). -/
def State.recordsOf (s : State) (h ctx : Nat) (cores : List Nat) : List (Nat × Nat × Nat) :=
  let gone := ((s.freedLoads ctx cores).map (·.trans)).flatten
  ((List.range 4096).filter fun n => s.fbit (R.TRANS0.VALID h n) && s.fget (R.TRANS0.CONTEXT h n) == ctx && !gone.contains n).map
    fun n => ((s.reg (R.TRANS0.addr h n)).toNat, (s.reg (R.TRANS1.addr h n)).toNat, (s.reg (R.TRANS2.addr h n)).toNat)

/-- The instruction of the first bound record or code word that R372 refuses, as engine and PC. -/
def Image.fault (i : Image) : Option (Nat × Nat) :=
  match (i.bounds.find? fun b => !boundOk i.code.length b).or (boundRepeat i.bounds) with
  | some b => some (b.engine, b.pc)
  | none => (i.code.zipIdx.find? fun w => !codeWordOk w.1).map fun w => (classEngine (opOf w.1), w.2)

/-- Progress of a refusal on a core: the instruction concerned, or zero. -/
def progressOf (core : Nat) : Option (Nat × Nat) → Nat
  | some x => core * 2 ^ 17 + x.1 * 2 ^ 15 + x.2
  | none => 0

/-- The status of check 4 for an image. -/
def State.imageStatus (s : State) (h ctx : Nat) (cores : List Nat) (p : List Byte) : Nat :=
  if !headerOk p then ST.BAD_PARAM
  else
    let i := imageOf p
    let recsOk := (List.range (field p 26 1)).all fun k => s.recordOk ctx p (transAt p + 32 * k)
    if i.fault.isSome || !recsOk then ST.BAD_PARAM
    else
      let stand := (s.ctxRec ctx).records
      if !i.recs.all (withinStanding stand) then ST.DENIED
      else if anyOverlap i.recs
          || i.recs.any (fun w => (stand ++ s.recordsOf h ctx cores).any fun v => rangesMeet (recRange v) (recRange w)) then
        ST.BAD_PARAM
      else ST.OK

/-! ## Parameter blocks of standard kernels (R388 to R394) -/

/-- A power of two up to a limit. -/
def isPow2 (n lo hi : Nat) : Bool := lo ≤ n && n ≤ hi && 2 ^ log2 n == n

/-- Bytes of the block that its table names, as offset and size. -/
def stdFields (std : Nat) : List (Nat × Nat) :=
  match std with
  | 1 => [(0, 54), (56, 37), (96, 8)]
  | 2 => [(0, 21), (24, 24)]
  | 3 => [(0, 12), (16, 6), (24, 4)]
  | 4 => [(0, 12), (16, 1)]
  | _ => [(0, 12)]

/-- Fields the tables do not name are zero. -/
def stdZero (std : Nat) (b : List Byte) : Bool :=
  (List.range 248).all fun i => (stdFields std).any (fun f => f.1 ≤ i && i < f.1 + f.2) || field b i 1 == 0

/-- The fields of a block lie in range; R cores. -/
def stdRange (std r : Nat) (b : List Byte) : Bool :=
  match std with
  | 1 => 0 < field b 40 4 && field b 40 4 % (64 * r) == 0 && field b 48 2 < 4096 && field b 50 2 < 4096 && field b 52 2 < 4096
      && field b 92 1 ≤ 1
  | 2 => 64 ≤ field b 16 2 && field b 16 2 ≤ 4096 && field b 16 2 % 64 == 0 && field b 18 1 ≤ 2 && field b 19 1 ≤ 1
      && field b 20 1 ≤ 2 && isPow2 (field b 32 4) 1 65536
  | 3 => isPow2 (field b 8 4) 1 65536 && (field b 16 2 == 64 || field b 16 2 == 128) && (field b 18 1 == 1 || field b 18 1 == 3)
      && 1 ≤ field b 19 1 && field b 19 1 ≤ 16 && isPow2 (field b 20 2) 16 256
  | 4 => isPow2 (field b 8 4) 1 65536 && field b 16 1 ≤ 1
  | _ => isPow2 (field b 8 4) 1 65536

/-- Request addresses of a block with the permissions the kernel needs: read, write. -/
def stdAddrs (std : Nat) (b : List Byte) : List (Nat × Bool × Bool) :=
  match std with
  | 1 => [(field b 0 8, true, false), (field b 8 8, true, true), (field b 16 8, true, true), (field b 24 8, true, true),
      (field b 32 8, false, true)]
  | 2 => [(field b 0 8, true, false), (field b 24 8, true, false), (field b 40 8, true, false)]
  | _ => [(field b 0 8, true, false)]

/-- The status of check 4 for a parameter block. -/
def State.blockStatus (s : State) (h ctx std r : Nat) (b : List Byte) : Nat :=
  if b.length ≠ 248 || !stdZero std b || !stdRange std r b then ST.BAD_PARAM
  else if (stdAddrs std b).any fun a =>
      match s.lookup h ctx a.1 with
      | none => true
      | some x => (a.2.1 && !x.read) || (a.2.2 && !x.write) then ST.DENIED
  else ST.OK

/-! ## Placement (R375, R376) -/

/-- The lowest start of a run of n free places below `size`. -/
def firstRun (used : List (Nat × Nat)) (n size : Nat) : Option Nat :=
  (0 :: used.map (·.2)).foldl (fun best a =>
    if a + n ≤ size ∧ used.all (fun u => !rangesMeet u (a, a + n)) ∧ best.all (a < ·) then some a else best) none

/-- Contexts other than one that hold a partition on a core. -/
def State.holders (s : State) (c ctx : Nat) : List Nat :=
  (List.range 64).filter fun x => x != ctx && s.fbit (R.CO_PART.VALID c x)

/-- Whether the old partition of the context is kept: same UNITS and ACC_LIVE. -/
def State.keepsPart (s : State) (c ctx units : Nat) (acc : Bool) : Bool :=
  s.fbit (R.CO_PART.VALID c ctx) && s.fget (R.CO_PART.UNITS c ctx) == units && s.fbit (R.CO_PART.ACC_LIVE c ctx) == acc

/-- Where a kernel's partition and code would go on a core. -/
def State.placeKernel (s : State) (c ctx units words : Nat) (acc : Bool) : Option (Nat × Nat) :=
  let hs := s.holders c ctx
  let parts := hs.map fun x => (s.fget (R.CO_PART.BASE c x), s.fget (R.CO_PART.BASE c x) + s.fget (R.CO_PART.UNITS c x))
  let codes := hs.map fun x =>
    (s.fget (R.CO_PART.CODE_BASE c x), s.fget (R.CO_PART.CODE_BASE c x) + s.fget (R.CO_PART.CODE_LEN c x))
  let part := if s.keepsPart c ctx units acc then some (s.fget (R.CO_PART.BASE c ctx)) else firstRun parts units 256
  match part, firstRun codes words 32768 with
  | some b, some k => some (b, k)
  | _, _ => none

/-! ## KERNEL_LOAD (R374) -/

/-- What a load places, from an image or for a standard kernel. Where the spec gives no figure of a standard kernel
(its partition, code, FIT_ACLK up to 990 and STEP_POWER) the value is free (assumption 65). -/
structure LoadPlan where
  std : Nat := 0
  reserved : Bool := true
  accLive : Bool := false
  units : Nat := 2
  words : Nat := 1
  fit : Nat := 0
  power : Nat := 0
  bad : Option (Nat × Nat) := none
  img : Image := {}

def State.loadPlan (s : State) (p : List Byte) : LoadPlan :=
  let std := field p 0 1
  if std = 0 then
    let i := imageOf (p.drop 8)
    let f := if i.kind = 0 then fitKernel i.code i.bounds i.entries else (0, 0, none)
    { std := 0, reserved := i.kind == 0, accLive := i.accLive
      units := max 2 (ceilDiv i.scratch 16384 + saveUnits i.accLive), words := i.code.length
      fit := f.1, power := if i.kind = 0 then stepPower f.2.1 else 0, bad := f.2.2, img := i }
  else
    let v := s.freeVal
    let res := bitAt (field p 1 1) 0
    { std := std, reserved := res, units := 2 + v % 255, words := 1 + v / 256 % 32768
      fit := if res then v / 2 ^ 24 % 991 else 0, power := if res then v / 2 ^ 34 % 4096 else 0 }

/-- Cores a mask names on a hub. -/
def maskCores (h mask : Nat) : List Nat := (bitList mask 16).map (16 * h + ·)

/-- A loader or start refusal by sled state or HALT. -/
def State.runRefusal (s : State) (cores : List Nat) : Option Nat :=
  if s.sled ≠ SS.SERVICE ∧ s.sled ≠ SS.DEGRADED then some ST.BUSY
  else if cores.any fun c => s.fbit (R.CO_POWER.HALT c) then some ST.THERMAL
  else none

/-- Translation entries those loads give back. -/
def State.freedEntries (s : State) (ctx : Nat) (cores : List Nat) : Nat :=
  (s.freedLoads ctx cores).foldl (fun a l => a + l.trans.length) 0

/-- Checks 1 to 7: status and progress, which names the lowest named core where an instruction is concerned (assumption
152). -/
def State.loadStatus (s : State) (ctx : Nat) (p : List Byte) (l : LoadPlan) : Nat × Nat :=
  let h := field p 2 1 % 16
  let cores := maskCores h (field p 4 2)
  let first := cores.headD 0
  match s.runRefusal cores with
  | some st => (st, 0)
  | none =>
    if p.length < 8 || cores.isEmpty || 16 ≤ field p 2 1 || 5 < field p 0 1 || 2 ≤ field p 1 1
        || (field p 0 1 == 0 && field p 1 1 != 0) then (ST.BAD_PARAM, 0)
    else if !bitAt (s.fget (R.CP_CTX.HUB_MASK ctx)) h then (ST.DENIED, 0)
    else if cores.any fun c => s.fget (R.CO_KSTATE.STATE c ctx) == KS.STARTED then (ST.BUSY, 0)
    else
      let st := if l.std = 0 then s.imageStatus h ctx cores (p.drop 8) else s.blockStatus h ctx l.std cores.length (p.drop 8)
      if st ≠ ST.OK then (st, if l.std = 0 && headerOk (p.drop 8) then progressOf first l.img.fault else 0)
      else
        let full := cores.any fun c => (s.placeKernel c ctx l.units l.words l.accLive).isNone
        let noRoom := (s.freeEntries h).length + s.freedEntries ctx cores < l.img.recs.length
        if full || noRoom then (ST.REFUSED_FIT, 0)
        else if l.reserved && l.bad.isSome then (ST.REFUSED_FIT, progressOf first l.bad)
        else if l.reserved && s.fget R.TB_POWER.LIMIT < s.fget R.TB_POWER.FLOOR + l.power then (ST.REFUSED_POWER, 0)
        else (ST.OK, 0)

/-- Zeroes the scratch of the context's partition on a core and places it anew; a kept partition keeps its contents until
INIT_BYTES are copied over it. -/
def State.loadCore (s : State) (ctx : Nat) (l : LoadPlan) (c : Nat) : State :=
  match s.placeKernel c ctx l.units l.words l.accLive with
  | none => s
  | some (base, code) =>
    let keep := s.keepsPart c ctx l.units l.accLive
    let old := (s.core c).scratch
    let s := (s.releasePart c ctx).leaveLoad c ctx
    let k := s.core c
    let scratch := Memory.write (if keep then old else k.scratch) (16384 * base) l.img.init
    let words := (l.img.code.foldl (fun (a : KV W64 × Nat) w => (kset a.1 (code + a.2) w, a.2 + 1)) (k.code, 0)).1
    let s := s.setCore c { k with scratch := scratch, code := words }
    let part := 1 + base * 2 + l.units * 2 ^ 9 + (if l.accLive then 2 ^ 18 else 0) + code * 2 ^ 20 + l.words * 2 ^ 35
    let st := KS.LOADED + (if l.reserved then 0 else 8) + l.std * 16 + l.power % 4096 * 256 + l.fit % 1024 * 2 ^ 20
    (s.setReg (R.CO_PART.addr c ctx) (BitVec.ofNat 64 part)).setReg (R.CO_KSTATE.addr c ctx) (BitVec.ofNat 64 st)

/-- Loads a kernel that passed. -/
def State.loadKernel (s : State) (ctx : Nat) (p : List Byte) (l : LoadPlan) : State :=
  let h := field p 2 1 % 16
  let cores := maskCores h (field p 4 2)
  let s := s.forEach cores fun s c => s.loadCore ctx l c
  let i := s.install h l.img.recs
  let rec_ : Load := { id := s.kern.nextLoad, ctx := ctx, hub := h, cores := cores, std := l.std, opportunistic := !l.reserved
                       accLive := l.accLive, entries := l.img.entries, params := if l.std = 0 then [] else p.drop 8
                       trans := i.2 }
  { i.1 with kern := { i.1.kern with loads := i.1.kern.loads ++ [rec_], nextLoad := i.1.kern.nextLoad + 1 } }

/-- FIT_ACLK, STEP_POWER, UNITS and CODE_BASE of the lowest core, two bytes each: the layout is the model's (assumption
66). -/
def State.loadResult (s : State) (ctx c : Nat) : List Byte :=
  leBytes (s.fget (R.CO_KSTATE.FIT_ACLK c ctx)) 2 ++ leBytes (s.fget (R.CO_KSTATE.STEP_POWER c ctx)) 2
    ++ leBytes (s.fget (R.CO_PART.UNITS c ctx)) 2 ++ leBytes (s.fget (R.CO_PART.CODE_BASE c ctx)) 2

/-- The island measures a load whose payload has arrived, before the loader's first check (R503). -/
def State.measure (s : State) (ctx : Nat) (p : List Byte) : State :=
  let log := leNat (sha3 (leBytes s.si.kernelLog 64 ++ [BitVec.ofNat 8 ctx] ++ sha3 p))
  { s with si := { s.si with kernelLog := log, kernelCount := s.si.kernelCount + 1 } }

/-- A command that runs on is answered with ST_PENDING and completes in the same step. -/
def State.pendDone (s : State) (r : CmdReq) (st progress : Nat) (result : List Byte) : State :=
  (s.pend r 0).complete r.owner r.tag st progress result

/-- Meaning of KERNEL_LOAD. -/
def execKernelLoad (r : CmdReq) (s : State) : Res :=
  let s := (s.begin r).measure r.ctx r.payload
  .next (match s.ctxRefusal r.ctx with
    | some st => s.answerSt r st
    | none =>
      let l := s.loadPlan r.payload
      let s := s.when (l.std != 0) State.freeUsed
      let x := s.loadStatus r.ctx r.payload l
      if x.1 ≠ ST.OK then s.pendDone r x.1 x.2 []
      else
        let s := s.loadKernel r.ctx r.payload l
        s.pendDone r ST.OK 0 (s.loadResult r.ctx ((maskCores (field r.payload 2 1) (field r.payload 4 2)).headD 0)))

/-! ## KERNEL_START (R381, R383) -/

/-- The load of a context on a core. -/
def State.loadOn (s : State) (c ctx : Nat) : Option Load := s.kern.loads.find? fun l => l.ctx == ctx && l.cores.contains c

/-- Core entries of the active bank for a core and context. -/
def State.entriesFor (s : State) (c ctx : Nat) : List CoreEntry :=
  (s.coreEntries (s.activeBank 0)).filter fun e => e.core == c && e.ctx == ctx

/-- The status of a KERNEL_START. -/
def State.startStatus (s : State) (ctx : Nat) (p : List Byte) : Nat :=
  let resume := bitAt (field p 1 1) 0
  let cores := maskCores (field p 0 1 % 16) (field p 2 2)
  let st (c : Nat) : Nat := s.fget (R.CO_KSTATE.STATE c ctx)
  match s.runRefusal cores with
  | some x => x
  | none =>
    if (if resume then p.length < 8 else p.length != 352) || 16 ≤ field p 0 1 || 2 ≤ field p 1 1 || cores.isEmpty then ST.BAD_PARAM
    else if !resume && cores.any (fun c => st c == KS.STARTED) then ST.BUSY
    else if cores.any fun c => if resume then st c != KS.STOPPED else st c == 0 then ST.BAD_PARAM
    else
      let reserved := cores.filter fun c => s.fget (R.CO_KSTATE.KIND c ctx) == 0
      if reserved.any fun c => (s.entriesFor c ctx).isEmpty then ST.REFUSED_FIT
      else if reserved.any fun c => (s.entriesFor c ctx).any fun e => e.power < s.fget (R.CO_KSTATE.STEP_POWER c ctx) then
        ST.REFUSED_POWER
      else ST.OK

/-- The register set a kernel starts with. -/
def startSet (ctx : Nat) (p : List Byte) (entries : List Nat) (std : Bool) (seed : W64) : RegSet :=
  let word (o : Nat) : W64 := BitVec.ofNat 64 (field p o 8)
  let xbase (e : Nat) : Nat := 256 + 32 * (if e = 3 then 2 else e)
  let eng (e : Nat) : Engine :=
    let entry := (entries[e]?).getD 0x7FFF
    { pc := if entry = 0x7FFF then 0 else entry, stopped := std || entry == 0x7FFF
      x := if std ∨ e = 2 then [0, 0, 0, 0] else (List.range 4).map fun k => word (xbase e + 8 * k) }
  { ctx := ctx, s := if std then List.replicate 32 0 else 0 :: (List.range 31).map fun k => word (8 + 8 * k)
    engines := (List.range 4).map eng, seed := seed }

/-- Starts the kernel on one core; its engines' LOST_PENDING bits clear (R219) and a new seed is drawn (R339). -/
def State.startCore (s : State) (ctx : Nat) (p : List Byte) (c : Nat) : State :=
  let l := (s.loadOn c ctx).getD {}
  let seed := BitVec.ofNat 64 s.freeVal
  let s := s.freeUsed
  let s := s.withSet c ctx fun _ => startSet ctx p l.entries (l.std != 0) seed
  let s := s.forEach (List.range 4) fun s e => s.setLost (c / 16) (obsOf c e) ctx false
  let k := s.core c
  let s := s.setCore c { k with ringNext := kdel k.ringNext ctx, batch := kdel k.batch ctx }
  s.fset (R.CO_KSTATE.FRAMES c ctx) 0

/-- The kernel is STARTED, from the first frame that is not fixed. -/
def State.markStarted (s : State) (ctx c : Nat) : State :=
  let k := s.core c
  (s.setCore c { k with fresh := kset k.fresh ctx 0 }).fset (R.CO_KSTATE.STATE c ctx) KS.STARTED

/-- Meaning of KERNEL_START. -/
def execKernelStart (r : CmdReq) (s : State) : Res :=
  let s := s.begin r
  let p := r.payload
  .next (match s.ctxRefusal r.ctx with
    | some st => s.answerSt r st
    | none =>
      let st := s.startStatus r.ctx p
      if st ≠ ST.OK then s.answerSt r st
      else
        let cores := maskCores (field p 0 1) (field p 2 2)
        let s := if bitAt (field p 1 1) 0 then s else s.forEach cores fun s c => s.startCore r.ctx p c
        let s := s.forEach cores fun s c => s.markStarted r.ctx c
        let x : Start := { owner := r.owner, tag := r.tag, ctx := r.ctx, cores := cores }
        ({ s with kern := { s.kern with starts := s.kern.starts ++ [x] } }).pend r 0)

/-! ## KERNEL_STOP, UNLOAD and the end (R384, R385) -/

/-- Meaning of KERNEL_STOP. A core without a kernel of the context is a bad parameter (assumption 67). -/
def execKernelStop (r : CmdReq) (s : State) : Res :=
  let s := s.begin r
  let p := r.payload
  let cores := maskCores (field p 0 1 % 16) (field p 2 2)
  .next (match s.ctxRefusal r.ctx with
    | some st => s.answerSt r st
    | none =>
      if p.length != 8 || 16 ≤ field p 0 1 || 2 ≤ field p 1 1 || cores.isEmpty
          || cores.any (fun c => s.fget (R.CO_KSTATE.STATE c r.ctx) == 0) then s.answerSt r ST.BAD_PARAM
      else
        let running := cores.filter fun c => s.fget (R.CO_KSTATE.STATE c r.ctx) == KS.STARTED
        let s := s.forEach running fun s c =>
          let k := s.core c
          s.setCore c { k with stops := k.stops.filter (·.1 != r.ctx) ++ [(r.ctx, 2, 0)] }
        if bitAt (field p 1 1) 0 then
          let us := cores.map fun c => (r.ctx, c, r.owner, r.tag)
          ({ s with kern := { s.kern with unloads := s.kern.unloads ++ us } }).pend r 0
        else s.answerSt r ST.OK)

/-- The context's requests on a core have completed. -/
def State.coreDrained (s : State) (c ctx : Nat) : Bool :=
  (s.ep (c / 16)).reqs.all (fun q => q.core != c || q.r.ctx != ctx) && (s.core c).xfers.all (fun x => x.ctx != ctx || x.open_ == 0)
    && (s.ep (c / 16)).members.all fun m => m.core != c || m.ctx != ctx

/-- Meaning of UNLOAD_DONE: the partition is zeroed and released, and the load's records go with its last core. -/
def execUnloadDone (ctx core : Nat) (s : State) : Res :=
  .next (match s.kern.unloads.find? fun u => u.1 == ctx && u.2.1 == core with
    | none => s
    | some u =>
      if s.fget (R.CO_KSTATE.STATE core ctx) = KS.STARTED ∨ !s.coreDrained core ctx then s
      else
        let s := (s.releasePart core ctx).leaveLoad core ctx
        let left := s.kern.unloads.filter (· != u)
        let s := { s with kern := { s.kern with unloads := left } }
        if left.any fun v => v.2.2 == u.2.2 then s else s.complete u.2.2.1 u.2.2.2 ST.OK 0 [])

/-- HOW of a completed KERNEL_START: FAULT, SCRUBBED, STOPPED, END in that order. -/
def startHow (x : Start) : Nat :=
  let ways := x.ended.map (·.2)
  if ways.contains 1 then 1 else if ways.contains 3 then 3 else if ways.contains 2 then 2 else 0

/-- The 24-byte result of R384. -/
def startResult (x : Start) : List Byte :=
  let f := x.fault.getD (0xFF, 0, 0, 0)
  leBytes (startHow x) 1 ++ leBytes f.1 1 ++ leBytes f.2.1 1 ++ leBytes f.2.2.1 1 ++ leBytes f.2.2.2 2 ++ [0, 0]
    ++ leBytes x.frames 8 ++ leBytes x.overruns 4 ++ [0, 0, 0, 0]

/-- Meaning of KERNEL_END: a KERNEL_START whose kernel has ended on every named core completes. -/
def execKernelEnd (ctx core : Nat) (s : State) : Res :=
  .next (match s.kern.starts.find? fun x => x.ctx == ctx && x.cores.contains core && x.cores.all fun c => (kget x.ended c).isSome with
    | none => s
    | some x =>
      let s := { s with kern := { s.kern with starts := s.kern.starts.filter (· != x) } }
      let how := startHow x
      s.complete x.owner x.tag (if how = 1 then ST.BAD_PARAM else if how = 3 then ST.POISON else ST.OK) 0 (startResult x))

end Sys2Proof.Machine
end

