-- ==== Sys2Proof/Machine/StdKernels.lean ====
section
/-! DEFINITION. Standard kernels: the ring kernels and the optimizer, one request or batch at a time (R388 to R394).
Reads of the core's own hub are performed at its point of coherence; a byte that must come from elsewhere is a free
value (assumption 68). -/

namespace Sys2Proof.Machine

/-! ## Memory as a kernel sees it -/

/-- A read: the state, the bytes, ST_OK, ST_POISON, or ST_BAD_PARAM where no record gives the range. -/
structure KRead where
  s : State
  bytes : List Byte := []
  st : Nat := 0

/-- Reads n bytes at a request address. -/
def State.kRead (s : State) (h ctx va n : Nat) : KRead :=
  match s.lookup h ctx va with
  | none => { s := s, bytes := List.replicate n 0, st := ST.BAD_PARAM }
  | some x =>
    let off := x.ga % 2 ^ 44
    if !x.read || x.limit < va + n then { s := s, bytes := List.replicate n 0, st := ST.BAD_PARAM }
    else if x.ga / 2 ^ 44 = s.rack * 4096 + s.epId h ∧ off + n ≤ s.populated h then
      let lines := (List.range ((off + n + 63) / 64 - off / 64)).map fun i => 64 * (off / 64 + i)
      { s := s, bytes := s.hubRead h off n, st := if lines.any (s.poisoned h) then ST.POISON else ST.OK }
    else { s := s.freeUsed, bytes := leBytes s.freeVal n, st := ST.OK }

/-- Writes bytes at a request address, in naturally aligned pieces; `op` 3 plain, 4 the release at RACK scope. -/
def State.kWrite (s : State) (c ctx op : Nat) : Nat → Nat → List Byte → State
  | 0, _, _ => s
  | n + 1, va, b =>
    if b.isEmpty then s
    else
      let k := pieceLen va b.length
      let r : MemReq := { observer := obsOf c 2, ctx := ctx, op := op, scope := 4, len := k, addr := va, data := b.take k }
      (s.issue (c / 16) r c .none_ .clean).kWrite c ctx op n (va + k) (b.drop k)

def State.kPut (s : State) (c ctx va : Nat) (b : List Byte) : State := s.kWrite c ctx 3 (b.length + 1) va b

/-- The kernel of a context runs in this frame on the core, and is standard kernel std. -/
def State.stdRuns (s : State) (c ctx std : Nat) : Bool :=
  c < 256 && s.fget (R.CO_STATUS.KIND c) != 0 && (s.core c).run.ctx == ctx && s.fget (R.CO_KSTATE.STATE c ctx) == KS.STARTED
    && (kget (s.core c).fresh ctx).isNone && s.fget (R.CO_KSTATE.STD c ctx) == std && !s.unitInReset 1 c

/-! ## STD 2: EMBED_POOL (R391) -/

/-- Adds or compares one row into the pooled vector, or reports a bad index. -/
def State.poolRow (h ctx : Nat) (b : List Byte) (n : Nat) (acc : KRead × Option (List Nat)) (i : Nat) : KRead × Option (List Nat) :=
  let r := acc.1
  if r.st ≠ ST.OK then acc
  else
    let ri := r.s.kRead h ctx i 4
    let row := leNat ri.bytes
    if ri.st ≠ ST.OK then (ri, acc.2)
    else if field b 8 8 ≤ row then ({ s := ri.s, st := ST.BAD_PARAM }, acc.2)
    else
      let rr := ri.s.kRead h ctx ((field b 0 8 + row * field b 16 2) % 2 ^ 64) (field b 16 2)
      let f := laneFmt (field b 18 1)
      let v := (List.range n).map fun k => Fmt.fp32.encode .rne false (f.decode (packGet (leNat rr.bytes) f.w k))
      let out := match acc.2 with
        | none => v
        | some a => List.zipWith (if field b 20 1 = 2 then Fmt.fp32.fmax else fadd32) a v
      ({ s := rr.s, st := rr.st }, some out)

/-- Serves one record: the state and the status. -/
def State.embedPool (s : State) (c h ctx : Nat) (b rec_ : List Byte) : State × Nat :=
  let count := field rec_ 12 2
  if count = 0 ∨ 4096 < count then (s, ST.BAD_PARAM)
  else
    let n := field b 16 2 * 8 / (laneFmt (field b 18 1)).w
    let idx := (List.range count).map fun k => (field b 40 8 + 4 * (field rec_ 8 4 + k)) % 2 ^ 64
    let r := idx.foldl (State.poolRow h ctx b n) ({ s := s }, none)
    if r.1.st ≠ ST.OK then (r.1.s, r.1.st)
    else
      let inv := Fmt.fp32.encode .rne false (.fin false (2 ^ 64 / count) (-64))
      let v := (r.2.getD []).map fun x =>
        if field b 20 1 = 1 then Fmt.fp32.encode .rne false ((Fmt.fp32.decode x).mul (Fmt.fp32.decode inv)) else x
      let o := laneFmt (field b 19 1)
      let bytes := leBytes (packOf o.w (v.map fun x => o.encode .rne false (Fmt.fp32.decode x))) (n * o.w / 8)
      (r.1.s.kPut c ctx (field rec_ 16 8) bytes, ST.OK)

/-! ## STD 3: DECODE_ATTN (R392) -/

/-- Serves one record. R392 fixes no order or rounding of its sums, so each head's o, M and L are free values; the rest of
its 4 × HEAD_DIM + 64 bytes is zero. -/
def State.decodeAttn (s : State) (c h ctx : Nat) (b rec_ : List Byte) : State × Nat :=
  let dim := field b 16 2
  let q := field b 19 1
  let pages := field rec_ 16 2
  let last := field rec_ 18 2
  if pages = 0 ∨ last = 0 ∨ field b 20 2 < last then (s, ST.BAD_PARAM)
  else
    let tok := if field b 18 1 = 1 then 2 * dim else dim + dim / 32
    let pr := s.kRead h ctx (field rec_ 8 8) (8 * pages)
    let qr := pr.s.kRead h ctx (field rec_ 24 8) (4 * dim * q)
    let r := (List.range pages).foldl (fun (a : KRead) i =>
      let t := if i + 1 = pages then last else field b 20 2
      let x := a.s.kRead h ctx (field pr.bytes (8 * i) 8) (2 * t * tok)
      { s := x.s, st := if a.st = ST.OK then x.st else a.st })
      ({ s := qr.s, st := if pr.st = ST.OK then qr.st else pr.st } : KRead)
    if r.st ≠ ST.OK then (r.s, r.st)
    else
      let s := r.s.forEach (List.range q) fun s i =>
        let body := leBytes s.freeVal (4 * dim + 8) ++ List.replicate 56 0
        s.freeUsed.kPut c ctx ((field rec_ 32 8 + i * (4 * dim + 64)) % 2 ^ 64) body
      (s, ST.OK)

/-! ## STD 4: SAMPLE (R393) -/

/-- Inserts into a list in descending order of logit, ties by id. -/
def insertLogit (x : Nat × Nat) : List (Nat × Nat) → List (Nat × Nat)
  | [] => [x]
  | y :: l =>
    if Fmt.fp32.key y.2 < Fmt.fp32.key x.2 || (Fmt.fp32.key y.2 == Fmt.fp32.key x.2 && x.1 < y.1) then x :: y :: l
    else y :: insertLogit x l

/-- Serves one record: the token is one of the TOP_K largest scaled logits. R393 fixes no rounding of its exponentials, so
which of them, and its probability, are free values. -/
def State.sample (s : State) (c h ctx : Nat) (b rec_ : List Byte) : State × Nat :=
  let f := laneFmt (field b 16 1)
  let vocab := field rec_ 16 4
  let k := field rec_ 20 4
  let p := Fmt.fp32.decode (field rec_ 28 4)
  let pOk := match p with
    | .fin neg m e => !neg && m != 0 && dyLe m e 1 0
    | _ => false
  if vocab < 2 ∨ 1048576 < vocab ∨ 1024 < k ∨ !pOk then (s, ST.BAD_PARAM)
  else
    let r := s.kRead h ctx (field rec_ 8 8) (vocab * f.w / 8)
    if r.st ≠ ST.OK then (r.s, r.st)
    else
      let t := Fmt.fp32.decode (field rec_ 24 4)
      let logits := (List.range vocab).map fun i => (i, Fmt.fp32.encode .rne false ((f.decode (packGet (leNat r.bytes) f.w i)).mul t))
      let best := (logits.foldl (fun l x => insertLogit x l) []).take (if k = 0 then vocab else k)
      let v := r.s.freeVal
      let id := ((best[v % best.length]?).getD (0, 0)).1
      (r.s.freeUsed.kPut c ctx (field rec_ 40 8) (leBytes id 4 ++ leBytes (v / 2 ^ 32) 4), ST.OK)

/-! ## STD 5: EXPERT_DISPATCH (R394) -/

/-- Places one route: counts by expert, status. -/
def State.placeRoute (c h ctx : Nat) (rec_ dest : List Byte) (acc : KRead × KV Nat) (i : Nat) : KRead × KV Nat :=
  let top := field rec_ 30 1
  let tb := field rec_ 28 2
  let experts := field rec_ 40 2
  let token := i / top
  let r := acc.1.s.kRead h ctx ((field rec_ 16 8 + 8 * i) % 2 ^ 64) 8
  let e := field r.bytes 0 4
  let n := kgetD acc.2 e 0
  let st := if acc.1.st = ST.OK then r.st else acc.1.st
  if r.st ≠ ST.OK then ({ s := r.s, st := st }, acc.2)
  else if experts ≤ e then ({ s := r.s, st := if st = ST.OK then ST.BAD_PARAM else st }, acc.2)
  else if field dest (16 * e + 8) 4 ≤ n then ({ s := r.s, st := st }, acc.2)
  else
    let t := r.s.kRead h ctx ((field rec_ 8 8 + token * tb) % 2 ^ 64) tb
    if t.st ≠ ST.OK then ({ s := t.s, st := if st = ST.OK then t.st else st }, acc.2)
    else
      let at_ := (field dest (16 * e) 8 + (field dest (16 * e + 12) 4 + n) * (64 + tb)) % 2 ^ 64
      let head := leBytes token 4 ++ bytesAt r.bytes 4 4 ++ leBytes (i % top) 4 ++ List.replicate 52 0
      ({ s := t.s.kPut c ctx at_ (head ++ t.bytes), st := st }, kset acc.2 e (n + 1))

/-- Serves one record. -/
def State.expertDispatch (s : State) (c h ctx : Nat) (rec_ : List Byte) : State × Nat :=
  let ntok := field rec_ 24 4
  let tb := field rec_ 28 2
  let top := field rec_ 30 1
  let experts := field rec_ 40 2
  if ntok = 0 ∨ 65536 < ntok ∨ tb < 64 ∨ 16384 < tb ∨ tb % 64 ≠ 0 ∨ top = 0 ∨ 8 < top ∨ experts = 0 ∨ 1024 < experts then
    (s, ST.BAD_PARAM)
  else
    let d := s.kRead h ctx (field rec_ 32 8) (16 * experts)
    if d.st ≠ ST.OK then (d.s, d.st)
    else
      let r := (List.range (ntok * top)).foldl (State.placeRoute c h ctx rec_ d.bytes) ({ s := d.s }, [])
      let counts := ((List.range experts).map fun e => leBytes (kgetD r.2 e 0) 4).flatten
      (r.1.s.kPut c ctx (field rec_ 48 8) counts, r.1.st)

/-! ## The ring (R389) -/

/-- Offsets of RING, SLOTS and FLAG. -/
def ringOf (std : Nat) (b : List Byte) : Nat × Nat := if std = 2 then (field b 24 8, field b 32 4) else (field b 0 8, field b 8 4)
def flagAt (std : Nat) : Nat := if std = 2 then 24 else if std = 3 then 40 else if std = 4 then 48 else 56

/-- Rank of a core among a load's cores. -/
def rankIn (c : Nat) (l : Load) : Nat := (findIdx (· == c) l.cores 0).getD 0

/-- Serves the next request of the core when its record has come. -/
def State.ringServe (s : State) (c ctx std : Nat) (l : Load) : State :=
  let h := c / 16
  let b := l.params
  let g := ringOf std b
  let n := kgetD (s.core c).ringNext ctx (rankIn c l)
  let x := s.kRead h ctx ((g.1 + n % g.2 * 64) % 2 ^ 64) 64
  if x.st ≠ ST.OK ∨ field x.bytes 0 8 ≠ n + 1 then s
  else
    let k := x.s.core c
    let s := x.s.setCore c { k with ringNext := kset k.ringNext ctx (n + l.cores.length) }
    let y : State × Nat :=
      if std = 2 then s.embedPool c h ctx b x.bytes
      else if std = 3 then s.decodeAttn c h ctx b x.bytes
      else if std = 4 then s.sample c h ctx b x.bytes
      else s.expertDispatch c h ctx x.bytes
    y.1.kWrite c ctx 4 2 (field x.bytes (flagAt std) 8) (leBytes (y.2 * 2 ^ 48 + (n + 1) % 2 ^ 48) 8)

/-- Meaning of RING_REQUEST. -/
def execRingRequest (core ctx : Nat) (s : State) : Res :=
  .next (match s.loadOn core ctx with
    | some l => if 2 ≤ l.std ∧ s.stdRuns core ctx l.std then s.ringServe core ctx l.std l else s
    | none => s)

/-! ## STD 1: OPTIMIZER (R390) -/

/-- One fp32 operation, rounded once under RNE. -/
def f32 (f : FV → FV → FV) (a b : Nat) : Nat := Fmt.fp32.encode .rne false (f (Fmt.fp32.decode a) (Fmt.fp32.decode b))
def f32mul (a b : Nat) : Nat := f32 FV.mul a b
def f32sub (a b : Nat) : Nat := f32 (fun x y => x.add y.neg) a b

/-- m, v and w of one element after the update, each written operation one fp32 operation (assumption 69). -/
def optimize (b : List Byte) (g m v w : Nat) : Nat × Nat × Nat :=
  let p (o : Nat) : Nat := field b o 4
  let one : Nat := 0x3F800000
  let m := fadd32 (f32mul (p 68) m) (f32mul (f32sub one (p 68)) g)
  let v := fadd32 (f32mul (p 72) v) (f32mul (f32mul (f32sub one (p 72)) g) g)
  let r := rsq32 (fadd32 (f32mul v (p 88)) (p 76))
  let u := fadd32 (f32mul (f32mul m (p 84)) r) (f32mul (p 80) w)
  (m, v, f32sub w (f32mul (p 64) u))

/-- bf16 of an fp32 value, stochastically with a free value when ROUND says so. -/
def State.toBf16 (s : State) (sr : Bool) (v : Nat) : State × Nat :=
  if sr then (s.freeUsed, Fmt.bf16.encode (.sr (s.freeVal % 65536)) false (Fmt.fp32.decode v))
  else (s, Fmt.bf16.encode .rne false (Fmt.fp32.decode v))

/-- Updates element i of the regions. -/
def State.optElement (s : State) (c h ctx : Nat) (b : List Byte) (i : Nat) : State :=
  let a (o w : Nat) : Nat := (field b o 8 + i * w) % 2 ^ 64
  let g := s.kRead h ctx (a 0 2) 2
  let w := g.s.kRead h ctx (a 8 4) 4
  let m := w.s.kRead h ctx (a 16 2) 2
  let v := m.s.kRead h ctx (a 24 2) 2
  let up (x : KRead) : Nat := leNat x.bytes * 65536
  let r := optimize b (up g) (up m) (up v) (leNat w.bytes)
  let sr := bitAt (field b 92 1) 0
  let m' := v.s.toBf16 sr r.1
  let v' := m'.1.toBf16 sr r.2.1
  let w' := v'.1.toBf16 sr r.2.2
  (((w'.1.kPut c ctx (a 8 4) (leBytes r.2.2 4)).kPut c ctx (a 16 2) (leBytes m'.2 2)).kPut c ctx (a 24 2)
    (leBytes v'.2 2)).kPut c ctx (a 32 2) (leBytes w'.2 2)

/-- Adds 1 to a milestone of the hub by an MSADD. -/
def State.msBump (s : State) (c ctx m : Nat) : State :=
  if s.fget (R.MS_INFO.OWNER (c / 16) m) = ctx then
    (s.fenceIssue (c / 16) { observer := obsOf c 2, core := c, ctx := ctx, kind := 1, scope := 2, ms := m, count := 1 }).evalWaits (c / 16)
  else s.withSet c ctx (onEngine 2 (noteStatus ST.DENIED))

/-- The core's phase: batches done, counted twice by the core of rank 0, which also gates each batch. -/
def State.setBatch (s : State) (c ctx n : Nat) : State :=
  let k := s.core c
  s.setCore c { k with batch := kset k.batch ctx n }

/-- The next phase of the optimizer on a core. -/
def State.optStep (s : State) (c ctx : Nat) (l : Load) : State :=
  let h := c / 16
  let b := l.params
  let rank := rankIn c l
  let cores := l.cores.length
  let n := kgetD (s.core c).batch ctx 0
  let at_ := if rank = 0 then n / 2 else n
  let size := field b 40 4
  let count (m : Nat) : Nat := s.fget (R.MS_COUNT.COUNT h m)
  if rank = 0 ∧ n % 2 = 1 then
    if count (field b 50 2) < field b 96 8 + cores * (at_ + 1) then s
    else
      let s := (s.msBump c ctx (field b 52 2)).setBatch c ctx (n + 1)
      if field b 44 4 ≤ at_ + 1 then s.kernelEnded c ctx 0 else s
  else if field b 44 4 ≤ at_ then s.kernelEnded c ctx 0
  else if count (field b 48 2) < field b 56 8 + (at_ + 1) * size / 32 then s
  else
    let share := size / cores
    let s := s.forEach (List.range share) fun s i => s.optElement c h ctx b (at_ * size + rank * share + i)
    let s := (s.msBump c ctx (field b 50 2)).setBatch c ctx (n + 1)
    if rank ≠ 0 ∧ field b 44 4 ≤ at_ + 1 then s.kernelEnded c ctx 0 else s

/-- Meaning of OPTIMIZER_BATCH. -/
def execOptimizerBatch (core ctx : Nat) (s : State) : Res :=
  .next (match s.loadOn core ctx with
    | some l => if l.std = 1 ∧ s.stdRuns core ctx 1 then s.optStep core ctx l else s
    | none => s)

end Sys2Proof.Machine
end

