-- ==== Sys2Proof/Machine/Pages.lean ====
section
/-! DEFINITION. The Almanac's pages and records: edges, early closes, the layout of a record, the flash areas
(R509 to R515). -/

namespace Sys2Proof.Machine

/-- Calendar time is valid (R426). -/
def State.timeValid (s : State) : Bool := s.fbit R.HE_TIME.VALID

/-- Calendar time in milliseconds; 0 while invalid (R32). -/
def State.utc (s : State) : Nat := if s.timeValid then s.fget R.HE_TIME.UTC_MS else 0

/-- Length of a page in milliseconds: 0 minute, 1 hour, 2 day. -/
def periodMs (p : Nat) : Nat := if p = 0 then 60000 else if p = 1 then 3600000 else 86400000

/-! ## Opening and closing -/

/-- A page of a period that opens at this boundary; it carries the width each port has. -/
def State.newPage (s : State) (period : Nat) : Page :=
  let ws := (List.range 160).filter fun p => 0 < s.fget (R.OP_PORT_STATUS.WIDTH p)
  { period := period, frame := s.now, utc := s.utc, timeInvalid := !s.timeValid
    counts := ws.foldl (fun m p => kset m (almKey 4 p 20) (s.fget (R.OP_PORT_STATUS.WIDTH p))) [] }

/-- A page as it closes: what its records say of its end, and SHORT when it is shorter than its period. -/
def State.endPage (s : State) (cause : Nat) (p : Page) : Page :=
  let short :=
    if p.timeInvalid || cause != 0 then s.now - p.frame < 1000 * periodMs p.period
    else s.utc - p.utc < periodMs p.period
  let m := (List.range 20).foldl (fun m k =>
    kset (kset m (almKey 6 k 0) (s.fget (R.PT_LASER.WEAR k))) (almKey 6 k 5) (s.fget (R.PT_LASER.WORN k))) p.counts
  let m := (List.range 16).foldl (fun m h => kset m (almKey 5 h 16) (s.fget (R.HB_STATUS.CHANNELS h))) m
  { p with endFrame := s.now, cause := cause, short := short, counts := m }

/-- Pages of some periods close and the next ones open. -/
def State.closePages (s : State) (cause : Nat) (ps : List Nat) : State :=
  let due := s.al.pages.filter fun p => ps.contains p.period && p.frame != s.now
  let next : List Page := s.al.pages.map fun p => if ps.contains p.period && p.frame != s.now then s.newPage p.period else p
  { s with al := { s.al with pages := next, closing := s.al.closing ++ due.map (s.endPage cause) } }

/-- A page's edge lies at this boundary (R509). -/
def State.atEdge (s : State) (p : Page) : Bool :=
  if p.timeInvalid then s.now % (1000 * periodMs p.period) == 0 else p.utc / periodMs p.period < s.utc / periodMs p.period

/-- Meaning of PAGE_EDGE. -/
def execPageEdge (s : State) : Res := .next (s.closePages 0 ((s.al.pages.filter s.atEdge).map (·.period)))

/-! ## Records (R512, R513) -/

/-- Bytes of a count: the spec states no value past the field's width, so there it is the free value `free`. -/
def countBytes (free size v : Nat) : List Byte := leBytes (if v < 256 ^ size then v else free) size

/-- Offset and size of the counts of a body or of one of its entries, ascending. -/
def bodyFields (kind : Nat) : List (Nat × Nat) :=
  match kind with
  | 1 => [(32, 2), (34, 2), (36, 2), (38, 1), (39, 1)] ++ (List.range 16).map (fun i => (40 + 4 * i, 4))
      ++ (List.range 9).map (fun i => (104 + i, 1)) ++ [(114, 2)] ++ (List.range 11).map (fun i => (116 + i, 1))
      ++ [(128, 4), (132, 2), (134, 2), (136, 4)]
  | 2 => [(32, 8), (40, 8)] ++ (List.range 16).map (fun i => (48 + 4 * i, 4))
  | 3 => [(32, 2), (34, 2), (36, 2), (38, 2), (40, 4), (44, 2), (48, 4), (52, 4), (56, 4)]
  | 4 => [(0, 4), (4, 4), (8, 2), (10, 2), (12, 4), (16, 2), (18, 2), (20, 1), (21, 1), (22, 1), (24, 1)]
  | 5 => [(0, 4), (4, 4), (8, 4), (12, 2), (14, 2), (16, 1), (17, 1), (18, 1), (19, 1), (20, 4), (24, 4), (28, 4), (32, 4),
      (36, 4), (40, 4), (44, 4)]
  | _ => [(0, 4), (4, 1), (5, 1)]

/-- Unit in which a count is recorded. -/
def countUnit (kind off : Nat) : Nat :=
  if kind = 4 ∧ (off = 0 ∨ off = 4) then 65536 else if kind = 4 ∧ off = 12 then 1024
  else if kind = 5 ∧ (off = 0 ∨ off = 4) then 16777216 else if kind = 5 ∧ off = 44 then 1024
  else if kind = 1 ∧ off = 114 then 100000000 else 1

/-- The value of a count of a page; P_MEAN is the mean over the frames. State entries saturate. -/
def Page.value (p : Page) (kind entry off : Nat) : Nat :=
  let v := kgetD p.counts (almKey kind entry off) 0
  if kind = 1 ∧ off = 36 then kgetD p.counts (almKey 1 1 0) 0 / max 1 (kgetD p.counts (almKey 1 1 8) 0)
  else if kind = 1 ∧ 116 ≤ off ∧ off < 127 then min 255 v
  else v / countUnit kind off

/-- One body or entry of `size` bytes whose first offset is `base`. -/
def Page.bytes (p : Page) (free kind entry base size : Nat) : List Byte :=
  (bodyFields kind).foldl (fun b f =>
    b ++ List.replicate (f.1 - base - b.length) 0 ++ countBytes free f.2 (p.value kind entry f.1)) []
    |> fun b => b ++ List.replicate (size - b.length) 0

/-- KIND of a part of a page. -/
def partKind (period part : Nat) : Nat :=
  if part < 3 then part + 1 else if period = 2 then 6 else if part < 23 then 4 else 5

/-- Records of a page. -/
def pageParts (period : Nat) : Nat := if period = 0 then 3 else if period = 1 then 27 else 4

/-- BODY of a part; port index 128 + s, and the bytes no table names, are zero. -/
def State.pageBody (s : State) (p : Page) (part : Nat) : List Byte :=
  let k := partKind p.period part
  let f := s.freeVal
  let b :=
    if k ≤ 3 then p.bytes f k 0 32 220
    else if k = 4 then (List.range 8).flatMap fun i =>
      let q := 8 * (part - 3) + i
      if q = s.ownPos then List.replicate 26 0 else p.bytes f 4 q 0 26
    else if k = 5 then (List.range 4).flatMap fun i => p.bytes f 5 (4 * (part - 23) + i) 0 52
    else (List.range 20).flatMap fun i => p.bytes f 6 i 0 8
  b ++ List.replicate (220 - b.length) 0

/-- The 256 bytes of a record. -/
def State.record (s : State) (p : Page) (part rseq : Nat) (isOpen : Bool) : List Byte :=
  let flags := (if p.short then 1 else 0) + (if p.timeInvalid then 2 else 0) + (if isOpen then 4 else 0) + 8 * (p.cause % 8)
  leBytes rseq 4 ++ leBytes (partKind p.period part) 1 ++ leBytes p.period 1 ++ leBytes part 1
    ++ leBytes (pageParts p.period) 1 ++ leBytes flags 1 ++ [0, 0, 0] ++ leBytes ((p.endFrame - p.frame) / 1000) 4
    ++ leBytes p.utc 8 ++ leBytes p.frame 8 ++ s.pageBody p part ++ leBytes rseq 4

/-! ## Flash (R514, R515) -/

/-- Newest RSEQ written; 0xFFFF_FFFF when none. -/
def State.newestRseq (s : State) : Nat := ((s.al.flash.map (·.1)).getLast?).getD 0xFFFFFFFF

/-- Oldest RSEQ of the circulating area; 0xFFFF_FFFF when it is empty. -/
def State.oldestRseq (s : State) : Nat := ((s.al.locs.map (·.1)).head?).getD 0xFFFFFFFF

/-- The block of a new location is erased before its first record is written: 257 blocks of 256 records. -/
def eraseBlock (a : Almanac) : Almanac :=
  if a.loc % 256 ≠ 0 then a
  else
    let gone := (a.locs.filter fun e => e.2 + 65792 < a.loc + 256).map (·.1)
    { a with flash := a.flash.filter fun e => !gone.contains e.1, locs := a.locs.filter fun e => !gone.contains e.1 }

/-- The next part, or the next page, follows. -/
def nextPart (a : Almanac) : Almanac :=
  match a.closing with
  | [] => a
  | p :: t =>
    let a := { a with nextRseq := a.nextRseq + 1, tries := 0 }
    if a.part + 1 < pageParts p.period then { a with part := a.part + 1 } else { a with part := 0, closing := t }

/-- Meaning of PAGE_WRITE: the next record of the oldest closed page is written; a write that fails is made again at the
next location with the same RSEQ, and after three failures the record is given up. -/
def execPageWrite (ok : Bool) (s : State) : Res :=
  .next (match s.al.closing with
    | [] => s
    | p :: _ =>
      let n := s.al.nextRseq
      let circ := 4096 ≤ n
      let a := if circ then eraseBlock s.al else s.al
      let here := a.loc
      let a := if circ then { a with loc := a.loc + 1 } else a
      if ok then
        let v := leNat (s.record p s.al.part n false)
        let a := { a with flash := kset a.flash n v, locs := if circ then kset a.locs n here else a.locs }
        { s with al := nextPart a }.freeUsed
      else if a.tries + 1 < 3 then { s with al := { a with tries := a.tries + 1 } }
      else ({ s with al := nextPart a }.fsetb R.AL_STATUS.FLASH_FAIL true).alert 9)

end Sys2Proof.Machine
end

