-- ==== Sys2Proof/Machine/Boot.lean ====
section
/-! DEFINITION. Power-on, BOOT, INIT, drain, maintenance and HALT (R20, R21, R427 to R440, R467, R551). -/

namespace Sys2Proof.Machine

/-! ## Slots and rails -/

/-- State of a firmware slot, 0 A or 1 B: a running slot reads STAGED (*CP_FW*). -/
def State.fwSlot (s : State) (k : Nat) : Nat :=
  if s.fget R.CP_FW.RUN_SLOT = k then 2 else if k = 0 then s.fget R.CP_FW.SLOT_A else s.fget R.CP_FW.SLOT_B

def State.setFwSlot (s : State) (k v : Nat) : State :=
  if k = 0 then s.fset R.CP_FW.SLOT_A v else s.fset R.CP_FW.SLOT_B v

/-- What a slot holds. -/
def State.slotOf (s : State) (k : Nat) : FwSlot := if k = 0 then s.boot.slotA else s.boot.slotB

def State.setSlot (s : State) (k : Nat) (x : FwSlot) : State :=
  { s with boot := if k = 0 then { s.boot with slotA := x } else { s.boot with slotB := x } }

/-- A fall back to the other slot (R452): FALLBACK, the alert, the hour page's count. -/
def State.fallback (s : State) : State := ((s.fsetb R.CP_FW.FALLBACK true).alert 8).almAdd 1 0 132 1

/-- Registers that outlast the loss of the control rails: the chiplet's, the sled state, flash, and while the input holds
CP_ALERT, calendar time and the blocks that run in STANDBY (R32, R427, R549, R550). -/
def keptReg (off : Bool) (a : Nat) : Bool :=
  2 ^ 32 ≤ a || a == R.CP_STATE.STATE.addr || a == R.CP_FW.RUN_SLOT.addr || (0xA001000 ≤ a && a < 0xA001400)
    || (R.PT_LASER.addr 0 ≤ a && a < R.PT_LASER.addr 20) || a == R.SI_DEBUG.ACTIVE.addr
    || (!off && (a == R.CP_ALERT.STRAP.addr || a == R.HE_TIME.UTC_MS.addr || (0xB000000 ≤ a && a < 0xD000000)))

/-- The control rails are gone: everything but flash, the blocks of STANDBY and the chiplet is lost, and the sled is in
STANDBY or OFF. -/
def State.depower (s : State) (st : Nat) : State :=
  let off := st == SS.OFF
  let old := s.sled
  let jobs : List LinkJob := s.pat.jobs.filter fun j => j.records.any fun r => 160 ≤ r.1
  let slots (x : FwSlot) : FwSlot := if off then { x with erased := false } else x
  let t : State := {
    regs := s.regs.filter fun e => keptReg off e.1
    eps := s.eps.filter (·.1 == 17)
    ports := s.ports.filter (160 ≤ ·.1)
    tb := { frame := s.tb.frame, markers := s.tb.markers.filter (160 ≤ ·.1), realign := s.tb.realign.filter (160 ≤ ·.1) }
    tt := { changes := s.tt.changes.filter fun c => 160 ≤ c.pos && c.pos < 176 }
    host := { utcOffset := s.host.utcOffset, msFrac := if off then 0 else s.host.msFrac }
    boot := { s.boot with
      drain := none, resets := [], stateDue := none, lossAt := none, railsCore := false, railsDram := false
      slotA := slots s.boot.slotA, slotB := slots s.boot.slotB
      act := if off then none else s.boot.act }
    vigil := { beats := s.vigil.beats.filter (160 ≤ ·.1) }
    si := if off then { signatures := s.si.signatures } else s.si
    al := { pages := [], flash := s.al.flash, locs := s.al.locs, nextRseq := s.al.nextRseq, loc := s.al.loc }
    pat := { jobs := jobs }
    chip := s.chip
    free := s.free
    out := s.out
    pending := s.pending }
  let t := (((t.fset R.CP_STATE.PREV_STATE old).fset R.CP_STATE.STATE st).fset R.CP_STATE.RECOVERY 0).fset
    R.CP_STATE.CTL_IGNORED 0
  let t := (t.fset R.CP_FW.TRIAL 0).fset R.CP_FW.CONFIRMED 1
  if off then
    let t := t.forEach (List.range 20) fun t k => (t.fset (R.PT_LASER.CASE k) 0).fset (R.PT_LASER.CASE_MAX k) 0
    let t := (t.fset R.CP_FW.FALLBACK 0).fset R.CP_STATE.BOOT_FAIL 0
    ((t.fset R.SI_DEBUG.SESSIONS_BOOT 0).fset R.SI_DEBUG.ACTIVE 0).fset R.SI_DEBUG.SOURCE 0
  else t

/-- Meaning of POWER_ON, the busbar in units of 10 mV (R427, R471). -/
def execPowerOn (volts : Nat) (s : State) : Res :=
  .next (if s.sled = SS.OFF ∧ 4600 ≤ volts ∧ volts ≤ 5800 then
      let s := (s.fset R.CP_STATE.PREV_STATE SS.OFF).fset R.CP_STATE.STATE SS.STANDBY
      { s with boot := { s.boot with inputOk := true, presentLow := true, railFails := 0 } }
    else s)

/-- Meaning of STRAP_CHANGE (R20): the latched values stand. -/
def execStrapChange (st : Straps) (s : State) : Res :=
  let t := { s with boot := { s.boot with straps := st } }
  .next (if s.sled = SS.OFF ∨ s.sled = SS.STANDBY ∨ st = s.boot.straps then t
    else (t.fsetb R.CP_LOCATION.STRAP_CHANGED true).alert 0)

/-! ## BOOT and INIT (R429 to R432) -/

/-- STRAP_CONFLICT of the latched values (R21). -/
def State.strapConflict (s : State) : Bool := bitAt (s.reg R.CP_LOCATION.addr).toNat 17

/-- What R429 asks for, over the 100 ms that the command stands for. -/
def State.bootReady (s : State) : Bool :=
  s.sled == SS.STANDBY && s.boot.inputOk && s.boot.presentLow && 40 ≤ s.fget R.PT_COOLANT.FLOW
    && 20 ≤ s.fget R.PT_COOLANT.INLET && s.fget R.PT_COOLANT.INLET ≤ 40 && !s.fbit R.PT_BOOT.BOOT_HOLD
    && !s.fbit R.PT_BOOT.BOOT_FAIL

/-- A slot passes the island's check (R431). -/
def State.bootOk (s : State) (chk : BootCheck) (k : Nat) : Bool :=
  (if k = 0 then chk.slotAok else chk.slotBok) && s.fwSlot k == 2

/-- The rails are up and the firmware of a slot runs: what INIT sets (R432), with frame number 0 (R45). -/
def State.initSled (s : State) : State :=
  let s := { s with
    tb := { s.tb with frame := 0 }
    boot := { s.boot with railFails := 0, railsCore := true, railsDram := true, bootAt := 0 }
    power := {}
    si := { s.si with kernelLog := 0, kernelCount := 0, hashes := [], dirty := [0, 1, 2, 3, 4] } }
  let s := (s.fsetb R.SI_STATUS.MEMKEYS_LOADED true).fset R.TB_POWER.FLOOR (min 12300 Config.floor)
  let s := ((s.resetRegs R.PT_LADDER.addr R.PT_BOOST.addr).fset R.PT_BOOST.BUDGET 8000000).fset R.PT_BOOST.EPISODE 0
  let s := if s.fbit R.SI_STATUS.RNG_OK then
      (s.freeUsed.setReg R.RD_SR_SEED.SEED.addr (BitVec.ofNat 64 s.freeVal)).seedRd (BitVec.ofNat 64 s.freeVal)
    else s
  { s with al := { s.al with pages := (List.range 3).map s.newPage } }.holdUnused

/-- BOOT with straps and a slot: the slot runs, on trial or not, and INIT begins. -/
def State.bootSlot (s : State) (k : Nat) (trial : Bool) : State :=
  let s := (s.setFwSlot (s.fget R.CP_FW.RUN_SLOT) (s.fwSlot (s.fget R.CP_FW.RUN_SLOT))).fset R.CP_FW.RUN_SLOT k
  let x := s.slotOf k
  let s := ((((s.setFwSlot k 2).fset R.CP_FW.RUN_MAJOR x.major).fset R.CP_FW.RUN_MINOR x.minor).fsetb R.CP_FW.TRIAL
    trial).fsetb R.CP_FW.CONFIRMED (!trial)
  s.initSled.enterState SS.INIT

/-- A FULL trial is over without success: its slot is INVALID and the other one runs again (R452). -/
def State.trialFailed (s : State) (k : Nat) : State :=
  { s.setFwSlot k 3 with boot := { s.boot with act := none } }

/-- The slot that BOOT runs: the staged one of a FULL activation, else the preferred one, else the other one. -/
def State.bootFrom (s : State) (chk : BootCheck) : State :=
  let act := s.boot.act.filter (·.full)
  let first := (act.map (·.slot)).getD (s.fget R.CP_FW.PREFERRED)
  if s.bootOk chk first then s.bootSlot first act.isSome
  else
    let bad := act.isSome
    let s := s.when bad (·.trialFailed first)
    if s.bootOk chk (1 - first) then
      let s := s.bootSlot (1 - first) false
      if bad then s.fallback else s.fsetb R.CP_FW.FALLBACK true
    else
      let s := (s.initSled.fsetb R.CP_STATE.RECOVERY true).enterState SS.MAINTENANCE
      if bad then s.fallback else s.fsetb R.CP_FW.FALLBACK true

/-- Calendar time runs on through BOOT, which has no frame boundary (R32, assumption 19). -/
def State.bootTime (s : State) : State :=
  if s.fbit R.HE_TIME.VALID then (s.fset R.HE_TIME.UTC_MS (s.fget R.HE_TIME.UTC_MS + s.freeVal)).freeUsed else s

/-- The straps are latched and BOOT begins. -/
def State.bootBegin (s : State) (st : Straps) : State :=
  let s := s.bootTime
  let s := { s with boot := { s.boot with straps := st, latched := st }, si := { s.si with debugBoot := 0 }
                    regs := s.regs.filter fun e => keptReg false e.1 }
  let s := (s.fset R.CP_STATE.PREV_STATE SS.STANDBY).fset R.CP_STATE.STATE SS.BOOT
  let s := (s.fset R.SI_DEBUG.SESSIONS_BOOT 0).fsetb R.SI_STATUS.DEBUG_SINCE_BOOT false
  s.when s.strapConflict (·.alert 0)

/-- A rail outside its window: STANDBY again, and BOOT_FAIL after the third in a row (R430). -/
def State.railFail (s : State) : State :=
  let n := s.boot.railFails + 1
  let s := { s with boot := { s.boot with railFails := n } }
  let s := (s.fset R.CP_STATE.PREV_STATE SS.BOOT).fset R.CP_STATE.STATE SS.STANDBY
  if 3 ≤ n then (s.fsetb R.CP_STATE.BOOT_FAIL true).fsetb R.PT_BOOT.BOOT_FAIL true else s

/-- Meaning of BOOT_ENTRY (R429 to R431). -/
def execBootEntry (st : Straps) (chk : BootCheck) (s : State) : Res :=
  .next (if !s.bootReady then s
    else if chk.railFail then (s.bootBegin st).railFail else (s.bootBegin st).bootFrom chk)

/-- Meaning of BOOT_FAIL_CLEAR: clearing either flag clears both. -/
def execBootFailClear (s : State) : Res :=
  let s := { s with boot := { s.boot with railFails := 0 } }
  .next ((s.fsetb R.CP_STATE.BOOT_FAIL false).fsetb R.PT_BOOT.BOOT_FAIL false)

/-- Meaning of INIT_END: DISCOVERY, or MAINTENANCE under a strap conflict (R21); a FULL trial is confirmed (R451). -/
def execInitEnd (s : State) : Res :=
  .next (if s.sled ≠ SS.INIT then s
    else
      let s := s.enterState (if s.strapConflict then SS.MAINTENANCE else SS.DISCOVERY)
      match s.boot.act.filter (·.full) with
      | none => s
      | some a =>
        let s := { s with boot := { s.boot with act := none } }
        let x := { s.slotOf (1 - a.slot) with erased := false }
        ((((s.setSlot (1 - a.slot) x).fset R.CP_FW.PREFERRED a.slot).fsetb R.CP_FW.TRIAL false).fsetb R.CP_FW.CONFIRMED true))

/-- Meaning of FULL_TRIAL_TIMEOUT: 60 s after entering BOOT the trial goes back through STANDBY to the previous slot. -/
def execFullTrialTimeout (s : State) : Res :=
  .next (match s.boot.act.filter (·.full) with
    | some a =>
      if s.sled = SS.INIT ∧ 59300000 ≤ s.now then
        let s := ((s.fset R.CP_FW.RUN_SLOT (1 - a.slot)).trialFailed a.slot).fallback
        s.depower SS.STANDBY
      else s
    | none => s)

/-! ## Requests for a change of state (R436) -/

/-- Meaning of MAINT: DRAIN at the next boundary. -/
def execMaint (s : State) : Res :=
  .next (if s.sled = SS.PLAN_CHECK ∨ s.sled = SS.SERVICE ∨ s.sled = SS.DEGRADED then
      { s with boot := { s.boot with stateDue := some SS.DRAIN } }
    else s.fsetb R.CP_STATE.CTL_IGNORED true)

/-- Meaning of RESUME: DISCOVERY at the next boundary. -/
def execResume (s : State) : Res :=
  .next (if s.sled = SS.MAINTENANCE ∧ !s.strapConflict ∧ !s.fbit R.SG_STATUS.DUP_PLANE
        ∧ !s.fbit R.CP_STATE.RECOVERY then
      { s with boot := { s.boot with stateDue := some SS.DISCOVERY } }
    else s.fsetb R.CP_STATE.CTL_IGNORED true)

/-! ## Drain (R439, R459, R467) -/

/-- LEAVE cause of the drain that is due: 3 input loss, 2 FULL activation, 1 MAINT (R457). -/
def State.drainCause (s : State) : Nat :=
  if s.boot.lossAt.isSome then 3 else if s.boot.act.any (·.full) then 2 else 1

/-- DRAIN begins at FCLK 0 of frame G. An input loss keeps its own marks. -/
def State.enterDrain (s : State) : State :=
  let cause := s.drainCause
  let n := 4096 * max 1 (s.fget R.CP_STATE_CTL.DRAIN_UNITS)
  let endAt := match s.boot.lossAt with
    | some l => l + 4000
    | none => s.now + n - 1
  let s := { s with boot := { s.boot with drain := some { g := s.now, endAt := endAt, cause := cause } } }
  let s := (s.fsetb R.VG_PLANES.OWN_LEAVING true).fset R.VG_PLANES.OWN_CAUSE cause
  if s.sled = SS.DRAIN then s else s.enterState SS.DRAIN

/-- A change of state that waits for the boundary (R428). -/
def State.stateTick (s : State) : State :=
  match s.boot.stateDue with
  | none => s
  | some st =>
    let s := { s with boot := { s.boot with stateDue := none } }
    if st = SS.DRAIN then s.enterDrain else if st = SS.DISCOVERY && s.sled == SS.MAINTENANCE then s.enterState st else s

/-- Frame DEPART: the plane stops carrying cells (R459). -/
def State.departFrame (s : State) : Nat :=
  match s.boot.drain with
  | some d => if d.cause = 3 then d.endAt else d.endAt + 1
  | none => 0

/-- Core and context of every kernel state that is not at its reset value. -/
def State.kstates (s : State) : List (Nat × Nat) :=
  (s.regsIn 0x8000000 0x9000000).filterMap fun e =>
    if 0x600 ≤ e.1 % 0x10000 ∧ e.1 % 0x10000 < 0x800 then some ((e.1 - 0x8000000) / 0x10000, (e.1 % 0x10000 - 0x600) / 8)
    else none

/-- Every kernel is STOPPED (R385). -/
def State.stopAll (s : State) : State :=
  s.forEach (s.kstates.filter fun k => s.fget (R.CO_KSTATE.STATE k.1 k.2) == KS.STARTED) fun s k => s.kernelEnded k.1 k.2 2

/-- Every ARMED instance ends with ST_LOST. -/
def State.loseInstances (s : State) : State :=
  s.forEach ((s.rd.insts.map (·.1)).filter fun t => (s.armed t).isSome) fun s t => s.instEnd t ST.LOST

/-- Every optical port of the sled is dark (R437). -/
def State.portsDark (s : State) : State :=
  s.forEach ((List.range 160).filter s.isPort) fun s p =>
    let s := s.portDown p false
    if s.ports.any (·.1 == p) then s.setPort p { s.port p with retryAt := none, failed := 0 } else s

/-- The sled announces no leaving any more. -/
def State.stopLeaving (s : State) : State :=
  ({ s with boot := { s.boot with drain := none } }.fsetb R.VG_PLANES.OWN_LEAVING false).fset R.VG_PLANES.OWN_CAUSE 0

/-- Meaning of DRAIN_END: the end of the last frame of the drain. -/
def execDrainEnd (s : State) : Res :=
  .next (match s.boot.drain with
    | none => s
    | some d =>
      if s.sled ≠ SS.DRAIN ∨ d.cause = 3 ∨ s.now < d.endAt then s
      else
        let s := (s.stopAll.loseInstances.closePages 2 [0, 1, 2]).stopLeaving.portsDark
        if d.cause = 2 then s.depower SS.STANDBY else s.enterState SS.MAINTENANCE)

/-! ## Input loss (R467, R551) -/

/-- The input is lost in frame L: DRAIN and OPP_STOP and HALT on every core follow at the next boundary. Without rails
the sled goes OFF at once. -/
def State.loseInput (s : State) : State :=
  if s.sled = SS.OFF then s
  else if s.sled ≤ SS.BOOT then { s with boot := { s.boot with inputOk := false } }.depower SS.OFF
  else if s.boot.lossAt.isSome then s
  else { s with boot := { s.boot with lossAt := some s.now, stateDue := some SS.DRAIN, inputOk := false }
                power := { s.power with inputLoss := true } }

/-- Meaning of INPUT_LOSS. -/
def execInputLoss (s : State) : Res := .next s.loseInput

/-- Meaning of PRESENT_N_RISE. -/
def execPresentNRise (s : State) : Res := .next { s with boot := { s.boot with presentLow := false } }.loseInput

/-- Meaning of INPUT_LOSS_INSTANCE_END: frame L + 2; notices are sent once. Step 4 closes the pages. -/
def execInputLossInstanceEnd (s : State) : Res :=
  .next (match s.boot.lossAt with
    | some l =>
      if s.now < l + 2 then s
      else
        let s := s.loseInstances
        let ns : List Notice := s.rd.notices.map fun n => { n with sends := 3 }
        (s.setRd { s.rd with notices := ns }).closePages 3 ((s.al.pages.filter (·.frame < l + 2)).map (·.period))
    | none => s)

/-- Meaning of INPUT_LOSS_RAILS_OFF: L + 4,000. -/
def execInputLossRailsOff (s : State) : Res :=
  .next (match s.boot.lossAt with
    | some l => if s.now < l + 4000 then s else s.depower SS.OFF
    | none => s)

/-! ## HALT (R440, R468, R487) -/

/-- The comparator of PT removes the core, switch and optical rails: what they carried is lost and the links go dark. -/
def State.haltTrip (s : State) : State :=
  let s := s.portsDark.stopLeaving
  let s := s.resetRegs 0x8000000 0x9000000
  let s := { s with sw := {}, tg := {}, cores := [], boot := { s.boot with railsCore := false, stateDue := none } }
  let s := s.almAdd 1 0 134 1
  if s.sled = SS.HALT then s else s.enterState SS.HALT

/-- Meaning of THERMAL_TRIP: a logic die at 105 °C (or an optical case at 100 °C, a regulator at 125 °C). -/
def execThermalTrip (s : State) : Res := .next (if s.sled < SS.INIT ∨ !s.boot.railsCore then s else s.haltTrip)

/-- Meaning of BOOT_HOLD: cleared in HALT once every die lies below 85 °C, the sled returns to STANDBY. -/
def execBootHold (v : Bool) (s : State) : Res :=
  let s := s.fsetb R.PT_BOOT.BOOT_HOLD v
  .next (if !v ∧ s.sled = SS.HALT ∧ s.power.cool then s.depower SS.STANDBY else s)

end Sys2Proof.Machine
end

