-- ==== Sys2Proof/Machine/Resets.lean ====
section
/-! DEFINITION. Partial resets of a port, a core, a hub, the Tollgate and the control processor, and the errors that
start them (R441 to R445, R453 to R455). -/

namespace Sys2Proof.Machine

/-! Units (*RESET_PARTIAL payload*). -/
namespace U
def PORT : Nat := 0
def CORE : Nat := 1
def HUB : Nat := 2
def TOLLGATE : Nat := 3
def CONTROL : Nat := 4
end U

/-- The unit is in reset, or is about to be. -/
def State.resetting (s : State) (unit idx : Nat) : Bool := s.boot.resets.any fun u => u.unit == unit && u.index == idx

/-- The unit or the hub that contains it is in reset. -/
def State.resetBusy (s : State) (unit idx : Nat) : Bool :=
  s.resetting unit idx || (unit == U.CORE && s.resetting U.HUB (idx / 16))

/-- BUSY of CP_RESET: a bit per kind of unit in reset. -/
def State.markBusy (s : State) : State :=
  s.fset R.CP_RESET.BUSY (bitMap ((List.range 5).filter fun u => s.boot.resets.any fun x => x.unit == u && x.begun))

/-! ## What each reset does as it begins -/

/-- PORT p: the link goes DOWN and what the port keeps of it is reset. -/
def State.portReset (s : State) (p : Nat) : State :=
  let s := (s.testEnd p).portDown p false
  let s := s.resetRegs (R.OP_PORT_STATUS.addr p) (R.OP_WL_BER.addr p 8)
  if s.ports.any (·.1 == p) then s.setPort p { s.port p with failed := 0, retryAt := none, firstTry := true } else s

/-- A request of a core that is reset gives its value to no one; it completes under its own rules (R442). -/
def orphan (c : Nat) (q : Request) : Request := if q.core = c ∧ !q.direct then { q with dest := .none_, core := 256 } else q

/-- CORE c, at its frame: its kernels end SCRUBBED, their loads go, and the core is as after power-on (R442). -/
def State.coreReset (s : State) (c : Nat) : State :=
  let ks := s.kstates.filter (·.1 == c)
  let s := s.forEach ks fun s k =>
    let s := if s.fget (R.CO_KSTATE.STATE c k.2) = KS.STARTED then s.kernelEnded c k.2 3 else s
    s.leaveLoad c k.2
  let s := s.resetRegs (R.CO_STATUS.addr c) (R.CO_POWER.addr c)
  let s := s.resetRegs (R.CO_FAULT.addr c) (R.CO_STATUS.addr (c + 1))
  let x := s.ep (c / 16)
  let mine (o : Nat) : Bool := o / 4 == c % 16
  let x := { x with
    reqs := x.reqs.map (orphan c)
    members := x.members.map fun m => if m.core = c then { m with core := 256 } else m
    waits := x.waits.filter fun w => !mine w.observer
    fences := x.fences.filter fun w => !mine w.observer
    lost := x.lost.filter fun k => !mine (k / 64) }
  let us := s.kern.unloads.filter (·.2.1 != c)
  { s.setEp (c / 16) x with cores := kdel s.cores c, kern := { s.kern with unloads := us } }

/-- HUB h (R127, R330, R443): position 144 + h leaves UP, direct requests end, the end-point starts again. -/
def State.hubReset (s : State) (h : Nat) : State :=
  let w := s.fget (R.HB_LINK.WIDTH h)
  let s := (s.dropOutput (144 + h)).leaveUp (144 + h) w
  let s := s.forEach ((s.ep h).reqs.filter (·.direct)) fun s q =>
    let x := s.ep h
    (s.setEp h { x with reqs := x.reqs.filter (·.id != q.id) }).requestDone h q ST.LOST []
  let s := s.forEach ((s.rd.insts.map (·.1)).filter fun t => (s.armed t).any fun i => s.rootHere i == 128 + 16 * s.plane + h)
    fun s t => s.endWith t ST.LOST
  let s := s.dropCache h
  let s := s.setEp h { nextKey := (s.ep h).nextKey, lost := (s.ep h).lost, quietUntil := s.now + 1024 }
  let s := s.resetRegs (epBase h) (epBase h + 0x80000)
  let s := (s.resetRegs (R.HB_LINK.addr h) (R.HB_LINK.addr h + 8)).resetRegs (R.HB_MIRROR0.addr h 0) (R.HB_MIRROR0.addr h 16)
  let s := (s.resetRegs (R.HB_MIRROR_SYNC.addr h) (R.HB_MIRROR_SYNC.addr h + 8)).resetRegs (R.HB_MIRROR_STATS.addr h)
    (R.HB_MIRROR_STATS.addr h + 8)
  let s := s.resetRegs (R.HB_BW_CAP.addr h) (R.HB_BW_CAP.addr h + 8)
  let s := (s.fset (R.HB_STATUS.BAD_WINDOW h) 0).fset (R.HB_STATUS.BAD_SYNC h) 0
  let s := { s with tt := { s.tt with changes := s.tt.changes.filter (·.pos != 144 + h) } }
  let s := s.setHub h { s.hub h with
    syncs := [], mirrorScan := 0, mirrorOut := [], laneOver := [], waiting := [], cutWins := [] }
  s.forEach (List.range 16) fun s i =>
    let c := 16 * h + i
    let k := s.core c
    s.setCore c { k with resetDue := max 1 k.resetDue }

/-- CONTROL (R445): tags and commands go, in-flight work of the end-point is gone; tables, contexts and kernels stay. -/
def State.controlReset (s : State) : State :=
  let drop (x : SwapSt) : SwapSt := { x with checking := none }
  let qps := (List.range 256).filter fun q => s.fbit (R.HE_QP0.VALID q)
  let s := s.forEach qps fun s q => s.fset (R.HE_QP0.STATE q) 2
  let s := { s with
    host := { s.host with tags := s.host.tags.filter (·.island), partials := [], inband := [], memCmds := [], writes := [] }
    kern := { s.kern with starts := [], unloads := [] }
    tt := { s.tt with swap := drop s.tt.swap }
    sg := { s.sg with swap := drop s.sg.swap }
    rd := { s.rd with swap := drop s.rd.swap } }
  let x := s.ep 16
  let s := s.setEp 16 { nextKey := x.nextKey, quietUntil := s.now + 1024 }
  s.resetRegs (epBase 16) (epBase 16 + 0x80000)

/-- A unit whose reset has begun. -/
def State.resetBegin (s : State) (unit idx : Nat) : State :=
  let rs : List UnitReset := s.boot.resets.map fun u =>
    if u.unit = unit ∧ u.index = idx then { u with begun := true, since := s.now } else u
  let s := { s with boot := { s.boot with resets := rs } }
  let s := if unit = U.PORT then s.portReset idx else if unit = U.CORE then s.coreReset idx
    else if unit = U.HUB then s.hubReset idx else if unit = U.TOLLGATE then s.tgReset else s.controlReset
  s.markBusy

/-- Resets of cores whose frame has come, and those that wait for the frame after detection. -/
def State.resetTick (s : State) : State :=
  let cs := (s.cores.filter fun k => k.2.resetDue == 2).map (·.1)
  let s := s.forEach cs fun s c =>
    if s.resetting U.CORE c then s.resetBegin U.CORE c else s.coreReset c
  let due := s.boot.resets.filter fun u => !u.begun && u.unit != U.CORE && u.unit != U.CONTROL
  s.forEach due fun s u => s.resetBegin u.unit u.index

/-- A reset is asked for: a core's falls to the first frame not yet fixed (R442), the control processor's to one frame
later (R445), a detected error's to the frame after (R454). -/
def State.askReset (s : State) (u : UnitReset) (atOnce : Bool) : State :=
  let s := { s with boot := { s.boot with resets := s.boot.resets ++ [{ u with begun := false, since := s.now }] } }
  if u.unit = U.CORE then
    let k := s.core u.index
    s.setCore u.index { k with resetDue := max 1 k.resetDue }
  else if atOnce && u.unit != U.CONTROL then s.resetBegin u.unit u.index else s

/-! ## RESET_PARTIAL -/

/-- The status R441 gives. -/
def State.resetStatus (s : State) (p : List Byte) : Nat :=
  let unit := field p 0 1
  let opt := field p 1 1
  let idx := field p 2 2
  let st := s.sled
  let range := if unit = U.PORT then decide (idx < 160) && idx != s.ownPos else if unit = U.CORE then decide (idx < 256)
    else if unit = U.HUB then decide (idx < 16) else idx == 0
  if p.length != 8 || 4 < unit || 1 < opt || (opt == 1 && unit != U.HUB) || !range then ST.BAD_PARAM
  else if st == SS.BOOT || st == SS.DRAIN || st == SS.HALT || s.resetBusy unit idx || s.boot.act.isSome
      || (unit == U.HUB && opt == 0 && s.fget (R.HB_STATUS.RETIRE_STATE idx) == 2) then ST.BUSY
  else ST.OK

/-- Meaning of RESET_PARTIAL: ST_PENDING, but for CONTROL, whose command is complete and whose tag retires with the
rest. -/
def execResetPartial (r : CmdReq) (s : State) : Res :=
  let s := s.begin r
  let p := r.payload
  let st := s.resetStatus p
  let u : UnitReset :=
    { unit := field p 0 1, index := field p 2 2, relayout := field p 1 1 == 1, owner := r.owner, tag := r.tag, byCmd := true }
  .next (if st ≠ ST.OK then s.answerSt r st
    else if u.unit = U.CONTROL then
      let s := s.answerSt r ST.OK
      let ts := s.host.tags.filter fun t => !(t.owner == r.owner && t.tag == r.tag)
      { s with host := { s.host with tags := ts } }.askReset { u with byCmd := false } false
    else (s.askReset u true).pend r 0)

/-- Meaning of CONTROL_RESET: one frame after the reply; of a LIVE activation, into the staged slot on trial (R450). -/
def execControlReset (s : State) : Res :=
  .next (match s.boot.resets.find? fun u => u.unit == U.CONTROL && !u.begun with
    | none => s
    | some u =>
      if s.now < u.since + 1 then s
      else
        let s := s.resetBegin U.CONTROL 0
        match s.boot.act.filter fun a => !a.full && !a.begun with
        | none => s
        | some a =>
          ({ s with boot := { s.boot with act := some { a with begun := true } } }.fsetb R.CP_FW.TRIAL true).fsetb
            R.CP_FW.CONFIRMED false)

/-- A hub is back (R443): standing records and milestone OWNERs of the ACTIVE contexts that name it; under RELAYOUT its
channels are laid out again without those marked for retirement, and its memory is zero. -/
def State.relayout (s : State) (h : Nat) : State :=
  let a := s.fget (R.HB_STATUS.ACTIVE_MAP h)
  let gone := (List.range 96).filter fun k => s.fget (R.HB_CHAN.STATE h k) != 0
  let used := (List.range 96).filter fun v => gone.contains (s.fget (R.HB_IMAP.CHANNEL h a v))
  let gone := if 8 < gone.length then gone.take 8 else gone
  let s := s.forEach (List.range 96) fun s v =>
    s.forEach [0, 1] fun s b =>
      (s.fset (R.HB_IMAP.CHANNEL h b v) (s.fget (R.HB_IMAP.CHANNEL h a v))).fsetb (R.HB_IMAP.RETIRED h b v)
        (used.contains v && gone.contains (s.fget (R.HB_IMAP.CHANNEL h a v)))
  let s := s.forEach gone fun s k => s.fset (R.HB_CHAN.STATE h k) 2
  let n := 96 - gone.length
  let s := ((s.fset (R.HB_STATUS.CHANNELS h) n).fset (R.HB_SIZE.POPULATED h) (sizeOf n)).fset (R.HB_STATUS.RETIRED_COUNT h)
    gone.length
  let s := (s.fset (R.HB_STATUS.RETIRE_STATE h) 0).fset (R.HB_WATERMARK.WM h) 0
  let s := s.fset (R.HB_STATUS.RETIRE_BLOCKED h) 0
  let m := s.mem.filter fun e => !(hubAddr h 0 ≤ e.1 && e.1 < hubAddr (h + 1) 0)
  { s.setHub h { s.hub h with poison := [], events := [], corr := [], go := false } with mem := m }

def State.hubBack (s : State) (h : Nat) (relayout : Bool) : State :=
  let s := if relayout then s.relayout h else s
  let ctxs := (List.range 64).filter fun x =>
    x != 0 && s.ctxState x == 1 && bitAt (s.fget (R.CP_CTX.HUB_MASK x)) h
  let s := s.forEach ctxs fun s x =>
    let c := s.ctxRec x
    (s.install h c.records).1.forEach ((List.range c.msCount).map (c.msBase + ·)) fun s m => s.fset (R.MS_INFO.OWNER h m) x
  s.enterUp (144 + h)

/-- The unit is back in service. -/
def State.resetEnd (s : State) (u : UnitReset) : State :=
  let rs := s.boot.resets.filter fun x => !(x.unit == u.unit && x.index == u.index)
  let s := { s with boot := { s.boot with resets := rs } }
  let s := if u.unit = U.HUB then s.hubBack u.index u.relayout else s
  let s := (((s.fset R.CP_RESET.LAST_UNIT u.unit).fset R.CP_RESET.LAST_INDEX (u.index % 256)).finc R.CP_RESET.COUNT 1).markBusy
  if u.byCmd then s.complete u.owner u.tag ST.OK 0 [] else s

/-- Meaning of RESET_DONE. The end of a LIVE activation's reset is LIVE_CONFIRM or LIVE_TIMEOUT. -/
def execResetDone (unit index : Nat) (s : State) : Res :=
  .next (match s.boot.resets.find? fun u => u.unit == unit && u.index == index && u.begun with
    | none => s
    | some u =>
      let live := unit == U.CONTROL && s.boot.act.any fun a => !a.full
      let cores := unit == U.HUB && (List.range 16).any fun i => 0 < (s.core (16 * index + i)).resetDue
      if live || cores then s else s.resetEnd u)

/-! ## Uncorrectable errors (R453 to R455) -/

/-- The n-th of what the buffers hold, in their order, and the buffers without it. -/
def takeNth {α : Type} : KV (List α) → Nat → Option (α × KV (List α))
  | [], _ => none
  | e :: l, n =>
    match e.2[n]? with
    | some x => some (x, (e.1, e.2.eraseIdx n) :: l)
    | none => (takeNth l (n - e.2.length)).map fun r => (r.1, e :: r.2)

/-- The cells the n-th place of a kind of buffer of the core holds, and the core without them (R106): 0 to 2 the input
pools, 3 and 4 the intermediate queues, 5 and 6 the multicast stores, 7 and 8 the output queues. -/
def Switch.takeCells (w : Switch) (kind n : Nat) : Option (Nat × Switch) :=
  match kind with
  | 0 => (takeNth w.inG n).map fun r => (1, { w with inG := r.2 })
  | 1 => (takeNth w.inCtl n).map fun r => (1, { w with inCtl := r.2 })
  | 2 => (takeNth w.inBe n).map fun r => (1, { w with inBe := r.2 })
  | 3 => (takeNth w.midG n).map fun r => (1, { w with midG := r.2 })
  | 4 => (takeNth w.midBe n).map fun r => (1, { w with midBe := r.2 })
  | 5 => (takeNth w.mcG n).map fun r => (1, { w with mcG := r.2 })
  | 6 => (takeNth w.mcBe n).map fun r => (1, { w with mcBe := r.2 })
  | 7 => (takeNth w.outG n).map fun r => (r.1.cells.length, { w with outG := r.2 })
  | 8 => (takeNth w.outBe n).map fun r => (r.1.cells.length, { w with outBe := r.2 })
  | _ => none

/-- An uncorrectable error in a cell buffer: what it holds there is discarded and counted (R107, R453). -/
def State.bufferError (s : State) (kind n : Nat) : State :=
  match s.sw.takeCells kind n with
  | some r => (s.setSw r.2).finc R.VG_FAULT.BUFFER_DBE r.1
  | none => s

/-- Meaning of ECC_UNCORRECTABLE: units 1 to 4 as in RESET_PARTIAL; 5: a cell buffer, whose kind is index mod 16 and whose
place index / 16. -/
def execEccUncorrectable (unit index : Nat) (s : State) : Res :=
  .next (
    if unit = 5 then s.bufferError (index % 16) (index / 16)
    else
      let ok := (unit == U.CORE && decide (index < 256)) || (unit == U.HUB && decide (index < 16))
        || ((unit == U.TOLLGATE || unit == U.CONTROL) && index == 0)
      if !ok || s.resetBusy unit index then s
      else
        let s := ((s.finc R.VG_FAULT.AUTO_RESET 1).fset R.VG_FAULT.LAST_UNIT unit).alert 5
        s.askReset { unit := unit, index := index } false)

/-- Family and bank of a bank word; none outside the banks. -/
def bankOf (addr : Nat) : Option (Nat × Nat) :=
  (List.range 6).findSome? fun i =>
    if bankBase (i / 2) (i % 2) ≤ addr ∧ addr < bankBase (i / 2) (i % 2) + bankSize (i / 2) then some (i / 2, i % 2) else none

/-- Meaning of TABLE_ECC_ERROR (R455). -/
def execTableEccError (addr : Nat) (s : State) : Res :=
  .next (match bankOf addr with
    | none => s
    | some (f, b) =>
      if s.eccBad f addr then s
      else
        let x := s.swapSt f
        let s := s.setSwapSt f { x with eccBad := addNew x.eccBad addr }
        if b = s.activeBank f then (s.finc R.VG_FAULT.TABLE_ERR 1).alert 5 else s)

end Sys2Proof.Machine
end

