-- ==== Sys2Proof/Machine/Firmware.lean ====
section
/-! DEFINITION. Firmware bundles, staging and activation (R446 to R452). -/

namespace Sys2Proof.Machine

/-- SHA3-512 of component i (1 to 8) of the bundle in a slot. -/
def State.compHash (s : State) (k i : Nat) : List Byte :=
  match (s.slotOf k).comps[i - 1]? with
  | some v => leBytes v 64
  | none => bytesAt (Config.factoryHash k i) 0 64

/-- SHA3-512 of the whole bundle in a slot. -/
def State.bundleHash (s : State) (k : Nat) : List Byte :=
  if (s.slotOf k).total = 0 then bytesAt (Config.factoryHash k 0) 0 64 else leBytes (s.slotOf k).hash 64

/-- LIVE components (R446). -/
def isLive (i : Nat) : Bool := i == 3 || i == 4 || i == 5

/-- The slot that does not run. -/
def State.otherSlot (s : State) : Nat := 1 - s.fget R.CP_FW.RUN_SLOT

/-! ## The check of R447 -/

/-- Record i of a bundle. -/
def compRec (b : List Byte) (i : Nat) : List Byte := bytesAt b (64 + 80 * i) 80

/-- Two components share no byte. -/
def compsApart (a b : List Byte) : Bool :=
  field a 4 4 + field a 8 4 ≤ field b 4 4 || field b 4 4 + field b 8 4 ≤ field a 4 4

/-- Components of a list are pairwise apart. -/
def allApart : List (List Byte) → Bool
  | [] => true
  | a :: l => l.all (compsApart a) && allApart l

/-- The bundle is valid. -/
def State.bundleOk (s : State) (b : List Byte) : Bool :=
  let total := b.length
  let recs := (List.range 8).map (compRec b)
  let signed := b.take (total - 4627)
  field b 0 2 == 0x4657 && field b 8 4 == total && field b 12 1 == 8 && field b 13 51 == 0
    && (List.range 8).all (fun i => (recs.filter fun r => field r 0 1 == i + 1).length == 1)
    && recs.all (fun r => field r 1 3 == 0 && field r 12 4 == 0 && field r 4 4 + field r 8 4 ≤ total
      && bytesAt r 16 64 == sha3 (bytesAt b (field r 4 4) (field r 8 4)))
    && allApart recs && s.fget R.CP_FW.SVN_MIN ≤ field b 4 4
    && Config.verify 0 signed (b.drop (total - 4627))

/-! ## FW_STAGE (R448) -/

/-- The bytes of a slot; one that nothing has written since the erasure holds an open value. -/
def State.slotBytes (s : State) (x : FwSlot) : List Byte :=
  (List.range x.total).map fun i => kgetD (α := Byte) x.bytes i (BitVec.ofNat 8 s.freeVal)

/-- The status of a piece. -/
def State.stageStatus (s : State) (p : List Byte) : Nat :=
  let x := s.slotOf s.otherSlot
  let total := field p 4 4
  let flags := field p 8 1
  let first := bitAt flags 0
  if s.boot.act.isSome then ST.BUSY
  else if p.length < 16 || 4 ≤ flags || 67108864 < total || total < field p 0 4 + (p.length - 16)
      || (!first && (!x.erased || total != x.total)) then ST.BAD_PARAM
  else ST.OK

/-- A piece is written into the inactive slot, which FIRST erases. -/
def State.stagePiece (s : State) (p : List Byte) : State :=
  let k := s.otherSlot
  let x := if bitAt (field p 8 1) 0 then { total := field p 4 4, erased := true } else s.slotOf k
  let bs := (p.drop 16).mapIdx fun i b => (field p 0 4 + i, b)
  let x := { x with bytes := bs.foldl (fun m e => kset (α := Byte) m e.1 e.2) x.bytes }
  (s.setSlot k x).setFwSlot k 1

/-- LAST: the island verifies the slot. -/
def State.stageLast (s : State) : State :=
  let k := s.otherSlot
  let x := s.slotOf k
  let b := s.slotBytes x
  let ok := s.bundleOk b
  let recs := (List.range 8).map (compRec b)
  let comps := (List.range 8).map fun i =>
    ((recs.find? fun r => field r 0 1 == i + 1).map fun r => field r 16 64).getD 0
  let x := { x with hash := leNat (sha3 b), major := field b 2 1, minor := field b 3 1, comps := comps }
  ((s.setSlot k x).setFwSlot k (if ok then 2 else 3)).freeUsed

/-- Meaning of FW_STAGE. Before LAST there is no whole bundle: the hash of the result is then an open value. -/
def execFwStage (r : CmdReq) (s : State) : Res :=
  let s := s.begin r
  let st := s.stageStatus r.payload
  .next (if st ≠ ST.OK then s.answerSt r st
    else
      let s := s.stagePiece r.payload
      let k := s.otherSlot
      if bitAt (field r.payload 8 1) 1 then
        let s := s.stageLast
        s.answer r ST.OK 0 (leBytes (s.fwSlot k) 1 ++ List.replicate 7 0 ++ s.bundleHash k)
      else s.freeUsed.answer r ST.OK 0 (leBytes (s.fwSlot k) 1 ++ List.replicate 7 0 ++ leBytes s.freeVal 64))

/-! ## FW_ACTIVATE (R449 to R452) -/

/-- The status R449 gives. -/
def State.activateStatus (s : State) (p : List Byte) : Nat :=
  let mode := field p 0 1
  let k := s.otherSlot
  let run := s.fget R.CP_FW.RUN_SLOT
  let st := s.sled
  let full := ((List.range 8).map (· + 1)).filter fun i => !isLive i
  if p.length != 64 || 1 < mode || s.fwSlot k != 2
      || bytesAt p 4 32 != (s.bundleHash k).take 32 then ST.BAD_PARAM
  else if !s.boot.resets.isEmpty || s.boot.act.isSome || st == SS.BOOT || st == SS.DRAIN || st == SS.HALT then ST.BUSY
  else if mode == 0 && ((s.slotOf k).major != s.fget R.CP_FW.RUN_MAJOR || s.fbit R.CP_STATE.RECOVERY
      || full.any fun i => s.compHash k i != s.compHash run i) then ST.BAD_PARAM
  else ST.OK

/-- Meaning of FW_ACTIVATE: LIVE begins a CONTROL reset one frame later, FULL a drain at the next boundary. -/
def execFwActivate (r : CmdReq) (s : State) : Res :=
  let s := s.begin r
  let st := s.activateStatus r.payload
  .next (if st ≠ ST.OK then s.answerSt r st
    else
      let full := field r.payload 0 1 == 1
      let s := s.pend r 0
      let s := { s with boot := { s.boot with act := some { full := full, at_ := s.now, slot := s.otherSlot } } }
      if full then { s with boot := { s.boot with stateDue := some SS.DRAIN } }
      else s.askReset { unit := U.CONTROL } false)

/-- Slots are not erased for staging any more once an activation is over (R448). -/
def State.endActivation (s : State) : State :=
  { s with boot := { s.boot with act := none, slotA := { s.boot.slotA with erased := false }
                                 slotB := { s.boot.slotB with erased := false } } }

/-- The CONTROL reset of a LIVE activation ends. -/
def State.endControl (s : State) : State :=
  match s.boot.resets.find? fun u => u.unit == U.CONTROL && u.begun with
  | some u => s.resetEnd u
  | none => s

/-- Meaning of LIVE_CONFIRM: the staged slot becomes the running and the preferred one. -/
def execLiveConfirm (s : State) : Res :=
  .next (match s.boot.act.filter fun a => !a.full && a.begun with
    | none => s
    | some a =>
      if a.at_ + 10000000 < s.now then s
      else
        let s := (s.setFwSlot (1 - a.slot) 2).fset R.CP_FW.RUN_SLOT a.slot
        let x := s.slotOf a.slot
        let s := (((s.setFwSlot a.slot 2).fset R.CP_FW.PREFERRED a.slot).fset R.CP_FW.RUN_MAJOR x.major).fset
          R.CP_FW.RUN_MINOR x.minor
        ((s.fsetb R.CP_FW.TRIAL false).fsetb R.CP_FW.CONFIRMED true).endActivation.endControl)

/-- Meaning of LIVE_TIMEOUT: another CONTROL reset returns to the previous slot; the staged one is INVALID. -/
def execLiveTimeout (s : State) : Res :=
  .next (match s.boot.act.filter fun a => !a.full with
    | none => s
    | some a =>
      if s.now < a.at_ + 10000000 then s
      else
        let s := (s.setFwSlot a.slot 3).fallback
        let s := ((s.fsetb R.CP_FW.TRIAL false).fsetb R.CP_FW.CONFIRMED true).endActivation.endControl
        s.askReset { unit := U.CONTROL } false)

end Sys2Proof.Machine
end

