-- ==== Sys2Proof/Machine/Liveness.lean ====
section
/-! DEFINITION. Heartbeats, Vigil and GONE marks (R456 to R465). -/

namespace Sys2Proof.Machine

/-! ## What a heartbeat says (R457) -/

/-- LEAVE: bit 0 and the cause. -/
def State.leaveByte (s : State) : Nat := s.fget R.VG_PLANES.OWN_LEAVING + 2 * s.fget R.VG_PLANES.OWN_CAUSE

/-- LINKS of the sled: mesh ports UP and its own bit. -/
def State.linksUp (s : State) : Nat :=
  bitMap ((List.range 16).filter fun q => q == s.plane || s.portState (128 + q) == PS.UP)

/-- LINKS of the chiplet. -/
def State.chipLinks (s : State) : Nat := bitMap ((List.range 16).filter fun k => s.portState (160 + k) == PS.UP)

def State.hubsUp (s : State) : Nat := bitMap ((List.range 16).filter fun h => s.posUp (144 + h))

/-- LEAVING_MAP: latest reports of the other sleds, and the own bit. -/
def State.leavingMap (s : State) : Nat :=
  let m := bitClr (s.fget R.VG_PLANES.LEAVING) s.plane
  if s.fbit R.VG_PLANES.OWN_LEAVING then bitSet m s.plane else m

/-- DARK: accelerator ports that are not UP. -/
def State.darkMap (s : State) : Nat := bitMap ((List.range 128).filter fun a => s.portState a != PS.UP)

/-- What a change of announces a CHANGE heartbeat (R458). -/
def State.announces (s : State) : List Nat := [s.leaveByte, s.linksUp, s.hubsUp, s.leavingMap, s.darkMap]

/-- The payload, from byte 16 of the cell. -/
def State.beatPayload (s : State) (chip : Bool) (kind : Nat) : List Byte :=
  let z (v : Nat) : Nat := if chip then 0 else v
  leBytes kind 1 ++ leBytes (if chip then 2 else 0) 1 ++ leBytes (z s.sled) 1 ++ leBytes (z s.leaveByte) 1
    ++ leBytes (z (s.fget R.SG_STATUS.EPOCH)) 4 ++ leBytes (z s.departFrame) 8
    ++ leBytes (if chip then s.chipLinks else s.linksUp) 2 ++ leBytes (z s.hubsUp) 2 ++ leBytes (z s.leavingMap) 2 ++ [0, 0]
    ++ leBytes (z s.darkMap) 16 ++ leBytes (if chip then s.chipNow else s.now) 8

/-- Sends a heartbeat on a port that is UP: at most one a frame. It takes a slot as link management cells do. -/
def State.sendBeat (s : State) (p kind : Nat) : State :=
  let x := s.port p
  let chip := decide (160 ≤ p)
  if s.portState p ≠ PS.UP ∨ s.vigil.sentNow.contains p then s
  else
    let dst := if chip then 384 + (p - 160) else if p < 128 then p else 384 + (p - 128)
    let src := if chip then s.epId 17 else 384 + s.plane
    let c : Cell := { typ := T.HEARTBEAT, cls := 2, dst := dst, src := src, seq := x.hbSeq
                      payload := lineOf (s.beatPayload chip kind) }
    let s := s.setPort p { x with hbSeq := (x.hbSeq + 1) % 65536 }
    { s with vigil := { s.vigil with sentNow := p :: s.vigil.sentNow } }.portSend p c

/-- Phase of a sender on a port (R456). -/
def State.beatPhase (s : State) (p : Nat) : Nat := if 160 ≤ p then 2 * s.epId 17 % 256 else (2 * p + 1) % 256

/-- Meaning of HEARTBEAT_SEND: a sled sends from DISCOVERY on. -/
def execHeartbeatSend (port : Nat) (s : State) : Res :=
  let ok := s.isPort port && (160 ≤ port || (port < 144 && SS.DISCOVERY ≤ s.sled))
  .next (if ok && s.now % 256 == s.beatPhase port then s.sendBeat port 0 else s)

/-- Meaning of CHANGE_HEARTBEAT (R458, R459): after a change, and in each of the first 8 frames of DRAIN. -/
def execChangeHeartbeat (s : State) : Res :=
  let cur := s.announces
  let ups := (List.range 144).filter fun p => s.isPort p && s.portState p == PS.UP
  let drain := s.boot.drain.any fun d => s.now < d.g + 8
  let owes := if cur != s.vigil.announced || drain then ups else s.vigil.owes.filter ups.contains
  .next (if s.sled < SS.DISCOVERY then s
    else
      let s := { s with vigil := { s.vigil with announced := cur, owes := owes.filter s.vigil.sentNow.contains } }
      s.forEach owes fun s p => s.sendBeat p 1)

/-! ## Vigil (R461 to R464) -/

/-- Subjects in a state. -/
def State.subjectsIn (s : State) (st : Nat) : Nat :=
  ((List.range 144).filter fun i => s.fget (R.VG_EP.STATE i) == st).length

/-- SUSPECT_NOW and DEAD_NOW. -/
def State.vigilCount (s : State) : State :=
  (s.fset R.VG_STATUS.SUSPECT_NOW (s.subjectsIn 2)).fset R.VG_STATUS.DEAD_NOW (s.subjectsIn 3)

/-- A heartbeat arrives from a subject. -/
def State.hear (s : State) (i : Nat) : State :=
  let s := s.fset (R.VG_EP.LAST_HB i) s.now
  let s := { s with vigil := { s.vigil with heardNow := addNew s.vigil.heardNow i } }
  if s.fget (R.VG_EP.STATE i) = 3 then s else ((s.fset (R.VG_EP.STATE i) 1).fset (R.VG_EP.MISSED i) 0).vigilCount

/-- The latest heartbeat of a port. -/
def beatOf (now src : Nat) (p : List Byte) : Beat :=
  { src := src, at_ := now, state := field p 2 1, leaving := bitAt (field p 3 1) 0, cause := bitsOf (field p 3 1) 3 1
    depart := field p 8 8, links := field p 16 2, hubUp := field p 18 2, leavingMap := field p 20 2
    dark := field p 24 16, epoch := field p 4 4 }

/-- A heartbeat received by the sled from sled q, which its SRC names. -/
def State.hearSled (s : State) (q : Nat) (old : Option Beat) (b : Beat) : State :=
  let f := R.VG_PLANES.LEAVING
  let s := s.fset f (if b.leaving then bitSet (s.fget f) q else bitClr (s.fget f) q)
  let at_ := if b.leaving then kset s.sg.departAt q b.depart else kdel s.sg.departAt q
  { s with sg := { s.sg with departAt := at_, substDue := s.sg.substDue || old.all fun o => o.links != b.links || o.src != b.src } }

/-- Meaning of HEARTBEAT_RECEIVE: consumed by the port (R457). -/
def execHeartbeatReceive (port : Nat) (cell : Cell) (s : State) : Res :=
  .next (if cell.typ ≠ T.HEARTBEAT ∨ s.portState port ≠ PS.UP ∨ !s.isPort port ∨ (144 ≤ port ∧ port < 160) then s
    else
      let b := beatOf s.now cell.src (lineBytes cell.payload)
      let old := kget s.vigil.beats port
      let s := { s with vigil := { s.vigil with beats := kset s.vigil.beats port b } }
      if 160 ≤ port then
        if b.leaving then { s with chip := { s.chip with leavingDue := addNew s.chip.leavingDue (port - 160) } } else s
      else
        let s := s.hear port
        if 128 ≤ port then s.hearSled (if 384 ≤ cell.src ∧ cell.src < 400 then cell.src - 384 else port - 128) old b
        else s)

/-- First frame of a subject's windows, modulo 256 (R456). -/
def State.subjectPhase (s : State) (i : Nat) : Nat := if i < 128 then 2 * i % 256 else (2 * (128 + s.plane) + 1) % 256

/-- Meaning of VIGIL_WINDOW_END (R461). -/
def execVigilWindowEnd (subject : Nat) (s : State) : Res :=
  .next (if 144 ≤ subject ∨ subject = s.ownPos ∨ s.now % 256 ≠ s.subjectPhase subject then s
    else
      let heard := s.vigil.heardNow.contains subject
      let prev := s.vigil.heardPrev.filter (· != subject)
      let s := { s with vigil := { s.vigil with
        heardNow := s.vigil.heardNow.filter (· != subject)
        heardPrev := if heard then subject :: prev else prev } }
      let n := if heard then 0 else min 15 (s.fget (R.VG_EP.MISSED subject) + 1)
      let s := s.fset (R.VG_EP.MISSED subject) n
      if n = 4 ∧ s.fget (R.VG_EP.STATE subject) = 1 then
        ((((s.fset (R.VG_EP.STATE subject) 2).fsat (R.VG_EP.SUSPECTS subject) 1).almAdd 3 0 32 1).vigilCount)
      else s)

/-! ## VIGIL_CONFIRM -/

/-- The subject of an id of VIGIL_CONFIRM. -/
def State.subjectOf (s : State) (w : Nat) : Option Nat :=
  if w < 128 then some w else if 384 ≤ w ∧ w < 400 ∧ w ≠ 384 + s.plane then some (128 + (w - 384)) else none

/-- Ids that a verdict on a subject marks. -/
def marksOfSubject (i : Nat) : List Nat :=
  if i < 128 then [i]
  else
    let q := i - 128
    (List.range 16).map (128 + 16 * q + ·) ++ [384 + q, 400 + q]

/-- One verdict: 0 DEAD, 1 ALIVE, 2 CLEAR. -/
def State.verdict (s : State) (i v : Nat) : State :=
  let st := s.fget (R.VG_EP.STATE i)
  let s := s.when ((v == 1 && 2 ≤ st) || (v == 0 && st == 1)) fun s => (s.finc R.VG_STATUS.DISAGREE 1).almAdd 3 0 36 1
  let due (set : Bool) : List (Nat × Bool) := (marksOfSubject i).map fun id => (id, set)
  if v = 0 then
    let s := (((s.fset (R.VG_EP.STATE i) 3).fset (R.VG_EP.OPINION i) 2).almAdd 3 0 34 1).vigilCount
    { s with vigil := { s.vigil with confirmDue := s.vigil.confirmDue ++ due true } }
  else if v = 1 then s.fset (R.VG_EP.OPINION i) 1
  else
    let heard := s.vigil.heardNow.contains i || s.vigil.heardPrev.contains i
    let new := if heard then 1 else if 4 ≤ s.fget (R.VG_EP.MISSED i) then 2 else 0
    let s := ((s.fset (R.VG_EP.STATE i) new).fset (R.VG_EP.OPINION i) 0).vigilCount
    { s with vigil := { s.vigil with confirmDue := s.vigil.confirmDue ++ due false } }

/-- The records in order: the state, and the index of the record that stopped the list. -/
def State.verdicts (s : State) (p : List Byte) : Nat → Nat → State × Option Nat
  | 0, _ => (s, none)
  | n + 1, i =>
    let o := 8 + 4 * i
    match s.subjectOf (field p o 2) with
    | some x =>
      if 2 < field p (o + 2) 1 then (s, some i) else (s.verdict x (field p (o + 2) 1)).verdicts p n (i + 1)
    | none => (s, some i)

/-- Meaning of VIGIL_CONFIRM. -/
def execVigilConfirm (r : CmdReq) (s : State) : Res :=
  let s := s.begin r
  let p := r.payload
  let n := field p 0 2
  .next (if n = 0 ∨ 254 < n ∨ p.length ≠ 8 + 4 * n then s.answerSt r ST.BAD_PARAM
    else
      match s.verdicts p n 0 with
      | (s, none) => s.answerSt r ST.OK
      | (s, some i) => s.answer r ST.BAD_PARAM i [])

/-- CONFIRM marks change at FCLK 0 (R465). -/
def State.confirmTick (s : State) : State :=
  let s := s.forEach s.vigil.confirmDue fun s d =>
    let f := R.VG_GONE_CONFIRM.MAP (d.1 / 64)
    let m := s.fget f
    if d.2 && !bitAt m (d.1 % 64) then (s.fset f (bitSet m (d.1 % 64))).almAdd 3 0 38 1
    else if !d.2 then s.fset f (bitClr m (d.1 % 64)) else s
  { s with vigil := { s.vigil with confirmDue := [] } }

/-! ## DEPART and LIGHT marks (R465) -/

/-- Frames without a position for each sled, counted at the boundary. -/
def State.pathTick (s : State) : State :=
  let f (m : KV Nat) (q : Nat) : KV Nat :=
    if q = s.plane then m
    else if (s.substPos (128 + q)).isNone then kset m q (kgetD s.sg.noPath q 0 + 1) else kdel m q
  if s.sled < SS.INIT then s else { s with sg := { s.sg with noPath := (List.range 16).foldl f s.sg.noPath } }

/-- Meaning of GONE_DEPART. -/
def execGoneDepart (plane : Nat) (s : State) : Res :=
  let due := (kget s.sg.departAt plane).any (· ≤ s.now) || 4 ≤ kgetD s.sg.noPath plane 0
  .next (if 16 ≤ plane ∨ plane = s.plane ∨ s.sg.departMarks.contains plane ∨ !due then s
    else
      let s := { s with sg := { s.sg with departMarks := addNew s.sg.departMarks plane } }
      (s.fset R.VG_PLANES.DEPARTED (bitSet (s.fget R.VG_PLANES.DEPARTED) plane)).almAdd 3 0 38 18)

/-- A path to sled q is there again: the direct one, or a relay that reports it. -/
def State.backAgain (s : State) (q : Nat) : Bool :=
  match s.reach q with
  | none => false
  | some p =>
    let direct := p == 128 + q || (kget s.sg.adopted (128 + q)) == some p
    s.portState p == PS.UP &&
      ((kget s.vigil.beats p).any fun b => if direct then !b.leaving else bitAt b.links q && !bitAt b.leavingMap q)

/-- Meaning of GONE_CLEAR. -/
def execGoneClear (id : Nat) (s : State) : Res :=
  .next (
    if id < 128 then
      let f := R.VG_GONE_LIGHT.MAP (id / 64)
      let o := s.outcome id
      if s.portState id = PS.UP ∧ (o = OC.MATCH ∨ o = OC.ADOPTED) then s.fset f (bitClr (s.fget f) (id % 64)) else s
    else if 416 ≤ id then s
    else
      let q := planeOfId id
      if s.sg.departMarks.contains q ∧ s.backAgain q then
        let s := { s with sg := { s.sg with departMarks := s.sg.departMarks.filter (· != q), noPath := kdel s.sg.noPath q } }
        s.fset R.VG_PLANES.DEPARTED (bitClr (s.fget R.VG_PLANES.DEPARTED) q)
      else s)

/-- What the boundary brings to liveness: one heartbeat a port again, the planes that are leaving (R459). -/
def State.vigilTick (s : State) : State :=
  let due := s.chip.leavingDue.filter fun k => s.portState (160 + k) == PS.UP
  let s := { s with
    vigil := { s.vigil with sentNow := [] }
    chip := { s.chip with leaving := due.foldl addNew s.chip.leaving, leavingDue := [] } }
  s.confirmTick.pathTick

end Sys2Proof.Machine
end

