-- ==== Sys2Proof/Machine/Power.lean ====
section
/-! DEFINITION. Power and cooling: ceiling, boost, throttle ladder, coolant bands, temperature limits, laser wear
(R468, R469, R471 to R490). Power is counted in 0.1 W, energy in 0.1 µJ, which is 0.1 W over one frame. -/

namespace Sys2Proof.Machine

/-! ## Settings of a position (*Ladder positions*) -/

def quotaOf (p : Nat) : Nat := if p < 4 then 1600 else 256 / 2 ^ (min p 7 - 4)
def capOf (p : Nat) : Nat := if p < 8 then 64 else if p = 8 then 32 else if p = 9 then 16 else if p = 10 then 4 else 1
def dutyOf (p : Nat) : Nat := if p < 12 then 16 else if p = 12 then 12 else if p = 13 then 8 else if p = 14 then 4 else 1

/-- OPP_STOP of a position in a frame. -/
def oppShare (p frame : Nat) : Bool :=
  if p = 0 then false else if p = 1 then frame % 4 == 3 else if p = 2 then frame % 2 == 1 else frame % 4 != 0

/-- OPP_STOP of every core for the next frame, and HALT (R467, R468, R483). -/
def State.writeStops (s : State) : State :=
  if !s.boot.railsCore then s
  else
    let opp := oppShare (s.fget R.PT_LADDER.POSITION) (s.now + 1) || s.fbit R.VG_PLANES.COOLANT_EMERG || s.power.inputLoss
    let halt := s.power.haltTemp || s.power.inputLoss
    s.forEach (List.range 256) fun s c =>
      let s := if s.fbit (R.CO_POWER.OPP_STOP c) == opp then s else s.fsetb (R.CO_POWER.OPP_STOP c) opp
      if s.fbit (R.CO_POWER.HALT c) == halt then s else s.fsetb (R.CO_POWER.HALT c) halt

/-- BE_QUOTA, CAP and DUTY of the position decided one frame before (R481). PT writes a CAP below 64 as long as the
position asks for it, and 64 once as the ladder leaves those positions. -/
def State.applyLadder (s : State) : State :=
  let p := s.fget R.PT_LADDER.POSITION
  let old := s.power.applied
  let s := if quotaOf p = quotaOf old then s else s.fset R.PT_LADDER.BE_QUOTA (quotaOf p)
  let s := if capOf p = 64 ∧ capOf old = 64 then s
    else s.forEach (List.range 16) fun s h =>
      if s.fget (R.HB_BW_CAP.CAP h) = capOf p then s else s.fset (R.HB_BW_CAP.CAP h) (capOf p)
  let s := if dutyOf p = dutyOf old then s
    else s.forEach (List.range 256) fun s c => s.fset (R.CO_POWER.DUTY c) (dutyOf p)
  { s with power := { s.power with applied := p } }

/-! ## Boost (R475 to R478) -/

/-- 8,000 J. -/
def boostFull : Nat := 80000000000

/-- BOOST_OK is held at 0. -/
def State.boostHeld (s : State) : Bool :=
  !s.fbit R.PT_LADDER.BOOST_EN || s.fget R.PT_COOLANT.BAND != 0 || 0 < s.power.lowFlow || s.fbit R.PT_COOLANT.INLET_HIGH

/-- The budget and the episode after a frame of power p. -/
def State.chargeBoost (s : State) (p : Nat) : State :=
  let w := s.power
  let begins := decide (17000 < p) && w.episode == 0
  let w := if 17000 < p then { w with budget := w.budget - (p - 17000), episode := w.episode + 1 }
    else { w with budget := min boostFull (w.budget + 800), episode := 0 }
  let s := { s with power := w }
  let s := s.fset R.PT_BOOST.BUDGET (w.budget / 10000)
  let ms := w.episode / 1000
  let s := if ms < 65536 then s.fset R.PT_BOOST.EPISODE ms else (s.fset R.PT_BOOST.EPISODE s.freeVal).freeUsed
  (s.when begins fun s => (s.fsat R.PT_BOOST.EPISODES 1).almAdd 1 0 136 1).almMin 1 0 114 w.budget

/-- BOOST_OK clears: the budget is gone, the episode too long, or R477 holds it at 0. -/
def State.boostExhaust (s : State) : State :=
  if s.power.budget = 0 ∨ 20000000 ≤ s.power.episode ∨ s.boostHeld then s.fsetb R.PT_LADDER.BOOST_OK false else s

/-- BOOST_OK sets again. -/
def State.boostRestore (s : State) : State :=
  if boostFull ≤ s.power.budget ∧ s.power.episode < 20000000 ∧ !s.boostHeld then s.fsetb R.PT_LADDER.BOOST_OK true else s

/-- Meaning of BOOST_EXHAUST. -/
def execBoostExhaust (s : State) : Res := .next s.boostExhaust

/-- Meaning of BOOST_RESTORE. -/
def execBoostRestore (s : State) : Res := .next s.boostRestore

/-- LIMIT lowered by the coolant band; in an emergency the band before it counts (R486). -/
def State.sustained (s : State) : Nat :=
  let b := s.fget R.PT_COOLANT.BAND
  let b := if b = 3 then s.power.bandBefore else b
  let l := s.fget R.TB_POWER.LIMIT
  if b = 0 then l else if b = 1 then min l 15000 else min l 12500

/-- The ceiling C for a busbar of `volts` times 10 mV. -/
def State.ceiling (s : State) (volts : Nat) : Nat :=
  if s.fbit R.PT_LADDER.BOOST_OK then min 21000 (4 * volts) else s.sustained

/-! ## The ladder (R480 to R484) -/

/-- POWER of the reserved quanta of a frame. -/
def State.quantaPower (s : State) (frame : Nat) : Nat := powerAt (s.coreEntries (s.activeBank 0)) frame

/-- The position moves on what frame F - 1 brought. -/
def State.moveLadder (s : State) (p : PowerSample) (c : Nat) : State :=
  let pos := s.fget R.PT_LADDER.POSITION
  let rise := (decide (c < p.power) || !s.power.hot.isEmpty) && !s.power.roseLast
  let jump := decide (4000 < p.amps)
  let new := max (s.fget R.PT_LADDER.LADDER_MIN) (if jump then 15 else if rise then min 15 (pos + 1) else pos)
  let quiet := if p.power + 1000 ≤ c ∧ !s.power.warm then s.power.quiet + 1 else 0
  let s := s.when jump (·.fsetb R.PT_LADDER.OVERCURRENT true)
  { s.fset R.PT_LADDER.POSITION new with power := { s.power with
      roseLast := jump || rise, quiet := if pos < new then 0 else quiet } }

/-- The position falls by one after 1,000 quiet frames. -/
def State.ladderFall (s : State) : State :=
  let pos := s.fget R.PT_LADDER.POSITION
  if s.power.quiet < 1000 ∨ pos ≤ s.fget R.PT_LADDER.LADDER_MIN then s
  else
    let s := { s with power := { s.power with quiet := 0 } }
    (s.fset R.PT_LADDER.POSITION (pos - 1)).writeStops

/-- Meaning of LADDER_FALL. -/
def execLadderFall (s : State) : Res := .next s.ladderFall

/-- Position 15 cannot bring the draw under C: PT holds it and says so (R484). -/
def State.envelope (s : State) (c : Nat) : State :=
  let short := s.fget R.PT_LADDER.POSITION == 15 && decide (c < s.fget R.TB_POWER.FLOOR + s.quantaPower s.now)
  let was := s.fbit R.PT_LADDER.ENVELOPE_SHORT
  let s := s.fsetb R.PT_LADDER.ENVELOPE_SHORT short
  let s := if short then { s with power := { s.power with quiet := 0 } } else s
  s.when (short && !was) (·.alert 6)

/-! ## Throttle reports (R490) -/

/-- At a boundary that is a multiple of 4,096 the period that ends is counted, once. -/
def State.throttlePeriod (s : State) : State :=
  if s.now % 4096 ≠ 0 ∨ s.power.periodAt = s.now then s
  else
    let m := s.power.periodMax
    let s := { s with power := { s.power with periodMax := s.fget R.PT_LADDER.POSITION, periodAt := s.now } }
    if m = 0 then s
    else s.forEach (List.range 64) fun s x =>
      let s := s.fsat (R.PT_CTX_THROTTLE.OPP x) 1
      let s := s.when (decide (4 ≤ m)) (·.finc (R.PT_CTX_THROTTLE.BE x) 1)
      let s := s.when (decide (8 ≤ m)) (·.finc (R.PT_CTX_THROTTLE.MEM x) 1)
      s.when (decide (12 ≤ m)) (·.finc (R.PT_CTX_THROTTLE.DUTY x) 1)

/-- Meaning of THROTTLE_PERIOD. -/
def execThrottlePeriod (s : State) : Res := .next s.throttlePeriod

/-! ## POWER_POLICY (R489) -/

/-- The largest per-frame POWER of an ARMED timetable bank; 0 when none is ARMED. -/
def State.armedPeak (s : State) : Nat :=
  if s.tt.swap.armed.isNone then 0
  else
    let cs := s.coreEntries (s.inactiveBank 0)
    (List.range 128).foldl (fun m f => max m (powerAt cs f)) 0

/-- Meaning of POWER_POLICY: the values take effect at the next frame boundary. -/
def execPowerPolicy (r : CmdReq) (s : State) : Res :=
  let s := s.begin r
  let p := r.payload
  let limit := field p 0 2
  .next (if p.length ≠ 16 ∨ 17000 < limit ∨ 15 < field p 3 1 ∨ 1 < field p 2 1 ∨ field p 4 12 ≠ 0 then
      s.answerSt r ST.BAD_PARAM
    else if limit < s.fget R.TB_POWER.FLOOR + max (s.fget R.TB_POWER.RESERVED_PEAK) s.armedPeak then
      s.answerSt r ST.REFUSED_POWER
    else
      { s with power := { s.power with policyDue := some (limit, field p 2 1 == 1, field p 3 1) } }.answerSt r ST.OK)

def State.policyTick (s : State) : State :=
  match s.power.policyDue with
  | none => s
  | some (limit, en, low) =>
    let s := { s with power := { s.power with policyDue := none } }
    ((s.fset R.TB_POWER.LIMIT limit).fsetb R.PT_LADDER.BOOST_EN en).fset R.PT_LADDER.LADDER_MIN low

/-! ## Coolant (R468, R469, R485, R486) -/

/-- Band of a flow in 0.05 L/min: 3 below 1.0 L/min. -/
def flowBand (flow : Nat) : Nat := if 40 ≤ flow then 0 else if 30 ≤ flow then 1 else if 20 ≤ flow then 2 else 3

/-- The band after a sample: a worse one at once, a better one after 10 samples in a row that lie in it; a single
sample below 1.0 L/min leaves it. -/
def State.bandSample (s : State) (flow : Nat) : State :=
  let b := flowBand flow
  let cur := s.fget R.PT_COOLANT.BAND
  let w := s.power
  let w := { w with
    lowFlow := if b = 3 then w.lowFlow + 1 else 0
    bandRun := if b = w.bandNext then w.bandRun + 1 else 1
    bandNext := b }
  let emerg := decide (2 ≤ w.lowFlow)
  let new := if b = 3 then (if emerg then 3 else cur) else if cur ≤ b then b else if 10 ≤ w.bandRun then b else cur
  let begins := emerg && !s.fbit R.VG_PLANES.COOLANT_EMERG
  { s.fset R.PT_COOLANT.BAND new with power := { w with
      bandBefore := if new = 3 ∧ cur ≠ 3 then cur else w.bandBefore, emergDue := w.emergDue || begins } }

/-- A flag of R486 follows its condition; each entry asserts the alert line. -/
def State.coolFlag (s : State) (f : Fld) (v : Bool) : State :=
  let was := s.fbit f
  (s.fsetb f v).when (v && !was) (·.alert 6)

/-- Meaning of COOLANT_SAMPLE: flow in 0.05 L/min, temperatures in °C. -/
def execCoolantSample (flow inlet outlet : Nat) (s : State) : Res :=
  let s := ((s.fset R.PT_COOLANT.FLOW (min 255 flow)).fset R.PT_COOLANT.INLET (min 255 inlet)).fset R.PT_COOLANT.OUTLET
    (min 255 outlet)
  let s := s.bandSample flow
  let b := s.fget R.PT_COOLANT.BAND
  let s := s.coolFlag R.PT_COOLANT.FLOW_LOW (if b = 3 then s.power.bandBefore != 0 else b != 0)
  let s := (s.coolFlag R.PT_COOLANT.INLET_HIGH (decide (40 < inlet))).coolFlag R.PT_COOLANT.INLET_LOW (decide (inlet < 20))
  .next (((s.almMin 1 0 112 flow).almMax 1 0 111 inlet).almMax 1 0 39 b)

/-- A coolant emergency takes effect at the boundary after its second sample. -/
def State.emergTick (s : State) : State :=
  if !s.power.emergDue then s
  else { s.fsetb R.VG_PLANES.COOLANT_EMERG true with power := { s.power with emergDue := false } }.alert 6

/-- The emergency ends, and with it HALT and OPP_STOP (R469). -/
def State.emergencyEnd (s : State) : State :=
  if s.power.goodFor < 1000 ∨ (!s.fbit R.VG_PLANES.COOLANT_EMERG ∧ !s.power.haltTemp) then s
  else
    let s := { s with power := { s.power with haltTemp := false } }
    (s.fsetb R.VG_PLANES.COOLANT_EMERG false).writeStops

/-- Meaning of EMERGENCY_END. -/
def execEmergencyEnd (s : State) : Res := .next s.emergencyEnd

/-! ## Temperatures (R487) -/

/-- A sensor in pressure: from its pressure temperature on, until it falls to its release temperature. -/
def pressed (hot : List Nat) (n temp press release : Nat) : Bool :=
  press ≤ temp || (hot.contains n && release < temp)

/-- Sensors with their numbers, temperatures and limits. -/
def sensors (t : DieTemps) : List (Nat × Nat × Nat × Nat) :=
  let die := (t.switch :: t.core).take 17 ++ t.hub.take 16
  let opt := (t.optical.take 20).mapIdx fun k v => (33 + k, v, 85, 82)
  die.mapIdx (fun i v => (i, v, 90, 87)) ++ opt ++ t.vr.mapIdx fun j v => (53 + j, v, 115, 110)

def listMax (l : List Nat) : Nat := l.foldl max 0

/-- The hottest switch, core or hub die. -/
def logicMax (t : DieTemps) : Nat := max t.switch (max (listMax t.core) (listMax t.hub))

/-- PT_TEMP, PT_LASER and the pages take the frame's temperatures. -/
def State.showTemps (s : State) (t : DieTemps) : State :=
  let v := [t.switch, listMax t.core, listMax t.hub, t.control, listMax t.optical, t.dram, listMax t.vr]
  let w := (List.range 7).foldl (fun a i => a + min 255 (v.getD i 0) * 256 ^ i) 0
  let s := s.setReg R.PT_TEMP.SWITCH.addr (BitVec.ofNat 64 w)
  let s := s.forEach (List.range 7) fun s i => s.almMax 1 0 (104 + i) (v.getD i 0)
  s.forEach (List.range (min 20 t.optical.length)) fun s k =>
    let c := t.optical.getD k 0
    ((s.fset (R.PT_LASER.CASE k) (min 255 c)).fmax (R.PT_LASER.CASE_MAX k) (min 255 c)).almMax 6 k 4 c

/-- DRAM and hub rails go: hub memory is lost and the sled is in HALT. -/
def State.dramTrip (s : State) : State :=
  let s := if s.boot.railsCore then s.haltTrip else s
  let s := (s.resetRegs 0x7000000 0x8000000).forEach (List.range 16) fun s h => s.resetRegs (epBase h) (epBase h + 0x80000)
  let s := { s with mem := [], hubs := [], eps := s.eps.filter (16 ≤ ·.1), boot := { s.boot with railsDram := false } }
  s.almAdd 1 0 134 1

/-- The control die's trip: STANDBY with BOOT_HOLD. -/
def State.controlTrip (s : State) : State := ((s.almAdd 1 0 134 1).depower SS.STANDBY).fsetb R.PT_BOOT.BOOT_HOLD true

/-- What the comparators and PT do at a frame's temperatures. -/
def State.tempActs (s : State) (t : DieTemps) : State :=
  let s := if 95 ≤ logicMax t ∧ s.boot.railsCore then
      { s with power := { s.power with haltTemp := true } }.writeStops else s
  let s := if (105 ≤ logicMax t ∨ 100 ≤ listMax t.optical ∨ 125 ≤ listMax t.vr) ∧ s.boot.railsCore then s.haltTrip else s
  let s := if 110 ≤ t.dram ∧ s.boot.railsDram then s.dramTrip else s
  if 110 ≤ t.control then s.controlTrip else s

/-- Meaning of DIE_TEMP_SAMPLE. -/
def execDieTempSample (t : DieTemps) (s : State) : Res :=
  let hot := ((sensors t).filter fun x => pressed s.power.hot x.1 x.2.1 x.2.2.1 x.2.2.2).map (·.1)
  let warm := (sensors t).any fun x => x.2.2.2 ≤ x.2.1
  let cool := decide (logicMax t < 85) && decide (t.control < 85)
  let alarm := decide (100 ≤ t.control) && decide (s.fget R.PT_TEMP.CONTROL < 100)
  let good := cool && decide (40 ≤ s.fget R.PT_COOLANT.FLOW)
  let s := (s.showTemps t).when alarm (·.alert 6)
  let s := { s with power := { s.power with
    hot := hot, warm := warm, cool := cool, goodFor := if good then s.power.goodFor + 1 else 0 } }
  .next (if s.sled < SS.INIT then s else s.tempActs t)

/-! ## Laser wear (R488) -/

/-- The largest r below 2^n with r^10 at most v. -/
def root10 (v : Nat) : Nat → Nat → Nat
  | 0, r => r
  | n + 1, r => root10 v n (if (r + 2 ^ n) ^ 10 ≤ v then r + 2 ^ n else r)

/-- 16 * 2^((t - 70) / 10) rounded to the nearest whole number: 1/16 s of wear at t above 70 °C. -/
def wearOf (t : Nat) : Nat := if t ≤ 70 then 0 else (root10 (32 ^ 10 * 2 ^ (t - 70)) (7 + (t - 70) / 10) 0 + 1) / 2

/-- 16,000 hours in 1/16 s. -/
def wornAt : Nat := 921600000

/-- One comb source of the chiplet (R544); its highest case temperature is what CASE and CASE_MAX take. -/
def State.chipWear (s : State) (k temp : Nat) : State :=
  let s := (s.fset (R.CH_LASER.CASE k) (min 255 temp)).fmax (R.CH_LASER.CASE_MAX k) (min 255 temp)
  let s := s.finc (R.CH_LASER.WEAR k) (wearOf temp)
  if wornAt ≤ s.fget (R.CH_LASER.WEAR k) then s.fsetb (R.CH_LASER.WORN k) true else s

/-- Meaning of LASER_WEAR_UPDATE: the highest case temperature of each source in the 1,000,000 frames that ended; after
the sled's 20 sources, the chiplet's two. -/
def execLaserWearUpdate (temps : List Nat) (s : State) : Res :=
  let s := s.forEach (List.range (min 20 temps.length)) fun s k =>
    let s := s.finc (R.PT_LASER.WEAR k) (wearOf (temps.getD k 0))
    if wornAt ≤ s.fget (R.PT_LASER.WEAR k) ∧ !s.fbit (R.PT_LASER.WORN k) then
      (s.fsetb (R.PT_LASER.WORN k) true).alert 6 else s
  .next (s.forEach (List.range (min 2 (temps.length - 20))) fun s k => s.chipWear k (temps.getD (20 + k) 0))

/-! ## The boundary -/

/-- The pages' samples of a boundary. -/
def State.powerPages (s : State) (p : Nat) : State :=
  let pos := s.fget R.PT_LADDER.POSITION
  let s := ((((s.almMin 1 0 32 p).almMax 1 0 34 p).almAdd 1 1 0 p).almAdd 1 1 8 1).almMax 1 0 38 pos
  if s.now % 1000 ≠ 0 then s
  else
    let bin := if p < 12000 then 0 else if p < 14000 then 1 else if p < 16000 then 2 else if p < 17000 then 3
      else min 7 (p / 1000 - 13)
    let lad := if pos = 0 then 0 else if pos < 4 then 1 else pos / 2
    let s := (s.almAdd 1 0 (40 + 4 * bin) 1).almAdd 1 0 (72 + 4 * lad) 1
    s.forEach ((List.range 16).filter fun h => s.fget (R.HB_BW_CAP.CAP h) < 64) fun s h => s.almAdd 5 h 20 1

/-- PT_INPUT takes the frame that ended (R472). -/
def State.powerInput (s : State) (p : PowerSample) : State :=
  let s := (s.fset R.PT_INPUT.VOLTS (min 65535 p.volts)).fset R.PT_INPUT.AMPS (min 65535 p.amps)
  (s.fset R.PT_INPUT.POWER (min 65535 p.power)).fmax R.PT_INPUT.POWER_MAX (min 65535 p.power)

/-- FCLK 0 of a frame: R475 to R484, R468, R490. -/
def State.powerTick (s : State) (p : PowerSample) : State :=
  if s.sled < SS.INIT then s
  else
    let s := (s.applyLadder.powerInput p).throttlePeriod
    let s := ((s.policyTick.emergTick.emergencyEnd).chargeBoost p.power).boostExhaust.boostRestore
    let c := s.ceiling p.volts
    let s := ((s.fset R.PT_LADDER.CEILING c).moveLadder p c).envelope c
    let s := s.ladderFall.writeStops
    let m := max s.power.periodMax (s.fget R.PT_LADDER.POSITION)
    ({ s with power := { s.power with periodMax := m } }).powerPages p.power

end Sys2Proof.Machine
end

