-- ==== Sys2Proof/Machine/Island.lean ====
section
/-! DEFINITION. The security island: random source, attestation evidence, debug sessions (R494 to R508). -/

namespace Sys2Proof.Machine

/-! ## Table hashes (R502) -/

/-- A plan record as PLAN_LOAD codes it. -/
def planRecBytes (p : Nat) (r : PlanRec) : List Byte :=
  leBytes (portNum p) 2 ++ leBytes r.expect 1 ++ leBytes r.rack 1 ++ leBytes r.plane 1 ++ [0] ++ leBytes r.farPort 2
    ++ leBytes r.epId 2 ++ List.replicate 6 0

/-- The plan in effect as a PLAN_LOAD payload. -/
def State.planBytes (s : State) : List Byte :=
  let g := s.sg
  leBytes 0x7A05 2 ++ leBytes g.topology 1 ++ leBytes g.dims 1 ++ leBytes g.sizeX 1 ++ leBytes g.sizeY 1
    ++ leBytes g.sizeZ 1 ++ List.replicate 9 0 ++ s.planPorts.flatMap fun p => planRecBytes p (s.planRec p)

/-- n registers from an address on, as little-endian words. -/
def State.wordsAt (s : State) (addr n : Nat) : List Byte :=
  (List.range n).flatMap fun i => leBytes (s.reg (addr + 8 * i)).toNat 8

/-- The content of a table: 0 timetable, 1 signpost, 2 groups, 3 plan, 4 allow-list. -/
def State.tableBytes (s : State) (t : Nat) : List Byte :=
  if t = 0 then
    let b := s.activeBank 0
    s.wordsAt (R.CELL0.addr b 0) 32768 ++ s.wordsAt (R.CORE_ENTRY.addr b 0) 4096
  else if t = 1 then
    let b := s.activeBank 1
    s.wordsAt (R.PORT_TABLE.addr b 0) 416 ++ s.wordsAt (R.FAR_WINDOW.addr b 0) 4096
  else if t = 2 then s.wordsAt (R.GROUP0.addr (s.activeBank 2) 0) 32768
  else if t = 3 then s.planBytes
  else s.wordsAt (R.HE_ALLOW0.addr 0) 128

def State.tableHash (s : State) (t : Nat) : List Byte := sha3 (s.tableBytes t)

/-- Meaning of TABLE_HASH_UPDATE. -/
def execTableHashUpdate (table : Nat) (s : State) : Res :=
  .next (if s.si.dirty.contains table then
      { s with si := { s.si with hashes := kset s.si.hashes table (leNat (s.tableHash table))
                                 dirty := s.si.dirty.filter (· != table) } }
    else s)

/-! ## Evidence (R501, R504) -/

/-- FLAGS. -/
def State.evFlags (s : State) : Nat :=
  s.fget R.CP_STATE.RECOVERY + 2 * s.fget R.CP_FW.FALLBACK + 4 * s.fget R.CP_FW.TRIAL + 8 * s.fget R.SI_STATUS.DEBUG_ACTIVE
    + 16 * s.fget R.SI_STATUS.DEBUG_SINCE_BOOT + 32 * (if s.timeValid then 1 else 0)

/-- Bytes 0 to 127. -/
def State.evHead (s : State) (nonce : Nat) : List Byte :=
  let ticks := decide (SS.INIT ≤ s.sled)
  leBytes 0x4576 2 ++ [1] ++ leBytes s.evFlags 1 ++ leBytes s.sled 1 ++ leBytes (s.fget R.CP_RESET.BUSY) 1
    ++ leBytes (s.fwSlot s.otherSlot) 1 ++ leBytes (s.fget R.CP_FW.RUN_SLOT) 1 ++ leBytes nonce 64
    ++ leBytes (if ticks then s.now else 0) 8 ++ leBytes s.utc 8 ++ bytesAt Config.serial 0 16 ++ s.wordsAt R.CP_ID.addr 1
    ++ s.wordsAt R.CP_LOCATION.addr 1 ++ leBytes (s.fget R.CP_FW.RUN_MAJOR) 1 ++ leBytes (s.fget R.CP_FW.RUN_MINOR) 1
    ++ [0, 0] ++ leBytes (s.fget R.CP_FW.SVN_MIN) 4

/-- RUN[i]: components of the running slot; in a recovery boot RUN[3] is the recovery image. -/
def State.runHash (s : State) (i : Nat) : List Byte :=
  if i = 3 ∧ s.fbit R.CP_STATE.RECOVERY then bytesAt Config.recoveryHash 0 64 else s.compHash (s.fget R.CP_FW.RUN_SLOT) i

/-- Slot that the reset of the control processor loads. -/
def State.nextSlot (s : State) : Nat :=
  match s.boot.act.filter fun a => !a.full && a.begun with
  | some a => a.slot
  | none => s.fget R.CP_FW.RUN_SLOT

/-- Bytes 640 to 959. -/
def State.evNext (s : State) : List Byte :=
  let k := s.otherSlot
  let zero := List.replicate 64 0#8
  let part (u i : Nat) : List Byte :=
    if bitAt (s.fget R.CP_RESET.BUSY) u then s.compHash (s.fget R.CP_FW.RUN_SLOT) i else zero
  let n := s.nextSlot
  (if 2 ≤ s.fwSlot k then s.bundleHash k else zero) ++ part U.PORT 6 ++ part U.HUB 7 ++ part U.TOLLGATE 8
    ++ (if bitAt (s.fget R.CP_RESET.BUSY) U.CONTROL then sha3 (s.compHash n 3 ++ s.compHash n 4 ++ s.compHash n 5) else zero)

/-- Bytes 0 to 1,375. -/
def State.evidence (s : State) (nonce : Nat) : List Byte :=
  s.evHead nonce ++ (List.range 8).flatMap (fun i => s.runHash (i + 1)) ++ s.evNext
    ++ (List.range 5).flatMap s.tableHash ++ leBytes s.si.kernelLog 64 ++ leBytes s.si.kernelCount 4
    ++ leBytes s.si.debugBoot 4 ++ leBytes (s.fget R.SI_DEBUG.SESSIONS_TOTAL) 4 ++ [0, 0, 0, 0]
    ++ leBytes s.si.debugLastUtc 8 ++ List.replicate 8 0

/-- The signature follows the evidence. -/
def State.signed (s : State) (body : List Byte) : List Byte :=
  body ++ bytesAt (Config.signature s.si.signatures body) 0 4627

/-! ## ATTEST (R497 to R499) -/

/-- The CERTIFICATES result. -/
def certificates : List Byte :=
  leBytes Config.deviceCert.length 4 ++ Config.deviceCert ++ leBytes Config.issuerCert.length 4 ++ Config.issuerCert

/-- A piece of a result; 0xFF: the whole. -/
def pieceOf (b : List Byte) (piece : Nat) : List Byte := if piece = 0xFF then b else (b.drop (1024 * piece)).take 1024

/-- A piece that begins beyond the end, or that no piece number names. -/
def badPiece (len piece : Nat) : Bool := piece != 0xFF && (23 < piece || len ≤ 1024 * piece)

/-- Evidence held for a nonce: 60 s. -/
def State.heldFor (s : State) (nonce : Nat) : Option (List Byte) :=
  (s.si.held.find? fun h => h.1 == nonce && s.now ≤ h.2.1 + 60000000).map (·.2.2)

def State.attPending (s : State) : State := s.fset R.SI_STATUS.ATT_PENDING s.si.pendingAtt.length

/-- Meaning of ATTEST. An in-band request takes no whole result. -/
def execAttest (r : CmdReq) (s : State) : Res :=
  let s := s.begin r
  let s := s.updTag r.owner r.tag fun t => { t with island := decide (r.owner < 32) }
  let p := r.payload
  let kind := field p 0 1
  let piece := field p 1 1
  let nonce := field p 8 64
  let len := if kind = 1 then certificates.length else 6003
  let bad := p.length != 72 || 1 < kind || (kind == 1 && nonce != 0) || badPiece len piece
    || (piece == 0xFF && 64 ≤ r.owner)
  .next (if bad then s.answerSt r ST.BAD_PARAM
    else if (s.ctxRefusal r.ctx).isSome then s.answerSt r ((s.ctxRefusal r.ctx).getD ST.BAD_PARAM)
    else if kind = 1 then s.answer r ST.OK 0 (pieceOf certificates piece)
    else
      match (s.heldFor nonce).filter (·.length == 6003) with
      | some b => s.answer r ST.OK 0 (pieceOf b piece)
      | none =>
        if 4 ≤ s.si.pendingAtt.length ∨ !s.fbit R.SI_STATUS.RNG_OK then s.answerSt r ST.BUSY
        else
          let a : Attest := { owner := r.owner, tag := r.tag, nonce := nonce, piece := piece }
          ({ s with si := { s.si with pendingAtt := s.si.pendingAtt ++ [a] } }.attPending).pend r 0)

/-- Evidence is held for the last 8 nonces, and as long as a request waits for it. -/
def State.holdEvidence (s : State) (nonce : Nat) (b : List Byte) : State :=
  let old : List (Nat × Nat × List Byte) := s.si.held.filter (·.1 != nonce)
  let keep := old.take 7 ++ (old.drop 7).filter fun h => s.si.pendingAtt.any (·.nonce == h.1)
  { s with si := { s.si with held := (nonce, s.now, b) :: keep } }

/-- At the first boundary after receipt the evidence that is asked for is taken. -/
def State.captureTick (s : State) : State :=
  let ns := (s.si.pendingAtt.map (·.nonce)).foldl addNew []
  let s := s.forEach (ns.filter fun n => (s.heldFor n).isNone) fun s n => s.holdEvidence n (s.evidence n)
  match s.si.boardGo with
  | some n => { s with si := { s.si with window := s.evidence n, boardGo := none } }
  | none => s

/-- An ATTEST in progress ends with its evidence, signed once; none: it is not one, or signing waits. -/
def State.attestDone (s : State) (owner tag : Nat) : Option State :=
  match s.si.pendingAtt.find? fun a => a.owner == owner && a.tag == tag with
  | none => none
  | some a =>
    match s.heldFor a.nonce with
    | none => none
    | some b =>
      if b.length ≠ 6003 ∧ !s.fbit R.SI_STATUS.RNG_OK then none
      else
        let full := if b.length = 6003 then b else s.signed b
        let held : List (Nat × Nat × List Byte) := s.si.held.map fun h => if h.1 = a.nonce then (h.1, h.2.1, full) else h
        let pend : List Attest := s.si.pendingAtt.filter fun x => !(x.owner == owner && x.tag == tag)
        let n := s.si.signatures + (if b.length = 6003 then 0 else 1)
        let s := { s with si := { s.si with held := held, pendingAtt := pend, signatures := n } }
        some (s.attPending.complete owner tag ST.OK 0 (pieceOf full a.piece))

/-! ## Evidence for the board-management pair (R500) -/

/-- The nonce in SI_ATT_NONCE. -/
def State.boardNonce (s : State) : Nat := leNat (s.wordsAt (R.SI_ATT_NONCE.addr 0) 8)

/-- Meaning of ATT_GO: at once where no frame tick runs. -/
def execAttGo (s : State) : Res :=
  .next (if s.sled = SS.OFF ∨ s.fbit R.SI_ATT_CTL.BUSY then s
    else
      let s := (s.fsetb R.SI_ATT_CTL.BUSY true).fsetb R.SI_ATT_CTL.DONE false
      let s := { s with si := { s.si with boardGo := some s.boardNonce, window := [] } }
      if s.sled < SS.INIT then s.captureTick else s)

/-- Meaning of ATT_EVIDENCE_READY. -/
def execAttEvidenceReady (s : State) : Res :=
  .next (if !s.fbit R.SI_ATT_CTL.BUSY ∨ s.si.boardGo.isSome ∨ !s.fbit R.SI_STATUS.RNG_OK then s
    else
      let s := { s with si := { s.si with window := s.signed s.si.window, signatures := s.si.signatures + 1 } }
      (s.fsetb R.SI_ATT_CTL.BUSY false).fsetb R.SI_ATT_CTL.DONE true)

/-- CURSOR as R500's register takes a write. -/
def cursorOf (v : Nat) : Nat := min 6000 (v / 8 * 8)

/-- SI_ATT_WIN: eight bytes from CURSOR; no evidence reads as zero. -/
def State.attWin (s : State) : Nat :=
  if s.fbit R.SI_ATT_CTL.DONE then field s.si.window (s.fget R.SI_ATT_CTL.CURSOR) 8 else 0

/-! ## The random source (R497) -/

/-- Meaning of RNG_HEALTH_FAIL. -/
def execRngHealthFail (s : State) : Res := .next (s.fsetb R.SI_STATUS.RNG_OK false)

/-- Meaning of RNG_OK_RETURN. -/
def execRngOkReturn (s : State) : Res := .next (s.fsetb R.SI_STATUS.RNG_OK true)

/-! ## Debug sessions (R505) -/

/-- Meaning of DEBUG_SESSION_START: 0 JTAG, 1 UART, 2 SVC I²C; activity in an open session begins none. -/
def execDebugSessionStart (source : Nat) (s : State) : Res :=
  .next (if s.fbit R.SI_DEBUG.ACTIVE ∨ s.sled = SS.OFF ∨ 2 < source then s
    else
      let s := ((s.fsetb R.SI_STATUS.DEBUG_ACTIVE true).fsetb R.SI_STATUS.DEBUG_SINCE_BOOT true).fsetb R.SI_DEBUG.ACTIVE true
      let s := ((s.fset R.SI_DEBUG.SOURCE source).fsat R.SI_DEBUG.SESSIONS_BOOT 1).finc R.SI_DEBUG.SESSIONS_TOTAL 1
      { s with si := { s.si with debugBoot := s.si.debugBoot + 1, debugLastUtc := s.utc, debugSince := s.now } }.alert 7
        |>.almAdd 3 0 44 1)

/-- Meaning of DEBUG_SESSION_END: 10 s without activity. -/
def execDebugSessionEnd (s : State) : Res :=
  .next (if !s.fbit R.SI_DEBUG.ACTIVE then s
    else
      let s := (s.fsetb R.SI_STATUS.DEBUG_ACTIVE false).fsetb R.SI_DEBUG.ACTIVE false
      s.almMax 3 0 48 ((s.now - s.si.debugSince) / 1000000))

end Sys2Proof.Machine
end

