-- ==== Sys2Proof/Machine/Almanac.lean ====
section
/-! DEFINITION. Reading the Almanac, snapshots, live counters (R516 to R519). -/

namespace Sys2Proof.Machine

/-- A slot of a window that holds no record. -/
def emptySlot : List Byte := List.replicate 256 0xFF#8

/-- The head of the result. -/
def State.windowHead (s : State) (snap : Nat) : List Byte :=
  leBytes s.oldestRseq 4 ++ leBytes s.newestRseq 4 ++ leBytes snap 8 ++ List.replicate 16 0

/-- 16 stored records from a cursor. -/
def State.storedWindow (s : State) (cursor : Nat) : List Byte :=
  s.windowHead 0 ++ (List.range 16).flatMap fun i =>
    match kget s.al.flash (cursor + i) with
    | some v => leBytes v 256
    | none => emptySlot

/-- 16 parts of a snapshot. -/
def State.snapWindow (s : State) (p : Page) (part : Nat) : List Byte :=
  s.windowHead p.endFrame ++ (List.range 16).flatMap fun i =>
    if part + i < pageParts p.period then s.record p (part + i) 0xFFFFFFFE true else emptySlot

/-- Meaning of ALMANAC_WINDOW: a new snapshot is answered at the next boundary. -/
def execAlmanacWindow (r : CmdReq) (s : State) : Res :=
  let s := s.begin r
  let p := r.payload
  let period := field p 1 1
  let part := field p 2 1
  let snap := field p 8 8
  .next (if p.length ≠ 64 ∨ 1 < field p 0 1 ∨ (field p 0 1 = 1 ∧ 2 < period) then
      s.answerSt r ST.BAD_PARAM
    else if field p 0 1 = 0 then s.answer r ST.OK 0 (s.storedWindow (field p 4 4))
    else if snap = 0 then
      { s with al := { s.al with snapWait := s.al.snapWait ++ [(r.owner, r.tag, period, part)] } }
    else
      match (kget s.al.snaps period).filter fun x => x.endFrame == snap && s.now ≤ snap + 1000000 with
      | some x => s.freeUsed.answer r ST.OK 0 (s.snapWindow x part)
      | none => s.answerSt r ST.BAD_PARAM)

/-- One snapshot that is due, and its answer. -/
def State.snapOne (s : State) (w : Nat × Nat × Nat × Nat) : State :=
  match s.al.pages.find? (·.period == w.2.2.1), s.findTag w.1 w.2.1 with
  | some p, some t =>
    let x := { s.endPage 0 p with short := false }
    let s := { s with al := { s.al with snaps := kset s.al.snaps w.2.2.1 x } }
    let r : CmdReq := { owner := w.1, tag := w.2.1, seqn := t.seqn }
    s.freeUsed.answer r ST.OK 0 (s.snapWindow x w.2.2.2)
  | _, _ => s

def State.snapTick (s : State) : State :=
  let ws := s.al.snapWait
  ({ s with al := { s.al with snapWait := [] } }).forEach ws State.snapOne

/-- Meaning of SNAPSHOT_EXPIRY. -/
def execSnapshotExpiry (s : State) : Res :=
  .next { s with al := { s.al with snaps := s.al.snaps.filter fun e => s.now < e.2.endFrame + 1000000 } }

/-! ## Live counters (R519) -/

/-- Meaning of TM_SNAP_GO. -/
def execTmSnapGo (s : State) : Res :=
  .next (if s.al.snapDue.isSome then s
    else { s.fsetb R.TM_SNAP.DONE false with al := { s.al with snapDue := some s.now } })

/-- The copy at FCLK 0 of the frame after GO. -/
def State.shadowCopy (s : State) : State :=
  match s.al.snapDue with
  | none => s
  | some f =>
    if s.now ≤ f then s
    else
      let src := s.regsIn (R.TM_POS.addr 0 0) (R.TM_POS.addr 160 0)
      let s := s.resetRegs (R.TM_SHADOW.addr 0 0) (R.TM_SHADOW.addr 160 0)
      let s := s.forEach src fun s e => s.setReg (e.1 + 0x10000) e.2
      let s := (s.fset R.TM_SNAP_FRAME.FRAME s.now).fsetb R.TM_SNAP.DONE true
      { s with al := { s.al with snapDue := none } }

/-- Meaning of TM_SHADOW_COPY. -/
def execTmShadowCopy (s : State) : Res := .next s.shadowCopy

end Sys2Proof.Machine
end

