-- ==== Sys2Proof/Machine/LinkTest.lean ====
section
/-! DEFINITION. Wavelength pattern tests, wiring verification, connector inspection, beacons (R520 to R522, R527 to
R530, R541). -/

namespace Sys2Proof.Machine

/-! ## Patterns (R520) -/

/-- A generator of `len` bits moves on by n bits: the newest bit is bit 0, and the next one the sum of those at the taps. -/
def lfsr (len : Nat) (taps : List Nat) : Nat → Nat → Nat
  | 0, v => v
  | n + 1, v => lfsr len taps n ((2 * v + (taps.filter v.testBit).length % 2) % 2 ^ len)

/-- Bit i of PRBS13, 1 + x + x^2 + x^12 + x^13, and of PRBS31, 1 + x^28 + x^31 inverted (assumption 153). -/
def prbs13At (seed i : Nat) : Bool := (lfsr 13 [0, 1, 11, 12] (i + 1) seed).testBit 0
def prbs31At (seed i : Nat) : Bool := !(lfsr 31 [27, 30] (i + 1) seed).testBit 0

/-- The level of a Gray-coded pair of bits. -/
def grayLevel (a b : Bool) : Nat := if a then (if b then 2 else 3) else if b then 1 else 0

/-- The PAM4 level of symbol i of a pattern. -/
def patternLevel (p : Pattern) (i : Nat) : Nat :=
  match p with
  | .prbs13q seed => grayLevel (prbs13At seed (2 * i)) (prbs13At seed (2 * i + 1))
  | .prbs31q seed => grayLevel (prbs31At seed (2 * i)) (prbs31At seed (2 * i + 1))
  | .square run => if i / run % 2 = 0 then 3 else 0
  | .user bytes =>
    let j := i % (4 * bytes.length)
    field bytes (j / 4) 1 / 4 ^ (j % 4) % 4

/-- The pattern a LINK_TEST payload names, from the state its generator starts in. -/
def patternOf (p : List Byte) (seed : Nat) : Pattern :=
  match field p 4 1 with
  | 0 => .prbs13q (seed % (2 ^ 13 - 1) + 1)
  | 1 => .prbs31q (seed % (2 ^ 31 - 1) + 1)
  | 2 => .square (field p 5 1)
  | _ => .user (bytesAt p 24 (field p 6 1))

/-! ## Refusals (R521) -/

/-- Owner of a job that CH_TEST of the chiplet started. -/
def chipOwner : Nat := 160

/-- Port indices of a command: of the sled, or the chiplet's 0 to 15. -/
def State.testPort (s : State) (chip : Bool) (i : Nat) : Option Nat :=
  if chip then (if i < 16 then some (160 + i) else none) else if i < 160 ∧ i ≠ s.ownPos then some i else none

/-- Another test or a PORT reset occupies the port. -/
def State.occupied (s : State) (p : Nat) : Bool :=
  s.pat.jobs.any (fun j => j.records.any (·.1 == p)) || (p < 160 && s.resetBusy U.PORT p)

/-- A port that LINK_TEST takes with a mask. -/
def State.testable (s : State) (p mask : Nat) : Bool :=
  let st := s.portState p
  (st == PS.DOWN && s.fbit (R.OP_PORT_CTL.FORCE_DOWN p)) || st == PS.MAINTENANCE || st == PS.QUARANTINE || st == PS.MISWIRED
    || mask &&& s.fget (R.OP_PORT_STATUS.WL_RETIRED p) == mask

/-- The status of one record of LINK_TEST. -/
def State.testRec (s : State) (chip : Bool) (r : List Byte) : Nat :=
  match s.testPort chip (field r 0 2) with
  | none => ST.BAD_PARAM
  | some p =>
    if 3 < field r 3 1 ∨ field r 4 4 ≠ 0 then ST.BAD_PARAM
    else if s.occupied p ∨ !s.testable p (field r 2 1) then ST.BUSY else ST.OK

/-- The first record that a check refuses: its status and index. -/
def firstBad (f : Nat → Nat) (n : Nat) : Option (Nat × Nat) :=
  (List.range n).findSome? fun i => if f i = ST.OK then none else some (f i, i)

/-- Start frame N: 0 is the next frame; one that has passed is out of range. -/
def State.badStart (s : State) (n : Nat) : Bool := n != 0 && n ≤ s.now

def State.startOf (s : State) (n : Nat) : Nat := if n = 0 then s.now + 1 else n

/-- A field of LINK_TEST out of range. -/
def State.badTest (s : State) (p : List Byte) : Bool :=
  let d := field p 0 4
  let k := field p 4 1
  let n := field p 16 2
  d < 1000 || 600000000 < d || 3 < k || (k == 2 && (field p 5 1 == 0 || 64 < field p 5 1))
    || (k == 3 && (field p 6 1 == 0 || 64 < field p 6 1)) || n == 0 || 160 < n
    || p.length < 88 + 8 * n || s.badStart (field p 8 8)

/-- Checks a LINK_TEST payload: a job to be owned, or the status and the record refused. -/
def State.testJob (s : State) (chip : Bool) (p : List Byte) : Except (Nat × Nat) LinkJob :=
  if s.badTest p then .error (ST.BAD_PARAM, 0)
  else
    let n := field p 16 2
    let rec_ (i : Nat) : List Byte := bytesAt p (88 + 8 * i) 8
    match firstBad (fun i => s.testRec chip (rec_ i)) n with
    | some e => .error e
    | none => .ok {
        n := s.startOf (field p 8 8), duration := field p 0 4, pattern := patternOf p s.freeVal
        records := (List.range n).map fun i =>
          ((s.testPort chip (field (rec_ i) 0 2)).getD 0, field (rec_ i) 2 1, field (rec_ i) 3 1) }

def State.addJob (s : State) (j : LinkJob) : State := { s with pat := { s.pat with jobs := s.pat.jobs ++ [j] } }

/-- Meaning of LINK_TEST; the state a generator starts in is a free value. -/
def execLinkTest (r : CmdReq) (s : State) : Res :=
  let s := s.begin r
  .next (match s.testJob false r.payload with
    | .error e => s.answer r e.1 e.2 []
    | .ok j =>
      if r.payload.length ≠ 88 + 8 * j.records.length then s.answerSt r ST.BAD_PARAM
      else (s.freeUsed.addJob { j with owner := r.owner, tag := r.tag }).pend r j.n)

/-! ## Running a LINK_TEST (R522) -/

/-- A job of a kind by owner and tag. -/
def State.jobOf (s : State) (kind owner tag : Nat) : Option LinkJob :=
  s.pat.jobs.find? fun j => j.kind == kind && j.owner == owner && j.tag == tag

def State.setJob (s : State) (j : LinkJob) : State :=
  { s with pat := { s.pat with
      jobs := replaceFirst (fun x => x.kind == j.kind && x.owner == j.owner && x.tag == j.tag) (fun _ => j) s.pat.jobs } }

/-- A job ends: its command completes, or CH_TEST reports it. -/
def State.jobDone (s : State) (j : LinkJob) (result : List Byte) : State :=
  let jobs : List LinkJob := s.pat.jobs.filter fun x => !(x.kind == j.kind && x.owner == j.owner && x.tag == j.tag)
  let s := { s with pat := { s.pat with jobs := jobs } }
  if j.owner ≠ chipOwner then s.complete j.owner j.tag ST.OK 0 result
  else
    let buf := result.foldl (fun (a : Nat × KV Byte) b => (a.1 + 1, kset (α := Byte) a.2 a.1 b)) (0, s.chip.testBuf)
    let s := { s with chip := { s.chip with testBuf := buf.2.filter (·.1 < 16384) } }
    ((s.fsetb R.CH_TEST.DONE true).fsetb R.CH_TEST.BUSY false).fset R.CH_TEST.STATUS ST.OK

/-- A port that is down for a test: it loses its link; its light is the test's. -/
def State.downForTest (s : State) (p : Nat) : State := s.portDown p false

/-- The wavelengths of a record. -/
def wlTests (r : Nat × Nat × Nat) : List WlTest :=
  (bitList r.2.1 8).map fun k => { port := r.1, wl := k, rx := bitAt r.2.2 1 }

/-- Meaning of LINK_TEST_START: at frame N. -/
def execLinkTestStart (owner tag : Nat) (s : State) : Res :=
  .next (match s.jobOf 0 owner tag with
    | none => s
    | some j =>
      if j.started ∨ s.now < j.n then s
      else
        let recs : List (Nat × Nat × Nat) := j.records.map fun r =>
          if r.2.1 &&& s.fget (R.OP_PORT_STATUS.WL_RETIRED r.1) = r.2.1 then r else (r.1, r.2.1, bitSet r.2.2 2)
        let s := s.setJob { j with started := true, records := recs, tests := recs.flatMap wlTests }
        s.forEach recs fun s r =>
          (s.when (bitAt r.2.2 2) (·.downForTest r.1)).when (bitAt r.2.2 0) (·.emit (.pattern r.1 r.2.1 j.pattern)))

/-- A checker locks or unlocks; `errors` and `bits` are what it counted while it was locked. -/
def WlTest.lock (t : WlTest) (locked : Bool) (errors bits : Nat) : WlTest :=
  let t := if t.locked then { t with errors := t.errors + errors, bits := t.bits + bits } else t
  { t with locked := locked, ever := t.ever || locked, losses := if t.locked && !locked then t.losses + 1 else t.losses }

/-- Meaning of CHECKER_LOCK. -/
def execCheckerLock (port wl : Nat) (locked : Bool) (errors bits : Nat) (s : State) : Res :=
  let f (j : LinkJob) : LinkJob :=
    if !j.started then j
    else { j with tests := j.tests.map fun t =>
      if t.port = port ∧ t.wl = wl ∧ t.rx ∧ !t.ended then t.lock locked errors bits else t }
  .next { s with pat := { s.pat with jobs := s.pat.jobs.map f } }

/-- STATE of the result. -/
def WlTest.outcome (t : WlTest) : Nat :=
  if !t.rx then 0 else if t.ended then 4 else if !t.ever then 2 else if 0 < t.losses then 3 else 1

/-- 16 bytes of a wavelength; the mean received power is measured. -/
def State.wlResult (s : State) (j : LinkJob) (p k : Nat) : List Byte :=
  match j.tests.find? fun t => t.port == p && t.wl == k with
  | none => List.replicate 16 0
  | some t =>
    leBytes t.outcome 1 ++ leBytes (min 255 t.losses) 1 ++ leBytes (Config.freeNat (s.free + 8 * p + k)) 2
      ++ leBytes (min 0xFFFFFFFF t.errors) 4 ++ leBytes t.bits 8

/-- Meaning of LINK_TEST_END: after DURATION frames; `bits` gives, in the order of the wavelengths, the errors and bits
of the checkers that are still locked. -/
def execLinkTestEnd (owner tag : Nat) (bits : List (Nat × Nat)) (s : State) : Res :=
  .next (match s.jobOf 0 owner tag with
    | none => s
    | some j =>
      if !j.started ∨ s.now < j.n + j.duration then s
      else
        let ts : List WlTest := j.tests.mapIdx fun i t =>
          if t.locked ∧ !t.ended then
            { t with errors := t.errors + (bits.getD i (0, 0)).1, bits := t.bits + (bits.getD i (0, 0)).2 }
          else t
        let j := { j with tests := ts }
        let res := j.records.flatMap fun r => (List.range 8).flatMap fun k => s.wlResult j r.1 k
        { s with free := s.free + 1408 }.jobDone j res)

/-! ## Beacons (R527, R528) -/

/-- Meaning of BEACON_RECEIVE: a beacon whose identity is taken. -/
def execBeaconReceive (port : Nat) (b : Beacon) (s : State) : Res :=
  .next (if !s.isPort port ∨ !b.crcOk ∨ !s.fbit (R.OP_PORT_CTL.ENABLE port) ∨ s.portState port = PS.UP then s
    else
      let s := s.portDown port false
      let s := s.setPort port { s.port port with
        beaconUntil := s.now + 20000, heard := some b.sender, peerHeard := b.heard }
      s.emit (.beacon port { sender := s.ownIdentity port 0, heard := some b.sender }))

/-- Meaning of BEACON_TIMEOUT. -/
def execBeaconTimeout (port : Nat) (s : State) : Res :=
  .next (if s.now < (s.port port).beaconUntil ∨ (s.port port).beaconUntil = 0 then s
    else
      let busy := s.pat.jobs.any fun j => j.kind == 1 && j.started && j.records.any (·.1 == port)
      let x := { s.port port with beaconUntil := 0 }
      s.setPort port (if busy then x else { x with heard := none, peerHeard := none }))

/-! ## WIRING_VERIFY (R529) -/

/-- Ports of a payload: the listed ones, or every optical port. -/
def State.namedPorts (s : State) (p : List Byte) : List Nat :=
  let n := field p 10 2
  if n = 0 then s.planPorts else (List.range n).map fun i => field p (16 + 2 * i) 2

/-- The status of a port; `up`: a port that is UP is refused. -/
def State.wirePort (s : State) (i : Nat) (up : Bool) : Nat :=
  match s.testPort false i with
  | none => ST.BAD_PARAM
  | some p => if s.occupied p ∨ (up ∧ s.portState p = PS.UP) then ST.BUSY else ST.OK

/-- The first port of a list that is refused. -/
def State.firstWire (s : State) (ps : List Nat) (up : Bool) : Option (Nat × Nat) :=
  firstBad (fun i => s.wirePort (ps.getD i 0) up) ps.length

/-- Payload length: its reserved bytes are ignored (R9). -/
def wireForm (p : List Byte) : Bool := p.length == 16 + 2 * field p 10 2

/-- Meaning of WIRING_VERIFY. -/
def execWiringVerify (r : CmdReq) (s : State) : Res :=
  let s := s.begin r
  let p := r.payload
  let d := field p 8 2
  let ps := s.namedPorts p
  .next (if !wireForm p ∨ d < 20 ∨ 1000 < d ∨ s.badStart (field p 0 8) then s.answerSt r ST.BAD_PARAM
    else
      match s.firstWire ps false with
      | some e => s.answer r e.1 e.2 []
      | none =>
        let j : LinkJob := { owner := r.owner, tag := r.tag, kind := 1, n := s.startOf (field p 0 8), duration := 1000 * d
                             records := ps.map fun q => (q, 0, 0) }
        (s.addJob j).pend r j.n)

/-- Meaning of WIRING_VERIFY_START: a port that is UP is not disturbed, every other one beacons. -/
def execWiringVerifyStart (owner tag : Nat) (s : State) : Res :=
  .next (match s.jobOf 1 owner tag with
    | none => s
    | some j =>
      if j.started ∨ s.now < j.n then s
      else
        let recs : List (Nat × Nat × Nat) := j.records.map fun r => (r.1, 0, if s.portState r.1 = PS.UP then 8 else 4)
        let s := s.setJob { j with started := true, records := recs }
        s.forEach (recs.filter (·.2.2 == 4)) fun s r =>
          let s := s.downForTest r.1
          let s := s.setPort r.1 { s.port r.1 with heard := none, peerHeard := none }
          s.emit (.beacon r.1 { sender := s.ownIdentity r.1 0 }))

/-- Seven bytes of an identity. -/
def idBytes (i : Identity) : List Byte :=
  leBytes i.kind 1 ++ leBytes i.rack 1 ++ leBytes i.plane 1 ++ leBytes i.port 2 ++ leBytes i.epId 2

/-- HEARD of a beacon. -/
def heardBytes : Option Identity → List Byte
  | none => List.replicate 8 0
  | some i => [1] ++ leBytes i.rack 1 ++ leBytes i.plane 1 ++ leBytes i.port 2 ++ leBytes i.epId 2 ++ [0]

/-- The far port's HEARD names a port. -/
def namesPort (own : Identity) (h : Option Identity) : Bool :=
  h.any fun i => i.rack == own.rack && i.plane == own.plane && i.port == own.port && i.epId == own.epId

/-- 16 bytes of a port. Whether light arrives where no beacon is taken is measured. -/
def State.wireResult (s : State) (r : Nat × Nat × Nat) : List Byte :=
  let x := s.port r.1
  if bitAt r.2.2 3 then List.replicate 16 0
  else
    match x.heard with
    | some f =>
      leBytes (if namesPort (s.ownIdentity r.1 0) x.peerHeard then 1 else 2) 1 ++ idBytes f ++ heardBytes x.peerHeard
    | none => leBytes (3 + Config.freeNat (s.free + r.1) % 2) 1 ++ List.replicate 15 0

/-- Meaning of WIRING_VERIFY_END. -/
def execWiringVerifyEnd (owner tag : Nat) (s : State) : Res :=
  .next (match s.jobOf 1 owner tag with
    | none => s
    | some j =>
      if !j.started ∨ s.now < j.n + j.duration then s
      else { s with free := s.free + 160 }.jobDone j (j.records.flatMap s.wireResult))

/-! ## CONNECTOR_INSPECT (R530) -/

/-- Checks a CONNECTOR_INSPECT payload: the ports, or the status and the port refused. -/
def State.inspectJob (s : State) (chip : Bool) (p : List Byte) : Except (Nat × Nat) LinkJob :=
  let n := field p 10 2
  let ps := if chip then (if n = 0 then List.range 16 else (List.range n).map fun i => field p (16 + 2 * i) 2)
    else s.namedPorts p
  let st (i : Nat) : Nat :=
    match s.testPort chip (ps.getD i 0) with
    | none => ST.BAD_PARAM
    | some q => if s.occupied q ∨ s.portState q = PS.UP then ST.BUSY else ST.OK
  if p.length < 16 + 2 * n ∨ field p 8 2 ≠ 0 ∨ s.badStart (field p 0 8) then .error (ST.BAD_PARAM, 0)
  else
    match firstBad st ps.length with
    | some e => .error e
    | none => .ok { kind := 2, n := s.startOf (field p 0 8)
                    records := ps.map fun i => ((s.testPort chip i).getD 0, 0, 4) }

/-- Meaning of CONNECTOR_INSPECT. -/
def execConnectorInspect (r : CmdReq) (s : State) : Res :=
  let s := s.begin r
  .next (match s.inspectJob false r.payload with
    | .error e => s.answer r e.1 e.2 []
    | .ok j =>
      if !wireForm r.payload then s.answerSt r ST.BAD_PARAM
      else (s.addJob { j with owner := r.owner, tag := r.tag }).pend r j.n)

/-- 20 bytes of a port: return losses in 0.25 dB, insertion losses in 0.05 dB, 0xFF without far light. -/
def inspectResult (port : Nat) (rl il : List Nat) : List Byte :=
  let flags := (if il.any (· < 255) then 1 else 0) + (if rl.any (· < 140) then 2 else 0)
    + (if il.any fun v => 80 < v && v < 255 then 4 else 0)
  leBytes port 2 ++ leBytes flags 1 ++ [0] ++ rl.flatMap (fun v => leBytes (if v < 56 then 0 else min 240 v) 1)
    ++ il.flatMap fun v => leBytes (min 255 v) 1

/-- Eight measured values of the i-th port. -/
def eight (l : List Nat) (i d : Nat) : List Nat := (List.range 8).map fun k => l.getD (8 * i + k) d

/-- Meaning of CONNECTOR_INSPECT_START: what the eight milliseconds from N measure, port by port. -/
def execConnectorInspectStart (owner tag : Nat) (rl il : List Nat) (s : State) : Res :=
  .next (match s.jobOf 2 owner tag with
    | none => s
    | some j =>
      if j.started ∨ s.now < j.n then s
      else
        let name (p : Nat) : Nat := if 160 ≤ p then p - 160 else p
        let res := (j.records.mapIdx fun i r => inspectResult (name r.1) (eight rl i 0) (eight il i 255)).flatten
        let s := s.setJob { j with started := true, result := res }
        s.forEach j.records fun s r => (s.downForTest r.1).emit (.light r.1 0xFF 2))

/-- An inspection whose eight milliseconds are over. -/
def State.inspectDone (s : State) (owner tag : Nat) : Option State :=
  match s.jobOf 2 owner tag with
  | none => none
  | some j => if !j.started ∨ s.now < j.n + 8000 then none else some (s.jobDone j j.result)

/-! ## CH_TEST (R541) -/

/-- The first bytes of CH_TEST_BUF. -/
def State.testBufBytes (s : State) (n : Nat) : List Byte := (List.range n).map fun i => kgetD (α := Byte) s.chip.testBuf i 0

/-- GO of CH_TEST. -/
def State.chTestGo (s : State) (kind : Nat) : State :=
  if s.fbit R.CH_TEST.BUSY ∨ 1 < kind then s
  else
    let s := (s.fset R.CH_TEST.KIND kind).fsetb R.CH_TEST.DONE false
    let p := s.testBufBytes 2048
    match (if kind = 0 then s.testJob true p else s.inspectJob true p) with
    | .error e => s.fset R.CH_TEST.STATUS e.1
    | .ok j => (s.freeUsed.addJob { j with owner := chipOwner, tag := 0 }).fsetb R.CH_TEST.BUSY true

/-- Meaning of CH_TEST_GO. -/
def execChTestGo (kind : Nat) (s : State) : Res := .next (s.chTestGo kind)

end Sys2Proof.Machine
end

