-- ==== Sys2Proof/Machine/Pattern.lean ====
section
/-! DEFINITION. Pattern traffic: generators and checkers (R523 to R526). -/

namespace Sys2Proof.Machine

/-! ## The payload (R524) -/

/-- PRBS31, x^31 + x^28 + 1: n bits, the oldest bit of the state first. -/
def prbs31 (state : Nat) : Nat → List Bool
  | 0 => []
  | n + 1 => bitAt state 30 :: prbs31 (state * 2 % 2 ^ 31 + (if bitAt state 30 == bitAt state 27 then 0 else 1)) n

/-- The state PRBS31 starts from. -/
def prbsStart (stream seq : Nat) : Nat := 2 ^ 30 + stream % 2 ^ 14 * 2 ^ 16 + (seq ^^^ (stream / 2 ^ 14 % 4 * 2 ^ 14)) % 2 ^ 16

/-- Bytes 24 to 79 of a cell as a number, the first bit lowest. -/
def prbsBits (stream seq : Nat) : Nat := (prbs31 (prbsStart stream seq) 448).foldr (fun b a => 2 * a + (if b then 1 else 0)) 0

/-- Payload of a PATTERN cell: frame, FCLK, PRBS31. -/
def patternPayload (frame fclk stream seq : Nat) : BitVec 512 :=
  BitVec.ofNat 512 (frame % 2 ^ 48 + fclk % 2 ^ 16 * 2 ^ 48 + prbsBits stream seq * 2 ^ 64)

/-! ## Generators (R523) -/

/-- A PATTERN cell passes R112 like a received cell, without the source and partition conditions. -/
def State.patternIngress (s : State) (x : Nat) (c : Cell) (fclk : Nat) : State :=
  let b := s.boundFor x c
  if b = .stale then s.finc R.RD_STATS.STALE 1
  else if s.unrouted c then s.finc R.SG_NOROUTE.COUNT 1
  else if s.gone c.dst then s.goneCell x c
  else s.checkPos x c b fclk

/-- The next cell of a generator. -/
def State.patternCell (s : State) (g fclk : Nat) : Cell :=
  let seq := kgetD s.pat.genSeq g 0
  let stream := s.fget (R.PGEN0.STREAM g)
  { typ := T.PATTERN, cls := s.fget (R.PGEN0.CLASS g), dst := s.fget (R.PGEN0.DST g), src := 384 + s.plane
    ctx := s.fget (R.PGEN0.CONTEXT g), seq := seq, offset := stream, len := 6, fetch := s.fbit (R.PGEN0.ECHO g)
    payload := patternPayload s.now fclk stream seq }

/-- Cells a generator places in a frame. -/
def State.patternRate (s : State) (g : Nat) : Nat := min 1600 (s.fget (R.PGEN0.RATE g))

/-- Meaning of PATTERN_PLACE: the next of the frame's RATE cells; `free`: it found an FCLK without a received cell. -/
def execPatternPlace (gen fclk : Nat) (free : Bool) (s : State) : Res :=
  .next (if 16 ≤ gen ∨ !s.fbit (R.PGEN0.RUN gen) ∨ 159 < s.fget (R.PGEN0.IN_POS gen) ∨ 1600 ≤ fclk
        ∨ s.patternRate gen ≤ kgetD s.pat.placed gen 0 then s
    else
      let s := { s with pat := { s.pat with placed := kupd s.pat.placed gen 0 (· + 1) } }
      if !free then s.finc (R.PGEN2.SKIPPED gen) 1
      else
        let c := s.patternCell gen fclk
        let s := (s.fset (R.PGEN1.SENT gen) (s.fget (R.PGEN1.SENT gen) + 1))
        let s := { s with pat := { s.pat with genSeq := kset s.pat.genSeq gen ((c.seq + 1) % 65536) } }
        s.patternIngress (s.fget (R.PGEN0.IN_POS gen)) c fclk)

/-! ## Checkers (R526) -/

/-- Values that leave the window unseen as its highest SEQ advances by `adv`. -/
def lostBy (w : SeqWin) (adv : Nat) : Nat :=
  let k := min adv 4096
  k - popCount (w.seen / 2 ^ (4096 - k)) k + (adv - k)

/-- Field of the latency histogram. -/
def latField (j t : Nat) : Fld :=
  if t < 400 then R.PCHK4.LAT0 j else if t < 800 then R.PCHK4.LAT1 j else if t < 1600 then R.PCHK5.LAT2 j
  else if t < 2400 then R.PCHK5.LAT3 j else if t < 3200 then R.PCHK6.LAT4 j else if t < 4800 then R.PCHK6.LAT5 j
  else if t < 9600 then R.PCHK7.LAT6 j else R.PCHK7.LAT7 j

/-- Transit in FCLK; a cell that seems to arrive before it was placed took none. -/
def State.transit (s : State) (c : Cell) (fclk : Nat) : Nat :=
  let v := c.payload.toNat
  let f := (s.now + 2 ^ 48 - v % 2 ^ 48) % 2 ^ 48
  if 2 ^ 47 ≤ f then 0 else f * 1600 + fclk - v / 2 ^ 48 % 2 ^ 16

/-- The sequence window and the counts of a checker. -/
def State.checkSeq (s : State) (j seq : Nat) : State :=
  let w := (kget s.pat.chkWins j).getD { high := seq, seen := 2 ^ 4096 - 1 }
  let first := (kget s.pat.chkWins j).isNone
  let new := first || winNew (some w) seq
  let adv := (seq + 65536 - w.high) % 65536
  let lost := if new && !first && adv ≤ 32768 && 0 < adv then lostBy w adv else 0
  let w := if first then { w with last := s.now } else if new then winAccept (some w) seq s.now else winTouch w s.now
  let s := { s with pat := { s.pat with chkWins := kset s.pat.chkWins j w } }
  let s := s.when (decide (0 < lost)) (·.finc (R.PCHK2.LOST j) lost)
  s.when (!new) (·.finc (R.PCHK2.DUP j) 1)

/-- A checker takes a cell. -/
def State.checkTake (s : State) (j : Nat) (c : Cell) (fclk : Nat) : State :=
  let s := (s.fset (R.PCHK1.RECEIVED j) (s.fget (R.PCHK1.RECEIVED j) + 1)).checkSeq j c.seq
  let diff := (c.payload.toNat / 2 ^ 64) ^^^ prbsBits (c.offset % 65536) c.seq
  let e := popCount diff 448
  let s := s.when (decide (0 < e)) (·.finc (R.PCHK3.BIT_ERRORS j) e)
  let t := s.transit c fclk
  (s.fmax (R.PCHK3.LAT_MAX j) (min 65535 t)).finc (latField j t) 1

/-- Meaning of PATTERN_CHECK: a cell for 384 + s that left position 128 + s. -/
def execPatternCheck (cell : Cell) (fclk : Nat) (s : State) : Res :=
  let mine := (List.range 16).filter fun j =>
    s.fbit (R.PCHK0.ENABLE j) && s.fget (R.PCHK0.SRC j) == cell.src && s.fget (R.PCHK0.STREAM j) == cell.offset % 65536
  .next (if cell.typ ≠ T.PATTERN ∨ cell.dst ≠ 384 + s.plane ∨ 1600 ≤ fclk then s
    else s.forEach mine fun s j => s.checkTake j cell fclk)

/-- A write of a checker's first word: ENABLE set clears its counters. -/
def State.pchkWrite (s : State) (j : Nat) (v : W64) : State :=
  let s := ((s.fset (R.PCHK0.ENABLE j) (v.toNat % 2)).fset (R.PCHK0.SRC j) (bitsOf v.toNat 10 1)).fset (R.PCHK0.STREAM j)
    (bitsOf v.toNat 31 16)
  if v.toNat % 2 = 0 then s
  else
    let s := s.resetRegs (R.PCHK1.addr j) (R.PCHK7.addr j + 8)
    { s with pat := { s.pat with chkWins := kdel s.pat.chkWins j } }

/-- Meaning of PCHK_ENABLE. -/
def execPchkEnable (chk : Nat) (v : W64) (s : State) : Res := .next (if chk < 16 then s.pchkWrite chk v else s)

/-- A new frame: each generator has its RATE again. -/
def State.patternTick (s : State) : State := { s with pat := { s.pat with placed := [] } }

end Sys2Proof.Machine
end

