-- ==== Sys2Proof/Machine/Chiplet.lean ====
section
/-! DEFINITION. The end-point chiplet: UCIe modules, messages of the accelerator, reset, temperature (R531 to R544,
R557). -/

namespace Sys2Proof.Machine

/-! ## Messages (R533, R534, R557) -/

/-- A requester has an acquire, a fence or a wait outstanding (CH_ORDER.ACQ_PENDING). -/
def State.acqPending (s : State) (rq : Nat) : Bool :=
  let x := s.ep 17
  x.reqs.any (fun q => q.r.observer == rq && q.isAcquire) || x.fences.any (fun w => w.observer == rq && w.kind == 0)
    || x.waits.any (·.observer == rq)

/-- The chiplet accepts no further message of a requester: it is in reset, or the requester waits, or R176 or R208 holds
back what it sent. -/
def State.holdsBack (s : State) (rq : Nat) : Bool :=
  s.chip.hold || s.observerHeld 17 rq 0

/-- A COMPLETE that refuses a message (R557). -/
def State.badMessage (s : State) (rq tag : Nat) : State := s.emit (.complete rq tag ST.BAD_PARAM [])

/-- Meaning of REQUEST. -/
def execRequest (r : MemReq) (rsv : Bool) (s : State) : Res :=
  let bad := rsv || 6 < r.op || (lenCode r.len).isNone || 64 ≤ r.ctx || 8 ≤ r.scope
  .next (if 64 ≤ r.observer ∨ s.holdsBack r.observer then s
    else if bad then s.badMessage r.observer r.tag
    else ((s.issue 17 r 0 (.complete r.observer r.tag) .clean).selfPump).evalWaits 17)

/-- Meaning of SYNC, operation FENCE. -/
def execSyncFence (rq tag ctx scope : Nat) (keep rsv : Bool) (s : State) : Res :=
  .next (if 64 ≤ rq ∨ s.holdsBack rq then s
    else if rsv ∨ 64 ≤ ctx ∨ 8 ≤ scope then s.badMessage rq tag
    else s.fenceIssue 17 { observer := rq, ctx := ctx, scope := scope, keep := keep, tag := tag })

/-- Meaning of SYNC, operation WAIT: 256 waits pending refuse it (R189). -/
def execSyncWait (rq tag ctx scope : Nat) (keep : Bool) (ms : Nat) (target : W64) (deadline : Nat) (rsv : Bool) (s : State) :
    Res :=
  let x := s.ep 17
  let w : MsWait := { id := x.nextKey, observer := rq, ctx := ctx, ms := ms, target := target.toNat, issued := s.now
                      deadline := deadline, scope := scope, keep := keep, tag := tag }
  .next (if 64 ≤ rq ∨ s.holdsBack rq then s
    else if rsv ∨ 64 ≤ ctx ∨ 8 ≤ scope ∨ 4096 ≤ ms then s.badMessage rq tag
    else if s.fget (R.MS_INFO.OWNER 17 ms) ≠ ctx then s.emit (.complete rq tag ST.DENIED [])
    else if 256 ≤ x.waits.length then s.emit (.complete rq tag ST.BUSY [])
    else if s.waitMet 17 w then (s.reachCache 17 rq ctx scope keep).emit (.complete rq tag ST.OK [])
    else s.setEp 17 { x with nextKey := x.nextKey + 1, waits := x.waits ++ [w] })

/-- Meaning of SYNC, operation ADD; a count of 0 is refused (R557). -/
def execSyncAdd (rq tag ctx scope ms : Nat) (count : W64) (rsv : Bool) (s : State) : Res :=
  .next (if 64 ≤ rq ∨ s.holdsBack rq then s
    else if rsv ∨ 64 ≤ ctx ∨ 8 ≤ scope ∨ 4096 ≤ ms ∨ count = 0 then s.badMessage rq tag
    else if s.fget (R.MS_INFO.OWNER 17 ms) ≠ ctx then s.emit (.complete rq tag ST.DENIED [])
    else
      let w : Fence := { observer := rq, ctx := ctx, kind := 1, scope := scope, ms := ms, count := count.toNat, tag := tag }
      (s.fenceIssue 17 w).evalWaits 17)

/-! ## Collectives (R542) -/

/-- Meaning of COLL, operation MEMBER; with 256 member requests held it waits. -/
def execCollMember (rq tag ctx : Nat) (ms : Option Nat) (g : Bool) (block : List Byte) (rsv : Bool) (s : State) : Res :=
  .next (if 64 ≤ rq ∨ s.holdsBack rq then s
    else if rsv ∨ 64 ≤ ctx ∨ block.length ≠ 64 then s.badMessage rq tag
    else if memberCap 17 ≤ (s.ep 17).members.length then s
    else (s.collMember 17 { observer := rq, tag := tag, ctx := ctx, g := g, ms := ms, block := block }).collPump 17)

/-- The status of a ROOT_ARM: the field rules of R239, DEADLINE's range among them (assumption 128). -/
def State.chipArmStatus (s : State) (p : List Byte) : Nat :=
  let d := descOf (bytesAt p 10 14)
  let dl := field p 48 8
  if descRefused p d || d.planeHub || d.root != s.epId 17 || dl < s.chipNow + 64 || s.chipNow + 2 ^ 24 < dl then ST.BAD_PARAM
  else if (s.root 17 (field p 0 2)).isSome || 256 ≤ (s.ep 17).roots.length then ST.BUSY
  else ST.OK

/-- Meaning of COLL, operation ROOT_ARM. -/
def execCollRootArm (rq tag ctx : Nat) (ms : Option Nat) (_g : Bool) (block : List Byte) (rsv : Bool) (s : State) : Res :=
  let st := s.chipArmStatus block
  let x := s.ep 17
  let arm : RootArm := { rootArmOf block ctx with observer := rq, tag := tag }
  .next (if 64 ≤ rq ∨ s.holdsBack rq then s
    else if rsv ∨ 64 ≤ ctx ∨ ms.any (4096 ≤ ·) then s.badMessage rq tag
    else if st ≠ ST.OK then s.emit (.complete rq tag st [])
    else (s.setEp 17 { x with roots := x.roots ++ [arm] }).collPump 17)

/-- Meaning of COLL, operation ABORT. -/
def execCollAbort (rq tag ctx : Nat) (ms : Option Nat) (_g : Bool) (block : List Byte) (rsv : Bool) (s : State) : Res :=
  .next (if 64 ≤ rq ∨ s.holdsBack rq then s
    else if rsv ∨ 64 ≤ ctx ∨ ms.any (4096 ≤ ·) then s.badMessage rq tag
    else s.collAbort 17 block)

/-! ## Home memory (R536) -/

/-- What the chiplet's own requests and collectives can do after home memory answered. -/
def State.homePump (s : State) : State := (s.selfPump).collPump 17

/-- Meaning of HOME_DATA. -/
def execHomeData (line : Nat) (data : BitVec 512) (uncorr : Bool) (s : State) : Res :=
  .next (s.homeData line data uncorr).homePump

/-- Meaning of HOME_TIMEOUT. -/
def execHomeTimeout (line : Nat) (s : State) : Res := .next (s.homeTimeout line).homePump

/-- Meaning of LINE_STORE_ADMIT. -/
def execLineStoreAdmit (line : Nat) (s : State) : Res := .next (s.lineAdmit line).homePump

/-! ## Reset (R543) -/

/-- Tags of everything the accelerator waits for: requester and tag. -/
def State.chipOpen (s : State) : List (Nat × Nat) :=
  let x := s.ep 17
  (x.reqs.filterMap fun q => match q.dest with
    | .complete rq tag => some (rq, tag)
    | _ => none) ++ x.fences.map (fun w => (w.observer, w.tag)) ++ x.waits.map (fun w => (w.observer, w.tag))
    ++ x.members.map (fun m => (m.observer, m.tag)) ++ x.roots.map fun r => (r.observer, r.tag)

/-- Registers take their reset values; the wear is kept in the package's store. -/
def State.chipRegs (s : State) : State :=
  let keep := (List.range 2).map fun k => (s.fget (R.CH_LASER.WEAR k), s.fget (R.CH_LASER.WORN k))
  let s := { s with regs := s.regs.filter (·.1 < 2 ^ 32) }
  s.forEach (List.range 2) fun s k =>
    (s.fset (R.CH_LASER.WEAR k) (keep.getD k (0, 0)).1).fset (R.CH_LASER.WORN k) (keep.getD k (0, 0)).2

/-- The chiplet resets as a whole: what is outstanding completes with ST_LOST, the ports go dark. -/
def State.chipReset (s : State) : State :=
  let s := s.forEach s.chipOpen fun s q => s.emit (.complete q.1 q.2 ST.LOST [])
  let jobs : List LinkJob := s.pat.jobs.filter fun j => j.owner != chipOwner
  let s := { s with
    ports := s.ports.filter (·.1 < 160)
    tb := { s.tb with markers := s.tb.markers.filter (·.1 < 160), realign := s.tb.realign.filter (·.1 < 160) }
    tt := { s.tt with changes := s.tt.changes.filter fun c => c.pos < 160 || 176 ≤ c.pos }
    vigil := { s.vigil with beats := s.vigil.beats.filter (·.1 < 160) }
    pat := { s.pat with jobs := jobs }
    chip := { hold := s.chip.hold, fwMajor := s.chip.fwMajor } }
  (s.setEp 17 { nextKey := (s.ep 17).nextKey, quietUntil := s.now + 1024 }).chipRegs

/-- Meaning of CHIPLET_RESET. -/
def execChipletReset (s : State) : Res := .next s.chipReset

/-- Meaning of CHIPLET_THERMAL_TRIP. -/
def execChipletThermalTrip (junction optical : Nat) (s : State) : Res :=
  .next (if 105 ≤ junction ∨ 100 ≤ optical then
      let s := s.chipReset
      { s with chip := { s.chip with hold := true } }
    else if s.chip.hold then s
    else (s.fset R.CH_STATUS.JUNCTION (min 255 junction)).fset R.CH_STATUS.OPTICAL_MAX (min 255 optical))

/-- Meaning of CHIPLET_THERMAL_RELEASE. -/
def execChipletThermalRelease (junction optical : Nat) (s : State) : Res :=
  .next (if junction < 85 ∧ optical < 85 then { s with chip := { s.chip with hold := false } } else s)

/-- Meaning of UCIE_MODULE_TRAIN (R531). -/
def execUcieModuleTrain (m : Nat) (ok : Bool) (s : State) : Res :=
  let f := R.CH_STATUS.MODULES
  .next (if 8 ≤ m ∨ s.chip.hold then s
    else if ok ∧ !s.chip.leftOut.contains m then s.fset f (bitSet (s.fget f) m)
    else { s.fset f (bitClr (s.fget f) m) with chip := { s.chip with leftOut := addNew s.chip.leftOut m } })

/-! ## CH_CTL (R539, R540) -/

/-- Meaning of PORTS_EN. -/
def execPortsEn (v : Bool) (s : State) : Res := .next (if s.chip.hold then s else s.fsetb R.CH_CTL.PORTS_EN v)

/-- Meaning of SB_LOCK: a fabric write sets it, only a reset clears it. -/
def execSbLock (v : Bool) (s : State) : Res :=
  .next (if v ∧ !s.chip.hold then s.fsetb R.CH_CTL.SB_LOCK true else s)

end Sys2Proof.Machine
end

