-- ==== Sys2Proof/Machine/HostIf.lean ====
section
/-! DEFINITION. Host ports, calendar time, the allow-list, RoCEv2 (R395 to R401, R421 to R426) and the pieces of memory
commands (R415, R416). -/

namespace Sys2Proof.Machine

/-! ## Ports (R395 to R397) -/

/-- H0 and H1 run: the control rails are up and the port is not held down. -/
def State.hostOn (s : State) (p : Nat) : Bool :=
  p < 2 && SS.INIT ≤ s.sled && (if p = 0 then s.fbit R.HE_CTL.H0_EN else s.fbit R.HE_CTL.H1_EN)

/-- Meaning of HOST_PORT_LINK_CHANGE. -/
def execHostPortLinkChange (port : Nat) (up module : Bool) (kind : Nat) (s : State) : Res :=
  .next (if 2 ≤ port ∨ s.sled < SS.INIT then s
    else ((s.fsetb (R.HE_PORT.LINK_UP port) (up && s.hostOn port)).fsetb (R.HE_PORT.MODULE port) module).fset
      (R.HE_PORT.MODULE_TYPE port) (if module then kind % 256 else 0))

/-- A frame's VLAN tag, or its absence, is the one HE_CTL names. -/
def State.vlanOk (s : State) (v : Option Nat) : Bool :=
  match v with
  | some v => v == s.fget R.HE_CTL.VLAN
  | none => s.fget R.HE_CTL.VLAN == 0

/-- The modified EUI-64 link-local address of a port. -/
def State.linkLocal (s : State) (p : Nat) : Nat :=
  let m := s.fget (R.HE_ADDR0.MAC p)
  let hi := m / 2 ^ 24
  0xFE80 * 2 ^ 112 + (hi ^^^ 0x020000) * 2 ^ 40 + 0xFFFE * 2 ^ 24 + m % 2 ^ 24

/-- An address of a port (R396); an address of zero is none. -/
def State.ownAddr (s : State) (p : Nat) (ipv4 : Bool) (a : Nat) : Bool :=
  let g := s.fget (R.HE_ADDR2.IPV6_HI p) * 2 ^ 64 + s.fget (R.HE_ADDR3.IPV6_LO p)
  a != 0 && (if ipv4 then a == s.fget (R.HE_ADDR1.IPV4 p) else a == g || a == s.linkLocal p)

/-- Meaning of ETHERNET_FRAME. -/
def execEthernetFrame (f : EthFrame) (s : State) : Res :=
  .next (if !s.hostOn f.port ∨ !s.vlanOk f.vlan ∨ 9216 < f.bytes then s
    else if f.proto = 3 then
      let s := s.fset (R.HE_PORT.LLDP_PORT f.port) (f.lldpPort % 65536)
      { s with host := { s.host with lldpChassis := kset s.host.lldpChassis f.port f.lldpChassis } }
    else if f.proto < 3 ∧ s.ownAddr f.port (f.proto == 0 || (f.proto == 2 && f.ipv4)) f.target then
      s.emit (.eth f.port f.proto f.target)
    else s)

/-- Meaning of LLDP_SEND: every 30 s, on each port. -/
def execLldpSend (s : State) : Res :=
  .next (if s.sled < SS.INIT ∨ s.now < s.host.lastLldp + 30000000 then s
    else
      let s := { s with host := { s.host with lastLldp := s.now } }
      s.forEach ((List.range 2).filter fun p => s.hostOn p && s.fbit (R.HE_PORT.LINK_UP p)) fun s p => s.emit (.eth p 3 0))

/-! ## Calendar time (R425, R426) -/

/-- A master was selected within the last 60 s. -/
def State.ptpLocked (s : State) : Bool := s.host.lastMaster.any fun f => s.now ≤ f + 60000000

/-- Calendar time is given as `t`: a first value, or one more than 1 s away, is taken at the next frame boundary; any
other is slewed to. -/
def State.steerTime (s : State) (t : Nat) : State :=
  let t := t % 2 ^ 48
  let now := s.fget R.HE_TIME.UTC_MS
  if !s.timeValid ∨ now + 1000 < t ∨ t + 1000 < now then
    { s with host := { s.host with timeDue := some t, slewLeft := 0 } }
  else { s with host := { s.host with slewLeft := (t : Int) - (now : Int) } }

/-- Meaning of PTP_MESSAGE. -/
def execPtpMessage (m : PtpMsg) (s : State) : Res :=
  .next (if !s.hostOn m.port ∨ m.domain ≠ s.fget R.HE_CTL.PTP_DOMAIN ∨ !m.selected then s
    else
      let off := if m.utcOffsetValid then m.utcOffset else s.host.utcOffset
      let s := { s with host := { s.host with lastMaster := some s.now, utcOffset := off } }
      let s := s.fset R.HE_TIME.PTP_PORT m.port
      match m.sync with
      | some t => s.steerTime (t - 1000 * off)
      | none => s)

/-- HE_TIME_SET is written. -/
def State.timeSet (s : State) (v : W64) : State :=
  if s.sled < SS.INIT then s
  else if s.ptpLocked then s.finc R.HE_STATS.TIME_IGNORED 1
  else s.steerTime v.toNat

/-- Meaning of TIME_SET. -/
def execTimeSet (v : W64) (s : State) : Res := .next (s.timeSet v)

/-- Milliseconds calendar time moves on at a millisecond's edge: a slew adds one or holds one back, at most one a
second. -/
def State.timeEdge (s : State) : State :=
  let h := s.host
  let v := s.fget R.HE_TIME.UTC_MS
  if h.slewLeft = 0 ∨ s.now < h.slewAt then s.fset R.HE_TIME.UTC_MS (v + 1)
  else
    let s := { s with host := { h with slewAt := s.now + 1000000
                                       slewLeft := if 0 < h.slewLeft then h.slewLeft - 1 else h.slewLeft + 1 } }
    s.fset R.HE_TIME.UTC_MS (if 0 < h.slewLeft then v + 2 else v)

/-- Calendar time at a frame boundary. -/
def State.timeTick (s : State) : State :=
  match s.host.timeDue with
  | some t =>
    let s := { s with host := { s.host with timeDue := none, msFrac := 0 } }
    ((s.fset R.HE_TIME.UTC_MS t).fsetb R.HE_TIME.VALID true).closePages 1 [0, 1, 2]
  | none =>
    if !s.timeValid then s
    else
      let n := (s.host.msFrac + 1) % 1000
      let s := { s with host := { s.host with msFrac := n } }
      s.when (n == 0) State.timeEdge

/-! ## The allow-list (R399, R401) -/

/-- Words of an entry. -/
def State.allowWord (s : State) (i k : Nat) : Nat := (s.reg (R.HE_ALLOW0.addr i + 8 * k)).toNat

/-- A source matches an entry: VALID, and its first PREFIX_LEN bits are the entry's. -/
def State.allows (s : State) (i addr : Nat) : Bool :=
  let w := s.allowWord i 0
  let n := min 128 (bitsOf w 9 2)
  bitAt w 0 && addr % 2 ^ 128 / 2 ^ (128 - n) == (s.allowWord i 2 * 2 ^ 64 + s.allowWord i 3) / 2 ^ (128 - n)

/-- The entry that applies to a source. -/
def State.allowed (s : State) (addr : Nat) : Option Nat := (List.range 32).find? fun i => s.allows i addr

/-- A manager entry (R400). -/
def State.isManager (s : State) (i : Nat) : Bool := i < 32 && bitAt (s.allowWord i 0) 1

/-- A word of an entry is written: a change retires every tag that the entry held. -/
def State.allowWrite (s : State) (entry word : Nat) (v : W64) : State :=
  let a := R.HE_ALLOW0.addr entry + 8 * word
  let v := BitVec.ofNat 64 (definedBits a v.toNat)
  if v = s.reg a then s
  else
    let tags : List TagSt := s.host.tags.filter (·.owner != entry)
    ({ s with host := { s.host with tags := tags } }.setReg a v).tableDirty 4

/-- Meaning of ALLOW_LIST_WRITE. -/
def execAllowListWrite (entry word : Nat) (v : W64) (s : State) : Res :=
  .next (if entry < 32 ∧ word < 4 then s.allowWrite entry word v else s)

/-! ## Memory ranges and pieces (R415, R416, R422) -/

/-- The standing record of a context that translates an address: its permissions, the fabric address, its end. -/
def State.standing (s : State) (ctx v : Nat) : Option (Bool × Bool × Nat × Nat) :=
  ((s.ctxRec ctx).records.find? fun w =>
    bitsOf w.1 6 1 == ctx && v / 2 ^ bitsOf w.1 12 7 == w.2.1 / 4096 * 4096 / 2 ^ bitsOf w.1 12 7).map fun w =>
    let va := w.2.1 / 4096 * 4096
    (bitAt w.1 13, bitAt w.1 14, (w.2.2 / 4096 * 4096 + (v - va)) % 2 ^ 64, va + 2 ^ bitsOf w.1 12 7)

/-- The hub of this sled and the offset that a global address names. -/
def State.localHub (s : State) (ga : Nat) : Option (Nat × Nat) :=
  let id := ga / 2 ^ 44 % 1024
  if ga / 2 ^ 56 = s.rack ∧ ga / 2 ^ 54 % 4 = 0 ∧ 128 + 16 * s.plane ≤ id ∧ id < 144 + 16 * s.plane then
    some (id - 128 - 16 * s.plane, ga % 2 ^ 44)
  else none

/-- Permission over a whole range, record after record. -/
def State.mayAccess (s : State) (ctx : Nat) (write : Bool) (stop : Nat) : Nat → Nat → Bool
  | 0, _ => false
  | n + 1, v =>
    match s.standing ctx v with
    | none => false
    | some w => (if write then w.2.1 else w.1) && (stop ≤ w.2.2.2 || s.mayAccess ctx write stop n w.2.2.2)

/-- The whole range lies in one hub of this sled, below its populated size. -/
def State.oneHub (s : State) (ctx stop : Nat) : Nat → Nat → Option Nat → Bool
  | 0, _, _ => false
  | n + 1, v, hub =>
    match s.standing ctx v with
    | none => false
    | some w =>
      match s.localHub w.2.2.1 with
      | none => false
      | some a => hub.all (· == a.1) && a.2 + (min stop w.2.2.2 - v) ≤ s.populated a.1
          && (stop ≤ w.2.2.2 || s.oneHub ctx stop n w.2.2.2 (some a.1))

/-- Checks the range of a memory command or an RDMA request. -/
def State.rangeStatus (s : State) (ctx hub addr size : Nat) (write : Bool) : Nat :=
  if ctx = 0 then (if hub < 16 ∧ addr + size ≤ s.populated hub then ST.OK else ST.BAD_PARAM)
  else
    let n := (s.ctxRec ctx).records.length
    if !s.mayAccess ctx write (addr + size) n addr then ST.DENIED
    else if s.oneHub ctx (addr + size) n addr none then ST.OK else ST.BAD_PARAM

/-- Hub and offset of a byte of a command's range. -/
def State.memPlace (s : State) (m : MemCmd) (o : Nat) : Option (Nat × Nat) :=
  if m.ctx = 0 then some (m.hub, m.addr + o) else (s.standing m.ctx (m.addr + o)).bind fun w => s.localHub w.2.2.1

/-- Two entries are the same command. -/
def sameMem (a b : MemCmd) : Bool := a.owner == b.owner && a.tag == b.tag && a.qp == b.qp && a.psn == b.psn

/-- Changes a command's entry. -/
def State.updMem (s : State) (m : MemCmd) (f : MemCmd → MemCmd) : State :=
  { s with host := { s.host with memCmds := s.host.memCmds.map fun x => if sameMem x m then f x else x } }

/-- The largest aligned piece within a line. -/
def linePiece (off left : Nat) : Nat :=
  (([64, 32, 16, 8, 4, 2, 1] : List Nat).find? fun n => off % n == 0 && n ≤ left).getD 1

/-- The next piece of a command enters the core at 128 + s: guaranteed where EP_RESV has credit, best-effort otherwise. -/
def State.issueMem (s : State) (m : MemCmd) : State :=
  match s.memPlace m m.issued with
  | none => s.updMem m fun x => { x with
      issued := x.size, status := if x.status = ST.OK then ST.DENIED else x.status, cut := some (min m.issued (x.cut.getD m.issued)) }
  | some a =>
    let n := linePiece a.2 (m.size - m.issued)
    let s := s.updMem m fun x => { x with issued := x.issued + n, left := x.left + 1 }
    let x := s.ep 16
    let r : MemReq := { ctx := m.ctx, op := if m.write then 3 else 1, len := n, data := bytesAt m.bytes m.issued n }
    let dst := 128 + 16 * s.plane + a.1
    let dest : Dest := if m.qp = 0 then .cmd m.owner m.tag m.issued else .rdma (m.qp - 1) m.psn m.issued
    let q : Request := { id := x.nextKey, r := r, ga := s.rack * 2 ^ 56 + dst * 2 ^ 44 + a.2, base := a.2, dest := dest
                         at_ := s.now }
    let cs := cellsOf r (384 + s.plane) dst a.2 0 0 false
    let g := cs.any fun c => ((s.paceG 16 s.plane c).getD none).isSome
    let cs := cs.map fun c => if g then { c with cls := clsG } else c
    (s.setEp 16 { x with nextKey := x.nextKey + 1 }).enterCells 16 q cs false dst

/-- Pieces go on while fewer than n are under way. -/
def State.memPump (s : State) : Nat → State
  | 0 => s
  | n + 1 =>
    match s.host.memCmds.find? fun m => m.issued < m.size with
    | some m => (s.issueMem m).memPump n
    | none => s

/-- Pieces a command may have under way at once. -/
def State.memGo (s : State) : State := s.memPump (256 - s.host.memCmds.foldl (fun n m => n + m.left) 0)

/-- Every piece of a command has been answered. -/
def MemCmd.over (m : MemCmd) : Bool := m.size ≤ m.issued && m.left == 0

/-- The bytes read: before the first piece that failed. -/
def MemCmd.result (m : MemCmd) : List Byte :=
  (List.range (m.cut.getD m.size)).map fun i => kgetD (α := Byte) m.data i 0

/-- A memory command that is over. -/
def State.memDone (s : State) (owner tag : Nat) : Option State :=
  (s.host.memCmds.find? fun m => m.qp == 0 && m.owner == owner && m.tag == tag && m.over).map fun m =>
    let l : List MemCmd := s.host.memCmds.filter fun x => !sameMem x m
    let s := { s with host := { s.host with memCmds := l } }
    if m.write then s.complete owner tag m.status 0 []
    else s.complete owner tag m.status (if m.status = ST.OK then 0 else m.result.length) m.result

/-- A memory command begins. -/
def State.memStart (s : State) (r : CmdReq) (write : Bool) : State :=
  let p := r.payload
  let size := field p 8 4
  let hub := field p 12 1
  let form := p.length == (if write then 16 + size else 16) && 1 ≤ size && size ≤ 1048576
  if !form then s.answerSt r ST.BAD_PARAM
  else
    match s.ctxRefusal r.ctx with
    | some st => s.answerSt r st
    | none =>
      let st := s.rangeStatus r.ctx hub (field p 0 8) size write
      if st ≠ ST.OK then s.answerSt r st
      else
        let m : MemCmd := { owner := r.owner, tag := r.tag, write := write, ctx := r.ctx, hub := hub, addr := field p 0 8
                            size := size, bytes := if write then p.drop 16 else [] }
        ({ s with host := { s.host with memCmds := s.host.memCmds ++ [m] } }.pend r 0).memGo

/-- Meaning of MEM_READ. -/
def execMemRead (r : CmdReq) (s : State) : Res := .next ((s.begin r).memStart r false)

/-- Meaning of MEM_WRITE. -/
def execMemWrite (r : CmdReq) (s : State) : Res := .next ((s.begin r).memStart r true)

/-! ## RoCEv2 (R421 to R424) -/

/-- A queue pair enters ERROR: a NAK, the count, and nothing of it goes on. -/
def State.qpError (s : State) (q psn nak : Nat) : State :=
  let l : List MemCmd := s.host.memCmds.filter (·.qp != q + 1)
  let s := { s with host := { s.host with memCmds := l, writes := kdel s.host.writes q } }
  ((s.fset (R.HE_QP0.STATE q) 2).finc R.HE_STATS.RDMA_ERR 1).emit (.rdma q psn nak [])

/-- A packet that a queue pair takes: intact, on its port, from its remote address, in READY. -/
def State.qpTakes (s : State) (p : RdmaPkt) : Bool :=
  p.qp < 256 && s.hostOn p.port && p.icrcOk && s.fbit (R.HE_QP0.VALID p.qp) && s.fget (R.HE_QP0.STATE p.qp) == 1
    && s.fget (R.HE_QP0.PORT p.qp) == p.port && (s.reg (R.HE_QP1.addr p.qp)).toNat * 2 ^ 64 + (s.reg (R.HE_QP2.addr p.qp)).toNat == p.remote

/-- Go-back-N: 0 the expected packet, 1 one that came before, 2 one too early. -/
def State.psnPlace (s : State) (p : RdmaPkt) : Nat :=
  let d := (p.psn + 2 ^ 24 - s.fget (R.HE_QP0.EPSN p.qp)) % 2 ^ 24
  if d = 0 then 0 else if 2 ^ 23 ≤ d then 1 else 2

/-- The next PSN is expected. -/
def State.psnOn (s : State) (q n : Nat) : State :=
  s.fset (R.HE_QP0.EPSN q) ((s.fget (R.HE_QP0.EPSN q) + n) % 2 ^ 24)

/-- The lowest VALID region of a key serves a range for a queue pair (R422). -/
def State.regionStatus (s : State) (p : RdmaPkt) (write : Bool) : Bool :=
  let ctx := s.fget (R.HE_QP0.CONTEXT p.qp)
  match (List.range 1024).find? fun k => s.fbit (R.HE_MR0.VALID k) && s.fget (R.HE_MR0.R_KEY k) == p.rkey with
  | none => false
  | some k =>
    let b := s.fget (R.HE_MR1.VA_BASE k)
    s.fget (R.HE_MR0.CONTEXT k) == ctx && (if write then s.fbit (R.HE_MR0.WRITE k) else s.fbit (R.HE_MR0.READ k))
      && b ≤ p.va && p.va + p.dlen ≤ b + s.fget (R.HE_MR2.LENGTH k) && ctx != 0
      && s.ctxRefusal ctx == none && (p.dlen == 0 || s.rangeStatus ctx 0 p.va p.dlen write == ST.OK)

/-- A packet's part of a range is performed in pieces. -/
def State.rdmaGo (s : State) (p : RdmaPkt) (write : Bool) (va size : Nat) (last : Bool) : State :=
  let m : MemCmd := { write := write, ctx := s.fget (R.HE_QP0.CONTEXT p.qp), addr := va, size := size, bytes := p.data
                      qp := p.qp + 1, psn := p.psn, last := last }
  { s with host := { s.host with memCmds := s.host.memCmds ++ [m] } }.memGo

/-- Bytes a packet of a message that has `left` to come may carry. -/
def packetFits (p : RdmaPkt) (left : Nat) : Bool :=
  if p.place = 1 ∨ p.place = 2 then p.data.length == 4096 && 4096 < left
  else p.data.length == left && left ≤ 4096

/-- A packet that came before: its write is acknowledged again, once nothing of the queue pair is under way. -/
def State.ackAgain (s : State) (q : Nat) : State :=
  if s.host.memCmds.any (·.qp == q + 1) then s
  else s.emit (.rdma q ((s.fget (R.HE_QP0.EPSN q) + 2 ^ 24 - 1) % 2 ^ 24) 0 [])

/-- Meaning of RDMA_WRITE. -/
def execRdmaWrite (p : RdmaPkt) (s : State) : Res :=
  let at_ := s.psnPlace p
  let first := p.place == 0 || p.place == 1
  let run := kget s.host.writes p.qp
  .next (if !s.qpTakes p then s
    else if at_ = 1 then s.ackAgain p.qp
    else if at_ = 2 then s.emit (.rdma p.qp (s.fget (R.HE_QP0.EPSN p.qp)) 5 [])
    else if first && run.isSome || !first && run.isNone then s.qpError p.qp p.psn 2
    else if first && !s.regionStatus p true then s.qpError p.qp p.psn 3
    else
      let w := if first then (p.va, p.dlen) else run.getD (0, 0)
      if !packetFits p w.2 then s.qpError p.qp p.psn 2
      else
        let n := p.data.length
        let left := w.2 - n
        let ws := if left = 0 then kdel s.host.writes p.qp else kset s.host.writes p.qp (w.1 + n, left)
        ({ s with host := { s.host with writes := ws } }.psnOn p.qp 1).rdmaGo p true w.1 n (left == 0))

/-- Meaning of RDMA_READ: at most 16 are outstanding; one that came before is performed again. -/
def execRdmaRead (p : RdmaPkt) (s : State) : Res :=
  let at_ := s.psnPlace p
  let open_ := s.host.memCmds.filter fun m => m.qp == p.qp + 1 && !m.write
  .next (if !s.qpTakes p then s
    else if at_ = 2 then s.emit (.rdma p.qp (s.fget (R.HE_QP0.EPSN p.qp)) 5 [])
    else if (kget s.host.writes p.qp).isSome ∨ 16 ≤ open_.length ∨ 2 ^ 31 < p.dlen then s.qpError p.qp p.psn 2
    else if !s.regionStatus p false then s.qpError p.qp p.psn 3
    else if s.host.memCmds.any fun m => m.qp == p.qp + 1 && m.psn == p.psn then s
    else (s.when (at_ == 0) (·.psnOn p.qp (max 1 (ceilDiv p.dlen 4096)))).rdmaGo p false p.va p.dlen true)

/-- Meaning of RDMA_UNSUPPORTED. -/
def execRdmaUnsupported (p : RdmaPkt) (s : State) : Res :=
  .next (if s.qpTakes p then s.qpError p.qp p.psn 2 else s)

/-- The response packets of a READ; `n` bounds them. -/
def State.readResponse (s : State) (q psn : Nat) : Nat → List Byte → State
  | 0, _ => s
  | n + 1, b =>
    let s := s.emit (.rdma q (psn % 2 ^ 24) 1 (b.take 4096))
    if b.length ≤ 4096 then s.fset (R.HE_QP3.RESPONSE_PSN q) ((psn + 1) % 2 ^ 24) else s.readResponse q (psn + 1) n (b.drop 4096)

/-- An operation that is over is answered; one with a piece that failed is not served. -/
def State.rdmaAnswer (s : State) (m : MemCmd) : State :=
  let l : List MemCmd := s.host.memCmds.filter fun x => !sameMem x m
  let s := { s with host := { s.host with memCmds := l } }
  let q := m.qp - 1
  if s.fget (R.HE_QP0.STATE q) ≠ 1 then s
  else if m.status ≠ ST.OK then s.qpError q m.psn 4
  else if !m.write then s.readResponse q m.psn (m.size / 4096 + 1) m.result
  else if m.last then (s.emit (.rdma q m.psn 0 [])).fset (R.HE_QP3.RESPONSE_PSN q) ((m.psn + 1) % 2 ^ 24)
  else s

/-- Queue pairs answer in order: the oldest operation of each that is over. -/
def State.rdmaPump (s : State) : Nat → State
  | 0 => s
  | n + 1 =>
    let firsts := s.host.memCmds.filter fun m =>
      m.qp != 0 && ((s.host.memCmds.find? (·.qp == m.qp)).any fun x => sameMem x m)
    match firsts.find? (·.over) with
    | some m => (s.rdmaAnswer m).rdmaPump n
    | none => s

/-- Memory commands and RDMA operations at a frame boundary. -/
def State.hostTick (s : State) : State := (s.rdmaPump s.host.memCmds.length).memGo

/-- Word 0 of a queue pair is written (R424): only RESET leads out of ERROR, and EPSN is taken in RESET. -/
def State.qpWrite (s : State) (q : Nat) (v : W64) : State :=
  let old := s.fget (R.HE_QP0.STATE q)
  let ask := bitsOf v.toNat 9 8
  let st := if old = 2 ∧ ask ≠ 0 then 2 else ask
  let epsn := if old = 0 ∨ st = 0 then bitsOf v.toNat 63 40 else s.fget (R.HE_QP0.EPSN q)
  let w := definedBits (R.HE_QP0.addr q) v.toNat
  let s := s.setReg (R.HE_QP0.addr q) (BitVec.ofNat 64 (splice (splice w 9 8 st) 63 40 epsn))
  if st ≠ 0 then s
  else
    let l : List MemCmd := s.host.memCmds.filter (·.qp != q + 1)
    { s with host := { s.host with memCmds := l, writes := kdel s.host.writes q } }.fset (R.HE_QP3.RESPONSE_PSN q) 0

/-- Meaning of QP_STATE_WRITE. -/
def execQpStateWrite (qp : Nat) (v : W64) (s : State) : Res := .next (if qp < 256 then s.qpWrite qp v else s)

end Sys2Proof.Machine
end

