-- ==== Sys2Proof/Machine/RegAccess.lean ====
section
/-! DEFINITION. Reading and writing registers: the access codes (R7 to R11), the registers that show other state, the
actions a write starts, and the paths that reach them (R28, R413, R441, R494, R538, R539, R550). -/

namespace Sys2Proof.Machine

/-- The state a meaning gives when it runs inside another. -/
def State.run (s : State) (f : State → Res) : State :=
  match f s with
  | .next t => t
  | _ => s

/-! ## Reading -/

/-- Registers that read as zero and ignore writes: those of a unit in reset (R441), those of port index 128 + s (R8). -/
def State.regSilent (s : State) (a : Nat) : Bool :=
  let o := a % 2 ^ 24
  match a / 2 ^ 24 with
  | 1 => o / 0x1000 == s.ownPos || s.unitInReset U.PORT (o / 0x1000)
  | 5 => a == R.SG_FOUND.addr s.ownPos
  | 6 => s.unitInReset U.TOLLGATE 0
  | 7 => s.unitInReset U.HUB (o / 0x100000)
  | 8 => s.unitInReset U.CORE (o / 0x10000) || s.unitInReset U.HUB (o / 0x100000)
  | 9 => if o / 0x80000 = 16 then s.unitInReset U.CONTROL 0 else s.unitInReset U.HUB (o / 0x80000)
  | _ => false

/-- Bits of the engines of a core's running set. -/
def engineBits (r : RegSet) (p : Engine → Bool) : Nat := bitMap ((List.range 4).filter fun i => (r.engines[i]?).any p)

/-- CO_ORDER_STATUS. -/
def State.orderStatus (s : State) (c : Nat) : Nat :=
  let r := (s.core c).run
  bitMap ((List.range 4).filter fun e => s.lostPending (c / 16) (obsOf c e) r.ctx)
    + (match r.ra.filter (!·.cutOff) with | some x => 16 + x.len % 128 * 32 | none => 0)
    + engineBits r (fun e => 1 ≤ e.wait && e.wait ≤ 4) * 4096

/-- EP_STATUS of an instance beside BAD_ENTRY. -/
def State.epStatus (s : State) (e v : Nat) : Nat :=
  splice (splice (splice v 0 0 (if s.volatileOn e then 1 else 0)) 19 2 (ortUsed (s.ep e))) 28 20 (s.ep e).waits.length

/-- CH_ORDER of a requester beside FENCE_LOST. -/
def State.chipOrder (s : State) (rq v : Nat) : Nat :=
  splice (splice v 0 0 (if s.lostPending 17 rq 0 then 1 else 0)) 1 1 (if s.acqPending rq then 1 else 0)

/-- Eight bytes of CH_TEST_BUF. -/
def State.testWord (s : State) (o : Nat) : Nat :=
  leNat ((List.range 8).map fun i => kgetD (α := Byte) s.chip.testBuf (o + i) 0)

/-- What the control, switch and core registers show of other state. BANK_WAIT is a free value up to 3 ACLK for every
sector asked for since it was read (R322). -/
def State.viewLow (s : State) (a v : Nat) : Nat :=
  let o := a % 2 ^ 24
  match a / 2 ^ 24 with
  | 0 =>
    if a = R.CP_CTX.addr 0 then splice v 1 0 1
    else if a = R.CP_FW.RUN_SLOT.addr then splice (splice v 19 18 (s.fwSlot 0)) 21 20 (s.fwSlot 1)
    else v
  | 2 => if 0x10000 ≤ o ∧ (o - 0x10000) % 64 = 16 ∧ (o - 0x10000) / 64 < 160 then (s.swDepth ((o - 0x10000) / 64)).toNat else v
  | 4 => if a = R.TB_FRAME.addr then s.tb.frame.toNat else v
  | 5 =>
    if R.SG_GONE.addr 0 ≤ a ∧ a < R.SG_GONE.addr 7 then
      bitMap ((List.range 64).filter fun j => (o - 0x100) * 8 + j < 416 && s.gone ((o - 0x100) * 8 + j))
    else if R.SG_FOUND.addr 128 ≤ a ∧ a < R.SG_FOUND.addr 144 then
      splice v 46 39 (((kget s.sg.subst (o / 8 - 0x400)).getD none).getD 0xFF)
    else v
  | 8 =>
    let c := o / 0x10000
    if a = R.CO_STATUS.addr c then
      splice v 19 16 (if s.fget (R.CO_STATUS.KIND c) = 0 then 0 else engineBits (s.core c).run fun e => !e.stopped && !e.stepEnd)
    else if a = R.CO_ORDER_STATUS.addr c then s.orderStatus c
    else if a = R.CO_STATS2.addr c then splice v 31 0 (min (s.freeVal % (3 * (s.core c).asked + 1)) 0xFFFFFFFF)
    else v
  | _ => v

/-- What the other registers show of other state. -/
def State.viewHigh (s : State) (a v : Nat) : Nat :=
  let o := a % 2 ^ 24
  match a / 2 ^ 24 with
  | 9 =>
    let e := o / 0x80000
    if a = R.EP_CTL.addr e then (if e = 16 then bitClr v 1 else v)
    else if a = R.EP_STATUS.addr e then s.epStatus e v
    else v
  | 10 =>
    if a = R.HE_TIME.addr then splice v 49 49 (if s.ptpLocked then 1 else 0)
    else if a = R.HE_PORT.addr 0 ∨ a = R.HE_PORT.addr 1 then splice v 47 16 s.freeVal
    else v
  | 11 =>
    if R.PT_CTX_THROTTLE.addr 0 ≤ a ∧ a < R.PT_CTX_THROTTLE.addr 64 ∧ s.fbit (R.CP_CTX.MASK_THROTTLE ((o - 0x100) / 8)) then 0
    else v
  | 12 => if a = R.SI_ATT_WIN.addr then s.attWin else v
  | 13 =>
    if a = R.AL_STATUS.addr then splice (splice v 31 0 s.newestRseq) 33 33 (if s.al.pages.any (·.timeInvalid) then 1 else 0)
    else if a = R.AL_OLDEST.addr then s.oldestRseq
    else if a = R.VG_STATUS.addr then splice v 63 32 (min 0xFFFFFFFF ((s.now - s.host.lastManager) / 1000000))
    else v
  | 256 =>
    if a = R.EP_STATUS.addr 17 then s.epStatus 17 v
    else if R.CH_ORDER.addr 0 ≤ a ∧ a < R.CH_ORDER.addr 64 then s.chipOrder ((o - 0x300000) / 8) v
    else if 0x400000 ≤ o ∧ o < 0x404000 then s.testWord (o - 0x400000)
    else v
  | _ => v

/-- No register is assigned to the address (R8); CH_TEST_BUF lies outside the table of fields. -/
def unassigned (a : Nat) : Bool := (regFields a).isEmpty && !(0x100400000 ≤ a && a < 0x100404000)

/-- The current value of a register. -/
def State.regValue (s : State) (a : Nat) : Nat :=
  if s.regSilent a || unassigned a then 0 else s.viewHigh a (s.viewLow a (s.reg a).toNat)

/-- Registers with a count that timing or a measurement gives and no command brings: it is a free value. -/
def freeCount (a : Nat) : Bool :=
  (a / 2 ^ 24 == 8 && a % 0x10000 == 0x20) || a == R.HE_PORT.addr 0 || a == R.HE_PORT.addr 1

/-- A read clears the RC fields of the value it returned. -/
def clearRead (v : Nat) (f : FDesc) : Nat := if f.acc = .rc then splice v f.hi f.lo 0 else v

/-- BANK_WAIT of a core is read: it starts again at zero. -/
def State.bankRead (s : State) (c : Nat) : State := s.setCore c { s.core c with asked := 0 }

/-- A read of a register (R10): the state after it, and the value. -/
def State.regRead (s : State) (a : Nat) : State × W64 :=
  let v := BitVec.ofNat 64 (s.regValue a)
  let fs := regFields a
  if s.regSilent a || unassigned a then (s, v)
  else
    let s := s.when (freeCount a && a / 2 ^ 24 == 8) (·.bankRead ((a % 2 ^ 24) / 0x10000))
    let s := s.when (fs.any (·.acc == .rc)) (·.setReg a (BitVec.ofNat 64 (fs.foldl clearRead (s.reg a).toNat)))
    (s.when (freeCount a) State.freeUsed, v)

/-! ## Writing -/

/-- What a write of v leaves in one field (R10). -/
def fieldWrite (v old : Nat) (f : FDesc) : Nat :=
  match f.acc with
  | .rw => splice old f.hi f.lo (bitsOf v f.hi f.lo)
  | .w1c => old - (old &&& (bitsOf v f.hi f.lo * 2 ^ f.lo))
  | _ => old

/-- A field whose value zero is treated as 1. -/
def atLeastOne (v hi lo : Nat) : Nat := if bitsOf v hi lo = 0 then splice v hi lo 1 else v

/-- Values that a register's table treats as others. -/
def treatedAs (a v : Nat) : Nat :=
  if a = R.CP_STATE_CTL.addr then atLeastOne v 15 8
  else if a = R.TG_CTL.addr then
    let v := atLeastOne v 13 8
    if 4 < bitsOf v 18 16 then splice v 18 16 4 else v
  else if a / 2 ^ 24 = 7 ∧ a % 0x100000 = 0x18 then atLeastOne v 12 8
  else if a / 2 ^ 24 = 7 ∧ a % 0x100000 = 0x40 then
    let v := atLeastOne v 6 0
    if 64 < bitsOf v 6 0 then splice v 6 0 64 else v
  else if (a / 2 ^ 24 = 9 ∧ a % 0x80000 = 0) ∨ a = R.EP_CTL.addr 17 then atLeastOne v 7 2
  else if a = R.SI_ATT_CTL.addr then splice v 28 16 (cursorOf (bitsOf v 28 16))
  else v

/-- A write sets the fields of a register by their access codes. -/
def State.plainWrite (s : State) (a : Nat) (v : W64) : State :=
  s.setReg a (BitVec.ofNat 64 ((regFields a).foldl (fieldWrite (treatedAs a v.toNat)) (s.reg a).toNat))

/-- OP_PORT_CTL. -/
def State.portCtl (s : State) (p v : Nat) : State :=
  let s := (s.run (execFwOverride p (bitAt v 1))).run (execEnable p (bitAt v 0))
  let s := (s.run (execForceDown p (bitAt v 3))).run (execForceMaint p (bitAt v 4))
  s.when (bitAt v 2) (·.run (execRetrain p))

/-- Word 0 of HB_MIRROR: setting VALID marks every page, RESYNC marks them again. -/
def State.mirrorCtl (s : State) (h i v : Nat) : State :=
  let was := s.fbit (R.HB_MIRROR0.VALID h i)
  let s := s.fset (R.HB_MIRROR0.CONTEXT h i) (bitsOf v 6 1)
  let s := if !bitAt v 0 then s.fsetb (R.HB_MIRROR0.VALID h i) false
    else s.when (!was) (·.run (execMirrorValidSet h i))
  s.when (bitAt v 8) (·.run (execMirrorResync h i))

/-- A hub's registers. -/
def State.hubRegWrite (s : State) (a : Nat) (v : W64) : State :=
  let h := a % 2 ^ 24 / 0x100000
  let o := a % 0x100000
  if o = 0x18 then (s.plainWrite a v).when (bitAt v.toNat 0) (·.run (execRetireGo h))
  else if o = 0x48 then s.run (execMirrorSync h (bitsOf v.toNat 11 0) (bitsOf v.toNat 27 12))
  else if 0x2000 ≤ o ∧ o < 0x2400 ∧ o % 64 = 0 then s.mirrorCtl h ((o - 0x2000) / 64) v.toNat
  else if 0x2000 ≤ o ∧ o < 0x2400 ∧ o % 64 < 40 then (s.plainWrite a v).winWritten h ((o - 0x2000) / 64)
  else s.plainWrite a v

/-- An end-point instance's registers, at an offset within it. -/
def State.epRegWrite (s : State) (e o a : Nat) (v : W64) : State :=
  if o = 0 then
    ((s.plainWrite a v).setVolatile e (bitAt v.toNat 0)).when (bitAt v.toNat 8) (·.demoteClr e)
  else if 0x40000 ≤ o ∧ o < 0x50000 ∧ o % 16 = 0 then s.writeCount e ((o - 0x40000) / 16) v
  else s.plainWrite a v

/-- The host ports' registers. -/
def State.hostRegWrite (s : State) (a : Nat) (v : W64) : State :=
  let o := a % 2 ^ 24
  if o = 0 then
    let s := s.plainWrite a v
    s.forEach ((List.range 2).filter fun p => !s.hostOn p) fun s p => s.fsetb (R.HE_PORT.LINK_UP p) false
  else if a = R.HE_TIME_SET.addr then s.timeSet v
  else if 0x1000 ≤ o ∧ o < 0x1400 then s.allowWrite ((o - 0x1000) / 32) (o % 32 / 8) v
  else if 0x4000 ≤ o ∧ o < 0x6000 ∧ o % 32 = 0 then s.qpWrite ((o - 0x4000) / 32) v
  else s.plainWrite a v

/-- PT_BOOT: BOOT_FAIL clears on a 1; BOOT_HOLD takes the value written. -/
def State.bootRegWrite (s : State) (v : Nat) : State :=
  (s.when (bitAt v 1) (·.run execBootFailClear)).run (execBootHold (bitAt v 0))

/-- CH_CTL. -/
def State.chipCtl (s : State) (v : Nat) (fabric : Bool) : State :=
  let s := if s.fbit R.CH_CTL.PORTS_EN then s else s.fset R.CH_CTL.EP_ID (bitsOf v 9 0)
  let s := (s.fsetb R.CH_CTL.PORTS_EN (bitAt v 10)).when (fabric && bitAt v 11) (·.fsetb R.CH_CTL.SB_LOCK true)
  s.when (bitAt v 12) State.chipReset

/-- Offsets of the chiplet's window that SB_LOCK keeps from the sideband (R539). -/
def sbLocked (o : Nat) : Bool :=
  (0x10000 ≤ o && o < 0x30000) || (0x1000 ≤ o && o < 0x1800) || (0x40000 ≤ o && o < 0x50000 && o % 16 == 8)
    || o == 0x100018 || o == 0x100020

/-- Eight bytes go into CH_TEST_BUF. -/
def State.testPut (s : State) (o : Nat) (v : W64) : State :=
  let f (m : KV Byte) (i : Nat) : KV Byte := kset m (o + i) (BitVec.ofNat 8 (v.toNat / 256 ^ i))
  { s with chip := { s.chip with testBuf := (List.range 8).foldl f s.chip.testBuf } }

/-- The chiplet's registers. -/
def State.chipRegWrite (s : State) (a : Nat) (v : W64) (fabric : Bool) : State :=
  let o := a % 2 ^ 24
  if s.chip.hold || (!fabric && s.fbit R.CH_CTL.SB_LOCK && sbLocked o) then s
  else if o < 0x100000 then s.epRegWrite 17 o a v
  else if a = R.CH_CTL.addr then s.chipCtl v.toNat fabric
  else if 0x200000 ≤ o ∧ o < 0x210000 ∧ o % 0x1000 = 8 then s.portCtl (160 + (o - 0x200000) / 0x1000) v.toNat
  else if 0x400000 ≤ o ∧ o < 0x404000 then s.testPut (o - 0x400000) v
  else s.plainWrite a v

/-- A write of a register with all it starts; `fabric`: it came over the fabric window. -/
def State.regWrite (s : State) (a : Nat) (v : W64) (fabric : Bool) : State :=
  let o := a % 2 ^ 24
  if s.regSilent a || unassigned a then s
  else
    match a / 2 ^ 24 with
    | 0 =>
      if a = R.CP_STATE_CTL.addr then
        ((s.plainWrite a v).when (bitAt v.toNat 0) (·.run execMaint)).when (bitAt v.toNat 1) (·.run execResume)
      else s.plainWrite a v
    | 1 => if o % 0x1000 = 8 ∧ o < 0xA0000 then s.portCtl (o / 0x1000) v.toNat else s.plainWrite a v
    | 2 => if o = 0 then (s.plainWrite a v).setCombine (bitAt v.toNat 0) else s.plainWrite a v
    | 3 => if a = R.RD_SR_SEED.addr then s.seedRd v else s.plainWrite a v
    | 7 => s.hubRegWrite a v
    | 9 => if o / 0x80000 < 17 then s.epRegWrite (o / 0x80000) (o % 0x80000) a v else s
    | 10 => s.hostRegWrite a v
    | 11 => if a = R.PT_BOOT.BOOT_HOLD.addr then s.bootRegWrite v.toNat else s.plainWrite a v
    | 12 => if a = R.SI_ATT_CTL.addr then (s.plainWrite a v).when (bitAt v.toNat 0) (·.run execAttGo) else s.plainWrite a v
    | 13 =>
      if a = R.TM_SNAP.addr then s.when (bitAt v.toNat 0) (·.run execTmSnapGo)
      else if 0x301000 ≤ o ∧ o < 0x301400 ∧ o % 64 = 0 then s.pchkWrite ((o - 0x301000) / 64) v
      else s.plainWrite a v
    | 256 => s.chipRegWrite a v fabric
    | _ => s.plainWrite a v

/-! ## Paths -/

/-- A sled address is a multiple of 8 (R7) within the 32-bit register space. -/
def regAddr (a : Nat) : Bool := a % 8 == 0 && a < 2 ^ 32

/-- Registers that answer the board-management pair (R550). -/
def State.bmOpen (s : State) (a : Nat) : Bool :=
  if s.sled = SS.OFF then false
  else if s.sled = SS.STANDBY ∨ s.sled = SS.BOOT ∨ s.sled = SS.HALT then
    a == R.CP_STATE.addr || a == R.CP_ALERT.STRAP.addr || a / 2 ^ 24 == 11 || a / 2 ^ 24 == 12
  else true

/-- Meaning of BM_TRANSACTION: an address that R7 refuses has no effect. -/
def execBmTransaction (write : Bool) (addr : Nat) (v : W64) (s : State) : Res :=
  .next (if !regAddr addr ∨ s.sled = SS.OFF then s
    else if write then (if s.bmOpen addr then s.regWrite addr v false else s)
    else if s.bmOpen addr then
      let r := s.regRead addr
      r.1.emit (.bmRead addr r.2)
    else s.emit (.bmRead addr 0))

/-- Meaning of REGISTER_WRITE: `via` 0 a REG_WRITE command, 1 the board-management pair, 2 the fabric window, 3 the
UCIe sideband; an address of 2^32 or more is the chiplet's. -/
def execRegisterWrite (via addr : Nat) (v : W64) (s : State) : Res :=
  let chip := 2 ^ 32 ≤ addr && addr < 2 ^ 32 + 2 ^ 24
  let ok := addr % 8 == 0 && (
    if chip then via == 2 || via == 3
    else regAddr addr && (
      (via == 0 && SS.INIT ≤ s.sled) || (via == 1 && s.bmOpen addr)
        || (via == 2 && SS.INIT ≤ s.sled && s.fbit R.SI_CTL.REGWIN_WRITE)))
  .next (if ok then s.regWrite addr v (via == 2) else s)

/-- Adds the value of one register to what a REG_READ has read. -/
def State.readList (s : State) (out : List Byte) : Nat → List Nat → State × List Byte × Option Nat
  | _, [] => (s, out, none)
  | i, a :: t =>
    if a % 8 ≠ 0 then (s, out, some i)
    else
      let r := s.regRead a
      r.1.readList (out ++ leBytes r.2.toNat 8) (i + 1) t

/-- Meaning of REG_READ. -/
def execRegRead (r : CmdReq) (s : State) : Res :=
  let s := s.begin r
  let p := r.payload
  .next (if p.length % 4 ≠ 0 ∨ 4096 < p.length then s.answerSt r ST.BAD_PARAM
    else
      match s.readList [] 0 ((List.range (p.length / 4)).map fun i => field p (4 * i) 4) with
      | (s, out, none) => s.answer r ST.OK 0 out
      | (s, out, some i) => s.answer r ST.BAD_PARAM i out)

/-- The writes of a REG_WRITE, up to the first address that R7 refuses. -/
def State.writeList (s : State) : Nat → List (Nat × W64) → State × Option Nat
  | _, [] => (s, none)
  | i, w :: t => if w.1 % 8 ≠ 0 then (s, some i) else (s.regWrite w.1 w.2 false).writeList (i + 1) t

/-- Meaning of REG_WRITE. -/
def execRegWrite (r : CmdReq) (s : State) : Res :=
  let s := s.begin r
  let p := r.payload
  let n := p.length / 16
  .next (if p.length % 16 ≠ 0 ∨ 8192 < p.length then s.answerSt r ST.BAD_PARAM
    else
      match s.writeList 0 ((List.range n).map fun i => (field p (16 * i) 4, BitVec.ofNat 64 (field p (16 * i + 8) 8))) with
      | (s, none) => s.answer r ST.OK 0 []
      | (s, some i) => s.answer r ST.BAD_PARAM i [])

end Sys2Proof.Machine
end

