-- ==== Sys2Proof/Machine/Commands.lean ====
section
/-! DEFINITION. Command packets and in-band commands: headers, fragments and pieces, the checks before a command
starts, tags and results (R398 to R420, R428, R438, R498). -/

namespace Sys2Proof.Machine

/-! ## Headers -/

/-- A command header (*Command header*). -/
structure Hdr where
  magic : Nat := 0
  version : Nat := 0
  flags : Nat := 0
  opcode : Nat := 0
  tag : Nat := 0
  ctx : Nat := 0
  zero : Nat := 0
  frag : Nat := 0
  length : Nat := 0
  seqn : Nat := 0
  arg : Nat := 0
  deriving DecidableEq, Repr

/-- The header in the first 32 bytes; `num` reads a field, big-endian over Ethernet (R4), little-endian in-band
(R418). -/
def hdrOf (num : List Byte → Nat) (b : List Byte) : Hdr :=
  let f (o n : Nat) : Nat := num (bytesAt b o n)
  { magic := f 0 2, version := f 2 1, flags := f 3 1, opcode := f 4 2, tag := f 6 2, ctx := f 8 1, zero := f 9 1
    frag := f 10 2, length := f 12 4, seqn := f 16 8, arg := f 24 8 }

def Hdr.commit (h : Hdr) : Bool := bitAt h.flags 0
def Hdr.more (h : Hdr) : Bool := bitAt h.flags 1
def Hdr.notify (h : Hdr) : Bool := bitAt h.flags 4

/-- The command a header and a payload make. -/
def Hdr.cmd (h : Hdr) (owner : Nat) (payload : List Byte) (route : Route) : CmdReq :=
  { owner := owner, opcode := h.opcode, tag := h.tag, seqn := h.seqn, ctx := h.ctx % 64, arg := h.arg
    commit := h.commit, notify := h.notify, payload := payload, route := route }

/-! ## Opcodes (R411) -/

/-- Who may send an opcode. -/
inductive Sender where
  | any
  | manager
  | context
  deriving DecidableEq, Repr

/-- What ARG may hold. -/
inductive ArgForm where
  | zero
  /-- Fewer than 2^k. -/
  | below (k : Nat)
  /-- A frame number. -/
  | frame
  /-- A frame number when COMMIT is set, zero otherwise; only here may COMMIT be set. -/
  | commit
  deriving DecidableEq, Repr

/-- A row of *Opcodes*: senders, payload limit, ARG. -/
def opInfo (op : Nat) : Option (Sender × Nat × ArgForm) :=
  let mib := 1048576
  match op with
  | 0x01 => some (.any, 0, .zero)
  | 0x02 => some (.manager, 4096, .zero)
  | 0x03 => some (.manager, 8192, .zero)
  | 0x10 => some (.manager, 2560, .zero)
  | 0x11 => some (.manager, 0, .below 17)
  | 0x12 => some (.manager, 8 * mib, .commit)
  | 0x20 => some (.manager, 8 * mib, .zero)
  | 0x21 => some (.manager, 0, .frame)
  | 0x30 => some (.manager, 8 * mib, .commit)
  | 0x31 => some (.context, 80, .zero)
  | 0x40 => some (.manager, 2064, .zero)
  | 0x41 => some (.context, 0, .zero)
  | 0x50 => some (.context, 8 * mib, .zero)
  | 0x51 => some (.context, 352, .zero)
  | 0x52 => some (.context, 8, .zero)
  | 0x60 => some (.context, 16, .zero)
  | 0x61 => some (.context, 16 + mib, .zero)
  | 0x70 => some (.manager, 4096, .zero)
  | 0x71 => some (.manager, 4096, .zero)
  | 0x72 => some (.manager, 4096, .zero)
  | 0x80 => some (.manager, 64, .zero)
  | 0x81 => some (.manager, 1024, .zero)
  | 0x90 => some (.any, 256, .zero)
  | 0xA0 => some (.manager, 8 * mib, .zero)
  | 0xA1 => some (.manager, 64, .zero)
  | 0xB0 => some (.manager, 64, .zero)
  | 0xB1 => some (.manager, 256, .zero)
  | 0xF0 => some (.any, 0, .below 16)
  | 0xF1 => some (.any, 514, .zero)
  | _ => none

/-- IDENTIFY, RESULT_READ and TAG_RETIRE take no tag (R406). -/
def noTag (op : Nat) : Bool := op == 0x01 || op == 0xF0 || op == 0xF1

/-- What R402 refuses a header with. -/
def Hdr.refusal (h : Hdr) : Option Nat :=
  match opInfo h.opcode with
  | none => some ST.BAD_OPCODE
  | some (snd, limit, _) =>
    if h.version ≠ 1 ∨ bitAt h.flags 2 ∨ bitAt h.flags 3 ∨ 32 ≤ h.flags ∨ h.zero ≠ 0 ∨ 64 ≤ h.ctx ∨ limit < h.length
        ∨ (snd = .manager ∧ h.opcode ≠ 0x40 ∧ h.ctx ≠ 0) then some ST.BAD_PARAM
    else none

/-- COMMIT and ARG are as the opcode's row allows (R411). -/
def Hdr.argOk (h : Hdr) : Bool :=
  match opInfo h.opcode with
  | none => false
  | some (_, _, .zero) => !h.commit && h.arg == 0
  | some (_, _, .below k) => !h.commit && h.arg < 2 ^ k
  | some (_, _, .frame) => !h.commit
  | some (_, _, .commit) => h.commit || h.arg == 0

/-- The allow-list entry may send the command (R400); MEM_READ and MEM_WRITE reach context 0 for managers only (R415). -/
def State.maySend (s : State) (i : Nat) (h : Hdr) : Bool :=
  match opInfo h.opcode with
  | none => false
  | some (snd, _, _) =>
    s.isManager i || (snd != .manager && bitAt (s.allowWord i 1) h.ctx
      && !((h.opcode == 0x60 || h.opcode == 0x61) && h.ctx == 0))

/-- Commands that a state refuses (R428, R438, R469): the refusal's status. -/
def State.stateRefusal (s : State) (r : CmdReq) : Option Nat :=
  if s.sled = SS.HALT then
    if [0x01, 0x02, 0x90, 0x80, 0xF0, 0xF1].contains r.opcode then none else some ST.THERMAL
  else if s.sled = SS.MAINTENANCE then
    if !s.isManager r.owner then some ST.BUSY
    else if s.fbit R.CP_STATE.RECOVERY then
      if [0x01, 0x02, 0x90, 0xA0, 0xF0, 0xF1].contains r.opcode ∨ (r.opcode = 0xA1 ∧ field r.payload 0 1 = 1) then none
      else some ST.BUSY
    else if [0x01, 0x02, 0x03, 0x90, 0x80, 0x72, 0xA0, 0xA1, 0xB0, 0xF0, 0xF1].contains r.opcode
        ∨ ((r.opcode = 0x60 ∨ r.opcode = 0x61) ∧ r.ctx = 0) then none
    else some ST.BUSY
  else none

/-! ## Results and tags (R406 to R410) -/

/-- PROGRESS of a pending command: frames to the frame it waits for (R411); cores of a kernel start that run (R384). -/
def State.progressOf (s : State) (t : TagSt) : Nat :=
  match s.kern.starts.find? fun x => x.owner == t.owner && x.tag == t.tag with
  | some x => (x.cores.filter fun c => (kget x.ended c).isNone).length
  | none => t.n - s.now

/-- The answer of a RESULT_READ of a tag (R409). -/
def State.resultRead (s : State) (r : CmdReq) (tag : Nat) : State :=
  match s.findTag r.owner tag with
  | none => s.reply r ST.BAD_PARAM 0 []
  | some t =>
    if !t.done then s.reply r ST.PENDING (s.progressOf t) []
    else (s.updTag r.owner tag fun t => { t with delivered := true }).sendReply r t.status t.progress t.result t.delivered

/-- Meaning of RESULT_READ. -/
def execResultRead (r : CmdReq) (s : State) : Res := .next (s.resultRead r (r.arg % 65536))

/-- Retires tags, oldest of the list first; a status for each. -/
def State.retireTags (s : State) (owner : Nat) : List Nat → State × List Nat
  | [] => (s, [])
  | t :: rest =>
    match s.findTag owner t with
    | none =>
      let q := s.retireTags owner rest
      (q.1, ST.BAD_PARAM :: q.2)
    | some x =>
      if !x.done then
        let q := s.retireTags owner rest
        (q.1, ST.BUSY :: q.2)
      else
        let l : List TagSt := s.host.tags.filter fun y => !(y.owner == owner && y.tag == t)
        let q := ({ s with host := { s.host with tags := l } }).retireTags owner rest
        (q.1, ST.OK :: q.2)

/-- The tags a TAG_RETIRE names. -/
def retireList (p : List Byte) : Option (List Nat) :=
  let n := field p 0 2
  if 1 ≤ n ∧ n ≤ 256 ∧ p.length = 2 + 2 * n then some ((List.range n).map fun i => field p (2 + 2 * i) 2) else none

/-- TAG_RETIRE. -/
def State.tagRetire (s : State) (r : CmdReq) : State :=
  match retireList r.payload with
  | none => s.reply r ST.BAD_PARAM 0 []
  | some l =>
    let q := s.retireTags r.owner l
    q.1.reply r ((q.2.find? (· != ST.OK)).getD ST.OK) 0 (q.2.flatMap fun v => leBytes v 2)

/-- Meaning of TAG_RETIRE. -/
def execTagRetire (r : CmdReq) (s : State) : Res := .next (s.tagRetire r)

/-- The IDENTIFY result (R412). -/
def State.identity (s : State) : List Byte :=
  leBytes (s.regValue R.CP_ID.addr) 8 ++ leBytes (s.regValue R.CP_LOCATION.addr) 8 ++ bytesAt Config.serial 0 16
    ++ leBytes (s.fget R.CP_FW.RUN_MAJOR) 1 ++ leBytes (s.fget R.CP_FW.RUN_MINOR) 1 ++ leBytes s.sled 1 ++ [5]
    ++ List.replicate 4 0 ++ leBytes s.now 8 ++ leBytes (if s.timeValid then s.utc else 0) 8 ++ List.replicate 8 0

/-- Meaning of IDENTIFY; like every command but two it is refused for a context that is not ACTIVE (R369). -/
def execIdentify (r : CmdReq) (s : State) : Res :=
  .next (match s.ctxRefusal r.ctx with
    | some st => s.reply r st 0 []
    | none => s.reply r ST.OK 0 s.identity)

/-- Meaning of COMMAND_COMPLETE: what the pending command waited for has come. -/
def execCommandComplete (owner tag : Nat) (s : State) : Res :=
  .next (((s.attestDone owner tag).orElse fun _ => (s.inspectDone owner tag).orElse fun _ => s.memDone owner tag).getD s)

/-! ## Starting a command (R405) -/

/-- The meaning of each opcode. -/
def startOp (r : CmdReq) : State → Res :=
  match r.opcode with
  | 0x01 => execIdentify r
  | 0x02 => execRegRead r
  | 0x03 => execRegWrite r
  | 0x10 => execPlanLoad r
  | 0x11 => execPlanAccept r
  | 0x12 => execSignpostLoad r
  | 0x20 => execTimetableLoad r
  | 0x21 => execTimetableSwap r
  | 0x30 => execGroupLoad r
  | 0x31 => execInstanceArm r
  | 0x40 => execContextCreate r
  | 0x41 => execContextScrub r
  | 0x50 => execKernelLoad r
  | 0x51 => execKernelStart r
  | 0x52 => execKernelStop r
  | 0x60 => execMemRead r
  | 0x61 => execMemWrite r
  | 0x70 => execLinkTest r
  | 0x71 => execWiringVerify r
  | 0x72 => execConnectorInspect r
  | 0x80 => execAlmanacWindow r
  | 0x81 => execVigilConfirm r
  | 0x90 => execAttest r
  | 0xA0 => execFwStage r
  | 0xA1 => execFwActivate r
  | 0xB0 => execResetPartial r
  | 0xB1 => execPowerPolicy r
  | 0xF0 => execResultRead r
  | _ => execTagRetire r

/-- Live tags of an owner; those that the security island holds. -/
def State.tagCount (s : State) (owner : Nat) : Nat := (s.host.tags.filter (·.owner == owner)).length
def State.islandCount (s : State) (owner : Nat) : Nat := (s.host.tags.filter fun t => t.owner == owner && t.island).length

/-- The owner finds a limit of tags reached (R406, R419, R498). -/
def State.tagsFull (s : State) (r : CmdReq) : Bool :=
  4096 ≤ s.host.tags.length || (if r.owner < 64 then 256 else 16) ≤ s.tagCount r.owner
    || (r.opcode == 0x90 && r.owner < 64 && 16 ≤ s.islandCount r.owner)

/-- A command is accepted: the Almanac counts it, and one of a manager ends its silence (R470). -/
def State.acceptCmd (s : State) (owner : Nat) : State :=
  let s := s.almAdd 3 0 52 1
  if s.isManager owner then
    let s := s.almMax 3 0 40 ((s.now - s.host.lastManager) / 1000000)
    { s with host := { s.host with lastManager := s.now } }
  else s

/-- A KERNEL_LOAD that the loader never sees is measured too: its payload has arrived (R503). -/
def State.measured (s : State) (r : CmdReq) : State := if r.opcode = 0x50 then s.measure r.ctx r.payload else s

/-- A command whose fragments have arrived starts: limits on tags, what the state refuses, then its meaning. -/
def State.startCmd (s : State) (r : CmdReq) (argOk : Bool) : State :=
  if noTag r.opcode then
    if !argOk then s.reply r ST.BAD_PARAM 0 []
    else
      match s.stateRefusal r with
      | some st => s.reply r st 0 []
      | none => (s.acceptCmd r.owner).run (startOp r)
  else if s.tagsFull r then (s.measured r).reply r ST.BUSY 0 []
  else if !argOk then ((s.measured r).begin r).answerSt r ST.BAD_PARAM
  else
    match s.stateRefusal r with
    | some st => ((s.measured r).begin r).answerSt r st
    | none => (s.acceptCmd r.owner).run (startOp r)

/-! ## Ethernet: packets and fragments (R398, R399, R402 to R404) -/

/-- Same command: owner, TAG and SEQUENCE. -/
def PartialCmd.is (p : PartialCmd) (owner tag seqn : Nat) : Bool := p.owner == owner && p.tag == tag && p.seqn == seqn

/-- The header of a partial command: FRAG and MORE left out, since they differ between its fragments. -/
def plainHdr (b : List Byte) : List Byte :=
  let flags := (bytesAt b 3 1).map (· &&& 0xFD#8)
  bytesAt b 0 3 ++ flags ++ bytesAt b 4 6 ++ [0, 0] ++ bytesAt b 12 20

/-- Bytes that fragment k of a payload of n bytes carries. -/
def fragLen (n k : Nat) : Nat := min 1024 (n - 1024 * k)

/-- Fragments of a payload of n bytes. -/
def fragCount (n : Nat) : Nat := max 1 (ceilDiv n 1024)

/-- A fragment agrees with LENGTH: its number, its bytes, MORE. -/
def fragOk (h : Hdr) (bytes : Nat) : Bool :=
  h.frag < fragCount h.length && bytes == fragLen h.length h.frag && h.more == (h.frag + 1 != fragCount h.length)

/-- Partial commands with one of them left out. -/
def State.dropPartial (s : State) (owner tag seqn : Nat) : State :=
  let l : List PartialCmd := s.host.partials.filter fun p => !p.is owner tag seqn
  { s with host := { s.host with partials := l } }

/-- A fragment of a command of more than one joins the others. -/
def State.addFrag (s : State) (owner : Nat) (h : Hdr) (b : List Byte) (route : Route) : State :=
  let r := h.cmd owner [] route
  let old := s.host.partials.find? (·.is owner h.tag h.seqn)
  let full := 16 ≤ s.host.partials.length || 25165824 < (s.host.partials.map (·.total)).foldl (· + ·) h.length
  if old.isNone && full then s.reply r ST.BUSY 0 []
  else
    let new : PartialCmd := { owner := owner, tag := h.tag, seqn := h.seqn, hdr := plainHdr b, total := h.length }
    let p := old.getD new
    if p.hdr ≠ plainHdr b then (s.dropPartial owner h.tag h.seqn).reply r ST.BAD_PARAM 0 []
    else if (kget p.frags h.frag).isSome then s
    else
      let p := { p with frags := kset p.frags h.frag (b.drop 32), last := s.now }
      let s := s.dropPartial owner h.tag h.seqn
      if p.frags.length < fragCount h.length then
        { s with host := { s.host with partials := s.host.partials ++ [p] } }
      else s.startCmd (h.cmd owner (p.frags.flatMap (·.2)) route) h.argOk

/-- A command packet of a listed entry whose header R402 takes. -/
def State.takePacket (s : State) (owner : Nat) (h : Hdr) (b : List Byte) (route : Route) : State :=
  let r := h.cmd owner [] route
  if !s.maySend owner h then s.reply r ST.DENIED 0 []
  else
    match if noTag h.opcode then none else s.findTag owner h.tag with
    | some t => if t.seqn = h.seqn then s.resultRead r h.tag else s.reply r ST.TAG_BUSY 0 []
    | none =>
      if !fragOk h (b.length - 32) then (s.dropPartial owner h.tag h.seqn).reply r ST.BAD_PARAM 0 []
      else if h.length ≤ 1024 then s.startCmd (h.cmd owner (b.drop 32) route) h.argOk
      else s.addFrag owner h b route

/-- What the control processor's reset does not keep out (R498): ATTEST, and the tags that the island holds. -/
def State.forIsland (s : State) (owner : Nat) (h : Hdr) (b : List Byte) : Bool :=
  let held (t : Nat) : Bool := (s.findTag owner t).any (·.island)
  match h.opcode with
  | 0x90 => true
  | 0xF0 => held (h.arg % 65536)
  | 0xF1 => ((retireList (b.drop 32)).getD [0x10000]).all held
  | _ => false

/-- A packet that R399 or R402 discards. -/
def State.discardPacket (s : State) (f : Fld) : State := (s.finc f 1).almAdd 3 0 56 1

/-- A packet on port 19,032. -/
def State.packet (s : State) (b : List Byte) (route : Route) : State :=
  let h := hdrOf beNat b
  if b.length < 32 ∨ h.magic ≠ 0x4A58 then s.discardPacket R.HE_STATS.MALFORMED
  else
    match s.allowed route.addr with
    | none => s.discardPacket R.HE_STATS.NOT_LISTED
    | some i =>
      if s.unitInReset U.CONTROL 0 && !s.forIsland i h b then s
      else
        match h.refusal with
        | some st => s.reply (h.cmd i [] route) st 0 []
        | none => s.takePacket i h b route

/-- Meaning of COMMAND_PACKET. -/
def execCommandPacket (port addr udp : Nat) (bytes : List Byte) (s : State) : Res :=
  .next (if s.hostOn port then s.packet bytes { port := port, addr := addr, udp := udp } else s)

/-- Meaning of PARTIAL_COMMAND_EXPIRY: no fragment for 1,000,000 frames. -/
def execPartialCommandExpiry (s : State) : Res :=
  let l : List PartialCmd := s.host.partials.filter fun p => s.now < p.last + 1000000
  .next { s with host := { s.host with partials := l } }

/-! ## In-band commands (R418 to R420) -/

/-- The result of a command would exceed what an in-band reply holds (R419). -/
def longResult (h : Hdr) (payload : List Byte) : Bool := h.opcode == 0x60 && 1024 < field payload 8 4

/-- An in-band command may run: INBAND_EN, an opcode marked C or any, a context of the sender's partition (R419). -/
def State.inbandOk (s : State) (src : Nat) (h : Hdr) (ctxs : List Nat) : Bool :=
  s.fbit R.HE_CTL.INBAND_EN && (opInfo h.opcode).any (·.1 != .manager) && h.ctx != 0 && ctxs.all (· == h.ctx)
    && s.fget (R.CP_CTX.PARTITION (h.ctx % 64)) == s.partOf src

/-- An in-band command whose pieces have all come starts. -/
def State.inbandStart (s : State) (src : Nat) (ctxs : List Nat) (b : List Byte) : State :=
  let h := hdrOf leNat b
  let r := h.cmd (64 + src) [] {}
  let p := (b.drop 32).take h.length
  let bad := h.refusal.orElse fun _ =>
    if h.magic ≠ 0x4A58 ∨ h.more ∨ h.frag ≠ 0 ∨ 1024 < h.length ∨ b.length < 32 + h.length ∨ ceilDiv (32 + h.length) 56 * 56 < b.length
      then some ST.BAD_PARAM else none
  match bad with
  | some st => s.reply r st 0 []
  | none =>
    if !s.inbandOk src h ctxs then s.reply r ST.DENIED 0 []
    else
      match if noTag h.opcode then none else s.findTag r.owner h.tag with
      | some t => if t.seqn = h.seqn then s.resultRead r h.tag else s.reply r ST.TAG_BUSY 0 []
      | none => s.startCmd (h.cmd r.owner p {}) (h.argOk && !longResult h p)

/-- In-band commands being collected without one of them. -/
def State.dropInband (s : State) (src tag : Nat) : State :=
  let l : List PartialCmd := s.host.inband.filter fun p => !(p.owner == src && p.tag == tag)
  { s with host := { s.host with inband := l } }

/-- A piece of an in-band command joins the others; one already held, or of another number of pieces, is ignored. -/
def State.inbandPiece (s : State) (c : Cell) : State :=
  let b := lineBytes c.payload
  let tag := field b 2 2
  let i := field b 4 2
  let n := field b 6 2
  if field b 0 1 ≠ 1 ∨ field b 1 1 ≠ 0 ∨ n = 0 ∨ 19 < n ∨ n ≤ i then s
  else
    let new : PartialCmd := { owner := c.src, tag := tag, total := n, last := s.now }
    let p := (s.host.inband.find? fun p => p.owner == c.src && p.tag == tag).getD new
    if p.total ≠ n ∨ (kget p.frags i).isSome then s
    else
      let p := { p with frags := kset p.frags i (b.drop 8), ctxs := addNew p.ctxs c.ctx }
      let s := s.dropInband c.src tag
      if p.frags.length < n then { s with host := { s.host with inband := s.host.inband ++ [p] } }
      else s.inbandStart c.src p.ctxs (p.frags.flatMap (·.2))

/-- A first piece finds 64 commands already collecting. -/
def State.inbandFull (s : State) (c : Cell) : Bool :=
  64 ≤ s.host.inband.length
    && !s.host.inband.any fun p => p.owner == c.src && p.tag == field (lineBytes c.payload) 2 2

/-- Meaning of INBAND_PIECE_EXPIRY: a command not complete within 4,096 frames. -/
def execInbandPieceExpiry (s : State) : Res :=
  let l : List PartialCmd := s.host.inband.filter fun p => s.now < p.last + 4096
  .next { s with host := { s.host with inband := l } }

/-- Pieces of a stream, each in a COMMAND cell (R418). -/
def commandCells (plane ctx : Nat) (b : List Byte) : List Cell :=
  let n := ceilDiv b.length 56
  (List.range n).map fun i =>
    { typ := T.COMMAND, cls := 1, dst := 384 + plane, ctx := ctx, payload := streamPiece 1 (field b 6 2) i n b }

/-- Meaning of INBAND_MESSAGE: the chiplet's end-point sends the accelerator's stream to the sled of a plane. -/
def execInbandMessage (plane ctx : Nat) (stream : List Byte) (s : State) : Res :=
  .next (if s.chip.hold ∨ 16 ≤ plane ∨ stream.length < 32 ∨ 1056 < stream.length then s
    else
      let x := s.ep 17
      let q : Request := { id := x.nextKey, r := { ctx := ctx % 64 }, ga := (384 + plane) * 2 ^ 44, at_ := s.now }
      (s.setEp 17 { x with nextKey := x.nextKey + 1 }).enterCells 17 q
        ((commandCells plane (ctx % 64) stream).map fun c => { c with src := s.epId 17 }) false 0)

end Sys2Proof.Machine
end

