-- ==== Sys2Proof/Machine/Target.lean ====
section
/-! DEFINITION. A cell at its target: sequence windows, performance at the home, register windows, INVALIDATE, in-band
pieces, duplicates, PATTERN echoes and the replies a chiplet puts together (R28, R178 to R180, R194, R418 to R420, R525,
R538, R558). -/

namespace Sys2Proof.Machine

/-- Sequence plane of a cell at an instance that it reached on a plane (R175). -/
def State.seqPlaneAt (s : State) (e plane : Nat) : Nat := if e = 17 then plane else s.plane

/-- An answer goes back on the plane on which its cell came (R558). -/
def State.answerFrom (s : State) (e plane : Nat) (c : Cell) : State :=
  if e < 16 then s.hubSend e c
  else if e = 16 then s.ownSend c
  else s.homeAnswer plane c

/-- An instance takes no cell: its unit is in reset, or the chiplet is held (R441, R544). -/
def State.targetDown (s : State) (e : Nat) : Bool :=
  if e < 16 then s.unitInReset U.HUB e
  else if e = 16 then s.unitInReset U.CONTROL 0 || s.sled < SS.INIT
  else s.chip.hold

/-! ## Register windows (R28, R494, R538) -/

/-- What a register window refuses an access with (R7, R28, R494, R538, R539). A WRITE that is both denied and malformed is
answered with ST_DENIED (assumption 148). -/
def State.regRefusal (s : State) (e : Nat) (c : Cell) : Option Nat :=
  let chip := e == 17
  let high := if chip then bitsOf c.offset 43 24 else bitsOf c.offset 43 32
  if c.typ == T.WRITE && (if chip then !(384 ≤ c.src && c.src < 400) else !s.fbit R.SI_CTL.REGWIN_WRITE) then
    some ST.DENIED
  else if !c.allowed ∨ c.typ = T.ATOMIC ∨ high ≠ 0 ∨ c.offset % 8 ≠ 0 ∨ c.len ≠ 3 then some ST.BAD_PARAM
  else none

/-- An access to the register window of a control processor or a chiplet: the state after it and the answer. -/
def State.regCell (s : State) (e : Nat) (c : Cell) : State × Cell :=
  let addr := if e = 17 then 2 ^ 32 + c.offset % 2 ^ 24 else c.offset % 2 ^ 32
  match s.regRefusal e c with
  | some st => (s, nackOf c st false 0)
  | none =>
    if c.typ = T.READ then
      let r := s.regRead addr
      (r.1, respOf c (leBytes r.2.toNat 8))
    else (s.regWrite addr (BitVec.ofNat 64 (field (lineBytes c.payload) (c.offset % 64) 8)) true, ackOf c)

/-! ## In-band pieces (R418) -/

/-- A new COMMAND cell at the control-processor end-point: acknowledged and collected, or ST_BUSY. -/
def State.commandCell (s : State) (c : Cell) : State :=
  if s.inbandFull c then s.answerFrom 16 0 (nackOf c ST.BUSY false 0)
  else (s.answerFrom 16 0 (ackOf c)).inbandPiece c

/-! ## New cells and duplicates (R178, R179) -/

/-- A new cell is performed. -/
def State.targetNew (s : State) (e plane : Nat) (c : Cell) (f : LineFault) : State :=
  if c.typ = T.INVALIDATE then
    let r := s.invalidate e c
    r.1.answerFrom e plane r.2
  else if c.typ = T.COMMAND then s.commandCell c
  else if e < 16 then s.hubCell e c f
  else if e = 17 ∧ c.space = 0 then s.homeCell plane c
  else
    let r := s.regCell e c
    r.1.answerFrom e plane r.2

/-- The original of a duplicate is still being performed: it waits in a hub's controller or at the chiplet's home, where a
window is one port's (R175). -/
def State.inProgress (s : State) (e plane : Nat) (c : Cell) : Bool :=
  let same (x : Cell) : Bool := x.src == c.src && x.seq == c.seq
  let here (a : Nat × Cell) : Bool := a.1 == plane && same a.2
  if e < 16 then (s.hub e).waiting.any fun w => match w with
    | .cell x => same x
    | .direct _ => false
  else if e = 17 then (s.chip.store.any fun x => x.waiting.any here) || s.chip.storeQueue.any here
  else false

/-- The answer to a duplicate atomic that returned a value: its record, or ST_LOST. -/
def State.recordAnswer (s : State) (e plane : Nat) (c : Cell) : Cell :=
  let sp := if e = 17 ∧ 128 ≤ c.src then planeOfId c.src else s.seqPlaneAt e plane
  match (s.ep e).replies.find? fun r => r.src == c.src && r.plane == sp && r.seq == c.seq with
  | some r => if r.fetch then respOf c (leBytes r.old r.width) else ackOf c
  | none => nackOf c ST.LOST false 0

/-- What a target refuses a new cell with, and RETRY_AFTER: it performs nothing and does not accept the cell, whose SEQ
stays new (R27, R28, R165, R178, R418; assumption 149). -/
def State.refusal (s : State) (e : Nat) (c : Cell) : Option (Nat × Nat) :=
  if c.typ = T.INVALIDATE then (if 3 ≤ c.opmod then some (ST.BAD_PARAM, 0) else none)
  else if c.typ = T.COMMAND then (if s.inbandFull c then some (ST.BUSY, 0) else none)
  else if e < 16 then (if !c.allowed || s.populated e < c.offset + c.bytes then some (ST.BAD_PARAM, 0) else none)
  else if e = 17 ∧ c.space = 0 then s.homeRefusal c
  else (s.regRefusal e c).map (·, 0)

/-- A duplicate: a READ is performed again, anything else is answered as R179 says. -/
def State.targetDup (s : State) (e plane : Nat) (c : Cell) (f : LineFault) : State :=
  if s.inProgress e plane c then s
  else if c.typ = T.READ then s.targetNew e plane c f
  else if c.typ = T.ATOMIC ∧ (c.fetch ∨ c.opmod = 3) then s.answerFrom e plane (s.recordAnswer e plane c)
  else s.answerFrom e plane (ackOf c)

/-- A cell that carries a SEQ passes its window. -/
def State.targetCell (s : State) (e plane : Nat) (c : Cell) (f : LineFault) : State :=
  let x := s.ep e
  let k := c.src * 16 + s.seqPlaneAt e plane
  let w := kget x.wins k
  if winNew w c.seq then
    match s.refusal e c with
    | some (st, after) =>
      let s := s.when w.isSome fun s => s.setEp e { x with wins := kset x.wins k (winTouch (w.getD {}) s.now) }
      (s.when (st == ST.BACKOFF) (·.finc (R.EP_STATS2.BACKOFF e) 1)).answerFrom e plane (nackOf c st false after)
    | none => (s.setEp e { x with wins := kset x.wins k (winAccept w c.seq s.now) }).targetNew e plane c f
  else
    let s := s.setEp e { x with wins := kset x.wins k (winTouch (w.getD {}) s.now) }
    (s.finc (R.EP_STATS.DUP e) 1).targetDup e plane c f

/-! ## Echoes (R525) -/

/-- Sends an echo if R186 lets it go now. -/
def State.echoSend (s : State) (e plane : Nat) (c : Cell) : Option State :=
  if c.cls = clsG then
    match s.paceG e plane c with
    | none => none
    | some i => some ((s.useResv e i).epSend e plane { c with cls := if i.isSome then clsG else clsBE })
  else some (s.epSend e plane c)

/-- A PATTERN cell that asks for it is returned; the others are discarded. -/
def State.echoCell (s : State) (e plane : Nat) (c : Cell) : State :=
  if !c.fetch then s
  else
    let a := { c with dst := c.src, src := s.epId e, fetch := false }
    match s.echoSend e plane a with
    | some t => t
    | none => s.setEp e { s.ep e with echoes := (s.ep e).echoes ++ [(plane, a)] }

/-- Echoes that wait for credit, oldest first, at a frame's beginning. -/
def State.echoTick (s : State) (e : Nat) : State :=
  let l := (s.ep e).echoes
  (s.setEp e { s.ep e with echoes := [] }).forEach l fun s a =>
    match s.echoSend e a.1 a.2 with
    | some t => t
    | none => s.setEp e { s.ep e with echoes := (s.ep e).echoes ++ [a] }

/-! ## Replies at the chiplet (R420) -/

/-- A COMMAND_REPLY piece joins its reply; a whole reply goes to the accelerator. -/
def State.replyCell (s : State) (c : Cell) : State :=
  let b := lineBytes c.payload
  let tag := field b 2 2
  let i := field b 4 2
  let n := field b 6 2
  if field b 0 1 ≠ 0x30 ∨ n ≤ i then s
  else
    let new : PartialCmd := { owner := c.src, tag := tag, total := n, last := s.now }
    let old := s.chip.replies.find? fun p => p.owner == c.src && p.tag == tag && p.total == n && (kget p.frags i).isNone
    let p := old.getD new
    let p := { p with frags := kset p.frags i (b.drop 8) }
    let rest : List PartialCmd := s.chip.replies.filter fun q => !(q.owner == c.src && q.tag == tag)
    if p.frags.length < n then { s with chip := { s.chip with replies := rest ++ [p] } }
    else
      let all := p.frags.flatMap (·.2)
      ({ s with chip := { s.chip with replies := rest } }).emit (.inbandReply (all.take (32 + field all 12 4)))

/-! ## Commands of the block -/

/-- A cell reaches an instance. -/
def State.targetReceive (s : State) (e plane : Nat) (c : Cell) (f : LineFault) : State :=
  if c.dst ≠ s.epId e ∨ s.targetDown e then s
  else if c.typ = T.READ ∨ c.typ = T.WRITE ∨ c.typ = T.ATOMIC ∨ c.typ = T.INVALIDATE ∨ (c.typ = T.COMMAND ∧ e = 16) then
    s.targetCell e plane c f
  else if c.typ = T.PATTERN then s.echoCell e plane c
  else if c.typ = T.STATUS ∧ e = 17 then s.replyCell c
  else s

/-- Meaning of TARGET_RECEIVE. -/
def execTargetReceive (ep plane : Nat) (cell : Cell) (fault : LineFault) (s : State) : Res :=
  .next (if 18 ≤ ep then s else s.targetReceive ep (plane % 16) cell fault)

/-- Meaning of INBAND_COMMAND_PIECE: a COMMAND cell reaches 384 + s. -/
def execInbandCommandPiece (cell : Cell) (s : State) : Res :=
  .next (if cell.typ = T.COMMAND ∧ cell.dst = s.epId 16 ∧ !s.targetDown 16 then s.targetCell 16 0 cell .clean else s)

end Sys2Proof.Machine
end

