-- ==== Sys2Proof/Machine/Frame.lean ====
section
/-! DEFINITION. FRAME_TICK: what every frame boundary brings beside the steps that the opcode table lists as rows of
their own (R34, R36, R37, R56, R66, R72, R79, R81, R98, R102, R140, R143, R153, R186, R228, R333, R363, R428, R442,
R459, R465, R472 to R484, R490, R501, R517, R525, R555). -/

namespace Sys2Proof.Machine

/-- The sled's state and tables: a width that falls, the revised bank, a change of state that is due, DUP_PLANE, resets,
ports that move; then the route epoch, which counts them all (R140). -/
def State.planTick (s : State) : State :=
  let s := s.lossTick.activateRevised.stateTick.dupClear.resetTick.portsTick
  s.when s.sg.epochDue State.epochRise

/-- Cells: credits, ageing, link management, the Tollgate's transfers, the hubs. -/
def State.cellTick (s : State) : State := s.grantCredits.ageAll.mgmtTick.retireTick.tgTick.hubsTick

/-- An end-point's credits begin again; retransmissions go first, then what waited for a credit (R186). -/
def State.epTick (s : State) (e : Nat) : State :=
  (((s.setEp e { s.ep e with resvUsed := [] }).resendDue e).echoTick e).lackTick e |>.collPump e

/-- Each core that is in service begins the frame fixed before. -/
def State.coresTick (s : State) : State :=
  s.forEach ((List.range 256).filter fun c => !s.unitInReset U.CORE c && !s.unitInReset U.HUB (c / 16)) State.coreTick

/-- What observes the boundary: calendar time, evidence, snapshots, the manager's silence. -/
def State.watchTick (s : State) : State :=
  let s := s.timeTick.patternTick.captureTick.snapTick
  s.almMax 3 0 40 ((s.now - s.host.lastManager) / 1000000)

/-- A frame boundary of a sled that runs. -/
def State.frameTick (s : State) (p : PowerSample) : State :=
  let s := s.tbTick.planTick.sendMarkers
  let s := s.cellTick.vigilTick
  let s := (s.powerTick p).hostTick
  let s := s.forEach (List.range 18) State.epTick
  s.coresTick.watchTick

/-- Meaning of FRAME_TICK: no frame runs in OFF, STANDBY and BOOT; calendar time runs on in STANDBY (R32). -/
def execFrameTick (p : PowerSample) (s : State) : Res :=
  .next (if s.sled < SS.INIT then s.when (s.sled == SS.STANDBY) State.timeTick else s.frameTick p)

end Sys2Proof.Machine
end

