-- ==== Sys2Proof/Machine/Dispatch.lean ====
section
/-! DEFINITION. One arm per command: each is one call of that command's meaning. -/

namespace Sys2Proof.Machine

/-- The effect of a command on everything but the queue. -/
def exec (i : Instr) (s : State) : Host.Outcome State Fault Refusal :=
  match i with
  | .frameTick p => Sys2Proof.Machine.execFrameTick p s
  | .frameMarker port m => Sys2Proof.Machine.execFrameMarker port m s
  | .realignDone port => Sys2Proof.Machine.execRealignDone port s
  | .lockAchieved => Sys2Proof.Machine.execLockAchieved s
  | .lockLost => Sys2Proof.Machine.execLockLost s
  | .holdoverEntry => Sys2Proof.Machine.execHoldoverEntry s
  | .holdoverExpiry => Sys2Proof.Machine.execHoldoverExpiry s
  | .masterDeclare => Sys2Proof.Machine.execMasterDeclare s
  | .masterTakeover => Sys2Proof.Machine.execMasterTakeover s
  | .masterHandover plane => Sys2Proof.Machine.execMasterHandover plane s
  | .slipBarEnd => Sys2Proof.Machine.execSlipBarEnd s
  | .timetableLoad r => Sys2Proof.Machine.execTimetableLoad r s
  | .timetableSwap r => Sys2Proof.Machine.execTimetableSwap r s
  | .swapCheckDone bank => Sys2Proof.Machine.execSwapCheckDone bank s
  | .bankSwap bank => Sys2Proof.Machine.execBankSwap bank s
  | .bankCopyDone bank => Sys2Proof.Machine.execBankCopyDone bank s
  | .cellReceive port cell uncorr overflow => Sys2Proof.Machine.execCellReceive port cell uncorr overflow s
  | .cellIngress pos cell fclk => Sys2Proof.Machine.execCellIngress pos cell fclk s
  | .firstStageSend input fclk => Sys2Proof.Machine.execFirstStageSend input fclk s
  | .secondStageSend inter fclk => Sys2Proof.Machine.execSecondStageSend inter fclk s
  | .outputSend pos fclk => Sys2Proof.Machine.execOutputSend pos fclk s
  | .entryHandover hub fclk => Sys2Proof.Machine.execEntryHandover hub fclk s
  | .hubPerformed hub item fault => Sys2Proof.Machine.execHubPerformed hub item fault s
  | .combineEn v => Sys2Proof.Machine.execCombineEn v s
  | .ageDiscard => Sys2Proof.Machine.execAgeDiscard s
  | .ringLockTimeout port wl => Sys2Proof.Machine.execRingLockTimeout port wl s
  | .lightLoss port => Sys2Proof.Machine.execLightLoss port s
  | .trainingRetry port => Sys2Proof.Machine.execTrainingRetry port s
  | .codedStreamLoss port => Sys2Proof.Machine.execCodedStreamLoss port s
  | .trainingStart port info => Sys2Proof.Machine.execTrainingStart port info s
  | .trainingStepTimeout port step => Sys2Proof.Machine.execTrainingStepTimeout port step s
  | .enable port v => Sys2Proof.Machine.execEnable port v s
  | .fwOverride port v => Sys2Proof.Machine.execFwOverride port v s
  | .retrain port => Sys2Proof.Machine.execRetrain port s
  | .forceDown port v => Sys2Proof.Machine.execForceDown port v s
  | .forceMaint port v => Sys2Proof.Machine.execForceMaint port v s
  | .berIntervalEnd port errors uncorr => Sys2Proof.Machine.execBerIntervalEnd port errors uncorr s
  | .rxReport port errors => Sys2Proof.Machine.execRxReport port errors s
  | .retire port wl cause n => Sys2Proof.Machine.execRetire port wl cause n s
  | .retireAck port wl => Sys2Proof.Machine.execRetireAck port wl s
  | .wavelengthLost port wl => Sys2Proof.Machine.execWavelengthLost port wl s
  | .widthChange pos => Sys2Proof.Machine.execWidthChange pos s
  | .signpostLoad r => Sys2Proof.Machine.execSignpostLoad r s
  | .planLoad r => Sys2Proof.Machine.execPlanLoad r s
  | .planAccept r => Sys2Proof.Machine.execPlanAccept r s
  | .portSettleTimeout port => Sys2Proof.Machine.execPortSettleTimeout port s
  | .planStateChange => Sys2Proof.Machine.execPlanStateChange s
  | .substitutionRecompute => Sys2Proof.Machine.execSubstitutionRecompute s
  | .tollgateReceive cell => Sys2Proof.Machine.execTollgateReceive cell s
  | .batchClose batch => Sys2Proof.Machine.execBatchClose batch s
  | .singleRelease tid => Sys2Proof.Machine.execSingleRelease tid s
  | .uplinkDispatch uplink => Sys2Proof.Machine.execUplinkDispatch uplink s
  | .trainReceive uplink head rest => Sys2Proof.Machine.execTrainReceive uplink head rest s
  | .farComplete key => Sys2Proof.Machine.execFarComplete key s
  | .transferAgeDiscard key => Sys2Proof.Machine.execTransferAgeDiscard key s
  | .transferResend tid => Sys2Proof.Machine.execTransferResend tid s
  | .transferGiveUp tid => Sys2Proof.Machine.execTransferGiveUp tid s
  | .transferAnswer t => Sys2Proof.Machine.execTransferAnswer t s
  | .requestIssue ep r => Sys2Proof.Machine.execRequestIssue ep r s
  | .requestTransmit ep key => Sys2Proof.Machine.execRequestTransmit ep key s
  | .releaseSend ep req => Sys2Proof.Machine.execReleaseSend ep req s
  | .targetReceive ep plane cell fault => Sys2Proof.Machine.execTargetReceive ep plane cell fault s
  | .answerReceive ep plane cell => Sys2Proof.Machine.execAnswerReceive ep plane cell s
  | .retransmit ep key => Sys2Proof.Machine.execRetransmit ep key s
  | .requestLost ep key => Sys2Proof.Machine.execRequestLost ep key s
  | .replyRecordExpiry ep => Sys2Proof.Machine.execReplyRecordExpiry ep s
  | .seqWindowExpiry ep key => Sys2Proof.Machine.execSeqWindowExpiry ep key s
  | .startupQuietEnd ep => Sys2Proof.Machine.execStartupQuietEnd ep s
  | .demotionNotice ep plane cell => Sys2Proof.Machine.execDemotionNotice ep plane cell s
  | .demoteClr ep => Sys2Proof.Machine.execDemoteClr ep s
  | .volatileSet ep v => Sys2Proof.Machine.execVolatileSet ep v s
  | .msCountWrite ep ms v => Sys2Proof.Machine.execMsCountWrite ep ms v s
  | .milestoneSatisfied ep wait => Sys2Proof.Machine.execMilestoneSatisfied ep wait s
  | .waitDeadline ep => Sys2Proof.Machine.execWaitDeadline ep s
  | .fenceComplete ep fence => Sys2Proof.Machine.execFenceComplete ep fence s
  | .tokenWaitDone core engine => Sys2Proof.Machine.execTokenWaitDone core engine s
  | .groupLoad r => Sys2Proof.Machine.execGroupLoad r s
  | .instanceArm r => Sys2Proof.Machine.execInstanceArm r s
  | .joinReceive cell fclk => Sys2Proof.Machine.execJoinReceive cell fclk s
  | .contribReceive cell fclk => Sys2Proof.Machine.execContribReceive cell fclk s
  | .earlyArrivalExpiry => Sys2Proof.Machine.execEarlyArrivalExpiry s
  | .entrySpill slot chunk => Sys2Proof.Machine.execEntrySpill slot chunk s
  | .mapAckSend => Sys2Proof.Machine.execMapAckSend s
  | .resultHandoff slot chunk => Sys2Proof.Machine.execResultHandoff slot chunk s
  | .resultReceive ep cell => Sys2Proof.Machine.execResultReceive ep cell s
  | .bcastSend ep slot => Sys2Proof.Machine.execBcastSend ep slot s
  | .bcastReceive ep cell => Sys2Proof.Machine.execBcastReceive ep cell s
  | .bcastRecovery ep slot => Sys2Proof.Machine.execBcastRecovery ep slot s
  | .instanceEnd slot => Sys2Proof.Machine.execInstanceEnd slot s
  | .instanceDeadline slot => Sys2Proof.Machine.execInstanceDeadline slot s
  | .endNoticeRepeat slot => Sys2Proof.Machine.execEndNoticeRepeat slot s
  | .endNoticeReceive ep plane cell => Sys2Proof.Machine.execEndNoticeReceive ep plane cell s
  | .noticeMissing ep slot => Sys2Proof.Machine.execNoticeMissing ep slot s
  | .slotFree slot => Sys2Proof.Machine.execSlotFree slot s
  | .rdSrSeed seed => Sys2Proof.Machine.execRdSrSeed seed s
  | .laneMarginInterval hub rx tx => Sys2Proof.Machine.execLaneMarginInterval hub rx tx s
  | .laneLost hub lane => Sys2Proof.Machine.execLaneLost hub lane s
  | .memoryAccess hub r fault => Sys2Proof.Machine.execMemoryAccess hub r fault s
  | .refreshDue hub chan rank bank => Sys2Proof.Machine.execRefreshDue hub chan rank bank s
  | .patrolScrub hub fault => Sys2Proof.Machine.execPatrolScrub hub fault s
  | .tempRead hub temps => Sys2Proof.Machine.execTempRead hub temps s
  | .retireMoveStart hub => Sys2Proof.Machine.execRetireMoveStart hub s
  | .retireGo hub => Sys2Proof.Machine.execRetireGo hub s
  | .retireRowCopy hub => Sys2Proof.Machine.execRetireRowCopy hub s
  | .mirrorValidSet hub window => Sys2Proof.Machine.execMirrorValidSet hub window s
  | .mirrorResync hub window => Sys2Proof.Machine.execMirrorResync hub window s
  | .mirrorPageSend hub => Sys2Proof.Machine.execMirrorPageSend hub s
  | .mirrorSync hub ms windows => Sys2Proof.Machine.execMirrorSync hub ms windows s
  | .mirrorSyncComplete hub => Sys2Proof.Machine.execMirrorSyncComplete hub s
  | .quantumSchedule core => Sys2Proof.Machine.execQuantumSchedule core s
  | .quantumOverrun core => Sys2Proof.Machine.execQuantumOverrun core s
  | .addS core w => Sys2Proof.Machine.execAddS core w s
  | .subS core w => Sys2Proof.Machine.execSubS core w s
  | .mulS core w => Sys2Proof.Machine.execMulS core w s
  | .mulhu core w => Sys2Proof.Machine.execMulhu core w s
  | .andS core w => Sys2Proof.Machine.execAndS core w s
  | .orS core w => Sys2Proof.Machine.execOrS core w s
  | .xorS core w => Sys2Proof.Machine.execXorS core w s
  | .shl core w => Sys2Proof.Machine.execShl core w s
  | .shr core w => Sys2Proof.Machine.execShr core w s
  | .sra core w => Sys2Proof.Machine.execSra core w s
  | .minS core w => Sys2Proof.Machine.execMinS core w s
  | .maxS core w => Sys2Proof.Machine.execMaxS core w s
  | .minu core w => Sys2Proof.Machine.execMinu core w s
  | .maxu core w => Sys2Proof.Machine.execMaxu core w s
  | .divu core w => Sys2Proof.Machine.execDivu core w s
  | .remu core w => Sys2Proof.Machine.execRemu core w s
  | .seq core w => Sys2Proof.Machine.execSeq core w s
  | .slt core w => Sys2Proof.Machine.execSlt core w s
  | .sltu core w => Sys2Proof.Machine.execSltu core w s
  | .li core w => Sys2Proof.Machine.execLi core w s
  | .lih core w => Sys2Proof.Machine.execLih core w s
  | .beq core w => Sys2Proof.Machine.execBeq core w s
  | .bne core w => Sys2Proof.Machine.execBne core w s
  | .blt core w => Sys2Proof.Machine.execBlt core w s
  | .bge core w => Sys2Proof.Machine.execBge core w s
  | .bltu core w => Sys2Proof.Machine.execBltu core w s
  | .bgeu core w => Sys2Proof.Machine.execBgeu core w s
  | .jal core w => Sys2Proof.Machine.execJal core w s
  | .jr core w => Sys2Proof.Machine.execJr core w s
  | .sld core w => Sys2Proof.Machine.execSld core w s
  | .sst core w => Sys2Proof.Machine.execSst core w s
  | .slda core w => Sys2Proof.Machine.execSlda core w s
  | .sstr core w => Sys2Proof.Machine.execSstr core w s
  | .rdsys core w => Sys2Proof.Machine.execRdsys core w s
  | .rdstat core w => Sys2Proof.Machine.execRdstat core w s
  | .ld core w => Sys2Proof.Machine.execLd core w s
  | .ldv core w => Sys2Proof.Machine.execLdv core w s
  | .lda core w => Sys2Proof.Machine.execLda core w s
  | .st core w => Sys2Proof.Machine.execSt core w s
  | .str core w => Sys2Proof.Machine.execStr core w s
  | .atm core w => Sys2Proof.Machine.execAtm core w s
  | .atma core w => Sys2Proof.Machine.execAtma core w s
  | .atmr core w => Sys2Proof.Machine.execAtmr core w s
  | .inval core w => Sys2Proof.Machine.execInval core w s
  | .coll core w => Sys2Proof.Machine.execColl core w s
  | .collx core w => Sys2Proof.Machine.execCollx core w s
  | .dmain core w => Sys2Proof.Machine.execDmain core w s
  | .dmainv core w => Sys2Proof.Machine.execDmainv core w s
  | .dmaout core w => Sys2Proof.Machine.execDmaout core w s
  | .dmaadd core w => Sys2Proof.Machine.execDmaadd core w s
  | .dmacp core w => Sys2Proof.Machine.execDmacp core w s
  | .dmaTransferComplete core xfer => Sys2Proof.Machine.execDmaTransferComplete core xfer s
  | .vld core w => Sys2Proof.Machine.execVld core w s
  | .vldb core w => Sys2Proof.Machine.execVldb core w s
  | .vst core w => Sys2Proof.Machine.execVst core w s
  | .vadd core w => Sys2Proof.Machine.execVadd core w s
  | .vsub core w => Sys2Proof.Machine.execVsub core w s
  | .vmul core w => Sys2Proof.Machine.execVmul core w s
  | .vfma core w => Sys2Proof.Machine.execVfma core w s
  | .vmin core w => Sys2Proof.Machine.execVmin core w s
  | .vmax core w => Sys2Proof.Machine.execVmax core w s
  | .vsel core w => Sys2Proof.Machine.execVsel core w s
  | .vrcp core w => Sys2Proof.Machine.execVrcp core w s
  | .vrsq core w => Sys2Proof.Machine.execVrsq core w s
  | .vexp2 core w => Sys2Proof.Machine.execVexp2 core w s
  | .vrsum core w => Sys2Proof.Machine.execVrsum core w s
  | .vrmax core w => Sys2Proof.Machine.execVrmax core w s
  | .vcvt core w => Sys2Proof.Machine.execVcvt core w s
  | .vsplat core w => Sys2Proof.Machine.execVsplat core w s
  | .mma core w => Sys2Proof.Machine.execMma core w s
  | .mzero core w => Sys2Proof.Machine.execMzero core w s
  | .mout core w => Sys2Proof.Machine.execMout core w s
  | .mload core w => Sys2Proof.Machine.execMload core w s
  | .xli core engine w => Sys2Proof.Machine.execXli core engine w s
  | .xadd core engine w => Sys2Proof.Machine.execXadd core engine w s
  | .xbnz core engine w => Sys2Proof.Machine.execXbnz core engine w s
  | .xloop core engine w => Sys2Proof.Machine.execXloop core engine w s
  | .xjmp core engine w => Sys2Proof.Machine.execXjmp core engine w s
  | .xstat core engine w => Sys2Proof.Machine.execXstat core engine w s
  | .xlih core engine w => Sys2Proof.Machine.execXlih core engine w s
  | .fence core engine w => Sys2Proof.Machine.execFence core engine w s
  | .tsig core engine w => Sys2Proof.Machine.execTsig core engine w s
  | .twait core engine w => Sys2Proof.Machine.execTwait core engine w s
  | .mswait core engine w => Sys2Proof.Machine.execMswait core engine w s
  | .msadd core engine w => Sys2Proof.Machine.execMsadd core engine w s
  | .step core engine w => Sys2Proof.Machine.execStep core engine w s
  | .endE core engine w => Sys2Proof.Machine.execEndE core engine w s
  | .nop core engine w => Sys2Proof.Machine.execNop core engine w s
  | .contextCreate r => Sys2Proof.Machine.execContextCreate r s
  | .contextScrub r => Sys2Proof.Machine.execContextScrub r s
  | .scrubDrainDone ctx => Sys2Proof.Machine.execScrubDrainDone ctx s
  | .kernelLoad r => Sys2Proof.Machine.execKernelLoad r s
  | .kernelStart r => Sys2Proof.Machine.execKernelStart r s
  | .kernelStop r => Sys2Proof.Machine.execKernelStop r s
  | .unloadDone ctx core => Sys2Proof.Machine.execUnloadDone ctx core s
  | .kernelEnd ctx core => Sys2Proof.Machine.execKernelEnd ctx core s
  | .ringRequest core ctx => Sys2Proof.Machine.execRingRequest core ctx s
  | .optimizerBatch core ctx => Sys2Proof.Machine.execOptimizerBatch core ctx s
  | .ethernetFrame f => Sys2Proof.Machine.execEthernetFrame f s
  | .lldpSend => Sys2Proof.Machine.execLldpSend s
  | .commandPacket port addr udp bytes => Sys2Proof.Machine.execCommandPacket port addr udp bytes s
  | .partialCommandExpiry => Sys2Proof.Machine.execPartialCommandExpiry s
  | .commandComplete owner tag => Sys2Proof.Machine.execCommandComplete owner tag s
  | .identify r => Sys2Proof.Machine.execIdentify r s
  | .regRead r => Sys2Proof.Machine.execRegRead r s
  | .regWrite r => Sys2Proof.Machine.execRegWrite r s
  | .memRead r => Sys2Proof.Machine.execMemRead r s
  | .memWrite r => Sys2Proof.Machine.execMemWrite r s
  | .resultRead r => Sys2Proof.Machine.execResultRead r s
  | .tagRetire r => Sys2Proof.Machine.execTagRetire r s
  | .inbandCommandPiece cell => Sys2Proof.Machine.execInbandCommandPiece cell s
  | .inbandPieceExpiry => Sys2Proof.Machine.execInbandPieceExpiry s
  | .rdmaWrite p => Sys2Proof.Machine.execRdmaWrite p s
  | .rdmaRead p => Sys2Proof.Machine.execRdmaRead p s
  | .rdmaUnsupported p => Sys2Proof.Machine.execRdmaUnsupported p s
  | .qpStateWrite qp v => Sys2Proof.Machine.execQpStateWrite qp v s
  | .ptpMessage m => Sys2Proof.Machine.execPtpMessage m s
  | .timeSet v => Sys2Proof.Machine.execTimeSet v s
  | .allowListWrite entry word v => Sys2Proof.Machine.execAllowListWrite entry word v s
  | .powerOn volts => Sys2Proof.Machine.execPowerOn volts s
  | .strapChange st => Sys2Proof.Machine.execStrapChange st s
  | .bootEntry st chk => Sys2Proof.Machine.execBootEntry st chk s
  | .initEnd => Sys2Proof.Machine.execInitEnd s
  | .maint => Sys2Proof.Machine.execMaint s
  | .resume => Sys2Proof.Machine.execResume s
  | .drainEnd => Sys2Proof.Machine.execDrainEnd s
  | .thermalTrip => Sys2Proof.Machine.execThermalTrip s
  | .bootHold v => Sys2Proof.Machine.execBootHold v s
  | .bootFailClear => Sys2Proof.Machine.execBootFailClear s
  | .resetPartial r => Sys2Proof.Machine.execResetPartial r s
  | .controlReset => Sys2Proof.Machine.execControlReset s
  | .resetDone unit index => Sys2Proof.Machine.execResetDone unit index s
  | .fwStage r => Sys2Proof.Machine.execFwStage r s
  | .fwActivate r => Sys2Proof.Machine.execFwActivate r s
  | .liveConfirm => Sys2Proof.Machine.execLiveConfirm s
  | .liveTimeout => Sys2Proof.Machine.execLiveTimeout s
  | .fullTrialTimeout => Sys2Proof.Machine.execFullTrialTimeout s
  | .eccUncorrectable unit index => Sys2Proof.Machine.execEccUncorrectable unit index s
  | .tableEccError addr => Sys2Proof.Machine.execTableEccError addr s
  | .heartbeatSend port => Sys2Proof.Machine.execHeartbeatSend port s
  | .changeHeartbeat => Sys2Proof.Machine.execChangeHeartbeat s
  | .heartbeatReceive port cell => Sys2Proof.Machine.execHeartbeatReceive port cell s
  | .vigilWindowEnd subject => Sys2Proof.Machine.execVigilWindowEnd subject s
  | .vigilConfirm r => Sys2Proof.Machine.execVigilConfirm r s
  | .goneDepart plane => Sys2Proof.Machine.execGoneDepart plane s
  | .goneClear id => Sys2Proof.Machine.execGoneClear id s
  | .inputLoss => Sys2Proof.Machine.execInputLoss s
  | .inputLossInstanceEnd => Sys2Proof.Machine.execInputLossInstanceEnd s
  | .inputLossRailsOff => Sys2Proof.Machine.execInputLossRailsOff s
  | .presentNRise => Sys2Proof.Machine.execPresentNRise s
  | .coolantSample flow inlet outlet => Sys2Proof.Machine.execCoolantSample flow inlet outlet s
  | .dieTempSample t => Sys2Proof.Machine.execDieTempSample t s
  | .emergencyEnd => Sys2Proof.Machine.execEmergencyEnd s
  | .ladderFall => Sys2Proof.Machine.execLadderFall s
  | .boostExhaust => Sys2Proof.Machine.execBoostExhaust s
  | .boostRestore => Sys2Proof.Machine.execBoostRestore s
  | .powerPolicy r => Sys2Proof.Machine.execPowerPolicy r s
  | .laserWearUpdate temps => Sys2Proof.Machine.execLaserWearUpdate temps s
  | .throttlePeriod => Sys2Proof.Machine.execThrottlePeriod s
  | .attest r => Sys2Proof.Machine.execAttest r s
  | .attGo => Sys2Proof.Machine.execAttGo s
  | .rngHealthFail => Sys2Proof.Machine.execRngHealthFail s
  | .tableHashUpdate table => Sys2Proof.Machine.execTableHashUpdate table s
  | .debugSessionStart source => Sys2Proof.Machine.execDebugSessionStart source s
  | .debugSessionEnd => Sys2Proof.Machine.execDebugSessionEnd s
  | .pageEdge => Sys2Proof.Machine.execPageEdge s
  | .pageWrite ok => Sys2Proof.Machine.execPageWrite ok s
  | .almanacWindow r => Sys2Proof.Machine.execAlmanacWindow r s
  | .snapshotExpiry => Sys2Proof.Machine.execSnapshotExpiry s
  | .tmSnapGo => Sys2Proof.Machine.execTmSnapGo s
  | .tmShadowCopy => Sys2Proof.Machine.execTmShadowCopy s
  | .linkTest r => Sys2Proof.Machine.execLinkTest r s
  | .linkTestStart owner tag => Sys2Proof.Machine.execLinkTestStart owner tag s
  | .checkerLock port wl locked errors bits => Sys2Proof.Machine.execCheckerLock port wl locked errors bits s
  | .linkTestEnd owner tag bits => Sys2Proof.Machine.execLinkTestEnd owner tag bits s
  | .patternPlace gen fclk free => Sys2Proof.Machine.execPatternPlace gen fclk free s
  | .patternCheck cell fclk => Sys2Proof.Machine.execPatternCheck cell fclk s
  | .pchkEnable chk v => Sys2Proof.Machine.execPchkEnable chk v s
  | .wiringVerify r => Sys2Proof.Machine.execWiringVerify r s
  | .wiringVerifyStart owner tag => Sys2Proof.Machine.execWiringVerifyStart owner tag s
  | .beaconReceive port b => Sys2Proof.Machine.execBeaconReceive port b s
  | .beaconTimeout port => Sys2Proof.Machine.execBeaconTimeout port s
  | .connectorInspect r => Sys2Proof.Machine.execConnectorInspect r s
  | .connectorInspectStart owner tag rl il => Sys2Proof.Machine.execConnectorInspectStart owner tag rl il s
  | .ucieModuleTrain m ok => Sys2Proof.Machine.execUcieModuleTrain m ok s
  | .request r rsv => Sys2Proof.Machine.execRequest r rsv s
  | .syncFence rq tag ctx scope keep rsv => Sys2Proof.Machine.execSyncFence rq tag ctx scope keep rsv s
  | .syncWait rq tag ctx scope keep ms target deadline rsv => Sys2Proof.Machine.execSyncWait rq tag ctx scope keep ms target deadline rsv s
  | .syncAdd rq tag ctx scope ms count rsv => Sys2Proof.Machine.execSyncAdd rq tag ctx scope ms count rsv s
  | .collMember rq tag ctx ms g block rsv => Sys2Proof.Machine.execCollMember rq tag ctx ms g block rsv s
  | .collRootArm rq tag ctx ms g block rsv => Sys2Proof.Machine.execCollRootArm rq tag ctx ms g block rsv s
  | .collAbort rq tag ctx ms g block rsv => Sys2Proof.Machine.execCollAbort rq tag ctx ms g block rsv s
  | .inbandMessage plane ctx stream => Sys2Proof.Machine.execInbandMessage plane ctx stream s
  | .homeData line data uncorr => Sys2Proof.Machine.execHomeData line data uncorr s
  | .homeDone line => Sys2Proof.Machine.execHomeDone line s
  | .homeTimeout line => Sys2Proof.Machine.execHomeTimeout line s
  | .lineStoreAdmit line => Sys2Proof.Machine.execLineStoreAdmit line s
  | .portsEn v => Sys2Proof.Machine.execPortsEn v s
  | .sbLock v => Sys2Proof.Machine.execSbLock v s
  | .chipletReset => Sys2Proof.Machine.execChipletReset s
  | .chTestGo kind => Sys2Proof.Machine.execChTestGo kind s
  | .chipletThermalTrip junction optical => Sys2Proof.Machine.execChipletThermalTrip junction optical s
  | .bmTransaction write addr v => Sys2Proof.Machine.execBmTransaction write addr v s
  | .registerWrite via addr v => Sys2Proof.Machine.execRegisterWrite via addr v s
  | .rngOkReturn => Sys2Proof.Machine.execRngOkReturn s
  | .chipletThermalRelease junction optical => Sys2Proof.Machine.execChipletThermalRelease junction optical s
  | .hostPortLinkChange port up module kind => Sys2Proof.Machine.execHostPortLinkChange port up module kind s
  | .wiringVerifyEnd owner tag => Sys2Proof.Machine.execWiringVerifyEnd owner tag s
  | .attEvidenceReady => Sys2Proof.Machine.execAttEvidenceReady s

end Sys2Proof.Machine
end

