-- ==== Sys2Proof/Safety.lean ====
section
/-! DEFINITION. What claims are stated in: sound states, and what a step sets and what it leaves. -/

namespace Sys2Proof

open Sys2Proof.Machine

/-- A sound state: hub memory and the register file are in their canonical form. -/
def Sound (s : State) : Prop := Memory.wf s.mem = true ∧ s.regsWf = true

/-- A safe run of a step: it answers a next state, and that state is sound. -/
def SafeStep (s : State) : Prop := ∃ t, step s = .next t ∧ Sound t

/-- Two fields share no bit. -/
def Apart (f g : Fld) : Prop := g.addr ≠ f.addr ∨ g.hi < f.lo ∨ f.hi < g.lo

/-- In t each listed field holds its value, and every field apart from them holds what it held in s. -/
def Sets (s t : State) (l : List (Fld × Nat)) : Prop :=
  (∀ e ∈ l, t.fget e.1 = e.2) ∧ ∀ g : Fld, (∀ e ∈ l, Apart e.1 g) → t.fget g = s.fget g

/-- A command answers a next state, and P holds of it. -/
def Answers (i : Instr) (s : State) (P : State → Prop) : Prop := ∃ t, exec i s = .next t ∧ P t

/-- A command's tag is free, or this very command holds it and is not done (R406). -/
def Fresh (s : State) (r : CmdReq) : Prop := ∀ x, s.findTag r.owner r.tag = some x → x.done = false

/-- The tag of an owner holds a final status, progress and result (R409). -/
def TagDone (t : State) (owner tag status progress : Nat) (result : List Byte) : Prop :=
  ∃ x, t.findTag owner tag = some x ∧ x.done = true ∧ x.status = status ∧ x.progress = progress ∧ x.result = result

/-- The packets of a host's reply left the block, to the address and UDP port the command came from (R403, R404). -/
def PacketsOut (t : State) (r : CmdReq) (status progress : Nat) (result : List Byte) (rep : Bool) : Prop :=
  ∃ p, ∀ b ∈ replyPackets r status progress result rep, Out.packet { r.route with port := p } b ∈ t.out

/-- A first reply of the command left the block (R404, R409). -/
def Replied (t : State) (r : CmdReq) (status progress : Nat) (result : List Byte) : Prop :=
  r.owner < 64 → PacketsOut t r status progress result false

/-- The command completed at once: its reply left the block and its tag holds the same result (R405, R409). -/
def Done (t : State) (r : CmdReq) (status progress : Nat) (result : List Byte) : Prop :=
  TagDone t r.owner r.tag status progress result ∧ Replied t r status progress result

/-- The command waits: its tag is live and not done, names frame n (0 for none), and ST_PENDING was sent (R405, R411). -/
def Pends (s t : State) (r : CmdReq) (n : Nat) : Prop :=
  (∃ x, t.findTag r.owner r.tag = some x ∧ x.done = false ∧ x.n = n) ∧ Replied t r ST.PENDING (n - s.now) []

/-- A tag that waited at s, if it did, is done at t with a status, a progress and a result (R408). -/
def Completed (s t : State) (owner tag status progress : Nat) (result : List Byte) : Prop :=
  (∃ x, s.findTag owner tag = some x ∧ x.done = false) → TagDone t owner tag status progress result

/-- A link management message of this state's port waits for a slot of it at t, or has left it (R98). -/
def MgmtGoes (s t : State) (p kind wl cause n : Nat) (errors : List Nat) : Prop :=
  s.mgmtCell p kind wl cause n errors ∈ (t.port p).sendQ ∨ ∃ k, Out.cell p k (s.mgmtCell p kind wl cause n errors) ∈ t.out

/-- Each of these cells waits for a slot of port p, or has left it. -/
def CellsGo (t : State) (p : Nat) (cs : List Cell) : Prop :=
  ∀ c ∈ cs, c ∈ (t.port p).sendQ ∨ ∃ k, Out.cell p k c ∈ t.out

/-- The cells presented at core input 128 + s among the outputs that t has beyond s, oldest first. -/
def Machine.State.presented (s t : State) : List Cell :=
  (t.out.take (t.out.length - s.out.length)).reverse.filterMap fun
    | .inject p c => if p = s.ownPos then some c else none
    | _ => none

/-- The switch of s, with what was presented at core input 128 + s waiting behind what waited there (R17). -/
def Machine.State.fed (s t : State) : Switch := { s.sw with feed := s.sw.feed ++ s.presented t }

/-- The instance of a slot ended with a status (R239, R261, R262): CLOSING, its entries gone, and an end notice sent and kept
for every member and for the root. -/
def EndedWith (s t : State) (slot st : Nat) (i : Inst) : Prop :=
  t.slotState slot = 2 ∧ t.fget (R.RD_INST0.STATUS slot) = st % 65536 ∧ (∀ e ∈ t.rd.entries, e.slot ≠ slot) ∧
    (∀ dst ∈ addNew (s.members i.group) (s.rootHere i),
      (∃ n ∈ t.rd.notices, n.slot = slot ∧ n.dst = dst ∧ n.first = s.now ∧ field (lineBytes n.payload) 2 2 = st % 65536 ∧
        field (lineBytes n.payload) 4 4 = i.iseq % 2 ^ 32) ∧
      ∃ c, Out.inject s.ownPos c ∈ t.out ∧ c.typ = T.STATUS ∧ c.cls = 2 ∧ c.dst = dst) ∧ t.mem = s.mem

/-- Engine e of core c executes the word w, whose opcode is op: its context runs in this frame, nothing holds the engine, the
word is the one at its PC and legal (R227, R325, R337, R338, R340, R341, R343, R383). -/
def Runs (s : State) (c e op : Nat) (w : W64) : Prop :=
  s.mayIssue { c := c, e := e, op := op, w := w, access := true } = true ∧ s.ahead c e = false ∧
    (s.core c).run.pendingRegs = [] ∧ (s.eng c e).pc < s.fget (R.CO_PART.CODE_LEN c (s.core c).run.ctx) ∧
    s.fetched c e = w ∧ classOk e op = true ∧ wordOk e w = true ∧ opOf w = op

/-- Core c changed its running set to r with engine e at pc, and its scratch to m; nothing else of the core but its count
of the sectors asked for (R322), and no other core, changed. -/
def WentOn (s t : State) (c e pc : Nat) (r : RegSet) (m : Memory) : Prop :=
  t.core c = { s.core c with
    run := onEngine e (fun g => { g with pc := pc }) r, scratch := m, asked := (t.core c).asked } ∧
    (∀ k, k ≠ c → t.core k = s.core k)

/-- A branch to a PC inside the code range, with everything but the running set unchanged. -/
def Branched (s t : State) (c e pc : Nat) (r : RegSet) : Prop :=
  WentOn s t c e pc r (s.core c).scratch ∧ (t.core c).asked = (s.core c).asked ∧ t = { s with cores := t.cores }

/-- As Branched, to the next word. -/
def Computed (s t : State) (c e : Nat) (r : RegSet) : Prop := Branched s t c e ((s.eng c e).pc + 1) r

/-- As Computed, after a read of the n bytes of scratch at an offset, whose sectors the engine asked for (R322). -/
def Fetched (s t : State) (c e : Nat) (r : RegSet) (off n : Nat) : Prop :=
  WentOn s t c e ((s.eng c e).pc + 1) r (s.core c).scratch ∧
    (t.core c).asked = (s.core c).asked + ((off + n + 31) / 32 - off / 32) ∧ t = { s with cores := t.cores }

/-- Engine e of core c took a fault (R366, R367): its context's engines stop, its kernel is FAULTED, and CO_FAULT records the
cause, the context, the engine and the word unless it holds a fault already. -/
def TookFault (s t : State) (c e cause : Nat) : Prop :=
  (∀ g ∈ (t.core c).run.engines, g.stopped = true) ∧
    t.fget (R.CO_KSTATE.STATE c (s.core c).run.ctx) = KS.FAULTED ∧ t.mem = s.mem ∧
    (s.fbit (R.CO_FAULT.VALID c) = false → t.fget (R.CO_FAULT.VALID c) = 1 ∧ t.fget (R.CO_FAULT.CAUSE c) = cause ∧
      t.fget (R.CO_FAULT.CONTEXT c) = (s.core c).run.ctx ∧ t.fget (R.CO_FAULT.ENGINE c) = e) ∧
    (s.fbit (R.CO_FAULT.VALID c) = true → t.reg (R.CO_FAULT.addr c) = s.reg (R.CO_FAULT.addr c))

/-- Core c wrote bytes to its scratch from offset a on, and no other byte of scratch changed. -/
def Stored (s t : State) (c a : Nat) (b : List Byte) : Prop :=
  Memory.read (t.core c).scratch a b.length = b ∧
    ∀ x, (x < a ∨ a + b.length ≤ x) → Memory.get (t.core c).scratch x = Memory.get (s.core c).scratch x

/-- The scalar engine of core c went on and entered one cell of a type at its hub, which is quiet: the cell waits; a returned
value is owed to s[d]; an acquire or a release holds the engine (R176, R206, R208, R210, R343). -/
def Requested (s t : State) (c typ wait : Nat) (ret : Bool) (d : Nat) : Prop :=
  (t.eng c 2).pc = (s.eng c 2).pc + 1 ∧ (t.eng c 2).wait = wait ∧
    (t.core c).run.pendingRegs = (if ret = true ∧ d ≠ 0 then [d] else []) ∧ (t.core c).run.s = (s.core c).run.s ∧
    (∃ o, (t.ep (c / 16)).ort = (s.ep (c / 16)).ort ++ [o] ∧ o.sent = none ∧ o.cell.typ = typ ∧
      o.cell.ctx = (s.core c).run.ctx ∧ o.cell.src = s.epId (c / 16)) ∧ t.mem = s.mem ∧ t.regs = s.regs

/-- Context ctx reads and writes n bytes at a request address of hub h, which lie at hub offset o, within one line that is
neither poisoned nor held. -/
def OwnBytes (s : State) (h ctx va n o : Nat) : Prop :=
  (s.lookup h ctx va).any (fun x => x.read && x.write && decide (va + n ≤ x.limit) &&
    x.ga == (s.rack * 4096 + s.epId h) * 2 ^ 44 + o) = true ∧
  o % n = 0 ∧ o % 64 + n ≤ 64 ∧ o + n ≤ s.populated h ∧ o < 2 ^ 44 ∧ s.poisoned h o = false ∧ s.heldAt h o = false

/-- Hub h's memory holds these bytes at an offset. -/
def HubHolds (t : State) (h o : Nat) (b : List Byte) : Prop := t.hubRead h o b.length = b

/-- Bytes are released to a request address of hub h: they stand at offset o, or their release waits for earlier requests. -/
def Released (t : State) (h va o : Nat) (b : List Byte) : Prop :=
  HubHolds t h o b ∨ ∃ q ∈ (t.ep h).reqs, q.isRelease = true ∧ q.r.addr = va ∧ q.r.data = b

/-- The sled became frame master between s and t (R39, R44): LOCKED, following itself directly, its frame number kept. -/
def BecameMaster (s t : State) : Prop :=
  Sets s t [(R.TB_STATUS.LOCK, LK.LOCKED), (R.TB_STATUS.MASTER, 1), (R.TB_STATUS.MASTER_PLANE, s.plane),
    (R.TB_STATUS.RELAYED, 0)] ∧
  t = { s with
    regs := t.regs
    tb := { s.tb with okRun := 0, badRun := 0, silent := 0, holdFor := 0, adopt := none, stepDue := false } }

/-- A register that a write changes by its access codes alone and whose fields lie apart (R7, R10): the pages of the
timebase, the signpost, the Tollgate (but for TG_CTL) and the cores, the mirror windows' ranges, pacing rows and
translation entries, the host ports' addresses and memory regions, and the Almanac's event rows. -/
def PlainReg (a : Nat) : Prop :=
  a % 8 = 0 ∧ a ≠ R.TG_CTL.addr ∧
    (a / 2 ^ 24 = 4 ∨ a / 2 ^ 24 = 5 ∨ a / 2 ^ 24 = 6 ∨ a / 2 ^ 24 = 8 ∨
      (a / 2 ^ 24 = 7 ∧ 0x2000 ≤ a % 0x100000 ∧ a % 0x100000 < 0x2400 ∧ a % 64 ≠ 0) ∨
      (a / 2 ^ 24 = 9 ∧ 0x1000 ≤ a % 0x80000 ∧ a % 0x80000 < 0x40000) ∨
      (a / 2 ^ 24 = 10 ∧ (0x100 ≤ a % 2 ^ 24 ∧ a % 2 ^ 24 < 0x1000 ∨ 0x8000 ≤ a % 2 ^ 24)) ∨
      (a / 2 ^ 24 = 13 ∧ 0x300000 ≤ a % 2 ^ 24 ∧ a % 2 ^ 24 < 0x301000)) ∧
    (regFields a).Pairwise (fun f g => f.hi < g.lo ∨ g.hi < f.lo) ∧ ∀ f ∈ regFields a, f.lo ≤ f.hi ∧ f.hi < 64

/-- The write of v to register a did to each of its fields what its access code says, and to no other register anything
(R10). -/
def Written (s t : State) (a : Nat) (v : W64) : Prop :=
  (∀ f ∈ regFields a, t.fget ⟨a, f.hi, f.lo⟩ = match f.acc with
    | .rw => bitsOf v.toNat f.hi f.lo
    | .w1c => s.fget ⟨a, f.hi, f.lo⟩ - (s.fget ⟨a, f.hi, f.lo⟩ &&& bitsOf v.toNat f.hi f.lo)
    | _ => s.fget ⟨a, f.hi, f.lo⟩) ∧ ∀ b, b ≠ a → t.reg b = s.reg b

/-- A memory command or RDMA operation is under way in t, with its range. -/
def UnderWay (t : State) (owner tag qp psn : Nat) (write : Bool) (addr size : Nat) (bytes : List Byte) : Prop :=
  ∃ m ∈ t.host.memCmds, m.owner = owner ∧ m.tag = tag ∧ m.qp = qp ∧ m.psn = psn ∧ m.write = write ∧ m.addr = addr ∧
    m.size = size ∧ m.bytes = bytes

/-- Instance e entered a JOIN (kind 0), a DONE (1) or an ABORT (2) for every plane of the descriptor; each waits (R245). -/
def JoinsSent (s t : State) (e kind ctx slot iseq group : Nat) (desc : List Byte) : Prop :=
  ∃ os, (t.ep e).ort = (s.ep e).ort ++ os ∧ os.map (·.cell.chunk) = (descOf desc).planes ∧ ∀ o ∈ os, o.sent = none ∧
    o.cell.typ = T.JOIN ∧ o.cell.src = s.epId e ∧ o.cell.ctx = ctx ∧ o.cell.slot = slot ∧
    o.cell.payload = lineOf (leBytes (descHash desc) 8 ++ leBytes iseq 4 ++ leBytes group 2 ++ leBytes kind 1)

/-- A member request's block passes every check of instance e (R364): zero fields, descriptor, region, milestone. -/
def MemberOk (s : State) (e ctx : Nat) (ms : Option Nat) (b : List Byte) : Prop :=
  blockZero b = true ∧ (descOf (bytesAt b 8 14)).ok = true ∧ ((descOf (bytesAt b 8 14)).bcast = false → field b 40 6 = 0) ∧
    (∀ v ∈ s.transEntries e, s.badEntry e v = false) ∧ (∀ k ∈ ms, s.fget (R.MS_INFO.OWNER e k) = ctx) ∧
    ∃ x, s.lookup e ctx (field b 24 8) = some x ∧ x.ga / 2 ^ 44 = s.epRack e * 4096 + s.epId e ∧
      field b 24 8 + (descOf (bytesAt b 8 14)).regionSize (descOf (bytesAt b 8 14)).inT (descOf (bytesAt b 8 14)).n ≤ x.limit ∧
      (if (descOf (bytesAt b 8 14)).bcast then x.write else x.read) = true

/-- Instance e holds the member request that a block asks for and nothing else, and its JOINs wait (R245, R364). -/
def MemberHeld (s t : State) (e ctx : Nat) (ms : Option Nat) (b : List Byte) : Prop :=
  (∃ m, (t.ep e).members = [m] ∧ m.slot = field b 0 2 ∧ m.group = field b 2 2 ∧ m.iseq = field b 4 4 ∧
    m.desc = bytesAt b 8 14 ∧ m.deadline = field b 32 8 ∧ m.ctx = ctx ∧ m.ms = ms ∧ m.aborted = false) ∧
  JoinsSent s t e 0 ctx (field b 0 2) (field b 4 4) (field b 2 2) (bytesAt b 8 14)

end Sys2Proof
end

