-- ==== Sys2Proof/Certificates/Slice0/Obligations.lean ====
section
/-! DEFINITION. The statements for the provers. A clause reads: under these hypotheses on the state and the operands the command
answers a next state, and this holds of it; what the last equation does not name is unchanged. -/

open Sys2Proof Sys2Proof.Machine

/-- R39: the four timed moves among ACQUIRE, LOCKED, HOLDOVER and FREE, each with all that it changes. R45, R46, R47: a sled
becomes frame master, or gives mastership to a lower-numbered sled, and keeps its frame number; R48: the bar of a slip ends. -/
def Obligations.TimebaseMoves : Prop :=
  (∀ s : State, s.regsWf = true →
      (s.lock = LK.ACQUIRE → 64 ≤ s.tb.okRun →
        Answers .lockAchieved s fun t => Sets s t [(R.TB_STATUS.LOCK, LK.LOCKED)] ∧
          t = { s with regs := t.regs, tb := { s.tb with lockedFor := 0, badRun := 0, silent := 0 } }) ∧
      (s.lock = LK.LOCKED → s.isMaster = false → 4 ≤ s.tb.badRun →
        Answers .lockLost s fun t => Sets s t [(R.TB_STATUS.LOCK, LK.ACQUIRE)] ∧
          t = { s with regs := t.regs, tb := { s.tb with okRun := 0, badRun := 0 } }) ∧
      (s.lock = LK.LOCKED → s.isMaster = false → 4 ≤ s.tb.silent →
        Answers .holdoverEntry s fun t => Sets s t [(R.TB_STATUS.LOCK, LK.HOLDOVER)] ∧
          t = { s with regs := t.regs, tb := { s.tb with holdFor := 0 }, al := t.al }) ∧
      (s.lock = LK.HOLDOVER → s.isMaster = false → 64 ≤ s.tb.holdFor →
        Answers .holdoverExpiry s fun t => Sets s t [(R.TB_STATUS.LOCK, LK.FREE)] ∧
          t = { s with regs := t.regs, tb := { s.tb with holdFor := 0 } })) ∧
  (∀ s : State, s.regsWf = true →
      (s.present = true → SS.DISCOVERY ≤ s.sled → s.lock = LK.FREE → 64 ≤ s.tb.discFor → s.hearsLower 64 = false →
        s.chooseFollow = none → Answers .masterDeclare s (BecameMaster s)) ∧
      (s.present = true → s.lock = LK.HOLDOVER → 16 ≤ s.tb.holdFor → s.hearsLower 4 = false →
        Answers .masterTakeover s (BecameMaster s)) ∧
      (s.now % 4096 = 0 → s.isMaster = false → s.lock = LK.LOCKED → 4096 ≤ s.tb.lockedFor →
        s.plane < s.fget R.TB_STATUS.MASTER_PLANE → Answers (.masterHandover s.plane) s (BecameMaster s)) ∧
      (∀ q m, s.now % 4096 = 0 → q ≠ s.plane → s.markerOf q = some m → 4096 ≤ m.lockedFor →
        q < s.fget R.TB_STATUS.MASTER_PLANE → Answers (.masterHandover q) s fun t =>
          Sets s t [(R.TB_STATUS.MASTER_PLANE, q), (R.TB_STATUS.FOLLOW_PLANE, q), (R.TB_STATUS.RELAYED, 0),
            (R.TB_STATUS.MASTER, 0)] ∧ t = { s with regs := t.regs }) ∧
      (s.tb.slipUntil ≤ s.now → Answers .slipBarEnd s fun t =>
        t.slipBarred = false ∧ t = { s with tb := { s.tb with slipUntil := 0 } }))

/-- R37, R38, R83: a marker that is not damaged, on a trained port, is recorded with the fields it carries, and its ARRIVAL
extends to the value nearest the link's previous one; from the sled that is followed, where the offset and the delay come
out even, OFFSET and DELAY take half the difference and half the sum of the two arrival times. R79: a port whose alignment
completes carries cells again, with its delay measured anew. R34: in a state that runs frames, the tick gives the number
that was to be adopted, or else the next number, modulo 2^64, and no command that waits moves. -/
def Obligations.MarkersAndTicks : Prop :=
  ((∀ (s : State) (port : Nat) (m : Marker), s.trained port = true → m.damaged = false →
      s.fget (R.OP_PORT_STATUS.FAR_PROTO port) ≠ 4 →
      Answers (.frameMarker port m) s fun t => (∃ k, kget t.tb.markers port = some k ∧ k.frame = m.frame ∧ k.lock = m.lock ∧
          k.masterPlane = m.masterPlane ∧ k.relayed = m.relayed ∧ k.age = 0 ∧ k.arrival = m.t1) ∧
        (∀ q, q ≠ port → kget t.tb.markers q = kget s.tb.markers q) ∧ t.tb.frame = s.tb.frame ∧ t.mem = s.mem ∧
        ((t.port port).arrivalExt - m.arrival) % 512 = 0 ∧
        ((t.port port).arrivalExt - (s.port port).arrivalExt).natAbs ≤ 256) ∧
    (∀ (s u : State) (port : Nat) (m : Marker) (t2 : Int), s.regsWf = true → s.trained port = true → m.damaged = false →
      s.fget (R.OP_PORT_STATUS.FAR_PROTO port) ≠ 4 → 128 ≤ port → port < 144 →
      u = ((s.noteArrival port m).noteMarker port m).follow → t2 = (u.port port).arrivalExt → u.isMaster = false →
      (u.chooseFollow.any fun q => q.1 == port - 128) = true → u.lock ≠ LK.FREE →
      (m.t1 - t2) % 2 = 0 → (m.t1 + t2) % 2 = 0 →
      Answers (.frameMarker port m) s fun t => t.fget R.TB_STATUS.OFFSET = unsigned ((m.t1 - t2) / 2) 16 ∧
        t.fget R.TB_STATUS.DELAY = unsigned ((m.t1 + t2) / 2) 16) ∧
    (∀ (s : State) (port far : Nat) (t1 : Int), s.regsWf = true → krising s.tb.realign = true → krising s.ports = true →
      port < 176 → kget s.tb.realign port ≠ none → (t1 + far) % 2 = 0 →
      Answers (.realignDone ⟨port, t1, far⟩) s fun t =>
        kget t.tb.realign port = none ∧ (∀ q, q ≠ port → kget t.tb.realign q = kget s.tb.realign q) ∧
        (t.port port).arrivalExt = far ∧
        Sets s t [(R.OP_DELAY.ONE_WAY port, unsigned ((t1 + far) / 2) 16)] ∧
        t = { s with tb := { s.tb with realign := t.tb.realign }, ports := t.ports, regs := t.regs, free := t.free })) ∧
  (∀ (s : State) (p : PowerSample), SS.INIT ≤ s.sled → Answers (.frameTick p) s fun t =>
      (s.tb.adopt = none → t.tb.frame = s.tb.frame + 1) ∧ (∀ n, s.tb.adopt = some n → t.tb.frame = BitVec.ofNat 64 n) ∧
        t.pending = s.pending)

/-- R9, R414: a table load that is admitted writes the inactive bank and nothing else but its own reply. A load of one record
without CLEAR stores the defined bits of the record's words at the record's index; CLEAR without records leaves no valid
entry. R60: the four steps of a timetable, signpost or group swap: the request is held for its frame, the check arms it, at
its frame the banks exchange roles and the command completes, and when the copy has ended the inactive bank holds what the
active bank holds and is BUILDING. -/
def Obligations.TablesChange : Prop :=
  (∀ (s : State) (r : CmdReq), s.regsWf = true → Fresh s r →
      (s.bankBusy 0 = false → loadOk 0 r.payload = true → Answers (.timetableLoad r) s fun t =>
        Done t r ST.OK 0 [] ∧ t = { s with regs := t.regs, host := t.host, out := t.out, sw := s.fed t } ∧
        (∀ a, (a < bankBase 0 (s.inactiveBank 0) ∨ bankBase 0 (s.inactiveBank 0) + bankSize 0 ≤ a) → t.reg a = s.reg a) ∧
        (∀ rc, recsOf 0 r.payload = [rc] → bitAt (field r.payload 4 1) 0 = false → field rc 2 1 = 0 →
          t.reg (R.CELL0.addr (s.inactiveBank 0) (field rc 0 2)) =
            BitVec.ofNat 64 (definedBits (R.CELL0.addr (s.inactiveBank 0) (field rc 0 2)) (field rc 8 8)) ∧
          t.reg (R.CELL0.addr (s.inactiveBank 0) (field rc 0 2) + 8) =
            BitVec.ofNat 64 (definedBits (R.CELL0.addr (s.inactiveBank 0) (field rc 0 2) + 8) (field rc 16 8)) ∧
          ∀ a, a ≠ R.CELL0.addr (s.inactiveBank 0) (field rc 0 2) →
            a ≠ R.CELL0.addr (s.inactiveBank 0) (field rc 0 2) + 8 → t.reg a = s.reg a) ∧
        (recsOf 0 r.payload = [] → bitAt (field r.payload 4 1) 0 = true →
          t.cellEntries (s.inactiveBank 0) = [] ∧ t.coreEntries (s.inactiveBank 0) = [])) ∧
      (s.bankBusy 1 = false → r.commit = false → loadOk 1 r.payload = true → Answers (.signpostLoad r) s fun t =>
        Done t r ST.OK 0 [] ∧ t = { s with regs := t.regs, host := t.host, out := t.out, sw := s.fed t } ∧
        (∀ rc, recsOf 1 r.payload = [rc] → bitAt (field r.payload 4 1) 0 = false → field rc 2 1 = 1 →
          t.reg (R.FAR_WINDOW.addr (s.inactiveBank 1) (field rc 0 2)) =
            BitVec.ofNat 64 (definedBits (R.FAR_WINDOW.addr (s.inactiveBank 1) (field rc 0 2)) (field rc 8 8)) ∧
          ∀ a, a ≠ R.FAR_WINDOW.addr (s.inactiveBank 1) (field rc 0 2) → t.reg a = s.reg a)) ∧
      (s.bankBusy 2 = false → r.commit = false → loadOk 2 r.payload = true → Answers (.groupLoad r) s fun t =>
        Done t r ST.OK 0 [] ∧ t = { s with regs := t.regs, host := t.host, out := t.out, sw := s.fed t } ∧
        (∀ rc, recsOf 2 r.payload = [rc] → bitAt (field r.payload 4 1) 0 = false →
          (∀ k, k < 6 → t.reg (R.GROUP0.addr (s.inactiveBank 2) (field rc 0 2) + 8 * (k + 1)) =
            BitVec.ofNat 64 (field rc (8 + 8 * (k + 1)) 8)) ∧
          bitsOf (t.reg (R.GROUP0.addr (s.inactiveBank 2) (field rc 0 2))).toNat 18 11 =
            ((List.range 6).map fun k => popCount (field rc (8 + 8 * (k + 1)) 8) 64).sum % 256))) ∧
  ((∀ (s : State) (r : CmdReq), Fresh s r → s.drainRefusal true = none → s.bankBusy 0 = false → s.now + 16 ≤ r.arg →
      Answers (.timetableSwap r) s fun t => Pends s t r r.arg ∧
        t.tt.swap.checking = some { n := r.arg, owner := r.owner, tag := r.tag, got := s.now } ∧
        t = { s with tt := { s.tt with swap := { s.tt.swap with checking := t.tt.swap.checking } }
                     host := t.host, out := t.out, sw := s.fed t }) ∧
    (∀ (s : State) (bank : Nat) (q : SwapReq), s.regsWf = true → bank < 3 → (s.swapSt bank).checking = some q →
      s.checkBank bank q.n = none → Answers (.swapCheckDone bank) s fun t =>
        t.bankState bank = 1 ∧ t.swapSt bank = { s.swapSt bank with checking := none, armed := some q } ∧
        t.activeBank bank = s.activeBank bank ∧
        (bank = 0 → t.fget R.TB_SWAP_FRAME.FRAME = q.n % 2 ^ 64) ∧
        t = { s with regs := t.regs, tt := t.tt, sg := t.sg, rd := t.rd }) ∧
    (∀ (s : State) (bank : Nat) (q : SwapReq) (st pr : Nat), bank < 3 → (s.swapSt bank).checking = some q →
      s.checkBank bank q.n = some (st, pr) → Answers (.swapCheckDone bank) s fun t =>
        t.swapSt bank = { s.swapSt bank with checking := none } ∧ Completed s t q.owner q.tag st pr [] ∧ t.regs = s.regs) ∧
    (∀ (s : State) (bank : Nat) (q : SwapReq), s.regsWf = true → bank < 3 → (s.swapSt bank).armed = some q → q.n ≤ s.now →
      (bank = 2 → s.busySlots.any (fun n => s.groupDiffers (s.fget (R.RD_INST0.GROUP n))) = false) →
      Answers (.bankSwap bank) s fun t => t.activeBank bank = 1 - s.activeBank bank ∧ t.bankState bank = 2 ∧
        (t.swapSt bank).armed = none ∧ (t.swapSt bank).copyUntil = s.now + 4 ∧ Completed s t q.owner q.tag ST.OK 0 [] ∧
        (bank = 0 → t.tt.credits = (t.cellEntries (1 - s.activeBank 0)).map fun e => (e.idx, e.cells)) ∧ t.mem = s.mem) ∧
    (∀ (s : State) (bank : Nat), s.regsWf = true → bank < 3 → s.bankState bank = 2 → (s.swapSt bank).copyUntil < s.now →
      Answers (.bankCopyDone bank) s fun t => t.bankState bank = 0 ∧ t.activeBank bank = s.activeBank bank ∧
        (∀ o, o < bankSize bank →
          (∀ v, kget s.regs (bankBase bank (s.activeBank bank) + o) = some v →
            t.reg (bankBase bank (s.inactiveBank bank) + o) = v) ∧
          (kget s.regs (bankBase bank (s.activeBank bank) + o) = none →
            t.reg (bankBase bank (s.inactiveBank bank) + o) =
              regReset s.boot.latched (bankBase bank (s.inactiveBank bank) + o))) ∧ t.mem = s.mem))

/-- R88: on a trained port a cell that lies in an uncorrectable codeword, or is malformed, is discarded and counted, and nothing
else changes but the Almanac; a well-formed cell for the core or the end-point block passes on from an UP port. R79: while
the port repeats its alignment it takes no cell. R55, R57, R58, R112: a cell of the memory layout that passes the checks of
step 2 joins its input's pool three FCLK later: a best-effort cell the best-effort pool; a guaranteed cell its own pool,
using one credit of the entry that admits it, where admission is open; and as a best-effort cell of age 0 where it is not.
R17: core input 128 + s takes control cells first, the control processor's before the Tollgate's, then guaranteed cells with
a reserved slot, then the others from the two end-points in turn, and it takes no other cell than the next. -/
def Obligations.CellsEnter : Prop :=
  (∀ (s : State) (p : Nat) (c : Cell), s.regsWf = true → s.trained p = true →
      (∀ u o, s.steady p = false → Answers (.cellReceive p c u o) s fun t => t = s) ∧
      (∀ o, s.steady p = true → s.fget (R.OP_PORT_STATS.DISCARD_FEC p) + 1 <
          2 ^ ((R.OP_PORT_STATS.DISCARD_FEC p).hi + 1 - (R.OP_PORT_STATS.DISCARD_FEC p).lo) →
        Answers (.cellReceive p c true o) s fun t =>
          Sets s t [(R.OP_PORT_STATS.DISCARD_FEC p, s.fget (R.OP_PORT_STATS.DISCARD_FEC p) + 1)] ∧
          t = { s with regs := t.regs, al := t.al }) ∧
      (∀ o, s.steady p = true → c.malformed = true → s.fget (R.OP_PORT_STATS.DISCARD_FORMAT p) + 1 <
          2 ^ ((R.OP_PORT_STATS.DISCARD_FORMAT p).hi + 1 - (R.OP_PORT_STATS.DISCARD_FORMAT p).lo) →
        Answers (.cellReceive p c false o) s fun t =>
          Sets s t [(R.OP_PORT_STATS.DISCARD_FORMAT p, s.fget (R.OP_PORT_STATS.DISCARD_FORMAT p) + 1)] ∧
          t = { s with regs := t.regs, al := t.al }) ∧
      (c.malformed = false → c.typ ≠ T.IDLE → c.typ ≠ T.HEARTBEAT → ¬(c.typ = T.STATUS ∧ c.dst = 1023) →
        s.portState p = PS.UP → s.steady p = true → Answers (.cellReceive p c false false) s fun t =>
          t = { s with out := .inject (nextStop p) c :: s.out })) ∧
  ((∀ (s : State) (x p k : Nat) (c : Cell), x < 160 → c.typ ≠ T.IDLE → c.collective = false →
      s.boundFor x c = .out p → s.unrouted c = false → s.srcOk x c = true → s.partOk c = true → s.gone c.dst = false →
      s.posUp p = true → s.canEnter x k = true → s.takes x c = true →
      (c.cls = clsBE → (kgetD s.sw.inBe x []).length < 512 → Answers (.cellIngress x c k) s fun t =>
        kgetD t.sw.inBe x [] = kgetD s.sw.inBe x [] ++ [{ cell := c, outPos := p, at_ := s.now * 1600 + k + 3 }] ∧
        t = { s with regs := t.regs, al := t.al
                     sw := { (s.takeFeed x c).sw with inBe := t.sw.inBe, usedIn := t.sw.usedIn } }) ∧
      (∀ e, c.cls = clsG → s.admitsG = true → s.relayed x (.out p) = false →
        ((s.cellEntries (s.activeBank 0)).find? fun e => s.matchEntry x c (.out p) e && decide (0 < kgetD s.tt.credits e.idx 0))
          = some e →
        (kgetD s.sw.inG x []).length < 384 → Answers (.cellIngress x c k) s fun t =>
          kgetD t.tt.credits e.idx 0 = kgetD s.tt.credits e.idx 0 - 1 ∧
          kgetD t.sw.inG x [] = kgetD s.sw.inG x [] ++ [{ cell := c, outPos := p, at_ := s.now * 1600 + k + 3 }] ∧
          t = { s with regs := t.regs, al := t.al, tt := { s.tt with credits := t.tt.credits }
                       sw := { (s.takeFeed x c).sw with inG := t.sw.inG, usedIn := t.sw.usedIn } }) ∧
      (c.cls = clsG → s.admitsG = false → (kgetD s.sw.inBe x []).length < 512 → Answers (.cellIngress x c k) s fun t =>
        kgetD t.sw.inBe x [] = kgetD s.sw.inBe x [] ++
          [{ cell := { c with cls := clsBE, age := 0 }, outPos := p, at_ := s.now * 1600 + k + 3 }] ∧
        t = { s with regs := t.regs, al := t.al, free := t.free
                     sw := { (s.takeFeed x c).sw with inBe := t.sw.inBe, usedIn := t.sw.usedIn } })) ∧
    (∀ (s : State) (c : Cell), s.feedNext = some c → c ∈ s.sw.feed ∧ aged c = false ∧
      ∀ d ∈ s.sw.feed, aged d = false →
        (c.cls ≠ clsCtl → d.cls ≠ clsCtl) ∧
        (s.fromTg c = true → c.cls = clsCtl → d.cls = clsCtl → s.fromTg d = true) ∧
        (c.cls ≠ clsCtl → s.reserved c = false → s.reserved d = false ∧ (s.fromTg c = s.sw.feedTg → s.fromTg d = s.sw.feedTg))) ∧
    (∀ (s : State) (c : Cell) (k : Nat), s.feedNext ≠ some c → Answers (.cellIngress s.ownPos c k) s fun t => t = s))

/-- R105, R111, R114, R118, R125: a guaranteed unicast cell moves from the head of its input's pool to the intermediate the slot
connects, from there to the output the slot connects, and from the output's queue to its port or to its hub. -/
def Obligations.CellsCrossTheCore : Prop :=
  (∀ (s : State) (x k : Nat) (q : Queued) (l : List Queued), x < 160 → k < 1600 → kgetD s.sw.inCtl x [] = [] →
    kgetD s.sw.inG x [] = q :: l → q.steer = none → (∀ y ∈ l, y.steer = none) → q.cell.typ ≠ T.BCAST → q.cell.cls = clsG →
    q.at_ < s.now * 1600 + k → s.midRoom ((x + k) % 160) q = true → s.posUp q.outPos = true →
    Answers (.firstStageSend x k) s fun t => kgetD t.sw.inG x [] = l ∧
      kgetD t.sw.midG ((x + k) % 160) [] = kgetD s.sw.midG ((x + k) % 160) [] ++
        [{ cell := q.cell, outPos := q.outPos, at_ := s.now * 1600 + k + 2 }] ∧
      t = { s with sw := { s.sw with inG := t.sw.inG, midG := t.sw.midG } }) ∧
  (∀ (s : State) (m k : Nat) (c : MidCell) (l : List MidCell), m < 160 → k < 1600 → (m + k) % 160 < 144 →
    kgetD s.sw.midG m [] = c :: l → kgetD s.sw.mcG m [] = [] → c.outPos = (m + k) % 160 → c.at_ ≤ s.now * 1600 + k →
    c.cell.cls = clsG → (kgetD s.sw.outG c.outPos []).length < 128 →
    Answers (.secondStageSend m k) s fun t => kgetD t.sw.midG m [] = l ∧
      kgetD t.sw.outG c.outPos [] = kgetD s.sw.outG c.outPos [] ++
        [{ id := s.sw.nextItem, cells := [c.cell], at_ := s.now * 1600 + k + 2 }] ∧
      t = { s with regs := t.regs, al := t.al
                   sw := { s.sw with midG := t.sw.midG, outG := t.sw.outG, nextItem := s.sw.nextItem + 1 } }) ∧
  (∀ (s : State) (p k : Nat) (i : OutItem) (c : Cell) (l : List OutItem), p < 144 → k < 1600 → s.carries p = true →
    s.steady p = true → s.sent p k = false → slotOpen (s.mapWidth p) k = true → kgetD s.sw.answers p [] = [] → kgetD s.sw.outG p [] = i :: l → i.cells = [c] →
    c.cls = clsG → (∀ j ∈ l, j.id ≠ i.id) → (∀ j ∈ kgetD s.sw.outBe p [], j.id ≠ i.id) →
    Answers (.outputSend p k) s fun t => kgetD t.sw.outG p [] = l ∧ kgetD t.sw.outBe p [] = kgetD s.sw.outBe p [] ∧
      t.out = .cell p k c :: s.out ∧ t.sent p k = true ∧
      t = { s with regs := t.regs, al := t.al, out := t.out
                   sw := { s.sw with outG := t.sw.outG, outBe := t.sw.outBe, usedOut := t.sw.usedOut } }) ∧
  (∀ (s : State) (h k : Nat) (i : OutItem) (c : Cell) (l : List OutItem), h < 16 → k < 1600 → s.carries (144 + h) = true →
    s.sent (144 + h) k = false → slotOpen (s.mapWidth (144 + h)) k = true → kgetD s.sw.answers (144 + h) [] = [] →
    kgetD s.sw.outG (144 + h) [] = i :: l → i.cells = [c] → i.entry = false → c.cls = clsG →
    (c.typ = T.READ ∨ c.typ = T.WRITE ∨ c.typ = T.ATOMIC) → s.mayLeave h i = true → (∀ j ∈ l, j.id ≠ i.id) →
    Answers (.entryHandover h k) s fun t => kgetD t.sw.outG (144 + h) [] = l ∧ t.out = .cell (144 + h) k c :: s.out ∧
      kgetD t.sw.handed h [] = kgetD s.sw.handed h [] ++ [i] ∧ t.mem = s.mem)

/-- R122, R126: when the hub reports a write entry performed, each original gets one ACK, every duplicate one too, the line
holds the merged bytes, no byte outside the line changes where no mirror window is in use, and the line is free again; a
single item only frees its line. R127, R128: COMBINE_EN takes its value and clearing it closes every open entry at every hub
output; ageing discards every best-effort and control cell whose age has reached 64, wherever in the core it waits, and
leaves guaranteed cells in the inputs. -/
def Obligations.CombiningAndAgeing : Prop :=
  ((∀ (s : State) (h n : Nat) (i : OutItem) (f : LineFault), (kgetD s.sw.handed h []).find? (·.id == n) = some i →
      i.entry = false → Answers (.hubPerformed h n f) s fun t =>
        (∀ j ∈ kgetD t.sw.handed h [], j.id ≠ n) ∧ t = { s with sw := { s.sw with handed := t.sw.handed } }) ∧
    (∀ (s : State) (h n : Nat) (i : OutItem) (c : Cell) (l : List Cell), Memory.wf s.mem = true →
      (kgetD s.sw.handed h []).find? (·.id == n) = some i → i.entry = true → i.cells = c :: l → (∀ d ∈ i.cells, d.typ = T.WRITE) →
      s.heldAt h c.offset = false → c.offset / 64 * 64 + 64 ≤ s.populated h → (∀ w, w < 16 → s.winLive h w = false) → Answers (.hubPerformed h n .clean) s fun t =>
        (∀ j ∈ kgetD t.sw.handed h [], j.id ≠ n) ∧
        (∀ d ∈ i.cells ++ i.dups, Out.inject (144 + h) (ackOf d) ∈ t.out) ∧
        t.hubLine h c.offset = (if (mergedOf i.cells).mask = 2 ^ 64 - 1 then (mergedOf i.cells).data
          else mergeLine (s.hubLine h c.offset) (mergedOf i.cells).data (mergedOf i.cells).mask) ∧
        ∀ a, (a < hubAddr h (c.offset / 64 * 64) ∨ hubAddr h (c.offset / 64 * 64) + 64 ≤ a) →
          Memory.get t.mem a = Memory.get s.mem a)) ∧
  ((∀ (s : State) (v : Bool), s.regsWf = true → Answers (.combineEn v) s fun t =>
      Sets s t [(R.SW_CTL.COMBINE_EN, if v then 1 else 0)] ∧
      (v = false → ∀ h, h < 16 → ∀ i ∈ t.outItems (144 + h), i.isOpen = false) ∧
      (v = true → t.sw = s.sw) ∧ t = { s with regs := t.regs, sw := t.sw }) ∧
    (∀ s : State, Answers .ageDiscard s fun t =>
      (∀ e ∈ t.sw.inBe ++ t.sw.inCtl, ∀ q ∈ e.2, aged q.cell = false) ∧
      (∀ e ∈ t.sw.midG ++ t.sw.midBe, ∀ q ∈ e.2, aged q.cell = false) ∧
      (∀ e ∈ t.sw.mcG ++ t.sw.mcBe, ∀ q ∈ e.2, aged q.cell = false) ∧
      (∀ e ∈ t.sw.outG ++ t.sw.outBe, ∀ i ∈ e.2, ∀ c ∈ i.cells, aged c = false) ∧
      t.sw.inG = s.sw.inG ∧ t = { s with regs := t.regs, al := t.al, free := t.free, sw := t.sw }))

/-- R92, R554: loss of light, and loss of the coded stream, take a port that is not DOWN to DOWN with no working wavelength;
loss of light schedules the next try after 1 ms and sets the LIGHT mark of an accelerator port, loss of the coded stream
sets no mark. R91, R92, R93, R97, R149, R555: the fields of OP_PORT_CTL and what writing each does to the port; an uplink
that the plan leaves unused keeps ENABLE at 0. -/
def Obligations.PortsAreControlled : Prop :=
  (∀ (s : State) (p : Nat), s.regsWf = true →
      (s.isPort p = true → s.portState p ≠ PS.DOWN → Answers (.lightLoss p) s fun t => t.portState p = PS.DOWN ∧
        t.fget (R.OP_PORT_STATUS.WIDTH p) = 0 ∧ t.fget (R.OP_PORT_STATUS.WL_WORKING p) = 0 ∧
        (t.port p).retryAt = some (s.now + 1000) ∧
        (p < 128 → bitAt (t.fget (R.VG_GONE_LIGHT.MAP (p / 64))) (p % 64) = true) ∧ t.mem = s.mem) ∧
      (s.trained p = true → Answers (.codedStreamLoss p) s fun t => t.portState p = PS.DOWN ∧
        t.fget (R.OP_PORT_STATUS.WIDTH p) = 0 ∧ t.fget (R.OP_PORT_STATUS.WL_WORKING p) = 0 ∧
        (∀ k, k < 2 → t.reg (R.VG_GONE_LIGHT.MAP k).addr = s.reg (R.VG_GONE_LIGHT.MAP k).addr) ∧ t.mem = s.mem)) ∧
  (∀ (s : State) (p : Nat), s.regsWf = true → s.isPort p = true →
      ((p < 144 ∨ 160 ≤ p ∨ s.planned p = true) → Answers (.enable p true) s fun t =>
        Sets s t [(R.OP_PORT_CTL.ENABLE p, 1)] ∧ t = { s with regs := t.regs }) ∧
      (144 ≤ p → p < 160 → s.planned p = false → Answers (.enable p true) s fun t =>
        t.fget (R.OP_PORT_CTL.ENABLE p) = 0 ∧ t.portState p = PS.DOWN ∧ t.mem = s.mem) ∧
      (Answers (.enable p false) s fun t => t.fget (R.OP_PORT_CTL.ENABLE p) = 0 ∧ t.portState p = PS.DOWN ∧
        (t.port p).failed = 0 ∧ (t.port p).retryAt = none ∧ t.mem = s.mem) ∧
      (∀ v : Bool, Answers (.fwOverride p v) s fun t =>
        Sets s t [(R.OP_PORT_CTL.FW_OVERRIDE p, if v then 1 else 0)] ∧ t = { s with regs := t.regs }) ∧
      (s.lit p = true → Answers (.retrain p) s fun t => t.portState p = PS.TRAINING ∧ Out.light p 0xFF 0 ∈ t.out ∧
        (t.port p).far = none ∧ t.mem = s.mem) ∧
      (Answers (.forceDown p true) s fun t => t.fget (R.OP_PORT_CTL.FORCE_DOWN p) = 1 ∧ t.portState p = PS.DOWN) ∧
      (Answers (.forceDown p false) s fun t => Sets s t [(R.OP_PORT_CTL.FORCE_DOWN p, 0)] ∧
        t = { s with regs := t.regs, pat := t.pat }) ∧
      (∀ v : Bool, Answers (.forceMaint p v) s fun t =>
        Sets s t [(R.OP_PORT_CTL.FORCE_MAINT p, if v then 1 else 0)] ∧ (t.port p).dueMaint = (v && s.trained p) ∧
        (v = false → s.fbit (R.OP_PORT_CTL.FORCE_MAINT p) = true → (t.port p).duePlace = true) ∧
        t = { s with regs := t.regs, ports := t.ports }))

/-- R75, R92, R93, R97: training begins on a lit DOWN port whose wait is over; a step that exceeds its limit ends it with
FAIL_STEP and the wait of R92; a ring that cannot lock leaves its wavelength out; a retry sends light again; a far end of
another firmware major, whose identity came in three copies, without an override, is held in MAINTENANCE with VERSION_HOLD. -/
def Obligations.TrainingSteps : Prop :=
  ∀ (s : State) (p : Nat), s.regsWf = true →
    (s.lit p = true → s.portState p = PS.DOWN → (s.port p).retryAt = none → Answers (.trainingStart p none) s fun t =>
      t.portState p = PS.TRAINING ∧ t.fget (R.OP_PORT_STATUS.WL_RETIRED p) = 0 ∧ t.out = .light p 0xFF 0 :: s.out ∧
      (t.port p).noLock = 0 ∧ (t.port p).linkFrame = 0 ∧ t = { s with regs := t.regs, ports := t.ports, out := t.out }) ∧
    (∀ (i : TrainInfo), s.isPort p = true → p < 144 → s.portState p = PS.TRAINING → i.far.proto = 5 → 3 ≤ i.copies →
      widthOf ((bitList (i.wlOwn &&& i.far.wlGood &&& 0xFF) 8).filter fun k => !bitAt (s.port p).noLock k).length ≠ 0 →
      i.far.fwMajor ≠ s.ownMajor p → (s.port p).fwOver = false → i.far.fwOverride = false →
      Answers (.trainingStart p (some i)) s fun t => t.portState p = PS.MAINTENANCE ∧
        t.fget (R.OP_PORT_STATUS.VERSION_HOLD p) = 1 ∧ t.fget (R.OP_PORT_STATUS.PROTO_HOLD p) = 0 ∧
        t.fget (R.OP_PORT_STATUS.WIDTH p) = widthOf ((bitList (i.wlOwn &&& i.far.wlGood &&& 0xFF) 8).filter fun k =>
          !bitAt (s.port p).noLock k).length ∧
        (t.port p).far = some i.far ∧ (t.port p).linkFrame = i.frames ∧ (t.port p).arrivalExt = i.far.arrivalFull ∧
        t.out = .identity p (s.ownIdentity p i.wlOwn) :: s.out ∧
        t = { s with regs := t.regs, ports := t.ports, out := t.out, free := t.free }) ∧
    (∀ k, s.isPort p = true → s.portState p = PS.TRAINING → 1 ≤ k → k ≤ 5 → Answers (.trainingStepTimeout p k) s fun t =>
      t.portState p = PS.DOWN ∧ t.fget (R.OP_PORT_STATUS.FAIL_STEP p) = k ∧ (t.port p).failed = (s.port p).failed + 1 ∧
      (t.port p).retryAt = some (s.now + if 8 ≤ (s.port p).failed + 1 then 60000000 else 1000) ∧ t.mem = s.mem) ∧
    (∀ k, s.lit p = true → s.portState p = PS.DOWN → (s.port p).retryAt = some k → k ≤ s.now →
      Answers (.trainingRetry p) s fun t => (t.port p).retryAt = none ∧ t.out = .light p 0xFF 0 :: s.out ∧
        t = { s with ports := t.ports, out := t.out }) ∧
    (∀ k, s.isPort p = true → s.portState p = PS.TRAINING → k < 8 → Answers (.ringLockTimeout p k) s fun t =>
      bitAt (t.port p).noLock k = true ∧ (∀ q, q ≠ p → t.port q = s.port q) ∧ t = { s with ports := t.ports })

/-- R98, R101: at an interval's end each working wavelength's errors are shown, its run above 1e-4 goes on or ends, and an end
that does not decide reports what it received; a report is kept, and its errors below the limit clear FAR_OVER. R68, R99,
R102, R103: RETIRE is answered and its change held for its frame; RETIRE_ACK ends the repeats; the loss of a wavelength
names the frame four after the next one, and takes nothing out of the working set in its own frame; at its frame a change
takes its wavelength out. -/
def Obligations.WavelengthsAreWatched : Prop :=
  (∀ (s : State) (p : Nat), s.regsWf = true → s.trained p = true → s.decides p = false →
      (∀ es us : List Nat, s.now % 1000000 = 0 → Answers (.berIntervalEnd p es us) s fun t =>
        (∀ k, k < 8 → bitAt (s.fget (R.OP_PORT_STATUS.WL_WORKING p)) k = true →
          t.fget (R.OP_WL_BER.ERRORS_LAST p k) = min (es.getD k 0) 0xFFFFFFFF ∧
          t.fget (R.OP_WL_BER.UNCORR_LAST p k) = min (us.getD k 0) 0xFFFF ∧
          t.fget (R.OP_WL_BER.OVER_RUN p k) =
            if berLimit ≤ es.getD k 0 ∨ us.getD k 0 ≠ 0 then min 3 (s.fget (R.OP_WL_BER.OVER_RUN p k) + 1) else 0) ∧
        MgmtGoes s t p 1 0 0 (s.now - 1000000) es ∧
        t = { s with regs := t.regs, ports := t.ports, al := t.al, free := t.free, out := t.out
                     sw := { s.sw with usedOut := t.sw.usedOut } }) ∧
      (∀ es : List Nat, (∀ k, es.getD k 0 < berLimit) → Answers (.rxReport p es) s fun t => (t.port p).farErrors = es ∧
        (∀ k, k < 8 → bitAt (s.fget (R.OP_PORT_STATUS.WL_WORKING p)) k = true → t.fget (R.OP_WL_BER.FAR_OVER p k) = 0) ∧
        t = { s with regs := t.regs, ports := t.ports })) ∧
  (∀ (s : State) (p k : Nat), s.regsWf = true →
      (∀ cause n, s.trained p = true → k < 8 →
        bitAt (s.fget (R.OP_PORT_STATUS.WL_WORKING p)) k = true →
        (∀ c ∈ s.tt.changes, ¬(c.pos = chgPos p ∧ c.wl = k)) → Answers (.retire p k cause n) s fun t =>
          (∃ c ∈ t.tt.changes, c.pos = chgPos p ∧ c.wl = k ∧ c.n = n) ∧ MgmtGoes s t p 3 k cause n [] ∧ t.mem = s.mem) ∧
      (Answers (.retireAck p k) s fun t =>
        (∀ c ∈ t.tt.changes, c.pos = chgPos p → c.wl = k → c.sending = false ∧ c.acked = true) ∧
        t.tt.changes.length = s.tt.changes.length ∧ t = { s with tt := { s.tt with changes := t.tt.changes } }) ∧
      (s.trained p = true → k < 8 → bitAt (s.fget (R.OP_PORT_STATUS.WL_WORKING p)) k = true →
        (∀ c ∈ s.tt.changes, ¬(c.pos = chgPos p ∧ c.wl = k)) → Answers (.wavelengthLost p k) s fun t =>
          (∃ c ∈ t.tt.changes, c.pos = chgPos p ∧ c.wl = k ∧ c.n = s.now + 5 ∧ c.cause = 1 ∧ c.planned = false) ∧
          MgmtGoes s t p 2 k 1 (s.now + 5) [] ∧
          t.fget (R.OP_PORT_STATUS.WL_WORKING p) = s.fget (R.OP_PORT_STATUS.WL_WORKING p) ∧
          t.fget (R.OP_PORT_STATUS.WIDTH p) = s.fget (R.OP_PORT_STATUS.WIDTH p) ∧ t.mem = s.mem) ∧
      (∀ c : WidthChange, p < 144 → s.tt.changes.filter (fun c => c.pos == p && decide (c.n ≤ s.now)) = [c] → c.wl < 8 →
        s.portState p ≠ PS.DOWN → Answers (.widthChange p) s fun t =>
          (∀ d ∈ t.tt.changes, ¬(d.pos = p ∧ d.n ≤ s.now)) ∧
          bitAt (t.fget (R.OP_PORT_STATUS.WL_WORKING p)) c.wl = false ∧ t.mem = s.mem))

/-- R141, R144, R146, R147: a plan that is accepted replaces the plan in force and asks for the substitution; PLAN_ACCEPT of the
current DIFF_GEN accepts every difference of a trained port; a port DOWN for 150 ms in DISCOVERY is settled and the
differences are counted afresh; the substitution is recomputed for every mesh position and is then no longer due. R145: the
moves among DISCOVERY, PLAN_CHECK, SERVICE and DEGRADED at a frame boundary, with no plane recorded twice. -/
def Obligations.PlanIsFollowed : Prop :=
  (∀ s : State, s.regsWf = true →
      (∀ r : CmdReq, Fresh s r → s.planOk r.payload = true → Answers (.planLoad r) s fun t => Done t r ST.OK 0 [] ∧
        t.sg.plan = some (planMap r.payload) ∧ t.sg.topology = (planHdrOf r.payload).topology ∧ t.sg.accepted = [] ∧
        t.sg.adopted = [] ∧ t.sg.substDue = true ∧ t.sg.acceptDue = false ∧ t.fget R.SG_STATUS.PLAN_LOADED = 1 ∧ t.si.dirty = addNew s.si.dirty 3 ∧
        t.mem = s.mem) ∧
      (∀ r : CmdReq, Fresh s r → r.arg = s.fget R.SG_STATUS.DIFF_GEN →
        (∀ p ∈ s.planPorts, s.differs p = true → s.outcome p ≠ OC.DUP ∧ s.outcome p ≠ OC.NOT_TRAINED) →
        Answers (.planAccept r) s fun t => Done t r ST.OK 0 [] ∧
          (∀ p ∈ s.planPorts, s.differs p = true → p ∈ t.sg.accepted) ∧ t.sg.acceptDue = (s.sled == SS.PLAN_CHECK) ∧
          t.mem = s.mem) ∧
      (∀ p, p < 160 → s.isPort p = true → s.sled = SS.DISCOVERY → 150000 ≤ s.tb.discFor → s.portState p = PS.DOWN →
        Answers (.portSettleTimeout p) s fun t => t.settled p = true ∧ (∀ q, q ≠ p → t.port q = s.port q) ∧
          (∀ a, a ≠ R.SG_STATUS.DIFFS.addr → t.reg a = s.reg a) ∧
          t.sg.diffs = (t.planPorts.filter t.differs).map (fun p => (p, t.outcome p)) ∧
          t = { s with ports := t.ports, regs := t.regs, sg := { s.sg with diffs := t.sg.diffs } }) ∧
      (s.sg.substDue = true → Answers .substitutionRecompute s fun t => t.sg.substDue = false ∧
        (∀ q, q < 16 → q ≠ s.plane → kget t.sg.subst (128 + q) = some (s.reach q)) ∧ t.mem = s.mem)) ∧
  (∀ s : State, s.regsWf = true → s.fbit R.SG_STATUS.DUP_PLANE = false →
      (s.sled = SS.DISCOVERY → s.allSettled = true → 64 ≤ s.tb.discFor → Answers .planStateChange s fun t =>
        t.sled = SS.PLAN_CHECK ∧ t.fget R.CP_STATE.PREV_STATE = SS.DISCOVERY) ∧
      (s.sled = SS.PLAN_CHECK → s.planMet = true → Answers .planStateChange s fun t =>
        t.sled = SS.SERVICE ∧ t.fget R.CP_STATE.PREV_STATE = SS.PLAN_CHECK) ∧
      (s.sled = SS.PLAN_CHECK → s.planMet = false → s.allAccepted = true → Answers .planStateChange s fun t =>
        t.sled = SS.DEGRADED ∧ t.fget R.CP_STATE.PREV_STATE = SS.PLAN_CHECK) ∧
      (s.sled = SS.SERVICE → s.sg.newDiff = true → Answers .planStateChange s fun t =>
        t.sled = SS.DEGRADED ∧ t.fget R.CP_STATE.PREV_STATE = SS.SERVICE ∧ t.sg.newDiff = false) ∧
      (s.sled = SS.DEGRADED → s.planMet = true → Answers .planStateChange s fun t =>
        t.sled = SS.SERVICE ∧ t.fget R.CP_STATE.PREV_STATE = SS.DEGRADED))

/-- R156, R157, R158: an access through a window that is not VALID is answered with ST_BAD_PARAM; one through a VALID window of
its partition opens a batch for its far page; a batch whose frames are over becomes a transfer that this Tollgate answers
for and holds for an uplink, and a SINGLE one that waits for the earlier transfers of its page and context; a SINGLE whose
earlier transfers are answered waits no more. -/
def Obligations.TollgateGathers : Prop :=
  ∀ s : State,
    (∀ c : Cell, c.dst = s.tgId → s.unitInReset 3 0 = false → (c.typ = T.READ ∨ c.typ = T.WRITE ∨ c.typ = T.ATOMIC) →
      bitAt (s.reg (R.FAR_WINDOW.addr (s.activeBank 1) (c.offset / 2 ^ 32 % 4096))).toNat 36 = false →
      Answers (.tollgateReceive c) s fun t =>
        t = { s with out := .inject s.ownPos (nackOf c ST.BAD_PARAM false 0) :: s.out
                     sw := { s.sw with feed := s.sw.feed ++ [nackOf c ST.BAD_PARAM false 0] } }) ∧
    (∀ (c : Cell) (v : Nat), v = (s.reg (R.FAR_WINDOW.addr (s.activeBank 1) (c.offset / 2 ^ 32 % 4096))).toNat →
      c.dst = s.tgId → s.unitInReset 3 0 = false → (c.typ = T.READ ∨ c.typ = T.WRITE ∨ c.typ = T.ATOMIC) →
      bitAt v 36 = true → s.eccBad 1 (R.FAR_WINDOW.addr (s.activeBank 1) (c.offset / 2 ^ 32 % 4096)) = false →
      s.partOf c.src = bitsOf v 35 32 → c.retx = false → isSingle c (bitsOf v 9 8) = false → s.tg.batches = [] →
      Answers (.tollgateReceive c) s fun t => (∃ b, t.tg.batches = [b] ∧ b.kind = batchKind c ∧ b.rack = bitsOf v 7 0 ∧
        b.epId = bitsOf v 19 10 ∧ b.page = (bitsOf v 31 20 * 2 ^ 32 + c.offset % 2 ^ 32) / 4096 ∧ b.ctx = c.ctx ∧
        b.openedAt = s.now ∧ b.originals = [c] ∧ b.closing = false) ∧
        t = { s with tg := { s.tg with batches := t.tg.batches, nextKey := s.tg.nextKey + 1 } }) ∧
    (∀ (b : Batch) (w : List Nat), s.tg.batches = [b] → b.closing = true ∨ b.openedAt + b.gather ≤ s.now → s.mayForm = true →
      w = (if b.kind = 4 then s.earlier b else []) →
      Answers (.batchClose b.id) s fun t => t.tg.batches = [] ∧ t.tg.nextTid = (s.tg.nextTid + 1) % 2 ^ 32 ∧
        t.tg.origins = s.tg.origins ++ [{ tid := s.tg.nextTid, t := s.transferOf b s.tg.nextTid, originals := b.originals
                                          waitsFor := w, released := w.isEmpty, detourMax := s.tg.detourMax
                                          detourWait := s.tg.detourWait }] ∧
        t.tg.held = s.tg.held ++ [{ key := s.tg.nextKey, t := s.transferOf b s.tg.nextTid, since := s.now
                                    detourMax := s.tg.detourMax, detourWait := s.tg.detourWait, blocked := !w.isEmpty }] ∧
        t = { s with regs := t.regs, free := t.free, al := t.al, tg := t.tg }) ∧
    (∀ (o : Origin), s.tg.origins.find? (·.tid == o.tid) = some o → o.released = false →
      (∀ w ∈ o.waitsFor, ∀ x ∈ s.tg.origins, x.tid ≠ w) → Answers (.singleRelease o.tid) s fun t =>
        t.tg.held = s.tg.held.map (fun h => if s.ownHeld h o.tid then { h with blocked := false } else h) ∧
        (∀ x ∈ t.tg.origins, x.tid = o.tid → x.released = true) ∧
        t = { s with tg := { s.tg with origins := t.tg.origins, held := t.tg.held } })

/-- R151, R152, R153, R159, R160, R161: a held transfer leaves on the first usable idle productive uplink, as the cells of its
train; a train with a cell missing or out of place brings nothing; a train for another rack is held one hop and one frame
older; one past its budget is discarded and counted; one for this rack becomes far-side work whose cells all leave; work
whose cells are answered becomes a record and an answer that is held. R153, R162: a held transfer of age 1,024 is discarded;
an unanswered transfer is held again at 256, 512 and 768 frames; at 1,024 frames every original gets a NACK with ST_LOST and
RETRY, and an answer gives every original its own answer, and in both cases the transfer is forgotten. -/
def Obligations.TransfersRun : Prop :=
  (∀ s : State,
      (∀ (u : Nat) (h : HeldTransfer) (l : List HeldTransfer), u < 16 → s.usable u = true → s.steady (144 + u) = true →
        s.sending u = false → s.tg.held = h :: l → h.blocked = false → h.t.age < 1024 → s.productive s.rack h.t.dstRack (s.roleOf u) = true →
        (∀ v, v < u → (s.usable v && s.productive s.rack h.t.dstRack (s.roleOf v)) = false) → (∀ x ∈ l, x.key ≠ h.key) →
        Answers (.uplinkDispatch u) s fun t => t.tg.held = l ∧ u ∈ t.tg.busy ∧ .train u h.t ∈ t.out ∧
          CellsGo t (144 + u) (trainCells h.t s.tgId s.tg.trainSeq) ∧ t.tg.trainSeq = (s.tg.trainSeq + 1) % 65536 ∧
          t = { s with out := t.out, ports := t.ports, sw := { s.sw with usedOut := t.sw.usedOut }
                       tg := { s.tg with held := l, busy := t.tg.busy, origins := t.tg.origins, trainSeq := t.tg.trainSeq } }) ∧
      (∀ (u : Nat) (c : Option Cell) (cs : List (Option Cell)), trainOf (c :: cs) = none → exec (.trainReceive u c cs) s = .next s) ∧
      (∀ (u : Nat) (c : Option Cell) (cs : List (Option Cell)) (x : Transfer), trainOf (c :: cs) = some x → u < 16 → s.usable u = true →
        s.steady (144 + u) = true → s.unitInReset 3 0 = false → x.hops + 1 ≤ x.budget →
        x.age + 1 < 1024 → s.buffersUsed < 512 → x.dstRack ≠ s.rack → Answers (.trainReceive u c cs) s fun t =>
          t = { s with tg := { s.tg with
            held := s.tg.held ++ [{ key := s.tg.nextKey, t := { x with hops := x.hops + 1, age := x.age + 1 }, since := s.now
                                    detourMax := s.tg.detourMax, detourWait := s.tg.detourWait }]
            nextKey := s.tg.nextKey + 1 } }) ∧
      (∀ (u : Nat) (c : Option Cell) (cs : List (Option Cell)) (x : Transfer), trainOf (c :: cs) = some x → s.regsWf = true → u < 16 →
        s.usable u = true → s.steady (144 + u) = true → s.unitInReset 3 0 = false →
        x.budget < x.hops + 1 → Answers (.trainReceive u c cs) s fun t =>
          Sets s t [(R.TG_STATS.BUDGET, min (s.fget R.TG_STATS.BUDGET + 1)
            (2 ^ (R.TG_STATS.BUDGET.hi + 1 - R.TG_STATS.BUDGET.lo) - 1))] ∧ t = { s with regs := t.regs }) ∧
      (∀ (u : Nat) (c : Option Cell) (cs : List (Option Cell)) (x : Transfer), trainOf (c :: cs) = some x → u < 16 → s.usable u = true →
        s.steady (144 + u) = true → s.unitInReset 3 0 = false → x.hops + 1 ≤ x.budget →
        x.age + 1 < 1024 → s.buffersUsed < 512 → x.dstRack = s.rack → x.kind < 5 →
        (∀ r ∈ s.tg.records, ¬(r.srcRack = x.srcRack ∧ r.tid = x.tid)) →
        (∀ j ∈ s.tg.jobs, ¬(j.t.srcRack = x.srcRack ∧ j.t.tid = x.tid)) → s.tg.records.length + s.tg.jobs.length < 16384 →
        Answers (.trainReceive u c cs) s fun t => (∃ j, t.tg.jobs = s.tg.jobs ++ [j] ∧
          j.t = { x with hops := x.hops + 1, age := x.age + 1 } ∧ j.waiting.length = (s.farCells j.t).length ∧
          ∀ c ∈ j.waiting, Out.inject s.ownPos c ∈ t.out) ∧
          t = { s with out := t.out, sw := s.fed t, tg := { s.tg with seqs := t.tg.seqs, nextKey := s.tg.nextKey + 1, jobs := t.tg.jobs } }) ∧
      (∀ (k : Nat) (j : FarJob), (s.tg.jobs.find? fun j => j.key == k && j.waiting.isEmpty) = some j →
        s.tg.records.length < 16384 → Answers (.farComplete k) s fun t =>
          (∀ x ∈ t.tg.jobs, x.key ≠ k) ∧
          t.tg.records = s.tg.records ++ [{ srcRack := j.t.srcRack, tid := j.t.tid, answer := s.answerOf j, at_ := s.now }] ∧
          t.tg.held = s.tg.held ++ [{ key := s.tg.nextKey, t := s.answerOf j, since := s.now
                                      detourMax := s.tg.detourMax, detourWait := s.tg.detourWait }] ∧
          ((s.answerOf j).kind = 7 ↔ j.status ≠ 0) ∧ t = { s with tg := t.tg })) ∧
  (∀ s : State,
      (∀ (k : Nat) (h : HeldTransfer), (s.tg.held.find? fun h => h.key == k && decide (1024 ≤ h.t.age)) = some h →
        Answers (.transferAgeDiscard k) s fun t => (∀ x ∈ t.tg.held, x.key ≠ k) ∧
          t = { s with regs := t.regs, free := t.free, al := t.al
                       tg := { s.tg with held := t.tg.held, origins := t.tg.origins } }) ∧
      (∀ (o : Origin) (f : Nat), s.tg.origins.find? (·.tid == o.tid) = some o → o.firstSent = some f → 1 ≤ o.sends →
        o.sends ≤ 3 → f + 256 * o.sends ≤ s.now → s.now < f + 1024 →
        (∀ h ∈ s.tg.held, ¬(h.t.srcRack = s.rack ∧ h.t.kind ≤ 4 ∧ h.t.tid = o.tid)) →
        Answers (.transferResend o.tid) s fun t => t = { s with tg := { s.tg with
          held := s.tg.held ++ [{ key := s.tg.nextKey, t := o.t, since := s.now, detourMax := o.detourMax
                                  detourWait := o.detourWait }], nextKey := s.tg.nextKey + 1 } }) ∧
      (∀ (o : Origin) (f : Nat), s.tg.origins.find? (·.tid == o.tid) = some o → o.firstSent = some f → f + 1024 ≤ s.now →
        Answers (.transferGiveUp o.tid) s fun t => (∀ x ∈ t.tg.origins, x.tid ≠ o.tid) ∧
          (∀ c ∈ o.originals, Out.inject s.ownPos (nackOf c ST.LOST true 0) ∈ t.out) ∧
          t = { s with out := t.out, sw := s.fed t, tg := { s.tg with origins := t.tg.origins, held := t.tg.held } }) ∧
      (∀ (x : Transfer) (o : Origin), (s.tg.origins.find? fun o => o.tid == x.tid && o.t.dstRack == x.srcRack) = some o →
        5 ≤ x.kind → x.kind ≤ 7 → x.dstRack = s.rack → Answers (.transferAnswer x) s fun t =>
          (∀ y ∈ t.tg.origins, y.tid ≠ x.tid) ∧
          (∀ c ∈ o.originals, Out.inject s.ownPos (originAnswer x c) ∈ t.out) ∧
          (x.kind = 6 → ∀ c ∈ o.originals, originAnswer x c = ackOf c) ∧
          t = { s with out := t.out, sw := s.fed t, tg := { s.tg with origins := t.tg.origins, held := t.tg.held } }))

/-- R163, R172, R173, R176, R205: a volatile read of a distant address that passes every check enters a request and one READ
cell for each line, and while the instance is quiet none is sent; an observer that an earlier access of its own holds
presents nothing; an address without translation completes with ST_DENIED; a cell that waits leaves, when its plane, the
table and its sequence window allow, with the next SEQ of its destination. R178, R180, R208: a release whose earlier
requests have completed is sent, or, after a loss, completes with ST_FENCE_LOST and is not performed. -/
def Obligations.RequestsAndReleases : Prop :=
  (∀ s : State,
      (∀ (e : Nat) (r : MemReq), s.observerHeld e r.observer r.ctx = true → exec (.requestIssue e r) s = .next s) ∧
      (∀ (e : Nat) (r : MemReq) (x : Xlat), e < 18 → r.op = 1 → r.ms = none → s.chip.selfAns = [] →
        s.observerHeld e r.observer r.ctx = false →
        (∀ w ∈ s.transEntries e, s.badEntry e w = false) → s.check e r = (ST.OK, some x) →
        x.ga / 2 ^ 44 % 1024 ≠ s.epId e → s.now < (s.ep e).quietUntil → Answers (.requestIssue e r) s fun t =>
          (∃ os, (t.ep e).ort = (s.ep e).ort ++ os ∧ os.length = lenCells ((lenCode r.len).getD 0) ∧
            ∀ o ∈ os, o.sent = none ∧ o.held = false ∧ o.cell.typ = T.READ ∧ o.cell.opmod = 1 ∧ o.cell.ctx = r.ctx ∧
              o.cell.src = s.epId e ∧ (x.ga / 2 ^ 56 = s.epRack e → o.cell.dst = x.ga / 2 ^ 44 % 1024)) ∧
          (∃ q, (t.ep e).reqs = (s.ep e).reqs ++ [q] ∧ q.r = r ∧ q.cells = lenCells ((lenCode r.len).getD 0)) ∧
          (16 ≤ e → t.cores = s.cores) ∧ t = { s with eps := t.eps, chip := t.chip, cores := t.cores }) ∧
      (∀ r : MemReq, r.op ≤ 1 → r.ms = none → s.chip.selfAns = [] → s.observerHeld 17 r.observer r.ctx = false →
        (∀ w ∈ s.transEntries 17, s.badEntry 17 w = false) → s.lookup 17 r.ctx r.addr = none →
        Answers (.requestIssue 17 r) s fun t => t.out = .complete r.observer r.tag ST.DENIED [] :: s.out ∧
          (t.ep 17).ort = (s.ep 17).ort ∧ (t.ep 17).reqs = (s.ep 17).reqs ∧ t.mem = s.mem) ∧
      (∀ (e key : Nat) (o : Outst), e < 18 → (s.ep e).ort.find? (·.key == key) = some o → o.sent = none → o.held = false →
        (s.ep e).quietUntil ≤ s.now → o.cell.collective = false → s.planeUsable e o.plane = true → ortUsed (s.ep e) < ortCap e →
        seqFits (s.ep e) o.cell.dst (seqPlaneFor o.cell.dst o.plane) = true → o.cell.cls = clsBE →
        Answers (.requestTransmit e key) s fun t => ∃ n c, c = { o.cell with seq := n } ∧
          n = kgetD (s.ep e).seqs (o.cell.dst * 16 + seqPlaneFor o.cell.dst o.plane) 0 ∧
          kgetD (t.ep e).seqs (o.cell.dst * 16 + seqPlaneFor o.cell.dst o.plane) 0 = (n + 1) % 65536 ∧
          (∃ o', (t.ep e).ort.find? (·.key == key) = some o' ∧ o'.cell = c ∧ o'.sent = some s.now) ∧
          (e < 16 → t.out = .inject (144 + e) c :: s.out) ∧ (e = 16 → t.out = .inject s.ownPos c :: s.out) ∧
          (e = 17 → CellsGo t (160 + o.plane) [c]) ∧ (e ≠ 17 → t.ports = s.ports ∧ t.sw.usedOut = s.sw.usedOut) ∧
          t = { s with eps := t.eps, out := t.out, ports := t.ports, sw := { s.fed t with usedOut := t.sw.usedOut } })) ∧
  (∀ (s : State) (e req : Nat) (q : Request), s.chip.selfAns = [] → (s.ep e).reqs.find? (·.id == req) = some q →
      q.covered ≠ [] → s.allDone e q.covered = true →
      (e < 18 → q.lostCov = false → q.direct = false → s.now < (s.ep e).quietUntil → Answers (.releaseSend e req) s fun t =>
        (∀ o ∈ (t.ep e).ort, o.req = req → o.held = false) ∧ (∃ q' ∈ (t.ep e).reqs, q'.id = req ∧ q'.covered = []) ∧
          (t.ep e).ort.length = (s.ep e).ort.length ∧ t = { s with eps := t.eps, chip := t.chip }) ∧
      (∀ rq tag, e = 17 → q.lostCov = true → q.isRelease = true → q.isAcquire = false → q.r.ms = none → q.dest = .complete rq tag →
        Answers (.releaseSend e req) s fun t => (∀ x ∈ (t.ep e).reqs, x.id ≠ req) ∧ (∀ o ∈ (t.ep e).ort, o.req ≠ req) ∧
          t.lostPending e q.r.observer q.r.ctx = false ∧ t.out = .complete rq tag ST.FENCE_LOST [] :: s.out ∧ t.mem = s.mem))

/-- R166, R178, R179: at the home, a new READ that a hub serves is answered with a RESPONSE that carries the bytes of hub
memory, and its SEQ is accepted; a duplicate WRITE is not performed again, and is acknowledged and counted; an in-band
COMMAND cell that cannot be collected is answered with ST_BUSY, and a first piece is acknowledged and kept. -/
def Obligations.TargetPerforms : Prop :=
  ∀ s : State,
    (∀ (h plane : Nat) (c : Cell), h < 16 → c.dst = s.epId h → s.targetDown h = false → c.typ = T.WRITE →
      winNew (kget (s.ep h).wins (c.src * 16 + s.seqPlaneAt h (plane % 16))) c.seq = false → s.inProgress h (plane % 16) c = false →
      Answers (.targetReceive h plane c .clean) s fun t => t.mem = s.mem ∧
        (∃ w, kget (t.ep h).wins (c.src * 16 + s.seqPlaneAt h (plane % 16)) = some w ∧ w.last = s.now) ∧
        t.out = .inject (144 + h) (ackOf c) :: s.out ∧ t.pending = s.pending) ∧
    (∀ (h plane : Nat) (c : Cell), h < 16 → c.dst = s.epId h → s.targetDown h = false → c.typ = T.READ → c.cls = clsBE →
      winNew (kget (s.ep h).wins (c.src * 16 + s.seqPlaneAt h (plane % 16))) c.seq = true → c.allowed = true →
      c.offset + c.bytes ≤ s.populated h → s.heldAt h c.offset = false → s.poisoned h c.offset = false →
      Answers (.targetReceive h plane c .clean) s fun t => t.mem = s.mem ∧
        kget (t.ep h).wins (c.src * 16 + s.seqPlaneAt h (plane % 16)) =
          some (winAccept (kget (s.ep h).wins (c.src * 16 + s.seqPlaneAt h (plane % 16))) c.seq s.now) ∧
        ∃ a, Out.inject (144 + h) a ∈ t.out ∧ a.typ = T.RESPONSE ∧ a.dst = c.src ∧ a.seq = c.seq ∧
          bytesAt (lineBytes a.payload) (c.offset % 64) c.bytes = s.hubRead h c.offset c.bytes) ∧
    (∀ c : Cell, c.typ = T.COMMAND → c.dst = s.epId 16 → s.targetDown 16 = false →
      winNew (kget (s.ep 16).wins (c.src * 16 + s.plane)) c.seq = true → s.inbandFull c = true →
      Answers (.inbandCommandPiece c) s fun t => Out.inject s.ownPos (nackOf c ST.BUSY false 0) ∈ t.out ∧
        t.host = s.host ∧ t.mem = s.mem) ∧
    (∀ c : Cell, c.typ = T.COMMAND → c.dst = s.epId 16 → s.targetDown 16 = false →
      winNew (kget (s.ep 16).wins (c.src * 16 + s.plane)) c.seq = true → s.host.inband.length < 64 →
      field (lineBytes c.payload) 0 1 = 1 → field (lineBytes c.payload) 1 1 = 0 → 2 ≤ field (lineBytes c.payload) 6 2 →
      field (lineBytes c.payload) 6 2 ≤ 19 → field (lineBytes c.payload) 4 2 < field (lineBytes c.payload) 6 2 →
      (∀ p ∈ s.host.inband, ¬(p.owner = c.src ∧ p.tag = field (lineBytes c.payload) 2 2)) →
      Answers (.inbandCommandPiece c) s fun t => t.out = .inject s.ownPos (ackOf c) :: s.out ∧
        t.host.inband = s.host.inband ++ [{ owner := c.src, tag := field (lineBytes c.payload) 2 2
                                            total := field (lineBytes c.payload) 6 2
                                            frags := [(field (lineBytes c.payload) 4 2, (lineBytes c.payload).drop 8)]
                                            ctxs := [c.ctx], last := s.now }] ∧
        t = { s with eps := t.eps, host := { s.host with inband := t.host.inband }, out := t.out, sw := s.fed t })

/-- R182, R183, R184: the last answer of a request completes it; an answer that matches nothing is counted; at its mark a
best-effort cell is sent again with RETX and its SEQ; at its final mark it is lost, its request completes with ST_LOST and
its observer's LOST_PENDING is set. -/
def Obligations.AnswersAndLosses : Prop :=
  ∀ (s : State) (e : Nat), e < 18 → (s.ep e).members = [] → (s.ep e).roots = [] →
    (∀ (plane : Nat) (c : Cell) (o : Outst) (q : Request) (rq tag : Nat), e ≠ 16 → c.typ = T.ACK → c.opmod ≠ 1 →
      ((s.ep e).ort.find? fun o => o.sent.isSome && o.cell.dst == c.src && o.cell.seq == c.seq &&
        o.seqPlane == seqPlaneFor c.src plane) = some o →
      (s.ep e).reqs.find? (·.id == o.req) = some q → q.cells = q.answered + 1 → q.status = ST.OK → q.cacheable = false →
      q.isRelease = false → q.isAcquire = false → q.r.ms = none → q.r.op = 3 → q.dest = .complete rq tag →
      Answers (.answerReceive e plane c) s fun t => t.out = .complete rq tag ST.OK [] :: s.out ∧
        (∀ x ∈ (t.ep e).ort, x.key ≠ o.key) ∧ (∀ x ∈ (t.ep e).reqs, x.id ≠ q.id) ∧ t = { s with eps := t.eps, out := t.out }) ∧
    (∀ (plane : Nat) (c : Cell), s.regsWf = true → e ≠ 16 → c.typ = T.ACK → c.opmod ≠ 1 → (s.ep e).ort = [] →
      s.fget (R.EP_STATS.DUP e) + 1 < 2 ^ ((R.EP_STATS.DUP e).hi + 1 - (R.EP_STATS.DUP e).lo) →
      Answers (.answerReceive e plane c) s fun t =>
        Sets s t [(R.EP_STATS.DUP e, s.fget (R.EP_STATS.DUP e) + 1)] ∧ t = { s with regs := t.regs }) ∧
    (∀ (key : Nat) (o : Outst) (f : Nat), (s.ep e).ort.find? (·.key == key) = some o → o.cell.cls = clsBE → o.interRack = false →
      o.cell.collective = false → o.sent = some f → f + 64 ≤ s.now → s.now < f + 128 → o.lastSent < f + 64 →
      s.planeUsable e o.plane = true → Answers (.retransmit e key) s fun t =>
        (e < 16 → t.out = .inject (144 + e) { o.cell with retx := true } :: s.out) ∧
        (e = 16 → t.out = .inject s.ownPos { o.cell with retx := true } :: s.out) ∧
        (e = 17 → CellsGo t (160 + o.plane) [{ o.cell with retx := true }]) ∧
        (∃ o', (t.ep e).ort.find? (·.key == key) = some o' ∧ o'.retries = o.retries + 1 ∧ o'.lastSent = s.now ∧
          o'.sent = some f) ∧ (t.ep e).reqs = (s.ep e).reqs ∧ t.mem = s.mem) ∧
    (∀ (key : Nat) (o : Outst) (f : Nat) (q : Request) (rq tag : Nat), (s.ep e).ort.find? (·.key == key) = some o →
      o.sent = some f → f + finalMark o ≤ s.now → (s.ep e).reqs.find? (·.id == o.req) = some q → q.cells = q.answered + 1 →
      q.isRelease = false → q.isAcquire = false → q.r.ms = none → q.dest = .complete rq tag →
      (q.r.op ≤ 2 → q.status ≠ ST.POISON) → Answers (.requestLost e key) s fun t => t.out = .complete rq tag ST.LOST [] :: s.out ∧
        t.lostPending e q.r.observer q.r.ctx = true ∧ (∀ x ∈ (t.ep e).ort, x.key ≠ key) ∧
        (∀ x ∈ (t.ep e).reqs, x.id ≠ q.id) ∧ t.mem = s.mem)

/-- R180, R181, R187, R195: what an instance forgets with time, and its controls. R188, R189: a write to COUNT takes effect at
once; a wait whose target is reached completes with ST_OK, one past its deadline with ST_PENDING. R217, R218, R221: a
chiplet's fence whose covered requests are done completes with ST_OK, or once with ST_FENCE_LOST after a loss; a core's
token wait whose token has reached its target lets its engine go on. -/
def Obligations.EndpointWaits : Prop :=
  (∀ (s : State) (e : Nat), e < 18 →
      (Answers (.replyRecordExpiry e) s fun t => (∀ r, r ∈ (t.ep e).replies ↔ r ∈ (s.ep e).replies ∧ s.now < r.at_ + 256) ∧
        t = { s with eps := t.eps }) ∧
      (∀ key w, krising (s.ep e).wins = true → kget (s.ep e).wins key = some w → w.last + 1024 ≤ s.now →
        Answers (.seqWindowExpiry e key) s fun t => kget (t.ep e).wins key = none ∧
          (∀ k, k ≠ key → kget (t.ep e).wins k = kget (s.ep e).wins k) ∧ t = { s with eps := t.eps }) ∧
      ((s.ep e).quietUntil ≤ s.now → Answers (.startupQuietEnd e) s fun t => (t.ep e).quietUntil = 0 ∧
        (t.ep e).ort = (s.ep e).ort ∧ t = { s with eps := t.eps }) ∧
      (∀ (plane : Nat) (c : Cell) (i : Nat) (v : W64), s.regsWf = true → c.typ = T.STATUS → field (lineBytes c.payload) 0 1 = 0x10 →
        s.regsIn (epBase e + 0x1000) (epBase e + 0x1000 + 2048) = [(epBase e + 0x1000 + 8 * i, v)] → i < 256 →
        bitAt v.toNat 0 = true → bitsOf v.toNat 4 1 = plane → bitsOf v.toNat 12 7 = field (lineBytes c.payload) 3 1 % 64 →
        bitsOf v.toNat 6 5 = 0 → field (lineBytes c.payload) 1 1 = 0 →
        posOn plane (bitsOf v.toNat 24 13 % 1024) = field (lineBytes c.payload) 2 1 →
        Answers (.demotionNotice e plane c) s fun t => Sets s t [(R.EP_RESV.DEMOTED e i, 1)] ∧ t = { s with regs := t.regs }) ∧
      (∀ i, s.regsWf = true → i < 256 → Answers (.demoteClr e) s fun t => t.fget (R.EP_RESV.DEMOTED e i) = 0 ∧
        t.fget (R.EP_RESV.CELLS e i) = s.fget (R.EP_RESV.CELLS e i) ∧ t = { s with regs := t.regs }) ∧
      (∀ v : Bool, s.regsWf = true → Answers (.volatileSet e v) s fun t => t.fbit (R.EP_CTL.VOLATILE e) = v ∧
        (v = true → (t.ep e).cache = []) ∧ (v = false → t = { s with regs := t.regs }) ∧ t.mem = s.mem)) ∧
  (∀ s : State, s.regsWf = true →
      (∀ (e m : Nat) (v : W64), e < 18 → m < 4096 → (s.ep e).waits = [] → Answers (.msCountWrite e m v) s fun t =>
        t.fget (R.MS_COUNT.COUNT e m) = v.toNat ∧ (∀ a, a ≠ R.MS_COUNT.addr e m → t.reg a = s.reg a) ∧
          t = { s with regs := t.regs }) ∧
      (∀ (w : MsWait), (s.ep 17).waits.find? (·.id == w.id) = some w → w.target ≤ s.fget (R.MS_COUNT.COUNT 17 w.ms) →
        w.keep = true → Answers (.milestoneSatisfied 17 w.id) s fun t => (∀ x ∈ (t.ep 17).waits, x.id ≠ w.id) ∧
          t = { s with eps := t.eps, out := .complete w.observer w.tag ST.OK [] :: s.out }) ∧
      (∀ (w : MsWait), (s.ep 17).waits = [w] → s.fget (R.MS_COUNT.COUNT 17 w.ms) < w.target → w.deadline ≠ 0 →
        w.issued + w.deadline < s.now → Answers (.waitDeadline 17) s fun t => (t.ep 17).waits = [] ∧
          t = { s with eps := t.eps, out := .complete w.observer w.tag ST.PENDING [] :: s.out })) ∧
  (∀ s : State,
      (∀ w : Fence, (s.ep 17).fences.find? (·.id == w.id) = some w → s.allDone 17 w.covers = true → w.xfers = [] → w.kind = 0 →
        w.keep = true → w.lostCov = false → s.lostPending 17 w.observer w.ctx = false → Answers (.fenceComplete 17 w.id) s fun t =>
          (∀ x ∈ (t.ep 17).fences, x.id ≠ w.id) ∧
          t = { s with eps := t.eps, out := .complete w.observer w.tag ST.OK [] :: s.out }) ∧
      (∀ w : Fence, (s.ep 17).fences.find? (·.id == w.id) = some w → s.allDone 17 w.covers = true → w.xfers = [] → w.kind = 0 →
        w.keep = true → s.lostPending 17 w.observer w.ctx = true → Answers (.fenceComplete 17 w.id) s fun t =>
          (∀ x ∈ (t.ep 17).fences, x.id ≠ w.id) ∧ t.lostPending 17 w.observer w.ctx = false ∧
          t.out = .complete w.observer w.tag ST.FENCE_LOST [] :: s.out ∧ t.mem = s.mem) ∧
      (∀ (c g : Nat) (e : Engine), c < 256 → g < 2 → (s.core c).run.engines[g]? = some e → e.wait = 4 →
        tokenMet (kgetD (s.core c).run.tokens e.waitToken 0) e.waitTarget = true → Answers (.tokenWaitDone c g) s fun t =>
          (t.core c).run.engines[g]? = some { e with wait := 0 } ∧ (t.core c).run.tokens = (s.core c).run.tokens ∧
          (∀ k, k ≠ c → t.core k = s.core k) ∧ t = { s with cores := t.cores }))

/-- R236, R239: an INSTANCE_ARM that passes every check arms its slot, and a root that this sled holds; one refused changes
nothing but its reply. R246, R248, R249, R250, R251, R559: a first JOIN of a member joins it and is owed an acknowledgement;
a JOIN for a slot that is not armed is held and owed one too; a member's first CONTRIB to a chunk opens its entry with that
member's bit; a duplicate is counted, owed an acknowledgement and changes neither instance nor entry. -/
def Obligations.InstancesGather : Prop :=
  (∀ (s : State) (r : CmdReq) (d : Desc), s.regsWf = true → Fresh s r → d = descOf (bytesAt r.payload 10 14) →
      s.drainRefusal true = none → s.ctxRefusal r.ctx = none → s.rd.early = [] → field r.payload 0 2 < 8192 →
      (s.armStatus r.payload = ST.OK → ¬(128 + 16 * s.plane ≤ d.rootOn s.plane ∧ d.rootOn s.plane < 144 + 16 * s.plane) →
        Answers (.instanceArm r) s fun t => Done t r ST.OK 0 [] ∧ t.slotState (field r.payload 0 2) = 1 ∧
          (∃ i, t.inst (field r.payload 0 2) = some i ∧ i.group = field r.payload 8 2 ∧ i.iseq = field r.payload 4 4 ∧
            i.deadline = field r.payload 48 8 ∧ i.joined = [] ∧ i.endStatus = none) ∧
          t = { s with regs := t.regs, rd := t.rd, host := t.host, out := t.out, sw := s.fed t }) ∧
      (∀ h, s.armStatus r.payload = ST.OK → h < 16 → d.rootOn s.plane = 128 + 16 * s.plane + h → (s.ep h).members = [] →
        s.now < (s.ep h).quietUntil → Answers (.instanceArm r) s fun t => Done t r ST.OK 0 [] ∧
          t.slotState (field r.payload 0 2) = 1 ∧
          (∃ a, (t.ep h).roots = (s.ep h).roots ++ [a] ∧ a.slot = field r.payload 0 2 ∧ a.iseq = field r.payload 4 4 ∧
            a.resultBase = field r.payload 24 6 % 2 ^ 44 ∧ a.prefix_ = 0) ∧
          t = { s with regs := t.regs, rd := t.rd, eps := t.eps, host := t.host, out := t.out, sw := s.fed t }) ∧
      (s.armStatus r.payload ≠ ST.OK → s.armStatus r.payload ≠ ST.EARLY_DROPPED → Answers (.instanceArm r) s fun t =>
        Done t r (s.armStatus r.payload) 0 [] ∧ t = { s with host := t.host, out := t.out, sw := s.fed t })) ∧
  (∀ (s : State) (c : Cell) (fclk : Nat) (faults : List LineFault) (v : Option SeqWin), s.regsWf = true → fclk < 1600 →
      c.slot < 8192 → v = (kget s.rd.wins c.src).filter (fun x => decide (s.now < x.last + 1024)) →
      (∀ (i : Inst) (p : List Byte), p = lineBytes c.payload → c.typ = T.JOIN → winNew v c.seq = true →
        s.rankOf (field p 12 2 % 4096) c.src ≠ none → c.ctx = s.groupCtx (field p 12 2 % 4096) → s.slotState c.slot = 1 →
        kget s.rd.insts c.slot = some i → i.endStatus = none → field p 12 2 % 4096 = i.group → field p 8 4 = i.iseq →
        field p 14 1 = 0 → field p 0 8 = i.hash → i.joined.contains c.src = false → s.rd.early = [] →
        Answers (.joinReceive c fclk) s fun t =>
          kget t.rd.insts c.slot = some { i with joined := i.joined ++ [c.src] } ∧
          t.fget (R.RD_INST1.JOINED c.slot) = (i.joined.length + 1) % 256 ∧
          kget t.rd.wins c.src = some (winAccept v c.seq s.now) ∧
          kgetD t.rd.acks c.src [] = addAck c.seq c.ctx (kgetD s.rd.acks c.src []) ∧ t = { s with regs := t.regs, rd := t.rd }) ∧
      (∀ p : List Byte, p = lineBytes c.payload → c.typ = T.JOIN → winNew v c.seq = true →
        s.rankOf (field p 12 2 % 4096) c.src ≠ none → c.ctx = s.groupCtx (field p 12 2 % 4096) → s.slotState c.slot = 0 →
        s.rd.early.length < 4096 → Answers (.joinReceive c fclk) s fun t =>
          Sets s t [(R.RD_STATUS.EARLY_USED, s.rd.early.length + 1)] ∧
          kgetD t.rd.acks c.src [] = addAck c.seq c.ctx (kgetD s.rd.acks c.src []) ∧
          t = { s with regs := t.regs, rd := { s.rd with
            early := s.rd.early ++ [{ cell := c, at_ := s.now }], wins := t.rd.wins, acks := t.rd.acks } }) ∧
      (∀ (i : Inst) (k : Nat) (d : Desc), d = descOf i.desc → c.typ = T.CONTRIB → winNew v c.seq = true →
        s.slotState c.slot = 1 → kget s.rd.insts c.slot = some i → i.slot = c.slot → i.endStatus = none → d.feedback = false →
        s.rankOf i.group c.src = some k → 2 ≤ (s.members i.group).length → c.ctx = s.groupCtx i.group →
        i.joined.contains c.src = true → d.bcast = false → c.chunk < d.n → s.rd.entries = [] → s.rd.spilled = [] →
        s.rd.results = [] → Answers (.contribReceive ⟨c, faults⟩ fclk) s fun t =>
          t.rd.entries = [{ slot := c.slot, chunk := c.chunk, members := 2 ^ k, opened := s.now
                            acc := accumulate d (List.replicate d.k none) 0 (decodeChunk d d.inT c.payload c.scales) }] ∧
          (∃ j, kget t.rd.insts c.slot = some j ∧ kgetD j.contributed c.src 0 = kgetD i.contributed c.src 0 + 1 ∧
            kget j.lastFrame c.src = some s.now) ∧
          kgetD t.rd.acks c.src [] = addAck c.seq c.ctx (kgetD s.rd.acks c.src []) ∧ t = { s with rd := t.rd }) ∧
      (c.typ = T.CONTRIB → winNew v c.seq = false → s.fget R.RD_STATS.DUP + 1 < 2 ^ 16 →
        Answers (.contribReceive ⟨c, faults⟩ fclk) s fun t => Sets s t [(R.RD_STATS.DUP, s.fget R.RD_STATS.DUP + 1)] ∧
          t.rd.entries = s.rd.entries ∧ t.rd.insts = s.rd.insts ∧ t.rd.early = s.rd.early ∧
          kgetD t.rd.acks c.src [] = addAck c.seq c.ctx (kgetD s.rd.acks c.src []) ∧ t = { s with regs := t.regs, rd := t.rd }))

/-- R248, R250, R252, R284: a held cell 32 frames old is discarded and marks its slot; an entry open 32 frames is written to the
spill region of its instance, and no byte outside that region changes; a map ACK joins the output queue of its source when
that queue has room; a write of RD_SR_SEED restarts every generator. -/
def Obligations.ReductionHousekeeping : Prop :=
  ∀ s : State, s.regsWf = true →
    (∀ e : Early, s.rd.early = [e] → e.at_ + 32 ≤ s.now → e.cell.slot < 8192 → Answers .earlyArrivalExpiry s fun t =>
      t.rd = { s.rd with early := [] } ∧ t.fget (R.RD_INST0.EARLY_DROP e.cell.slot) = 1 ∧ t.fget R.RD_STATUS.EARLY_USED = 0 ∧
        t = { s with regs := t.regs, rd := t.rd, free := t.free }) ∧
    (∀ (i : Inst) (e : RdEntry) (d : Desc) (faults : List LineFault), d = descOf i.desc → s.inst e.slot = some i → i.spillHub < 16 →
      (s.rd.entries.find? fun a => a.slot == e.slot && a.chunk == e.chunk) = some e → e.opened + 32 ≤ s.now →
      kget s.rd.spilled (chunkKey e.slot e.chunk) = none → Memory.wf s.mem = true → (∀ w, w < 16 → s.winLive i.spillHub w = false) →
      Answers (.entrySpill e.slot ⟨e.chunk, faults⟩) s fun t => (∀ a ∈ t.rd.entries, ¬(a.slot = e.slot ∧ a.chunk = e.chunk)) ∧
        kget t.rd.spilled (chunkKey e.slot e.chunk) = some e.members ∧
        t.hubRead i.spillHub (i.spillBase + e.chunk / 16 * d.unit) 20 = leBytes e.members 20 ∧
        (∀ a, (a < hubAddr i.spillHub (i.spillBase + e.chunk / 16 * d.unit) ∨
          hubAddr i.spillHub (i.spillBase + e.chunk / 16 * d.unit) + d.unit ≤ a) → Memory.get t.mem a = Memory.get s.mem a)) ∧
    (∀ (src p : Nat) (a : Nat × Nat × Nat), s.rd.acks = [(src, [a])] → s.posOf src = some p → p < 144 → s.posUp p = true →
      (kgetD s.sw.outG p []).length < 128 → Answers .mapAckSend s fun t =>
        (∃ it, kgetD t.sw.outG p [] = kgetD s.sw.outG p [] ++ [it] ∧ it.entry = false ∧
          it.cells = [mapAck src (384 + s.plane) a.1 a.2.1 a.2.2]) ∧
        t = { s with regs := t.regs, al := t.al, sw := t.sw, rd := { s.rd with acks := [] } }) ∧
    (∀ (src p : Nat) (a : Nat × Nat × Nat), s.rd.acks = [(src, [a])] → s.posOf src = some p → s.posUp p = true →
      128 ≤ (kgetD s.sw.outG p []).length → Answers .mapAckSend s fun t => t = s) ∧
    (∀ seed : W64, Answers (.rdSrSeed seed) s fun t => (∀ m, m < 160 → t.rdRng m = seedOf seed m) ∧
      t = { s with rd := { s.rd with rng := t.rd.rng } })

/-- R115, R254, R255: a held RESULT leaves for its root with the complex's next SEQ when its queue has room; the root writes it,
advances the prefix and ROOT_MS, and answers with a map ACK, or answers ST_NOT_ARMED when no root is armed. -/
def Obligations.ResultsReachTheRoot : Prop :=
  ∀ s : State,
    (∀ (r : RdResult) (p m fclk : Nat), fclk < 1600 → s.rd.entries = [] → s.rd.results = [r] → r.sent = none → r.cell.typ = T.RESULT → r.spilled = true →
      s.rdSeqFits r.root r.seqPlane = true → s.posOf r.root = some p → s.posUp p = true → m = steerOf r.slot r.chunk →
      (kgetD s.sw.midBe m []).length < 256 → ((kgetD s.sw.midBe m []).filter (·.outPos == p)).length < 4 →
      Answers (.resultHandoff r.slot ⟨r.chunk, fclk⟩) s fun t => ∃ c, c = { r.cell with
          seq := kgetD (s.ep 16).seqs (r.root * 16 + r.seqPlane) 0, cls := clsBE } ∧
        (∃ q, kgetD t.sw.midBe m [] = kgetD s.sw.midBe m [] ++ [q] ∧ q.cell = c ∧ q.outPos = p ∧ q.at_ = s.fclk fclk) ∧
        (∃ r', t.rd.results = [r'] ∧ r'.sent = some s.now ∧ r'.cell = c) ∧
        t = { s with rd := t.rd, sw := t.sw, eps := t.eps }) ∧
    (∀ (h : Nat) (c : Cell) (r : RootArm) (d : Desc), s.regsWf = true → h < 16 → c.typ = T.RESULT → s.root h c.slot = some r →
      d = descOf r.desc → d.bcast = false → (d.planeHub = true → c.chunk % 16 = s.plane) → c.chunk < d.n →
      winNew (kget (s.ep h).wins (c.src * 16 + planeOfId c.src)) c.seq = true → d.index c.chunk = r.prefix_ → r.written = [] →
      r.rootMs < 4096 → Memory.wf s.mem = true → (∀ w, w < 16 → s.winLive h w = false) → Answers (.resultReceive h c) s fun t =>
        (∃ r', t.root h c.slot = some r' ∧ r'.prefix_ = r.prefix_ + 1) ∧
        t.fget (R.MS_COUNT.COUNT h r.rootMs) = (s.fget (R.MS_COUNT.COUNT h r.rootMs) + 1) % 2 ^ 64 ∧
        t.hubRead h (d.dataAt r.resultBase d.outT r.prefix_) (d.bytes d.outT) =
          bytesAt (lineBytes c.payload) 0 (d.bytes d.outT) ∧
        t.out = .inject (144 + h) { mapAck c.src 0 c.seq 1 c.ctx with src := s.epId h } :: s.out) ∧
    (∀ (h : Nat) (c : Cell), h < 16 → c.typ = T.RESULT → s.root h c.slot = none → Answers (.resultReceive h c) s fun t =>
      t = { s with out := .inject (144 + h) { nackOf c ST.NOT_ARMED false 0 with src := s.epId h, dst := c.src } :: s.out })

/-- R116, R258, R259: a broadcast root whose gate is open sends its next chunk; a member keeps a chunk, and one that holds every
chunk sends DONE to every plane; a member without the chunk for 4 frames reads it from the root. -/
def Obligations.BroadcastRuns : Prop :=
  ∀ (s : State) (e : Nat),
    (∀ (slot c : Nat) (r : RootArm) (d : Desc) (w : BitVec 512 × Nat), e < 16 → s.root e slot = some r → d = descOf r.desc →
      d.bcast = true → r.next < d.count s.plane → s.gateOpen e r r.next = true →
      c = (if d.planeHub then 16 * r.next + s.plane else r.next) →
      s.resvFor e s.plane { typ := T.BCAST, src := s.epId e, ctx := r.ctx, slot := slot, chunk := c } = none →
      s.readChunk e slot d r.resultBase d.inT (d.count s.plane) r.next = (s, some (some w)) →
      Answers (.bcastSend e slot) s fun t =>
        t.out = .inject (144 + e) { typ := T.BCAST, cls := clsBE, src := s.epId e, ctx := r.ctx, slot := slot, chunk := c
                                    payload := (clipChunk d d.inT c w).1, scales := (clipChunk d d.inT c w).2 } :: s.out ∧
        (∃ r', t.root e slot = some r' ∧ r'.next = r.next + 1) ∧ t = { s with eps := t.eps, out := t.out, sw := s.fed t }) ∧
    (∀ (c : Cell) (m : Member) (d : Desc), e < 16 → c.typ = T.BCAST → s.member e c.slot = some m → d = descOf m.desc →
      d.bcast = true → m.ctx = c.ctx → c.chunk < d.n → (addNew m.have_ c.chunk).length < d.n →
      Memory.wf s.mem = true → (∀ w, w < 16 → s.winLive e w = false) → Answers (.bcastReceive e c) s fun t =>
        (∃ m', t.member e c.slot = some m' ∧ c.chunk ∈ m'.have_ ∧ m'.lastBcast = s.now ∧ m'.doneSent = m.doneSent) ∧
        t.hubRead e (d.dataAt m.region d.inT c.chunk) (d.bytes d.inT) = bytesAt (lineBytes c.payload) 0 (d.bytes d.inT) ∧
        t.out = s.out ∧ t.regs = s.regs) ∧
    (∀ (c : Cell) (m : Member) (d : Desc), e < 16 → c.typ = T.BCAST → s.member e c.slot = some m → d = descOf m.desc →
      d.bcast = true → m.ctx = c.ctx → c.chunk < d.n → d.n ≤ (addNew m.have_ c.chunk).length → m.doneSent = false →
      m.aborted = false → s.now < (s.ep e).quietUntil → Answers (.bcastReceive e c) s fun t =>
        (∃ m', t.member e c.slot = some m' ∧ m'.doneSent = true) ∧
        (∃ os, (t.ep e).ort = (s.ep e).ort ++ os ∧ os.length = d.planes.length ∧
          ∀ o ∈ os, o.cell.typ = T.JOIN ∧ o.cell.slot = m.slot ∧ field (lineBytes o.cell.payload) 14 1 = 1)) ∧
    (∀ (slot : Nat) (m : Member) (d : Desc) (g : Nat), e < 18 → e ≠ 16 → s.member e slot = some m → d = descOf m.desc →
      d.bcast = true → d.n = 1 → m.aborted = false → m.have_ = [] → m.recovering = [] → m.lastBcast + 4 ≤ s.now →
      g = s.epRack e * 2 ^ 56 + d.rootOn 0 * 2 ^ 44 → s.now < (s.ep e).quietUntil →
      s.mayRead e m.ctx (g + d.dataAt m.sourceBase d.inT 0) (d.bytes d.inT) = true →
      (0 < d.scaleBytes d.inT → s.mayRead e m.ctx (g + d.scaleAt m.sourceBase d.inT (d.count 0) 0) (d.scaleBytes d.inT) = true) →
      s.choosePlane e (d.rootOn 0) (d.dataAt m.sourceBase d.inT 0) ≠ none → Answers (.bcastRecovery e slot) s fun t =>
        (∃ os, (t.ep e).ort = (s.ep e).ort ++ os ∧ os ≠ [] ∧
          (∀ o ∈ os, o.cell.typ = T.READ ∧ o.cell.dst = d.rootOn 0 ∧ o.cell.ctx = m.ctx ∧ o.sent = none) ∧
          ∃ m', t.member e slot = some m' ∧ m'.recovering = [(0, os.length)]) ∧ t = { s with eps := t.eps })

/-- R239, R261, R262, R264: an instance whose end condition was found ends with its status, ST_EARLY_DROPPED in place of ST_OK
where a cell for its slot was dropped; one unfinished after frame D ends with ST_LATE_MEMBER; a notice without answer goes
out again 16 frames later; 256 frames after CLOSING began the slot is FREE; a RESULT that is never answered gives its
instance the end condition ST_LOST. R263: a chiplet's member request that has every other notice with ST_OK completes with
the status of the last one, which is acknowledged on the plane it came on; notices still missing after frame D + 80 count as
ST_LOST. -/
def Obligations.InstancesClose : Prop :=
  (∀ (s : State) (slot : Nat), s.regsWf = true → slot < 8192 →
      (∀ (i : Inst) (st : Nat), s.armed slot = some i → i.group < 4096 → i.endStatus = some st →
        Answers (.instanceEnd slot) s fun t => EndedWith s t slot
          (if st = ST.OK ∧ s.fbit (R.RD_INST0.EARLY_DROP slot) = true then ST.EARLY_DROPPED else st) i) ∧
      (∀ i : Inst, s.armed slot = some i → i.group < 4096 → i.endStatus = none → i.deadline < s.now → s.instDone i = false →
        s.fbit (R.RD_INST0.EARLY_DROP slot) = false →
        Answers (.instanceDeadline slot) s fun t => EndedWith s t slot ST.LATE_MEMBER i) ∧
      (∀ n : Notice, s.rd.notices = [n] → n.slot = slot → n.sends < 3 → n.first + 16 * (n.sends + 1) ≤ s.now →
        Answers (.endNoticeRepeat slot) s fun t => t.rd.notices = [{ n with sends := n.sends + 1 }] ∧
          t.out = .inject s.ownPos { typ := T.STATUS, cls := 2, dst := n.dst, src := 384 + s.plane, ctx := n.ctx, seq := n.seq
                                     payload := n.payload, retx := true } :: s.out ∧ t = { s with rd := t.rd, out := t.out, sw := s.fed t }) ∧
      (∀ i : Inst, kget s.rd.insts slot = some i → i.ctx < 64 → krising s.rd.insts = true → s.slotState slot = 2 → i.closedAt + 256 ≤ s.now →
        Answers (.slotFree slot) s fun t => t.slotState slot = 0 ∧ kget t.rd.insts slot = none ∧
          (∀ n ∈ t.rd.notices, n.slot ≠ slot) ∧ t = { s with regs := t.regs, rd := t.rd }) ∧
      (∀ (r : RdResult) (i : Inst) (f : Nat), r.slot = slot → s.rd.results.find? (·.key == r.key) = some r → r.sent = some f →
        r.refused = false → f + finalMark r.outst ≤ s.now → s.armed slot = some i → i.endStatus = none → Answers (.requestLost 18 r.key) s fun t =>
          kget t.rd.insts slot = some { i with endStatus := some ST.LOST, endAt := s.now } ∧
          t = { s with rd := { s.rd with insts := t.rd.insts } })) ∧
  (∀ (s : State) (m : Member), s.member 17 m.slot = some m → (s.ep 17).roots = [] → (s.ep 17).ort = [] → m.ms = none →
      m.ownStatus = ST.OK → (∀ n ∈ m.notices, n.2 = ST.OK) →
      (∀ (plane : Nat) (c : Cell), c.typ = T.STATUS → field (lineBytes c.payload) 0 1 = 0x20 →
        field (lineBytes c.payload) 8 2 % 8192 = m.slot → field (lineBytes c.payload) 4 4 = m.iseq →
        ((descOf m.desc).bcast = true → (descOf m.desc).n ≤ m.have_.length) →
        (∀ p ∈ (descOf m.desc).planes, p ≠ planeOfId c.src → kget m.notices p = some ST.OK) →
        kget m.notices (planeOfId c.src) = none → Answers (.endNoticeReceive 17 plane c) s fun t =>
          .complete m.observer m.tag (field (lineBytes c.payload) 2 2) [] ∈ t.out ∧ CellsGo t (160 + plane) [ackOf c] ∧
          (∀ x ∈ (t.ep 17).members, x.slot ≠ m.slot) ∧
          t = { s with eps := t.eps, out := t.out, ports := t.ports, sw := { s.sw with usedOut := t.sw.usedOut } }) ∧
      (∀ q ∈ (descOf m.desc).planes, kget m.notices q = none → m.deadline + 80 < s.chipNow →
        Answers (.noticeMissing 17 m.slot) s fun t => t.out = .complete m.observer m.tag ST.LOST [] :: s.out ∧
          (∀ x ∈ (t.ep 17).members, x.slot ≠ m.slot) ∧ t = { s with eps := t.eps, out := t.out }))

/-- R290, R298, R328, R329: a plain read of a hub's own core delivers the eight bytes that hub memory holds to its scalar
register; a plain write stores its eight bytes at their address and no other byte of memory changes; an access of an
observer that an earlier one of its own holds is presented later. -/
def Obligations.HubAccesses : Prop :=
  ∀ (s : State) (h c : Nat) (r : MemReq), h < 16 → r.observer < 64 → c = 16 * h + r.observer / 4 → r.len = 8 → r.ms = none →
    r.bothHints = false → formOk r r.addr = true → r.addr + 8 ≤ s.populated h → s.heldAt h r.addr = false →
    Memory.wf s.mem = true → (∀ w, w < 16 → s.winLive h w = false) →
    (∀ f, s.observerHeld h r.observer r.ctx = true → exec (.memoryAccess h r f) s = .next s) ∧
    (s.observerHeld h r.observer r.ctx = false → r.op = 0 → s.poisoned h r.addr = false → (s.core c).run.ctx = r.ctx → (s.core c).run.ra = none →
      (s.core c).run.s.length = 32 → r.tag % 32 ≠ 0 → Answers (.memoryAccess h r .clean) s fun t =>
        (t.core c).run.s = (s.core c).run.s.set (r.tag % 32) (BitVec.ofNat 64 (leNat (s.hubRead h r.addr 8))) ∧
        (t.core c).run.engines = (s.core c).run.engines ∧ t = { s with eps := t.eps, cores := t.cores, al := t.al }) ∧
    (s.observerHeld h r.observer r.ctx = false → r.op = 3 → r.data.length = 8 → Answers (.memoryAccess h r .clean) s fun t =>
      t.hubRead h r.addr 8 = r.data ∧
      (∀ a, (a < hubAddr h r.addr ∨ hubAddr h r.addr + 8 ≤ a) → Memory.get t.mem a = Memory.get s.mem a) ∧ t.regs = s.regs)

/-- R301, R302, R304, R305: patrol scrub moves on by one line, poisons a line that stays uncorrectable, and waits for a held
package; a due refresh is issued to a channel that has power; the temperatures of the twelve packages set HB_TEMP, HOT and
the packages held. R287, R288: an interval without violations clears the runs of the working lanes; a lane above the limit
for the third time is to leave 32 frames later; a lane that is lost is to leave too, unplanned, with its bank revised 5
frames later. -/
def Obligations.HubStaysSound : Prop :=
  (∀ (s : State) (h : Nat), s.regsWf = true → h < 16 →
      (∀ (f : LineFault) (g : List Nat), g = s.goodCh h (s.fget (R.HB_STATUS.ACTIVE_MAP h)) →
        (g.getD ((s.hub h).scrub / chanLines % max 1 g.length) 0) / 8 ∈ (s.hub h).held → exec (.patrolScrub h f) s = .next s) ∧
      ((s.hub h).held = [] → Answers (.patrolScrub h .clean) s fun t => (t.hub h).scrub =
          (if (s.hub h).scrub + 1 < (s.goodCh h (s.fget (R.HB_STATUS.ACTIVE_MAP h))).length * chanLines then (s.hub h).scrub + 1 else 0) ∧
        (t.hub h).poison = (s.hub h).poison ∧ t = { s with hubs := t.hubs }) ∧
      (∀ o n b, n = (s.hub h).scrub → b = s.fget (R.HB_STATUS.ACTIVE_MAP h) → n % chanLines % 16 ≠ 15 → (s.hub h).held = [] →
        s.physOffset h ((s.goodCh h b).getD (n / chanLines % max 1 (s.goodCh h b).length) 0)
          (15 * (n % chanLines / 16) + n % chanLines % 16) = some o →
        Answers (.patrolScrub h .uncorrectable) s fun t => t.poisoned h o = true ∧ t.mem = s.mem) ∧
      (∀ ch rank bank, ch < 96 → rank < 2 → bank < 16 → s.fget (R.HB_CHAN.STATE h ch) ≠ 2 →
        Answers (.refreshDue h ch rank bank) s fun t => t = { s with out := .refresh h ch rank bank :: s.out }) ∧
      (∀ temps : List Nat, temps.length = 12 → s.now % 16 = 0 → (s.hub h).waiting = [] → Answers (.tempRead h temps) s fun t =>
        t.fget (R.HB_TEMP.MAX_C h) = temps.foldl max 0 % 256 ∧ t.fbit (R.HB_STATUS.HOT h) = temps.any (95 < ·) ∧
        (∀ p, p < 12 → 105 < temps.getD p 0 → p ∈ (t.hub h).held) ∧
        (∀ p, p < 12 → temps.getD p 0 ≤ 100 → p ∉ (t.hub h).held) ∧
        t = { s with regs := t.regs, hubs := t.hubs, al := t.al, out := t.out })) ∧
  (∀ (s : State) (h : Nat), s.regsWf = true → h < 16 →
      (∀ rx tx : List Nat, s.now % 1000000 = 0 → (∀ k, rx.getD k 0 ≤ 1000 ∧ tx.getD k 0 ≤ 1000) →
        Answers (.laneMarginInterval h rx tx) s fun t =>
          (∀ k, k < 8 → bitAt (s.fget (R.HB_LINK.LANE_WORKING h)) k = true → kgetD (t.hub h).laneOver k 0 = 0) ∧
          t = { s with hubs := t.hubs }) ∧
      (∀ (rx tx : List Nat) (k : Nat), s.now % 1000000 = 0 → k < 8 → bitAt (s.fget (R.HB_LINK.LANE_WORKING h)) k = true →
        1000 < rx.getD k 0 → (∀ j, j ≠ k → rx.getD j 0 ≤ 1000 ∧ tx.getD j 0 ≤ 1000) → kgetD (s.hub h).laneOver k 0 = 2 →
        s.tt.changes = [] → Answers (.laneMarginInterval h rx tx) s fun t =>
          (∃ c ∈ t.tt.changes, c.pos = 144 + h ∧ c.wl = k ∧ c.n = s.now + 32 ∧ c.planned = true) ∧ t.mem = s.mem) ∧
      (∀ k, k < 8 → bitAt (s.fget (R.HB_LINK.LANE_WORKING h)) k = true →
        (∀ c ∈ s.tt.changes, ¬(c.pos = 144 + h ∧ c.wl = k)) → Answers (.laneLost h k) s fun t =>
        (∃ c ∈ t.tt.changes, c.pos = 144 + h ∧ c.wl = k ∧ c.n = s.now + 5 ∧ c.cause = 1 ∧ c.planned = false) ∧
        t.fget (R.HB_LINK.LANE_WORKING h) = s.fget (R.HB_LINK.LANE_WORKING h) ∧
        t.fget (R.HB_LINK.WIDTH h) = s.fget (R.HB_LINK.WIDTH h) ∧ t.mem = s.mem))

/-- R306, R308, R309: GO is remembered while a retirement is PENDING; a MOVE starts by giving up the memory above the new size,
the rest of memory staying; each copy that RATE has granted and no held package stops raises the watermark by a row, and the
last makes the new map the only one and takes the channel out of use. -/
def Obligations.ChannelRetires : Prop :=
  ∀ (s : State) (h : Nat), s.regsWf = true → h < 16 →
    (s.fget (R.HB_STATUS.RETIRE_STATE h) = 1 → Answers (.retireGo h) s fun t => (t.hub h).go = true ∧
      t = { s with hubs := t.hubs }) ∧
    (s.fget (R.HB_STATUS.RETIRE_STATE h) = 1 → ((s.hub h).go = true ∨ (s.hub h).retireAt + 60000000 ≤ s.now) →
      s.regionAbove h (s.hub h).newSize = false → Answers (.retireMoveStart h) s fun t =>
        t.fget (R.HB_STATUS.RETIRE_STATE h) = 2 ∧ t.populated h = (s.hub h).newSize % 2 ^ 44 ∧ t.fget (R.HB_WATERMARK.WM h) = 0 ∧
        (∀ a, Memory.get t.mem a = if hubAddr h (s.hub h).newSize ≤ a ∧ a < hubAddr h (s.populated h) then 0#8
          else Memory.get s.mem a) ∧ t = { s with regs := t.regs, mem := t.mem, hubs := t.hubs }) ∧
    (∀ f, s.fget (R.HB_STATUS.RETIRE_STATE h) = 2 → ((s.hub h).copyCredit < 256 ∨ s.copyHeld h = true) →
      exec (.retireRowCopy ⟨h, f⟩) s = .next s) ∧
    (s.fget (R.HB_STATUS.RETIRE_STATE h) = 2 → 256 ≤ (s.hub h).copyCredit → s.copyHeld h = false →
      s.fget (R.HB_WATERMARK.WM h) + 24576 < s.populated h →
      Answers (.retireRowCopy ⟨h, []⟩) s fun t => Sets s t [(R.HB_WATERMARK.WM h, s.fget (R.HB_WATERMARK.WM h) + 24576)] ∧
        (t.hub h).copyCredit = (s.hub h).copyCredit - 256 ∧ t = { s with regs := t.regs, hubs := t.hubs }) ∧
    (s.fget (R.HB_STATUS.RETIRE_STATE h) = 2 → 256 ≤ (s.hub h).copyCredit → s.copyHeld h = false →
      s.populated h ≤ s.fget (R.HB_WATERMARK.WM h) + 24576 →
      Answers (.retireRowCopy ⟨h, []⟩) s fun t => t.fget (R.HB_STATUS.RETIRE_STATE h) = 0 ∧
        t.fget (R.HB_STATUS.ACTIVE_MAP h) = 1 - s.fget (R.HB_STATUS.ACTIVE_MAP h) ∧
        t.fget (R.HB_CHAN.STATE h (s.fget (R.HB_STATUS.RETIRE_CH h))) = 2 ∧ t.fget (R.HB_WATERMARK.WM h) = 0 ∧ t.mem = s.mem)

/-- R311, R312, R313, R314: setting VALID, or a resync, of a window that R311 allows marks every page and no other byte; a page
is sent as 64 WRITE cells to the partner hub and its bit clears; a sync whose milestone belongs to another context sets
BAD_SYNC, one on a window whose partner is lost advances its milestone at once, any other is held, and one with nothing left
advances its milestone. -/
def Obligations.MirrorRuns : Prop :=
  ∀ (s : State) (h : Nat), s.regsWf = true → h < 16 →
    (∀ w, w < 16 → s.winOk h w = true →
      (Answers (.mirrorValidSet h w) s fun t => t.fget (R.HB_MIRROR0.VALID h w) = 1 ∧
        (∀ p, p < s.winPages h w → t.dirtyBit h w p = true) ∧
        (∀ a, (a < hubAddr h (s.winBitmap h w) ∨ hubAddr h (s.winBitmap h w) + ceilDiv (s.winPages h w) 8 ≤ a) →
          Memory.get t.mem a = Memory.get s.mem a) ∧ t = { s with regs := t.regs, mem := t.mem }) ∧
      (Answers (.mirrorResync h w) s fun t => t.fget (R.HB_MIRROR0.PARTNER_LOST h w) = 0 ∧
        (∀ p, p < s.winPages h w → t.dirtyBit h w p = true) ∧ t = { s with regs := t.regs, mem := t.mem })) ∧
    (∀ w, w < 16 → s.winOk h w = false → Answers (.mirrorValidSet h w) s fun t =>
      t.fget (R.HB_MIRROR0.VALID h w) = 1 ∧ t.fget (R.HB_STATUS.BAD_WINDOW h) = 1 ∧ t = { s with regs := t.regs }) ∧
    (∀ w p, w < 16 → p < 2 ^ 32 → s.mirrorWork h = [w * 2 ^ 32 + p] → (s.hub h).poison = [] → (s.hub h).held = [] → Memory.wf s.mem = true →
      s.now < (s.ep h).quietUntil → Answers (.mirrorPageSend ⟨h, []⟩) s fun t => t.dirtyBit h w p = false ∧
        (∃ os, (t.ep h).ort = (s.ep h).ort ++ os ∧ os.length = 64 ∧ ∀ o ∈ os, o.sent = none ∧ o.cell.typ = T.WRITE ∧
          o.cell.dst = 128 + 16 * (s.plane ^^^ 8) + h ∧ o.cell.ctx = s.fget (R.HB_MIRROR0.CONTEXT h w)) ∧
        kgetD (t.hub h).mirrorOut (w * 2 ^ 32 + p) 0 = kgetD (s.hub h).mirrorOut (w * 2 ^ 32 + p) 0 + 64) ∧
    (∀ ms ws, ms < 4096 → ws < 65536 → (s.hub h).syncs.length < 16 →
      (∀ i, i < 16 → bitAt ws i = true → s.fget (R.MS_INFO.OWNER h ms) = s.fget (R.HB_MIRROR0.CONTEXT h i) ∧
        s.fbit (R.HB_MIRROR0.PARTNER_LOST h i) = false) → Answers (.mirrorSync h ms ws) s fun t =>
        (∃ y, (t.hub h).syncs = (s.hub h).syncs ++ [y] ∧ y.ms = ms ∧ y.windows = ws ∧ y.status = ST.OK ∧ y.out = []) ∧
        t = { s with hubs := t.hubs }) ∧
    (∀ ms ws i, ms < 4096 → ws < 65536 → i < 16 → bitAt ws i = true →
      s.fget (R.MS_INFO.OWNER h ms) ≠ s.fget (R.HB_MIRROR0.CONTEXT h i) → Answers (.mirrorSync h ms ws) s fun t =>
        Sets s t [(R.HB_STATUS.BAD_SYNC h, 1)] ∧ t = { s with regs := t.regs }) ∧
    (∀ ms ws i, ms < 4096 → ws < 65536 → (s.hub h).syncs.length < 16 → i < 16 → bitAt ws i = true →
      (∀ j, j < 16 → bitAt ws j = true → s.fget (R.MS_INFO.OWNER h ms) = s.fget (R.HB_MIRROR0.CONTEXT h j)) →
      s.fbit (R.HB_MIRROR0.PARTNER_LOST h i) = true → Answers (.mirrorSync h ms ws) s fun t =>
        t.fget (R.MS_COUNT.COUNT h ms) = (s.fget (R.MS_COUNT.COUNT h ms) + 1) % 2 ^ 64 ∧
        (s.fget (R.MS_INFO.FIRST_STATUS h ms) = 0 → t.fget (R.MS_INFO.FIRST_STATUS h ms) = ST.LOST) ∧
        t = { s with regs := t.regs }) ∧
    (∀ y : Sync, (s.hub h).syncs = [y] → y.pages = [] → y.out = [] → y.status = ST.OK → y.ms < 4096 →
      Answers (.mirrorSyncComplete h) s fun t => (t.hub h).syncs = [] ∧
        Sets s t [(R.MS_COUNT.COUNT h y.ms, (s.fget (R.MS_COUNT.COUNT h y.ms) + 1) % 2 ^ 64)] ∧
        t = { s with regs := t.regs, hubs := t.hubs })

/-- R342, R343: every arithmetic instruction of the scalar engine writes s[d], or nothing when d is s0, and moves on by one
word; nothing else changes. -/
def Obligations.ScalarArithmetic : Prop :=
  ∀ (s : State) (c : Nat) (w : W64) (a b : W64) (d : Nat), d = (fmtS w).d → a = s.sv c (fmtS w).a →
    b = (if (fmtS w).i = 1 then (fmtS w).imm else s.sv c (fmtS w).b) →
    (Runs s c 2 0x00 w → Answers (.addS c w) s fun t => Computed s t c 2 ((s.core c).run.setS d (a + b))) ∧
    (Runs s c 2 0x01 w → Answers (.subS c w) s fun t => Computed s t c 2 ((s.core c).run.setS d (a - b))) ∧
    (Runs s c 2 0x02 w → Answers (.mulS c w) s fun t => Computed s t c 2 ((s.core c).run.setS d (a * b))) ∧
    (Runs s c 2 0x03 w → Answers (.mulhu c w) s fun t =>
      Computed s t c 2 ((s.core c).run.setS d (BitVec.ofNat 64 (a.toNat * b.toNat / 2 ^ 64)))) ∧
    (Runs s c 2 0x04 w → Answers (.andS c w) s fun t => Computed s t c 2 ((s.core c).run.setS d (a &&& b))) ∧
    (Runs s c 2 0x05 w → Answers (.orS c w) s fun t => Computed s t c 2 ((s.core c).run.setS d (a ||| b))) ∧
    (Runs s c 2 0x06 w → Answers (.xorS c w) s fun t => Computed s t c 2 ((s.core c).run.setS d (a ^^^ b))) ∧
    (Runs s c 2 0x07 w → Answers (.shl c w) s fun t => Computed s t c 2 ((s.core c).run.setS d (a <<< (b.toNat % 64)))) ∧
    (Runs s c 2 0x08 w → Answers (.shr c w) s fun t => Computed s t c 2 ((s.core c).run.setS d (a >>> (b.toNat % 64)))) ∧
    (Runs s c 2 0x09 w → Answers (.sra c w) s fun t =>
      Computed s t c 2 ((s.core c).run.setS d (BitVec.ofInt 64 (a.toInt / 2 ^ (b.toNat % 64))))) ∧
    (Runs s c 2 0x0A w → Answers (.minS c w) s fun t =>
      Computed s t c 2 ((s.core c).run.setS d (BitVec.ofInt 64 (min a.toInt b.toInt)))) ∧
    (Runs s c 2 0x0B w → Answers (.maxS c w) s fun t =>
      Computed s t c 2 ((s.core c).run.setS d (BitVec.ofInt 64 (max a.toInt b.toInt)))) ∧
    (Runs s c 2 0x0C w → Answers (.minu c w) s fun t =>
      Computed s t c 2 ((s.core c).run.setS d (BitVec.ofNat 64 (min a.toNat b.toNat)))) ∧
    (Runs s c 2 0x0D w → Answers (.maxu c w) s fun t =>
      Computed s t c 2 ((s.core c).run.setS d (BitVec.ofNat 64 (max a.toNat b.toNat)))) ∧
    (Runs s c 2 0x0E w → Answers (.divu c w) s fun t =>
      Computed s t c 2 ((s.core c).run.setS d (if b = 0 then BitVec.ofNat 64 (2 ^ 64 - 1) else BitVec.ofNat 64 (a.toNat / b.toNat)))) ∧
    (Runs s c 2 0x0F w → Answers (.remu c w) s fun t =>
      Computed s t c 2 ((s.core c).run.setS d (if b = 0 then a else BitVec.ofNat 64 (a.toNat % b.toNat)))) ∧
    (Runs s c 2 0x10 w → Answers (.seq c w) s fun t => Computed s t c 2 ((s.core c).run.setS d (if a = b then 1 else 0))) ∧
    (Runs s c 2 0x11 w → Answers (.slt c w) s fun t =>
      Computed s t c 2 ((s.core c).run.setS d (if a.toInt < b.toInt then 1 else 0))) ∧
    (Runs s c 2 0x12 w → Answers (.sltu c w) s fun t =>
      Computed s t c 2 ((s.core c).run.setS d (if a.toNat < b.toNat then 1 else 0))) ∧
    (Runs s c 2 0x13 w → Answers (.li c w) s fun t => Computed s t c 2 ((s.core c).run.setS d (fmtS w).imm)) ∧
    (Runs s c 2 0x14 w → Answers (.lih c w) s fun t => Computed s t c 2 ((s.core c).run.setS d
      (BitVec.ofNat 64 ((fmtS w).imm.toNat % 2 ^ 32 * 2 ^ 32 + a.toNat % 2 ^ 32))))

/-- R343, R344, R345, R366: branches, jumps, scratch accesses and the reads of system values; a target outside the code range
and a misplaced scratch access fault. -/
def Obligations.ScalarFlow : Prop :=
  ∀ (s : State) (c : Nat) (w : W64) (x : FS) (a b : W64) (k : Core) (pc len : Nat) (tgt : Int), s.regsWf = true → x = fmtS w →
    a = s.sv c x.a → b = s.sv c x.b → k = s.core c → pc = (s.eng c 2).pc → k.run.ctx < 64 → Memory.wf k.scratch = true →
    len = s.fget (R.CO_PART.CODE_LEN c k.run.ctx) → tgt = (pc : Int) + x.imm.toInt →
    (0 ≤ tgt → tgt < len →
      (Runs s c 2 0x18 w → Answers (.beq c w) s fun t => Branched s t c 2 (if a = b then tgt.toNat else pc + 1) k.run) ∧
      (Runs s c 2 0x19 w → Answers (.bne c w) s fun t => Branched s t c 2 (if a = b then pc + 1 else tgt.toNat) k.run) ∧
      (Runs s c 2 0x1A w → Answers (.blt c w) s fun t =>
        Branched s t c 2 (if a.toInt < b.toInt then tgt.toNat else pc + 1) k.run) ∧
      (Runs s c 2 0x1B w → Answers (.bge c w) s fun t =>
        Branched s t c 2 (if a.toInt < b.toInt then pc + 1 else tgt.toNat) k.run) ∧
      (Runs s c 2 0x1C w → Answers (.bltu c w) s fun t =>
        Branched s t c 2 (if a.toNat < b.toNat then tgt.toNat else pc + 1) k.run) ∧
      (Runs s c 2 0x1D w → Answers (.bgeu c w) s fun t =>
        Branched s t c 2 (if a.toNat < b.toNat then pc + 1 else tgt.toNat) k.run) ∧
      (Runs s c 2 0x1E w → Answers (.jal c w) s fun t =>
        Branched s t c 2 tgt.toNat (k.run.setS x.d (BitVec.ofNat 64 (pc + 1))))) ∧
    ((tgt < 0 ∨ len ≤ tgt) → Runs s c 2 0x1E w → Answers (.jal c w) s fun t => TookFault s t c 2 FC.FETCH_RANGE) ∧
    (Runs s c 2 0x1F w → a.toNat < 2 ^ 15 → a.toNat < len → Answers (.jr c w) s fun t => Branched s t c 2 a.toNat k.run) ∧
    (Runs s c 2 0x1F w → (2 ^ 15 ≤ a.toNat ∨ len ≤ a.toNat) → Answers (.jr c w) s fun t => TookFault s t c 2 FC.FETCH_RANGE) ∧
    (∀ off n, off = (a + x.imm).toNat → n = 2 ^ x.sz →
      (Runs s c 2 0x20 w → off % n ≠ 0 → Answers (.sld c w) s fun t => TookFault s t c 2 FC.SCRATCH_ALIGN) ∧
      (Runs s c 2 0x21 w → off % n = 0 → s.scratchLimit c k.run.ctx < off + n → Answers (.sst c w) s fun t =>
        TookFault s t c 2 FC.SCRATCH_RANGE) ∧
      (off % n = 0 → off + n ≤ s.scratchLimit c k.run.ctx →
        (Runs s c 2 0x20 w → Answers (.sld c w) s fun t => Fetched s t c 2
          (k.run.setS x.d (BitVec.ofNat 64 (leNat (Memory.read k.scratch (s.scratchAt c k.run.ctx off) n)))) off n) ∧
        (Runs s c 2 0x22 w → x.scope < 3 → Answers (.slda c w) s fun t => Fetched s t c 2
          (k.run.setS x.d (BitVec.ofNat 64 (leNat (Memory.read k.scratch (s.scratchAt c k.run.ctx off) n)))) off n) ∧
        (Runs s c 2 0x22 w → 3 ≤ x.scope → Answers (.slda c w) s fun t =>
          (∀ l ∈ (t.ep (c / 16)).cache, l.ctx ≠ k.run.ctx ∧ l ∈ (s.ep (c / 16)).cache) ∧
          (t.core c).run.s = (k.run.setS x.d
            (BitVec.ofNat 64 (leNat (Memory.read k.scratch (s.scratchAt c k.run.ctx off) n)))).s) ∧
        (Runs s c 2 0x21 w → Answers (.sst c w) s fun t => WentOn s t c 2 (pc + 1) k.run (t.core c).scratch ∧
          Stored s t c (s.scratchAt c k.run.ctx off) (leBytes b.toNat n) ∧ t = { s with cores := t.cores }) ∧
        (Runs s c 2 0x23 w → s.outstanding (c / 16) (obsOf c 2) k.run.ctx = [] → Answers (.sstr c w) s fun t =>
          WentOn s t c 2 (pc + 1) k.run (t.core c).scratch ∧
          Stored s t c (s.scratchAt c k.run.ctx off) (leBytes b.toNat n) ∧
          t.lostPending (c / 16) (obsOf c 2) k.run.ctx = false ∧ t.mem = s.mem) ∧
        (Runs s c 2 0x23 w → s.outstanding (c / 16) (obsOf c 2) k.run.ctx ≠ [] → Answers (.sstr c w) s fun t => t = s))) ∧
    (Runs s c 2 0x24 w → x.imm.toNat ≠ 3 → Answers (.rdsys c w) s fun t => Computed s t c 2 (k.run.setS x.d
      (match x.imm.toNat with
      | 0 => BitVec.ofNat 64 c
      | 1 => BitVec.ofNat 64 k.run.ctx
      | 2 => s.tb.frame
      | 4 => BitVec.ofNat 64 s.plane
      | 5 => BitVec.ofNat 64 s.rack
      | _ => BitVec.ofNat 64 (128 + 16 * s.plane + c / 16)))) ∧
    (Runs s c 2 0x24 w → x.imm.toNat = 3 → Answers (.rdsys c w) s fun t =>
      (∃ v : W64, v.toNat < 1000 ∧ WentOn s t c 2 (pc + 1) (k.run.setS x.d v) k.scratch) ∧
      (t.core c).asked = k.asked ∧ t = { s with cores := t.cores, free := s.free + 1 }) ∧
    (Runs s c 2 0x25 w → Answers (.rdstat c w) s fun t => Computed s t c 2
      (onEngine 2 (fun g => { g with lastStatus := 0 }) (k.run.setS x.d (BitVec.ofNat 64 (s.eng c 2).lastStatus))))

/-- R206, R208, R210, R346, R347, R348: a request of the scalar engine for a distant address that passes every check enters one
cell at the hub. R350, R351, R352: a DMA instruction whose range passes its checks starts one transfer, and one that has no
piece left completes and advances its milestone; a copy within scratch copies. -/
def Obligations.CoreRequests : Prop :=
  ∀ (s : State) (c : Nat) (w : W64), s.regsWf = true →
    (∀ (kind hint : Nat) (x : Xlat), s.now < (s.ep (c / 16)).quietUntil → s.fbit (R.EP_CTL.CACHE_EN (c / 16)) = false →
      (∀ v ∈ s.transEntries (c / 16), s.badEntry (c / 16) v = false) →
      s.check (c / 16) (s.qReq c w kind hint) = (ST.OK, some x) → x.ga / 2 ^ 44 % 1024 ≠ s.epId (c / 16) →
      (Runs s c 2 0x28 w → (s.eng c 2).wait = 0 → kind = 0 → hint = 0 → Answers (.ld c w) s fun t =>
        Requested s t c T.READ 0 true (fmtQ w).d) ∧
      (Runs s c 2 0x29 w → (s.eng c 2).wait = 0 → kind = 1 → hint = 0 → Answers (.ldv c w) s fun t =>
        Requested s t c T.READ 0 true (fmtQ w).d) ∧
      (Runs s c 2 0x2A w → kind = 2 → hint = 0 → Answers (.lda c w) s fun t => Requested s t c T.READ 1 true (fmtQ w).d) ∧
      (Runs s c 2 0x2C w → (s.eng c 2).wait = 0 → kind = 3 → hint = 0 → Answers (.st c w) s fun t =>
        Requested s t c T.WRITE 0 false 0) ∧
      (Runs s c 2 0x2D w → kind = 4 → hint = 0 → Answers (.str c w) s fun t => Requested s t c T.WRITE 5 false 0) ∧
      (Runs s c 2 0x30 w → (s.eng c 2).wait = 0 → kind = 5 → hint = 0 → Answers (.atm c w) s fun t =>
        Requested s t c T.ATOMIC 0 ((fmtQ w).f == 1) (fmtQ w).d) ∧
      (Runs s c 2 0x31 w → kind = 5 → hint = 1 → Answers (.atma c w) s fun t =>
        Requested s t c T.ATOMIC 1 ((fmtQ w).f == 1) (fmtQ w).d) ∧
      (Runs s c 2 0x32 w → kind = 5 → hint = 2 → Answers (.atmr c w) s fun t =>
        Requested s t c T.ATOMIC 5 ((fmtQ w).f == 1) (fmtQ w).d) ∧
      (Runs s c 2 0x34 w → (s.eng c 2).wait = 0 → kind = 6 → hint = 0 → Answers (.inval c w) s fun t =>
        Requested s t c T.INVALIDATE 0 false 0)) ∧
    (∀ (op : Nat) (i : Instr) (x : FD) (y : Xfer),
      ((op = 0xA0 ∧ i = .dmain c w) ∨ (op = 0xA1 ∧ i = .dmainv c w) ∨ (op = 0xA2 ∧ i = .dmaout c w) ∨ (op = 0xA3 ∧ i = .dmaadd c w)) →
      x = fmtD w → y = s.newXfer c op x → Runs s c 3 op w → y.scratch % 32 = y.addr % 32 →
      (op = 0xA3 → y.scratch % subWidth x.sub = 0) → y.scratch + y.len ≤ s.scratchLimit c y.ctx →
      s.dmaFull c = false → (∀ v ∈ s.transEntries (c / 16), s.badEntry (c / 16) v = false) →
      (s.xferXlat c y).isSome = true → Answers i s fun t => (t.eng c 3).pc = (s.eng c 3).pc + 1 ∧
        (t.core c).nextXfer = (s.core c).nextXfer + 1 ∧
        ∃ z ∈ (t.core c).xfers, z.id = (s.core c).nextXfer ∧ z.op = op ∧ z.addr = (s.xv c 3 x.xm).toNat ∧
          z.scratch = (s.xv c 3 x.xs).toNat ∧ z.len = x.len ∧ some z.ga = (s.lookup (c / 16) y.ctx y.addr).map (·.ga)) ∧
    (∀ (op : Nat) (i : Instr) (x : FD) (y : Xfer),
      ((op = 0xA0 ∧ i = .dmain c w) ∨ (op = 0xA1 ∧ i = .dmainv c w) ∨ (op = 0xA2 ∧ i = .dmaout c w) ∨ (op = 0xA3 ∧ i = .dmaadd c w)) →
      x = fmtD w → y = s.newXfer c op x → Runs s c 3 op w → y.scratch % 32 = y.addr % 32 →
      (op = 0xA3 → y.scratch % subWidth x.sub = 0) → y.scratch + y.len ≤ s.scratchLimit c y.ctx →
      16 ≤ (s.core c).xfers.length → (s.eng c 3).oldest = none → Answers i s fun t =>
        (t.eng c 3).oldest = (s.core c).xfers.head?.map (·.id) ∧ (t.eng c 3).pc = (s.eng c 3).pc ∧
        (t.core c).xfers = (s.core c).xfers ∧ t = { s with cores := t.cores }) ∧
    (∀ (x : Xfer) (m : Nat), c < 256 → s.fget (R.CO_STATUS.KIND c) = 0 → (s.core c).xfers.find? (·.id == x.id) = some x →
      x.len ≤ x.issued → x.open_ = 0 → x.status = ST.OK → x.cut = false → x.ms = some m → m < 4096 → x.ctx = (s.core c).run.ctx →
      Answers (.dmaTransferComplete c x.id) s fun t => (∀ y ∈ (t.core c).xfers, y.id ≠ x.id) ∧
        Sets s t [(R.MS_COUNT.COUNT (c / 16) m, (s.fget (R.MS_COUNT.COUNT (c / 16) m) + 1) % 2 ^ 64)] ∧
        t = { s with regs := t.regs, cores := t.cores }) ∧
    (∀ (x : FD) (a b n : Nat), x = fmtD w → a = (s.xv c 3 x.xm).toNat → b = (s.xv c 3 x.xs).toNat → n = x.len →
      Runs s c 3 0xA4 w → a + n ≤ s.scratchLimit c (s.core c).run.ctx → b + n ≤ s.scratchLimit c (s.core c).run.ctx →
      s.dmaFull c = false → s.scratchBusy c (s.core c).run.ctx (s.core c).nextXfer a n false = false →
      s.scratchBusy c (s.core c).run.ctx (s.core c).nextXfer b n true = false → Memory.wf (s.core c).scratch = true →
      (a = b ∨ a + n ≤ b ∨ b + n ≤ a) → Answers (.dmacp c w) s fun t =>
        (t.eng c 3).pc = (s.eng c 3).pc + 1 ∧ Stored s t c (s.scratchAt c (s.core c).run.ctx b)
          (Memory.read (s.core c).scratch (s.scratchAt c (s.core c).run.ctx a) n) ∧ t = { s with cores := t.cores })

/-- R320, R339, R353, R354, R355, R356: every instruction of the vector engine. Lane i of the result is what the rule gives for
that lane, as many bits as the format has; a stochastic instruction takes one value of the counter. -/
def Obligations.VectorInstructions : Prop :=
  ∀ (s : State) (c : Nat) (w : W64) (x : FVec) (f : Fmt) (r : RegSet) (off : Nat) (m : Nat → Mode) (va vb vc vd : Nat → Nat),
    x = fmtV w → f = laneFmt x.fmt → r = (s.core c).run → off = s.vOff c x → m = s.roundMode c 1 (x.sr == 1) →
    va = lane x.fmt (s.vv c x.va) → vb = lane x.fmt (s.vv c x.vb) → vc = lane x.fmt (s.vv c x.vc) →
    vd = lane x.fmt (s.vv c x.vd) → Memory.wf (s.core c).scratch = true →
    (∀ (op : Nat) (i : Instr) (g : Nat → Nat), Runs s c 1 op w →
      ((op = 0x48 ∧ i = .vadd c w ∧ g = fun k => f.encode (m k) false ((f.decode (va k)).add (f.decode (vb k)))) ∨
       (op = 0x49 ∧ i = .vsub c w ∧ g = fun k => f.encode (m k) false ((f.decode (va k)).add (f.decode (vb k)).neg)) ∨
       (op = 0x4A ∧ i = .vmul c w ∧ g = fun k => f.encode (m k) false ((f.decode (va k)).mul (f.decode (vb k)))) ∨
       (op = 0x4B ∧ i = .vfma c w ∧ g = fun k =>
          f.encode (m k) false (((f.decode (va k)).mul (f.decode (vb k))).add (f.decode (vc k)))) ∨
       (op = 0x4C ∧ i = .vmin c w ∧ g = fun k => f.fmin (va k) (vb k)) ∨
       (op = 0x4D ∧ i = .vmax c w ∧ g = fun k => f.fmax (va k) (vb k)) ∨
       (op = 0x4E ∧ i = .vsel c w ∧ g = fun k =>
          if f.isNan (va k) = false ∧ f.isNan (vb k) = false ∧ f.key (va k) < f.key (vb k) then vc k else vd k)) →
      Answers i s fun t => ∃ v, (∀ k, k < laneCount x.fmt → lane x.fmt v k = g k % 2 ^ f.w) ∧
        Computed s t c 1 (onEngine 1 (fun e => { e with n := e.n + (if x.sr = 1 then 1 else 0) }) { r with v := kset r.v x.vd v })) ∧
    (∀ (op : Nat) (i : Instr) (g : Nat → Nat), Runs s c 1 op w →
      ((op = 0x50 ∧ i = .vrcp c w ∧ g = rcp32) ∨ (op = 0x51 ∧ i = .vrsq c w ∧ g = rsq32) ∨ (op = 0x52 ∧ i = .vexp2 c w ∧ g = exp2f)) →
      Answers i s fun t => ∃ v, (∀ k, k < 64 → lane 0 v k = g (lane 0 (s.vv c x.va) k) % 2 ^ 32) ∧
        Computed s t c 1 { r with v := kset r.v x.vd v }) ∧
    (Runs s c 1 0x54 w → Answers (.vrsum c w) s fun t => ∃ v,
      lane x.fmt v 0 = treeSum f 7 ((List.range (laneCount x.fmt)).map va) % 2 ^ f.w ∧
      (∀ k, 0 < k → k < laneCount x.fmt → lane x.fmt v k = 0) ∧ Computed s t c 1 { r with v := kset r.v x.vd v }) ∧
    (Runs s c 1 0x55 w → Answers (.vrmax c w) s fun t => ∃ v,
      lane x.fmt v 0 = ((List.range (laneCount x.fmt - 1)).map fun k => va (k + 1)).foldl f.fmax (va 0) % 2 ^ f.w ∧
      (∀ k, 0 < k → k < laneCount x.fmt → lane x.fmt v k = 0) ∧ Computed s t c 1 { r with v := kset r.v x.vd v }) ∧
    (Runs s c 1 0x58 w → x.fmt ≠ 0 → x.vc ≠ 0 → Answers (.vcvt c w) s fun t => ∃ v,
      (∀ k, k < 128 → lane x.vc v k = (laneFmt x.vc).encode (m k) false (f.decode (va k)) % 2 ^ 16) ∧
      Computed s t c 1 (onEngine 1 (fun e => { e with n := e.n + (if x.sr = 1 then 1 else 0) }) { r with v := kset r.v x.vd v })) ∧
    (Runs s c 1 0x58 w → (x.fmt = 0 ∨ x.vc = 0) → Answers (.vcvt c w) s fun t => ∃ v,
      (∀ k, k < 64 → lane x.vc v k = (laneFmt x.vc).encode (m k) false
        (f.decode (va (if x.fmt ≠ 0 ∧ x.half = 1 then k + 64 else k))) % 2 ^ (laneFmt x.vc).w) ∧
      Computed s t c 1 (onEngine 1 (fun e => { e with n := e.n + (if x.sr = 1 then 1 else 0) }) { r with v := kset r.v x.vd v })) ∧
    (Runs s c 1 0x59 w → Answers (.vsplat c w) s fun t => ∃ v,
      (∀ k, k < laneCount x.fmt → lane x.fmt v k = if x.fmt = 0 then x.imm * 256 % 2 ^ 32 else x.imm % 2 ^ 16) ∧
      Computed s t c 1 { r with v := kset r.v x.vd v }) ∧
    (off % 32 = 0 →
      (Runs s c 1 0x40 w → off + (if x.half = 1 then 128 else 256) ≤ s.scratchLimit c r.ctx → Answers (.vld c w) s fun t =>
        Fetched s t c 1 { r with v := kset r.v x.vd (BitVec.ofNat 2048 (leNat
          (Memory.read (s.core c).scratch (s.scratchAt c r.ctx off) (if x.half = 1 then 128 else 256)))) }
          off (if x.half = 1 then 128 else 256)) ∧
      (Runs s c 1 0x41 w → off + f.w / 8 ≤ s.scratchLimit c r.ctx → Answers (.vldb c w) s fun t => ∃ v,
        (∀ k, k < laneCount x.fmt → lane x.fmt v k = leNat (Memory.read (s.core c).scratch (s.scratchAt c r.ctx off) (f.w / 8))) ∧
        Fetched s t c 1 { r with v := kset r.v x.vd v } off (f.w / 8)) ∧
      (Runs s c 1 0x42 w → off + (if x.half = 1 then 128 else 256) ≤ s.scratchLimit c r.ctx → Answers (.vst c w) s fun t =>
        Stored s t c (s.scratchAt c r.ctx off) (leBytes (s.vv c x.vd).toNat (if x.half = 1 then 128 else 256)) ∧
        (t.core c).run.v = r.v ∧ (t.eng c 1).pc = (s.eng c 1).pc + 1 ∧ t = { s with cores := t.cores })) ∧
    (off % 32 ≠ 0 → s.regsWf = true → r.ctx < 64 → Runs s c 1 0x40 w → Answers (.vld c w) s fun t =>
      TookFault s t c 1 FC.SCRATCH_ALIGN)

/-- R280, R317, R318, R319, R357, R358, R359: the matrix engine. MMA adds the groups of 32 steps one after the other, each
group's exact sum rounded once, and one that a quantum's end cut short resumes at its next group (R336); MZERO clears a
tile, MLOAD fills one, MOUT writes one and clears it when asked; the other tiles stay. -/
def Obligations.MatrixInstructions : Prop :=
  ∀ (s : State) (c : Nat) (w : W64) (x : FM) (k : Core) (a b : Nat), x = fmtM w → k = s.core c → krising k.run.acc = true → Memory.wf k.scratch = true →
    a = (s.xv c 0 x.xa).toNat → b = (s.xv c 0 x.xb).toNat →
    (∀ groups i0 n : Nat, i0 = (s.eng c 0).mmaAt → n = min groups (x.kg - i0) → Runs s c 0 0x80 w → pairOk x = true →
      a % 32 = 0 → b % 32 = 0 →
      a + operandBytes x.fa x.nsa x.kg ≤ s.scratchLimit c k.run.ctx → b + operandBytes x.fb x.nsb x.kg ≤ s.scratchLimit c k.run.ctx →
      Answers (.mma c ⟨w, groups⟩) s fun t =>
        (∀ i, i < 4096 → t.accAt c x.td i = ((List.range n).map (i0 + ·)).foldl (fun v g => fadd32 v (Fmt.fp32.encode .rne false
          (groupSum (blockVal (s.sget c (a + g * blockBytes x.fa x.nsa) (blockBytes x.fa x.nsa)) x.fa x.nsa)
            (blockVal (s.sget c (b + g * blockBytes x.fb x.nsb) (blockBytes x.fb x.nsb)) x.fb x.nsb) (i / 64) (i % 64))))
          (s.accAt c x.td i)) ∧
        (∀ d i, d ≠ x.td → i < 4096 → t.accAt c d i = s.accAt c d i) ∧ (t.core c).scratch = k.scratch ∧
        (t.eng c 0).pc = (s.eng c 0).pc + (if i0 + n < x.kg then 0 else 1) ∧
        (t.eng c 0).mmaAt = (if i0 + n < x.kg then i0 + n else 0) ∧ t = { s with cores := t.cores }) ∧
    (∀ groups : Nat, Runs s c 0 0x80 w → pairOk x = false → s.regsWf = true → k.run.ctx < 64 →
      Answers (.mma c ⟨w, groups⟩) s fun t => TookFault s t c 0 FC.BAD_FORMAT) ∧
    (Runs s c 0 0x81 w → Answers (.mzero c w) s fun t => (∀ i, i < 4096 → t.accAt c x.td i = 0) ∧
      (∀ d i, d ≠ x.td → i < 4096 → t.accAt c d i = s.accAt c d i) ∧ (t.eng c 0).pc = (s.eng c 0).pc + 1 ∧
      (t.core c).scratch = k.scratch ∧ t = { s with cores := t.cores }) ∧
    (Runs s c 0 0x82 w → a % 32 = 0 → a + (512 * typeWidth x.fa + (if isMx x.fa = true then 128 else 0)) ≤ s.scratchLimit c k.run.ctx →
      Answers (.mout c w) s fun t => Stored s t c (s.scratchAt c k.run.ctx a) (s.tileOut c x) ∧
        (∀ d i, i < 4096 → t.accAt c d i = if d = x.td ∧ x.clr = 1 then 0 else s.accAt c d i) ∧
        (t.eng c 0).pc = (s.eng c 0).pc + 1 ∧ t = { s with cores := t.cores }) ∧
    (Runs s c 0 0x83 w → a % 32 = 0 → a + 16384 ≤ s.scratchLimit c k.run.ctx → Answers (.mload c w) s fun t =>
      (∀ i, i < 4096 → t.accAt c x.td i = field (Memory.read k.scratch (s.scratchAt c k.run.ctx a) 16384) (4 * i) 4) ∧
      (∀ d i, d ≠ x.td → i < 4096 → t.accAt c d i = s.accAt c d i) ∧ (t.core c).scratch = k.scratch ∧
      (t.eng c 0).pc = (s.eng c 0).pc + 1 ∧ t = { s with cores := t.cores })

/-- R342, R345, R360, R361, R362, R363, R366: the index, synchronisation and control instructions, and the three faults of a
word that an engine fetches and cannot execute. -/
def Obligations.IndexAndSync : Prop :=
  ∀ (s : State) (c e : Nat) (w : W64) (r : RegSet) (pc len h : Nat) (tgt : Int), s.regsWf = true → r = (s.core c).run → r.ra = none →
    pc = (s.eng c e).pc → r.ctx < 64 → len = s.fget (R.CO_PART.CODE_LEN c r.ctx) → tgt = (pc : Int) + (fmtX w).imm.toInt → h = c / 16 →
    (Runs s c e 0xE0 w → Answers (.xli c e w) s fun t =>
      Computed s t c e (onEngine e (fun g => { g with x := g.x.set (fmtX w).d (fmtX w).imm }) r)) ∧
    (Runs s c e 0xE1 w → Answers (.xadd c e w) s fun t =>
      Computed s t c e (onEngine e (fun g => { g with x := g.x.set (fmtX w).d (s.xv c e (fmtX w).a + (fmtX w).imm) }) r)) ∧
    (Runs s c e 0xE6 w → Answers (.xlih c e w) s fun t => Computed s t c e (onEngine e (fun g => { g with
      x := g.x.set (fmtX w).d (BitVec.ofNat 64 ((fmtX w).imm.toNat % 2 ^ 32 * 2 ^ 32 + (s.xv c e (fmtX w).a).toNat % 2 ^ 32)) }) r)) ∧
    (Runs s c e 0xE5 w → Answers (.xstat c e w) s fun t => Computed s t c e (onEngine e (fun g => { g with
      x := g.x.set (fmtX w).d (BitVec.ofNat 64 (s.eng c e).lastStatus), lastStatus := 0 }) r)) ∧
    (0 ≤ tgt → tgt < len →
      (Runs s c e 0xE4 w → Answers (.xjmp c e w) s fun t => Branched s t c e tgt.toNat r) ∧
      (Runs s c e 0xE2 w → Answers (.xbnz c e w) s fun t =>
        Branched s t c e (if s.xv c e (fmtX w).a = 0 then pc + 1 else tgt.toNat) r) ∧
      (Runs s c e 0xE3 w → Answers (.xloop c e w) s fun t =>
        Branched s t c e (if s.xv c e (fmtX w).a = 1 then pc + 1 else tgt.toNat)
          (onEngine e (fun g => { g with x := g.x.set (fmtX w).a (s.xv c e (fmtX w).a - 1) }) r))) ∧
    (Runs s c e 0xC7 w → Answers (.nop c e w) s fun t => Computed s t c e r) ∧
    (Runs s c e 0xC5 w → Answers (.step c e w) s fun t => Computed s t c e (onEngine e (fun g => { g with stepEnd := true }) r)) ∧
    (∀ j g, j < 4 → j ≠ e → r.engines[j]? = some g → g.stopped = false → Runs s c e 0xC6 w → Answers (.endE c e w) s fun t =>
      Computed s t c e (onEngine e (fun g => { g with stopped := true }) r)) ∧
    ((∀ j g, j ≠ e → r.engines[j]? = some g → g.stopped = true) → Runs s c e 0xC6 w → Answers (.endE c e w) s fun t =>
      t.fget (R.CO_KSTATE.STATE c r.ctx) = KS.ENDED ∧ (∀ g ∈ (t.core c).run.engines, g.stopped = true) ∧ t.mem = s.mem) ∧
    (Runs s c e 0xC0 w → (fmtY w).keep = 1 → s.outstanding h (obsOf c e) r.ctx = [] → (e = 3 → s.xferIds c r.ctx false = []) →
      s.lostPending h (obsOf c e) r.ctx = false → Answers (.fence c e w) s fun t => (t.eng c e).pc = pc + 1 ∧ (t.eng c e).wait = 0 ∧
        (∀ f ∈ (t.ep h).fences, f ∈ (s.ep h).fences) ∧ t.mem = s.mem) ∧
    (Runs s c e 0xC0 w → s.outstanding h (obsOf c e) r.ctx ≠ [] → Answers (.fence c e w) s fun t => (t.eng c e).pc = pc + 1 ∧
      (t.eng c e).wait = 3 ∧ (∃ f, (t.ep h).fences = (s.ep h).fences ++ [f] ∧ f.kind = 0 ∧ f.scope = (fmtY w).scope ∧
        f.covers = s.outstanding h (obsOf c e) r.ctx) ∧ t = { s with eps := t.eps, cores := t.cores }) ∧
    (∀ i : Instr, (i = .tsig c e w ∧ Runs s c e 0xC1 w ∨ i = .twait c e w ∧ Runs s c e 0xC2 w) →
      s.tokenBusy c e (fmtY w).token = true → exec i s = .next s) ∧
    (Runs s c e 0xC1 w → s.tokenBusy c e (fmtY w).token = false → (e = 3 → s.xferIds c r.ctx true = []) → Answers (.tsig c e w) s fun t => (t.eng c e).pc = pc + 1 ∧
      kgetD (t.core c).run.tokens (fmtY w).token 0 = (kgetD r.tokens (fmtY w).token 0 + (fmtY w).count) % 65536 ∧
      t = { s with eps := t.eps, cores := t.cores }) ∧
    (∀ g, g = ((fmtY w).imm16 + (if e = 2 then s.sv c (fmtY w).reg else s.xv c e ((fmtY w).reg % 4)).toNat) % 65536 → Runs s c e 0xC2 w →
      s.tokenBusy c e (fmtY w).token = false →
      (tokenMet (kgetD r.tokens (fmtY w).token 0) g = true → Answers (.twait c e w) s fun t => Computed s t c e r) ∧
      (tokenMet (kgetD r.tokens (fmtY w).token 0) g = false → Answers (.twait c e w) s fun t => Computed s t c e
        (onEngine e (fun y => { y with wait := 4, waitToken := (fmtY w).token, waitTarget := g }) r))) ∧
    (∀ g, g = (if e = 2 then s.sv c (fmtY w).reg else s.xv c e ((fmtY w).reg % 4)).toNat → Runs s c e 0xC3 w →
      (s.fget (R.MS_INFO.OWNER h (fmtY w).ms) ≠ r.ctx → Answers (.mswait c e w) s fun t =>
        Computed s t c e (onEngine e (noteStatus ST.DENIED) r)) ∧
      (s.fget (R.MS_INFO.OWNER h (fmtY w).ms) = r.ctx → (s.ep h).waits.length < 256 → g ≤ s.fget (R.MS_COUNT.COUNT h (fmtY w).ms) →
        (fmtY w).keep = 1 → Answers (.mswait c e w) s fun t => Computed s t c e r) ∧
      (s.fget (R.MS_INFO.OWNER h (fmtY w).ms) = r.ctx → (s.ep h).waits.length < 256 → s.fget (R.MS_COUNT.COUNT h (fmtY w).ms) < g →
        Answers (.mswait c e w) s fun t => (t.eng c e).wait = 2 ∧ (t.eng c e).pc = pc + 1 ∧
          (∃ y, (t.ep h).waits = (s.ep h).waits ++ [y] ∧ y.ms = (fmtY w).ms ∧ y.target = g ∧ y.issued = s.now ∧
            y.deadline = (fmtY w).imm16) ∧ t = { s with eps := t.eps, cores := t.cores })) ∧
    (Runs s c e 0xC4 w → s.fget (R.MS_INFO.OWNER h (fmtY w).ms) = r.ctx → s.outstanding h (obsOf c e) r.ctx = [] →
      (e = 3 → s.xferIds c r.ctx false = []) → s.lostPending h (obsOf c e) r.ctx = false → (s.ep h).waits = [] →
      Answers (.msadd c e w) s fun t => (t.eng c e).pc = pc + 1 ∧
        Sets s t [(R.MS_COUNT.COUNT h (fmtY w).ms, (s.fget (R.MS_COUNT.COUNT h (fmtY w).ms) + (fmtY w).count) % 2 ^ 64)] ∧
        t.mem = s.mem) ∧
    (s.mayIssue { c := c, e := e, op := 0xC7, w := w } = true → s.ahead c e = false →
      (len ≤ pc → Answers (.nop c e w) s fun t => TookFault s t c e FC.FETCH_RANGE) ∧
      (pc < len → s.fetched c e = w → classOk e (opOf w) = false → Answers (.nop c e w) s fun t => TookFault s t c e FC.WRONG_ENGINE) ∧
      (pc < len → s.fetched c e = w → classOk e (opOf w) = true → wordOk e w = false → Answers (.nop c e w) s fun t =>
        TookFault s t c e FC.ILLEGAL))

/-- R331, R332, R334, R337: at ACLK 600 the next frame's kind and context are fixed: idle on a halted core, the named started
kernel, or else a started opportunistic one, and its register set is loaded. A reserved quantum that ends short of step end
is an overrun. R369, R370, R371, R387: a CONTEXT_CREATE that passes makes its context ACTIVE, owner of its milestones on its
hubs, with its records standing there; CONTEXT_SCRUB stops the context's work and waits; when nothing of it is outstanding
the context is zeroed and free. -/
def Obligations.ContextsAndQuanta : Prop :=
  (∀ (s : State) (c : Nat), s.regsWf = true → c < 256 → (s.core c).standby = none → (s.core c).resetDue = 0 →
      (s.core c).run.ctx < 64 →
      (s.fbit (R.CO_POWER.HALT c) = true → Answers (.quantumSchedule c) s fun t =>
        Sets s t [(R.CO_STATUS.NEXT_KIND c, 0), (R.CO_STATUS.NEXT_CONTEXT c, (s.core c).run.ctx)] ∧
        (t.core c).run = (s.core c).run ∧ t = { s with regs := t.regs, cores := t.cores }) ∧
      (∀ e ∈ s.coreEntries (s.activeBank 0), s.fbit (R.CO_POWER.HALT c) = false → s.unitInReset 1 c = false → e.core = c →
        (s.now + 1) % 2 ^ e.plog = e.phase →
        (∀ d ∈ s.coreEntries (s.activeBank 0), d.core = c → (s.now + 1) % 2 ^ d.plog = d.phase → d = e) →
        s.startedKind c e.ctx 0 = true → e.ctx < 64 → e.ctx ≠ (s.core c).run.ctx → Answers (.quantumSchedule c) s fun t =>
          Sets s t [(R.CO_STATUS.NEXT_KIND c, 1), (R.CO_STATUS.NEXT_CONTEXT c, e.ctx), (R.CO_STATUS.STANDBY_CONTEXT c, e.ctx),
            (R.CO_STATUS.STANDBY_VALID c, 1)] ∧
          (t.core c).standby = some (kgetD (s.core c).saved e.ctx { ctx := e.ctx }) ∧ (t.core c).run = (s.core c).run ∧
          t = { s with regs := t.regs, cores := t.cores }) ∧
      (∀ x, s.fbit (R.CO_POWER.HALT c) = false → s.unitInReset 1 c = false → s.fbit (R.CO_POWER.OPP_STOP c) = false →
        (∀ d ∈ s.coreEntries (s.activeBank 0), d.core = c → (s.now + 1) % 2 ^ d.plog ≠ d.phase) → x < 64 →
        (∀ y, y < 64 → (s.startedKind c y 1 = true ↔ y = x)) → x ≠ (s.core c).run.ctx → Answers (.quantumSchedule c) s fun t =>
          Sets s t [(R.CO_STATUS.NEXT_KIND c, 2), (R.CO_STATUS.NEXT_CONTEXT c, x), (R.CO_STATUS.STANDBY_CONTEXT c, x),
            (R.CO_STATUS.STANDBY_VALID c, 1)] ∧ t = { s with regs := t.regs, cores := t.cores }) ∧
      (∀ x : Start, s.fget (R.CO_STATUS.KIND c) = 1 → (∃ g ∈ (s.core c).run.engines, g.stopped = false ∧ g.stepEnd = false) →
        s.fget (R.CO_STATS.OVERRUN c) + 1 < 2 ^ 16 → s.kern.starts = [x] → x.ctx = (s.core c).run.ctx → c ∈ x.cores →
        kget x.ended c = none → Answers (.quantumOverrun c) s fun t =>
          Sets s t [(R.CO_STATS.OVERRUN c, s.fget (R.CO_STATS.OVERRUN c) + 1)] ∧
          t.kern.starts = [{ x with overruns := x.overruns + 1 }] ∧ t = { s with regs := t.regs, al := t.al, kern := t.kern })) ∧
  (∀ s : State, s.regsWf = true →
      (∀ (r : CmdReq) (p : List Byte), p = r.payload → r.ctx < 64 → Fresh s r → s.createStatus r.ctx p = ST.OK →
        Answers (.contextCreate r) s fun t => Done t r ST.OK 0 [] ∧ t.ctxState r.ctx = 1 ∧
          t.fget (R.CP_CTX.PARTITION r.ctx) = field p 0 1 ∧ t.fget (R.CP_CTX.HUB_MASK r.ctx) = field p 2 2 ∧
          t.fget (R.CP_CTX.INST_QUOTA r.ctx) = field p 4 2 ∧
          (∀ h ∈ bitList (field p 2 2) 16,
            (∀ m, field p 6 2 ≤ m → m < field p 6 2 + field p 8 2 → t.fget (R.MS_INFO.OWNER h m) = r.ctx) ∧
            ∀ i, i < field p 10 1 → ∃ n, n < 4096 ∧ t.fbit (R.TRANS0.VALID h n) = true ∧ t.fget (R.TRANS0.CONTEXT h n) = r.ctx ∧
              (t.reg (R.TRANS1.addr h n)).toNat = field p (16 + 32 * i + 8) 8 / 4096 * 4096 ∧
              (t.reg (R.TRANS2.addr h n)).toNat = field p (16 + 32 * i + 16) 8 / 4096 * 4096) ∧
          t = { s with regs := t.regs, kern := t.kern, host := t.host, out := t.out, sw := s.fed t }) ∧
      (∀ r : CmdReq, Fresh s r → s.createStatus r.ctx r.payload ≠ ST.OK → Answers (.contextCreate r) s fun t =>
        Done t r (s.createStatus r.ctx r.payload) 0 [] ∧ t = { s with host := t.host, out := t.out, sw := s.fed t }) ∧
      (∀ r : CmdReq, Fresh s r → r.ctx ≠ 0 → r.ctx < 64 → s.ctxState r.ctx = 1 → s.rd.insts = [] →
        Answers (.contextScrub r) s fun t => Pends s t r 0 ∧ t.ctxState r.ctx = 2 ∧
          (t.ctxRec r.ctx).scrub = some (1, r.owner, r.tag) ∧
          (∀ c, c < 256 → s.fget (R.CO_KSTATE.STATE c r.ctx) = KS.STARTED → (r.ctx, 3, 0) ∈ (t.core c).stops) ∧
          (∀ k, k < 1024 → s.fget (R.HE_MR0.CONTEXT k) = r.ctx → t.fbit (R.HE_MR0.VALID k) = false) ∧
          t = { s with regs := t.regs, cores := t.cores, kern := t.kern, host := t.host, out := t.out, sw := s.fed t }) ∧
      (∀ r : CmdReq, Fresh s r → r.ctx = 0 → Answers (.contextScrub r) s fun t => Done t r ST.BAD_PARAM 0 [] ∧
        t = { s with host := t.host, out := t.out, sw := s.fed t }) ∧
      (∀ (ctx n owner tag : Nat), ctx ≠ 0 → ctx < 64 → s.ctxState ctx = 2 → (s.ctxRec ctx).scrub = some (n, owner, tag) →
        s.scrubDrained ctx = true → (∀ e, e < 17 → ∀ w ∈ (s.ep e).waits, w.core < 256) → Answers (.scrubDrainDone ctx) s fun t => Completed s t owner tag ST.OK 0 [] ∧
          t.ctxState ctx = 0 ∧ (t.ctxRec ctx).records = [] ∧ t.fget (R.TB_CTX_OVER.COUNT ctx) = 0 ∧
          (∀ c, c < 256 → t.fbit (R.CO_PART.VALID c ctx) = false) ∧
          (∀ e m, e < 17 → m < 4096 → s.fget (R.MS_INFO.OWNER e m) = ctx →
            t.fget (R.MS_INFO.OWNER e m) = 0 ∧ t.fget (R.MS_COUNT.COUNT e m) = 0) ∧
          (∀ e n, e < 17 → n < 4096 → t.fbit (R.TRANS0.VALID e n) = true → t.fget (R.TRANS0.CONTEXT e n) ≠ ctx) ∧
          t.mem = s.mem))

/-- R374, R375, R376, R503: a KERNEL_LOAD is measured, then loads every named core or is refused with the status of its first
failing check. R381, R384, R385: KERNEL_START starts every named core from its parameters and waits for the kernel's end;
KERNEL_STOP marks the started ones, and with UNLOAD waits for the release of each; the start completes with how the kernel
ended. -/
def Obligations.KernelsRun : Prop :=
  (∀ (s : State) (r : CmdReq) (l : LoadPlan) (h mask : Nat) (st : Nat × Nat), s.regsWf = true → Fresh s r → r.ctx < 64 →
      l = s.loadPlan r.payload → h = field r.payload 2 1 → mask = field r.payload 4 2 → st = s.loadStatus r.ctx r.payload l →
      (∀ x, s.ctxRefusal r.ctx = some x → Answers (.kernelLoad r) s fun t => Done t r x 0 [] ∧
        t.si.kernelCount = s.si.kernelCount + 1 ∧ t = { s with si := t.si, host := t.host, out := t.out, sw := s.fed t }) ∧
      (s.ctxRefusal r.ctx = none → st.1 ≠ ST.OK → Answers (.kernelLoad r) s fun t => TagDone t r.owner r.tag st.1 st.2 [] ∧
        Replied t r ST.PENDING 0 [] ∧ t.si.kernelCount = s.si.kernelCount + 1 ∧
        t = { s with si := t.si, host := t.host, out := t.out, sw := s.fed t, free := t.free }) ∧
      (s.ctxRefusal r.ctx = none → st.1 = ST.OK → (∀ x ∈ s.kern.loads, x.hub < 16 ∧ ∀ n ∈ x.trans, n < 4096) →
        (∀ c, Memory.wf (s.core c).scratch = true) → Answers (.kernelLoad r) s fun t =>
          (∃ b, TagDone t r.owner r.tag ST.OK 0 b ∧ b.length = 8) ∧ Replied t r ST.PENDING 0 [] ∧
          t.si.kernelCount = s.si.kernelCount + 1 ∧
          t.si.kernelLog = leNat (sha3 (leBytes s.si.kernelLog 64 ++ [BitVec.ofNat 8 r.ctx] ++ sha3 r.payload)) ∧
          (∀ c ∈ maskCores h mask, t.fget (R.CO_KSTATE.STATE c r.ctx) = KS.LOADED ∧ t.fget (R.CO_KSTATE.STD c r.ctx) = l.std ∧
            t.fbit (R.CO_KSTATE.KIND c r.ctx) = !l.reserved ∧ t.fbit (R.CO_PART.VALID c r.ctx) = true ∧
            t.fbit (R.CO_PART.ACC_LIVE c r.ctx) = l.accLive ∧
            Memory.read (t.core c).scratch (16384 * t.fget (R.CO_PART.BASE c r.ctx)) l.img.init.length = l.img.init) ∧
          (∃ x ∈ t.kern.loads, x.ctx = r.ctx ∧ x.std = l.std ∧ x.cores = maskCores h mask) ∧
          t = { s with regs := t.regs, cores := t.cores, kern := t.kern, si := t.si, host := t.host, out := t.out, sw := s.fed t, free := t.free })) ∧
  (∀ s : State, s.regsWf = true →
      (∀ (r : CmdReq) (p : List Byte) (l : List Nat), p = r.payload → l = maskCores (field p 0 1) (field p 2 2) → Fresh s r →
        r.ctx < 64 → s.ctxRefusal r.ctx = none → s.startStatus r.ctx p = ST.OK → Answers (.kernelStart r) s fun t =>
          Pends s t r 0 ∧ (∀ c ∈ l, t.fget (R.CO_KSTATE.STATE c r.ctx) = KS.STARTED) ∧
          t.kern.starts = s.kern.starts ++ [{ owner := r.owner, tag := r.tag, ctx := r.ctx, cores := l }] ∧
          (field p 1 1 = 0 → ∀ c ∈ l, t.fget (R.CO_KSTATE.FRAMES c r.ctx) = 0 ∧
            (∀ e, e < 4 → t.lostPending (c / 16) (obsOf c e) r.ctx = false) ∧
            (∀ k, s.loadOn c r.ctx = some k → (s.core c).run.ctx = r.ctx → ∃ seed,
              (t.core c).run = startSet r.ctx p k.entries (k.std != 0) seed)) ∧
          (field p 1 1 = 1 → ∀ c, (t.core c).run = (s.core c).run ∧ (t.core c).saved = (s.core c).saved) ∧
          t = { s with regs := t.regs, cores := t.cores, eps := t.eps, kern := t.kern, host := t.host, out := t.out, sw := s.fed t, free := t.free }) ∧
      (∀ r : CmdReq, Fresh s r → s.ctxRefusal r.ctx = none → s.startStatus r.ctx r.payload ≠ ST.OK →
        Answers (.kernelStart r) s fun t => Done t r (s.startStatus r.ctx r.payload) 0 [] ∧
          t = { s with host := t.host, out := t.out, sw := s.fed t }) ∧
      (∀ (r : CmdReq) (p : List Byte) (l : List Nat), p = r.payload → l = maskCores (field p 0 1) (field p 2 2) → Fresh s r →
        s.ctxRefusal r.ctx = none → p.length = 8 → field p 0 1 < 16 → l ≠ [] →
        (∀ c ∈ l, s.fget (R.CO_KSTATE.STATE c r.ctx) ≠ 0) →
        (field p 1 1 = 0 → Answers (.kernelStop r) s fun t => Done t r ST.OK 0 [] ∧
          (∀ c ∈ l, s.fget (R.CO_KSTATE.STATE c r.ctx) = KS.STARTED → (r.ctx, 2, 0) ∈ (t.core c).stops) ∧
          (∀ c, c ∉ l → t.core c = s.core c) ∧ t = { s with cores := t.cores, host := t.host, out := t.out, sw := s.fed t }) ∧
        (field p 1 1 = 1 → Answers (.kernelStop r) s fun t => Pends s t r 0 ∧
          (∀ c ∈ l, s.fget (R.CO_KSTATE.STATE c r.ctx) = KS.STARTED → (r.ctx, 2, 0) ∈ (t.core c).stops) ∧
          t.kern.unloads = s.kern.unloads ++ l.map (fun c => (r.ctx, c, r.owner, r.tag)) ∧
          t = { s with cores := t.cores, kern := t.kern, host := t.host, out := t.out, sw := s.fed t })) ∧
      (∀ (ctx c owner tag : Nat), s.kern.unloads = [(ctx, c, owner, tag)] → s.fget (R.CO_KSTATE.STATE c ctx) ≠ KS.STARTED →
        s.coreDrained c ctx = true → Answers (.unloadDone ctx c) s fun t => Completed s t owner tag ST.OK 0 [] ∧
          t.kern.unloads = [] ∧ t.fbit (R.CO_PART.VALID c ctx) = false ∧
          (s.fbit (R.CO_PART.VALID c ctx) = true → ∀ a, 16384 * s.fget (R.CO_PART.BASE c ctx) ≤ a →
            a < 16384 * (s.fget (R.CO_PART.BASE c ctx) + s.fget (R.CO_PART.UNITS c ctx)) →
            Memory.get (t.core c).scratch a = Memory.get [] a) ∧
          t = { s with regs := t.regs, cores := t.cores, kern := t.kern, host := t.host, out := t.out, sw := s.fed t }) ∧
      (∀ (x : Start) (c how : Nat), s.kern.starts = [x] → c ∈ x.cores → (∀ d ∈ x.cores, kget x.ended d ≠ none) →
        (∀ e ∈ x.ended, e.2 = how) → how < 4 → Answers (.kernelEnd x.ctx c) s fun t => t.kern.starts = [] ∧
          (∃ b, Completed s t x.owner x.tag (if how = 1 then ST.BAD_PARAM else if how = 3 then ST.POISON else ST.OK) 0 b ∧
            b.length = 24 ∧ field b 0 1 = how ∧ field b 8 8 = x.frames % 2 ^ 64 ∧ field b 16 4 = x.overruns % 2 ^ 32) ∧
          t = { s with kern := t.kern, host := t.host, out := t.out, sw := s.fed t }))

/-- R389, R390: a ring kernel serves the record that carries its number plus one, releases its status and that number to the
record's FLAG, and turns to the next of its own; a slot whose record has not come changes nothing; an optimizer core does
the batch its milestone has reached, an element's weight, m, v and bf16 weight become what the rule gives and its milestone
counts the batch; it waits while the batch has not come, and ends after the last. -/
def Obligations.StandardKernelsRun : Prop :=
  ∀ (s : State) (c ctx : Nat) (l : Load), s.loadOn c ctx = some l →
    (∀ n, 2 ≤ l.std → s.stdRuns c ctx l.std = true → n = kgetD (s.core c).ringNext ctx (rankIn c l) →
      (s.kRead (c / 16) ctx (((ringOf l.std l.params).1 + n % (ringOf l.std l.params).2 * 64) % 2 ^ 64) 64).st = ST.OK →
      field (s.kRead (c / 16) ctx (((ringOf l.std l.params).1 + n % (ringOf l.std l.params).2 * 64) % 2 ^ 64) 64).bytes 0 8 =
        n + 1 → Answers (.ringRequest c ctx) s fun t => kgetD (t.core c).ringNext ctx 0 = n + l.cores.length ∧
          (∀ k, k ≠ c → (t.core k).ringNext = (s.core k).ringNext)) ∧
    (∀ (n h va o : Nat) (rec_ : List Byte), h = c / 16 → 2 ≤ l.std → s.stdRuns c ctx l.std = true →
      n = kgetD (s.core c).ringNext ctx (rankIn c l) →
      va = ((ringOf l.std l.params).1 + n % (ringOf l.std l.params).2 * 64) % 2 ^ 64 → OwnBytes s h ctx va 64 o →
      rec_ = s.hubRead h o 64 →
      (field rec_ 0 8 ≠ n + 1 → exec (.ringRequest c ctx) s = .next s) ∧
      (∀ f, field rec_ 0 8 = n + 1 → OwnBytes s h ctx (field rec_ (flagAt l.std) 8) 8 f → Memory.wf s.mem = true →
        (∀ w, w < 16 → s.winLive h w = false) → Answers (.ringRequest c ctx) s fun t =>
          kgetD (t.core c).ringNext ctx 0 = n + l.cores.length ∧
          ∃ st ∈ [ST.OK, ST.BAD_PARAM, ST.POISON], Released t h (field rec_ (flagAt l.std) 8) f
            (leBytes (st * 2 ^ 48 + (n + 1) % 2 ^ 48) 8))) ∧
    (∀ (b : List Byte) (n h i g w m v o rg rw rm rv : Nat) (x : Nat × Nat × Nat), l.std = 1 → b = l.params → h = c / 16 →
      s.stdRuns c ctx 1 = true → n = kgetD (s.core c).batch ctx 0 → rankIn c l ≠ 0 → n + 1 < field b 44 4 →
      field b 56 8 + (n + 1) * field b 40 4 / 32 ≤ s.fget (R.MS_COUNT.COUNT h (field b 48 2)) →
      field b 40 4 / l.cores.length = 1 → bitAt (field b 92 1) 0 = false → i = n * field b 40 4 + rankIn c l →
      OwnBytes s h ctx ((field b 0 8 + i * 2) % 2 ^ 64) 2 g → OwnBytes s h ctx ((field b 8 8 + i * 4) % 2 ^ 64) 4 w →
      OwnBytes s h ctx ((field b 16 8 + i * 2) % 2 ^ 64) 2 m → OwnBytes s h ctx ((field b 24 8 + i * 2) % 2 ^ 64) 2 v →
      OwnBytes s h ctx ((field b 32 8 + i * 2) % 2 ^ 64) 2 o → [w / 2, w / 2 + 1, m / 2, v / 2, o / 2].Nodup →
      rg = leNat (s.hubRead h g 2) * 65536 → rw = leNat (s.hubRead h w 4) → rm = leNat (s.hubRead h m 2) * 65536 →
      rv = leNat (s.hubRead h v 2) * 65536 → x = optimize b rg rm rv rw → Memory.wf s.mem = true →
      (∀ k, k < 16 → s.winLive h k = false) → s.outstanding h (obsOf c 2) ctx = [] → s.lostPending h (obsOf c 2) ctx = false →
      (s.ep h).waits = [] → s.fget (R.MS_INFO.OWNER h (field b 50 2)) = ctx → field b 50 2 < 4096 → s.regsWf = true →
      Answers (.optimizerBatch c ctx) s fun t => kgetD (t.core c).batch ctx 0 = n + 1 ∧
        HubHolds t h w (leBytes x.2.2 4) ∧
        HubHolds t h m (leBytes (Fmt.bf16.encode .rne false (Fmt.fp32.decode x.1)) 2) ∧
        HubHolds t h v (leBytes (Fmt.bf16.encode .rne false (Fmt.fp32.decode x.2.1)) 2) ∧
        HubHolds t h o (leBytes (Fmt.bf16.encode .rne false (Fmt.fp32.decode x.2.2)) 2) ∧
        t.fget (R.MS_COUNT.COUNT h (field b 50 2)) = (s.fget (R.MS_COUNT.COUNT h (field b 50 2)) + 1) % 2 ^ 64) ∧
    (∀ (b : List Byte) (n : Nat), l.std = 1 → b = l.params → s.stdRuns c ctx 1 = true → n = kgetD (s.core c).batch ctx 0 →
      (rankIn c l ≠ 0 → n + 1 < field b 44 4 → field b 56 8 + (n + 1) * field b 40 4 / 32 ≤ s.fget (R.MS_COUNT.COUNT (c / 16) (field b 48 2)) →
        Answers (.optimizerBatch c ctx) s fun t => kgetD (t.core c).batch ctx 0 = n + 1) ∧
      (rankIn c l ≠ 0 → n < field b 44 4 → s.fget (R.MS_COUNT.COUNT (c / 16) (field b 48 2)) < field b 56 8 + (n + 1) * field b 40 4 / 32 →
        Answers (.optimizerBatch c ctx) s fun t => t = s) ∧
      (rankIn c l = 0 → n % 2 = 1 → n / 2 + 1 < field b 44 4 →
        field b 96 8 + l.cores.length * (n / 2 + 1) ≤ s.fget (R.MS_COUNT.COUNT (c / 16) (field b 50 2)) →
        Answers (.optimizerBatch c ctx) s fun t => kgetD (t.core c).batch ctx 0 = n + 1) ∧
      (rankIn c l ≠ 0 → field b 44 4 ≤ n → s.regsWf = true → Answers (.optimizerBatch c ctx) s fun t =>
        t.fget (R.CO_KSTATE.STATE c ctx) = KS.ENDED ∧ t = { s with regs := t.regs, cores := t.cores, kern := t.kern }))

/-- R402, R403, R405, R409, R410, R412, R418: a packet that passes every check answers what its command answers, an IDENTIFY's
with its reply on the way; RESULT_READ, TAG_RETIRE and IDENTIFY answer; a pending memory command completes; what does not
come whole in time is dropped. -/
def Obligations.CommandsAndTags : Prop :=
  ∀ s : State,
    (∀ (port addr udp i : Nat) (b : List Byte) (h : Hdr) (r : CmdReq) (j : Instr), s.hostOn port = true →
      h = hdrOf beNat b → r = h.cmd i (b.drop 32) { port := port, addr := addr, udp := udp } → 32 ≤ b.length →
      h.magic = 0x4A58 → s.allowed addr = some i → s.unitInReset U.CONTROL 0 = false → h.refusal = none →
      s.maySend i h = true → s.findTag i h.tag = none → fragOk h (b.length - 32) = true → h.length ≤ 1024 →
      h.argOk = true → s.stateRefusal r = none → s.tagsFull r = false →
      ((h.opcode = 0x01 ∧ j = .identify r) ∨ (h.opcode = 0x02 ∧ j = .regRead r) ∨ (h.opcode = 0x03 ∧ j = .regWrite r) ∨
       (h.opcode = 0x10 ∧ j = .planLoad r) ∨ (h.opcode = 0x11 ∧ j = .planAccept r) ∨ (h.opcode = 0x12 ∧ j = .signpostLoad r) ∨
       (h.opcode = 0x20 ∧ j = .timetableLoad r) ∨ (h.opcode = 0x21 ∧ j = .timetableSwap r) ∨ (h.opcode = 0x30 ∧ j = .groupLoad r) ∨
       (h.opcode = 0x31 ∧ j = .instanceArm r) ∨ (h.opcode = 0x40 ∧ j = .contextCreate r) ∨ (h.opcode = 0x41 ∧ j = .contextScrub r) ∨
       (h.opcode = 0x50 ∧ j = .kernelLoad r) ∨ (h.opcode = 0x51 ∧ j = .kernelStart r) ∨ (h.opcode = 0x52 ∧ j = .kernelStop r) ∨
       (h.opcode = 0x60 ∧ j = .memRead r) ∨ (h.opcode = 0x61 ∧ j = .memWrite r) ∨ (h.opcode = 0x70 ∧ j = .linkTest r) ∨
       (h.opcode = 0x71 ∧ j = .wiringVerify r) ∨ (h.opcode = 0x72 ∧ j = .connectorInspect r) ∨ (h.opcode = 0x80 ∧ j = .almanacWindow r) ∨
       (h.opcode = 0x81 ∧ j = .vigilConfirm r) ∨ (h.opcode = 0x90 ∧ j = .attest r) ∨ (h.opcode = 0xA0 ∧ j = .fwStage r) ∨
       (h.opcode = 0xA1 ∧ j = .fwActivate r) ∨ (h.opcode = 0xB0 ∧ j = .resetPartial r) ∨ (h.opcode = 0xB1 ∧ j = .powerPolicy r) ∨
       (h.opcode = 0xF0 ∧ j = .resultRead r) ∨ (h.opcode = 0xF1 ∧ j = .tagRetire r)) →
      Answers (.commandPacket port addr udp b) s fun t => exec j (s.acceptCmd i) = .next t) ∧
    (∀ (port addr udp i : Nat) (b : List Byte) (h : Hdr) (r : CmdReq), s.hostOn port = true →
      h = hdrOf beNat b → r = h.cmd i (b.drop 32) { port := port, addr := addr, udp := udp } → 32 ≤ b.length →
      h.magic = 0x4A58 → s.allowed addr = some i → s.unitInReset U.CONTROL 0 = false → h.refusal = none →
      s.maySend i h = true → s.findTag i h.tag = none → fragOk h (b.length - 32) = true → h.length ≤ 1024 →
      h.argOk = true → s.stateRefusal r = none → h.opcode = 0x01 → (s.acceptCmd i).ctxRefusal r.ctx = none →
      Answers (.commandPacket port addr udp b) s fun t => (∃ y, Replied t r ST.OK 0 y ∧ y.length = 64 ∧
        field y 34 1 = s.sled % 256 ∧ field y 40 8 = s.now % 2 ^ 64) ∧ t.regs = (s.acceptCmd i).regs ∧ t.mem = s.mem) ∧
    (∀ (port addr udp : Nat) (b : List Byte), s.regsWf = true → s.hostOn port = true →
      (b.length < 32 ∨ beNat (bytesAt b 0 2) ≠ 0x4A58) → s.fget R.HE_STATS.MALFORMED + 1 < 2 ^ 16 →
      Answers (.commandPacket port addr udp b) s fun t =>
        Sets s t [(R.HE_STATS.MALFORMED, s.fget R.HE_STATS.MALFORMED + 1)] ∧ t = { s with regs := t.regs, al := t.al }) ∧
    (∀ (port addr udp : Nat) (b : List Byte), s.regsWf = true → s.hostOn port = true → 32 ≤ b.length →
      beNat (bytesAt b 0 2) = 0x4A58 → s.allowed addr = none → s.fget R.HE_STATS.NOT_LISTED + 1 < 2 ^ 16 →
      Answers (.commandPacket port addr udp b) s fun t =>
        Sets s t [(R.HE_STATS.NOT_LISTED, s.fget R.HE_STATS.NOT_LISTED + 1)] ∧ t = { s with regs := t.regs, al := t.al }) ∧
    (∀ (r : CmdReq) (x : TagSt), s.findTag r.owner (r.arg % 65536) = some x →
      (x.done = true → Answers (.resultRead r) s fun t => TagDone t r.owner (r.arg % 65536) x.status x.progress x.result ∧
        (r.owner < 64 → PacketsOut t r x.status x.progress x.result x.delivered) ∧ t = { s with host := t.host, out := t.out, sw := s.fed t }) ∧
      (x.done = false → Answers (.resultRead r) s fun t => Replied t r ST.PENDING (s.progressOf x) [] ∧
        t = { s with out := t.out, sw := s.fed t })) ∧
    (∀ r : CmdReq, s.findTag r.owner (r.arg % 65536) = none → Answers (.resultRead r) s fun t =>
      Replied t r ST.BAD_PARAM 0 [] ∧ t = { s with out := t.out, sw := s.fed t }) ∧
    (∀ (r : CmdReq) (l : List Nat), retireList r.payload = some l → l.Nodup →
      (∀ x ∈ l, ∃ y, s.findTag r.owner x = some y ∧ y.done = true) → Answers (.tagRetire r) s fun t =>
        (∀ x ∈ l, t.findTag r.owner x = none) ∧ (∀ o x, ¬(o = r.owner ∧ x ∈ l) → t.findTag o x = s.findTag o x) ∧
        Replied t r ST.OK 0 (List.replicate (2 * l.length) 0) ∧ t = { s with host := t.host, out := t.out, sw := s.fed t }) ∧
    (∀ r : CmdReq, s.ctxRefusal r.ctx = none → Answers (.identify r) s fun t => (∃ b, Replied t r ST.OK 0 b ∧ b.length = 64 ∧
      field b 0 8 = s.regValue R.CP_ID.addr % 2 ^ 64 ∧ field b 34 1 = s.sled % 256 ∧ field b 40 8 = s.now % 2 ^ 64) ∧
      t = { s with out := t.out, sw := s.fed t }) ∧
    (∀ m : MemCmd, s.host.memCmds = [m] → m.qp = 0 → m.size ≤ m.issued → m.left = 0 → s.si.pendingAtt = [] →
      s.jobOf 2 m.owner m.tag = none → Answers (.commandComplete m.owner m.tag) s fun t => t.host.memCmds = [] ∧
        (m.write = true → Completed s t m.owner m.tag m.status 0 []) ∧
        (m.write = false → Completed s t m.owner m.tag m.status (if m.status = ST.OK then 0 else m.result.length) m.result) ∧
        t = { s with host := t.host, out := t.out, sw := s.fed t }) ∧
    Answers .partialCommandExpiry s (fun t => (∀ p, p ∈ t.host.partials ↔ p ∈ s.host.partials ∧ s.now < p.last + 1000000) ∧
      t = { s with host := t.host }) ∧
    Answers .inbandPieceExpiry s (fun t => (∀ p, p ∈ t.host.inband ↔ p ∈ s.host.inband ∧ s.now < p.last + 4096) ∧
      t = { s with host := t.host })

/-- R7, R10, R28, R413, R550: on every path a write does to each field what its access code says; a read returns the register's
value and clears its RC fields. -/
def Obligations.RegistersReadAndWritten : Prop :=
  ∀ (s : State) (a : Nat) (v : W64), s.regsWf = true → s.regSilent a = false →
    (PlainReg a → SS.INIT ≤ s.sled →
      (Answers (.registerWrite 0 a v) s fun t => Written s t a v ∧ t = { s with regs := t.regs }) ∧
      (s.bmOpen a = true → Answers (.registerWrite 1 a v) s fun t => Written s t a v ∧ t = { s with regs := t.regs }) ∧
      (s.bmOpen a = true → Answers (.bmTransaction true a v) s fun t => Written s t a v ∧ t = { s with regs := t.regs }) ∧
      (∀ r : CmdReq, Fresh s r → r.payload.length = 16 → field r.payload 0 8 = a → field r.payload 8 8 = v.toNat →
        Answers (.regWrite r) s fun t => Done t r ST.OK 0 [] ∧ Written s t a v ∧
          t = { s with regs := t.regs, host := t.host, out := t.out, sw := s.fed t })) ∧
    (a % 8 = 0 → a < 2 ^ 32 → SS.OFF ≠ s.sled → s.bmOpen a = true →
      (regFields a).Pairwise (fun f g => f.hi < g.lo ∨ g.hi < f.lo) → (∀ f ∈ regFields a, f.lo ≤ f.hi ∧ f.hi < 64) →
      (Answers (.bmTransaction false a v) s fun t => t.out = .bmRead a (BitVec.ofNat 64 (s.regValue a)) :: s.out ∧
        (∀ f ∈ regFields a, t.fget ⟨a, f.hi, f.lo⟩ = if f.acc = .rc then 0 else s.fget ⟨a, f.hi, f.lo⟩) ∧
        (∀ b, b ≠ a → t.reg b = s.reg b) ∧ t = { s with regs := t.regs, out := t.out, free := t.free }) ∧
      (∀ r : CmdReq, Fresh s r → r.payload = leBytes a 4 → Answers (.regRead r) s fun t =>
        Done t r ST.OK 0 (leBytes (s.regValue a % 2 ^ 64) 8) ∧
        (∀ f ∈ regFields a, t.fget ⟨a, f.hi, f.lo⟩ = if f.acc = .rc then 0 else s.fget ⟨a, f.hi, f.lo⟩) ∧
        (∀ b, b ≠ a → t.reg b = s.reg b) ∧ t = { s with regs := t.regs, host := t.host, out := t.out, sw := s.fed t, free := t.free })) ∧
    (a % 8 ≠ 0 → a < 2 ^ 32 →
      (∀ w, Answers (.bmTransaction w a v) s fun t => t = s) ∧
      (∀ r : CmdReq, Fresh s r → r.payload = leBytes a 4 → Answers (.regRead r) s fun t => Done t r ST.BAD_PARAM 0 [] ∧
        t = { s with host := t.host, out := t.out, sw := s.fed t }) ∧
      (∀ r : CmdReq, Fresh s r → r.payload.length = 16 → field r.payload 0 8 = a → Answers (.regWrite r) s fun t =>
        Done t r ST.BAD_PARAM 0 [] ∧ t = { s with host := t.host, out := t.out, sw := s.fed t }))

/-- R395, R396, R397, R401, R424, R425, R426: frames and links of the host ports, LLDP, calendar time, the allow-list and a
queue pair's STATE. -/
def Obligations.HostPortsRun : Prop :=
  ∀ s : State, s.regsWf = true →
    (∀ (p : Nat) (up m : Bool) (k : Nat), p < 2 → SS.INIT ≤ s.sled → Answers (.hostPortLinkChange p up m k) s fun t =>
      Sets s t [(R.HE_PORT.LINK_UP p, if up && s.hostOn p then 1 else 0), (R.HE_PORT.MODULE p, if m then 1 else 0),
        (R.HE_PORT.MODULE_TYPE p, if m then k % 256 else 0)] ∧ t = { s with regs := t.regs }) ∧
    (∀ f : EthFrame, s.hostOn f.port = true → s.vlanOk f.vlan = true → f.bytes ≤ 9216 →
      (f.proto = 3 → Answers (.ethernetFrame f) s fun t => Sets s t [(R.HE_PORT.LLDP_PORT f.port, f.lldpPort % 65536)] ∧
        kget t.host.lldpChassis f.port = some f.lldpChassis ∧ t = { s with regs := t.regs, host := t.host }) ∧
      (f.proto < 3 → s.ownAddr f.port (f.proto == 0 || (f.proto == 2 && f.ipv4)) f.target = true →
        Answers (.ethernetFrame f) s fun t => t = { s with out := .eth f.port f.proto f.target :: s.out }) ∧
      (3 < f.proto → Answers (.ethernetFrame f) s fun t => t = s)) ∧
    (∀ f : EthFrame, s.vlanOk f.vlan = false → Answers (.ethernetFrame f) s fun t => t = s) ∧
    (SS.INIT ≤ s.sled → s.host.lastLldp + 30000000 ≤ s.now → Answers .lldpSend s fun t =>
      t.host = { s.host with lastLldp := s.now } ∧
      (∀ p, p < 2 → s.hostOn p = true → s.fbit (R.HE_PORT.LINK_UP p) = true → Out.eth p 3 0 ∈ t.out) ∧
      t = { s with host := t.host, out := t.out }) ∧
    (∀ (m : PtpMsg) (tt : Nat), s.hostOn m.port = true → m.domain = s.fget R.HE_CTL.PTP_DOMAIN → m.selected = true →
      m.utcOffsetValid = true → m.sync = some tt → 1000 * m.utcOffset ≤ tt → s.timeValid = false →
      Answers (.ptpMessage m) s fun t => Sets s t [(R.HE_TIME.PTP_PORT, m.port)] ∧
        t.host.timeDue = some ((tt - 1000 * m.utcOffset) % 2 ^ 48) ∧ t.host.lastMaster = some s.now ∧
        t.host.utcOffset = m.utcOffset ∧ t = { s with regs := t.regs, host := t.host }) ∧
    (∀ v : W64, SS.INIT ≤ s.sled → s.ptpLocked = true → s.fget R.HE_STATS.TIME_IGNORED + 1 < 2 ^ 16 →
      Answers (.timeSet v) s fun t => Sets s t [(R.HE_STATS.TIME_IGNORED, s.fget R.HE_STATS.TIME_IGNORED + 1)] ∧
        t = { s with regs := t.regs }) ∧
    (∀ v : W64, SS.INIT ≤ s.sled → s.ptpLocked = false → s.timeValid = true → v.toNat < 2 ^ 48 →
      (v.toNat ≤ s.fget R.HE_TIME.UTC_MS + 1000 → s.fget R.HE_TIME.UTC_MS ≤ v.toNat + 1000 → Answers (.timeSet v) s fun t =>
        t = { s with host := { s.host with slewLeft := (v.toNat : Int) - s.fget R.HE_TIME.UTC_MS } }) ∧
      (s.fget R.HE_TIME.UTC_MS + 1000 < v.toNat → Answers (.timeSet v) s fun t =>
        t = { s with host := { s.host with timeDue := some v.toNat, slewLeft := 0 } })) ∧
    (∀ (i k : Nat) (v : W64), i < 32 → k < 4 →
      definedBits (R.HE_ALLOW0.addr i + 8 * k) v.toNat % 2 ^ 64 ≠ (s.reg (R.HE_ALLOW0.addr i + 8 * k)).toNat →
      Answers (.allowListWrite i k v) s fun t =>
        (t.reg (R.HE_ALLOW0.addr i + 8 * k)).toNat = definedBits (R.HE_ALLOW0.addr i + 8 * k) v.toNat % 2 ^ 64 ∧
        (∀ b, b ≠ R.HE_ALLOW0.addr i + 8 * k → t.reg b = s.reg b) ∧ (∀ x, x ∈ t.host.tags ↔ x ∈ s.host.tags ∧ x.owner ≠ i) ∧
        4 ∈ t.si.dirty ∧ t = { s with regs := t.regs, host := t.host, si := t.si }) ∧
    (∀ (q : Nat) (v : W64), q < 256 →
      (bitsOf v.toNat 9 8 = 0 → Answers (.qpStateWrite q v) s fun t => t.fget (R.HE_QP0.STATE q) = 0 ∧
        t.fget (R.HE_QP0.EPSN q) = bitsOf v.toNat 63 40 ∧ t.fget (R.HE_QP3.RESPONSE_PSN q) = 0 ∧
        (∀ m ∈ t.host.memCmds, m.qp ≠ q + 1) ∧ t = { s with regs := t.regs, host := t.host }) ∧
      (s.fget (R.HE_QP0.STATE q) = 0 → bitsOf v.toNat 9 8 = 1 → Answers (.qpStateWrite q v) s fun t =>
        t.fget (R.HE_QP0.STATE q) = 1 ∧ t.fget (R.HE_QP0.EPSN q) = bitsOf v.toNat 63 40 ∧ t = { s with regs := t.regs }) ∧
      (s.fget (R.HE_QP0.STATE q) = 2 → bitsOf v.toNat 9 8 ≠ 0 → Answers (.qpStateWrite q v) s fun t =>
        t.fget (R.HE_QP0.STATE q) = 2 ∧ t.fget (R.HE_QP0.EPSN q) = s.fget (R.HE_QP0.EPSN q) ∧ t = { s with regs := t.regs }))

/-- R415, R416, R421, R422, R423, R424: memory commands and RDMA operations that pass their checks are under way in pieces that
enter the core at the control processor; what a queue pair cannot serve is answered with a NAK and puts it in ERROR. -/
def Obligations.MemoryFromTheHost : Prop :=
  ∀ s : State, s.regsWf = true → s.now < (s.ep 16).quietUntil →
    (∀ (r : CmdReq) (p : List Byte) (w : Bool) (i : Instr), p = r.payload → i = (if w then .memWrite r else .memRead r) →
      Fresh s r → p.length = (if w then 16 + field p 8 4 else 16) → 1 ≤ field p 8 4 → field p 8 4 ≤ 2 ^ 20 →
      s.ctxRefusal r.ctx = none →
      (s.rangeStatus r.ctx (field p 12 1) (field p 0 8) (field p 8 4) w = ST.OK →
        (Answers i s fun t => Pends s t r 0 ∧
          UnderWay t r.owner r.tag 0 0 w (field p 0 8) (field p 8 4) (if w then p.drop 16 else [])) ∧
        (r.ctx = 0 → s.host.memCmds = [] → linePiece (field p 0 8) (field p 8 4) = field p 8 4 → Answers i s fun t =>
          ∃ o, (t.ep 16).ort = (s.ep 16).ort ++ [o] ∧ o.cell.typ = (if w then T.WRITE else T.READ) ∧
            o.cell.dst = 128 + 16 * s.plane + field p 12 1 ∧ o.cell.src = 384 + s.plane)) ∧
      (∀ st, s.rangeStatus r.ctx (field p 12 1) (field p 0 8) (field p 8 4) w = st → st ≠ ST.OK → Answers i s fun t =>
        Done t r st 0 [] ∧ t = { s with host := t.host, out := t.out, sw := s.fed t })) ∧
    (∀ p : RdmaPkt, s.qpTakes p = true → s.psnPlace p = 0 → p.place = 0 → kget s.host.writes p.qp = none →
      s.regionStatus p true = true → p.data.length = p.dlen → p.dlen ≤ 4096 → Answers (.rdmaWrite p) s fun t =>
        Sets s t [(R.HE_QP0.EPSN p.qp, (s.fget (R.HE_QP0.EPSN p.qp) + 1) % 2 ^ 24)] ∧
        UnderWay t 0 0 (p.qp + 1) p.psn true p.va p.dlen p.data) ∧
    (∀ p : RdmaPkt, s.qpTakes p = true → s.psnPlace p = 0 → kget s.host.writes p.qp = none →
      (∀ m ∈ s.host.memCmds, m.qp ≠ p.qp + 1) → p.dlen ≤ 2 ^ 31 → s.regionStatus p false = true →
      Answers (.rdmaRead p) s fun t =>
        Sets s t [(R.HE_QP0.EPSN p.qp, (s.fget (R.HE_QP0.EPSN p.qp) + max 1 (ceilDiv p.dlen 4096)) % 2 ^ 24)] ∧
        ∃ m ∈ t.host.memCmds, m.qp = p.qp + 1 ∧ m.psn = p.psn ∧ m.write = false ∧ m.addr = p.va ∧ m.size = p.dlen) ∧
    (∀ (p : RdmaPkt) (i : Instr) (nak : Nat), s.qpTakes p = true → s.fget R.HE_STATS.RDMA_ERR + 1 < 2 ^ 16 →
      ((i = .rdmaUnsupported p ∧ nak = 2) ∨
       (i = .rdmaWrite p ∧ s.psnPlace p = 0 ∧ p.place = 0 ∧ kget s.host.writes p.qp = none ∧ s.regionStatus p true = false ∧ nak = 3) ∨
       (i = .rdmaWrite p ∧ s.psnPlace p = 0 ∧ p.place = 2 ∧ kget s.host.writes p.qp = none ∧ nak = 2)) →
      Answers i s fun t => Sets s t [(R.HE_QP0.STATE p.qp, 2), (R.HE_STATS.RDMA_ERR, s.fget R.HE_STATS.RDMA_ERR + 1)] ∧
        t.out = .rdma p.qp p.psn nak [] :: s.out ∧ (∀ m ∈ t.host.memCmds, m.qp ≠ p.qp + 1) ∧
        t = { s with regs := t.regs, host := t.host, out := t.out }) ∧
    (∀ p : RdmaPkt, s.qpTakes p = true → s.psnPlace p = 2 → Answers (.rdmaWrite p) s fun t =>
      t = { s with out := .rdma p.qp (s.fget (R.HE_QP0.EPSN p.qp)) 5 [] :: s.out })

/-- R20, R427, R429, R430, R431, R432, R550: power, straps, BOOT and the end of INIT. R436, R439, R440, R467, R551: MAINT and
RESUME, the end of a drain, the thermal trip, and the loss of the input. -/
def Obligations.SledStates : Prop :=
  (∀ s : State, s.regsWf = true →
      (∀ v, s.sled = SS.OFF → 4600 ≤ v → v ≤ 5800 → Answers (.powerOn v) s fun t =>
        Sets s t [(R.CP_STATE.STATE, SS.STANDBY), (R.CP_STATE.PREV_STATE, SS.OFF)] ∧ t.boot.inputOk = true ∧
        t.boot.presentLow = true ∧ t = { s with regs := t.regs, boot := t.boot }) ∧
      (∀ st : Straps, s.sled ≠ SS.OFF → s.sled ≠ SS.STANDBY → st ≠ s.boot.straps → Answers (.strapChange st) s fun t =>
        t.fget R.CP_LOCATION.STRAP_CHANGED = 1 ∧ t.fget R.CP_ALERT.STRAP = 1 ∧ t.out = .alert 0 :: s.out ∧
        t.boot = { s.boot with straps := st } ∧ t = { s with regs := t.regs, boot := t.boot, out := t.out }) ∧
      (∀ (st : Straps) (chk : BootCheck), s.bootReady = true → chk.railFail = true → Answers (.bootEntry st chk) s fun t =>
        t.sled = SS.STANDBY ∧ t.fget R.CP_STATE.PREV_STATE = SS.BOOT ∧ t.boot.railFails = s.boot.railFails + 1 ∧
        t.boot.latched = st ∧ (2 ≤ s.boot.railFails → t.fget R.CP_STATE.BOOT_FAIL = 1 ∧ t.fget R.PT_BOOT.BOOT_FAIL = 1) ∧
        t.mem = s.mem) ∧
      (∀ (st : Straps) (chk : BootCheck) (k : Nat), s.bootReady = true → chk.railFail = false → s.boot.act = none →
        k = s.fget R.CP_FW.PREFERRED → s.bootOk chk k = true → Answers (.bootEntry st chk) s fun t => t.sled = SS.INIT ∧
          t.fget R.CP_STATE.PREV_STATE = SS.BOOT ∧ t.now = 0 ∧ t.boot.latched = st ∧ t.fget R.CP_FW.RUN_SLOT = k ∧
          t.fget R.CP_FW.TRIAL = 0 ∧ t.fget R.CP_FW.CONFIRMED = 1 ∧ t.fget R.SI_STATUS.MEMKEYS_LOADED = 1 ∧
          t.si.kernelCount = 0 ∧ t.mem = s.mem) ∧
      (∀ (st : Straps) (chk : BootCheck), s.bootReady = true → chk.railFail = false → s.boot.act = none →
        s.bootOk chk 0 = false → s.bootOk chk 1 = false → Answers (.bootEntry st chk) s fun t => t.sled = SS.MAINTENANCE ∧
          t.fget R.CP_STATE.RECOVERY = 1 ∧ t.fget R.CP_FW.FALLBACK = 1 ∧ t.mem = s.mem) ∧
      (Answers .bootFailClear s fun t => Sets s t [(R.CP_STATE.BOOT_FAIL, 0), (R.PT_BOOT.BOOT_FAIL, 0)] ∧
        t.boot = { s.boot with railFails := 0 } ∧ t = { s with regs := t.regs, boot := t.boot }) ∧
      (∀ v : Bool, (v = true ∨ s.sled ≠ SS.HALT) → Answers (.bootHold v) s fun t =>
        Sets s t [(R.PT_BOOT.BOOT_HOLD, if v then 1 else 0)] ∧ t = { s with regs := t.regs }) ∧
      (s.sled = SS.HALT → s.power.cool = true → Answers (.bootHold false) s fun t => t.sled = SS.STANDBY ∧
        t.fget R.CP_STATE.PREV_STATE = SS.HALT ∧ t.fget R.PT_BOOT.BOOT_HOLD = 0) ∧
      (s.sled = SS.INIT → s.boot.act = none → Answers .initEnd s fun t =>
        t.sled = (if s.strapConflict = true then SS.MAINTENANCE else SS.DISCOVERY) ∧
        t.fget R.CP_STATE.PREV_STATE = SS.INIT ∧ t.mem = s.mem)) ∧
  (∀ s : State, s.regsWf = true →
      ((s.sled = SS.PLAN_CHECK ∨ s.sled = SS.SERVICE ∨ s.sled = SS.DEGRADED) → Answers .maint s fun t =>
        t = { s with boot := { s.boot with stateDue := some SS.DRAIN } }) ∧
      (s.sled ≠ SS.PLAN_CHECK → s.sled ≠ SS.SERVICE → s.sled ≠ SS.DEGRADED → Answers .maint s fun t =>
        Sets s t [(R.CP_STATE.CTL_IGNORED, 1)] ∧ t = { s with regs := t.regs }) ∧
      (s.sled = SS.MAINTENANCE → s.strapConflict = false → s.fget R.SG_STATUS.DUP_PLANE = 0 → s.fget R.CP_STATE.RECOVERY = 0 →
        Answers .resume s fun t => t = { s with boot := { s.boot with stateDue := some SS.DISCOVERY } }) ∧
      ((s.sled ≠ SS.MAINTENANCE ∨ s.strapConflict = true) → Answers .resume s fun t =>
        Sets s t [(R.CP_STATE.CTL_IGNORED, 1)] ∧ t = { s with regs := t.regs }) ∧
      (∀ d : Drain, s.boot.drain = some d → s.sled = SS.DRAIN → d.endAt ≤ s.now → s.rd.insts = [] →
        (d.cause = 1 → Answers .drainEnd s fun t => t.sled = SS.MAINTENANCE ∧ t.fget R.CP_STATE.PREV_STATE = SS.DRAIN ∧
          t.boot.drain = none ∧ t.fget R.VG_PLANES.OWN_LEAVING = 0 ∧
          (∀ c x, c < 256 → x < 64 → t.fget (R.CO_KSTATE.STATE c x) ≠ KS.STARTED) ∧
          (∀ p, p < 160 → s.isPort p = true → t.portState p = PS.DOWN) ∧ t.mem = s.mem) ∧
        (d.cause = 2 → Answers .drainEnd s fun t => t.sled = SS.STANDBY ∧ t.boot.drain = none ∧ t.boot.railsCore = false)) ∧
      (SS.INIT ≤ s.sled → s.boot.railsCore = true → Answers .thermalTrip s fun t => t.sled = SS.HALT ∧ t.cores = [] ∧
        t.sw = {} ∧ t.tg = {} ∧ t.boot.railsCore = false ∧ t.mem = s.mem) ∧
      (∀ i : Instr, ((i = .inputLoss) ∨ (i = .presentNRise)) →
        (SS.BOOT < s.sled → s.boot.lossAt = none → Answers i s fun t => t.boot.lossAt = some s.now ∧
          t.boot.stateDue = some SS.DRAIN ∧ t.power.inputLoss = true ∧ t = { s with boot := t.boot, power := t.power }) ∧
        (0 < s.sled → s.sled ≤ SS.BOOT → Answers i s fun t => t.sled = SS.OFF ∧ t.boot.inputOk = false)) ∧
      (∀ l, s.boot.lossAt = some l → l + 2 ≤ s.now → (∀ x ∈ s.rd.insts, x.1 < 8192 ∧ x.2.group < 4096) → Answers .inputLossInstanceEnd s fun t =>
        (∀ x ∈ s.rd.insts, s.armed x.1 ≠ none → t.slotState x.1 = 2) ∧ (∀ n ∈ t.rd.notices, n.sends = 3) ∧
        (∀ p ∈ t.al.pages, l + 2 ≤ p.frame) ∧ t.mem = s.mem) ∧
      (∀ l, s.boot.lossAt = some l → l + 4000 ≤ s.now → Answers .inputLossRailsOff s fun t => t.sled = SS.OFF ∧
        t.boot.lossAt = none ∧ t.boot.railsDram = false))

/-- R441, R442, R443, R444, R445, R453, R454, R455: partial resets, what begins them and what ends them; table errors. -/
def Obligations.UnitsReset : Prop :=
  ∀ s : State, s.regsWf = true →
    (∀ (r : CmdReq) (u : UnitReset), Fresh s r →
      u = { unit := field r.payload 0 1, index := field r.payload 2 2, relayout := field r.payload 1 1 == 1, owner := r.owner
            tag := r.tag, byCmd := true, begun := false, since := s.now } →
      (s.resetStatus r.payload ≠ ST.OK → Answers (.resetPartial r) s fun t =>
        Done t r (s.resetStatus r.payload) 0 [] ∧ t = { s with host := t.host, out := t.out, sw := s.fed t }) ∧
      (s.resetStatus r.payload = ST.OK → u.unit = U.CORE → Answers (.resetPartial r) s fun t => Pends s t r 0 ∧
        t.boot.resets = s.boot.resets ++ [u] ∧
        t.core u.index = { s.core u.index with resetDue := max 1 (s.core u.index).resetDue } ∧
        (∀ c, c ≠ u.index → t.core c = s.core c) ∧
        t = { s with boot := t.boot, cores := t.cores, host := t.host, out := t.out, sw := s.fed t }) ∧
      (s.resetStatus r.payload = ST.OK → u.unit = U.PORT → Answers (.resetPartial r) s fun t => Pends s t r 0 ∧
        { u with begun := true } ∈ t.boot.resets ∧ t.fget R.CP_RESET.BUSY % 2 = 1 ∧ t.portState u.index = PS.DOWN ∧
        t.mem = s.mem) ∧
      (s.resetStatus r.payload = ST.OK → u.unit = U.TOLLGATE → s.tg.batches = [] → s.tg.origins = [] →
        Answers (.resetPartial r) s fun t => Pends s t r 0 ∧ { u with begun := true } ∈ t.boot.resets ∧
          t.tg.nextTid = s.tg.nextTid ∧ t.tg.seqs = s.tg.seqs ∧ t.tg.batches = [] ∧ t.mem = s.mem) ∧
      (s.resetStatus r.payload = ST.OK → u.unit = U.HUB → s.rd.insts = [] → (∀ q ∈ (s.ep u.index).reqs, q.direct = false) →
        Answers (.resetPartial r) s fun t => Pends s t r 0 ∧ { u with begun := true } ∈ t.boot.resets ∧
          (t.ep u.index).ort = [] ∧ (t.ep u.index).reqs = [] ∧ (t.ep u.index).quietUntil = s.now + 1024 ∧
          (∀ i, i < 16 → 1 ≤ (t.core (16 * u.index + i)).resetDue) ∧ t.mem = s.mem) ∧
      (s.resetStatus r.payload = ST.OK → u.unit = U.CONTROL → Answers (.resetPartial r) s fun t => Replied t r ST.OK 0 [] ∧
        t.findTag r.owner r.tag = none ∧ t.boot.resets = s.boot.resets ++ [{ u with byCmd := false }] ∧
        t = { s with boot := t.boot, host := t.host, out := t.out, sw := s.fed t })) ∧
    (∀ u : UnitReset, s.boot.resets = [u] → u.unit = U.CONTROL → u.index = 0 → u.begun = false → u.since + 1 ≤ s.now →
      (∀ a, s.boot.act = some a → a.full = true ∨ a.begun = true) → Answers .controlReset s fun t =>
        (∀ x, x ∈ t.host.tags ↔ x ∈ s.host.tags ∧ x.island = true) ∧ t.host.partials = [] ∧ t.host.inband = [] ∧
        t.host.memCmds = [] ∧ t.kern = { s.kern with starts := [], unloads := [] } ∧ (t.ep 16).ort = [] ∧
        (t.ep 16).quietUntil = s.now + 1024 ∧ (∀ q, q < 256 → s.fbit (R.HE_QP0.VALID q) = true → t.fget (R.HE_QP0.STATE q) = 2) ∧
        t.fget R.CP_RESET.BUSY = 16 ∧ t.mem = s.mem ∧ t.cores = s.cores) ∧
    (∀ u : UnitReset, s.boot.resets = [u] → u.begun = true → u.unit < 5 → u.unit ≠ U.HUB → (u.unit = U.CONTROL → s.boot.act = none) →
      s.fget R.CP_RESET.COUNT + 1 < 2 ^ 32 → Answers (.resetDone u.unit u.index) s fun t =>
        Sets s t [(R.CP_RESET.LAST_UNIT, u.unit), (R.CP_RESET.LAST_INDEX, u.index % 256),
          (R.CP_RESET.COUNT, s.fget R.CP_RESET.COUNT + 1), (R.CP_RESET.BUSY, 0)] ∧ t.boot.resets = [] ∧
        (u.byCmd = true → Completed s t u.owner u.tag ST.OK 0 []) ∧
        t = { s with regs := t.regs, boot := t.boot, host := t.host, out := t.out, sw := s.fed t }) ∧
    (∀ u : UnitReset, s.boot.resets = [u] → u.begun = true → u.unit = U.HUB → u.index < 16 → u.byCmd = true →
      (∀ i, i < 16 → (s.core (16 * u.index + i)).resetDue = 0) → Answers (.resetDone u.unit u.index) s fun t =>
        t.boot.resets = [] ∧ Completed s t u.owner u.tag ST.OK 0 []) ∧
    (∀ (i n : Nat) (w : Switch), s.sw.takeCells (i % 16) (i / 16) = some (n, w) →
      s.fget R.VG_FAULT.BUFFER_DBE + n < 2 ^ 16 → Answers (.eccUncorrectable 5 i) s fun t =>
        Sets s t [(R.VG_FAULT.BUFFER_DBE, s.fget R.VG_FAULT.BUFFER_DBE + n)] ∧ t = { s with regs := t.regs, sw := w }) ∧
    (∀ i, s.sw.takeCells (i % 16) (i / 16) = none → exec (.eccUncorrectable 5 i) s = .next s) ∧
    (∀ u i, ((u = U.CORE ∧ i < 256) ∨ (u = U.HUB ∧ i < 16) ∨ (u = U.TOLLGATE ∧ i = 0) ∨ (u = U.CONTROL ∧ i = 0)) →
      s.resetBusy u i = false → s.fget R.VG_FAULT.AUTO_RESET + 1 < 2 ^ 16 → Answers (.eccUncorrectable u i) s fun t =>
        t.fget R.VG_FAULT.AUTO_RESET = s.fget R.VG_FAULT.AUTO_RESET + 1 ∧ t.fget R.VG_FAULT.LAST_UNIT = u ∧
        t.fget R.CP_ALERT.FAULT = 1 ∧ t.boot.resets = s.boot.resets ++ [{ unit := u, index := i, begun := false, since := s.now }] ∧
        t = { s with regs := t.regs, cores := t.cores, boot := t.boot, out := t.out }) ∧
    (∀ a f b, bankOf a = some (f, b) → s.eccBad f a = false → s.fget R.VG_FAULT.TABLE_ERR + 1 < 2 ^ 16 →
      (b = s.activeBank f → Answers (.tableEccError a) s fun t => t.eccBad f a = true ∧
        t.fget R.VG_FAULT.TABLE_ERR = s.fget R.VG_FAULT.TABLE_ERR + 1 ∧ t.fget R.CP_ALERT.FAULT = 1 ∧ t.mem = s.mem) ∧
      (b ≠ s.activeBank f → Answers (.tableEccError a) s fun t => t.eccBad f a = true ∧ t.regs = s.regs ∧ t.out = s.out))

/-- R447, R448, R449, R450, R451, R452: staging a bundle, activating it, and what ends an activation. -/
def Obligations.FirmwareActivates : Prop :=
  ∀ (s : State) (k : Nat), s.regsWf = true → k = 1 - s.fget R.CP_FW.RUN_SLOT →
    (∀ r : CmdReq, Fresh s r → s.stageStatus r.payload ≠ ST.OK → Answers (.fwStage r) s fun t =>
      Done t r (s.stageStatus r.payload) 0 [] ∧ t = { s with host := t.host, out := t.out, sw := s.fed t }) ∧
    (∀ (r : CmdReq) (p : List Byte), p = r.payload → Fresh s r → s.stageStatus p = ST.OK →
      (field p 8 1 < 2 → Answers (.fwStage r) s fun t => (∃ b, Done t r ST.OK 0 b ∧ b.length = 72 ∧ field b 0 1 = 1) ∧
        t.fwSlot k = 1 ∧ (∀ i, i < p.length - 16 → kget (t.slotOf k).bytes (field p 0 4 + i) = p[16 + i]?) ∧
        (field p 8 1 = 1 → (t.slotOf k).total = field p 4 4) ∧ t.slotOf (1 - k) = s.slotOf (1 - k) ∧
        t = { s with regs := t.regs, boot := t.boot, host := t.host, out := t.out, sw := s.fed t, free := t.free }) ∧
      (2 ≤ field p 8 1 → Answers (.fwStage r) s fun t => ∃ b y, Done t r ST.OK 0 y ∧ y.length = 72 ∧
        t.fwSlot k = (if t.bundleOk b = true then 2 else 3) ∧ field y 0 1 = t.fwSlot k ∧ b.length = (t.slotOf k).total ∧
        (t.slotOf k).hash = leNat (sha3 b) ∧ (t.slotOf k).major = field b 2 1 ∧ (t.slotOf k).minor = field b 3 1 ∧
        t = { s with regs := t.regs, boot := t.boot, host := t.host, out := t.out, sw := s.fed t, free := t.free })) ∧
    (∀ r : CmdReq, Fresh s r → s.activateStatus r.payload ≠ ST.OK → Answers (.fwActivate r) s fun t =>
      Done t r (s.activateStatus r.payload) 0 [] ∧ t = { s with host := t.host, out := t.out, sw := s.fed t }) ∧
    (∀ r : CmdReq, Fresh s r → s.activateStatus r.payload = ST.OK →
      (field r.payload 0 1 = 0 → Answers (.fwActivate r) s fun t => Pends s t r 0 ∧
        t.boot.act = some { full := false, at_ := s.now, slot := k } ∧
        t.boot.resets = s.boot.resets ++ [{ unit := U.CONTROL, begun := false, since := s.now }] ∧
        t = { s with boot := t.boot, host := t.host, out := t.out, sw := s.fed t }) ∧
      (field r.payload 0 1 = 1 → Answers (.fwActivate r) s fun t => Pends s t r 0 ∧
        t.boot.act = some { full := true, at_ := s.now, slot := k } ∧ t.boot.stateDue = some SS.DRAIN ∧
        t = { s with boot := t.boot, host := t.host, out := t.out, sw := s.fed t })) ∧
    (∀ a : Activation, s.boot.act = some a → a.full = false → a.slot < 2 →
      (a.begun = true → s.now ≤ a.at_ + 10000000 → Answers .liveConfirm s fun t => t.fget R.CP_FW.RUN_SLOT = a.slot ∧
        t.fget R.CP_FW.PREFERRED = a.slot ∧ t.fget R.CP_FW.TRIAL = 0 ∧ t.fget R.CP_FW.CONFIRMED = 1 ∧
        t.fget R.CP_FW.RUN_MAJOR = (s.slotOf a.slot).major % 256 ∧ t.boot.act = none) ∧
      (a.slot = k → a.at_ + 10000000 ≤ s.now → Answers .liveTimeout s fun t => t.fwSlot a.slot = 3 ∧
        t.fget R.CP_FW.FALLBACK = 1 ∧ t.fget R.CP_FW.TRIAL = 0 ∧ t.boot.act = none ∧ t.fget R.CP_ALERT.FIRMWARE = 1 ∧
        ∃ u ∈ t.boot.resets, u.unit = U.CONTROL ∧ u.begun = false ∧ u.since = s.now)) ∧
    (∀ a : Activation, s.boot.act = some a → a.full = true → a.slot < 2 → s.sled = SS.INIT → 59300000 ≤ s.now →
      Answers .fullTrialTimeout s fun t => t.sled = SS.STANDBY ∧ t.fget R.CP_FW.RUN_SLOT = 1 - a.slot ∧
        t.fwSlot a.slot = 3 ∧ t.fget R.CP_FW.FALLBACK = 1 ∧ t.boot.act = none)

/-- R456, R457, R458, R460, R461, R463, R465: heartbeats that go to a slot of their ports, one a frame, and are received;
Vigil's windows and verdicts, DEPART and LIGHT marks. -/
def Obligations.HeartbeatsAndVigil : Prop :=
  ∀ s : State, s.regsWf = true →
    (∀ p, s.isPort p = true → p < 144 → SS.DISCOVERY ≤ s.sled → s.now % 256 = s.beatPhase p → s.portState p = PS.UP →
      s.vigil.sentNow.contains p = false → Answers (.heartbeatSend p) s fun t =>
        t.port p = { s.port p with hbSeq := ((s.port p).hbSeq + 1) % 65536, sendQ := (t.port p).sendQ } ∧
        (∃ c, (t.port p).sendQ = (s.port p).sendQ ++ [c] ∧ c.typ = T.HEARTBEAT ∧ c.seq = (s.port p).hbSeq ∧ c.src = 384 + s.plane ∧
          c.dst = (if p < 128 then p else 384 + (p - 128)) ∧ field (lineBytes c.payload) 0 1 = 0 ∧
          field (lineBytes c.payload) 2 1 = s.sled ∧ field (lineBytes c.payload) 16 2 = s.linksUp ∧
          field (lineBytes c.payload) 40 8 = s.now % 2 ^ 64) ∧
        (∀ q, q ≠ p → t.port q = s.port q) ∧ t.vigil = { s.vigil with sentNow := p :: s.vigil.sentNow } ∧
        t = { s with ports := t.ports, vigil := t.vigil }) ∧
    (SS.DISCOVERY ≤ s.sled → s.announces ≠ s.vigil.announced → Answers .changeHeartbeat s fun t =>
      t.vigil.announced = s.announces ∧
      (∀ p, p < 144 → s.isPort p = true → s.portState p = PS.UP →
        (s.vigil.sentNow.contains p = false →
          ∃ c ∈ (t.port p).sendQ, c.typ = T.HEARTBEAT ∧ field (lineBytes c.payload) 0 1 = 1) ∧
        (s.vigil.sentNow.contains p = true → p ∈ t.vigil.owes)) ∧
      t = { s with ports := t.ports, vigil := t.vigil }) ∧
    (∀ (p : Nat) (c : Cell), c.typ = T.HEARTBEAT → s.isPort p = true → s.portState p = PS.UP →
      (p < 128 → Answers (.heartbeatReceive p c) s fun t => kget t.vigil.beats p = some (beatOf s.now c.src (lineBytes c.payload)) ∧
        t.fget (R.VG_EP.LAST_HB p) = s.now % 2 ^ 40 ∧ p ∈ t.vigil.heardNow ∧
        t.fget (R.VG_EP.STATE p) = (if s.fget (R.VG_EP.STATE p) = 3 then 3 else 1) ∧
        (s.fget (R.VG_EP.STATE p) ≠ 3 → t.fget (R.VG_EP.MISSED p) = 0) ∧ t = { s with regs := t.regs, vigil := t.vigil }) ∧
      (∀ q, 128 ≤ p → p < 144 → q < 16 → c.src = 384 + q → Answers (.heartbeatReceive p c) s fun t =>
        bitAt (t.fget R.VG_PLANES.LEAVING) q = bitAt (field (lineBytes c.payload) 3 1) 0 ∧
        (bitAt (field (lineBytes c.payload) 3 1) 0 = true →
          kget t.sg.departAt q = some (field (lineBytes c.payload) 8 8)) ∧
        t = { s with regs := t.regs, vigil := t.vigil, sg := t.sg }) ∧
      (160 ≤ p → bitAt (field (lineBytes c.payload) 3 1) 0 = true → Answers (.heartbeatReceive p c) s fun t =>
        p - 160 ∈ t.chip.leavingDue ∧ t = { s with vigil := t.vigil, chip := t.chip })) ∧
    (∀ i, i < 144 → i ≠ s.ownPos → s.now % 256 = s.subjectPhase i →
      (i ∈ s.vigil.heardNow → Answers (.vigilWindowEnd i) s fun t => Sets s t [(R.VG_EP.MISSED i, 0)] ∧
        i ∉ t.vigil.heardNow ∧ i ∈ t.vigil.heardPrev ∧ t = { s with regs := t.regs, vigil := t.vigil }) ∧
      (i ∉ s.vigil.heardNow → s.fget (R.VG_EP.MISSED i) ≠ 3 → Answers (.vigilWindowEnd i) s fun t =>
        Sets s t [(R.VG_EP.MISSED i, min 15 (s.fget (R.VG_EP.MISSED i) + 1))] ∧
        t = { s with regs := t.regs, vigil := t.vigil }) ∧
      (i ∉ s.vigil.heardNow → s.fget (R.VG_EP.MISSED i) = 3 → s.fget (R.VG_EP.STATE i) = 1 →
        Answers (.vigilWindowEnd i) s fun t => t.fget (R.VG_EP.STATE i) = 2 ∧ t.fget (R.VG_EP.MISSED i) = 4 ∧
          t.fget (R.VG_EP.SUSPECTS i) = min (s.fget (R.VG_EP.SUSPECTS i) + 1) 65535 ∧
          t.fget R.VG_STATUS.SUSPECT_NOW = t.subjectsIn 2 ∧ t = { s with regs := t.regs, al := t.al, vigil := t.vigil })) ∧
    (∀ (r : CmdReq) (p : List Byte) (i : Nat), p = r.payload → Fresh s r → p.length = 12 → field p 0 2 = 1 →
      s.subjectOf (field p 8 2) = some i →
      (field p 10 1 = 0 → Answers (.vigilConfirm r) s fun t => Done t r ST.OK 0 [] ∧ t.fget (R.VG_EP.STATE i) = 3 ∧
        t.fget (R.VG_EP.OPINION i) = 2 ∧ t.vigil.confirmDue = s.vigil.confirmDue ++ (marksOfSubject i).map (fun id => (id, true)) ∧
        t.mem = s.mem) ∧
      (field p 10 1 = 1 → Answers (.vigilConfirm r) s fun t => Done t r ST.OK 0 [] ∧ t.fget (R.VG_EP.OPINION i) = 1 ∧
        t.fget (R.VG_EP.STATE i) = s.fget (R.VG_EP.STATE i) ∧ t.vigil = s.vigil ∧ t.mem = s.mem) ∧
      (field p 10 1 = 2 → Answers (.vigilConfirm r) s fun t => Done t r ST.OK 0 [] ∧ t.fget (R.VG_EP.OPINION i) = 0 ∧
        t.vigil.confirmDue = s.vigil.confirmDue ++ (marksOfSubject i).map (fun id => (id, false)) ∧
        (i ∈ s.vigil.heardNow → t.fget (R.VG_EP.STATE i) = 1) ∧ t.mem = s.mem) ∧
      (2 < field p 10 1 → Answers (.vigilConfirm r) s fun t => Done t r ST.BAD_PARAM 0 [] ∧
        t = { s with host := t.host, out := t.out, sw := s.fed t })) ∧
    (∀ q, q < 16 → q ≠ s.plane → s.sg.departMarks.contains q = false →
      (kget s.sg.departAt q = some s.now ∨ kget s.sg.noPath q = some 4) → Answers (.goneDepart q) s fun t =>
        q ∈ t.sg.departMarks ∧ bitAt (t.fget R.VG_PLANES.DEPARTED) q = true ∧
        t = { s with regs := t.regs, al := t.al, sg := t.sg }) ∧
    (∀ p, p < 128 → s.portState p = PS.UP → (s.outcome p = OC.MATCH ∨ s.outcome p = OC.ADOPTED) → Answers (.goneClear p) s fun t =>
      bitAt (t.fget (R.VG_GONE_LIGHT.MAP (p / 64))) (p % 64) = false ∧
      (∀ k, k < 64 → k ≠ p % 64 → bitAt (t.fget (R.VG_GONE_LIGHT.MAP (p / 64))) k =
        bitAt (s.fget (R.VG_GONE_LIGHT.MAP (p / 64))) k) ∧ t = { s with regs := t.regs }) ∧
    (∀ id, 128 ≤ id → id < 416 → s.sg.departMarks.contains (planeOfId id) = true → s.backAgain (planeOfId id) = true →
      Answers (.goneClear id) s fun t => planeOfId id ∉ t.sg.departMarks ∧
        bitAt (t.fget R.VG_PLANES.DEPARTED) (planeOfId id) = false ∧ t = { s with regs := t.regs, sg := t.sg })

/-- R468, R469, R486, R487: coolant samples and bands, die temperatures and their trips, the end of an emergency. R476, R477,
R480, R488, R489, R490: boost, the ladder's fall, POWER_POLICY, laser wear and throttle counts. -/
def Obligations.CoolingAndPower : Prop :=
  (∀ s : State, s.regsWf = true →
      (∀ flow inlet outlet, Answers (.coolantSample flow inlet outlet) s fun t =>
        t.fget R.PT_COOLANT.FLOW = min 255 flow ∧ t.fget R.PT_COOLANT.INLET = min 255 inlet ∧
        t.fget R.PT_COOLANT.OUTLET = min 255 outlet ∧ t.fget R.PT_COOLANT.INLET_HIGH = (if 40 < inlet then 1 else 0) ∧
        t.fget R.PT_COOLANT.INLET_LOW = (if inlet < 20 then 1 else 0) ∧
        (flow < 20 → s.power.lowFlow = 0 → t.fget R.PT_COOLANT.BAND = s.fget R.PT_COOLANT.BAND ∧ t.power.lowFlow = 1) ∧
        (flow < 20 → 1 ≤ s.power.lowFlow → t.fget R.PT_COOLANT.BAND = 3 ∧
          (s.fget R.VG_PLANES.COOLANT_EMERG = 0 → t.power.emergDue = true)) ∧
        (20 ≤ flow → s.fget R.PT_COOLANT.BAND ≤ flowBand flow → t.fget R.PT_COOLANT.BAND = flowBand flow ∧ t.power.lowFlow = 0 ∧
          t.fget R.PT_COOLANT.FLOW_LOW = (if flow < 40 then 1 else 0)) ∧
        (20 ≤ flow → flowBand flow < s.fget R.PT_COOLANT.BAND → s.power.bandNext = flowBand flow → t.fget R.PT_COOLANT.BAND =
          (if 9 ≤ s.power.bandRun then flowBand flow else s.fget R.PT_COOLANT.BAND)) ∧
        t = { s with regs := t.regs, power := t.power, al := t.al, out := t.out }) ∧
      (∀ d : DieTemps, SS.INIT ≤ s.sled → s.boot.railsCore = true → s.boot.railsDram = true →
        (logicMax d < 95 → listMax d.optical < 100 → listMax d.vr < 125 → d.dram < 110 → d.control < 100 →
          Answers (.dieTempSample d) s fun t => t.fget R.PT_TEMP.CONTROL = d.control ∧ t.fget R.PT_TEMP.DRAM_MAX = d.dram ∧
            t.fget R.PT_TEMP.SWITCH = d.switch ∧ t.power.cool = (decide (logicMax d < 85) && decide (d.control < 85)) ∧
            t.power.haltTemp = s.power.haltTemp ∧ (85 ≤ logicMax d → t.power.goodFor = 0) ∧
            t = { s with regs := t.regs, power := t.power, al := t.al }) ∧
        (95 ≤ logicMax d → logicMax d < 105 → listMax d.optical < 100 → listMax d.vr < 125 → d.dram < 110 → d.control < 100 →
          Answers (.dieTempSample d) s fun t => t.power.haltTemp = true ∧ (∀ c, c < 256 → t.fget (R.CO_POWER.HALT c) = 1) ∧
            t = { s with regs := t.regs, power := t.power, al := t.al }) ∧
        (105 ≤ logicMax d → d.dram < 110 → d.control < 110 → Answers (.dieTempSample d) s fun t => t.sled = SS.HALT ∧
          t.cores = [] ∧ t.boot.railsCore = false ∧ t.mem = s.mem) ∧
        (110 ≤ d.dram → d.control < 110 → Answers (.dieTempSample d) s fun t => t.sled = SS.HALT ∧ t.mem = [] ∧ t.hubs = [] ∧
          t.boot.railsDram = false) ∧
        (110 ≤ d.control → Answers (.dieTempSample d) s fun t => t.sled = SS.STANDBY ∧ t.fget R.PT_BOOT.BOOT_HOLD = 1)) ∧
      (s.power.goodFor < 1000 → Answers .emergencyEnd s fun t => t = s) ∧
      (1000 ≤ s.power.goodFor → (s.fget R.VG_PLANES.COOLANT_EMERG = 1 ∨ s.power.haltTemp = true) → s.boot.railsCore = true →
        s.power.inputLoss = false → Answers .emergencyEnd s fun t => t.fget R.VG_PLANES.COOLANT_EMERG = 0 ∧
          t.power = { s.power with haltTemp := false } ∧ (∀ c, c < 256 → t.fget (R.CO_POWER.HALT c) = 0) ∧
          t = { s with regs := t.regs, power := t.power })) ∧
  (∀ s : State, s.regsWf = true →
      (s.power.quiet < 1000 → Answers .ladderFall s fun t => t = s) ∧
      (1000 ≤ s.power.quiet → s.fget R.PT_LADDER.LADDER_MIN < s.fget R.PT_LADDER.POSITION → Answers .ladderFall s fun t =>
        t.fget R.PT_LADDER.POSITION = s.fget R.PT_LADDER.POSITION - 1 ∧ t.power = { s.power with quiet := 0 } ∧
        t = { s with regs := t.regs, power := t.power }) ∧
      ((s.power.budget = 0 ∨ 20000000 ≤ s.power.episode ∨ s.fget R.PT_LADDER.BOOST_EN = 0) → Answers .boostExhaust s fun t =>
        Sets s t [(R.PT_LADDER.BOOST_OK, 0)] ∧ t = { s with regs := t.regs }) ∧
      (80000000000 ≤ s.power.budget → s.power.episode < 20000000 → s.fget R.PT_LADDER.BOOST_EN = 1 →
        s.fget R.PT_COOLANT.BAND = 0 → s.power.lowFlow = 0 → s.fget R.PT_COOLANT.INLET_HIGH = 0 →
        Answers .boostRestore s fun t => Sets s t [(R.PT_LADDER.BOOST_OK, 1)] ∧ t = { s with regs := t.regs }) ∧
      (∀ (r : CmdReq) (p : List Byte), p = r.payload → Fresh s r → p.length = 16 → field p 4 12 = 0 → field p 0 2 ≤ 17000 →
        field p 2 1 ≤ 1 → field p 3 1 ≤ 15 →
        (s.fget R.TB_POWER.FLOOR + max (s.fget R.TB_POWER.RESERVED_PEAK) s.armedPeak ≤ field p 0 2 →
          Answers (.powerPolicy r) s fun t => Done t r ST.OK 0 [] ∧
            t.power = { s.power with policyDue := some (field p 0 2, field p 2 1 == 1, field p 3 1) } ∧
            t = { s with power := t.power, host := t.host, out := t.out, sw := s.fed t }) ∧
        (field p 0 2 < s.fget R.TB_POWER.FLOOR + max (s.fget R.TB_POWER.RESERVED_PEAK) s.armedPeak →
          Answers (.powerPolicy r) s fun t => Done t r ST.REFUSED_POWER 0 [] ∧ t = { s with host := t.host, out := t.out, sw := s.fed t })) ∧
      (∀ r : CmdReq, Fresh s r → (r.payload.length ≠ 16 ∨ 17000 < field r.payload 0 2 ∨ 15 < field r.payload 3 1) →
        Answers (.powerPolicy r) s fun t => Done t r ST.BAD_PARAM 0 [] ∧ t = { s with host := t.host, out := t.out, sw := s.fed t }) ∧
      (∀ ts : List Nat, ts.length ≤ 20 → (∀ k, k < ts.length → s.fget (R.PT_LASER.WEAR k) + wearOf (ts.getD k 0) < 2 ^ 32) →
        Answers (.laserWearUpdate ts) s fun t =>
          (∀ k, k < ts.length → t.fget (R.PT_LASER.WEAR k) = s.fget (R.PT_LASER.WEAR k) + wearOf (ts.getD k 0) ∧
            (921600000 ≤ t.fget (R.PT_LASER.WEAR k) → t.fget (R.PT_LASER.WORN k) = 1) ∧
            (t.fget (R.PT_LASER.WEAR k) < 921600000 → t.fget (R.PT_LASER.WORN k) = s.fget (R.PT_LASER.WORN k))) ∧
          t = { s with regs := t.regs, out := t.out }) ∧
      (s.now % 4096 = 0 → s.power.periodAt ≠ s.now → 0 < s.power.periodMax →
        (∀ x, x < 64 → s.fget (R.PT_CTX_THROTTLE.BE x) < 65535 ∧ s.fget (R.PT_CTX_THROTTLE.MEM x) < 65535 ∧
          s.fget (R.PT_CTX_THROTTLE.DUTY x) < 65535) → Answers .throttlePeriod s fun t =>
          (∀ x, x < 64 → t.fget (R.PT_CTX_THROTTLE.OPP x) = min (s.fget (R.PT_CTX_THROTTLE.OPP x) + 1) 65535 ∧
            t.fget (R.PT_CTX_THROTTLE.BE x) = s.fget (R.PT_CTX_THROTTLE.BE x) + (if 4 ≤ s.power.periodMax then 1 else 0) ∧
            t.fget (R.PT_CTX_THROTTLE.MEM x) = s.fget (R.PT_CTX_THROTTLE.MEM x) + (if 8 ≤ s.power.periodMax then 1 else 0) ∧
            t.fget (R.PT_CTX_THROTTLE.DUTY x) = s.fget (R.PT_CTX_THROTTLE.DUTY x) + (if 12 ≤ s.power.periodMax then 1 else 0)) ∧
          t.power = { s.power with periodMax := s.fget R.PT_LADDER.POSITION, periodAt := s.now } ∧
          t = { s with regs := t.regs, power := t.power }))

/-- R497, R499, R500, R502, R505: evidence asked for and formed, certificates, table hashes, the random source, debug sessions. -/
def Obligations.IslandAnswers : Prop :=
  ∀ s : State, s.regsWf = true →
    (∀ (r : CmdReq) (p : List Byte), p = r.payload → Fresh s r → p.length = 72 → field p 1 1 = 0xFF →
      r.owner < 64 → s.ctxRefusal r.ctx = none →
      (field p 0 1 = 1 → field p 8 64 = 0 → Answers (.attest r) s fun t => Done t r ST.OK 0 certificates ∧
        t = { s with host := t.host, out := t.out, sw := s.fed t }) ∧
      (∀ b, field p 0 1 = 0 → s.heldFor (field p 8 64) = some b → b.length = 6003 → Answers (.attest r) s fun t =>
        Done t r ST.OK 0 b ∧ t = { s with host := t.host, out := t.out, sw := s.fed t }) ∧
      (field p 0 1 = 0 → s.heldFor (field p 8 64) = none → s.si.pendingAtt.length < 4 → s.fbit R.SI_STATUS.RNG_OK = true →
        Answers (.attest r) s fun t => Pends s t r 0 ∧ Sets s t [(R.SI_STATUS.ATT_PENDING, s.si.pendingAtt.length + 1)] ∧
          t.si.pendingAtt = s.si.pendingAtt ++ [{ owner := r.owner, tag := r.tag, nonce := field p 8 64, piece := 0xFF }] ∧
          t = { s with regs := t.regs, si := t.si, host := t.host, out := t.out, sw := s.fed t }) ∧
      (field p 0 1 = 0 → s.heldFor (field p 8 64) = none → (4 ≤ s.si.pendingAtt.length ∨ s.fbit R.SI_STATUS.RNG_OK = false) →
        Answers (.attest r) s fun t => Done t r ST.BUSY 0 [] ∧ t = { s with host := t.host, out := t.out, sw := s.fed t })) ∧
    (∀ (a : Attest) (b : List Byte), s.si.pendingAtt = [a] → s.heldFor a.nonce = some b → b.length = 6003 →
      Answers (.commandComplete a.owner a.tag) s fun t => Completed s t a.owner a.tag ST.OK 0 (pieceOf b a.piece) ∧
        t.si.pendingAtt = [] ∧ t.fget R.SI_STATUS.ATT_PENDING = 0 ∧ t.si.signatures = s.si.signatures) ∧
    (s.fbit R.SI_ATT_CTL.BUSY = false → SS.INIT ≤ s.sled → Answers .attGo s fun t =>
      Sets s t [(R.SI_ATT_CTL.BUSY, 1), (R.SI_ATT_CTL.DONE, 0)] ∧
      t.si = { s.si with boardGo := some s.boardNonce, window := [] } ∧ t = { s with regs := t.regs, si := t.si }) ∧
    (s.fbit R.SI_ATT_CTL.BUSY = true → s.si.boardGo = none → s.fbit R.SI_STATUS.RNG_OK = true → Answers .attEvidenceReady s fun t =>
      Sets s t [(R.SI_ATT_CTL.BUSY, 0), (R.SI_ATT_CTL.DONE, 1)] ∧ t.si.signatures = s.si.signatures + 1 ∧
      t.si.window.take s.si.window.length = s.si.window ∧ t.si.window.length = s.si.window.length + 4627 ∧
      t = { s with regs := t.regs, si := t.si }) ∧
    (Answers .rngHealthFail s fun t => Sets s t [(R.SI_STATUS.RNG_OK, 0)] ∧ t = { s with regs := t.regs }) ∧
    (Answers .rngOkReturn s fun t => Sets s t [(R.SI_STATUS.RNG_OK, 1)] ∧ t = { s with regs := t.regs }) ∧
    (∀ k, s.si.dirty.contains k = true → Answers (.tableHashUpdate k) s fun t =>
      kget t.si.hashes k = some (leNat (sha3 (s.tableBytes k))) ∧ (∀ j, j ∈ t.si.dirty ↔ j ∈ s.si.dirty ∧ j ≠ k) ∧
      t = { s with si := t.si }) ∧
    (∀ src, src ≤ 2 → s.fbit R.SI_DEBUG.ACTIVE = false → s.sled ≠ SS.OFF → s.fget R.SI_DEBUG.SESSIONS_TOTAL + 1 < 2 ^ 32 →
      Answers (.debugSessionStart src) s fun t => t.fget R.SI_STATUS.DEBUG_ACTIVE = 1 ∧ t.fget R.SI_STATUS.DEBUG_SINCE_BOOT = 1 ∧
        t.fget R.SI_DEBUG.ACTIVE = 1 ∧ t.fget R.SI_DEBUG.SOURCE = src ∧
        t.fget R.SI_DEBUG.SESSIONS_TOTAL = s.fget R.SI_DEBUG.SESSIONS_TOTAL + 1 ∧ t.fget R.CP_ALERT.DEBUG = 1 ∧
        t.si.debugBoot = s.si.debugBoot + 1 ∧ t.out = .alert 7 :: s.out ∧
        t = { s with regs := t.regs, si := t.si, al := t.al, out := t.out }) ∧
    (s.fbit R.SI_DEBUG.ACTIVE = true → Answers .debugSessionEnd s fun t =>
      Sets s t [(R.SI_STATUS.DEBUG_ACTIVE, 0), (R.SI_DEBUG.ACTIVE, 0)] ∧ t = { s with regs := t.regs, al := t.al })

/-- R509, R513, R515, R516, R517: pages close at their edges and are written record by record; windows and snapshots. -/
def Obligations.AlmanacRuns : Prop :=
  ∀ s : State, s.regsWf = true →
    (∀ p : Page, s.al.pages = [p] →
      (s.atEdge p = true → p.frame ≠ s.now → Answers .pageEdge s fun t =>
        t.al.closing = s.al.closing ++ [s.endPage 0 p] ∧ t.al.pages = [s.newPage p.period] ∧ t = { s with al := t.al }) ∧
      (s.atEdge p = false → Answers .pageEdge s fun t => t = s)) ∧
    (∀ (p : Page) (l : List Page), s.al.closing = p :: l →
      (Answers (.pageWrite true) s fun t => (∃ v, kget t.al.flash s.al.nextRseq = some v ∧
          field (leBytes v 256) 0 4 = s.al.nextRseq % 2 ^ 32 ∧ field (leBytes v 256) 4 1 = partKind p.period s.al.part ∧
          field (leBytes v 256) 252 4 = s.al.nextRseq % 2 ^ 32) ∧ t.al.nextRseq = s.al.nextRseq + 1 ∧ t.al.tries = 0 ∧
        (s.al.part + 1 < pageParts p.period → t.al.part = s.al.part + 1 ∧ t.al.closing = s.al.closing) ∧
        (pageParts p.period ≤ s.al.part + 1 → t.al.part = 0 ∧ t.al.closing = l) ∧
        t = { s with al := t.al, free := t.free }) ∧
      (s.al.tries < 2 → Answers (.pageWrite false) s fun t => t.al.tries = s.al.tries + 1 ∧
        t.al.nextRseq = s.al.nextRseq ∧ t.al.closing = s.al.closing ∧ t = { s with al := t.al }) ∧
      (2 ≤ s.al.tries → Answers (.pageWrite false) s fun t => t.fget R.AL_STATUS.FLASH_FAIL = 1 ∧ t.fget R.CP_ALERT.FLASH = 1 ∧
        t.al.nextRseq = s.al.nextRseq + 1 ∧ t.al.tries = 0 ∧ t = { s with regs := t.regs, al := t.al, out := t.out })) ∧
    (∀ (r : CmdReq) (p : List Byte), p = r.payload → Fresh s r → p.length = 64 →
      (field p 0 1 = 0 → Answers (.almanacWindow r) s fun t => (∃ b, Done t r ST.OK 0 b ∧ b.length = 4128 ∧
          field b 0 4 = s.oldestRseq % 2 ^ 32 ∧ field b 4 4 = s.newestRseq % 2 ^ 32 ∧
          ∀ i, i < 16 → bytesAt b (32 + 256 * i) 256 = match kget s.al.flash (field p 4 4 + i) with
            | some v => leBytes v 256
            | none => List.replicate 256 0xFF#8) ∧ t = { s with host := t.host, out := t.out, sw := s.fed t }) ∧
      (field p 0 1 = 1 → field p 1 1 ≤ 2 → field p 8 8 = 0 → Answers (.almanacWindow r) s fun t =>
        t.al.snapWait = s.al.snapWait ++ [(r.owner, r.tag, field p 1 1, field p 2 1)] ∧
        (∃ x, t.findTag r.owner r.tag = some x ∧ x.done = false) ∧ t.out = s.out ∧ t = { s with al := t.al, host := t.host }) ∧
      (1 < field p 0 1 → Answers (.almanacWindow r) s fun t => Done t r ST.BAD_PARAM 0 [] ∧
        t = { s with host := t.host, out := t.out, sw := s.fed t })) ∧
    (Answers .snapshotExpiry s fun t => (∀ e, e ∈ t.al.snaps ↔ e ∈ s.al.snaps ∧ s.now < e.2.endFrame + 1000000) ∧
      t = { s with al := t.al })

/-- R521, R522, R527, R528, R529, R530, R541: wavelength tests, wiring verification, beacons, connector inspection. R523, R524,
R525, R526: a generator places its next cell or skips it; a checker counts what it takes; its ENABLE clears its counters. -/
def Obligations.TestsAndPatterns : Prop :=
  (∀ s : State, s.regsWf = true →
      (∀ (r : CmdReq) (p : List Byte) (n : Nat), p = r.payload → Fresh s r → s.badTest p = false → field p 16 2 = 1 → p.length = 96 →
        n = (if field p 8 8 = 0 then s.now + 1 else field p 8 8) →
        (s.testRec false (bytesAt p 88 8) = ST.OK → Answers (.linkTest r) s fun t => Pends s t r n ∧
          t.pat.jobs = s.pat.jobs ++ [{ owner := r.owner, tag := r.tag, n := n, duration := field p 0 4
                                        records := [(field p 88 2, field p 90 1, field p 91 1)]
                                        pattern := patternOf p s.freeVal }] ∧
          t = { s with pat := t.pat, host := t.host, out := t.out, sw := s.fed t, free := t.free }) ∧
        (s.testRec false (bytesAt p 88 8) ≠ ST.OK → Answers (.linkTest r) s fun t =>
          Done t r (s.testRec false (bytesAt p 88 8)) 0 [] ∧ t = { s with host := t.host, out := t.out, sw := s.fed t })) ∧
      (∀ (j : LinkJob) (p m f : Nat), s.isPort p = true → s.pat.jobs = [j] → j.kind = 0 → j.started = false → j.n ≤ s.now → j.records = [(p, m, f)] →
        m &&& s.fget (R.OP_PORT_STATUS.WL_RETIRED p) ≠ m → Answers (.linkTestStart j.owner j.tag) s fun t =>
          t.pat.jobs = [{ j with started := true, records := [(p, m, bitSet f 2)], tests := wlTests (p, m, bitSet f 2) }] ∧
          t.portState p = PS.DOWN ∧ (bitAt f 0 = true → t.out.head? = some (.pattern p m j.pattern)) ∧ t.mem = s.mem) ∧
      (∀ (j : LinkJob) (x : WlTest) (e b : Nat), s.pat.jobs = [j] → j.started = true → j.tests = [x] → x.rx = true → x.ended = false →
        (x.locked = false → Answers (.checkerLock x.port x.wl true e b) s fun t =>
          t = { s with pat := { s.pat with jobs := [{ j with tests := [{ x with locked := true, ever := true }] }] } }) ∧
        (x.locked = true → x.ever = true → Answers (.checkerLock x.port x.wl false e b) s fun t =>
          t = { s with pat := { s.pat with jobs := [{ j with tests := [{ x with
            locked := false, losses := x.losses + 1, errors := x.errors + e, bits := x.bits + b }] }] } })) ∧
      (∀ (j : LinkJob) (l : List (Nat × Nat)), s.pat.jobs = [j] → j.kind = 0 → j.started = true → j.n + j.duration ≤ s.now →
        j.owner ≠ chipOwner → Answers (.linkTestEnd j.owner j.tag l) s fun t => t.pat.jobs = [] ∧
          (∃ b, Completed s t j.owner j.tag ST.OK 0 b ∧ b.length = 128 * j.records.length) ∧
          t = { s with pat := t.pat, host := t.host, out := t.out, sw := s.fed t, free := t.free }) ∧
      (∀ (r : CmdReq) (p : List Byte), p = r.payload → Fresh s r → wireForm p = true → 20 ≤ field p 8 2 → field p 8 2 ≤ 1000 →
        s.badStart (field p 0 8) = false → s.firstWire (s.namedPorts p) false = none → Answers (.wiringVerify r) s fun t =>
          Pends s t r (s.startOf (field p 0 8)) ∧
          t.pat.jobs = s.pat.jobs ++ [{ owner := r.owner, tag := r.tag, kind := 1, n := s.startOf (field p 0 8)
                                        duration := 1000 * field p 8 2
                                        records := (s.namedPorts p).map fun q => (q, 0, 0) }] ∧
          t = { s with pat := t.pat, host := t.host, out := t.out, sw := s.fed t }) ∧
      (∀ (j : LinkJob) (p : Nat), s.isPort p = true → s.pat.jobs = [j] → j.kind = 1 → j.started = false → j.n ≤ s.now → j.records = [(p, 0, 0)] →
        s.portState p ≠ PS.UP → Answers (.wiringVerifyStart j.owner j.tag) s fun t => t.portState p = PS.DOWN ∧
          (t.port p).heard = none ∧ (∃ b, t.out.head? = some (.beacon p b)) ∧
          t.pat.jobs = [{ j with started := true, records := [(p, 0, 4)] }] ∧ t.mem = s.mem) ∧
      (∀ j : LinkJob, s.pat.jobs = [j] → j.kind = 1 → j.started = true → j.n + j.duration ≤ s.now → j.owner ≠ chipOwner →
        Answers (.wiringVerifyEnd j.owner j.tag) s fun t => t.pat.jobs = [] ∧
          (∃ b, Completed s t j.owner j.tag ST.OK 0 b ∧ b.length = 16 * j.records.length) ∧
          t = { s with pat := t.pat, host := t.host, out := t.out, sw := s.fed t, free := t.free }) ∧
      (∀ (p : Nat) (b : Beacon), s.isPort p = true → p < 144 → b.crcOk = true → s.fbit (R.OP_PORT_CTL.ENABLE p) = true →
        s.portState p ≠ PS.UP → Answers (.beaconReceive p b) s fun t => t.portState p = PS.DOWN ∧
          (t.port p).heard = some b.sender ∧ (t.port p).peerHeard = b.heard ∧ (t.port p).beaconUntil = s.now + 20000 ∧
          t.out.head? = some (.beacon p { sender := t.ownIdentity p 0, heard := some b.sender }) ∧ t.mem = s.mem) ∧
      (∀ p, (s.port p).beaconUntil ≠ 0 → (s.port p).beaconUntil ≤ s.now → s.pat.jobs = [] → Answers (.beaconTimeout p) s fun t =>
        t.port p = { s.port p with beaconUntil := 0, heard := none, peerHeard := none } ∧
        (∀ q, q ≠ p → t.port q = s.port q) ∧ t = { s with ports := t.ports }) ∧
      (∀ (r : CmdReq) (p : List Byte), p = r.payload → Fresh s r → p.length = 18 → field p 10 2 = 1 →
        field p 8 2 = 0 → s.badStart (field p 0 8) = false → field p 16 2 < 160 → field p 16 2 ≠ s.ownPos →
        (s.occupied (field p 16 2) = false → s.portState (field p 16 2) ≠ PS.UP → Answers (.connectorInspect r) s fun t =>
          Pends s t r (s.startOf (field p 0 8)) ∧
          t.pat.jobs = s.pat.jobs ++ [{ owner := r.owner, tag := r.tag, kind := 2, n := s.startOf (field p 0 8),
                                        records := [(field p 16 2, 0, 4)] }] ∧
          t = { s with pat := t.pat, host := t.host, out := t.out, sw := s.fed t }) ∧
        (s.portState (field p 16 2) = PS.UP → Answers (.connectorInspect r) s fun t => Done t r ST.BUSY 0 [] ∧
          t = { s with host := t.host, out := t.out, sw := s.fed t })) ∧
      (∀ (j : LinkJob) (p m f : Nat) (rl il : List Nat), s.isPort p = true → s.pat.jobs = [j] → j.kind = 2 → j.started = false → j.n ≤ s.now →
        j.records = [(p, m, f)] → Answers (.connectorInspectStart j.owner j.tag rl il) s fun t => t.portState p = PS.DOWN ∧
          t.out.head? = some (.light p 0xFF 2) ∧ (∃ b, t.pat.jobs = [{ j with started := true, result := b }] ∧ b.length = 20) ∧
          t.mem = s.mem) ∧
      (∀ j : LinkJob, s.pat.jobs = [j] → j.kind = 2 → j.started = true → j.n + 8000 ≤ s.now → j.owner ≠ chipOwner →
        s.si.pendingAtt = [] → Answers (.commandComplete j.owner j.tag) s fun t => t.pat.jobs = [] ∧
          Completed s t j.owner j.tag ST.OK 0 j.result ∧ t = { s with pat := t.pat, host := t.host, out := t.out, sw := s.fed t }) ∧
      (∀ k, k ≤ 1 → s.fbit R.CH_TEST.BUSY = false → (∀ i, i < 2048 → kget s.chip.testBuf i = none) → Answers (.chTestGo k) s fun t =>
        (k = 0 → Sets s t [(R.CH_TEST.KIND, 0), (R.CH_TEST.DONE, 0), (R.CH_TEST.STATUS, ST.BAD_PARAM)] ∧
          t = { s with regs := t.regs }) ∧
        (k = 1 → s.pat.jobs = [] → (∀ i, i < 16 → s.portState (160 + i) ≠ PS.UP) → t.fget R.CH_TEST.BUSY = 1 ∧
          t.fget R.CH_TEST.DONE = 0 ∧ t.fget R.CH_TEST.KIND = 1 ∧
          t.pat.jobs = [{ owner := chipOwner, kind := 2, n := s.now + 1
                          records := (List.range 16).map fun i => (160 + i, 0, 4) }] ∧ t = { s with regs := t.regs, pat := t.pat, free := t.free }))) ∧
  (∀ s : State, s.regsWf = true →
      (∀ g f, g < 16 → s.fbit (R.PGEN0.RUN g) = true → s.fget (R.PGEN0.IN_POS g) ≤ 159 → f < 1600 →
        kgetD s.pat.placed g 0 < s.patternRate g →
        (s.fget (R.PGEN2.SKIPPED g) + 1 < 2 ^ (R.PGEN2.SKIPPED g).hi → Answers (.patternPlace g f false) s fun t =>
          t.fget (R.PGEN2.SKIPPED g) = s.fget (R.PGEN2.SKIPPED g) + 1 ∧ kgetD t.pat.placed g 0 = kgetD s.pat.placed g 0 + 1 ∧
          t.pat.genSeq = s.pat.genSeq ∧ t = { s with regs := t.regs, pat := t.pat }) ∧
        (Answers (.patternPlace g f true) s fun t => kgetD t.pat.placed g 0 = kgetD s.pat.placed g 0 + 1 ∧
          kgetD t.pat.genSeq g 0 = (kgetD s.pat.genSeq g 0 + 1) % 65536 ∧ t.mem = s.mem)) ∧
      (∀ (j f : Nat) (c : Cell), j < 16 → c.typ = T.PATTERN → c.dst = 384 + s.plane → f < 1600 →
        (∀ k, k < 16 → (s.fbit (R.PCHK0.ENABLE k) = true ∧ s.fget (R.PCHK0.SRC k) = c.src ∧
          s.fget (R.PCHK0.STREAM k) = c.offset % 65536 ↔ k = j)) →
        kget s.pat.chkWins j = none → c.payload.toNat / 2 ^ 64 = prbsBits (c.offset % 65536) c.seq →
        s.fget (latField j (s.transit c f)) + 1 < 2 ^ ((latField j (s.transit c f)).hi + 1 - (latField j (s.transit c f)).lo) →
        Answers (.patternCheck c f) s fun t => t.fget (R.PCHK1.RECEIVED j) = (s.fget (R.PCHK1.RECEIVED j) + 1) % 2 ^ 64 ∧
          t.fget (R.PCHK3.BIT_ERRORS j) = s.fget (R.PCHK3.BIT_ERRORS j) ∧ t.fget (R.PCHK2.LOST j) = s.fget (R.PCHK2.LOST j) ∧
          t.fget (latField j (s.transit c f)) = s.fget (latField j (s.transit c f)) + 1 ∧
          (∃ w, kget t.pat.chkWins j = some w ∧ w.high = c.seq) ∧ t = { s with regs := t.regs, pat := t.pat }) ∧
      (∀ (j : Nat) (v : W64), j < 16 → krising s.pat.chkWins = true →
        (v.toNat % 2 = 1 → Answers (.pchkEnable j v) s fun t => t.fget (R.PCHK0.ENABLE j) = 1 ∧
          t.fget (R.PCHK0.SRC j) = bitsOf v.toNat 10 1 ∧ t.fget (R.PCHK0.STREAM j) = bitsOf v.toNat 31 16 ∧
          t.fget (R.PCHK1.RECEIVED j) = 0 ∧ t.fget (R.PCHK2.LOST j) = 0 ∧ t.fget (R.PCHK3.BIT_ERRORS j) = 0 ∧
          kget t.pat.chkWins j = none ∧ t = { s with regs := t.regs, pat := t.pat }) ∧
        (v.toNat % 2 = 0 → Answers (.pchkEnable j v) s fun t => Sets s t [(R.PCHK0.ENABLE j, 0),
          (R.PCHK0.SRC j, bitsOf v.toNat 10 1), (R.PCHK0.STREAM j, bitsOf v.toNat 31 16)] ∧ t = { s with regs := t.regs })))

/-- R245, R364, R542: a member request of the chiplet that passes every check is held and sends a JOIN to every plane of P(I);
one that fails a check is refused; an abort sends an ABORT to every plane; the chiplet's ROOT_ARM that R239 takes is held,
and another is refused with its status. -/
def Obligations.MembersAndRoots : Prop :=
  ∀ s : State,
    (∀ (rq tag ctx : Nat) (ms : Option Nat) (g : Bool) (b : List Byte), rq < 64 → ctx < 64 → s.holdsBack rq = false →
      s.now < (s.ep 17).quietUntil →
      (b.length = 64 → (s.ep 17).members = [] → (s.ep 17).roots = [] → s.planeUsable 17 0 = true → MemberOk s 17 ctx ms b →
        Answers (.collMember rq tag ctx ms g b false) s fun t => MemberHeld s t 17 ctx ms b ∧ t = { s with eps := t.eps }) ∧
      (Answers (.collMember rq tag ctx ms g b true) s fun t =>
        t = { s with out := .complete rq tag ST.BAD_PARAM [] :: s.out }) ∧
      ((∀ k ∈ ms, k < 4096) →
        (s.chipArmStatus b = ST.OK → (s.ep 17).members = [] → Answers (.collRootArm rq tag ctx ms g b false) s fun t =>
          (∃ a, (t.ep 17).roots = (s.ep 17).roots ++ [a] ∧ a.slot = field b 0 2 ∧ a.iseq = field b 4 4 ∧
            a.deadline = field b 48 8 ∧ a.rootMs = field b 44 2 ∧ a.ctx = ctx ∧ a.observer = rq ∧ a.tag = tag) ∧
          t = { s with eps := t.eps }) ∧
        (s.chipArmStatus b ≠ ST.OK → Answers (.collRootArm rq tag ctx ms g b false) s fun t =>
          t = { s with out := .complete rq tag (s.chipArmStatus b) [] :: s.out }) ∧
        (∀ m : Member, (s.ep 17).members = [m] → m.slot = field b 0 2 → m.slot < 8192 → m.group = field b 2 2 → m.group < 4096 →
          m.iseq = field b 4 4 → Answers (.collAbort rq tag ctx ms g b false) s fun t =>
            (t.ep 17).members = [{ m with aborted := true }] ∧ JoinsSent s t 17 2 m.ctx m.slot m.iseq m.group m.desc ∧
            t = { s with eps := t.eps })))

/-- R189, R215, R418, R533, R534, R557: the accelerator's messages. One that is held back changes nothing; a malformed one is
refused; a request for a distant address enters its cells; a fence, a wait and an add complete or wait; a command stream
enters its COMMAND cells. -/
def Obligations.ChipletMessages : Prop :=
  ∀ s : State, s.regsWf = true →
    (∀ (r : MemReq) (rsv : Bool), s.holdsBack r.observer = true → Answers (.request r rsv) s fun t => t = s) ∧
    (∀ (rq tag ctx scope ms dl : Nat) (keep rsv : Bool) (v : W64), s.holdsBack rq = true →
      (Answers (.syncFence rq tag ctx scope keep rsv) s fun t => t = s) ∧
      (Answers (.syncWait rq tag ctx scope keep ms v dl rsv) s fun t => t = s) ∧
      Answers (.syncAdd rq tag ctx scope ms v rsv) s fun t => t = s) ∧
    (∀ r : MemReq, r.observer < 64 → s.holdsBack r.observer = false →
      (Answers (.request r true) s fun t => t = { s with out := .complete r.observer r.tag ST.BAD_PARAM [] :: s.out }) ∧
      (∀ x : Xlat, 1 ≤ r.op → r.op ≤ 5 → r.ctx < 64 → r.scope < 8 → (lenCode r.len).isSome = true →
        r.ms.map (· % 4096) = r.ms → s.chip.selfAns = [] → (s.ep 17).waits = [] →
        (∀ w ∈ s.transEntries 17, s.badEntry 17 w = false) → s.check 17 r = (ST.OK, some x) →
        x.ga / 2 ^ 44 % 1024 ≠ s.epId 17 → s.now < (s.ep 17).quietUntil → Answers (.request r false) s fun t =>
          (∃ os, (t.ep 17).ort = (s.ep 17).ort ++ os ∧ os.length = lenCells ((lenCode r.len).getD 0) ∧ ∀ o ∈ os, o.sent = none ∧
            o.cell.typ = (if r.op ≤ 2 then T.READ else if r.op ≤ 4 then T.WRITE else T.ATOMIC) ∧ o.cell.ctx = r.ctx ∧
            o.cell.src = s.epId 17 ∧ (x.ga / 2 ^ 56 = s.epRack 17 → o.cell.dst = x.ga / 2 ^ 44 % 1024)) ∧
          (∃ q ∈ (t.ep 17).reqs, q.r = r ∧ q.dest = .complete r.observer r.tag) ∧
          t = { s with eps := t.eps, cores := t.cores })) ∧
    (∀ (rq tag ctx scope : Nat) (keep : Bool), rq < 64 → ctx < 64 → scope < 8 → s.holdsBack rq = false →
      (s.outstanding 17 rq ctx = [] → s.lostPending 17 rq ctx = false →
        Answers (.syncFence rq tag ctx scope keep false) s fun t => t.out = .complete rq tag ST.OK [] :: s.out ∧
          (∀ f ∈ (t.ep 17).fences, f ∈ (s.ep 17).fences) ∧
          t = { s with eps := t.eps, cores := t.cores, out := t.out }) ∧
      (s.outstanding 17 rq ctx ≠ [] → Answers (.syncFence rq tag ctx scope keep false) s fun t =>
        (∃ f, (t.ep 17).fences = (s.ep 17).fences ++ [f] ∧ f.kind = 0 ∧ f.observer = rq ∧ f.tag = tag ∧
          f.covers = s.outstanding 17 rq ctx) ∧ t = { s with eps := t.eps }) ∧
      (Answers (.syncFence rq tag ctx scope keep true) s fun t =>
        t = { s with out := .complete rq tag ST.BAD_PARAM [] :: s.out }) ∧
      (∀ (ms dl : Nat) (v : W64), ms < 4096 →
        (s.fget (R.MS_INFO.OWNER 17 ms) ≠ ctx → Answers (.syncWait rq tag ctx scope keep ms v dl false) s fun t =>
          t = { s with out := .complete rq tag ST.DENIED [] :: s.out }) ∧
        (s.fget (R.MS_INFO.OWNER 17 ms) = ctx → v.toNat ≤ s.fget (R.MS_COUNT.COUNT 17 ms) →
          Answers (.syncWait rq tag ctx scope keep ms v dl false) s fun t => t.out = .complete rq tag ST.OK [] :: s.out ∧
            (t.ep 17).waits = (s.ep 17).waits ∧ t = { s with eps := t.eps, cores := t.cores, out := t.out }) ∧
        (s.fget (R.MS_INFO.OWNER 17 ms) = ctx → s.fget (R.MS_COUNT.COUNT 17 ms) < v.toNat →
          (256 ≤ (s.ep 17).waits.length → Answers (.syncWait rq tag ctx scope keep ms v dl false) s fun t =>
            t = { s with out := .complete rq tag ST.BUSY [] :: s.out }) ∧
          ((s.ep 17).waits.length < 256 → Answers (.syncWait rq tag ctx scope keep ms v dl false) s fun t =>
            (∃ w, (t.ep 17).waits = (s.ep 17).waits ++ [w] ∧ w.observer = rq ∧ w.ms = ms ∧ w.target = v.toNat ∧
              w.deadline = dl ∧ w.issued = s.now) ∧ t = { s with eps := t.eps })) ∧
        (s.fget (R.MS_INFO.OWNER 17 ms) = ctx → v ≠ 0 → s.outstanding 17 rq ctx = [] → s.lostPending 17 rq ctx = false →
          (s.ep 17).waits = [] → Answers (.syncAdd rq tag ctx scope ms v false) s fun t =>
            Sets s t [(R.MS_COUNT.COUNT 17 ms, (s.fget (R.MS_COUNT.COUNT 17 ms) + v.toNat) % 2 ^ 64)] ∧
            t.out = .complete rq tag ST.OK [] :: s.out ∧ t = { s with regs := t.regs, eps := t.eps, out := t.out }) ∧
        (Answers (.syncAdd rq tag ctx scope ms 0 false) s fun t =>
          t = { s with out := .complete rq tag ST.BAD_PARAM [] :: s.out }))) ∧
    (∀ (p ctx : Nat) (b : List Byte), s.chip.hold = false → p < 16 → ctx < 64 → 32 ≤ b.length → b.length ≤ 1056 →
      s.now < (s.ep 17).quietUntil → Answers (.inbandMessage p ctx b) s fun t =>
        (∃ os, (t.ep 17).ort = (s.ep 17).ort ++ os ∧ os.map (·.cell.payload) =
            (List.range ((b.length + 55) / 56)).map (fun i => streamPiece 1 (field b 6 2) i ((b.length + 55) / 56) b) ∧
          ∀ o ∈ os, o.sent = none ∧ o.cell.typ = T.COMMAND ∧ o.cell.dst = 384 + p ∧ o.cell.src = s.epId 17 ∧ o.cell.ctx = ctx) ∧
        t = { s with eps := t.eps })

/-- R197, R535, R536, R537: home memory's answer fills the line, and what waited for it is performed; UNCORR and 64 frames of
silence answer it with ST_POISON, but a full-line WRITE is performed; a line leaves only when it awaits nothing. -/
def Obligations.HomeMemoryServes : Prop :=
  ∀ (s : State) (line : Nat) (x : StoreLine), s.chip.selfAns = [] → (s.ep 17).members = [] → (s.ep 17).roots = [] →
    (s.findLine line = some x →
      (∀ (data : BitVec 512) (k : Nat) (c : Cell), x.awaitData = true → x.waiting = [(k, c)] → k < 16 → s.planeUsable 17 k = true →
        (c.typ = T.READ → Answers (.homeData line data false) s fun t =>
          t.findLine line = some { x with data := data, valid := true, awaitData := false, waiting := [] } ∧
          CellsGo t (160 + k) [respOf c (bytesAt (lineBytes data) (c.offset % 64) c.bytes)] ∧
          t = { s with chip := t.chip, ports := t.ports, sw := t.sw, out := t.out }) ∧
        (c.typ = T.WRITE → Answers (.homeData line data false) s fun t =>
          t.findLine line = some { x with data := mergeLine data c.payload c.mask, valid := true, awaitData := false,
                                          waiting := [], awaitDone := x.awaitDone + 1, since := s.now } ∧
          CellsGo t (160 + k) [ackOf c] ∧ .homeWrite x.line c.mask (mergeLine data c.payload c.mask) ∈ t.out ∧
          t = { s with chip := t.chip, ports := t.ports, sw := t.sw, out := t.out }) ∧
        (c.typ ≠ T.WRITE ∨ c.bytes < 64 →
          (Answers (.homeData line data true) s fun t => t.findLine line = none ∧
            CellsGo t (160 + k) [nackOf c ST.POISON false 0] ∧
            t = { s with chip := t.chip, ports := t.ports, sw := t.sw, out := t.out }) ∧
          (s.regsWf = true → x.since + 64 ≤ s.now → Answers (.homeTimeout line) s fun t => t.findLine line = none ∧
            Sets s t [(R.CH_STATUS.HOME_TIMEOUT, 1)] ∧ CellsGo t (160 + k) [nackOf c ST.POISON false 0] ∧
            t = { s with regs := t.regs, chip := t.chip, ports := t.ports, sw := t.sw, out := t.out })) ∧
        (c.typ = T.WRITE → c.bytes = 64 → s.homeLine c.offset = line → Answers (.homeData line data true) s fun t =>
          (t.findLine line).any (·.valid) = true ∧ CellsGo t (160 + k) [ackOf c] ∧
          .homeWrite line c.mask (mergeLine 0 c.payload c.mask) ∈ t.out ∧
          t = { s with chip := t.chip, ports := t.ports, sw := t.sw, out := t.out })) ∧
      (s.now < x.since + 64 → Answers (.homeTimeout line) s fun t => t = s) ∧
      (Answers (.homeDone line) s fun t => t.findLine line = some { x with awaitDone := x.awaitDone - 1 } ∧
        (∀ l, l ≠ line → t.findLine l = s.findLine l) ∧ t = { s with chip := t.chip }) ∧
      (∀ (k : Nat) (c : Cell) (l : List (Nat × Cell)), takeFirst (fun a => s.homeLine a.2.offset == line) s.chip.storeQueue = some ((k, c), l) →
        x.valid = true → x.waiting = [] → c.typ = T.READ → k < 16 → s.planeUsable 17 k = true → Answers (.lineStoreAdmit line) s fun t =>
          t.chip.storeQueue = l ∧ CellsGo t (160 + k) [respOf c (bytesAt (lineBytes x.data) (c.offset % 64) c.bytes)] ∧
          t = { s with chip := t.chip, ports := t.ports, sw := t.sw, out := t.out })) ∧
    (s.findLine line = none → ∀ (k : Nat) (c : Cell) (l : List (Nat × Cell)),
      takeFirst (fun a => s.homeLine a.2.offset == line) s.chip.storeQueue = some ((k, c), l) →
      (s.homeRoom = none → Answers (.lineStoreAdmit line) s fun t => t = s) ∧
      (s.chip.store.length < 8192 → c.typ = T.READ → Answers (.lineStoreAdmit line) s fun t => t.chip.storeQueue = l ∧
        t.findLine line = some { line := line, awaitData := true, since := s.now, waiting := [(k, c)] } ∧
        t.out = .homeRead line :: s.out ∧ t = { s with chip := t.chip, out := t.out }))

/-- R531, R539, R540, R543, R544: the chiplet's switches, modules and reset. A reset completes with ST_LOST what the accelerator
waits for, empties the end-point, darkens every port and keeps the lasers' wear; a trip holds the reset until both
temperatures are under 85. That clearing PORTS_EN leaves a port UP is the model's choice (assumption 41). -/
def Obligations.ChipletControl : Prop :=
  ∀ s : State, s.regsWf = true →
    (∀ v : Bool, s.chip.hold = false → Answers (.portsEn v) s fun t => Sets s t [(R.CH_CTL.PORTS_EN, if v then 1 else 0)] ∧
      t = { s with regs := t.regs }) ∧
    (s.chip.hold = false → Answers (.sbLock true) s fun t => Sets s t [(R.CH_CTL.SB_LOCK, 1)] ∧ t = { s with regs := t.regs }) ∧
    (Answers (.sbLock false) s fun t => t = s) ∧
    (∀ m, m < 8 → s.chip.hold = false →
      (s.chip.leftOut.contains m = false → Answers (.ucieModuleTrain m true) s fun t =>
        Sets s t [(R.CH_STATUS.MODULES, s.fget R.CH_STATUS.MODULES ||| 2 ^ m)] ∧ t = { s with regs := t.regs }) ∧
      (Answers (.ucieModuleTrain m false) s fun t => bitAt (t.fget R.CH_STATUS.MODULES) m = false ∧
        t.chip.leftOut.contains m = true ∧ (∀ k, k ≠ m → bitAt (t.fget R.CH_STATUS.MODULES) k = bitAt (s.fget R.CH_STATUS.MODULES) k) ∧
        t = { s with regs := t.regs, chip := t.chip }) ∧
      (s.chip.leftOut.contains m = true → Answers (.ucieModuleTrain m true) s fun t =>
        bitAt (t.fget R.CH_STATUS.MODULES) m = false ∧ t = { s with regs := t.regs, chip := t.chip })) ∧
    (∀ (i : Instr) (j o : Nat) (h : Bool), (i = .chipletReset ∧ h = s.chip.hold) ∨
        (i = .chipletThermalTrip j o ∧ (105 ≤ j ∨ 100 ≤ o) ∧ h = true) → Answers i s fun t =>
      (∀ q ∈ s.chipOpen, Out.complete q.1 q.2 ST.LOST [] ∈ t.out) ∧
      t.ep 17 = { nextKey := (s.ep 17).nextKey, quietUntil := s.now + 1024 } ∧ t.chip = { hold := h, fwMajor := s.chip.fwMajor } ∧
      (∀ k, k < 16 → t.portState (160 + k) = PS.DOWN) ∧ (∀ a, a < 2 ^ 32 → t.reg a = s.reg a) ∧
      (∀ k, k < 2 → t.fget (R.CH_LASER.WEAR k) = s.fget (R.CH_LASER.WEAR k) ∧
        t.fget (R.CH_LASER.WORN k) = s.fget (R.CH_LASER.WORN k)) ∧
      (∀ a, 2 ^ 32 ≤ a → a ≠ R.CH_LASER.addr 0 → a ≠ R.CH_LASER.addr 1 → t.reg a = regReset s.boot.latched a) ∧
      (∀ e, e ≠ 17 → t.ep e = s.ep e) ∧ t.mem = s.mem ∧ t.cores = s.cores) ∧
    (∀ j o, j < 105 → o < 100 → s.chip.hold = false → Answers (.chipletThermalTrip j o) s fun t =>
      Sets s t [(R.CH_STATUS.JUNCTION, j), (R.CH_STATUS.OPTICAL_MAX, o)] ∧ t = { s with regs := t.regs }) ∧
    (∀ j o, j < 85 → o < 85 → Answers (.chipletThermalRelease j o) s fun t => t = { s with chip := { s.chip with hold := false } }) ∧
    (∀ j o, 85 ≤ j ∨ 85 ≤ o → Answers (.chipletThermalRelease j o) s fun t => t = s)

/-- Assumptions 1 and 2: one step takes the command at the front of the queue and is exec of it on the state with the rest of
the queue; with an empty queue the block idles. -/
def Obligations.StepTakesFront : Prop :=
  ∀ s : State, (∀ (i : Instr) (l : List Instr), s.pending = i :: l → step s = exec i { s with pending := l }) ∧
    (s.pending = [] → step s = .next s)

/-- Access codes, R299, R432: after power-on registers hold the reset values of their tables, every byte of hub memory reads as
zero, and nothing waits. -/
def Obligations.ResetState : Prop :=
  Sound State.reset ∧ State.reset.pending = [] ∧ State.reset.now = 0 ∧ (∀ h o, Memory.get State.reset.mem (hubAddr h o) = 0) ∧
    (∀ f v, (f, v) ∈ [(R.CP_ID.VENDOR, 0x0CA1), (R.CP_ID.PART, 0x0160), (R.CP_ID.STEPPING, 0x10), (R.CP_STATE.STATE, 3),
      (R.CP_STATE.PREV_STATE, 2), (R.CP_STATE_CTL.DRAIN_UNITS, 64), (R.CP_FW.CONFIRMED, 1), (R.TB_POWER.LIMIT, 17000),
      (R.SW_CTL.COMBINE_EN, 1), (R.SW_CTL.DENY_NACK, 1), (R.TG_CTL.GATHER_FRAMES, 2), (R.TG_CTL.DETOUR_MAX, 2),
      (R.TG_CTL.DETOUR_WAIT, 1), (R.PT_LADDER.BOOST_EN, 1), (R.PT_LADDER.BOOST_OK, 1), (R.PT_LADDER.BE_QUOTA, 1600),
      (R.PT_LADDER.CEILING, 21000), (R.PT_BOOST.BUDGET, 8000000), (R.SI_STATUS.IDENTITY_OK, 1), (R.AL_STATUS.TIME_INVALID, 1),
      (R.HE_CTL.H0_EN, 1), (R.HE_CTL.H1_EN, 1), (R.CH_ID.PART, 0x0161), (R.CH_CTL.EP_ID, 0x3FF), (R.TB_STATUS.LOCK, LK.FREE)] →
      State.reset.fget f = v) ∧
    (∀ h, h < 16 → State.reset.fget (R.HB_STATUS.CHANNELS h) = 96 ∧ State.reset.fget (R.HB_SIZE.POPULATED h) = 0x10E00000000 ∧
      State.reset.fget (R.HB_RETIRE_CTL.RATE h) = 4 ∧ State.reset.fget (R.HB_LINK.WIDTH h) = 8 ∧
      State.reset.fget (R.HB_BW_CAP.CAP h) = 64 ∧ State.reset.fget (R.EP_CTL.CACHE_EN h) = 1 ∧
      State.reset.fget (R.EP_CTL.BACKOFF_DEPTH h) = 16) ∧
    State.reset.fget (R.EP_CTL.VOLATILE 17) = 1 ∧ (∀ c, c < 256 → State.reset.fget (R.CO_POWER.DUTY c) = 16) ∧
    (∀ p, p < 176 → State.reset.portState p = PS.DOWN ∧ State.reset.fget (R.OP_PORT_CTL.ENABLE p) = 1)

/-- Whatever command is at the front, from a sound state the step answers a next state, and that state is sound: hub memory and
the register file stay in their canonical form. -/
def Obligations.StepsStaySound : Prop := ∀ s : State, Sound s → SafeStep s

/-- No command touches the queue, and none takes back what left the block. -/
def Obligations.QueueAndOutputsStand : Prop :=
  ∀ (i : Instr) (s t : State), exec i s = .next t → t.pending = s.pending ∧ ∃ l, t.out = l ++ s.out

/-- R20: the latched straps, and with them plane, domain and rack, change only as the sled leaves STANDBY for BOOT. -/
def Obligations.StrapsStayLatched : Prop :=
  ∀ (i : Instr) (s t : State), exec i s = .next t → t.boot.latched ≠ s.boot.latched →
    s.sled = SS.STANDBY ∧ ∃ st chk, i = .bootEntry st chk ∧ t.boot.latched = st

/-- The laws of the memories and of the register file: what was written reads back, everything else reads as before, and the
canonical form is kept. -/
def Obligations.StoresReadBack : Prop :=
  (∀ (m : Memory) (a x : Nat) (b : List Byte), Memory.wf m = true → Memory.wf (Memory.write m a b) = true ∧
    Memory.get (Memory.write m a b) x = if a ≤ x ∧ x < a + b.length then b.getD (x - a) 0 else Memory.get m x) ∧
  (∀ (s : State) (a b : Nat) (v : W64), s.regsWf = true → (s.setReg a v).regsWf = true ∧
    (s.setReg a v).reg b = if b = a then v else s.reg b) ∧
  (∀ (s : State) (f : Fld) (v : Nat), s.regsWf = true → f.lo ≤ f.hi → f.hi < 64 → v < 2 ^ (f.hi + 1 - f.lo) →
    Sets s (s.fset f v) [(f, v)])

/-- R365: a hub end-point holds up to 64 member requests; a COLL issued when 64 are held stalls the scalar engine; COLLX sends
the ABORT for the held request whose SLOT, GROUP and ISEQ are the block's, and without one it has no effect but to pass. A
COLL that passes the checks of R364 is held, and its JOINs enter. -/
def Obligations.CollRequestsHeld : Prop :=
  ∀ (s : State) (c h : Nat) (w : W64) (b : List Byte) (ms : Option Nat), h = c / 16 → b = s.sget c (s.sv c (fmtQ w).a).toNat 64 →
    ms = (if (fmtQ w).msv = 1 then some (fmtQ w).ms else none) → s.scratchFault c 32 (s.sv c (fmtQ w).a).toNat 64 = none →
    (Runs s c 2 0x36 w →
      ((s.ep h).members.length ≤ 64 → Answers (.coll c w) s fun t => (t.ep h).members.length ≤ 64) ∧
      (64 ≤ (s.ep h).members.length → Answers (.coll c w) s fun t => t = s) ∧
      (s.now < (s.ep h).quietUntil → (s.ep h).members = [] → (s.ep h).roots = [] → MemberOk s h (s.core c).run.ctx ms b →
        Answers (.coll c w) s fun t => MemberHeld s t h (s.core c).run.ctx ms b ∧ (t.eng c 2).pc = (s.eng c 2).pc + 1 ∧
          t = { s with eps := t.eps, cores := t.cores }) ∧
      ((s.ep h).members.length < 64 → blockZero b = false → ms = none → Answers (.coll c w) s fun t =>
        Fetched s t c 2 (onEngine 2 (noteStatus ST.BAD_PARAM) (s.core c).run) (s.sv c (fmtQ w).a).toNat 64)) ∧
    (Runs s c 2 0x37 w →
      (∀ m : Member, s.now < (s.ep h).quietUntil → (s.ep h).members = [m] → m.slot = field b 0 2 → m.slot < 8192 →
        m.group = field b 2 2 → m.group < 4096 → m.iseq = field b 4 4 → Answers (.collx c w) s fun t =>
          (t.ep h).members = [{ m with aborted := true }] ∧ JoinsSent s t h 2 m.ctx m.slot m.iseq m.group m.desc ∧
          (t.eng c 2).pc = (s.eng c 2).pc + 1 ∧ t = { s with eps := t.eps, cores := t.cores }) ∧
      ((∀ m ∈ (s.ep h).members, m.slot ≠ field b 0 2 % 8192 ∨ m.group ≠ field b 2 2 % 4096 ∨ m.iseq ≠ field b 4 4) →
        Answers (.collx c w) s fun t => Fetched s t c 2 (s.core c).run (s.sv c (fmtQ w).a).toNat 64))

/-- R519: GO asks for the copy at FCLK 0 of the next frame; the copy takes every TM_POS counter into TM_SHADOW and sets
TM_SNAP_FRAME and DONE; a GO written while a copy is pending is ignored. -/
def Obligations.CountersAreShadowed : Prop :=
  ∀ s : State, s.regsWf = true →
    (s.al.snapDue = none → Answers .tmSnapGo s fun t => Sets s t [(R.TM_SNAP.DONE, 0)] ∧ t.al = { s.al with snapDue := some s.now } ∧
      t = { s with regs := t.regs, al := t.al }) ∧
    (∀ f, s.al.snapDue = some f →
      (Answers .tmSnapGo s fun t => t = s) ∧ (s.now ≤ f → Answers .tmShadowCopy s fun t => t = s) ∧
      (f < s.now → Answers .tmShadowCopy s fun t =>
        (∀ x k, x < 160 → k < 8 → t.reg (R.TM_SHADOW.addr x k) = s.reg (R.TM_POS.addr x k)) ∧ t.fget R.TM_SNAP.DONE = 1 ∧
        t.fget R.TM_SNAP_FRAME.FRAME = s.now % 2 ^ 64 ∧ t.al = { s.al with snapDue := none } ∧
        t = { s with regs := t.regs, al := t.al }))

/-- R8: a read of an address where no register is assigned returns zero, a write there has no effect, and neither is reported as
an error. -/
def Obligations.UnassignedAddresses : Prop :=
  ∀ (s : State) (a : Nat) (v : W64), unassigned a = true → a % 8 = 0 → a < 2 ^ 32 →
    s.regRead a = (s, 0) ∧ (∀ f, s.regWrite a v f = s) ∧
    (s.sled ≠ SS.OFF → (Answers (.bmTransaction false a v) s fun t => t = { s with out := .bmRead a 0 :: s.out }) ∧
      Answers (.bmTransaction true a v) s fun t => t = s) ∧
    (∀ k, k < 3 → Answers (.registerWrite k a v) s fun t => t = s) ∧
    (∀ r : CmdReq, Fresh s r → r.payload = leBytes a 4 → Answers (.regRead r) s fun t =>
      Done t r ST.OK 0 (List.replicate 8 0) ∧ t = { s with host := t.host, out := t.out, sw := s.fed t }) ∧
    (∀ r : CmdReq, Fresh s r → r.payload = leBytes a 8 ++ leBytes v.toNat 8 → Answers (.regWrite r) s fun t =>
      Done t r ST.OK 0 [] ∧ t = { s with host := t.host, out := t.out, sw := s.fed t })

/-- R24: a request whose destination id is reserved completes at the requester with ST_BAD_PARAM, and nothing of it enters the
fabric. -/
def Obligations.ReservedIdsAreRefused : Prop :=
  ∀ (s : State) (e : Nat) (r : MemReq) (x : Xlat), e < 18 → r.ms = none → s.chip.selfAns = [] →
    s.lookup e r.ctx r.addr = some x → (if r.op ≤ 2 then x.read else if r.op = 5 then x.atomic else x.write) = true →
    (416 ≤ x.ga / 2 ^ 44 % 1024 ∨ (r.op = 6 ∧ 416 ≤ r.reader)) →
    s.lostPending e r.observer r.ctx = false → Answers (.requestIssue e r) s fun t =>
      (t.ep e).ort = (s.ep e).ort ∧ (t.ep e).reqs.map (·.id) = (s.ep e).reqs.map (·.id) ∧ t.mem = s.mem ∧
      (e = 17 → t.out = .complete r.observer r.tag ST.BAD_PARAM [] :: s.out) ∧ (e < 17 → t.out = s.out) ∧
      (∀ c k : Nat, e < 16 → r.observer < 64 → c = 16 * e + r.observer / 4 → k = r.observer % 4 → (s.core c).run.ctx = r.ctx →
        (s.core c).run.ra = none → k < (s.core c).run.engines.length → (s.eng c k).lastStatus = 0 →
        (t.eng c k).lastStatus = ST.BAD_PARAM ∧ (t.core c).run.s = (s.core c).run.s ∧
        (reqReturns r = true → (t.core c).run.pendingRegs.contains (r.tag % 32) = false))
end

