-- ==== Sys2Proof/Laws/Tables.lean ====
section
/-! SUPPORT. The small lemmas of sparse tables and bit ranges. -/

namespace Sys2Proof.Laws

open Sys2Proof.Machine

variable {α : Type}

/-! ## Sparse tables -/

/-- A key reads back what was set under it. -/
@[simp] theorem kget_kset_self (m : KV α) (k : Nat) (v : α) : kget (kset m k v) k = some v := by
  induction m with
  | nil => simp [kset, kget]
  | cons e t ih =>
    obtain ⟨a, w⟩ := e
    unfold kset
    split
    · simp [kget]
    · split
      · simp [kget]
      · rename_i h; simp [kget, ih, Ne.symm h]

/-- Setting one key leaves every other key as it was. -/
theorem kget_kset_ne {j k : Nat} (h : j ≠ k) (m : KV α) (v : α) : kget (kset m k v) j = kget m j := by
  induction m with
  | nil => simp [kset, kget, h.symm]
  | cons e t ih =>
    obtain ⟨a, w⟩ := e
    unfold kset
    split
    · simp [kget, h.symm]
    · split
      · rename_i h1; subst h1; simp [kget, h.symm]
      · simp [kget, ih]

/-- Removing one key leaves every other key as it was. -/
theorem kget_kdel_ne {j k : Nat} (h : j ≠ k) (m : KV α) : kget (kdel m k) j = kget m j := by
  induction m with
  | nil => rfl
  | cons e t ih =>
    obtain ⟨a, w⟩ := e
    unfold kdel
    split
    · rename_i h1; subst h1; simp [kget, h.symm]
    · simp [kget, ih]

@[simp] theorem kgetD_kset_self (m : KV α) (k : Nat) (v d : α) : kgetD (kset m k v) k d = v := by
  simp [kgetD]

theorem kgetD_kset_ne {j k : Nat} (h : j ≠ k) (m : KV α) (v d : α) : kgetD (kset m k v) j d = kgetD m j d := by
  simp [kgetD, kget_kset_ne h]

/-- A rising table is one whose keys are pairwise rising. -/
theorem krising_iff (m : KV α) : krising m = true ↔ m.Pairwise (fun a b => a.1 < b.1) := by
  induction m with
  | nil => simp [krising]
  | cons e t ih =>
    obtain ⟨a, w⟩ := e
    cases t with
    | nil => simp [krising]
    | cons f u =>
      obtain ⟨b, x⟩ := f
      simp only [krising, Bool.and_eq_true, decide_eq_true_eq, ih, List.pairwise_cons]
      constructor
      · rintro ⟨h, h1, h2⟩
        refine ⟨?_, h1, h2⟩
        intro c hc
        rcases List.mem_cons.1 hc with rfl | hc
        · exact h
        · exact h.trans (h1 c hc)
      · rintro ⟨h, h1, h2⟩
        exact ⟨h _ List.mem_cons_self, h1, h2⟩

/-- Every entry of a table after a set is an old one or the new one. -/
theorem mem_kset {m : KV α} {k : Nat} {v : α} {e : Nat × α} (h : e ∈ kset m k v) : e ∈ m ∨ e = (k, v) := by
  induction m with
  | nil => simpa [kset] using h
  | cons f t ih =>
    obtain ⟨a, w⟩ := f
    unfold kset at h
    split at h
    · rcases List.mem_cons.1 h with h | h
      · exact Or.inr h
      · exact Or.inl h
    · split at h
      · rcases List.mem_cons.1 h with h | h
        · exact Or.inr h
        · exact Or.inl (List.mem_cons_of_mem _ h)
      · rcases List.mem_cons.1 h with h | h
        · exact Or.inl (h ▸ List.mem_cons_self)
        · rcases ih h with h | h
          · exact Or.inl (List.mem_cons_of_mem _ h)
          · exact Or.inr h

/-- Every entry of a table after a removal is an old one. -/
theorem mem_kdel {m : KV α} {k : Nat} {e : Nat × α} (h : e ∈ kdel m k) : e ∈ m := by
  induction m with
  | nil => simp [kdel] at h
  | cons f t ih =>
    obtain ⟨a, w⟩ := f
    unfold kdel at h
    split at h
    · exact List.mem_cons_of_mem _ h
    · rcases List.mem_cons.1 h with h | h
      · exact h ▸ List.mem_cons_self
      · exact List.mem_cons_of_mem _ (ih h)

/-- Setting a key keeps the keys rising. -/
theorem krising_kset {m : KV α} (h : krising m = true) (k : Nat) (v : α) : krising (kset m k v) = true := by
  rw [krising_iff] at *
  induction m with
  | nil => simp [kset]
  | cons e t ih =>
    obtain ⟨a, w⟩ := e
    obtain ⟨h1, h2⟩ := List.pairwise_cons.1 h
    unfold kset
    split
    · rename_i hk
      refine List.pairwise_cons.2 ⟨?_, h⟩
      intro c hc
      rcases List.mem_cons.1 hc with rfl | hc
      · exact hk
      · exact Nat.lt_trans hk (h1 c hc)
    · split
      · rename_i _ hk; subst hk; exact List.pairwise_cons.2 ⟨h1, h2⟩
      · rename_i hk hn
        refine List.pairwise_cons.2 ⟨?_, ih h2⟩
        intro c hc
        rcases mem_kset hc with hc | rfl
        · exact h1 c hc
        · exact Nat.lt_of_le_of_ne (Nat.not_lt.1 hk) (Ne.symm hn)

/-- Removing a key keeps the keys rising. -/
theorem krising_kdel {m : KV α} (h : krising m = true) (k : Nat) : krising (kdel m k) = true := by
  rw [krising_iff] at *
  induction m with
  | nil => simp [kdel]
  | cons e t ih =>
    obtain ⟨a, w⟩ := e
    obtain ⟨h1, h2⟩ := List.pairwise_cons.1 h
    unfold kdel
    split
    · exact h2
    · exact List.pairwise_cons.2 ⟨fun c hc => h1 c (mem_kdel hc), ih h2⟩

/-- Leaving entries out keeps the keys rising. -/
theorem krising_filter {m : KV α} (h : krising m = true) (p : Nat × α → Bool) : krising (m.filter p) = true := by
  rw [krising_iff] at *
  exact h.filter p

/-- In a rising table a removed key reads as absent. -/
theorem kget_kdel_self {m : KV α} (h : krising m = true) (k : Nat) : kget (kdel m k) k = none := by
  rw [krising_iff] at h
  induction m with
  | nil => rfl
  | cons e t ih =>
    obtain ⟨a, w⟩ := e
    obtain ⟨h1, h2⟩ := List.pairwise_cons.1 h
    unfold kdel
    split
    · rename_i ha
      subst ha
      clear ih h h2
      induction t with
      | nil => rfl
      | cons f u ih =>
        obtain ⟨b, x⟩ := f
        have hb : a < b := h1 (b, x) (by simp)
        simp only [kget]
        rw [if_neg (by omega)]
        exact ih fun c hc => h1 c (List.mem_cons_of_mem _ hc)
    · rename_i ha; simp [kget, ha, ih h2]

/-! ## Bit ranges -/

theorem bitsOf_lt (v hi lo : Nat) : bitsOf v hi lo < 2 ^ (hi + 1 - lo) :=
  Nat.mod_lt _ (Nat.two_pow_pos _)

/-- A range that was written reads as the low bits of what was written. -/
theorem bitsOf_splice_self (v hi lo f : Nat) (h : lo ≤ hi + 1) :
    bitsOf (splice v hi lo f) hi lo = f % 2 ^ (hi + 1 - lo) := by
  obtain ⟨n, hn⟩ : ∃ n, hi + 1 = lo + n := ⟨hi + 1 - lo, by omega⟩
  have e : hi + 1 - lo = n := by omega
  unfold bitsOf splice
  rw [e, hn]
  have hp : 0 < 2 ^ lo := Nat.two_pow_pos _
  have : v % 2 ^ lo + f % 2 ^ n * 2 ^ lo + v / 2 ^ (lo + n) * 2 ^ (lo + n)
      = v % 2 ^ lo + 2 ^ lo * (f % 2 ^ n + 2 ^ n * (v / 2 ^ (lo + n))) := by
    rw [pow_add]; ring
  rw [this, Nat.add_mul_div_left _ _ hp, Nat.div_eq_of_lt (Nat.mod_lt _ hp), Nat.zero_add,
    Nat.add_mul_mod_self_left, Nat.mod_mod]

/-- Bits of a number, as testBit sees them. -/
theorem testBit_bitsOf (v hi lo i : Nat) :
    (bitsOf v hi lo).testBit i = (decide (i < hi + 1 - lo) && v.testBit (lo + i)) := by
  unfold bitsOf
  rw [Nat.testBit_mod_two_pow, ← Nat.shiftRight_eq_div_pow, Nat.testBit_shiftRight]

/-- A splice, bit by bit. -/
theorem testBit_splice (v hi lo f i : Nat) (h : lo ≤ hi + 1) :
    (splice v hi lo f).testBit i = if lo ≤ i ∧ i ≤ hi then f.testBit (i - lo) else v.testBit i := by
  obtain ⟨n, hn⟩ : ∃ n, hi + 1 = lo + n := ⟨hi + 1 - lo, by omega⟩
  have e : hi + 1 - lo = n := by omega
  unfold splice
  rw [e, hn]
  have : v % 2 ^ lo + f % 2 ^ n * 2 ^ lo + v / 2 ^ (lo + n) * 2 ^ (lo + n)
      = 2 ^ lo * (2 ^ n * (v / 2 ^ (lo + n)) + f % 2 ^ n) + v % 2 ^ lo := by
    rw [pow_add]; ring
  rw [this, Nat.testBit_two_pow_mul_add _ (Nat.mod_lt _ (Nat.two_pow_pos _))]
  split
  · rename_i hi1
    rw [if_neg (by omega), Nat.testBit_mod_two_pow]; simp [hi1]
  · rename_i hi1
    rw [Nat.testBit_two_pow_mul_add _ (Nat.mod_lt _ (Nat.two_pow_pos _))]
    split
    · rename_i hi2
      rw [if_pos (by omega), Nat.testBit_mod_two_pow]; simp [hi2]
    · rename_i hi2
      rw [if_neg (by omega), ← Nat.shiftRight_eq_div_pow, Nat.testBit_shiftRight]
      congr 1; omega

/-- A range apart from the one written reads as before. -/
theorem bitsOf_splice_ne (v hi lo f hj lj : Nat) (h : lo ≤ hi + 1) (d : hj < lo ∨ hi < lj) :
    bitsOf (splice v hi lo f) hj lj = bitsOf v hj lj := by
  apply Nat.eq_of_testBit_eq
  intro i
  rw [testBit_bitsOf, testBit_bitsOf]
  by_cases hi1 : i < hj + 1 - lj
  · rw [testBit_splice _ _ _ _ _ h, if_neg (by omega)]
  · simp [hi1]

/-- A splice of a 64-bit value within its bits stays within them. -/
theorem splice_lt {v hi lo f : Nat} (h : lo ≤ hi + 1) (hv : v < 2 ^ 64) (hh : hi < 64) : splice v hi lo f < 2 ^ 64 := by
  apply Nat.lt_pow_two_of_testBit
  intro i hi1
  rw [testBit_splice _ _ _ _ _ h, if_neg (by omega)]
  exact Nat.testBit_lt_two_pow (lt_of_lt_of_le hv (Nat.pow_le_pow_right (by omega) hi1))

end Sys2Proof.Laws
end

