-- ==== Sys2Proof/Laws/State.lean ====
section
/-! SUPPORT. One lemma per field of State per named update, each true by unfolding, and what the named reads see after the
named updates. -/

namespace Sys2Proof.Machine

/-! ## setReg -/

@[simp] theorem State.setReg_tb (s : State) (a : Nat) (v : W64) : (s.setReg a v).tb = s.tb := rfl
@[simp] theorem State.setReg_mem (s : State) (a : Nat) (v : W64) : (s.setReg a v).mem = s.mem := rfl
@[simp] theorem State.setReg_tt (s : State) (a : Nat) (v : W64) : (s.setReg a v).tt = s.tt := rfl
@[simp] theorem State.setReg_ports (s : State) (a : Nat) (v : W64) : (s.setReg a v).ports = s.ports := rfl
@[simp] theorem State.setReg_sw (s : State) (a : Nat) (v : W64) : (s.setReg a v).sw = s.sw := rfl
@[simp] theorem State.setReg_sg (s : State) (a : Nat) (v : W64) : (s.setReg a v).sg = s.sg := rfl
@[simp] theorem State.setReg_tg (s : State) (a : Nat) (v : W64) : (s.setReg a v).tg = s.tg := rfl
@[simp] theorem State.setReg_eps (s : State) (a : Nat) (v : W64) : (s.setReg a v).eps = s.eps := rfl
@[simp] theorem State.setReg_rd (s : State) (a : Nat) (v : W64) : (s.setReg a v).rd = s.rd := rfl
@[simp] theorem State.setReg_hubs (s : State) (a : Nat) (v : W64) : (s.setReg a v).hubs = s.hubs := rfl
@[simp] theorem State.setReg_cores (s : State) (a : Nat) (v : W64) : (s.setReg a v).cores = s.cores := rfl
@[simp] theorem State.setReg_kern (s : State) (a : Nat) (v : W64) : (s.setReg a v).kern = s.kern := rfl
@[simp] theorem State.setReg_host (s : State) (a : Nat) (v : W64) : (s.setReg a v).host = s.host := rfl
@[simp] theorem State.setReg_boot (s : State) (a : Nat) (v : W64) : (s.setReg a v).boot = s.boot := rfl
@[simp] theorem State.setReg_vigil (s : State) (a : Nat) (v : W64) : (s.setReg a v).vigil = s.vigil := rfl
@[simp] theorem State.setReg_power (s : State) (a : Nat) (v : W64) : (s.setReg a v).power = s.power := rfl
@[simp] theorem State.setReg_si (s : State) (a : Nat) (v : W64) : (s.setReg a v).si = s.si := rfl
@[simp] theorem State.setReg_al (s : State) (a : Nat) (v : W64) : (s.setReg a v).al = s.al := rfl
@[simp] theorem State.setReg_pat (s : State) (a : Nat) (v : W64) : (s.setReg a v).pat = s.pat := rfl
@[simp] theorem State.setReg_chip (s : State) (a : Nat) (v : W64) : (s.setReg a v).chip = s.chip := rfl
@[simp] theorem State.setReg_free (s : State) (a : Nat) (v : W64) : (s.setReg a v).free = s.free := rfl
@[simp] theorem State.setReg_out (s : State) (a : Nat) (v : W64) : (s.setReg a v).out = s.out := rfl
@[simp] theorem State.setReg_pending (s : State) (a : Nat) (v : W64) : (s.setReg a v).pending = s.pending := rfl

/-! ## fset -/

@[simp] theorem State.fset_tb (s : State) (f : Fld) (v : Nat) : (s.fset f v).tb = s.tb := rfl
@[simp] theorem State.fset_mem (s : State) (f : Fld) (v : Nat) : (s.fset f v).mem = s.mem := rfl
@[simp] theorem State.fset_tt (s : State) (f : Fld) (v : Nat) : (s.fset f v).tt = s.tt := rfl
@[simp] theorem State.fset_ports (s : State) (f : Fld) (v : Nat) : (s.fset f v).ports = s.ports := rfl
@[simp] theorem State.fset_sw (s : State) (f : Fld) (v : Nat) : (s.fset f v).sw = s.sw := rfl
@[simp] theorem State.fset_sg (s : State) (f : Fld) (v : Nat) : (s.fset f v).sg = s.sg := rfl
@[simp] theorem State.fset_tg (s : State) (f : Fld) (v : Nat) : (s.fset f v).tg = s.tg := rfl
@[simp] theorem State.fset_eps (s : State) (f : Fld) (v : Nat) : (s.fset f v).eps = s.eps := rfl
@[simp] theorem State.fset_rd (s : State) (f : Fld) (v : Nat) : (s.fset f v).rd = s.rd := rfl
@[simp] theorem State.fset_hubs (s : State) (f : Fld) (v : Nat) : (s.fset f v).hubs = s.hubs := rfl
@[simp] theorem State.fset_cores (s : State) (f : Fld) (v : Nat) : (s.fset f v).cores = s.cores := rfl
@[simp] theorem State.fset_kern (s : State) (f : Fld) (v : Nat) : (s.fset f v).kern = s.kern := rfl
@[simp] theorem State.fset_host (s : State) (f : Fld) (v : Nat) : (s.fset f v).host = s.host := rfl
@[simp] theorem State.fset_boot (s : State) (f : Fld) (v : Nat) : (s.fset f v).boot = s.boot := rfl
@[simp] theorem State.fset_vigil (s : State) (f : Fld) (v : Nat) : (s.fset f v).vigil = s.vigil := rfl
@[simp] theorem State.fset_power (s : State) (f : Fld) (v : Nat) : (s.fset f v).power = s.power := rfl
@[simp] theorem State.fset_si (s : State) (f : Fld) (v : Nat) : (s.fset f v).si = s.si := rfl
@[simp] theorem State.fset_al (s : State) (f : Fld) (v : Nat) : (s.fset f v).al = s.al := rfl
@[simp] theorem State.fset_pat (s : State) (f : Fld) (v : Nat) : (s.fset f v).pat = s.pat := rfl
@[simp] theorem State.fset_chip (s : State) (f : Fld) (v : Nat) : (s.fset f v).chip = s.chip := rfl
@[simp] theorem State.fset_free (s : State) (f : Fld) (v : Nat) : (s.fset f v).free = s.free := rfl
@[simp] theorem State.fset_out (s : State) (f : Fld) (v : Nat) : (s.fset f v).out = s.out := rfl
@[simp] theorem State.fset_pending (s : State) (f : Fld) (v : Nat) : (s.fset f v).pending = s.pending := rfl

/-! ## fsetb -/

@[simp] theorem State.fsetb_tb (s : State) (f : Fld) (v : Bool) : (s.fsetb f v).tb = s.tb := rfl
@[simp] theorem State.fsetb_mem (s : State) (f : Fld) (v : Bool) : (s.fsetb f v).mem = s.mem := rfl
@[simp] theorem State.fsetb_tt (s : State) (f : Fld) (v : Bool) : (s.fsetb f v).tt = s.tt := rfl
@[simp] theorem State.fsetb_ports (s : State) (f : Fld) (v : Bool) : (s.fsetb f v).ports = s.ports := rfl
@[simp] theorem State.fsetb_sw (s : State) (f : Fld) (v : Bool) : (s.fsetb f v).sw = s.sw := rfl
@[simp] theorem State.fsetb_sg (s : State) (f : Fld) (v : Bool) : (s.fsetb f v).sg = s.sg := rfl
@[simp] theorem State.fsetb_tg (s : State) (f : Fld) (v : Bool) : (s.fsetb f v).tg = s.tg := rfl
@[simp] theorem State.fsetb_eps (s : State) (f : Fld) (v : Bool) : (s.fsetb f v).eps = s.eps := rfl
@[simp] theorem State.fsetb_rd (s : State) (f : Fld) (v : Bool) : (s.fsetb f v).rd = s.rd := rfl
@[simp] theorem State.fsetb_hubs (s : State) (f : Fld) (v : Bool) : (s.fsetb f v).hubs = s.hubs := rfl
@[simp] theorem State.fsetb_cores (s : State) (f : Fld) (v : Bool) : (s.fsetb f v).cores = s.cores := rfl
@[simp] theorem State.fsetb_kern (s : State) (f : Fld) (v : Bool) : (s.fsetb f v).kern = s.kern := rfl
@[simp] theorem State.fsetb_host (s : State) (f : Fld) (v : Bool) : (s.fsetb f v).host = s.host := rfl
@[simp] theorem State.fsetb_boot (s : State) (f : Fld) (v : Bool) : (s.fsetb f v).boot = s.boot := rfl
@[simp] theorem State.fsetb_vigil (s : State) (f : Fld) (v : Bool) : (s.fsetb f v).vigil = s.vigil := rfl
@[simp] theorem State.fsetb_power (s : State) (f : Fld) (v : Bool) : (s.fsetb f v).power = s.power := rfl
@[simp] theorem State.fsetb_si (s : State) (f : Fld) (v : Bool) : (s.fsetb f v).si = s.si := rfl
@[simp] theorem State.fsetb_al (s : State) (f : Fld) (v : Bool) : (s.fsetb f v).al = s.al := rfl
@[simp] theorem State.fsetb_pat (s : State) (f : Fld) (v : Bool) : (s.fsetb f v).pat = s.pat := rfl
@[simp] theorem State.fsetb_chip (s : State) (f : Fld) (v : Bool) : (s.fsetb f v).chip = s.chip := rfl
@[simp] theorem State.fsetb_free (s : State) (f : Fld) (v : Bool) : (s.fsetb f v).free = s.free := rfl
@[simp] theorem State.fsetb_out (s : State) (f : Fld) (v : Bool) : (s.fsetb f v).out = s.out := rfl
@[simp] theorem State.fsetb_pending (s : State) (f : Fld) (v : Bool) : (s.fsetb f v).pending = s.pending := rfl

/-! ## fsat -/

@[simp] theorem State.fsat_tb (s : State) (f : Fld) (n : Nat) : (s.fsat f n).tb = s.tb := rfl
@[simp] theorem State.fsat_mem (s : State) (f : Fld) (n : Nat) : (s.fsat f n).mem = s.mem := rfl
@[simp] theorem State.fsat_tt (s : State) (f : Fld) (n : Nat) : (s.fsat f n).tt = s.tt := rfl
@[simp] theorem State.fsat_ports (s : State) (f : Fld) (n : Nat) : (s.fsat f n).ports = s.ports := rfl
@[simp] theorem State.fsat_sw (s : State) (f : Fld) (n : Nat) : (s.fsat f n).sw = s.sw := rfl
@[simp] theorem State.fsat_sg (s : State) (f : Fld) (n : Nat) : (s.fsat f n).sg = s.sg := rfl
@[simp] theorem State.fsat_tg (s : State) (f : Fld) (n : Nat) : (s.fsat f n).tg = s.tg := rfl
@[simp] theorem State.fsat_eps (s : State) (f : Fld) (n : Nat) : (s.fsat f n).eps = s.eps := rfl
@[simp] theorem State.fsat_rd (s : State) (f : Fld) (n : Nat) : (s.fsat f n).rd = s.rd := rfl
@[simp] theorem State.fsat_hubs (s : State) (f : Fld) (n : Nat) : (s.fsat f n).hubs = s.hubs := rfl
@[simp] theorem State.fsat_cores (s : State) (f : Fld) (n : Nat) : (s.fsat f n).cores = s.cores := rfl
@[simp] theorem State.fsat_kern (s : State) (f : Fld) (n : Nat) : (s.fsat f n).kern = s.kern := rfl
@[simp] theorem State.fsat_host (s : State) (f : Fld) (n : Nat) : (s.fsat f n).host = s.host := rfl
@[simp] theorem State.fsat_boot (s : State) (f : Fld) (n : Nat) : (s.fsat f n).boot = s.boot := rfl
@[simp] theorem State.fsat_vigil (s : State) (f : Fld) (n : Nat) : (s.fsat f n).vigil = s.vigil := rfl
@[simp] theorem State.fsat_power (s : State) (f : Fld) (n : Nat) : (s.fsat f n).power = s.power := rfl
@[simp] theorem State.fsat_si (s : State) (f : Fld) (n : Nat) : (s.fsat f n).si = s.si := rfl
@[simp] theorem State.fsat_al (s : State) (f : Fld) (n : Nat) : (s.fsat f n).al = s.al := rfl
@[simp] theorem State.fsat_pat (s : State) (f : Fld) (n : Nat) : (s.fsat f n).pat = s.pat := rfl
@[simp] theorem State.fsat_chip (s : State) (f : Fld) (n : Nat) : (s.fsat f n).chip = s.chip := rfl
@[simp] theorem State.fsat_free (s : State) (f : Fld) (n : Nat) : (s.fsat f n).free = s.free := rfl
@[simp] theorem State.fsat_out (s : State) (f : Fld) (n : Nat) : (s.fsat f n).out = s.out := rfl
@[simp] theorem State.fsat_pending (s : State) (f : Fld) (n : Nat) : (s.fsat f n).pending = s.pending := rfl

/-! ## freeUsed -/

@[simp] theorem State.freeUsed_tb (s : State) : (s.freeUsed).tb = s.tb := rfl
@[simp] theorem State.freeUsed_regs (s : State) : (s.freeUsed).regs = s.regs := rfl
@[simp] theorem State.freeUsed_mem (s : State) : (s.freeUsed).mem = s.mem := rfl
@[simp] theorem State.freeUsed_tt (s : State) : (s.freeUsed).tt = s.tt := rfl
@[simp] theorem State.freeUsed_ports (s : State) : (s.freeUsed).ports = s.ports := rfl
@[simp] theorem State.freeUsed_sw (s : State) : (s.freeUsed).sw = s.sw := rfl
@[simp] theorem State.freeUsed_sg (s : State) : (s.freeUsed).sg = s.sg := rfl
@[simp] theorem State.freeUsed_tg (s : State) : (s.freeUsed).tg = s.tg := rfl
@[simp] theorem State.freeUsed_eps (s : State) : (s.freeUsed).eps = s.eps := rfl
@[simp] theorem State.freeUsed_rd (s : State) : (s.freeUsed).rd = s.rd := rfl
@[simp] theorem State.freeUsed_hubs (s : State) : (s.freeUsed).hubs = s.hubs := rfl
@[simp] theorem State.freeUsed_cores (s : State) : (s.freeUsed).cores = s.cores := rfl
@[simp] theorem State.freeUsed_kern (s : State) : (s.freeUsed).kern = s.kern := rfl
@[simp] theorem State.freeUsed_host (s : State) : (s.freeUsed).host = s.host := rfl
@[simp] theorem State.freeUsed_boot (s : State) : (s.freeUsed).boot = s.boot := rfl
@[simp] theorem State.freeUsed_vigil (s : State) : (s.freeUsed).vigil = s.vigil := rfl
@[simp] theorem State.freeUsed_power (s : State) : (s.freeUsed).power = s.power := rfl
@[simp] theorem State.freeUsed_si (s : State) : (s.freeUsed).si = s.si := rfl
@[simp] theorem State.freeUsed_al (s : State) : (s.freeUsed).al = s.al := rfl
@[simp] theorem State.freeUsed_pat (s : State) : (s.freeUsed).pat = s.pat := rfl
@[simp] theorem State.freeUsed_chip (s : State) : (s.freeUsed).chip = s.chip := rfl
@[simp] theorem State.freeUsed_free (s : State) : (s.freeUsed).free = s.free + 1 := rfl
@[simp] theorem State.freeUsed_out (s : State) : (s.freeUsed).out = s.out := rfl
@[simp] theorem State.freeUsed_pending (s : State) : (s.freeUsed).pending = s.pending := rfl

/-! ## hubWrite -/

@[simp] theorem State.hubWrite_tb (s : State) (h o : Nat) (b : List Byte) : (s.hubWrite h o b).tb = s.tb := rfl
@[simp] theorem State.hubWrite_regs (s : State) (h o : Nat) (b : List Byte) : (s.hubWrite h o b).regs = s.regs := rfl
@[simp] theorem State.hubWrite_mem (s : State) (h o : Nat) (b : List Byte) : (s.hubWrite h o b).mem = Memory.write s.mem (hubAddr h o) b := rfl
@[simp] theorem State.hubWrite_tt (s : State) (h o : Nat) (b : List Byte) : (s.hubWrite h o b).tt = s.tt := rfl
@[simp] theorem State.hubWrite_ports (s : State) (h o : Nat) (b : List Byte) : (s.hubWrite h o b).ports = s.ports := rfl
@[simp] theorem State.hubWrite_sw (s : State) (h o : Nat) (b : List Byte) : (s.hubWrite h o b).sw = s.sw := rfl
@[simp] theorem State.hubWrite_sg (s : State) (h o : Nat) (b : List Byte) : (s.hubWrite h o b).sg = s.sg := rfl
@[simp] theorem State.hubWrite_tg (s : State) (h o : Nat) (b : List Byte) : (s.hubWrite h o b).tg = s.tg := rfl
@[simp] theorem State.hubWrite_eps (s : State) (h o : Nat) (b : List Byte) : (s.hubWrite h o b).eps = s.eps := rfl
@[simp] theorem State.hubWrite_rd (s : State) (h o : Nat) (b : List Byte) : (s.hubWrite h o b).rd = s.rd := rfl
@[simp] theorem State.hubWrite_hubs (s : State) (h o : Nat) (b : List Byte) : (s.hubWrite h o b).hubs = s.hubs := rfl
@[simp] theorem State.hubWrite_cores (s : State) (h o : Nat) (b : List Byte) : (s.hubWrite h o b).cores = s.cores := rfl
@[simp] theorem State.hubWrite_kern (s : State) (h o : Nat) (b : List Byte) : (s.hubWrite h o b).kern = s.kern := rfl
@[simp] theorem State.hubWrite_host (s : State) (h o : Nat) (b : List Byte) : (s.hubWrite h o b).host = s.host := rfl
@[simp] theorem State.hubWrite_boot (s : State) (h o : Nat) (b : List Byte) : (s.hubWrite h o b).boot = s.boot := rfl
@[simp] theorem State.hubWrite_vigil (s : State) (h o : Nat) (b : List Byte) : (s.hubWrite h o b).vigil = s.vigil := rfl
@[simp] theorem State.hubWrite_power (s : State) (h o : Nat) (b : List Byte) : (s.hubWrite h o b).power = s.power := rfl
@[simp] theorem State.hubWrite_si (s : State) (h o : Nat) (b : List Byte) : (s.hubWrite h o b).si = s.si := rfl
@[simp] theorem State.hubWrite_al (s : State) (h o : Nat) (b : List Byte) : (s.hubWrite h o b).al = s.al := rfl
@[simp] theorem State.hubWrite_pat (s : State) (h o : Nat) (b : List Byte) : (s.hubWrite h o b).pat = s.pat := rfl
@[simp] theorem State.hubWrite_chip (s : State) (h o : Nat) (b : List Byte) : (s.hubWrite h o b).chip = s.chip := rfl
@[simp] theorem State.hubWrite_free (s : State) (h o : Nat) (b : List Byte) : (s.hubWrite h o b).free = s.free := rfl
@[simp] theorem State.hubWrite_out (s : State) (h o : Nat) (b : List Byte) : (s.hubWrite h o b).out = s.out := rfl
@[simp] theorem State.hubWrite_pending (s : State) (h o : Nat) (b : List Byte) : (s.hubWrite h o b).pending = s.pending := rfl

/-! ## emit -/

@[simp] theorem State.emit_tb (s : State) (o : Out) : (s.emit o).tb = s.tb := rfl
@[simp] theorem State.emit_regs (s : State) (o : Out) : (s.emit o).regs = s.regs := rfl
@[simp] theorem State.emit_mem (s : State) (o : Out) : (s.emit o).mem = s.mem := rfl
@[simp] theorem State.emit_tt (s : State) (o : Out) : (s.emit o).tt = s.tt := rfl
@[simp] theorem State.emit_ports (s : State) (o : Out) : (s.emit o).ports = s.ports := rfl
@[simp] theorem State.emit_sw (s : State) (o : Out) : (s.emit o).sw = s.sw := rfl
@[simp] theorem State.emit_sg (s : State) (o : Out) : (s.emit o).sg = s.sg := rfl
@[simp] theorem State.emit_tg (s : State) (o : Out) : (s.emit o).tg = s.tg := rfl
@[simp] theorem State.emit_eps (s : State) (o : Out) : (s.emit o).eps = s.eps := rfl
@[simp] theorem State.emit_rd (s : State) (o : Out) : (s.emit o).rd = s.rd := rfl
@[simp] theorem State.emit_hubs (s : State) (o : Out) : (s.emit o).hubs = s.hubs := rfl
@[simp] theorem State.emit_cores (s : State) (o : Out) : (s.emit o).cores = s.cores := rfl
@[simp] theorem State.emit_kern (s : State) (o : Out) : (s.emit o).kern = s.kern := rfl
@[simp] theorem State.emit_host (s : State) (o : Out) : (s.emit o).host = s.host := rfl
@[simp] theorem State.emit_boot (s : State) (o : Out) : (s.emit o).boot = s.boot := rfl
@[simp] theorem State.emit_vigil (s : State) (o : Out) : (s.emit o).vigil = s.vigil := rfl
@[simp] theorem State.emit_power (s : State) (o : Out) : (s.emit o).power = s.power := rfl
@[simp] theorem State.emit_si (s : State) (o : Out) : (s.emit o).si = s.si := rfl
@[simp] theorem State.emit_al (s : State) (o : Out) : (s.emit o).al = s.al := rfl
@[simp] theorem State.emit_pat (s : State) (o : Out) : (s.emit o).pat = s.pat := rfl
@[simp] theorem State.emit_chip (s : State) (o : Out) : (s.emit o).chip = s.chip := rfl
@[simp] theorem State.emit_free (s : State) (o : Out) : (s.emit o).free = s.free := rfl
@[simp] theorem State.emit_out (s : State) (o : Out) : (s.emit o).out = o :: s.out := rfl
@[simp] theorem State.emit_pending (s : State) (o : Out) : (s.emit o).pending = s.pending := rfl

/-! ## alert -/

@[simp] theorem State.alert_tb (s : State) (b : Nat) : (s.alert b).tb = s.tb := rfl
@[simp] theorem State.alert_mem (s : State) (b : Nat) : (s.alert b).mem = s.mem := rfl
@[simp] theorem State.alert_tt (s : State) (b : Nat) : (s.alert b).tt = s.tt := rfl
@[simp] theorem State.alert_ports (s : State) (b : Nat) : (s.alert b).ports = s.ports := rfl
@[simp] theorem State.alert_sw (s : State) (b : Nat) : (s.alert b).sw = s.sw := rfl
@[simp] theorem State.alert_sg (s : State) (b : Nat) : (s.alert b).sg = s.sg := rfl
@[simp] theorem State.alert_tg (s : State) (b : Nat) : (s.alert b).tg = s.tg := rfl
@[simp] theorem State.alert_eps (s : State) (b : Nat) : (s.alert b).eps = s.eps := rfl
@[simp] theorem State.alert_rd (s : State) (b : Nat) : (s.alert b).rd = s.rd := rfl
@[simp] theorem State.alert_hubs (s : State) (b : Nat) : (s.alert b).hubs = s.hubs := rfl
@[simp] theorem State.alert_cores (s : State) (b : Nat) : (s.alert b).cores = s.cores := rfl
@[simp] theorem State.alert_kern (s : State) (b : Nat) : (s.alert b).kern = s.kern := rfl
@[simp] theorem State.alert_host (s : State) (b : Nat) : (s.alert b).host = s.host := rfl
@[simp] theorem State.alert_boot (s : State) (b : Nat) : (s.alert b).boot = s.boot := rfl
@[simp] theorem State.alert_vigil (s : State) (b : Nat) : (s.alert b).vigil = s.vigil := rfl
@[simp] theorem State.alert_power (s : State) (b : Nat) : (s.alert b).power = s.power := rfl
@[simp] theorem State.alert_si (s : State) (b : Nat) : (s.alert b).si = s.si := rfl
@[simp] theorem State.alert_al (s : State) (b : Nat) : (s.alert b).al = s.al := rfl
@[simp] theorem State.alert_pat (s : State) (b : Nat) : (s.alert b).pat = s.pat := rfl
@[simp] theorem State.alert_chip (s : State) (b : Nat) : (s.alert b).chip = s.chip := rfl
@[simp] theorem State.alert_free (s : State) (b : Nat) : (s.alert b).free = s.free := rfl
@[simp] theorem State.alert_out (s : State) (b : Nat) : (s.alert b).out = .alert b :: s.out := rfl
@[simp] theorem State.alert_pending (s : State) (b : Nat) : (s.alert b).pending = s.pending := rfl

/-! ## setPort -/

@[simp] theorem State.setPort_tb (s : State) (p : Nat) (x : PortSt) : (s.setPort p x).tb = s.tb := rfl
@[simp] theorem State.setPort_regs (s : State) (p : Nat) (x : PortSt) : (s.setPort p x).regs = s.regs := rfl
@[simp] theorem State.setPort_mem (s : State) (p : Nat) (x : PortSt) : (s.setPort p x).mem = s.mem := rfl
@[simp] theorem State.setPort_tt (s : State) (p : Nat) (x : PortSt) : (s.setPort p x).tt = s.tt := rfl
@[simp] theorem State.setPort_ports (s : State) (p : Nat) (x : PortSt) : (s.setPort p x).ports = kset s.ports p x := rfl
@[simp] theorem State.setPort_sw (s : State) (p : Nat) (x : PortSt) : (s.setPort p x).sw = s.sw := rfl
@[simp] theorem State.setPort_sg (s : State) (p : Nat) (x : PortSt) : (s.setPort p x).sg = s.sg := rfl
@[simp] theorem State.setPort_tg (s : State) (p : Nat) (x : PortSt) : (s.setPort p x).tg = s.tg := rfl
@[simp] theorem State.setPort_eps (s : State) (p : Nat) (x : PortSt) : (s.setPort p x).eps = s.eps := rfl
@[simp] theorem State.setPort_rd (s : State) (p : Nat) (x : PortSt) : (s.setPort p x).rd = s.rd := rfl
@[simp] theorem State.setPort_hubs (s : State) (p : Nat) (x : PortSt) : (s.setPort p x).hubs = s.hubs := rfl
@[simp] theorem State.setPort_cores (s : State) (p : Nat) (x : PortSt) : (s.setPort p x).cores = s.cores := rfl
@[simp] theorem State.setPort_kern (s : State) (p : Nat) (x : PortSt) : (s.setPort p x).kern = s.kern := rfl
@[simp] theorem State.setPort_host (s : State) (p : Nat) (x : PortSt) : (s.setPort p x).host = s.host := rfl
@[simp] theorem State.setPort_boot (s : State) (p : Nat) (x : PortSt) : (s.setPort p x).boot = s.boot := rfl
@[simp] theorem State.setPort_vigil (s : State) (p : Nat) (x : PortSt) : (s.setPort p x).vigil = s.vigil := rfl
@[simp] theorem State.setPort_power (s : State) (p : Nat) (x : PortSt) : (s.setPort p x).power = s.power := rfl
@[simp] theorem State.setPort_si (s : State) (p : Nat) (x : PortSt) : (s.setPort p x).si = s.si := rfl
@[simp] theorem State.setPort_al (s : State) (p : Nat) (x : PortSt) : (s.setPort p x).al = s.al := rfl
@[simp] theorem State.setPort_pat (s : State) (p : Nat) (x : PortSt) : (s.setPort p x).pat = s.pat := rfl
@[simp] theorem State.setPort_chip (s : State) (p : Nat) (x : PortSt) : (s.setPort p x).chip = s.chip := rfl
@[simp] theorem State.setPort_free (s : State) (p : Nat) (x : PortSt) : (s.setPort p x).free = s.free := rfl
@[simp] theorem State.setPort_out (s : State) (p : Nat) (x : PortSt) : (s.setPort p x).out = s.out := rfl
@[simp] theorem State.setPort_pending (s : State) (p : Nat) (x : PortSt) : (s.setPort p x).pending = s.pending := rfl

/-! ## setEp -/

@[simp] theorem State.setEp_tb (s : State) (e : Nat) (x : Endpoint) : (s.setEp e x).tb = s.tb := rfl
@[simp] theorem State.setEp_regs (s : State) (e : Nat) (x : Endpoint) : (s.setEp e x).regs = s.regs := rfl
@[simp] theorem State.setEp_mem (s : State) (e : Nat) (x : Endpoint) : (s.setEp e x).mem = s.mem := rfl
@[simp] theorem State.setEp_tt (s : State) (e : Nat) (x : Endpoint) : (s.setEp e x).tt = s.tt := rfl
@[simp] theorem State.setEp_ports (s : State) (e : Nat) (x : Endpoint) : (s.setEp e x).ports = s.ports := rfl
@[simp] theorem State.setEp_sw (s : State) (e : Nat) (x : Endpoint) : (s.setEp e x).sw = s.sw := rfl
@[simp] theorem State.setEp_sg (s : State) (e : Nat) (x : Endpoint) : (s.setEp e x).sg = s.sg := rfl
@[simp] theorem State.setEp_tg (s : State) (e : Nat) (x : Endpoint) : (s.setEp e x).tg = s.tg := rfl
@[simp] theorem State.setEp_eps (s : State) (e : Nat) (x : Endpoint) : (s.setEp e x).eps = kset s.eps e x := rfl
@[simp] theorem State.setEp_rd (s : State) (e : Nat) (x : Endpoint) : (s.setEp e x).rd = s.rd := rfl
@[simp] theorem State.setEp_hubs (s : State) (e : Nat) (x : Endpoint) : (s.setEp e x).hubs = s.hubs := rfl
@[simp] theorem State.setEp_cores (s : State) (e : Nat) (x : Endpoint) : (s.setEp e x).cores = s.cores := rfl
@[simp] theorem State.setEp_kern (s : State) (e : Nat) (x : Endpoint) : (s.setEp e x).kern = s.kern := rfl
@[simp] theorem State.setEp_host (s : State) (e : Nat) (x : Endpoint) : (s.setEp e x).host = s.host := rfl
@[simp] theorem State.setEp_boot (s : State) (e : Nat) (x : Endpoint) : (s.setEp e x).boot = s.boot := rfl
@[simp] theorem State.setEp_vigil (s : State) (e : Nat) (x : Endpoint) : (s.setEp e x).vigil = s.vigil := rfl
@[simp] theorem State.setEp_power (s : State) (e : Nat) (x : Endpoint) : (s.setEp e x).power = s.power := rfl
@[simp] theorem State.setEp_si (s : State) (e : Nat) (x : Endpoint) : (s.setEp e x).si = s.si := rfl
@[simp] theorem State.setEp_al (s : State) (e : Nat) (x : Endpoint) : (s.setEp e x).al = s.al := rfl
@[simp] theorem State.setEp_pat (s : State) (e : Nat) (x : Endpoint) : (s.setEp e x).pat = s.pat := rfl
@[simp] theorem State.setEp_chip (s : State) (e : Nat) (x : Endpoint) : (s.setEp e x).chip = s.chip := rfl
@[simp] theorem State.setEp_free (s : State) (e : Nat) (x : Endpoint) : (s.setEp e x).free = s.free := rfl
@[simp] theorem State.setEp_out (s : State) (e : Nat) (x : Endpoint) : (s.setEp e x).out = s.out := rfl
@[simp] theorem State.setEp_pending (s : State) (e : Nat) (x : Endpoint) : (s.setEp e x).pending = s.pending := rfl

/-! ## setHub -/

@[simp] theorem State.setHub_tb (s : State) (h : Nat) (x : Hub) : (s.setHub h x).tb = s.tb := rfl
@[simp] theorem State.setHub_regs (s : State) (h : Nat) (x : Hub) : (s.setHub h x).regs = s.regs := rfl
@[simp] theorem State.setHub_mem (s : State) (h : Nat) (x : Hub) : (s.setHub h x).mem = s.mem := rfl
@[simp] theorem State.setHub_tt (s : State) (h : Nat) (x : Hub) : (s.setHub h x).tt = s.tt := rfl
@[simp] theorem State.setHub_ports (s : State) (h : Nat) (x : Hub) : (s.setHub h x).ports = s.ports := rfl
@[simp] theorem State.setHub_sw (s : State) (h : Nat) (x : Hub) : (s.setHub h x).sw = s.sw := rfl
@[simp] theorem State.setHub_sg (s : State) (h : Nat) (x : Hub) : (s.setHub h x).sg = s.sg := rfl
@[simp] theorem State.setHub_tg (s : State) (h : Nat) (x : Hub) : (s.setHub h x).tg = s.tg := rfl
@[simp] theorem State.setHub_eps (s : State) (h : Nat) (x : Hub) : (s.setHub h x).eps = s.eps := rfl
@[simp] theorem State.setHub_rd (s : State) (h : Nat) (x : Hub) : (s.setHub h x).rd = s.rd := rfl
@[simp] theorem State.setHub_hubs (s : State) (h : Nat) (x : Hub) : (s.setHub h x).hubs = kset s.hubs h x := rfl
@[simp] theorem State.setHub_cores (s : State) (h : Nat) (x : Hub) : (s.setHub h x).cores = s.cores := rfl
@[simp] theorem State.setHub_kern (s : State) (h : Nat) (x : Hub) : (s.setHub h x).kern = s.kern := rfl
@[simp] theorem State.setHub_host (s : State) (h : Nat) (x : Hub) : (s.setHub h x).host = s.host := rfl
@[simp] theorem State.setHub_boot (s : State) (h : Nat) (x : Hub) : (s.setHub h x).boot = s.boot := rfl
@[simp] theorem State.setHub_vigil (s : State) (h : Nat) (x : Hub) : (s.setHub h x).vigil = s.vigil := rfl
@[simp] theorem State.setHub_power (s : State) (h : Nat) (x : Hub) : (s.setHub h x).power = s.power := rfl
@[simp] theorem State.setHub_si (s : State) (h : Nat) (x : Hub) : (s.setHub h x).si = s.si := rfl
@[simp] theorem State.setHub_al (s : State) (h : Nat) (x : Hub) : (s.setHub h x).al = s.al := rfl
@[simp] theorem State.setHub_pat (s : State) (h : Nat) (x : Hub) : (s.setHub h x).pat = s.pat := rfl
@[simp] theorem State.setHub_chip (s : State) (h : Nat) (x : Hub) : (s.setHub h x).chip = s.chip := rfl
@[simp] theorem State.setHub_free (s : State) (h : Nat) (x : Hub) : (s.setHub h x).free = s.free := rfl
@[simp] theorem State.setHub_out (s : State) (h : Nat) (x : Hub) : (s.setHub h x).out = s.out := rfl
@[simp] theorem State.setHub_pending (s : State) (h : Nat) (x : Hub) : (s.setHub h x).pending = s.pending := rfl

/-! ## setCore -/

@[simp] theorem State.setCore_tb (s : State) (c : Nat) (x : Core) : (s.setCore c x).tb = s.tb := rfl
@[simp] theorem State.setCore_regs (s : State) (c : Nat) (x : Core) : (s.setCore c x).regs = s.regs := rfl
@[simp] theorem State.setCore_mem (s : State) (c : Nat) (x : Core) : (s.setCore c x).mem = s.mem := rfl
@[simp] theorem State.setCore_tt (s : State) (c : Nat) (x : Core) : (s.setCore c x).tt = s.tt := rfl
@[simp] theorem State.setCore_ports (s : State) (c : Nat) (x : Core) : (s.setCore c x).ports = s.ports := rfl
@[simp] theorem State.setCore_sw (s : State) (c : Nat) (x : Core) : (s.setCore c x).sw = s.sw := rfl
@[simp] theorem State.setCore_sg (s : State) (c : Nat) (x : Core) : (s.setCore c x).sg = s.sg := rfl
@[simp] theorem State.setCore_tg (s : State) (c : Nat) (x : Core) : (s.setCore c x).tg = s.tg := rfl
@[simp] theorem State.setCore_eps (s : State) (c : Nat) (x : Core) : (s.setCore c x).eps = s.eps := rfl
@[simp] theorem State.setCore_rd (s : State) (c : Nat) (x : Core) : (s.setCore c x).rd = s.rd := rfl
@[simp] theorem State.setCore_hubs (s : State) (c : Nat) (x : Core) : (s.setCore c x).hubs = s.hubs := rfl
@[simp] theorem State.setCore_cores (s : State) (c : Nat) (x : Core) : (s.setCore c x).cores = kset s.cores c x := rfl
@[simp] theorem State.setCore_kern (s : State) (c : Nat) (x : Core) : (s.setCore c x).kern = s.kern := rfl
@[simp] theorem State.setCore_host (s : State) (c : Nat) (x : Core) : (s.setCore c x).host = s.host := rfl
@[simp] theorem State.setCore_boot (s : State) (c : Nat) (x : Core) : (s.setCore c x).boot = s.boot := rfl
@[simp] theorem State.setCore_vigil (s : State) (c : Nat) (x : Core) : (s.setCore c x).vigil = s.vigil := rfl
@[simp] theorem State.setCore_power (s : State) (c : Nat) (x : Core) : (s.setCore c x).power = s.power := rfl
@[simp] theorem State.setCore_si (s : State) (c : Nat) (x : Core) : (s.setCore c x).si = s.si := rfl
@[simp] theorem State.setCore_al (s : State) (c : Nat) (x : Core) : (s.setCore c x).al = s.al := rfl
@[simp] theorem State.setCore_pat (s : State) (c : Nat) (x : Core) : (s.setCore c x).pat = s.pat := rfl
@[simp] theorem State.setCore_chip (s : State) (c : Nat) (x : Core) : (s.setCore c x).chip = s.chip := rfl
@[simp] theorem State.setCore_free (s : State) (c : Nat) (x : Core) : (s.setCore c x).free = s.free := rfl
@[simp] theorem State.setCore_out (s : State) (c : Nat) (x : Core) : (s.setCore c x).out = s.out := rfl
@[simp] theorem State.setCore_pending (s : State) (c : Nat) (x : Core) : (s.setCore c x).pending = s.pending := rfl

/-! ## updTag -/

@[simp] theorem State.updTag_tb (s : State) (o t : Nat) (f : TagSt → TagSt) : (s.updTag o t f).tb = s.tb := rfl
@[simp] theorem State.updTag_regs (s : State) (o t : Nat) (f : TagSt → TagSt) : (s.updTag o t f).regs = s.regs := rfl
@[simp] theorem State.updTag_mem (s : State) (o t : Nat) (f : TagSt → TagSt) : (s.updTag o t f).mem = s.mem := rfl
@[simp] theorem State.updTag_tt (s : State) (o t : Nat) (f : TagSt → TagSt) : (s.updTag o t f).tt = s.tt := rfl
@[simp] theorem State.updTag_ports (s : State) (o t : Nat) (f : TagSt → TagSt) : (s.updTag o t f).ports = s.ports := rfl
@[simp] theorem State.updTag_sw (s : State) (o t : Nat) (f : TagSt → TagSt) : (s.updTag o t f).sw = s.sw := rfl
@[simp] theorem State.updTag_sg (s : State) (o t : Nat) (f : TagSt → TagSt) : (s.updTag o t f).sg = s.sg := rfl
@[simp] theorem State.updTag_tg (s : State) (o t : Nat) (f : TagSt → TagSt) : (s.updTag o t f).tg = s.tg := rfl
@[simp] theorem State.updTag_eps (s : State) (o t : Nat) (f : TagSt → TagSt) : (s.updTag o t f).eps = s.eps := rfl
@[simp] theorem State.updTag_rd (s : State) (o t : Nat) (f : TagSt → TagSt) : (s.updTag o t f).rd = s.rd := rfl
@[simp] theorem State.updTag_hubs (s : State) (o t : Nat) (f : TagSt → TagSt) : (s.updTag o t f).hubs = s.hubs := rfl
@[simp] theorem State.updTag_cores (s : State) (o t : Nat) (f : TagSt → TagSt) : (s.updTag o t f).cores = s.cores := rfl
@[simp] theorem State.updTag_kern (s : State) (o t : Nat) (f : TagSt → TagSt) : (s.updTag o t f).kern = s.kern := rfl
@[simp] theorem State.updTag_boot (s : State) (o t : Nat) (f : TagSt → TagSt) : (s.updTag o t f).boot = s.boot := rfl
@[simp] theorem State.updTag_vigil (s : State) (o t : Nat) (f : TagSt → TagSt) : (s.updTag o t f).vigil = s.vigil := rfl
@[simp] theorem State.updTag_power (s : State) (o t : Nat) (f : TagSt → TagSt) : (s.updTag o t f).power = s.power := rfl
@[simp] theorem State.updTag_si (s : State) (o t : Nat) (f : TagSt → TagSt) : (s.updTag o t f).si = s.si := rfl
@[simp] theorem State.updTag_al (s : State) (o t : Nat) (f : TagSt → TagSt) : (s.updTag o t f).al = s.al := rfl
@[simp] theorem State.updTag_pat (s : State) (o t : Nat) (f : TagSt → TagSt) : (s.updTag o t f).pat = s.pat := rfl
@[simp] theorem State.updTag_chip (s : State) (o t : Nat) (f : TagSt → TagSt) : (s.updTag o t f).chip = s.chip := rfl
@[simp] theorem State.updTag_free (s : State) (o t : Nat) (f : TagSt → TagSt) : (s.updTag o t f).free = s.free := rfl
@[simp] theorem State.updTag_out (s : State) (o t : Nat) (f : TagSt → TagSt) : (s.updTag o t f).out = s.out := rfl
@[simp] theorem State.updTag_pending (s : State) (o t : Nat) (f : TagSt → TagSt) : (s.updTag o t f).pending = s.pending := rfl

/-! ## almUpd -/

@[simp] theorem State.almUpd_tb (s : State) (k : Nat) (f : Option Nat → Nat) : (s.almUpd k f).tb = s.tb := rfl
@[simp] theorem State.almUpd_regs (s : State) (k : Nat) (f : Option Nat → Nat) : (s.almUpd k f).regs = s.regs := rfl
@[simp] theorem State.almUpd_mem (s : State) (k : Nat) (f : Option Nat → Nat) : (s.almUpd k f).mem = s.mem := rfl
@[simp] theorem State.almUpd_tt (s : State) (k : Nat) (f : Option Nat → Nat) : (s.almUpd k f).tt = s.tt := rfl
@[simp] theorem State.almUpd_ports (s : State) (k : Nat) (f : Option Nat → Nat) : (s.almUpd k f).ports = s.ports := rfl
@[simp] theorem State.almUpd_sw (s : State) (k : Nat) (f : Option Nat → Nat) : (s.almUpd k f).sw = s.sw := rfl
@[simp] theorem State.almUpd_sg (s : State) (k : Nat) (f : Option Nat → Nat) : (s.almUpd k f).sg = s.sg := rfl
@[simp] theorem State.almUpd_tg (s : State) (k : Nat) (f : Option Nat → Nat) : (s.almUpd k f).tg = s.tg := rfl
@[simp] theorem State.almUpd_eps (s : State) (k : Nat) (f : Option Nat → Nat) : (s.almUpd k f).eps = s.eps := rfl
@[simp] theorem State.almUpd_rd (s : State) (k : Nat) (f : Option Nat → Nat) : (s.almUpd k f).rd = s.rd := rfl
@[simp] theorem State.almUpd_hubs (s : State) (k : Nat) (f : Option Nat → Nat) : (s.almUpd k f).hubs = s.hubs := rfl
@[simp] theorem State.almUpd_cores (s : State) (k : Nat) (f : Option Nat → Nat) : (s.almUpd k f).cores = s.cores := rfl
@[simp] theorem State.almUpd_kern (s : State) (k : Nat) (f : Option Nat → Nat) : (s.almUpd k f).kern = s.kern := rfl
@[simp] theorem State.almUpd_host (s : State) (k : Nat) (f : Option Nat → Nat) : (s.almUpd k f).host = s.host := rfl
@[simp] theorem State.almUpd_boot (s : State) (k : Nat) (f : Option Nat → Nat) : (s.almUpd k f).boot = s.boot := rfl
@[simp] theorem State.almUpd_vigil (s : State) (k : Nat) (f : Option Nat → Nat) : (s.almUpd k f).vigil = s.vigil := rfl
@[simp] theorem State.almUpd_power (s : State) (k : Nat) (f : Option Nat → Nat) : (s.almUpd k f).power = s.power := rfl
@[simp] theorem State.almUpd_si (s : State) (k : Nat) (f : Option Nat → Nat) : (s.almUpd k f).si = s.si := rfl
@[simp] theorem State.almUpd_pat (s : State) (k : Nat) (f : Option Nat → Nat) : (s.almUpd k f).pat = s.pat := rfl
@[simp] theorem State.almUpd_chip (s : State) (k : Nat) (f : Option Nat → Nat) : (s.almUpd k f).chip = s.chip := rfl
@[simp] theorem State.almUpd_free (s : State) (k : Nat) (f : Option Nat → Nat) : (s.almUpd k f).free = s.free := rfl
@[simp] theorem State.almUpd_out (s : State) (k : Nat) (f : Option Nat → Nat) : (s.almUpd k f).out = s.out := rfl
@[simp] theorem State.almUpd_pending (s : State) (k : Nat) (f : Option Nat → Nat) : (s.almUpd k f).pending = s.pending := rfl

/-! ## almAdd -/

@[simp] theorem State.almAdd_tb (s : State) (a b c n : Nat) : (s.almAdd a b c n).tb = s.tb := rfl
@[simp] theorem State.almAdd_regs (s : State) (a b c n : Nat) : (s.almAdd a b c n).regs = s.regs := rfl
@[simp] theorem State.almAdd_mem (s : State) (a b c n : Nat) : (s.almAdd a b c n).mem = s.mem := rfl
@[simp] theorem State.almAdd_tt (s : State) (a b c n : Nat) : (s.almAdd a b c n).tt = s.tt := rfl
@[simp] theorem State.almAdd_ports (s : State) (a b c n : Nat) : (s.almAdd a b c n).ports = s.ports := rfl
@[simp] theorem State.almAdd_sw (s : State) (a b c n : Nat) : (s.almAdd a b c n).sw = s.sw := rfl
@[simp] theorem State.almAdd_sg (s : State) (a b c n : Nat) : (s.almAdd a b c n).sg = s.sg := rfl
@[simp] theorem State.almAdd_tg (s : State) (a b c n : Nat) : (s.almAdd a b c n).tg = s.tg := rfl
@[simp] theorem State.almAdd_eps (s : State) (a b c n : Nat) : (s.almAdd a b c n).eps = s.eps := rfl
@[simp] theorem State.almAdd_rd (s : State) (a b c n : Nat) : (s.almAdd a b c n).rd = s.rd := rfl
@[simp] theorem State.almAdd_hubs (s : State) (a b c n : Nat) : (s.almAdd a b c n).hubs = s.hubs := rfl
@[simp] theorem State.almAdd_cores (s : State) (a b c n : Nat) : (s.almAdd a b c n).cores = s.cores := rfl
@[simp] theorem State.almAdd_kern (s : State) (a b c n : Nat) : (s.almAdd a b c n).kern = s.kern := rfl
@[simp] theorem State.almAdd_host (s : State) (a b c n : Nat) : (s.almAdd a b c n).host = s.host := rfl
@[simp] theorem State.almAdd_boot (s : State) (a b c n : Nat) : (s.almAdd a b c n).boot = s.boot := rfl
@[simp] theorem State.almAdd_vigil (s : State) (a b c n : Nat) : (s.almAdd a b c n).vigil = s.vigil := rfl
@[simp] theorem State.almAdd_power (s : State) (a b c n : Nat) : (s.almAdd a b c n).power = s.power := rfl
@[simp] theorem State.almAdd_si (s : State) (a b c n : Nat) : (s.almAdd a b c n).si = s.si := rfl
@[simp] theorem State.almAdd_pat (s : State) (a b c n : Nat) : (s.almAdd a b c n).pat = s.pat := rfl
@[simp] theorem State.almAdd_chip (s : State) (a b c n : Nat) : (s.almAdd a b c n).chip = s.chip := rfl
@[simp] theorem State.almAdd_free (s : State) (a b c n : Nat) : (s.almAdd a b c n).free = s.free := rfl
@[simp] theorem State.almAdd_out (s : State) (a b c n : Nat) : (s.almAdd a b c n).out = s.out := rfl
@[simp] theorem State.almAdd_pending (s : State) (a b c n : Nat) : (s.almAdd a b c n).pending = s.pending := rfl

/-! ## almMax -/

@[simp] theorem State.almMax_tb (s : State) (a b c n : Nat) : (s.almMax a b c n).tb = s.tb := rfl
@[simp] theorem State.almMax_regs (s : State) (a b c n : Nat) : (s.almMax a b c n).regs = s.regs := rfl
@[simp] theorem State.almMax_mem (s : State) (a b c n : Nat) : (s.almMax a b c n).mem = s.mem := rfl
@[simp] theorem State.almMax_tt (s : State) (a b c n : Nat) : (s.almMax a b c n).tt = s.tt := rfl
@[simp] theorem State.almMax_ports (s : State) (a b c n : Nat) : (s.almMax a b c n).ports = s.ports := rfl
@[simp] theorem State.almMax_sw (s : State) (a b c n : Nat) : (s.almMax a b c n).sw = s.sw := rfl
@[simp] theorem State.almMax_sg (s : State) (a b c n : Nat) : (s.almMax a b c n).sg = s.sg := rfl
@[simp] theorem State.almMax_tg (s : State) (a b c n : Nat) : (s.almMax a b c n).tg = s.tg := rfl
@[simp] theorem State.almMax_eps (s : State) (a b c n : Nat) : (s.almMax a b c n).eps = s.eps := rfl
@[simp] theorem State.almMax_rd (s : State) (a b c n : Nat) : (s.almMax a b c n).rd = s.rd := rfl
@[simp] theorem State.almMax_hubs (s : State) (a b c n : Nat) : (s.almMax a b c n).hubs = s.hubs := rfl
@[simp] theorem State.almMax_cores (s : State) (a b c n : Nat) : (s.almMax a b c n).cores = s.cores := rfl
@[simp] theorem State.almMax_kern (s : State) (a b c n : Nat) : (s.almMax a b c n).kern = s.kern := rfl
@[simp] theorem State.almMax_host (s : State) (a b c n : Nat) : (s.almMax a b c n).host = s.host := rfl
@[simp] theorem State.almMax_boot (s : State) (a b c n : Nat) : (s.almMax a b c n).boot = s.boot := rfl
@[simp] theorem State.almMax_vigil (s : State) (a b c n : Nat) : (s.almMax a b c n).vigil = s.vigil := rfl
@[simp] theorem State.almMax_power (s : State) (a b c n : Nat) : (s.almMax a b c n).power = s.power := rfl
@[simp] theorem State.almMax_si (s : State) (a b c n : Nat) : (s.almMax a b c n).si = s.si := rfl
@[simp] theorem State.almMax_pat (s : State) (a b c n : Nat) : (s.almMax a b c n).pat = s.pat := rfl
@[simp] theorem State.almMax_chip (s : State) (a b c n : Nat) : (s.almMax a b c n).chip = s.chip := rfl
@[simp] theorem State.almMax_free (s : State) (a b c n : Nat) : (s.almMax a b c n).free = s.free := rfl
@[simp] theorem State.almMax_out (s : State) (a b c n : Nat) : (s.almMax a b c n).out = s.out := rfl
@[simp] theorem State.almMax_pending (s : State) (a b c n : Nat) : (s.almMax a b c n).pending = s.pending := rfl

/-! ## almOr -/

@[simp] theorem State.almOr_tb (s : State) (a b c n : Nat) : (s.almOr a b c n).tb = s.tb := rfl
@[simp] theorem State.almOr_regs (s : State) (a b c n : Nat) : (s.almOr a b c n).regs = s.regs := rfl
@[simp] theorem State.almOr_mem (s : State) (a b c n : Nat) : (s.almOr a b c n).mem = s.mem := rfl
@[simp] theorem State.almOr_tt (s : State) (a b c n : Nat) : (s.almOr a b c n).tt = s.tt := rfl
@[simp] theorem State.almOr_ports (s : State) (a b c n : Nat) : (s.almOr a b c n).ports = s.ports := rfl
@[simp] theorem State.almOr_sw (s : State) (a b c n : Nat) : (s.almOr a b c n).sw = s.sw := rfl
@[simp] theorem State.almOr_sg (s : State) (a b c n : Nat) : (s.almOr a b c n).sg = s.sg := rfl
@[simp] theorem State.almOr_tg (s : State) (a b c n : Nat) : (s.almOr a b c n).tg = s.tg := rfl
@[simp] theorem State.almOr_eps (s : State) (a b c n : Nat) : (s.almOr a b c n).eps = s.eps := rfl
@[simp] theorem State.almOr_rd (s : State) (a b c n : Nat) : (s.almOr a b c n).rd = s.rd := rfl
@[simp] theorem State.almOr_hubs (s : State) (a b c n : Nat) : (s.almOr a b c n).hubs = s.hubs := rfl
@[simp] theorem State.almOr_cores (s : State) (a b c n : Nat) : (s.almOr a b c n).cores = s.cores := rfl
@[simp] theorem State.almOr_kern (s : State) (a b c n : Nat) : (s.almOr a b c n).kern = s.kern := rfl
@[simp] theorem State.almOr_host (s : State) (a b c n : Nat) : (s.almOr a b c n).host = s.host := rfl
@[simp] theorem State.almOr_boot (s : State) (a b c n : Nat) : (s.almOr a b c n).boot = s.boot := rfl
@[simp] theorem State.almOr_vigil (s : State) (a b c n : Nat) : (s.almOr a b c n).vigil = s.vigil := rfl
@[simp] theorem State.almOr_power (s : State) (a b c n : Nat) : (s.almOr a b c n).power = s.power := rfl
@[simp] theorem State.almOr_si (s : State) (a b c n : Nat) : (s.almOr a b c n).si = s.si := rfl
@[simp] theorem State.almOr_pat (s : State) (a b c n : Nat) : (s.almOr a b c n).pat = s.pat := rfl
@[simp] theorem State.almOr_chip (s : State) (a b c n : Nat) : (s.almOr a b c n).chip = s.chip := rfl
@[simp] theorem State.almOr_free (s : State) (a b c n : Nat) : (s.almOr a b c n).free = s.free := rfl
@[simp] theorem State.almOr_out (s : State) (a b c n : Nat) : (s.almOr a b c n).out = s.out := rfl
@[simp] theorem State.almOr_pending (s : State) (a b c n : Nat) : (s.almOr a b c n).pending = s.pending := rfl

/-! ## Entries by number -/

@[simp] theorem State.port_setPort (s : State) (p : Nat) (x : PortSt) : (s.setPort p x).port p = x := by
  simp [State.port]

theorem State.port_setPort_ne (s : State) {p q : Nat} (h : q ≠ p) (x : PortSt) : (s.setPort p x).port q = s.port q := by
  simp [State.port, Laws.kgetD_kset_ne h]

@[simp] theorem State.ep_setEp (s : State) (e : Nat) (x : Endpoint) : (s.setEp e x).ep e = x := by
  simp [State.ep]

theorem State.ep_setEp_ne (s : State) {e f : Nat} (h : f ≠ e) (x : Endpoint) : (s.setEp e x).ep f = s.ep f := by
  simp [State.ep, Laws.kgetD_kset_ne h]

@[simp] theorem State.hub_setHub (s : State) (h : Nat) (x : Hub) : (s.setHub h x).hub h = x := by
  simp [State.hub]

theorem State.hub_setHub_ne (s : State) {h g : Nat} (n : g ≠ h) (x : Hub) : (s.setHub h x).hub g = s.hub g := by
  simp [State.hub, Laws.kgetD_kset_ne n]

@[simp] theorem State.core_setCore (s : State) (c : Nat) (x : Core) : (s.setCore c x).core c = x := by
  simp [State.core]

theorem State.core_setCore_ne (s : State) {c d : Nat} (n : d ≠ c) (x : Core) : (s.setCore c x).core d = s.core d := by
  simp [State.core, Laws.kgetD_kset_ne n]

@[simp] theorem State.port_setReg (s : State) (a : Nat) (v : W64) (k : Nat) : (s.setReg a v).port k = s.port k := rfl
@[simp] theorem State.ep_setReg (s : State) (a : Nat) (v : W64) (k : Nat) : (s.setReg a v).ep k = s.ep k := rfl
@[simp] theorem State.hub_setReg (s : State) (a : Nat) (v : W64) (k : Nat) : (s.setReg a v).hub k = s.hub k := rfl
@[simp] theorem State.core_setReg (s : State) (a : Nat) (v : W64) (k : Nat) : (s.setReg a v).core k = s.core k := rfl
@[simp] theorem State.now_setReg (s : State) (a : Nat) (v : W64) : (s.setReg a v).now = s.now := rfl
@[simp] theorem State.port_fset (s : State) (f : Fld) (v : Nat) (k : Nat) : (s.fset f v).port k = s.port k := rfl
@[simp] theorem State.ep_fset (s : State) (f : Fld) (v : Nat) (k : Nat) : (s.fset f v).ep k = s.ep k := rfl
@[simp] theorem State.hub_fset (s : State) (f : Fld) (v : Nat) (k : Nat) : (s.fset f v).hub k = s.hub k := rfl
@[simp] theorem State.core_fset (s : State) (f : Fld) (v : Nat) (k : Nat) : (s.fset f v).core k = s.core k := rfl
@[simp] theorem State.now_fset (s : State) (f : Fld) (v : Nat) : (s.fset f v).now = s.now := rfl
@[simp] theorem State.port_fsetb (s : State) (f : Fld) (v : Bool) (k : Nat) : (s.fsetb f v).port k = s.port k := rfl
@[simp] theorem State.ep_fsetb (s : State) (f : Fld) (v : Bool) (k : Nat) : (s.fsetb f v).ep k = s.ep k := rfl
@[simp] theorem State.hub_fsetb (s : State) (f : Fld) (v : Bool) (k : Nat) : (s.fsetb f v).hub k = s.hub k := rfl
@[simp] theorem State.core_fsetb (s : State) (f : Fld) (v : Bool) (k : Nat) : (s.fsetb f v).core k = s.core k := rfl
@[simp] theorem State.now_fsetb (s : State) (f : Fld) (v : Bool) : (s.fsetb f v).now = s.now := rfl
@[simp] theorem State.port_fsat (s : State) (f : Fld) (n : Nat) (k : Nat) : (s.fsat f n).port k = s.port k := rfl
@[simp] theorem State.ep_fsat (s : State) (f : Fld) (n : Nat) (k : Nat) : (s.fsat f n).ep k = s.ep k := rfl
@[simp] theorem State.hub_fsat (s : State) (f : Fld) (n : Nat) (k : Nat) : (s.fsat f n).hub k = s.hub k := rfl
@[simp] theorem State.core_fsat (s : State) (f : Fld) (n : Nat) (k : Nat) : (s.fsat f n).core k = s.core k := rfl
@[simp] theorem State.now_fsat (s : State) (f : Fld) (n : Nat) : (s.fsat f n).now = s.now := rfl
@[simp] theorem State.port_freeUsed (s : State) (k : Nat) : (s.freeUsed).port k = s.port k := rfl
@[simp] theorem State.ep_freeUsed (s : State) (k : Nat) : (s.freeUsed).ep k = s.ep k := rfl
@[simp] theorem State.hub_freeUsed (s : State) (k : Nat) : (s.freeUsed).hub k = s.hub k := rfl
@[simp] theorem State.core_freeUsed (s : State) (k : Nat) : (s.freeUsed).core k = s.core k := rfl
@[simp] theorem State.now_freeUsed (s : State) : (s.freeUsed).now = s.now := rfl
@[simp] theorem State.reg_freeUsed (s : State) (a' : Nat) : (s.freeUsed).reg a' = s.reg a' := rfl
@[simp] theorem State.fget_freeUsed (s : State) (f' : Fld) : (s.freeUsed).fget f' = s.fget f' := rfl
@[simp] theorem State.fbit_freeUsed (s : State) (f' : Fld) : (s.freeUsed).fbit f' = s.fbit f' := rfl
@[simp] theorem State.sled_freeUsed (s : State) : (s.freeUsed).sled = s.sled := rfl
@[simp] theorem State.port_hubWrite (s : State) (h o : Nat) (b : List Byte) (k : Nat) : (s.hubWrite h o b).port k = s.port k := rfl
@[simp] theorem State.ep_hubWrite (s : State) (h o : Nat) (b : List Byte) (k : Nat) : (s.hubWrite h o b).ep k = s.ep k := rfl
@[simp] theorem State.hub_hubWrite (s : State) (h o : Nat) (b : List Byte) (k : Nat) : (s.hubWrite h o b).hub k = s.hub k := rfl
@[simp] theorem State.core_hubWrite (s : State) (h o : Nat) (b : List Byte) (k : Nat) : (s.hubWrite h o b).core k = s.core k := rfl
@[simp] theorem State.now_hubWrite (s : State) (h o : Nat) (b : List Byte) : (s.hubWrite h o b).now = s.now := rfl
@[simp] theorem State.reg_hubWrite (s : State) (h o : Nat) (b : List Byte) (a' : Nat) : (s.hubWrite h o b).reg a' = s.reg a' := rfl
@[simp] theorem State.fget_hubWrite (s : State) (h o : Nat) (b : List Byte) (f' : Fld) : (s.hubWrite h o b).fget f' = s.fget f' := rfl
@[simp] theorem State.fbit_hubWrite (s : State) (h o : Nat) (b : List Byte) (f' : Fld) : (s.hubWrite h o b).fbit f' = s.fbit f' := rfl
@[simp] theorem State.sled_hubWrite (s : State) (h o : Nat) (b : List Byte) : (s.hubWrite h o b).sled = s.sled := rfl
@[simp] theorem State.port_emit (s : State) (o : Out) (k : Nat) : (s.emit o).port k = s.port k := rfl
@[simp] theorem State.ep_emit (s : State) (o : Out) (k : Nat) : (s.emit o).ep k = s.ep k := rfl
@[simp] theorem State.hub_emit (s : State) (o : Out) (k : Nat) : (s.emit o).hub k = s.hub k := rfl
@[simp] theorem State.core_emit (s : State) (o : Out) (k : Nat) : (s.emit o).core k = s.core k := rfl
@[simp] theorem State.now_emit (s : State) (o : Out) : (s.emit o).now = s.now := rfl
@[simp] theorem State.reg_emit (s : State) (o : Out) (a' : Nat) : (s.emit o).reg a' = s.reg a' := rfl
@[simp] theorem State.fget_emit (s : State) (o : Out) (f' : Fld) : (s.emit o).fget f' = s.fget f' := rfl
@[simp] theorem State.fbit_emit (s : State) (o : Out) (f' : Fld) : (s.emit o).fbit f' = s.fbit f' := rfl
@[simp] theorem State.sled_emit (s : State) (o : Out) : (s.emit o).sled = s.sled := rfl
@[simp] theorem State.port_alert (s : State) (b : Nat) (k : Nat) : (s.alert b).port k = s.port k := rfl
@[simp] theorem State.ep_alert (s : State) (b : Nat) (k : Nat) : (s.alert b).ep k = s.ep k := rfl
@[simp] theorem State.hub_alert (s : State) (b : Nat) (k : Nat) : (s.alert b).hub k = s.hub k := rfl
@[simp] theorem State.core_alert (s : State) (b : Nat) (k : Nat) : (s.alert b).core k = s.core k := rfl
@[simp] theorem State.now_alert (s : State) (b : Nat) : (s.alert b).now = s.now := rfl
@[simp] theorem State.ep_setPort (s : State) (p : Nat) (x : PortSt) (k : Nat) : (s.setPort p x).ep k = s.ep k := rfl
@[simp] theorem State.hub_setPort (s : State) (p : Nat) (x : PortSt) (k : Nat) : (s.setPort p x).hub k = s.hub k := rfl
@[simp] theorem State.core_setPort (s : State) (p : Nat) (x : PortSt) (k : Nat) : (s.setPort p x).core k = s.core k := rfl
@[simp] theorem State.now_setPort (s : State) (p : Nat) (x : PortSt) : (s.setPort p x).now = s.now := rfl
@[simp] theorem State.reg_setPort (s : State) (p : Nat) (x : PortSt) (a' : Nat) : (s.setPort p x).reg a' = s.reg a' := rfl
@[simp] theorem State.fget_setPort (s : State) (p : Nat) (x : PortSt) (f' : Fld) : (s.setPort p x).fget f' = s.fget f' := rfl
@[simp] theorem State.fbit_setPort (s : State) (p : Nat) (x : PortSt) (f' : Fld) : (s.setPort p x).fbit f' = s.fbit f' := rfl
@[simp] theorem State.sled_setPort (s : State) (p : Nat) (x : PortSt) : (s.setPort p x).sled = s.sled := rfl
@[simp] theorem State.port_setEp (s : State) (e : Nat) (x : Endpoint) (k : Nat) : (s.setEp e x).port k = s.port k := rfl
@[simp] theorem State.hub_setEp (s : State) (e : Nat) (x : Endpoint) (k : Nat) : (s.setEp e x).hub k = s.hub k := rfl
@[simp] theorem State.core_setEp (s : State) (e : Nat) (x : Endpoint) (k : Nat) : (s.setEp e x).core k = s.core k := rfl
@[simp] theorem State.now_setEp (s : State) (e : Nat) (x : Endpoint) : (s.setEp e x).now = s.now := rfl
@[simp] theorem State.reg_setEp (s : State) (e : Nat) (x : Endpoint) (a' : Nat) : (s.setEp e x).reg a' = s.reg a' := rfl
@[simp] theorem State.fget_setEp (s : State) (e : Nat) (x : Endpoint) (f' : Fld) : (s.setEp e x).fget f' = s.fget f' := rfl
@[simp] theorem State.fbit_setEp (s : State) (e : Nat) (x : Endpoint) (f' : Fld) : (s.setEp e x).fbit f' = s.fbit f' := rfl
@[simp] theorem State.sled_setEp (s : State) (e : Nat) (x : Endpoint) : (s.setEp e x).sled = s.sled := rfl
@[simp] theorem State.port_setHub (s : State) (h : Nat) (x : Hub) (k : Nat) : (s.setHub h x).port k = s.port k := rfl
@[simp] theorem State.ep_setHub (s : State) (h : Nat) (x : Hub) (k : Nat) : (s.setHub h x).ep k = s.ep k := rfl
@[simp] theorem State.core_setHub (s : State) (h : Nat) (x : Hub) (k : Nat) : (s.setHub h x).core k = s.core k := rfl
@[simp] theorem State.now_setHub (s : State) (h : Nat) (x : Hub) : (s.setHub h x).now = s.now := rfl
@[simp] theorem State.reg_setHub (s : State) (h : Nat) (x : Hub) (a' : Nat) : (s.setHub h x).reg a' = s.reg a' := rfl
@[simp] theorem State.fget_setHub (s : State) (h : Nat) (x : Hub) (f' : Fld) : (s.setHub h x).fget f' = s.fget f' := rfl
@[simp] theorem State.fbit_setHub (s : State) (h : Nat) (x : Hub) (f' : Fld) : (s.setHub h x).fbit f' = s.fbit f' := rfl
@[simp] theorem State.sled_setHub (s : State) (h : Nat) (x : Hub) : (s.setHub h x).sled = s.sled := rfl
@[simp] theorem State.port_setCore (s : State) (c : Nat) (x : Core) (k : Nat) : (s.setCore c x).port k = s.port k := rfl
@[simp] theorem State.ep_setCore (s : State) (c : Nat) (x : Core) (k : Nat) : (s.setCore c x).ep k = s.ep k := rfl
@[simp] theorem State.hub_setCore (s : State) (c : Nat) (x : Core) (k : Nat) : (s.setCore c x).hub k = s.hub k := rfl
@[simp] theorem State.now_setCore (s : State) (c : Nat) (x : Core) : (s.setCore c x).now = s.now := rfl
@[simp] theorem State.reg_setCore (s : State) (c : Nat) (x : Core) (a' : Nat) : (s.setCore c x).reg a' = s.reg a' := rfl
@[simp] theorem State.fget_setCore (s : State) (c : Nat) (x : Core) (f' : Fld) : (s.setCore c x).fget f' = s.fget f' := rfl
@[simp] theorem State.fbit_setCore (s : State) (c : Nat) (x : Core) (f' : Fld) : (s.setCore c x).fbit f' = s.fbit f' := rfl
@[simp] theorem State.sled_setCore (s : State) (c : Nat) (x : Core) : (s.setCore c x).sled = s.sled := rfl
@[simp] theorem State.port_updTag (s : State) (o t : Nat) (f : TagSt → TagSt) (k : Nat) : (s.updTag o t f).port k = s.port k := rfl
@[simp] theorem State.ep_updTag (s : State) (o t : Nat) (f : TagSt → TagSt) (k : Nat) : (s.updTag o t f).ep k = s.ep k := rfl
@[simp] theorem State.hub_updTag (s : State) (o t : Nat) (f : TagSt → TagSt) (k : Nat) : (s.updTag o t f).hub k = s.hub k := rfl
@[simp] theorem State.core_updTag (s : State) (o t : Nat) (f : TagSt → TagSt) (k : Nat) : (s.updTag o t f).core k = s.core k := rfl
@[simp] theorem State.now_updTag (s : State) (o t : Nat) (f : TagSt → TagSt) : (s.updTag o t f).now = s.now := rfl
@[simp] theorem State.reg_updTag (s : State) (o t : Nat) (f : TagSt → TagSt) (a' : Nat) : (s.updTag o t f).reg a' = s.reg a' := rfl
@[simp] theorem State.fget_updTag (s : State) (o t : Nat) (f : TagSt → TagSt) (f' : Fld) : (s.updTag o t f).fget f' = s.fget f' := rfl
@[simp] theorem State.fbit_updTag (s : State) (o t : Nat) (f : TagSt → TagSt) (f' : Fld) : (s.updTag o t f).fbit f' = s.fbit f' := rfl
@[simp] theorem State.sled_updTag (s : State) (o t : Nat) (f : TagSt → TagSt) : (s.updTag o t f).sled = s.sled := rfl
@[simp] theorem State.port_almUpd (s : State) (k : Nat) (f : Option Nat → Nat) (i : Nat) : (s.almUpd k f).port i = s.port i := rfl
@[simp] theorem State.ep_almUpd (s : State) (k : Nat) (f : Option Nat → Nat) (i : Nat) : (s.almUpd k f).ep i = s.ep i := rfl
@[simp] theorem State.hub_almUpd (s : State) (k : Nat) (f : Option Nat → Nat) (i : Nat) : (s.almUpd k f).hub i = s.hub i := rfl
@[simp] theorem State.core_almUpd (s : State) (k : Nat) (f : Option Nat → Nat) (i : Nat) : (s.almUpd k f).core i = s.core i := rfl
@[simp] theorem State.now_almUpd (s : State) (k : Nat) (f : Option Nat → Nat) : (s.almUpd k f).now = s.now := rfl
@[simp] theorem State.reg_almUpd (s : State) (k : Nat) (f : Option Nat → Nat) (a' : Nat) : (s.almUpd k f).reg a' = s.reg a' := rfl
@[simp] theorem State.fget_almUpd (s : State) (k : Nat) (f : Option Nat → Nat) (f' : Fld) : (s.almUpd k f).fget f' = s.fget f' := rfl
@[simp] theorem State.fbit_almUpd (s : State) (k : Nat) (f : Option Nat → Nat) (f' : Fld) : (s.almUpd k f).fbit f' = s.fbit f' := rfl
@[simp] theorem State.sled_almUpd (s : State) (k : Nat) (f : Option Nat → Nat) : (s.almUpd k f).sled = s.sled := rfl
@[simp] theorem State.port_almAdd (s : State) (a b c n : Nat) (k : Nat) : (s.almAdd a b c n).port k = s.port k := rfl
@[simp] theorem State.ep_almAdd (s : State) (a b c n : Nat) (k : Nat) : (s.almAdd a b c n).ep k = s.ep k := rfl
@[simp] theorem State.hub_almAdd (s : State) (a b c n : Nat) (k : Nat) : (s.almAdd a b c n).hub k = s.hub k := rfl
@[simp] theorem State.core_almAdd (s : State) (a b c n : Nat) (k : Nat) : (s.almAdd a b c n).core k = s.core k := rfl
@[simp] theorem State.now_almAdd (s : State) (a b c n : Nat) : (s.almAdd a b c n).now = s.now := rfl
@[simp] theorem State.reg_almAdd (s : State) (a b c n : Nat) (a' : Nat) : (s.almAdd a b c n).reg a' = s.reg a' := rfl
@[simp] theorem State.fget_almAdd (s : State) (a b c n : Nat) (f' : Fld) : (s.almAdd a b c n).fget f' = s.fget f' := rfl
@[simp] theorem State.fbit_almAdd (s : State) (a b c n : Nat) (f' : Fld) : (s.almAdd a b c n).fbit f' = s.fbit f' := rfl
@[simp] theorem State.sled_almAdd (s : State) (a b c n : Nat) : (s.almAdd a b c n).sled = s.sled := rfl
@[simp] theorem State.port_almMax (s : State) (a b c n : Nat) (k : Nat) : (s.almMax a b c n).port k = s.port k := rfl
@[simp] theorem State.ep_almMax (s : State) (a b c n : Nat) (k : Nat) : (s.almMax a b c n).ep k = s.ep k := rfl
@[simp] theorem State.hub_almMax (s : State) (a b c n : Nat) (k : Nat) : (s.almMax a b c n).hub k = s.hub k := rfl
@[simp] theorem State.core_almMax (s : State) (a b c n : Nat) (k : Nat) : (s.almMax a b c n).core k = s.core k := rfl
@[simp] theorem State.now_almMax (s : State) (a b c n : Nat) : (s.almMax a b c n).now = s.now := rfl
@[simp] theorem State.reg_almMax (s : State) (a b c n : Nat) (a' : Nat) : (s.almMax a b c n).reg a' = s.reg a' := rfl
@[simp] theorem State.fget_almMax (s : State) (a b c n : Nat) (f' : Fld) : (s.almMax a b c n).fget f' = s.fget f' := rfl
@[simp] theorem State.fbit_almMax (s : State) (a b c n : Nat) (f' : Fld) : (s.almMax a b c n).fbit f' = s.fbit f' := rfl
@[simp] theorem State.sled_almMax (s : State) (a b c n : Nat) : (s.almMax a b c n).sled = s.sled := rfl
@[simp] theorem State.port_almOr (s : State) (a b c n : Nat) (k : Nat) : (s.almOr a b c n).port k = s.port k := rfl
@[simp] theorem State.ep_almOr (s : State) (a b c n : Nat) (k : Nat) : (s.almOr a b c n).ep k = s.ep k := rfl
@[simp] theorem State.hub_almOr (s : State) (a b c n : Nat) (k : Nat) : (s.almOr a b c n).hub k = s.hub k := rfl
@[simp] theorem State.core_almOr (s : State) (a b c n : Nat) (k : Nat) : (s.almOr a b c n).core k = s.core k := rfl
@[simp] theorem State.now_almOr (s : State) (a b c n : Nat) : (s.almOr a b c n).now = s.now := rfl
@[simp] theorem State.reg_almOr (s : State) (a b c n : Nat) (a' : Nat) : (s.almOr a b c n).reg a' = s.reg a' := rfl
@[simp] theorem State.fget_almOr (s : State) (a b c n : Nat) (f' : Fld) : (s.almOr a b c n).fget f' = s.fget f' := rfl
@[simp] theorem State.fbit_almOr (s : State) (a b c n : Nat) (f' : Fld) : (s.almOr a b c n).fbit f' = s.fbit f' := rfl
@[simp] theorem State.sled_almOr (s : State) (a b c n : Nat) : (s.almOr a b c n).sled = s.sled := rfl

/-! ## Registers after a write -/

/-- In a register file whose addresses rise, a register reads what was stored. -/
theorem State.reg_setReg (s : State) (h : krising (α := W64) s.regs = true) (a : Nat) (v : W64) : (s.setReg a v).reg a = v := by
  unfold State.reg State.setReg
  split
  · rename_i hv; simp [Laws.kget_kdel_self h, hv]
  · simp

/-- Storing one register leaves every other as it was. -/
theorem State.reg_setReg_ne (s : State) {a b : Nat} (h : b ≠ a) (v : W64) : (s.setReg a v).reg b = s.reg b := by
  unfold State.reg State.setReg
  split
  · simp [Laws.kget_kdel_ne h]
  · simp [Laws.kget_kset_ne h]

/-- Storing a register keeps the addresses rising. -/
theorem State.krising_setReg (s : State) (h : krising (α := W64) s.regs = true) (a : Nat) (v : W64) :
    krising (α := W64) (s.setReg a v).regs = true := by
  unfold State.setReg
  split
  · exact Laws.krising_kdel h a
  · exact Laws.krising_kset h a v

/-- Storing a register keeps the register file canonical. -/
theorem State.regsWf_setReg (s : State) (h : s.regsWf = true) (a : Nat) (v : W64) : (s.setReg a v).regsWf = true := by
  unfold State.regsWf at *
  simp only [Bool.and_eq_true, List.all_eq_true, bne_iff_ne] at *
  refine ⟨s.krising_setReg h.1 a v, ?_⟩
  intro e he
  unfold State.setReg at he
  split at he
  · exact h.2 e (Laws.mem_kdel he)
  · rename_i hv
    rcases Laws.mem_kset he with he | rfl
    · exact h.2 e he
    · exact hv

/-- A field that was stored reads as its low bits. -/
theorem State.fget_fset (s : State) (h : krising (α := W64) s.regs = true) (f : Fld) (v : Nat) (hl : f.lo ≤ f.hi + 1)
    (hh : f.hi < 64) : (s.fset f v).fget f = v % 2 ^ (f.hi + 1 - f.lo) := by
  unfold State.fget State.fset
  rw [s.reg_setReg h, BitVec.toNat_ofNat, Nat.mod_eq_of_lt (Laws.splice_lt hl (s.reg f.addr).isLt hh),
    Laws.bitsOf_splice_self _ _ _ _ hl]

/-- Storing a field leaves a field of another register as it was. -/
theorem State.fget_fset_ne (s : State) {f g : Fld} (n : g.addr ≠ f.addr) (v : Nat) : (s.fset f v).fget g = s.fget g := by
  unfold State.fget State.fset
  rw [s.reg_setReg_ne n]

/-- Storing a field leaves the other bits of its register as they were. -/
theorem State.fget_fset_apart (s : State) (h : krising (α := W64) s.regs = true) {f g : Fld} (n : g.addr = f.addr) (v : Nat)
    (hl : f.lo ≤ f.hi + 1) (hh : f.hi < 64) (d : g.hi < f.lo ∨ f.hi < g.lo) : (s.fset f v).fget g = s.fget g := by
  unfold State.fget State.fset
  rw [n, s.reg_setReg h, BitVec.toNat_ofNat, Nat.mod_eq_of_lt (Laws.splice_lt hl (s.reg f.addr).isLt hh),
    Laws.bitsOf_splice_ne _ _ _ _ _ _ hl d]

/-- Storing a field keeps the register file canonical. -/
theorem State.regsWf_fset (s : State) (h : s.regsWf = true) (f : Fld) (v : Nat) : (s.fset f v).regsWf = true :=
  s.regsWf_setReg h _ _

/-! ## Memory -/

/-- A byte reads back what was stored. -/
theorem Memory.get_put {m : Memory} (h : krising (α := Byte) m = true) (a : Nat) (b : Byte) : Memory.get (Memory.put m a b) a = b := by
  unfold Memory.get Memory.put kgetD
  split
  · rename_i hb; rw [Laws.kget_kdel_self h, hb]; rfl
  · simp

/-- Storing one byte leaves every other as it was. -/
theorem Memory.get_put_ne (m : Memory) {a c : Nat} (n : c ≠ a) (b : Byte) : Memory.get (Memory.put m a b) c = Memory.get m c := by
  unfold Memory.get Memory.put kgetD
  split
  · rw [Laws.kget_kdel_ne n]
  · rw [Laws.kget_kset_ne n]

/-- Storing one byte keeps the canonical form. -/
theorem Memory.wf_put {m : Memory} (h : Memory.wf m = true) (a : Nat) (b : Byte) : Memory.wf (Memory.put m a b) = true := by
  unfold Memory.wf Memory.put at *
  simp only [Bool.and_eq_true, List.all_eq_true, bne_iff_ne] at *
  split
  · exact ⟨Laws.krising_kdel h.1 a, fun e he => h.2 e (Laws.mem_kdel he)⟩
  · rename_i hb
    refine ⟨Laws.krising_kset h.1 a b, fun e he => ?_⟩
    rcases Laws.mem_kset he with he | rfl
    · exact h.2 e he
    · exact hb

/-- Storing bytes keeps the canonical form. -/
theorem Memory.wf_write {m : Memory} (h : Memory.wf m = true) (a : Nat) (b : List Byte) :
    Memory.wf (Memory.write m a b) = true := by
  induction b generalizing m a with
  | nil => exact h
  | cons x t ih => exact ih (Memory.wf_put h a x) (a + 1)

/-- Leaving entries out keeps the canonical form. -/
theorem Memory.wf_filter {m : Memory} (h : Memory.wf m = true) (p : Host.Cell → Bool) :
    Memory.wf (List.filter p m) = true := by
  unfold Memory.wf at *
  simp only [Bool.and_eq_true, List.all_eq_true] at *
  exact ⟨Laws.krising_filter h.1 p, fun e he => h.2 e (List.mem_of_mem_filter he)⟩

/-- A byte outside the bytes stored reads as before. -/
theorem Memory.get_write_apart (m : Memory) (a : Nat) (b : List Byte) {c : Nat} (n : c < a ∨ a + b.length ≤ c) :
    Memory.get (Memory.write m a b) c = Memory.get m c := by
  induction b generalizing m a with
  | nil => rfl
  | cons x t ih =>
    simp only [List.length_cons] at n
    unfold Memory.write
    rw [ih _ _ (by omega), Memory.get_put_ne _ (by omega)]

/-- Hub memory keeps its canonical form over a store. -/
theorem State.memWf_hubWrite (s : State) (h : Memory.wf s.mem = true) (hub off : Nat) (b : List Byte) :
    Memory.wf (s.hubWrite hub off b).mem = true :=
  Memory.wf_write h _ _

end Sys2Proof.Machine
end

