-- ==== Sys2Proof/Laws/Slots.lean ====
section
/-! SUPPORT. What the slots of a frame and the queues that wait for them change: one lemma per field of State, and what
sending a cell of a port can do (R84, R98, R111). -/

namespace Sys2Proof.Machine

/-- What holds at the start and is kept by one element holds after the whole list. -/
theorem State.forEach_keeps {α : Type} {P : State → Prop} {f : State → α → State} (hf : ∀ s a, P s → P (f s a)) :
    ∀ (l : List α) (s : State), P s → P (s.forEach l f)
  | [], _, h => h
  | a :: l, s, h => State.forEach_keeps hf l (f s a) (hf s a h)

/-! ## useOut -/

@[simp] theorem State.useOut_tb (s : State) (x k : Nat) : (s.useOut x k).tb = s.tb := rfl
@[simp] theorem State.useOut_regs (s : State) (x k : Nat) : (s.useOut x k).regs = s.regs := rfl
@[simp] theorem State.useOut_mem (s : State) (x k : Nat) : (s.useOut x k).mem = s.mem := rfl
@[simp] theorem State.useOut_tt (s : State) (x k : Nat) : (s.useOut x k).tt = s.tt := rfl
@[simp] theorem State.useOut_ports (s : State) (x k : Nat) : (s.useOut x k).ports = s.ports := rfl
@[simp] theorem State.useOut_sw (s : State) (x k : Nat) : (s.useOut x k).sw = { s.sw with usedOut := kupd s.sw.usedOut x 0 (bitSet · k) } := rfl
@[simp] theorem State.useOut_sg (s : State) (x k : Nat) : (s.useOut x k).sg = s.sg := rfl
@[simp] theorem State.useOut_tg (s : State) (x k : Nat) : (s.useOut x k).tg = s.tg := rfl
@[simp] theorem State.useOut_eps (s : State) (x k : Nat) : (s.useOut x k).eps = s.eps := rfl
@[simp] theorem State.useOut_rd (s : State) (x k : Nat) : (s.useOut x k).rd = s.rd := rfl
@[simp] theorem State.useOut_hubs (s : State) (x k : Nat) : (s.useOut x k).hubs = s.hubs := rfl
@[simp] theorem State.useOut_cores (s : State) (x k : Nat) : (s.useOut x k).cores = s.cores := rfl
@[simp] theorem State.useOut_kern (s : State) (x k : Nat) : (s.useOut x k).kern = s.kern := rfl
@[simp] theorem State.useOut_host (s : State) (x k : Nat) : (s.useOut x k).host = s.host := rfl
@[simp] theorem State.useOut_boot (s : State) (x k : Nat) : (s.useOut x k).boot = s.boot := rfl
@[simp] theorem State.useOut_vigil (s : State) (x k : Nat) : (s.useOut x k).vigil = s.vigil := rfl
@[simp] theorem State.useOut_power (s : State) (x k : Nat) : (s.useOut x k).power = s.power := rfl
@[simp] theorem State.useOut_si (s : State) (x k : Nat) : (s.useOut x k).si = s.si := rfl
@[simp] theorem State.useOut_al (s : State) (x k : Nat) : (s.useOut x k).al = s.al := rfl
@[simp] theorem State.useOut_pat (s : State) (x k : Nat) : (s.useOut x k).pat = s.pat := rfl
@[simp] theorem State.useOut_chip (s : State) (x k : Nat) : (s.useOut x k).chip = s.chip := rfl
@[simp] theorem State.useOut_free (s : State) (x k : Nat) : (s.useOut x k).free = s.free := rfl
@[simp] theorem State.useOut_out (s : State) (x k : Nat) : (s.useOut x k).out = s.out := rfl
@[simp] theorem State.useOut_pending (s : State) (x k : Nat) : (s.useOut x k).pending = s.pending := rfl

/-! ## useIn -/

@[simp] theorem State.useIn_tb (s : State) (x k : Nat) : (s.useIn x k).tb = s.tb := rfl
@[simp] theorem State.useIn_regs (s : State) (x k : Nat) : (s.useIn x k).regs = s.regs := rfl
@[simp] theorem State.useIn_mem (s : State) (x k : Nat) : (s.useIn x k).mem = s.mem := rfl
@[simp] theorem State.useIn_tt (s : State) (x k : Nat) : (s.useIn x k).tt = s.tt := rfl
@[simp] theorem State.useIn_ports (s : State) (x k : Nat) : (s.useIn x k).ports = s.ports := rfl
@[simp] theorem State.useIn_sw (s : State) (x k : Nat) : (s.useIn x k).sw = { s.sw with usedIn := kupd s.sw.usedIn x 0 (bitSet · k) } := rfl
@[simp] theorem State.useIn_sg (s : State) (x k : Nat) : (s.useIn x k).sg = s.sg := rfl
@[simp] theorem State.useIn_tg (s : State) (x k : Nat) : (s.useIn x k).tg = s.tg := rfl
@[simp] theorem State.useIn_eps (s : State) (x k : Nat) : (s.useIn x k).eps = s.eps := rfl
@[simp] theorem State.useIn_rd (s : State) (x k : Nat) : (s.useIn x k).rd = s.rd := rfl
@[simp] theorem State.useIn_hubs (s : State) (x k : Nat) : (s.useIn x k).hubs = s.hubs := rfl
@[simp] theorem State.useIn_cores (s : State) (x k : Nat) : (s.useIn x k).cores = s.cores := rfl
@[simp] theorem State.useIn_kern (s : State) (x k : Nat) : (s.useIn x k).kern = s.kern := rfl
@[simp] theorem State.useIn_host (s : State) (x k : Nat) : (s.useIn x k).host = s.host := rfl
@[simp] theorem State.useIn_boot (s : State) (x k : Nat) : (s.useIn x k).boot = s.boot := rfl
@[simp] theorem State.useIn_vigil (s : State) (x k : Nat) : (s.useIn x k).vigil = s.vigil := rfl
@[simp] theorem State.useIn_power (s : State) (x k : Nat) : (s.useIn x k).power = s.power := rfl
@[simp] theorem State.useIn_si (s : State) (x k : Nat) : (s.useIn x k).si = s.si := rfl
@[simp] theorem State.useIn_al (s : State) (x k : Nat) : (s.useIn x k).al = s.al := rfl
@[simp] theorem State.useIn_pat (s : State) (x k : Nat) : (s.useIn x k).pat = s.pat := rfl
@[simp] theorem State.useIn_chip (s : State) (x k : Nat) : (s.useIn x k).chip = s.chip := rfl
@[simp] theorem State.useIn_free (s : State) (x k : Nat) : (s.useIn x k).free = s.free := rfl
@[simp] theorem State.useIn_out (s : State) (x k : Nat) : (s.useIn x k).out = s.out := rfl
@[simp] theorem State.useIn_pending (s : State) (x k : Nat) : (s.useIn x k).pending = s.pending := rfl

/-! ## portCell -/

@[simp] theorem State.portCell_tb (s : State) (x k : Nat) (c : Cell) : (s.portCell x k c).tb = s.tb := rfl
@[simp] theorem State.portCell_regs (s : State) (x k : Nat) (c : Cell) : (s.portCell x k c).regs = s.regs := rfl
@[simp] theorem State.portCell_mem (s : State) (x k : Nat) (c : Cell) : (s.portCell x k c).mem = s.mem := rfl
@[simp] theorem State.portCell_tt (s : State) (x k : Nat) (c : Cell) : (s.portCell x k c).tt = s.tt := rfl
@[simp] theorem State.portCell_ports (s : State) (x k : Nat) (c : Cell) : (s.portCell x k c).ports = s.ports := rfl
@[simp] theorem State.portCell_sw (s : State) (x k : Nat) (c : Cell) : (s.portCell x k c).sw = { s.sw with usedOut := kupd s.sw.usedOut (chgPos x) 0 (bitSet · k) } := rfl
@[simp] theorem State.portCell_sg (s : State) (x k : Nat) (c : Cell) : (s.portCell x k c).sg = s.sg := rfl
@[simp] theorem State.portCell_tg (s : State) (x k : Nat) (c : Cell) : (s.portCell x k c).tg = s.tg := rfl
@[simp] theorem State.portCell_eps (s : State) (x k : Nat) (c : Cell) : (s.portCell x k c).eps = s.eps := rfl
@[simp] theorem State.portCell_rd (s : State) (x k : Nat) (c : Cell) : (s.portCell x k c).rd = s.rd := rfl
@[simp] theorem State.portCell_hubs (s : State) (x k : Nat) (c : Cell) : (s.portCell x k c).hubs = s.hubs := rfl
@[simp] theorem State.portCell_cores (s : State) (x k : Nat) (c : Cell) : (s.portCell x k c).cores = s.cores := rfl
@[simp] theorem State.portCell_kern (s : State) (x k : Nat) (c : Cell) : (s.portCell x k c).kern = s.kern := rfl
@[simp] theorem State.portCell_host (s : State) (x k : Nat) (c : Cell) : (s.portCell x k c).host = s.host := rfl
@[simp] theorem State.portCell_boot (s : State) (x k : Nat) (c : Cell) : (s.portCell x k c).boot = s.boot := rfl
@[simp] theorem State.portCell_vigil (s : State) (x k : Nat) (c : Cell) : (s.portCell x k c).vigil = s.vigil := rfl
@[simp] theorem State.portCell_power (s : State) (x k : Nat) (c : Cell) : (s.portCell x k c).power = s.power := rfl
@[simp] theorem State.portCell_si (s : State) (x k : Nat) (c : Cell) : (s.portCell x k c).si = s.si := rfl
@[simp] theorem State.portCell_al (s : State) (x k : Nat) (c : Cell) : (s.portCell x k c).al = s.al := rfl
@[simp] theorem State.portCell_pat (s : State) (x k : Nat) (c : Cell) : (s.portCell x k c).pat = s.pat := rfl
@[simp] theorem State.portCell_chip (s : State) (x k : Nat) (c : Cell) : (s.portCell x k c).chip = s.chip := rfl
@[simp] theorem State.portCell_free (s : State) (x k : Nat) (c : Cell) : (s.portCell x k c).free = s.free := rfl
@[simp] theorem State.portCell_out (s : State) (x k : Nat) (c : Cell) : (s.portCell x k c).out = .cell x k c :: s.out := rfl
@[simp] theorem State.portCell_pending (s : State) (x k : Nat) (c : Cell) : (s.portCell x k c).pending = s.pending := rfl

/-! ## Queues of ports -/

/-- A position of the core sends in its own steps: its queue only grows. -/
@[simp] theorem State.portPump_core {p : Nat} (h : p < 144) (s : State) : s.portPump p = s := if_pos h

theorem State.portSend_core {p : Nat} (h : p < 144) (s : State) (c : Cell) :
    s.portSend p c = s.setPort p { s.port p with sendQ := (s.port p).sendQ ++ [c] } := State.portPump_core h _

/-- Only the ports, the slots used and the cells that left differ between two states. -/
def State.PortsOnly (s t : State) : Prop :=
  t = { s with ports := t.ports, sw := { s.sw with usedOut := t.sw.usedOut }, out := t.out } ∧ ∃ l, t.out = l ++ s.out

theorem State.PortsOnly.rfl_ (s : State) : s.PortsOnly s := ⟨rfl, [], rfl⟩

theorem State.sendQueued_only (s : State) (p t : Nat) (c : Cell) : s.PortsOnly (s.sendQueued p t c) :=
  ⟨rfl, [.cell p t c], rfl⟩

theorem State.PortsOnly.trans {s t u : State} (h : s.PortsOnly t) (k : t.PortsOnly u) : s.PortsOnly u := by
  obtain ⟨h1, l, h2⟩ := h
  obtain ⟨k1, m, k2⟩ := k
  exact ⟨k1.trans (by rw [h1]), m ++ l, by rw [k2, h2, List.append_assoc]⟩

/-- Pumping a port's queue changes nothing but that queue, its count of link cells, the slots used and what left. -/
theorem State.portPump_only (s : State) (p : Nat) : s.PortsOnly (s.portPump p) := by
  unfold State.portPump
  split
  · exact .rfl_ s
  · refine State.forEach_keeps (P := s.PortsOnly) (fun t _ h => ?_) _ s (.rfl_ s)
    split
    · exact h.trans (t.sendQueued_only p _ _)
    · exact h

/-- Sending a cell changes nothing but the ports, the slots used and what left. -/
theorem State.portSend_only (s : State) (p : Nat) (c : Cell) : s.PortsOnly (s.portSend p c) :=
  State.PortsOnly.trans (t := s.setPort p { s.port p with sendQ := (s.port p).sendQ ++ [c] }) ⟨rfl, [], rfl⟩
    (State.portPump_only _ p)

end Sys2Proof.Machine
end

