-- ==== Sys2Proof/Laws/Feed.lean ====
section
/-! SUPPORT. What presenting a cell at core input 128 + s changes, and the frame of what only sends there and to hosts (R17,
R404, R420). -/

namespace Sys2Proof.Machine

/-! ## ownSend -/

@[simp] theorem State.ownSend_tb (s : State) (c : Cell) : (s.ownSend c).tb = s.tb := rfl
@[simp] theorem State.ownSend_regs (s : State) (c : Cell) : (s.ownSend c).regs = s.regs := rfl
@[simp] theorem State.ownSend_mem (s : State) (c : Cell) : (s.ownSend c).mem = s.mem := rfl
@[simp] theorem State.ownSend_tt (s : State) (c : Cell) : (s.ownSend c).tt = s.tt := rfl
@[simp] theorem State.ownSend_ports (s : State) (c : Cell) : (s.ownSend c).ports = s.ports := rfl
@[simp] theorem State.ownSend_sw (s : State) (c : Cell) : (s.ownSend c).sw = { s.sw with feed := s.sw.feed ++ [c] } := rfl
@[simp] theorem State.ownSend_sg (s : State) (c : Cell) : (s.ownSend c).sg = s.sg := rfl
@[simp] theorem State.ownSend_tg (s : State) (c : Cell) : (s.ownSend c).tg = s.tg := rfl
@[simp] theorem State.ownSend_eps (s : State) (c : Cell) : (s.ownSend c).eps = s.eps := rfl
@[simp] theorem State.ownSend_rd (s : State) (c : Cell) : (s.ownSend c).rd = s.rd := rfl
@[simp] theorem State.ownSend_hubs (s : State) (c : Cell) : (s.ownSend c).hubs = s.hubs := rfl
@[simp] theorem State.ownSend_cores (s : State) (c : Cell) : (s.ownSend c).cores = s.cores := rfl
@[simp] theorem State.ownSend_kern (s : State) (c : Cell) : (s.ownSend c).kern = s.kern := rfl
@[simp] theorem State.ownSend_host (s : State) (c : Cell) : (s.ownSend c).host = s.host := rfl
@[simp] theorem State.ownSend_boot (s : State) (c : Cell) : (s.ownSend c).boot = s.boot := rfl
@[simp] theorem State.ownSend_vigil (s : State) (c : Cell) : (s.ownSend c).vigil = s.vigil := rfl
@[simp] theorem State.ownSend_power (s : State) (c : Cell) : (s.ownSend c).power = s.power := rfl
@[simp] theorem State.ownSend_si (s : State) (c : Cell) : (s.ownSend c).si = s.si := rfl
@[simp] theorem State.ownSend_al (s : State) (c : Cell) : (s.ownSend c).al = s.al := rfl
@[simp] theorem State.ownSend_pat (s : State) (c : Cell) : (s.ownSend c).pat = s.pat := rfl
@[simp] theorem State.ownSend_chip (s : State) (c : Cell) : (s.ownSend c).chip = s.chip := rfl
@[simp] theorem State.ownSend_free (s : State) (c : Cell) : (s.ownSend c).free = s.free := rfl
@[simp] theorem State.ownSend_out (s : State) (c : Cell) : (s.ownSend c).out = .inject s.ownPos c :: s.out := rfl
@[simp] theorem State.ownSend_pending (s : State) (c : Cell) : (s.ownSend c).pending = s.pending := rfl
@[simp] theorem State.port_ownSend (s : State) (c : Cell) (k : Nat) : (s.ownSend c).port k = s.port k := rfl
@[simp] theorem State.ep_ownSend (s : State) (c : Cell) (k : Nat) : (s.ownSend c).ep k = s.ep k := rfl
@[simp] theorem State.hub_ownSend (s : State) (c : Cell) (k : Nat) : (s.ownSend c).hub k = s.hub k := rfl
@[simp] theorem State.core_ownSend (s : State) (c : Cell) (k : Nat) : (s.ownSend c).core k = s.core k := rfl
@[simp] theorem State.now_ownSend (s : State) (c : Cell) : (s.ownSend c).now = s.now := rfl
@[simp] theorem State.reg_ownSend (s : State) (c : Cell) (a : Nat) : (s.ownSend c).reg a = s.reg a := rfl
@[simp] theorem State.fget_ownSend (s : State) (c : Cell) (f : Fld) : (s.ownSend c).fget f = s.fget f := rfl
@[simp] theorem State.fbit_ownSend (s : State) (c : Cell) (f : Fld) : (s.ownSend c).fbit f = s.fbit f := rfl
@[simp] theorem State.ownPos_ownSend (s : State) (c : Cell) : (s.ownSend c).ownPos = s.ownPos := rfl

/-! ## What a step presents there -/

/-- The cells that a list of outputs, newest first, presents at position p, oldest first. -/
def ownCells (p : Nat) (l : List Out) : List Cell :=
  l.reverse.filterMap fun
    | .inject q c => if q = p then some c else none
    | _ => none

theorem ownCells_append (p : Nat) (l m : List Out) : ownCells p (l ++ m) = ownCells p m ++ ownCells p l := by
  simp [ownCells]

/-- t has more outputs than s, and what they present at core input 128 + s waits there; its switch is otherwise that of s. -/
def State.Feeds (s t : State) : Prop :=
  t.ownPos = s.ownPos ∧ ∃ l, t.out = l ++ s.out ∧ t.sw = { s.sw with feed := s.sw.feed ++ ownCells s.ownPos l }

theorem State.Feeds.rfl_ (s : State) : s.Feeds s := ⟨rfl, [], rfl, by simp [ownCells]⟩

theorem State.Feeds.trans {s t u : State} (h : s.Feeds t) (k : t.Feeds u) : s.Feeds u := by
  obtain ⟨hp, l, ho, hs⟩ := h
  obtain ⟨kp, m, ko, ks⟩ := k
  refine ⟨kp.trans hp, m ++ l, by rw [ko, ho, List.append_assoc], ?_⟩
  rw [ks, hs, hp, ownCells_append, List.append_assoc]

/-- Neither the switch nor the outputs differ. -/
theorem State.Feeds.of_eq {s t : State} (hp : t.ownPos = s.ownPos) (ho : t.out = s.out) (hs : t.sw = s.sw) : s.Feeds t :=
  ⟨hp, [], ho, by simp [hs, ownCells]⟩

theorem State.ownSend_feeds (s : State) (c : Cell) : s.Feeds (s.ownSend c) :=
  ⟨rfl, [.inject s.ownPos c], rfl, by simp [ownCells]⟩

theorem State.emit_packet_feeds (s : State) (r : Route) (b : List Byte) : s.Feeds (s.emit (.packet r b)) :=
  ⟨rfl, [.packet r b], rfl, by simp [ownCells]⟩

/-- The switch after a step that only feeds is that of s with what was presented. -/
theorem State.Feeds.sw_eq {s t : State} (h : s.Feeds t) : t.sw = s.fed t := by
  obtain ⟨_, l, ho, hs⟩ := h
  rw [hs, State.fed, State.presented, ho, List.length_append, Nat.add_sub_cancel, List.take_left]
  rfl

/-- Steps that feed, one after the other. -/
theorem State.forEach_feeds {α : Type} {f : State → α → State} (hf : ∀ (s : State) a, s.Feeds (f s a)) (l : List α) (s : State) :
    s.Feeds (s.forEach l f) :=
  State.forEach_keeps (P := s.Feeds) (fun t a h => h.trans (hf t a)) l s (.rfl_ s)

/-- A reply presents its STATUS cells at core input 128 + s, or leaves in packets (R404, R420). -/
theorem State.sendReply_feeds (s : State) (r : CmdReq) (st progress : Nat) (result : List Byte) (rep : Bool) :
    s.Feeds (s.sendReply r st progress result rep) := by
  unfold State.sendReply
  split
  · exact State.forEach_feeds (fun (s : State) b => s.emit_packet_feeds _ b) _ s
  · exact State.forEach_feeds (fun (s : State) _ => s.ownSend_feeds _) _ s

end Sys2Proof.Machine
end

