-- ==== Sys2Proof/WellFormed.lean ====
section
/-! DEFINITION. Well-formed commands: every operand that names a unit names one the spec gives the block, every field of a
cell and of a command header fits the bits the spec gives it. No meaning rests on it: a command that is not well-formed has
the effect its meaning gives it, none where it names no unit. -/

namespace Sys2Proof

/-- A cell's fields fit their bits (R85), and its class is none of the reserved ones. -/
def Cell.wf (c : Cell) : Bool :=
  decide (c.typ < 256) && decide (c.cls < 3) && decide (c.age < 64) && decide (c.dst < 1024) && decide (c.opmod < 16)
    && decide (c.src < 1024) && decide (c.ctx < 64) && decide (c.seq < 65536) && decide (c.offset < 2 ^ 44)
    && decide (c.len < 16) && decide (c.hint < 4) && decide (c.subtype < 16) && decide (c.part < 4)
    && decide (c.slot < 8192) && decide (c.chunk < 2 ^ 32) && decide (c.scales < 2 ^ 32) && decide (c.rsv < 2 ^ 9)
    && decide (c.space < 2)

/-- A command header's fields fit their bits (*Command packets*); a sender is one of 32 allow-list entries or one of
1,024 end-point ids (R406). -/
def CmdReq.wf (r : CmdReq) : Bool :=
  (decide (r.owner < 32) || (decide (64 ≤ r.owner) && decide (r.owner < 1088))) && decide (r.opcode < 65536)
    && decide (r.tag < 65536) && decide (r.seqn < 2 ^ 64) && decide (r.ctx < 64)

/-- A memory request's fields are among those of R164: operation, scope, length code, address, milestone. -/
def MemReq.wf (r : MemReq) : Bool :=
  decide (r.op ≤ 6) && decide (r.scope < 4) && decide (r.len ≤ 8) && decide (r.addr < 2 ^ 64) && decide (r.ctx < 64)
    && decide (r.aop < 16) && decide (r.subtype < 16) && decide (r.hint < 3)
    && (r.ms.all fun m => decide (m < 4096)) && r.data.length ≤ 256

/-- A command names units, contexts, frames' clocks and tags that exist. -/
def Instr.wellFormed (i : Instr) : Bool :=
  match i with
  | .frameTick _ => true
  | .frameMarker port _ => decide (port < 176)
  | .realignDone a => decide (a.port < 176)
  | .lockAchieved => true
  | .lockLost => true
  | .holdoverEntry => true
  | .holdoverExpiry => true
  | .masterDeclare => true
  | .masterTakeover => true
  | .masterHandover plane => decide (plane < 16)
  | .slipBarEnd => true
  | .timetableLoad r => r.wf
  | .timetableSwap r => r.wf
  | .swapCheckDone bank => decide (bank < 3)
  | .bankSwap bank => decide (bank < 3)
  | .bankCopyDone bank => decide (bank < 3)
  | .cellReceive port cell _ _ => decide (port < 176) && cell.wf
  | .cellIngress pos cell fclk => decide (pos < 160) && cell.wf && decide (fclk < 1600)
  | .firstStageSend input fclk => decide (input < 160) && decide (fclk < 1600)
  | .secondStageSend inter fclk => decide (inter < 160) && decide (fclk < 1600)
  | .outputSend pos fclk => decide (pos < 160) && decide (fclk < 1600)
  | .entryHandover hub fclk => decide (hub < 16) && decide (fclk < 1600)
  | .hubPerformed hub _ _ => decide (hub < 16)
  | .combineEn _ => true
  | .ageDiscard => true
  | .ringLockTimeout port wl => decide (port < 176) && decide (wl < 8)
  | .lightLoss port => decide (port < 176)
  | .trainingRetry port => decide (port < 176)
  | .codedStreamLoss port => decide (port < 176)
  | .trainingStart port _ => decide (port < 176)
  | .trainingStepTimeout port n => decide (port < 176) && decide (1 ≤ n ∧ n ≤ 7)
  | .enable port _ => decide (port < 176)
  | .fwOverride port _ => decide (port < 176)
  | .retrain port => decide (port < 176)
  | .forceDown port _ => decide (port < 176)
  | .forceMaint port _ => decide (port < 176)
  | .berIntervalEnd port _ _ => decide (port < 176)
  | .rxReport port _ => decide (port < 176)
  | .retire port wl cause _ => decide (port < 176) && decide (wl < 8) && decide (cause < 2)
  | .retireAck port wl => decide (port < 176) && decide (wl < 8)
  | .wavelengthLost port wl => decide (port < 176) && decide (wl < 8)
  | .widthChange pos => decide (pos < 336)
  | .signpostLoad r => r.wf
  | .planLoad r => r.wf
  | .planAccept r => r.wf
  | .portSettleTimeout port => decide (port < 176)
  | .planStateChange => true
  | .substitutionRecompute => true
  | .tollgateReceive cell => cell.wf
  | .batchClose _ => true
  | .singleRelease _ => true
  | .uplinkDispatch uplink => decide (uplink < 16)
  | .trainReceive uplink _ _ => decide (uplink < 16)
  | .farComplete _ => true
  | .transferAgeDiscard _ => true
  | .transferResend _ => true
  | .transferGiveUp _ => true
  | .transferAnswer _ => true
  | .requestIssue ep r => decide (ep < 18) && r.wf
  | .requestTransmit ep _ => decide (ep < 18)
  | .releaseSend ep _ => decide (ep < 18)
  | .targetReceive ep plane cell _ => decide (ep < 18) && decide (plane < 16) && cell.wf
  | .answerReceive ep plane cell => decide (ep < 18) && decide (plane < 16) && cell.wf
  | .retransmit ep _ => decide (ep < 18)
  | .requestLost ep _ => decide (ep < 18)
  | .replyRecordExpiry ep => decide (ep < 18)
  | .seqWindowExpiry ep _ => decide (ep < 18)
  | .startupQuietEnd ep => decide (ep < 18)
  | .demotionNotice ep plane cell => decide (ep < 18) && decide (plane < 16) && cell.wf
  | .demoteClr ep => decide (ep < 18)
  | .volatileSet ep _ => decide (ep < 18)
  | .msCountWrite ep ms _ => decide (ep < 18) && decide (ms < 4096)
  | .milestoneSatisfied ep _ => decide (ep < 18)
  | .waitDeadline ep => decide (ep < 18)
  | .fenceComplete ep _ => decide (ep < 18)
  | .tokenWaitDone core engine => decide (core < 256) && decide (engine < 4)
  | .groupLoad r => r.wf
  | .instanceArm r => r.wf
  | .joinReceive cell fclk => cell.wf && decide (fclk < 1600)
  | .contribReceive cell fclk => cell.what.wf && decide (fclk < 1600) && decide (cell.faults.length ≤ 64)
  | .earlyArrivalExpiry => true
  | .entrySpill slot chunk =>
      decide (slot < 8192) && decide (chunk.what < 2 ^ 32) && decide (chunk.faults.length ≤ 64)
  | .mapAckSend => true
  | .resultHandoff slot h => decide (slot < 8192) && decide (h.chunk < 2 ^ 32) && decide (h.fclk < 1600)
  | .resultReceive ep cell => decide (ep < 18) && cell.wf
  | .bcastSend ep slot => decide (ep < 18) && decide (slot < 8192)
  | .bcastReceive ep cell => decide (ep < 18) && cell.wf
  | .bcastRecovery ep slot => decide (ep < 18) && decide (slot < 8192)
  | .instanceEnd slot => decide (slot < 8192)
  | .instanceDeadline slot => decide (slot < 8192)
  | .endNoticeRepeat slot => decide (slot < 8192)
  | .endNoticeReceive ep plane cell => decide (ep < 18) && decide (plane < 16) && cell.wf
  | .noticeMissing ep slot => decide (ep < 18) && decide (slot < 8192)
  | .slotFree slot => decide (slot < 8192)
  | .rdSrSeed _ => true
  | .laneMarginInterval hub _ _ => decide (hub < 16)
  | .laneLost hub lane => decide (hub < 16) && decide (lane < 8)
  | .memoryAccess hub r _ => decide (hub < 16) && r.wf
  | .refreshDue hub chan rank bank => decide (hub < 16) && decide (chan < 96) && decide (rank < 2) && decide (bank < 16)
  | .patrolScrub hub _ => decide (hub < 16)
  | .tempRead hub _ => decide (hub < 16)
  | .retireMoveStart hub => decide (hub < 16)
  | .retireGo hub => decide (hub < 16)
  | .retireRowCopy hub => decide (hub.what < 16) && decide (hub.faults.length ≤ 4)
  | .mirrorValidSet hub window => decide (hub < 16) && decide (window < 16)
  | .mirrorResync hub window => decide (hub < 16) && decide (window < 16)
  | .mirrorPageSend hub => decide (hub.what < 16) && decide (hub.faults.length ≤ 64)
  | .mirrorSync hub ms windows => decide (hub < 16) && decide (ms < 4096) && decide (windows < 65536)
  | .mirrorSyncComplete hub => decide (hub < 16)
  | .quantumSchedule core => decide (core < 256)
  | .quantumOverrun core => decide (core < 256)
  | .addS core _ => decide (core < 256)
  | .subS core _ => decide (core < 256)
  | .mulS core _ => decide (core < 256)
  | .mulhu core _ => decide (core < 256)
  | .andS core _ => decide (core < 256)
  | .orS core _ => decide (core < 256)
  | .xorS core _ => decide (core < 256)
  | .shl core _ => decide (core < 256)
  | .shr core _ => decide (core < 256)
  | .sra core _ => decide (core < 256)
  | .minS core _ => decide (core < 256)
  | .maxS core _ => decide (core < 256)
  | .minu core _ => decide (core < 256)
  | .maxu core _ => decide (core < 256)
  | .divu core _ => decide (core < 256)
  | .remu core _ => decide (core < 256)
  | .seq core _ => decide (core < 256)
  | .slt core _ => decide (core < 256)
  | .sltu core _ => decide (core < 256)
  | .li core _ => decide (core < 256)
  | .lih core _ => decide (core < 256)
  | .beq core _ => decide (core < 256)
  | .bne core _ => decide (core < 256)
  | .blt core _ => decide (core < 256)
  | .bge core _ => decide (core < 256)
  | .bltu core _ => decide (core < 256)
  | .bgeu core _ => decide (core < 256)
  | .jal core _ => decide (core < 256)
  | .jr core _ => decide (core < 256)
  | .sld core _ => decide (core < 256)
  | .sst core _ => decide (core < 256)
  | .slda core _ => decide (core < 256)
  | .sstr core _ => decide (core < 256)
  | .rdsys core _ => decide (core < 256)
  | .rdstat core _ => decide (core < 256)
  | .ld core _ => decide (core < 256)
  | .ldv core _ => decide (core < 256)
  | .lda core _ => decide (core < 256)
  | .st core _ => decide (core < 256)
  | .str core _ => decide (core < 256)
  | .atm core _ => decide (core < 256)
  | .atma core _ => decide (core < 256)
  | .atmr core _ => decide (core < 256)
  | .inval core _ => decide (core < 256)
  | .coll core _ => decide (core < 256)
  | .collx core _ => decide (core < 256)
  | .dmain core _ => decide (core < 256)
  | .dmainv core _ => decide (core < 256)
  | .dmaout core _ => decide (core < 256)
  | .dmaadd core _ => decide (core < 256)
  | .dmacp core _ => decide (core < 256)
  | .dmaTransferComplete core _ => decide (core < 256)
  | .vld core _ => decide (core < 256)
  | .vldb core _ => decide (core < 256)
  | .vst core _ => decide (core < 256)
  | .vadd core _ => decide (core < 256)
  | .vsub core _ => decide (core < 256)
  | .vmul core _ => decide (core < 256)
  | .vfma core _ => decide (core < 256)
  | .vmin core _ => decide (core < 256)
  | .vmax core _ => decide (core < 256)
  | .vsel core _ => decide (core < 256)
  | .vrcp core _ => decide (core < 256)
  | .vrsq core _ => decide (core < 256)
  | .vexp2 core _ => decide (core < 256)
  | .vrsum core _ => decide (core < 256)
  | .vrmax core _ => decide (core < 256)
  | .vcvt core _ => decide (core < 256)
  | .vsplat core _ => decide (core < 256)
  | .mma core w => decide (core < 256) && decide (w.groups < 1024)
  | .mzero core _ => decide (core < 256)
  | .mout core _ => decide (core < 256)
  | .mload core _ => decide (core < 256)
  | .xli core engine _ => decide (core < 256) && decide (engine < 4)
  | .xadd core engine _ => decide (core < 256) && decide (engine < 4)
  | .xbnz core engine _ => decide (core < 256) && decide (engine < 4)
  | .xloop core engine _ => decide (core < 256) && decide (engine < 4)
  | .xjmp core engine _ => decide (core < 256) && decide (engine < 4)
  | .xstat core engine _ => decide (core < 256) && decide (engine < 4)
  | .xlih core engine _ => decide (core < 256) && decide (engine < 4)
  | .fence core engine _ => decide (core < 256) && decide (engine < 4)
  | .tsig core engine _ => decide (core < 256) && decide (engine < 4)
  | .twait core engine _ => decide (core < 256) && decide (engine < 4)
  | .mswait core engine _ => decide (core < 256) && decide (engine < 4)
  | .msadd core engine _ => decide (core < 256) && decide (engine < 4)
  | .step core engine _ => decide (core < 256) && decide (engine < 4)
  | .endE core engine _ => decide (core < 256) && decide (engine < 4)
  | .nop core engine _ => decide (core < 256) && decide (engine < 4)
  | .contextCreate r => r.wf
  | .contextScrub r => r.wf
  | .scrubDrainDone ctx => decide (ctx < 64)
  | .kernelLoad r => r.wf
  | .kernelStart r => r.wf
  | .kernelStop r => r.wf
  | .unloadDone ctx core => decide (ctx < 64) && decide (core < 256)
  | .kernelEnd ctx core => decide (ctx < 64) && decide (core < 256)
  | .ringRequest core ctx => decide (core < 256) && decide (ctx < 64)
  | .optimizerBatch core ctx => decide (core < 256) && decide (ctx < 64)
  | .ethernetFrame _ => true
  | .lldpSend => true
  | .commandPacket port _ udp _ => decide (port < 2) && decide (udp < 65536)
  | .partialCommandExpiry => true
  | .commandComplete owner tag => decide (owner < 1088) && decide (tag < 65536)
  | .identify r => r.wf
  | .regRead r => r.wf
  | .regWrite r => r.wf
  | .memRead r => r.wf
  | .memWrite r => r.wf
  | .resultRead r => r.wf
  | .tagRetire r => r.wf
  | .inbandCommandPiece cell => cell.wf
  | .inbandPieceExpiry => true
  | .rdmaWrite _ => true
  | .rdmaRead _ => true
  | .rdmaUnsupported _ => true
  | .qpStateWrite qp _ => decide (qp < 256)
  | .ptpMessage _ => true
  | .timeSet _ => true
  | .allowListWrite entry word _ => decide (entry < 32) && decide (word < 4)
  | .powerOn _ => true
  | .strapChange _ => true
  | .bootEntry _ _ => true
  | .initEnd => true
  | .maint => true
  | .resume => true
  | .drainEnd => true
  | .thermalTrip => true
  | .bootHold _ => true
  | .bootFailClear => true
  | .resetPartial r => r.wf
  | .controlReset => true
  | .resetDone _ _ => true
  | .fwStage r => r.wf
  | .fwActivate r => r.wf
  | .liveConfirm => true
  | .liveTimeout => true
  | .fullTrialTimeout => true
  | .eccUncorrectable _ _ => true
  | .tableEccError _ => true
  | .heartbeatSend port => decide (port < 176)
  | .changeHeartbeat => true
  | .heartbeatReceive port cell => decide (port < 176) && cell.wf
  | .vigilWindowEnd subject => decide (subject < 144)
  | .vigilConfirm r => r.wf
  | .goneDepart plane => decide (plane < 16)
  | .goneClear id => decide (id < 416)
  | .inputLoss => true
  | .inputLossInstanceEnd => true
  | .inputLossRailsOff => true
  | .presentNRise => true
  | .coolantSample _ _ _ => true
  | .dieTempSample _ => true
  | .emergencyEnd => true
  | .ladderFall => true
  | .boostExhaust => true
  | .boostRestore => true
  | .powerPolicy r => r.wf
  | .laserWearUpdate _ => true
  | .throttlePeriod => true
  | .attest r => r.wf
  | .attGo => true
  | .rngHealthFail => true
  | .tableHashUpdate table => decide (table < 5)
  | .debugSessionStart source => decide (source < 3)
  | .debugSessionEnd => true
  | .pageEdge => true
  | .pageWrite _ => true
  | .almanacWindow r => r.wf
  | .snapshotExpiry => true
  | .tmSnapGo => true
  | .tmShadowCopy => true
  | .linkTest r => r.wf
  | .linkTestStart owner tag => decide (owner < 1088) && decide (tag < 65536)
  | .checkerLock port wl _ _ _ => decide (port < 176) && decide (wl < 8)
  | .linkTestEnd owner tag _ => decide (owner < 1088) && decide (tag < 65536)
  | .patternPlace gen fclk _ => decide (gen < 16) && decide (fclk < 1600)
  | .patternCheck cell fclk => cell.wf && decide (fclk < 1600)
  | .pchkEnable chk _ => decide (chk < 16)
  | .wiringVerify r => r.wf
  | .wiringVerifyStart owner tag => decide (owner < 1088) && decide (tag < 65536)
  | .beaconReceive port _ => decide (port < 176)
  | .beaconTimeout port => decide (port < 176)
  | .connectorInspect r => r.wf
  | .connectorInspectStart owner tag _ _ => decide (owner < 1088) && decide (tag < 65536)
  | .ucieModuleTrain m _ => decide (m < 8)
  | .request r _ => r.wf
  | .syncFence rq tag ctx _ _ _ => decide (rq < 64) && decide (tag < 65536) && decide (ctx < 64)
  | .syncWait rq tag ctx _ _ _ _ _ _ => decide (rq < 64) && decide (tag < 65536) && decide (ctx < 64)
  | .syncAdd rq tag ctx _ _ _ _ => decide (rq < 64) && decide (tag < 65536) && decide (ctx < 64)
  | .collMember rq tag ctx _ _ _ _ => decide (rq < 64) && decide (tag < 65536) && decide (ctx < 64)
  | .collRootArm rq tag ctx _ _ _ _ => decide (rq < 64) && decide (tag < 65536) && decide (ctx < 64)
  | .collAbort rq tag ctx _ _ _ _ => decide (rq < 64) && decide (tag < 65536) && decide (ctx < 64)
  | .inbandMessage plane ctx _ => decide (plane < 16) && decide (ctx < 64)
  | .homeData _ _ _ => true
  | .homeDone _ => true
  | .homeTimeout _ => true
  | .lineStoreAdmit _ => true
  | .portsEn _ => true
  | .sbLock _ => true
  | .chipletReset => true
  | .chTestGo _ => true
  | .chipletThermalTrip _ _ => true
  | .bmTransaction _ _ _ => true
  | .registerWrite via _ _ => decide (via < 4)
  | .rngOkReturn => true
  | .chipletThermalRelease _ _ => true
  | .hostPortLinkChange port _ _ _ => decide (port < 2)
  | .wiringVerifyEnd owner tag => decide (owner < 1088) && decide (tag < 65536)
  | .attEvidenceReady => true

end Sys2Proof
end

