-- ==== Sys2Proof/Tests/Slice0.lean ====
section
/-! SUPPORT. Tests: ill-formed commands are refused by WellFormed; single steps against values worked out by hand from the
spec; and for every statement a theorem that shows states and operands meeting the hypotheses of its clauses. -/

namespace Sys2Proof.Tests

open Sys2Proof Sys2Proof.Machine

set_option Elab.async false
set_option linter.unusedVariables false

/-! ## States the tests use -/

/-- A state with these fields set. -/
def at_ (l : List (Fld × Nat)) (s : State := {}) : State := l.foldl (fun s f => s.fset f.1 f.2) s

/-- Ports that are UP with full width. -/
def up (l : List Nat) (s : State := {}) : State :=
  l.foldl (fun s p => at_ [(R.OP_PORT_STATUS.STATE p, PS.UP), (R.OP_PORT_STATUS.WIDTH p, 8), (R.OP_PORT_STATUS.WL_WORKING p, 255)] s) s

/-- The sled in a state. -/
def inState (st : Nat) (s : State := {}) : State := s.fset R.CP_STATE.STATE st

/-- A plan payload that records the default plan for plane 0 and rack `r`, with every uplink unused. -/
def planBytes (r : Nat) : List Byte :=
  leBytes 0x7A05 2 ++ leBytes 0 14 ++ ((List.range 160).filter (· != 128)).flatMap fun p =>
    leBytes (portNum p) 2 ++ leBytes (if p < 128 then 2 else if p < 144 then 0 else 0xFF) 1 ++
    leBytes (if p < 144 then r else 0) 1 ++ leBytes (if 128 ≤ p ∧ p < 144 then p - 128 else 0) 2 ++
    leBytes (if 128 ≤ p ∧ p < 144 then 128 else 0) 2 ++ leBytes (if p < 128 then p else 0x3FF) 2 ++ leBytes 0 6

/-- Every port of the default plan is placed as the plan has it. -/
def matched : State := { regs := ((List.range 144).filter (· != 128)).map fun p => (R.SG_FOUND.addr p, BitVec.ofNat 64 (OC.MATCH * 2 ^ (R.SG_FOUND.OUTCOME p).lo)) }

/-- Descriptor bytes 10-23. -/
def desc (op inT outT rootW elements : Nat) : List Byte :=
  leBytes op 1 ++ leBytes inT 1 ++ leBytes outT 1 ++ leBytes 0 1 ++ leBytes rootW 2 ++ leBytes elements 8

/-- The payload of an INSTANCE_ARM of slot 12, ISEQ 3, group 7. -/
def armBytes (d : List Byte) (rbase deadline : Nat) : List Byte :=
  leBytes 12 2 ++ leBytes 0 2 ++ leBytes 3 4 ++ leBytes 7 2 ++ d ++ leBytes rbase 6 ++ leBytes 0x4000 6 ++ leBytes 2 1 ++
  leBytes 0 7 ++ leBytes 9 2 ++ leBytes 0 2 ++ leBytes deadline 8 ++ leBytes 0 24

/-- Group 7 of context 5 with members 5 and 9. -/
def grouped (s : State := {}) : State :=
  at_ [(R.GROUP0.VALID 0 7, 1), (R.GROUP0.CONTEXT 0 7, 5), (R.GROUP0.MEMBERS 0 7, 2), (R.GROUPW.MEMBER_MAP 0 7 1, 2 ^ 5 + 2 ^ 9),
    (R.CP_CTX.STATE 5, 1), (R.CP_CTX.INST_QUOTA 5, 2)] s

/-- Slot 12 holds an instance of group 7 in state `st`. -/
def holds (st : Nat) (i : Inst) (s : State := grouped) : State :=
  let s := at_ [(R.RD_INST0.STATE 12, st), (R.RD_INST0.GROUP 12, 7)] s
  { s with rd := { s.rd with insts := [(12, i)] } }

def clock (t : Nat) (s : State) : State := { s with tb := { s.tb with frame := BitVec.ofNat 64 t } }

/-- Window 15 of hub 3: four pages at 0x1000, their bitmap at 0x9000, the partner's range at 0x20000. -/
def mirrored (ctx : Nat) : State :=
  at_ [(R.HB_MIRROR0.CONTEXT 3 15, ctx % 64), (R.HB_MIRROR1.BASE 3 15, 1), (R.HB_MIRROR2.PAGES 3 15, 4),
    (R.HB_MIRROR3.PARTNER_BASE 3 15, 32), (R.HB_MIRROR4.BITMAP_BASE 3 15, 0x240)]

/-- Core 53 runs context 5, whose engines stand at word 7 and find `w` there, with run set `r`. -/
def running (w : W64) (r : RegSet := {}) (scratch : Memory := []) (s : State := {}) : State :=
  let s := at_ [(R.CO_STATUS.KIND 53, 1), (R.CO_KSTATE.STATE 53 5, KS.STARTED), (R.CO_PART.VALID 53 5, 1), (R.CO_PART.BASE 53 5, 1),
    (R.CO_PART.UNITS 53 5, 4), (R.CO_PART.CODE_BASE 53 5, 4), (R.CO_PART.CODE_LEN 53 5, 100)] s
  { s with cores := [(53, { run := { r with ctx := 5 }, scratch := scratch, code := [(11, w)] })] }

/-- Engines at word `pc` with index registers `x`. -/
def engs (pc : Nat) (x : List W64) : List Engine := List.replicate 4 { pc := pc, stopped := false, x := x }

/-- A run set with scalar registers. -/
def regs5 (x : List W64 := [0x40, 0x2000, 0, 3]) (pc : Nat := 7) : RegSet :=
  { engines := engs pc x, s := [0, 2 ^ 64 - 7, 3, 9, 4, 49152, 0x40, 0x100040] ++ List.replicate 24 0 }

/-- Hub 3 translates context 5's 0x100000 to accelerator 7. -/
def mapped (s : State) : State :=
  at_ [(R.TRANS0.VALID 3 0, 1), (R.TRANS0.CONTEXT 3 0, 5), (R.TRANS0.SIZE_LOG2 3 0, 20), (R.TRANS0.READ 3 0, 1), (R.TRANS0.WRITE 3 0, 1),
    (R.TRANS0.ATOMIC 3 0, 1), (R.TRANS1.VA_BASE 3 0, 0x100), (R.TRANS2.GA_BASE 3 0, 7 * 2 ^ 32)] s

/-- A kernel image with one code word w (and one entry), 16 KiB of scratch and init bytes. -/
def imgBytes (w acc : Nat) : List Byte :=
  leBytes 0x4B05 2 ++ leBytes 0 1 ++ leBytes acc 1 ++ leBytes 0 2 ++ leBytes 0x7FFF 2 ++ leBytes 0x7FFF 2 ++ leBytes 0x7FFF 2 ++
  leBytes 1 4 ++ leBytes 16384 4 ++ leBytes 4 4 ++ leBytes 0 2 ++ leBytes 0 38 ++ leBytes w 8 ++ leBytes 0x04030201 4

/-- The 8 bytes of a KERNEL_LOAD for cores 5 and 6 of hub 3, and the image. -/
def loadBytes (w acc : Nat) : List Byte := leBytes 0 2 ++ leBytes 3 2 ++ leBytes 0x60 2 ++ leBytes 0 2 ++ imgBytes w acc

/-- The sled in SERVICE with context 5 on all hubs. -/
def served (s : State) : State := at_ [(R.CP_CTX.STATE 5, 1), (R.CP_CTX.HUB_MASK 5, 0xFFFF)] (inState SS.SERVICE s)

/-- A standard kernel of context 5 runs on core 53; its load is on cores `cs` with parameters b. -/
def stdKernel (std : Nat) (cs : List Nat) (b : List Byte) (s : State) : State :=
  let s := at_ [(R.CO_STATUS.KIND 53, 1), (R.CO_KSTATE.STATE 53 5, KS.STARTED), (R.CO_KSTATE.STD 53 5, std)] s
  { s with cores := [(53, { run := { ctx := 5 } })], kern := { loads := [{ ctx := 5, hub := 3, cores := cs, std := std, params := b }] } }

/-- A command packet of a manager for opcode op, tag 9, with a payload. -/
def packet (op : Nat) (p : List Byte) : List Byte :=
  [0x4A, 0x58, 1, 0, 0, BitVec.ofNat 8 op, 0, 9, 0, 0, 0, 0, 0, 0] ++ (leBytes p.length 2).reverse ++ leBytes 0 16 ++ p

/-- Allow-list entry 2 is a manager's and matches every source. -/
def listed (s : State) : State := at_ [(R.HE_ALLOW0.VALID 2, 1), (R.HE_ALLOW0.MANAGER 2, 1)] s

/-- Queue pair 7 of context 5 in READY on H0, expecting PSN 3; region 9 with key 0x55 over the context's record on hub 3. -/
def paired (s : State) : State :=
  let s := at_ [(R.CP_CTX.STATE 5, 1), (R.HE_QP0.VALID 7, 1), (R.HE_QP0.CONTEXT 7, 5), (R.HE_QP0.STATE 7, 1), (R.HE_QP0.EPSN 7, 3),
    (R.HE_MR0.VALID 9, 1), (R.HE_MR0.CONTEXT 9, 5), (R.HE_MR0.READ 9, 1), (R.HE_MR0.WRITE 9, 1), (R.HE_MR0.R_KEY 9, 0x55),
    (R.HE_MR1.VA_BASE 9, 0x100000), (R.HE_MR2.LENGTH 9, 0x10000)] s
  { s with kern := { s.kern with ctxs := [(5, { records := [(1 + 5 * 2 + 20 * 128 + 7 * 2 ^ 13, 0x100000, 131 * 2 ^ 44)] })] } }


/-! ## Ill-formed commands are refused by WellFormed: one term for each check -/

theorem test_illformed_cell :
    ([{ typ := 256 }, { cls := 3 }, { age := 64 }, { dst := 1024 }, { opmod := 16 }, { src := 1024 }, { ctx := 64 },
     { seq := 65536 }, { offset := 2 ^ 44 }, { len := 16 }, { hint := 4 }, { subtype := 16 }, { part := 4 },
     { slot := 8192 }, { chunk := 2 ^ 32 }, { scales := 2 ^ 32 }, { rsv := 2 ^ 9 }, { space := 2 }] : List Cell).all (fun c => !c.wf) = true := by
  decide +kernel

theorem test_illformed_header :
    ([{ owner := 32 }, { owner := 1088 }, { opcode := 65536 }, { tag := 65536 }, { seqn := 2 ^ 64 }, { ctx := 64 }] : List CmdReq).all (fun c => !c.wf) = true := by
  decide +kernel

theorem test_illformed_request :
    ([{ op := 7 }, { scope := 4 }, { len := 9 }, { addr := 2 ^ 64 }, { ctx := 64 }, { aop := 16 }, { subtype := 16 },
     { hint := 3 }, { ms := some 4096 }, { data := List.replicate 257 0 }] : List MemReq).all (fun c => !c.wf) = true := by
  decide +kernel

theorem test_illformed_commands_0 :
    ([.frameMarker 176 {}, .realignDone ⟨176, 0, 0⟩, .masterHandover 16, .timetableLoad { ctx := 64 },
     .timetableSwap { ctx := 64 }, .swapCheckDone 3, .bankSwap 3, .bankCopyDone 3, .cellReceive 176 {} false false,
     .cellReceive 0 { cls := 3 } false false, .cellIngress 160 {} 0, .cellIngress 0 { cls := 3 } 0,
     .cellIngress 0 {} 1600, .firstStageSend 160 0, .firstStageSend 0 1600, .secondStageSend 160 0,
     .secondStageSend 0 1600, .outputSend 160 0, .outputSend 0 1600, .entryHandover 16 0, .entryHandover 0 1600,
     .hubPerformed 16 0 .clean, .ringLockTimeout 176 0, .ringLockTimeout 0 8, .lightLoss 176, .trainingRetry 176,
     .codedStreamLoss 176, .trainingStart 176 none, .trainingStepTimeout 176 1, .trainingStepTimeout 0 0,
     .trainingStepTimeout 0 8, .enable 176 false, .fwOverride 176 false, .retrain 176, .forceDown 176 false,
     .forceMaint 176 false, .berIntervalEnd 176 [] [], .rxReport 176 [], .retire 176 0 0 0, .retire 0 8 0 0,
     .retire 0 0 2 0, .retireAck 176 0, .retireAck 0 8, .wavelengthLost 176 0, .wavelengthLost 0 8, .widthChange 336,
     .signpostLoad { ctx := 64 }, .planLoad { ctx := 64 }, .planAccept { ctx := 64 }, .portSettleTimeout 176,
     .tollgateReceive { cls := 3 }, .uplinkDispatch 16, .trainReceive 16 none [], .requestIssue 18 {},
     .requestIssue 0 { ctx := 64 }, .requestTransmit 18 0, .releaseSend 18 0, .targetReceive 18 0 {} .clean,
     .targetReceive 0 16 {} .clean, .targetReceive 0 0 { cls := 3 } .clean] : List Instr).all (fun i => !i.wellFormed) = true := by
  decide +kernel

theorem test_illformed_commands_1 :
    ([.answerReceive 18 0 {}, .answerReceive 0 16 {}, .answerReceive 0 0 { cls := 3 }, .retransmit 18 0,
     .requestLost 18 0, .replyRecordExpiry 18, .seqWindowExpiry 18 0, .startupQuietEnd 18, .demotionNotice 18 0 {},
     .demotionNotice 0 16 {}, .demotionNotice 0 0 { cls := 3 }, .demoteClr 18, .volatileSet 18 false,
     .msCountWrite 18 0 0, .msCountWrite 0 4096 0, .milestoneSatisfied 18 0, .waitDeadline 18, .fenceComplete 18 0,
     .tokenWaitDone 256 0, .tokenWaitDone 0 4, .groupLoad { ctx := 64 }, .instanceArm { ctx := 64 },
     .joinReceive { cls := 3 } 0, .joinReceive {} 1600, .contribReceive { what := { cls := 3 } } 0, .contribReceive { what := {} } 1600,
     .contribReceive ⟨{}, List.replicate 65 .clean⟩ 0, .entrySpill 8192 ⟨0, []⟩, .entrySpill 0 ⟨2 ^ 32, []⟩,
     .entrySpill 0 ⟨0, List.replicate 65 .clean⟩, .resultHandoff 8192 ⟨0, 0⟩, .resultHandoff 0 ⟨2 ^ 32, 0⟩,
     .resultHandoff 0 ⟨0, 1600⟩, .resultReceive 18 {}, .resultReceive 0 { cls := 3 }, .bcastSend 18 0, .bcastSend 0 8192,
     .bcastReceive 18 {}, .bcastReceive 0 { cls := 3 }, .bcastRecovery 18 0, .bcastRecovery 0 8192, .instanceEnd 8192,
     .instanceDeadline 8192, .endNoticeRepeat 8192, .endNoticeReceive 18 0 {}, .endNoticeReceive 0 16 {},
     .endNoticeReceive 0 0 { cls := 3 }, .noticeMissing 18 0, .noticeMissing 0 8192, .slotFree 8192,
     .laneMarginInterval 16 [] [], .laneLost 16 0, .laneLost 0 8, .memoryAccess 16 {} .clean,
     .memoryAccess 0 { ctx := 64 } .clean, .refreshDue 16 0 0 0, .refreshDue 0 96 0 0, .refreshDue 0 0 2 0,
     .refreshDue 0 0 0 16, .patrolScrub 16 .clean] : List Instr).all (fun i => !i.wellFormed) = true := by
  decide +kernel

theorem test_illformed_commands_2 :
    ([.tempRead 16 [], .retireMoveStart 16, .retireGo 16, .retireRowCopy ⟨16, []⟩,
     .retireRowCopy ⟨0, List.replicate 5 .clean⟩, .mirrorValidSet 16 0, .mirrorValidSet 0 16, .mirrorResync 16 0,
     .mirrorResync 0 16, .mirrorPageSend ⟨16, []⟩, .mirrorPageSend ⟨0, List.replicate 65 .clean⟩, .mirrorSync 16 0 0,
     .mirrorSync 0 4096 0, .mirrorSync 0 0 65536, .mirrorSyncComplete 16, .quantumSchedule 256, .quantumOverrun 256,
     .addS 256 0, .subS 256 0, .mulS 256 0, .mulhu 256 0, .andS 256 0, .orS 256 0, .xorS 256 0, .shl 256 0,
     .shr 256 0, .sra 256 0, .minS 256 0, .maxS 256 0, .minu 256 0, .maxu 256 0, .divu 256 0, .remu 256 0, .seq 256 0,
     .slt 256 0, .sltu 256 0, .li 256 0, .lih 256 0, .beq 256 0, .bne 256 0, .blt 256 0, .bge 256 0, .bltu 256 0,
     .bgeu 256 0, .jal 256 0, .jr 256 0, .sld 256 0, .sst 256 0, .slda 256 0, .sstr 256 0, .rdsys 256 0,
     .rdstat 256 0, .ld 256 0, .ldv 256 0, .lda 256 0, .st 256 0, .str 256 0, .atm 256 0, .atma 256 0, .atmr 256 0] : List Instr).all (fun i => !i.wellFormed) = true := by
  decide +kernel

theorem test_illformed_commands_3 :
    ([.inval 256 0, .coll 256 0, .collx 256 0, .dmain 256 0, .dmainv 256 0, .dmaout 256 0, .dmaadd 256 0, .dmacp 256 0,
     .dmaTransferComplete 256 0, .vld 256 0, .vldb 256 0, .vst 256 0, .vadd 256 0, .vsub 256 0, .vmul 256 0,
     .vfma 256 0, .vmin 256 0, .vmax 256 0, .vsel 256 0, .vrcp 256 0, .vrsq 256 0, .vexp2 256 0, .vrsum 256 0,
     .vrmax 256 0, .vcvt 256 0, .vsplat 256 0, .mma 256 ⟨0, 0⟩, .mma 0 ⟨0, 1024⟩, .mzero 256 0, .mout 256 0, .mload 256 0,
     .xli 256 0 0, .xli 0 4 0, .xadd 256 0 0, .xadd 0 4 0, .xbnz 256 0 0, .xbnz 0 4 0, .xloop 256 0 0, .xloop 0 4 0,
     .xjmp 256 0 0, .xjmp 0 4 0, .xstat 256 0 0, .xstat 0 4 0, .xlih 256 0 0, .xlih 0 4 0, .fence 256 0 0,
     .fence 0 4 0, .tsig 256 0 0, .tsig 0 4 0, .twait 256 0 0, .twait 0 4 0, .mswait 256 0 0, .mswait 0 4 0,
     .msadd 256 0 0, .msadd 0 4 0, .step 256 0 0, .step 0 4 0, .endE 256 0 0, .endE 0 4 0, .nop 256 0 0] : List Instr).all (fun i => !i.wellFormed) = true := by
  decide +kernel

theorem test_illformed_commands_4 :
    ([.nop 0 4 0, .contextCreate { ctx := 64 }, .contextScrub { ctx := 64 }, .scrubDrainDone 64,
     .kernelLoad { ctx := 64 }, .kernelStart { ctx := 64 }, .kernelStop { ctx := 64 }, .unloadDone 64 0,
     .unloadDone 0 256, .kernelEnd 64 0, .kernelEnd 0 256, .ringRequest 256 0, .ringRequest 0 64,
     .optimizerBatch 256 0, .optimizerBatch 0 64, .commandPacket 2 0 0 [], .commandPacket 0 0 65536 [],
     .commandComplete 1088 0, .commandComplete 0 65536, .identify { ctx := 64 }, .regRead { ctx := 64 },
     .regWrite { ctx := 64 }, .memRead { ctx := 64 }, .memWrite { ctx := 64 }, .resultRead { ctx := 64 },
     .tagRetire { ctx := 64 }, .inbandCommandPiece { cls := 3 }, .qpStateWrite 256 0, .allowListWrite 32 0 0,
     .allowListWrite 0 4 0, .resetPartial { ctx := 64 }, .fwStage { ctx := 64 }, .fwActivate { ctx := 64 },
     .heartbeatSend 176, .heartbeatReceive 176 {}, .heartbeatReceive 0 { cls := 3 }, .vigilWindowEnd 144,
     .vigilConfirm { ctx := 64 }, .goneDepart 16, .goneClear 416, .powerPolicy { ctx := 64 }, .attest { ctx := 64 },
     .tableHashUpdate 5, .debugSessionStart 3, .almanacWindow { ctx := 64 }, .linkTest { ctx := 64 },
     .linkTestStart 1088 0, .linkTestStart 0 65536, .checkerLock 176 0 false 0 0, .checkerLock 0 8 false 0 0,
     .linkTestEnd 1088 0 [], .linkTestEnd 0 65536 [], .patternPlace 16 0 false, .patternPlace 0 1600 false,
     .patternCheck { cls := 3 } 0, .patternCheck {} 1600, .pchkEnable 16 0, .wiringVerify { ctx := 64 },
     .wiringVerifyStart 1088 0, .wiringVerifyStart 0 65536] : List Instr).all (fun i => !i.wellFormed) = true := by
  decide +kernel

theorem test_illformed_commands_5 :
    ([.beaconReceive 176 {}, .beaconTimeout 176, .connectorInspect { ctx := 64 }, .connectorInspectStart 1088 0 [] [],
     .connectorInspectStart 0 65536 [] [], .ucieModuleTrain 8 false, .request { ctx := 64 } false,
     .syncFence 64 0 0 0 false false, .syncFence 0 65536 0 0 false false, .syncFence 0 0 64 0 false false,
     .syncWait 64 0 0 0 false 0 0 0 false, .syncWait 0 65536 0 0 false 0 0 0 false,
     .syncWait 0 0 64 0 false 0 0 0 false, .syncAdd 64 0 0 0 0 0 false, .syncAdd 0 65536 0 0 0 0 false,
     .syncAdd 0 0 64 0 0 0 false, .collMember 64 0 0 none false [] false, .collMember 0 65536 0 none false [] false,
     .collMember 0 0 64 none false [] false, .collRootArm 64 0 0 none false [] false,
     .collRootArm 0 65536 0 none false [] false, .collRootArm 0 0 64 none false [] false,
     .collAbort 64 0 0 none false [] false, .collAbort 0 65536 0 none false [] false,
     .collAbort 0 0 64 none false [] false, .inbandMessage 16 0 [], .inbandMessage 0 64 [], .registerWrite 4 0 0,
     .hostPortLinkChange 2 false false 0, .wiringVerifyEnd 1088 0, .wiringVerifyEnd 0 65536] : List Instr).all (fun i => !i.wellFormed) = true := by
  decide +kernel

theorem test_wellformed_commands :
    ([.frameMarker 0 {}, .timetableSwap {}, .cellReceive 0 {} false false, .outputSend 0 0, .lightLoss 0,
     .trainingStepTimeout 0 1, .forceDown 0 false, .retire 0 0 0 0, .signpostLoad {}, .tollgateReceive {},
     .requestTransmit 0 0, .retransmit 0 0, .startupQuietEnd 0, .msCountWrite 0 0 0, .tokenWaitDone 0 0,
     .contribReceive { what := {} } 0, .bcastSend 0 0, .instanceDeadline 0, .slotFree 0, .refreshDue 0 0 0 0, .retireGo 0,
     .mirrorPageSend ⟨0, []⟩, .quantumOverrun 0, .mulhu 0 0, .shl 0 0, .maxS 0 0, .remu 0 0, .li 0 0, .blt 0 0, .jal 0 0,
     .slda 0 0, .ld 0 0, .str 0 0, .inval 0 0, .dmainv 0 0, .dmaTransferComplete 0 0, .vadd 0 0, .vmin 0 0, .vrsq 0 0,
     .vcvt 0 0, .mout 0 0, .xbnz 0 0 0, .xlih 0 0 0, .mswait 0 0 0, .nop 0 0 0, .kernelLoad {}, .kernelEnd 0 0,
     .commandComplete 0 0, .memRead {}, .inbandCommandPiece {}, .fwStage {}, .vigilWindowEnd 0, .powerPolicy {},
     .almanacWindow {}, .linkTestEnd 0 0 [], .wiringVerify {}, .connectorInspect {}, .syncFence 0 0 0 0 false false,
     .collRootArm 0 0 0 none false [] false, .hostPortLinkChange 0 false false 0] : List Instr).all (·.wellFormed) = true := by
  decide +kernel

/-! ## Single steps. Each expected value is worked out by hand from the table or rule named. -/

/-- The state after one command. -/
def after (i : Instr) (s : State) : State :=
  match step { s with pending := [i] } with
  | .next t => t
  | _ => s

/-- A format S word: opcode, D, A, B, I, IMM, as *Format S* places them. -/
def wordS (op d a b i imm : Nat) : W64 :=
  BitVec.ofNat 64 (op + d * 2 ^ 8 + a * 2 ^ 13 + b * 2 ^ 18 + i * 2 ^ 23 + imm * 2 ^ 29)

/-- s[d] after a scalar word that finds −7 in s1, 3 in s2 and 9 in s3. -/
def scalar (i : Nat → W64 → Instr) (w : W64) (d : Nat) : W64 := (after (i 53 w) (running w regs5)).sv 53 d

/-- 12, scalar table: arithmetic is modulo 2^64: −7 + 9. -/
theorem test_add_wraps : scalar .addS (wordS 0x00 4 1 0 1 9) 4 = 2 := by decide +kernel

/-- R342: a write to s0 is discarded, and s0 reads as zero. -/
theorem test_add_to_s0 : scalar .addS (wordS 0x00 0 1 2 0 0) 0 = 0 := by decide +kernel

/-- 12, scalar table: 3 − 9 with the destination a source. -/
theorem test_sub_in_place : scalar .subS (wordS 0x01 2 2 3 0 0) 2 = BitVec.ofNat 64 (2 ^ 64 - 6) := by decide +kernel

/-- 12, scalar table: bits [127:64] of (2^64 − 7) × 3 = 2 × 2^64 + (2^64 − 21). -/
theorem test_mulhu : scalar .mulhu (wordS 0x03 4 1 2 0 0) 4 = 2 := by decide +kernel

/-- 12, scalar table: −7 shifted right arithmetically by 1 is −4; only b'[5:0] counts. -/
theorem test_sra : scalar .sra (wordS 0x09 4 1 0 1 65) 4 = BitVec.ofNat 64 (2 ^ 64 - 4) := by decide +kernel

/-- 12, scalar table: all ones when b' = 0. -/
theorem test_divu_by_zero : scalar .divu (wordS 0x0E 4 3 0 0 0) 4 = BitVec.ofNat 64 (2 ^ 64 - 1) := by decide +kernel

/-- 12, scalar table: a when b' = 0. -/
theorem test_remu_by_zero : scalar .remu (wordS 0x0F 4 3 0 0 0) 4 = 9 := by decide +kernel

/-- 12, scalar table: −7 is below 3 signed, and not below it unsigned. -/
theorem test_slt_signed :
    scalar .slt (wordS 0x11 4 1 2 0 0) 4 = 1 ∧ scalar .sltu (wordS 0x12 4 1 2 0 0) 4 = 0 := by decide +kernel

/-- 12, scalar table: (IMM[31:0] << 32) | a[31:0]. -/
theorem test_lih : scalar .lih (wordS 0x14 4 3 0 0 0x12345678) 4 = 0x1234567800000009 := by decide +kernel

/-- 12, scalar table: d = PC + 1, PC = PC + IMM, from word 7. -/
theorem test_jal :
    scalar .jal (wordS 0x1E 4 0 0 0 5) 4 = 8 ∧
    ((after (.jal 53 (wordS 0x1E 4 0 0 0 5)) (running (wordS 0x1E 4 0 0 0 5) regs5)).eng 53 2).pc = 12 := by decide +kernel

/-- 12, scalar table: SLD of two bytes is zero-extended, the lower address in the lower byte. -/
theorem test_sld_bytes :
    (after (.sld 53 (wordS 0x20 4 6 0 0 0 ||| 0x1000000))
      (running (wordS 0x20 4 6 0 0 0 ||| 0x1000000) regs5 [(16384 + 0x40, 0xCD), (16384 + 0x41, 0xAB)])).sv 53 4 = 0xABCD := by
  decide +kernel

/-- R127: clearing COMBINE_EN; the other bits of SW_CTL stand. -/
theorem test_combine_en_clears :
    (after (.combineEn false) {}).fget R.SW_CTL.COMBINE_EN = 0 ∧ (after (.combineEn false) {}).fget R.SW_CTL.DENY_NACK = 1 := by
  decide +kernel

/-- R39: 64 frames within 2 ns enter LOCKED; 63 do not. -/
theorem test_lock_needs_64 :
    (after .lockAchieved (at_ [(R.TB_STATUS.LOCK, LK.ACQUIRE)] { tb := { okRun := 64 } })).lock = LK.LOCKED ∧
    (after .lockAchieved (at_ [(R.TB_STATUS.LOCK, LK.ACQUIRE)] { tb := { okRun := 63 } })).lock = LK.ACQUIRE := by
  decide +kernel

/-- R8: a read through the board-management port of an address that no register has returns zero. -/
theorem test_unassigned_reads_zero : (after (.bmTransaction false 0x10FF8 0) {}).out = [.bmRead 0x10FF8 0] := by decide +kernel

/-- FIPS 202: the SHA3-512 digest of the empty string begins A6 9F 73 CC (R238 names the function). -/
theorem test_sha3_empty : (sha3 []).take 4 = [0xA6, 0x9F, 0x73, 0xCC] := by decide +kernel

/-- The opcode table gives no row bits: no word spells a command. -/
theorem test_no_word_spells : decodeTableWord 16 0x1234 = none := by decide

/-- R83: the 9-bit value 3 after 500 extends to 515, the value nearest 500 that ends in it. -/
theorem test_arrival_extends : extendArrival 500 3 false = 515 ∧ extendArrival (-2) 510 false = -2 := by decide

/-- R520: SQUARE with RUN 2 sends two symbols of the highest level, then two of the lowest. -/
theorem test_square_pattern : (List.range 6).map (patternLevel (.square 2)) = [3, 3, 0, 0, 3, 3] := by decide

/-- R159: a train's cells give the transfer back. -/
theorem test_train_returns :
    trainOf ((trainCells { kind := 3, srcRack := 9, dstRack := 4, tid := 77, lines := 5, budget := 3 } 2 8).map some) =
      some { kind := 3, srcRack := 9, dstRack := 4, tid := 77, lines := 5, budget := 3 } := by decide +kernel


/-! ## Small lemmas of the witnesses -/

theorem fresh_none {s : State} {r : CmdReq} (h : s.findTag r.owner r.tag = none) : Fresh s r := by
  unfold Fresh; rw [h]; nofun

theorem ex_some {α : Type} {o : Option α} {P : α → Prop} [DecidablePred P] (h : (o.any fun x => decide (P x)) = true) :
    ∃ x, o = some x ∧ P x := by
  cases o with
  | none => simp at h
  | some x => exact ⟨x, rfl, by simpa using h⟩

theorem getD_all {l : List Nat} {P : Nat → Prop} (h0 : P 0) (h : ∀ x ∈ l, P x) (k : Nat) : P (l.getD k 0) := by
  rw [List.getD_eq_getElem?_getD]
  cases hk : l[k]? with
  | none => exact h0
  | some x => exact h x (List.mem_of_getElem? hk)

theorem idx_all {l : List Engine} {e : Nat} (h : ((List.range l.length).all fun j => j == e || l[j]?.all (·.stopped)) = true) :
    ∀ (j : Nat) (g : Engine), j ≠ e → l[j]? = some g → g.stopped = true := by
  intro j g hj hg
  obtain ⟨hlt, -⟩ := List.getElem?_eq_some_iff.1 hg
  have := List.all_eq_true.1 h j (List.mem_range.2 hlt)
  simpa [hj, hg] using this

theorem held_one {s : State} {n : Nat} {h : Nat × Nat × List Byte} (hs : s.si.held = [h])
    (hk : (h.1 == n && s.now ≤ h.2.1 + 60000000) = true) : s.heldFor n = some h.2.2 := by
  simp only [State.heldFor, hs, List.find?, hk]; rfl

/-! ## Witnesses of the statements' hypotheses -/

/-- Hypotheses of TimebaseMoves (LockStateMoves). -/
theorem test_meets_LockStateMoves :
    (∃ (s : State), s.regsWf = true ∧ s.lock = LK.ACQUIRE ∧ 64 ≤ s.tb.okRun) ∧
    (∃ (s : State), s.regsWf = true ∧ s.lock = LK.LOCKED ∧ s.isMaster = false ∧ 4 ≤ s.tb.badRun) ∧
    (∃ (s : State), s.regsWf = true ∧ s.lock = LK.LOCKED ∧ s.isMaster = false ∧ 4 ≤ s.tb.silent) ∧
    (∃ (s : State), s.regsWf = true ∧ s.lock = LK.HOLDOVER ∧ s.isMaster = false ∧ 64 ≤ s.tb.holdFor) :=
  ⟨⟨({ at_ [(R.TB_STATUS.LOCK, LK.ACQUIRE)] with tb := { okRun := 64 } } : State), by decide +kernel⟩,
   ⟨({ at_ [(R.TB_STATUS.LOCK, LK.LOCKED)] with tb := { badRun := 4 } } : State), by decide +kernel⟩,
   ⟨({ at_ [(R.TB_STATUS.LOCK, LK.LOCKED)] with tb := { silent := 4 } } : State), by decide +kernel⟩,
   ⟨({ at_ [(R.TB_STATUS.LOCK, LK.HOLDOVER)] with tb := { holdFor := 64 } } : State), by decide +kernel⟩⟩

/-- Hypotheses of TimebaseMoves (MastershipMoves). -/
theorem test_meets_MastershipMoves :
    (∃ (s : State), s.regsWf = true ∧ s.present = true ∧ SS.DISCOVERY ≤ s.sled ∧ s.lock = LK.FREE ∧
      64 ≤ s.tb.discFor ∧ s.hearsLower 64 = false ∧ s.chooseFollow = none) ∧
    (∃ (s : State), s.regsWf = true ∧ s.present = true ∧ s.lock = LK.HOLDOVER ∧ 16 ≤ s.tb.holdFor ∧
      s.hearsLower 4 = false) ∧
    (∃ (s : State), s.regsWf = true ∧ s.now % 4096 = 0 ∧ s.isMaster = false ∧ s.lock = LK.LOCKED ∧
      4096 ≤ s.tb.lockedFor ∧ s.plane < s.fget R.TB_STATUS.MASTER_PLANE) ∧
    (∃ (s : State) (q : Nat) (m : MarkerSt), s.regsWf = true ∧ s.now % 4096 = 0 ∧ q ≠ s.plane ∧
      s.markerOf q = some m ∧ 4096 ≤ m.lockedFor ∧ q < s.fget R.TB_STATUS.MASTER_PLANE) ∧
    (∃ (s : State), s.regsWf = true ∧ s.tb.slipUntil ≤ s.now) :=
  ⟨⟨({ at_ [(R.CP_STATE.STATE, 4)] with tb := { discFor := 64 } } : State), by decide +kernel⟩,
   ⟨({ at_ [(R.CP_STATE.STATE, 6), (R.TB_STATUS.LOCK, LK.HOLDOVER)] with tb := { holdFor := 16 } } : State),
     by decide +kernel⟩,
   ⟨({ at_ [(R.TB_STATUS.LOCK, LK.LOCKED), (R.TB_STATUS.MASTER_PLANE, 3)] with tb := { lockedFor := 4096 } } : State),
     by decide +kernel⟩,
   ⟨({ at_ [(R.TB_STATUS.LOCK, LK.LOCKED), (R.TB_STATUS.MASTER_PLANE, 3), (R.OP_PORT_STATUS.STATE 130, 5)] with tb := { markers := [(130, { lock := LK.LOCKED, lockedFor := 4096, masterPlane := 3 })] } } : State),
     2, ({ lock := LK.LOCKED, lockedFor := 4096, masterPlane := 3 } : MarkerSt), by decide +kernel⟩,
   ⟨({ ({} : State) with tb := { slipUntil := 5, frame := 5 } } : State), by decide +kernel⟩⟩

/-- Hypotheses of MarkersAndTicks (MarkerTaken). -/
theorem test_meets_MarkerTaken :
    (∃ (s : State) (u : State) (port : Nat) (m : Marker) (t2 : Int), u = ((s.noteArrival port m).noteMarker port m).follow ∧
      t2 = (u.port port).arrivalExt ∧ s.regsWf = true ∧ s.trained port = true ∧ m.damaged = false ∧
      s.fget (R.OP_PORT_STATUS.FAR_PROTO port) ≠ 4 ∧ 128 ≤ port ∧ port < 144 ∧ u.isMaster = false ∧
      (u.chooseFollow.any fun q => q.1 == port - 128) = true ∧ u.lock ≠ LK.FREE ∧ (m.t1 - t2) % 2 = 0 ∧
      (m.t1 + t2) % 2 = 0) ∧
    (∃ (s : State) (port : Nat) (far : Nat) (t1 : Int), s.regsWf = true ∧ krising s.tb.realign = true ∧
      krising s.ports = true ∧ port < 176 ∧ kget s.tb.realign port ≠ none ∧ (t1 + far) % 2 = 0) :=
  ⟨⟨(at_ [(R.OP_PORT_STATUS.STATE 130, 5), (R.TB_STATUS.LOCK, LK.LOCKED), (R.TB_STATUS.FOLLOW_PLANE, 2)] : State), _,
    130, ({ lock := LK.LOCKED, masterPlane := 2, t1 := 10, arrival := 4 } : Marker), _, rfl, rfl, by decide +kernel,
    by decide +kernel⟩,
   ⟨({ ({} : State) with tb := { realign := [(3, 7)] } } : State), 3, 4, (10 : Int), by decide +kernel⟩⟩

/-- Hypotheses of MarkersAndTicks (FrameTickCounts). -/
theorem test_meets_FrameTickCounts :
    ∃ (s : State), SS.INIT ≤ s.sled :=
  ⟨({} : State), by decide +kernel⟩

/-- Hypotheses of TablesChange (TableLoads). -/
theorem test_meets_TableLoads :
    (∃ (s : State) (r : CmdReq), Fresh s r ∧ s.regsWf = true ∧ s.bankBusy 0 = false ∧ loadOk 0 r.payload = true) ∧
    (∃ (s : State) (r : CmdReq), Fresh s r ∧ s.regsWf = true ∧ s.bankBusy 1 = false ∧ r.commit = false ∧
      loadOk 1 r.payload = true) ∧
    (∃ (s : State) (r : CmdReq), Fresh s r ∧ s.regsWf = true ∧ s.bankBusy 2 = false ∧ r.commit = false ∧
      loadOk 2 r.payload = true) :=
  ⟨⟨({} : State),
    ({ payload := leBytes 1 4 ++ leBytes 0 4 ++ leBytes 16383 2 ++ leBytes 0 6 ++ leBytes 0xFFFFFFFFFFFFFFFF 8 ++ leBytes 77 8 } : CmdReq),
    fresh_none (by decide +kernel), by decide +kernel⟩,
   ⟨({} : State),
     ({ payload := leBytes 1 4 ++ leBytes 0 4 ++ leBytes 4095 2 ++ leBytes 1 6 ++ leBytes 0x1FFFFFFFFF 8 } : CmdReq),
     fresh_none (by decide +kernel), by decide +kernel⟩,
   ⟨({} : State),
     ({ payload := leBytes 1 4 ++ leBytes 0 4 ++ leBytes 4095 2 ++ leBytes 1 6 ++ leBytes 3 8 ++ leBytes 5 8 ++ leBytes 0xFFFFFFFFFFFFFFFF 8 ++ leBytes 0 32 } : CmdReq),
     fresh_none (by decide +kernel), by decide +kernel⟩⟩

/-- Hypotheses of TablesChange (BankSwapSteps). -/
theorem test_meets_BankSwapSteps :
    (∃ (s : State) (r : CmdReq), Fresh s r ∧ s.drainRefusal true = none ∧ s.bankBusy 0 = false ∧ s.now + 16 ≤ r.arg) ∧
    (∃ (s : State) (bank : Nat) (q : SwapReq), s.regsWf = true ∧ bank < 3 ∧ (s.swapSt bank).checking = some q ∧
      s.checkBank bank q.n = none) ∧
    (∃ (s : State) (bank : Nat) (q : SwapReq) (st : Nat) (pr : Nat), bank < 3 ∧ (s.swapSt bank).checking = some q ∧
      s.checkBank bank q.n = some (st, pr)) ∧
    (∃ (s : State) (bank : Nat) (q : SwapReq), s.regsWf = true ∧ bank < 3 ∧ (s.swapSt bank).armed = some q ∧
      q.n ≤ s.now ∧ (bank = 2 → s.busySlots.any (fun n => s.groupDiffers (s.fget (R.RD_INST0.GROUP n))) = false)) ∧
    (∃ (s : State) (bank : Nat), s.regsWf = true ∧ bank < 3 ∧ s.bankState bank = 2 ∧
      (s.swapSt bank).copyUntil < s.now) :=
  ⟨⟨({} : State), ({ arg := 16 } : CmdReq), fresh_none (by decide +kernel), by decide +kernel⟩,
   ⟨({ ({} : State) with tt := { swap := { checking := some { n := 20 } } } } : State), 0, ({ n := 20 } : SwapReq),
     by decide +kernel⟩,
   ⟨({ at_ [(R.CELL0.VALID 1 0, 1), (R.CELL0.SRC_POS 1 0, 200)] with tt := { swap := { checking := some { n := 20 } } } } : State),
     0, ({ n := 20 } : SwapReq), ST.BAD_PARAM, 0, by decide +kernel⟩,
   ⟨({ at_ [(R.CELL0.VALID 1 0, 1), (R.CELL0.CELLS 1 0, 9), (R.CELL0.SRC_POS 1 0, 200)] with tt := { swap := { armed := some { n := 0, owner := 1, tag := 2 } } }, host := { tags := [{ owner := 1, tag := 2 }] } } : State),
     0, ({ n := 0, owner := 1, tag := 2 } : SwapReq), by decide +kernel⟩,
   ⟨({ at_ [(bankStateFld 0, 2), (R.CELL0.VALID 0 3, 1), (R.CELL0.VALID 1 5, 1)] with tb := { frame := 5 }, tt := { swap := { copyUntil := 4 } } } : State),
     0, by decide +kernel⟩⟩

/-- Hypotheses of CellsEnter (CellsAtPorts). -/
theorem test_meets_CellsAtPorts :
    (∃ (s : State) (p : Nat), s.regsWf = true ∧ s.trained p = true ∧ s.steady p = false) ∧
    (∃ (s : State) (p : Nat), s.regsWf = true ∧ s.trained p = true ∧ s.steady p = true ∧
      s.fget (R.OP_PORT_STATS.DISCARD_FEC p) + 1 < 2 ^ ((R.OP_PORT_STATS.DISCARD_FEC p).hi + 1 - (R.OP_PORT_STATS.DISCARD_FEC p).lo)) ∧
    (∃ (s : State) (p : Nat) (c : Cell), s.regsWf = true ∧ s.trained p = true ∧ s.steady p = true ∧
      c.malformed = true ∧
      s.fget (R.OP_PORT_STATS.DISCARD_FORMAT p) + 1 < 2 ^ ((R.OP_PORT_STATS.DISCARD_FORMAT p).hi + 1 - (R.OP_PORT_STATS.DISCARD_FORMAT p).lo)) ∧
    (∃ (s : State) (p : Nat) (c : Cell), s.regsWf = true ∧ s.trained p = true ∧ c.malformed = false ∧ c.typ ≠ T.IDLE ∧
      c.typ ≠ T.HEARTBEAT ∧ (¬(c.typ = T.STATUS ∧ c.dst = 1023)) ∧ s.portState p = PS.UP ∧ s.steady p = true) :=
  ⟨⟨({ up [5] with tb := { realign := [(5, 7)] } } : State), 5, by decide +kernel⟩,
   ⟨(up [5] : State), 5, by decide +kernel⟩,
   ⟨(up [5] : State), 5, ({ dst := 5 } : Cell), by decide +kernel⟩,
   ⟨(up [5] : State), 5, ({ typ := T.READ, cls := 1 } : Cell), by decide +kernel⟩⟩

/-- Hypotheses of CellsEnter (CellsEnterTheCore). -/
theorem test_meets_CellsEnterTheCore :
    (∃ (s : State) (x : Nat) (p : Nat) (k : Nat) (c : Cell), x < 160 ∧ c.typ ≠ T.IDLE ∧ c.collective = false ∧
      s.boundFor x c = .out p ∧ s.unrouted c = false ∧ s.srcOk x c = true ∧ s.partOk c = true ∧ s.gone c.dst = false ∧
      s.posUp p = true ∧ s.canEnter x k = true ∧ s.takes x c = true ∧ c.cls = clsBE ∧
      (kgetD s.sw.inBe x []).length < 512) ∧
    (∃ (s : State) (x : Nat) (p : Nat) (k : Nat) (c : Cell) (e : CellEntry), x < 160 ∧ c.typ ≠ T.IDLE ∧
      c.collective = false ∧ s.boundFor x c = .out p ∧ s.unrouted c = false ∧ s.srcOk x c = true ∧ s.partOk c = true ∧
      s.gone c.dst = false ∧ s.posUp p = true ∧ s.canEnter x k = true ∧ s.takes x c = true ∧ c.cls = clsG ∧
      s.admitsG = true ∧ s.relayed x (.out p) = false ∧
      ((s.cellEntries (s.activeBank 0)).find? fun e => s.matchEntry x c (.out p) e && decide (0 < kgetD s.tt.credits e.idx 0)) = some e ∧
      (kgetD s.sw.inG x []).length < 384) ∧
    (∃ (s : State) (x : Nat) (p : Nat) (k : Nat) (c : Cell), x < 160 ∧ c.typ ≠ T.IDLE ∧ c.collective = false ∧
      s.boundFor x c = .out p ∧ s.unrouted c = false ∧ s.srcOk x c = true ∧ s.partOk c = true ∧ s.gone c.dst = false ∧
      s.posUp p = true ∧ s.canEnter x k = true ∧ s.takes x c = true ∧ c.cls = clsG ∧ s.admitsG = false ∧
      (kgetD s.sw.inBe x []).length < 512) ∧
    (∃ (s : State) (c : Cell), s.feedNext = some c) ∧
    (∃ (s : State) (c : Cell), s.feedNext ≠ some c) :=
  ⟨⟨(up [5] : State), 3, 5, 1599, ({ typ := T.READ, cls := 1, dst := 5, src := 3 } : Cell), by decide +kernel,
    by decide +kernel, by decide +kernel, by decide +kernel⟩,
   ⟨({ at_ [(R.CELL0.VALID 0 2, 1), (R.CELL0.SRC_POS 0 2, 3), (R.CELL0.DST_POS 0 2, 5), (R.TB_STATUS.LOCK, LK.LOCKED)] (inState SS.SERVICE (up [5])) with tt := { credits := [(2, 1)] } } : State),
     3, 5, 0, ({ typ := T.READ, cls := 0, dst := 5, src := 3 } : Cell),
     ({ idx := 2, src := 3, dst := 5, ctx := 0, kind := 0, cells := 0, group := 0, srcEp := 0, order := 0 } : CellEntry),
     by decide +kernel, by decide +kernel, by decide +kernel, by decide +kernel, by decide +kernel, by decide +kernel,
     by decide +kernel⟩,
   ⟨(up [5] : State), 3, 5, 1599, ({ typ := T.READ, cls := 0, dst := 5, src := 3, age := 3 } : Cell),
     by decide +kernel, by decide +kernel, by decide +kernel, by decide +kernel, by decide +kernel⟩,
   ⟨({ ({} : State) with sw := { feed := [{ typ := T.READ, cls := 1, src := 400 }, { typ := T.STATUS, cls := 2, src := 400 }, { typ := T.STATUS, cls := 2, src := 384 }] } } : State),
     ({ typ := T.STATUS, cls := 2, src := 384 } : Cell), by decide +kernel⟩,
   ⟨({ ({} : State) with sw := { feed := [{ typ := T.READ, cls := 1, src := 400 }, { typ := T.READ, cls := 1, src := 384 }], feedTg := true } } : State),
     ({ typ := T.READ, cls := 1, src := 400 } : Cell), by decide +kernel⟩⟩

/-- Hypotheses of CellsCrossTheCore. -/
theorem test_meets_CellsCrossTheCore :
    (∃ (s : State) (x : Nat) (k : Nat) (q : Queued) (l : List Queued), x < 160 ∧ k < 1600 ∧
      kgetD s.sw.inCtl x [] = [] ∧ kgetD s.sw.inG x [] = q :: l ∧ q.steer = none ∧ (∀ y ∈ l, y.steer = none) ∧
      q.cell.typ ≠ T.BCAST ∧ q.cell.cls = clsG ∧ q.at_ < s.now * 1600 + k ∧ s.midRoom ((x + k) % 160) q = true ∧
      s.posUp q.outPos = true) ∧
    (∃ (s : State) (m : Nat) (k : Nat) (c : MidCell) (l : List MidCell), m < 160 ∧ k < 1600 ∧ (m + k) % 160 < 144 ∧
      kgetD s.sw.midG m [] = c :: l ∧ kgetD s.sw.mcG m [] = [] ∧ c.outPos = (m + k) % 160 ∧ c.at_ ≤ s.now * 1600 + k ∧
      c.cell.cls = clsG ∧ (kgetD s.sw.outG c.outPos []).length < 128) ∧
    (∃ (s : State) (p : Nat) (k : Nat) (i : OutItem) (c : Cell) (l : List OutItem), p < 144 ∧ k < 1600 ∧
      s.carries p = true ∧ s.steady p = true ∧ s.sent p k = false ∧ slotOpen (s.mapWidth p) k = true ∧
      kgetD s.sw.answers p [] = [] ∧ kgetD s.sw.outG p [] = i :: l ∧ i.cells = [c] ∧ c.cls = clsG ∧
      (∀ j ∈ l, j.id ≠ i.id) ∧ (∀ j ∈ kgetD s.sw.outBe p [], j.id ≠ i.id)) ∧
    (∃ (s : State) (h : Nat) (k : Nat) (i : OutItem) (c : Cell) (l : List OutItem), h < 16 ∧ k < 1600 ∧
      s.carries (144 + h) = true ∧ s.sent (144 + h) k = false ∧ slotOpen (s.mapWidth (144 + h)) k = true ∧
      kgetD s.sw.answers (144 + h) [] = [] ∧ kgetD s.sw.outG (144 + h) [] = i :: l ∧ i.cells = [c] ∧ i.entry = false ∧
      c.cls = clsG ∧ (c.typ = T.READ ∨ c.typ = T.WRITE ∨ c.typ = T.ATOMIC) ∧ s.mayLeave h i = true ∧
      (∀ j ∈ l, j.id ≠ i.id)) :=
  ⟨⟨({ up [5] with sw := { inG := [(3, [{ cell := { typ := T.READ, dst := 5 }, outPos := 5 }, { cell := { typ := T.READ, dst := 5, seq := 1 }, outPos := 5 }])] } } : State),
    3, 1599, ({ cell := { typ := T.READ, dst := 5 }, outPos := 5 } : Queued),
    ([{ cell := { typ := T.READ, dst := 5, seq := 1 }, outPos := 5 }] : List Queued), by decide +kernel,
    by decide +kernel⟩,
   ⟨({ up [5] with sw := { midG := [(6, [{ cell := { typ := T.READ, dst := 5 }, outPos := 5 }])] } } : State), 6, 159,
     ({ cell := { typ := T.READ, dst := 5 }, outPos := 5 } : MidCell), ([] : List MidCell), by decide +kernel⟩,
   ⟨({ up [5] with sw := { outG := [(5, [{ id := 3, cells := [{ typ := T.READ, dst := 5 }] }])] } } : State), 5, 1599,
     ({ id := 3, cells := [{ typ := T.READ, dst := 5 }] } : OutItem), ({ typ := T.READ, dst := 5 } : Cell),
     ([] : List OutItem), by decide +kernel, by decide +kernel, by decide +kernel⟩,
   ⟨({ up [5] with sw := { outG := [(147, [{ id := 3, cells := [{ typ := T.READ, dst := 131 }] }])] } } : State), 3,
     1599, ({ id := 3, cells := [{ typ := T.READ, dst := 131 }] } : OutItem), ({ typ := T.READ, dst := 131 } : Cell),
     ([] : List OutItem), by decide +kernel, by decide +kernel, by decide +kernel, by decide +kernel⟩⟩

/-- Hypotheses of CombiningAndAgeing (EntryPerformed). -/
theorem test_meets_EntryPerformed :
    (∃ (s : State) (h : Nat) (n : Nat) (i : OutItem), (kgetD s.sw.handed h []).find? (·.id == n) = some i ∧
      i.entry = false) ∧
    (∃ (s : State) (h : Nat) (n : Nat) (i : OutItem) (c : Cell) (l : List Cell), Memory.wf s.mem = true ∧
      (kgetD s.sw.handed h []).find? (·.id == n) = some i ∧ i.entry = true ∧ i.cells = c :: l ∧
      (∀ d ∈ i.cells, d.typ = T.WRITE) ∧ s.heldAt h c.offset = false ∧ c.offset / 64 * 64 + 64 ≤ s.populated h ∧
      (∀ w, w < 16 → s.winLive h w = false)) :=
  ⟨⟨({ ({} : State) with sw := { handed := [(3, [{ id := 9, cells := [{ typ := T.READ }] }])] } } : State), 3, 9,
    ({ id := 9, cells := [{ typ := T.READ }] } : OutItem), by decide +kernel⟩,
   ⟨({ ({} : State) with sw := { handed := [(3, [{ id := 9, entry := true, cells := [{ typ := T.WRITE, len := 3, offset := 64, payload := 0x1122 }, { typ := T.WRITE, len := 3, offset := 72, src := 7, payload := 0x33 <<< 64 }], dups := [{ typ := T.WRITE, seq := 4 }] }])] } } : State),
     3, 9,
     ({ id := 9, entry := true, cells := [{ typ := T.WRITE, len := 3, offset := 64, payload := 0x1122 }, { typ := T.WRITE, len := 3, offset := 72, src := 7, payload := 0x33 <<< 64 }], dups := [{ typ := T.WRITE, seq := 4 }] } : OutItem),
     ({ typ := T.WRITE, len := 3, offset := 64, payload := 0x1122 } : Cell),
     ([{ typ := T.WRITE, len := 3, offset := 72, src := 7, payload := 0x33 <<< 64 }] : List Cell), by decide +kernel⟩⟩

/-- Hypotheses of CombiningAndAgeing (CombineAndAge). -/
theorem test_meets_CombineAndAge :
    ∃ (s : State), s.regsWf = true :=
  ⟨({ ({} : State) with sw := { outG := [(146, [{ isOpen := true, entry := true, cells := [{ typ := T.WRITE }] }])] } } : State),
    by decide +kernel⟩

/-- Hypotheses of PortsAreControlled (PortsGoDown). -/
theorem test_meets_PortsGoDown :
    (∃ (s : State) (p : Nat), s.regsWf = true ∧ s.isPort p = true ∧ s.portState p ≠ PS.DOWN) ∧
    (∃ (s : State) (p : Nat), s.regsWf = true ∧ s.trained p = true) :=
  ⟨⟨(up [5] : State), 5, by decide +kernel⟩,
   ⟨(up [131] : State), 131, by decide +kernel⟩⟩

/-- Hypotheses of TrainingSteps. -/
theorem test_meets_TrainingSteps :
    (∃ (s : State) (p : Nat), s.regsWf = true ∧ s.lit p = true ∧ s.portState p = PS.DOWN ∧ (s.port p).retryAt = none) ∧
    (∃ (s : State) (p : Nat) (i : TrainInfo), s.regsWf = true ∧ s.isPort p = true ∧ p < 144 ∧
      s.portState p = PS.TRAINING ∧ i.far.proto = 5 ∧ 3 ≤ i.copies ∧
      widthOf ((bitList (i.wlOwn &&& i.far.wlGood &&& 0xFF) 8).filter fun k => !bitAt (s.port p).noLock k).length ≠ 0 ∧
      i.far.fwMajor ≠ s.ownMajor p ∧ (s.port p).fwOver = false ∧ i.far.fwOverride = false) ∧
    (∃ (s : State) (p : Nat) (k : Nat), s.regsWf = true ∧ s.isPort p = true ∧ s.portState p = PS.TRAINING ∧ 1 ≤ k ∧
      k ≤ 5) ∧
    (∃ (s : State) (p : Nat) (k : Nat), s.regsWf = true ∧ s.lit p = true ∧ s.portState p = PS.DOWN ∧
      (s.port p).retryAt = some k ∧ k ≤ s.now) ∧
    (∃ (s : State) (p : Nat) (k : Nat), s.regsWf = true ∧ s.isPort p = true ∧ s.portState p = PS.TRAINING ∧ k < 8) :=
  ⟨⟨(inState SS.DISCOVERY : State), 5, by decide +kernel⟩,
   ⟨(at_ [(R.OP_PORT_STATUS.STATE 5, PS.TRAINING)] (inState SS.DISCOVERY) : State), 5,
     ({ far := { fwMajor := 9 } } : TrainInfo), by decide +kernel⟩,
   ⟨(at_ [(R.OP_PORT_STATUS.STATE 5, PS.TRAINING)] (inState SS.DISCOVERY) : State), 5, 5, by decide +kernel⟩,
   ⟨({ inState SS.DISCOVERY with ports := [(5, { retryAt := some 0 })] } : State), 5, 0, by decide +kernel⟩,
   ⟨(at_ [(R.OP_PORT_STATUS.STATE 5, PS.TRAINING)] (inState SS.DISCOVERY) : State), 5, 7, by decide +kernel⟩⟩

/-- Hypotheses of PortsAreControlled (PortControl). -/
theorem test_meets_PortControl :
    (∃ (s : State) (p : Nat), s.regsWf = true ∧ s.isPort p = true ∧ (p < 144 ∨ 160 ≤ p ∨ s.planned p = true)) ∧
    (∃ (s : State) (p : Nat), s.regsWf = true ∧ s.isPort p = true ∧ 144 ≤ p ∧ p < 160 ∧ s.planned p = false) ∧
    (∃ (s : State) (p : Nat), s.regsWf = true ∧ s.isPort p = true) ∧
    (∃ (s : State) (p : Nat), s.regsWf = true ∧ s.isPort p = true ∧ s.lit p = true) :=
  ⟨⟨({} : State), 9, by decide +kernel⟩,
   ⟨({} : State), 159, by decide +kernel⟩,
   ⟨({} : State), 5, by decide +kernel⟩,
   ⟨(up [5] (inState SS.DISCOVERY) : State), 5, by decide +kernel⟩⟩

/-- Hypotheses of WavelengthsAreWatched (BerIntervals). -/
theorem test_meets_BerIntervals :
    (∃ (s : State) (p : Nat), s.regsWf = true ∧ s.trained p = true ∧ s.decides p = false ∧ s.now % 1000000 = 0) ∧
    (∃ (s : State) (p : Nat) (es : List Nat), (∀ k, es.getD k 0 < berLimit) ∧ s.regsWf = true ∧ s.trained p = true ∧
      s.decides p = false) :=
  ⟨⟨(up [129] { ({} : State) with boot := { latched := { slotId := 5 } } } : State), 129, by decide +kernel⟩,
   ⟨(up [129] { ({} : State) with boot := { latched := { slotId := 5 } } } : State), 129, ([5] : List Nat),
     fun k => getD_all (P := (· < berLimit)) (by decide +kernel) (by decide +kernel) k, by decide +kernel⟩⟩

/-- Hypotheses of WavelengthsAreWatched (WavelengthsLeave). -/
theorem test_meets_WavelengthsLeave :
    (∃ (s : State) (p : Nat) (k : Nat), s.regsWf = true ∧ s.trained p = true ∧ k < 8 ∧
      bitAt (s.fget (R.OP_PORT_STATUS.WL_WORKING p)) k = true ∧ (∀ c ∈ s.tt.changes, ¬(c.pos = chgPos p ∧
      c.wl = k))) ∧
    (∃ (s : State) (p : Nat) (c : WidthChange), s.regsWf = true ∧ p < 144 ∧
      s.tt.changes.filter (fun c => c.pos == p && decide (c.n ≤ s.now)) = [c] ∧ c.wl < 8 ∧ s.portState p ≠ PS.DOWN) :=
  ⟨⟨(up [5] : State), 5, 7, by decide +kernel⟩,
   ⟨({ up [5] with tt := { changes := [{ pos := 5, wl := 7, width := 7 }] } } : State), 5,
     ({ pos := 5, wl := 7, width := 7 } : WidthChange), by decide +kernel⟩⟩

/-- Hypotheses of PlanIsFollowed (PlanCommands). -/
theorem test_meets_PlanCommands :
    (∃ (s : State) (r : CmdReq), Fresh s r ∧ s.regsWf = true ∧ s.planOk r.payload = true) ∧
    (∃ (s : State) (r : CmdReq), Fresh s r ∧ s.regsWf = true ∧ r.arg = s.fget R.SG_STATUS.DIFF_GEN ∧
      (∀ p ∈ s.planPorts, s.differs p = true → s.outcome p ≠ OC.DUP ∧ s.outcome p ≠ OC.NOT_TRAINED)) ∧
    (∃ (s : State) (p : Nat), s.regsWf = true ∧ p < 160 ∧ s.isPort p = true ∧ s.sled = SS.DISCOVERY ∧
      150000 ≤ s.tb.discFor ∧ s.portState p = PS.DOWN) ∧
    (∃ (s : State), s.regsWf = true ∧ s.sg.substDue = true) :=
  ⟨⟨({} : State), ({ payload := planBytes ({} : State).rack } : CmdReq), fresh_none (by decide +kernel),
    by decide +kernel⟩,
   ⟨(at_ [(R.SG_FOUND.OUTCOME 150, OC.EXTRA), (R.SG_STATUS.DIFF_GEN, 7)] matched : State), ({ arg := 7 } : CmdReq),
     fresh_none (by decide +kernel), by decide +kernel⟩,
   ⟨({ inState SS.DISCOVERY with tb := { discFor := 150000 } } : State), 3, by decide +kernel⟩,
   ⟨({ up [130] with sg := { substDue := true } } : State), by decide +kernel⟩⟩

/-- Hypotheses of PlanIsFollowed (PlanStateMoves). -/
theorem test_meets_PlanStateMoves :
    (∃ (s : State), s.regsWf = true ∧ s.fbit R.SG_STATUS.DUP_PLANE = false ∧ s.sled = SS.DISCOVERY ∧
      s.allSettled = true ∧ 64 ≤ s.tb.discFor) ∧
    (∃ (s : State), s.regsWf = true ∧ s.fbit R.SG_STATUS.DUP_PLANE = false ∧ s.sled = SS.PLAN_CHECK ∧
      s.planMet = true) ∧
    (∃ (s : State), s.regsWf = true ∧ s.fbit R.SG_STATUS.DUP_PLANE = false ∧ s.sled = SS.PLAN_CHECK ∧
      s.planMet = false ∧ s.allAccepted = true) ∧
    (∃ (s : State), s.regsWf = true ∧ s.fbit R.SG_STATUS.DUP_PLANE = false ∧ s.sled = SS.SERVICE ∧
      s.sg.newDiff = true) ∧
    (∃ (s : State), s.regsWf = true ∧ s.fbit R.SG_STATUS.DUP_PLANE = false ∧ s.sled = SS.DEGRADED ∧ s.planMet = true) :=
  ⟨⟨({ inState SS.DISCOVERY with tb := { discFor := 64 }, ports := (List.range 160).map fun p => (p, { settled := true }) } : State),
    by decide +kernel⟩,
   ⟨(inState SS.PLAN_CHECK matched : State), by decide +kernel⟩,
   ⟨({ at_ [(R.SG_FOUND.OUTCOME 150, OC.EXTRA)] (inState SS.PLAN_CHECK matched) with sg := { accepted := [150] } } : State),
     by decide +kernel⟩,
   ⟨({ inState SS.SERVICE matched with sg := { newDiff := true } } : State), by decide +kernel⟩,
   ⟨(inState SS.DEGRADED matched : State), by decide +kernel⟩⟩

/-- Hypotheses of TollgateGathers. -/
theorem test_meets_TollgateGathers :
    (∃ (s : State) (c : Cell), c.dst = s.tgId ∧ s.unitInReset 3 0 = false ∧
      (c.typ = T.READ ∨ c.typ = T.WRITE ∨ c.typ = T.ATOMIC) ∧
      bitAt (s.reg (R.FAR_WINDOW.addr (s.activeBank 1) (c.offset / 2 ^ 32 % 4096))).toNat 36 = false) ∧
    (∃ (s : State) (c : Cell) (v : Nat), v = (s.reg (R.FAR_WINDOW.addr (s.activeBank 1) (c.offset / 2 ^ 32 % 4096))).toNat ∧
      c.dst = s.tgId ∧ s.unitInReset 3 0 = false ∧ (c.typ = T.READ ∨ c.typ = T.WRITE ∨ c.typ = T.ATOMIC) ∧
      bitAt v 36 = true ∧ s.eccBad 1 (R.FAR_WINDOW.addr (s.activeBank 1) (c.offset / 2 ^ 32 % 4096)) = false ∧
      s.partOf c.src = bitsOf v 35 32 ∧ c.retx = false ∧ isSingle c (bitsOf v 9 8) = false ∧ s.tg.batches = []) ∧
    (∃ (s : State) (b : Batch) (w : List Nat), w = (if b.kind = 4 then s.earlier b else []) ∧ s.tg.batches = [b] ∧
      (b.closing = true ∨ b.openedAt + b.gather ≤ s.now) ∧ s.mayForm = true) ∧
    (∃ (s : State) (o : Origin), s.tg.origins.find? (·.tid == o.tid) = some o ∧ o.released = false ∧
      (∀ w ∈ o.waitsFor, ∀ x ∈ s.tg.origins, x.tid ≠ w)) :=
  ⟨⟨({} : State), ({ dst := 400, typ := T.READ } : Cell), by decide +kernel⟩,
   ⟨(at_ [(R.FAR_WINDOW.VALID 0 3, 1), (R.FAR_WINDOW.RACK 0 3, 9), (R.FAR_WINDOW.EP_ID 0 3, 5)] : State),
     ({ dst := 400, typ := T.READ, offset := 3 * 2 ^ 32 + 0x2040, len := 6 } : Cell), _, rfl, by decide +kernel⟩,
   ⟨({ ({} : State) with tb := { frame := 7 }, tg := { batches := [{ id := 4, kind := 3, rack := 9, openedAt := 5, lines := 6, originals := [{ typ := T.READ }] }], nextTid := 4294967295 } } : State),
     ({ id := 4, kind := 3, rack := 9, openedAt := 5, lines := 6, originals := [{ typ := T.READ }] } : Batch), _, rfl,
     by decide +kernel⟩,
   ⟨({ ({} : State) with tg := { origins := [{ tid := 3, waitsFor := [1, 2], released := false }] } } : State),
     ({ tid := 3, waitsFor := [1, 2], released := false } : Origin), by decide +kernel⟩⟩

/-- Hypotheses of TransfersRun (TransfersTravel). -/
theorem test_meets_TransfersTravel :
    (∃ (s : State) (u : Nat) (h : HeldTransfer) (l : List HeldTransfer), u < 16 ∧ s.usable u = true ∧
      s.steady (144 + u) = true ∧ s.sending u = false ∧ s.tg.held = h :: l ∧ h.blocked = false ∧ h.t.age < 1024 ∧
      s.productive s.rack h.t.dstRack (s.roleOf u) = true ∧
      (∀ v, v < u → (s.usable v && s.productive s.rack h.t.dstRack (s.roleOf v)) = false) ∧
      (∀ x ∈ l, x.key ≠ h.key)) ∧
    (∃ (c : Option Cell) (cs : List (Option Cell)), trainOf (c :: cs) = none) ∧
    (∃ (s : State) (u : Nat) (c : Option Cell) (cs : List (Option Cell)) (x : Transfer), trainOf (c :: cs) = some x ∧
      u < 16 ∧ s.usable u = true ∧ s.steady (144 + u) = true ∧ s.unitInReset 3 0 = false ∧ x.hops + 1 ≤ x.budget ∧
      x.age + 1 < 1024 ∧ s.buffersUsed < 512 ∧ x.dstRack ≠ s.rack) ∧
    (∃ (s : State) (u : Nat) (c : Option Cell) (cs : List (Option Cell)) (x : Transfer), trainOf (c :: cs) = some x ∧
      s.regsWf = true ∧ u < 16 ∧ s.usable u = true ∧ s.steady (144 + u) = true ∧ s.unitInReset 3 0 = false ∧
      x.budget < x.hops + 1) ∧
    (∃ (s : State) (u : Nat) (c : Option Cell) (cs : List (Option Cell)) (x : Transfer), trainOf (c :: cs) = some x ∧
      u < 16 ∧ s.usable u = true ∧ s.steady (144 + u) = true ∧ s.unitInReset 3 0 = false ∧ x.hops + 1 ≤ x.budget ∧
      x.age + 1 < 1024 ∧ s.buffersUsed < 512 ∧ x.dstRack = s.rack ∧ x.kind < 5 ∧
      (∀ r ∈ s.tg.records, ¬(r.srcRack = x.srcRack ∧ r.tid = x.tid)) ∧ (∀ j ∈ s.tg.jobs, ¬(j.t.srcRack = x.srcRack ∧
      j.t.tid = x.tid)) ∧ s.tg.records.length + s.tg.jobs.length < 16384) ∧
    (∃ (s : State) (k : Nat) (j : FarJob), (s.tg.jobs.find? fun j => j.key == k && j.waiting.isEmpty) = some j ∧
      s.tg.records.length < 16384) :=
  ⟨⟨({ up [146] with sg := { topology := 1, dims := 2 }, tg := { held := [{ key := 5, t := { dstRack := ({} : State).rack ^^^ 2, age := 1023 } }, { key := 6 }] } } : State),
    2, ({ key := 5, t := { dstRack := ({} : State).rack ^^^ 2, age := 1023 } } : HeldTransfer),
    ([{ key := 6 }] : List HeldTransfer), by decide +kernel⟩,
   ⟨(none : Option Cell), ([] : List (Option Cell)), by decide +kernel⟩,
   ⟨(up [146] : State), 2,
     ((trainCells ({ dstRack := ({} : State).rack + 1, budget := 1, age := 1022 } : Transfer) 5 9).head? : Option Cell),
     (((trainCells ({ dstRack := ({} : State).rack + 1, budget := 1, age := 1022 } : Transfer) 5 9).map some).tail : List (Option Cell)),
     ({ dstRack := ({} : State).rack + 1, budget := 1, age := 1022 } : Transfer), by decide +kernel⟩,
   ⟨(up [146] : State), 2,
     ((trainCells ({ dstRack := ({} : State).rack + 1, budget := 1, hops := 1 } : Transfer) 5 9).head? : Option Cell),
     (((trainCells ({ dstRack := ({} : State).rack + 1, budget := 1, hops := 1 } : Transfer) 5 9).map some).tail : List (Option Cell)),
     ({ dstRack := ({} : State).rack + 1, budget := 1, hops := 1 } : Transfer), by decide +kernel⟩,
   ⟨(up [146] : State), 2,
     ((trainCells ({ kind := 1, dstRack := ({} : State).rack, budget := 1, farId := 5, lines := 2, data := [(1, 77)] } : Transfer) 5 9).head? : Option Cell),
     (((trainCells ({ kind := 1, dstRack := ({} : State).rack, budget := 1, farId := 5, lines := 2, data := [(1, 77)] } : Transfer) 5 9).map some).tail : List (Option Cell)),
     ({ kind := 1, dstRack := ({} : State).rack, budget := 1, farId := 5, lines := 2, data := [(1, 77)] } : Transfer),
     by decide +kernel, by decide +kernel, by decide +kernel, by decide +kernel⟩,
   ⟨({ ({} : State) with tg := { jobs := [{ key := 8, t := { kind := 3, tid := 6 } }, { key := 9, t := { kind := 3, tid := 7 }, status := 4 }] } } : State),
     9, ({ key := 9, t := { kind := 3, tid := 7 }, status := 4 } : FarJob), by decide +kernel⟩⟩

/-- Hypotheses of TransfersRun (TransferMarks). -/
theorem test_meets_TransferMarks :
    (∃ (s : State) (k : Nat) (h : HeldTransfer), (s.tg.held.find? fun h => h.key == k && decide (1024 ≤ h.t.age)) = some h) ∧
    (∃ (s : State) (o : Origin) (f : Nat), s.tg.origins.find? (·.tid == o.tid) = some o ∧ o.firstSent = some f ∧
      1 ≤ o.sends ∧ o.sends ≤ 3 ∧ f + 256 * o.sends ≤ s.now ∧ s.now < f + 1024 ∧
      (∀ h ∈ s.tg.held, ¬(h.t.srcRack = s.rack ∧ h.t.kind ≤ 4 ∧ h.t.tid = o.tid))) ∧
    (∃ (s : State) (o : Origin) (f : Nat), s.tg.origins.find? (·.tid == o.tid) = some o ∧ o.firstSent = some f ∧
      f + 1024 ≤ s.now) ∧
    (∃ (s : State) (x : Transfer) (o : Origin), (s.tg.origins.find? fun o => o.tid == x.tid && o.t.dstRack == x.srcRack) = some o ∧
      5 ≤ x.kind ∧ x.kind ≤ 7 ∧ x.dstRack = s.rack) :=
  ⟨⟨({ ({} : State) with tg := { held := [{ key := 3, t := { age := 1024, kind := 3 } }, { key := 4, t := { age := 1024, kind := 3 } }] } } : State),
    4, ({ key := 4, t := { age := 1024, kind := 3 } } : HeldTransfer), by decide +kernel⟩,
   ⟨({ ({} : State) with tb := { frame := 768 }, tg := { origins := [{ tid := 3, firstSent := some 0, sends := 3 }] } } : State),
     ({ tid := 3, firstSent := some 0, sends := 3 } : Origin), 0, by decide +kernel⟩,
   ⟨({ ({} : State) with tb := { frame := 1024 }, tg := { origins := [{ tid := 3, firstSent := some 0, sends := 4, originals := [{ src := 5 }] }] } } : State),
     ({ tid := 3, firstSent := some 0, sends := 4, originals := [{ src := 5 }] } : Origin), 0, by decide +kernel⟩,
   ⟨({ ({} : State) with tg := { origins := [{ tid := 3, t := { dstRack := 9 }, originals := [{ src := 5, typ := T.WRITE }] }] } } : State),
     ({ kind := 6, tid := 3, srcRack := 9, dstRack := ({} : State).rack } : Transfer),
     ({ tid := 3, t := { dstRack := 9 }, originals := [{ src := 5, typ := T.WRITE }] } : Origin), by decide +kernel⟩⟩

/-- Hypotheses of RequestsAndReleases (RequestsIssued). -/
theorem test_meets_RequestsIssued :
    (∃ (s : State) (e : Nat) (r : MemReq), s.observerHeld e r.observer r.ctx = true) ∧
    (∃ (s : State) (e : Nat) (r : MemReq) (x : Xlat), e < 18 ∧ r.op = 1 ∧ r.ms = none ∧ s.chip.selfAns = [] ∧
      s.observerHeld e r.observer r.ctx = false ∧ (∀ w ∈ s.transEntries e, s.badEntry e w = false) ∧
      s.check e r = (ST.OK, some x) ∧ x.ga / 2 ^ 44 % 1024 ≠ s.epId e ∧ s.now < (s.ep e).quietUntil) ∧
    (∃ (s : State) (r : MemReq), r.op ≤ 1 ∧ r.ms = none ∧ s.chip.selfAns = [] ∧
      s.observerHeld 17 r.observer r.ctx = false ∧ (∀ w ∈ s.transEntries 17, s.badEntry 17 w = false) ∧
      s.lookup 17 r.ctx r.addr = none) ∧
    (∃ (s : State) (e : Nat) (key : Nat) (o : Outst), e < 18 ∧ (s.ep e).ort.find? (·.key == key) = some o ∧
      o.sent = none ∧ o.held = false ∧ (s.ep e).quietUntil ≤ s.now ∧ o.cell.collective = false ∧
      s.planeUsable e o.plane = true ∧ ortUsed (s.ep e) < ortCap e ∧
      seqFits (s.ep e) o.cell.dst (seqPlaneFor o.cell.dst o.plane) = true ∧ o.cell.cls = clsBE) :=
  ⟨⟨({ ({} : State) with eps := [(3, { fences := [{ id := 3, covers := [5], observer := 2, ctx := 5, tag := 5 }] })] } : State),
    3, ({ op := 1, ctx := 5, observer := 2 } : MemReq), by decide +kernel⟩,
   ⟨(at_ [(R.TRANS0.VALID 3 0, 1), (R.TRANS0.CONTEXT 3 0, 5), (R.TRANS0.SIZE_LOG2 3 0, 20), (R.TRANS0.READ 3 0, 1), (R.TRANS1.VA_BASE 3 0, 0x100), (R.TRANS2.GA_BASE 3 0, 7 * 2 ^ 32)] : State),
     3, ({ op := 1, ctx := 5, addr := 0x100100, len := 256, tag := 4 } : MemReq),
     ({ ga := 7 * 2 ^ 44 + 0x100, read := true, write := false, atomic := false, cache := false, window := 0, limit := 0x200000 } : Xlat),
     by decide +kernel⟩,
   ⟨({} : State), ({ op := 1, ctx := 5, addr := 0x100100, len := 8, observer := 2, tag := 7 } : MemReq),
     by decide +kernel⟩,
   ⟨({ up [163] with eps := [(17, { quietUntil := 0, seqs := [(5 * 16 + 3, 65535)], ort := [{ key := 4, cell := { cls := clsBE, typ := T.READ, dst := 5 }, plane := 3 }] })] } : State),
     17, 4, ({ key := 4, cell := { cls := clsBE, typ := T.READ, dst := 5 }, plane := 3 } : Outst), by decide +kernel⟩⟩

/-- Hypotheses of RequestsAndReleases (ReleasesGo). -/
theorem test_meets_ReleasesGo :
    (∃ (s : State) (e : Nat) (req : Nat) (q : Request), s.chip.selfAns = [] ∧
      (s.ep e).reqs.find? (·.id == req) = some q ∧ q.covered ≠ [] ∧ s.allDone e q.covered = true ∧ e < 18 ∧
      q.lostCov = false ∧ q.direct = false ∧ s.now < (s.ep e).quietUntil) ∧
    (∃ (s : State) (e : Nat) (req : Nat) (q : Request) (rq : Nat) (tag : Nat), s.chip.selfAns = [] ∧
      (s.ep e).reqs.find? (·.id == req) = some q ∧ q.covered ≠ [] ∧ s.allDone e q.covered = true ∧ e = 17 ∧
      q.lostCov = true ∧ q.isRelease = true ∧ q.isAcquire = false ∧ q.r.ms = none ∧ q.dest = .complete rq tag) :=
  ⟨⟨({ ({} : State) with eps := [(3, { reqs := [{ id := 4, covered := [2] }], ort := [{ key := 1, req := 4, held := true }, { key := 2, req := 5, held := true }] })] } : State),
    3, 4, ({ id := 4, covered := [2] } : Request), by decide +kernel⟩,
   ⟨({ ({} : State) with eps := [(17, { reqs := [{ id := 4, covered := [2], lostCov := true, isRelease := true, dest := .complete 3 9 }], ort := [{ key := 1, req := 4, held := true }] })] } : State),
     17, 4, ({ id := 4, covered := [2], lostCov := true, isRelease := true, dest := .complete 3 9 } : Request), 3, 9,
     by decide +kernel⟩⟩

/-- Hypotheses of TargetPerforms. -/
theorem test_meets_TargetPerforms :
    (∃ (s : State) (h : Nat) (plane : Nat) (c : Cell), h < 16 ∧ c.dst = s.epId h ∧ s.targetDown h = false ∧
      c.typ = T.WRITE ∧ winNew (kget (s.ep h).wins (c.src * 16 + s.seqPlaneAt h (plane % 16))) c.seq = false ∧
      s.inProgress h (plane % 16) c = false) ∧
    (∃ (s : State) (h : Nat) (plane : Nat) (c : Cell), h < 16 ∧ c.dst = s.epId h ∧ s.targetDown h = false ∧
      c.typ = T.READ ∧ c.cls = clsBE ∧
      winNew (kget (s.ep h).wins (c.src * 16 + s.seqPlaneAt h (plane % 16))) c.seq = true ∧ c.allowed = true ∧
      c.offset + c.bytes ≤ s.populated h ∧ s.heldAt h c.offset = false ∧ s.poisoned h c.offset = false) ∧
    (∃ (s : State) (c : Cell), c.typ = T.COMMAND ∧ c.dst = s.epId 16 ∧ s.targetDown 16 = false ∧
      winNew (kget (s.ep 16).wins (c.src * 16 + s.plane)) c.seq = true ∧ s.inbandFull c = true) ∧
    (∃ (s : State) (c : Cell), c.typ = T.COMMAND ∧ c.dst = s.epId 16 ∧ s.targetDown 16 = false ∧
      winNew (kget (s.ep 16).wins (c.src * 16 + s.plane)) c.seq = true ∧ s.host.inband.length < 64 ∧
      field (lineBytes c.payload) 0 1 = 1 ∧ field (lineBytes c.payload) 1 1 = 0 ∧
      2 ≤ field (lineBytes c.payload) 6 2 ∧ field (lineBytes c.payload) 6 2 ≤ 19 ∧
      field (lineBytes c.payload) 4 2 < field (lineBytes c.payload) 6 2 ∧ (∀ p ∈ s.host.inband, ¬(p.owner = c.src ∧
      p.tag = field (lineBytes c.payload) 2 2))) :=
  ⟨⟨({ ({} : State) with eps := [(3, { wins := [(5 * 16, { high := 5, seen := 1 })] })] } : State), 3, 0,
    ({ typ := T.WRITE, dst := 131, src := 5, seq := 5 } : Cell), by decide +kernel⟩,
   ⟨({ ({} : State) with mem := [(3 * 2 ^ 44 + 0x1008, 7)] } : State), 3, 0,
     ({ typ := T.READ, cls := clsBE, dst := 131, src := 5, seq := 5, offset := 0x1008, len := 3 } : Cell),
     by decide +kernel⟩,
   ⟨({ ({} : State) with host := { inband := List.replicate 64 { owner := 9 } } } : State),
     ({ typ := T.COMMAND, dst := 384, src := 5 } : Cell), by decide +kernel⟩,
   ⟨({} : State), ({ typ := T.COMMAND, dst := 384, src := 5, payload := 1 + 7 * 2 ^ 16 + 3 * 2 ^ 48 } : Cell),
     by decide +kernel, by decide +kernel⟩⟩

/-- Hypotheses of AnswersAndLosses. -/
theorem test_meets_AnswersAndLosses :
    (∃ (s : State) (e : Nat) (plane : Nat) (c : Cell) (o : Outst) (q : Request) (rq : Nat) (tag : Nat), e < 18 ∧
      (s.ep e).members = [] ∧ (s.ep e).roots = [] ∧ e ≠ 16 ∧ c.typ = T.ACK ∧ c.opmod ≠ 1 ∧
      ((s.ep e).ort.find? fun o => o.sent.isSome && o.cell.dst == c.src && o.cell.seq == c.seq && o.seqPlane == seqPlaneFor c.src plane) = some o ∧
      (s.ep e).reqs.find? (·.id == o.req) = some q ∧ q.cells = q.answered + 1 ∧ q.status = ST.OK ∧
      q.cacheable = false ∧ q.isRelease = false ∧ q.isAcquire = false ∧ q.r.ms = none ∧ q.r.op = 3 ∧
      q.dest = .complete rq tag) ∧
    (∃ (s : State) (e : Nat) (c : Cell), e < 18 ∧ (s.ep e).members = [] ∧ (s.ep e).roots = [] ∧ s.regsWf = true ∧
      e ≠ 16 ∧ c.typ = T.ACK ∧ c.opmod ≠ 1 ∧ (s.ep e).ort = [] ∧
      s.fget (R.EP_STATS.DUP e) + 1 < 2 ^ ((R.EP_STATS.DUP e).hi + 1 - (R.EP_STATS.DUP e).lo)) ∧
    (∃ (s : State) (e : Nat) (key : Nat) (o : Outst) (f : Nat), e < 18 ∧ (s.ep e).members = [] ∧ (s.ep e).roots = [] ∧
      (s.ep e).ort.find? (·.key == key) = some o ∧ o.cell.cls = clsBE ∧ o.interRack = false ∧
      o.cell.collective = false ∧ o.sent = some f ∧ f + 64 ≤ s.now ∧ s.now < f + 128 ∧ o.lastSent < f + 64 ∧
      s.planeUsable e o.plane = true) ∧
    (∃ (s : State) (e : Nat) (key : Nat) (o : Outst) (f : Nat) (q : Request) (rq : Nat) (tag : Nat), e < 18 ∧
      (s.ep e).members = [] ∧ (s.ep e).roots = [] ∧ (s.ep e).ort.find? (·.key == key) = some o ∧ o.sent = some f ∧
      f + finalMark o ≤ s.now ∧ (s.ep e).reqs.find? (·.id == o.req) = some q ∧ q.cells = q.answered + 1 ∧
      q.isRelease = false ∧ q.isAcquire = false ∧ q.r.ms = none ∧ q.dest = .complete rq tag ∧
      (q.r.op ≤ 2 → q.status ≠ ST.POISON)) :=
  ⟨⟨({ ({} : State) with eps := [(17, { reqs := [{ id := 4, r := { op := 3 }, cells := 1, dest := .complete 3 9 }], ort := [{ key := 1, req := 4, sent := some 0, cell := { dst := 5, seq := 6 }, seqPlane := 2 }] })] } : State),
    17, 2, ({ typ := T.ACK, src := 5, seq := 6 } : Cell),
    ({ key := 1, req := 4, sent := some 0, cell := { dst := 5, seq := 6 }, seqPlane := 2 } : Outst),
    ({ id := 4, r := { op := 3 }, cells := 1, dest := .complete 3 9 } : Request), 3, 9, by decide +kernel,
    by decide +kernel, by decide +kernel, by decide +kernel, by decide +kernel, by decide +kernel, by decide +kernel⟩,
   ⟨({} : State), 3, ({ typ := T.ACK, src := 5, seq := 6 } : Cell), by decide +kernel⟩,
   ⟨({ ({} : State) with tb := { frame := 70 }, eps := [(3, { ort := [{ key := 1, cell := { cls := clsBE, dst := 5 }, sent := some 4, lastSent := 4 }] })] } : State),
     3, 1, ({ key := 1, cell := { cls := clsBE, dst := 5 }, sent := some 4, lastSent := 4 } : Outst), 4,
     by decide +kernel, by decide +kernel, by decide +kernel⟩,
   ⟨({ ({} : State) with tb := { frame := 256 }, eps := [(3, { reqs := [{ id := 4, cells := 1, dest := .complete 3 9 }], ort := [{ key := 1, req := 4, cell := { cls := clsBE, dst := 5 }, sent := some 0 }] })] } : State),
     3, 1, ({ key := 1, req := 4, cell := { cls := clsBE, dst := 5 }, sent := some 0 } : Outst), 0,
     ({ id := 4, cells := 1, dest := .complete 3 9 } : Request), 3, 9, by decide +kernel, by decide +kernel,
     by decide +kernel, by decide +kernel⟩⟩

/-- Hypotheses of EndpointWaits (EndpointRecords). -/
theorem test_meets_EndpointRecords :
    (∃ (s : State) (e : Nat) (key : Nat) (w : SeqWin), e < 18 ∧ krising (s.ep e).wins = true ∧
      kget (s.ep e).wins key = some w ∧ w.last + 1024 ≤ s.now) ∧
    (∃ (s : State) (e : Nat), e < 18 ∧ (s.ep e).quietUntil ≤ s.now) ∧
    (∃ (s : State) (e : Nat) (plane : Nat) (c : Cell) (i : Nat) (v : W64), e < 18 ∧ s.regsWf = true ∧
      c.typ = T.STATUS ∧ field (lineBytes c.payload) 0 1 = 0x10 ∧
      s.regsIn (epBase e + 0x1000) (epBase e + 0x1000 + 2048) = [(epBase e + 0x1000 + 8 * i, v)] ∧ i < 256 ∧
      bitAt v.toNat 0 = true ∧ bitsOf v.toNat 4 1 = plane ∧
      bitsOf v.toNat 12 7 = field (lineBytes c.payload) 3 1 % 64 ∧ bitsOf v.toNat 6 5 = 0 ∧
      field (lineBytes c.payload) 1 1 = 0 ∧
      posOn plane (bitsOf v.toNat 24 13 % 1024) = field (lineBytes c.payload) 2 1) ∧
    (∃ (s : State) (e : Nat) (i : Nat), e < 18 ∧ s.regsWf = true ∧ i < 256) ∧
    (∃ (s : State) (e : Nat), e < 18 ∧ s.regsWf = true) :=
  ⟨⟨({ ({} : State) with tb := { frame := 1030 }, eps := [(3, { wins := [(7, { last := 6 }), (9, { last := 7 })] })] } : State),
    3, 7, ({ last := 6 } : SeqWin), by decide +kernel⟩,
   ⟨({ ({} : State) with tb := { frame := 1024 } } : State), 3, by decide +kernel⟩,
   ⟨({ ({} : State) with regs := [(epBase 17 + 0x1000 + 32, BitVec.ofNat 64 (1 + 2 * 2 + 9 * 128 + 5 * 8192))] } : State),
     17, 2, ({ typ := T.STATUS, payload := 0x09050010 } : Cell), 4,
     (BitVec.ofNat 64 (1 + 2 * 2 + 9 * 128 + 5 * 8192) : W64), by decide +kernel, by decide +kernel,
     by decide +kernel⟩,
   ⟨(at_ [(R.EP_RESV.DEMOTED 3 255, 1), (R.EP_RESV.CELLS 3 255, 9)] : State), 3, 255, by decide +kernel⟩,
   ⟨({ ({} : State) with eps := [(3, { cache := [{ line := 5 }] })] } : State), 3, by decide +kernel⟩⟩

/-- Hypotheses of EndpointWaits (MilestoneWaits). -/
theorem test_meets_MilestoneWaits :
    (∃ (s : State) (e : Nat) (m : Nat), s.regsWf = true ∧ e < 18 ∧ m < 4096 ∧ (s.ep e).waits = []) ∧
    (∃ (s : State) (w : MsWait), s.regsWf = true ∧ (s.ep 17).waits.find? (·.id == w.id) = some w ∧
      w.target ≤ s.fget (R.MS_COUNT.COUNT 17 w.ms) ∧ w.keep = true) ∧
    (∃ (s : State) (w : MsWait), s.regsWf = true ∧ (s.ep 17).waits = [w] ∧
      s.fget (R.MS_COUNT.COUNT 17 w.ms) < w.target ∧ w.deadline ≠ 0 ∧ w.issued + w.deadline < s.now) :=
  ⟨⟨({} : State), 3, 4095, by decide +kernel⟩,
   ⟨({ at_ [(R.MS_COUNT.COUNT 17 4, 9)] with eps := [(17, { waits := [{ id := 2, ms := 4, target := 9, keep := true, observer := 3, tag := 5 }] })] } : State),
     ({ id := 2, ms := 4, target := 9, keep := true, observer := 3, tag := 5 } : MsWait), by decide +kernel⟩,
   ⟨({ at_ [(R.MS_COUNT.COUNT 17 4, 9)] with tb := { frame := 31 }, eps := [(17, { waits := [{ id := 2, ms := 4, target := 10, issued := 10, deadline := 20, observer := 3, tag := 5 }] })] } : State),
     ({ id := 2, ms := 4, target := 10, issued := 10, deadline := 20, observer := 3, tag := 5 } : MsWait),
     by decide +kernel⟩⟩

/-- Hypotheses of EndpointWaits (FencesAndTokens). -/
theorem test_meets_FencesAndTokens :
    (∃ (s : State) (w : Fence), (s.ep 17).fences.find? (·.id == w.id) = some w ∧ s.allDone 17 w.covers = true ∧
      w.xfers = [] ∧ w.kind = 0 ∧ w.keep = true ∧ w.lostCov = false ∧ s.lostPending 17 w.observer w.ctx = false) ∧
    (∃ (s : State) (w : Fence), (s.ep 17).fences.find? (·.id == w.id) = some w ∧ s.allDone 17 w.covers = true ∧
      w.xfers = [] ∧ w.kind = 0 ∧ w.keep = true ∧ s.lostPending 17 w.observer w.ctx = true) ∧
    (∃ (s : State) (c : Nat) (g : Nat) (e : Engine), c < 256 ∧ g < 2 ∧ (s.core c).run.engines[g]? = some e ∧
      e.wait = 4 ∧ tokenMet (kgetD (s.core c).run.tokens e.waitToken 0) e.waitTarget = true) :=
  ⟨⟨({ ({} : State) with eps := [(17, { fences := [{ id := 3, covers := [5], keep := true, observer := 3, tag := 5 }] })] } : State),
    ({ id := 3, covers := [5], keep := true, observer := 3, tag := 5 } : Fence), by decide +kernel⟩,
   ⟨({ ({} : State) with eps := [(17, { lost := [192], fences := [{ id := 3, covers := [5], keep := true, observer := 3, tag := 5 }] })] } : State),
     ({ id := 3, covers := [5], keep := true, observer := 3, tag := 5 } : Fence), by decide +kernel⟩,
   ⟨({ ({} : State) with cores := [(255, { run := { tokens := [(4, 7)], engines := [{}, { wait := 4, waitToken := 4, waitTarget := 7 }, {}, {}] } })] } : State),
     255, 1, ({ wait := 4, waitToken := 4, waitTarget := 7 } : Engine), by decide +kernel⟩⟩

/-- Hypotheses of InstancesGather (InstancesArmed). -/
theorem test_meets_InstancesArmed :
    (∃ (s : State) (r : CmdReq) (d : Desc), d = descOf (bytesAt r.payload 10 14) ∧ Fresh s r ∧ s.regsWf = true ∧
      s.drainRefusal true = none ∧ s.ctxRefusal r.ctx = none ∧ s.rd.early = [] ∧ field r.payload 0 2 < 8192 ∧
      s.armStatus r.payload = ST.OK ∧ (¬(128 + 16 * s.plane ≤ d.rootOn s.plane ∧
      d.rootOn s.plane < 144 + 16 * s.plane))) ∧
    (∃ (s : State) (r : CmdReq) (d : Desc) (h : Nat), d = descOf (bytesAt r.payload 10 14) ∧ Fresh s r ∧
      s.regsWf = true ∧ s.drainRefusal true = none ∧ s.ctxRefusal r.ctx = none ∧ s.rd.early = [] ∧
      field r.payload 0 2 < 8192 ∧ s.armStatus r.payload = ST.OK ∧ h < 16 ∧
      d.rootOn s.plane = 128 + 16 * s.plane + h ∧ (s.ep h).members = [] ∧ s.now < (s.ep h).quietUntil) ∧
    (∃ (s : State) (r : CmdReq) (d : Desc), d = descOf (bytesAt r.payload 10 14) ∧ Fresh s r ∧ s.regsWf = true ∧
      s.drainRefusal true = none ∧ s.ctxRefusal r.ctx = none ∧ s.rd.early = [] ∧ field r.payload 0 2 < 8192 ∧
      s.armStatus r.payload ≠ ST.OK ∧ s.armStatus r.payload ≠ ST.EARLY_DROPPED) :=
  ⟨⟨(grouped : State), ({ ctx := 5, payload := armBytes (desc 0 0 0 5 100) 0x2000 64 } : CmdReq), _, rfl,
    fresh_none (by decide +kernel), by decide +kernel⟩,
   ⟨(grouped : State), ({ ctx := 5, payload := armBytes (desc 0 0 0 131 100) 0x2000 64 } : CmdReq), _, 3, rfl,
     fresh_none (by decide +kernel), by decide +kernel⟩,
   ⟨(grouped : State), ({ ctx := 5, payload := [] } : CmdReq), _, rfl, fresh_none (by decide +kernel),
     by decide +kernel⟩⟩

/-- Hypotheses of InstancesGather (JoinsAndContributions). -/
theorem test_meets_JoinsAndContributions :
    (∃ (s : State) (c : Cell) (fclk : Nat) (v : Option SeqWin) (i : Inst) (p : List Byte), v = (kget s.rd.wins c.src).filter (fun x => decide (s.now < x.last + 1024)) ∧
      p = lineBytes c.payload ∧ s.regsWf = true ∧ fclk < 1600 ∧ c.slot < 8192 ∧ c.typ = T.JOIN ∧
      winNew v c.seq = true ∧ s.rankOf (field p 12 2 % 4096) c.src ≠ none ∧ c.ctx = s.groupCtx (field p 12 2 % 4096) ∧
      s.slotState c.slot = 1 ∧ kget s.rd.insts c.slot = some i ∧ i.endStatus = none ∧ field p 12 2 % 4096 = i.group ∧
      field p 8 4 = i.iseq ∧ field p 14 1 = 0 ∧ field p 0 8 = i.hash ∧ i.joined.contains c.src = false ∧
      s.rd.early = []) ∧
    (∃ (s : State) (c : Cell) (fclk : Nat) (v : Option SeqWin) (p : List Byte), v = (kget s.rd.wins c.src).filter (fun x => decide (s.now < x.last + 1024)) ∧
      p = lineBytes c.payload ∧ s.regsWf = true ∧ fclk < 1600 ∧ c.slot < 8192 ∧ c.typ = T.JOIN ∧
      winNew v c.seq = true ∧ s.rankOf (field p 12 2 % 4096) c.src ≠ none ∧ c.ctx = s.groupCtx (field p 12 2 % 4096) ∧
      s.slotState c.slot = 0 ∧ s.rd.early.length < 4096) ∧
    (∃ (s : State) (c : Cell) (fclk : Nat) (v : Option SeqWin) (i : Inst) (k : Nat) (d : Desc), v = (kget s.rd.wins c.src).filter (fun x => decide (s.now < x.last + 1024)) ∧
      d = descOf i.desc ∧ s.regsWf = true ∧ fclk < 1600 ∧ c.slot < 8192 ∧ c.typ = T.CONTRIB ∧ winNew v c.seq = true ∧
      s.slotState c.slot = 1 ∧ kget s.rd.insts c.slot = some i ∧ i.slot = c.slot ∧ i.endStatus = none ∧
      d.feedback = false ∧ s.rankOf i.group c.src = some k ∧ 2 ≤ (s.members i.group).length ∧
      c.ctx = s.groupCtx i.group ∧ i.joined.contains c.src = true ∧ d.bcast = false ∧ c.chunk < d.n ∧
      s.rd.entries = [] ∧ s.rd.spilled = [] ∧ s.rd.results = []) ∧
    (∃ (s : State) (c : Cell) (fclk : Nat) (v : Option SeqWin), v = (kget s.rd.wins c.src).filter (fun x => decide (s.now < x.last + 1024)) ∧
      s.regsWf = true ∧ fclk < 1600 ∧ c.slot < 8192 ∧ c.typ = T.CONTRIB ∧ winNew v c.seq = false ∧
      s.fget R.RD_STATS.DUP + 1 < 2 ^ 16) :=
  ⟨⟨(holds 1 ({ slot := 12, ctx := 5, group := 7, iseq := 3, hash := 0x55 } : Inst) : State),
    ({ typ := T.JOIN, src := 9, ctx := 5, slot := 12, payload := 0x55 + 3 * 2 ^ 64 + 7 * 2 ^ 96 } : Cell), 1599, _,
    ({ slot := 12, ctx := 5, group := 7, iseq := 3, hash := 0x55 } : Inst), _, rfl, rfl, by decide +kernel,
    by decide +kernel, by decide +kernel, by decide +kernel, by decide +kernel, by decide +kernel, by decide +kernel⟩,
   ⟨(grouped : State),
     ({ typ := T.JOIN, src := 9, ctx := 5, slot := 12, payload := 0x55 + 3 * 2 ^ 64 + 7 * 2 ^ 96 } : Cell), 1599, _,
     _, rfl, rfl, by decide +kernel⟩,
   ⟨(holds 1 ({ slot := 12, ctx := 5, group := 7, iseq := 3, desc := desc 0 0 0 5 100, joined := [9], elements := 100 } : Inst) : State),
     ({ typ := T.CONTRIB, src := 9, ctx := 5, slot := 12, chunk := 2, payload := 0x3F800000 } : Cell), 1599, _,
     ({ slot := 12, ctx := 5, group := 7, iseq := 3, desc := desc 0 0 0 5 100, joined := [9], elements := 100 } : Inst),
     1, _, rfl, rfl, by decide +kernel, by decide +kernel, by decide +kernel, by decide +kernel, by decide +kernel,
     by decide +kernel, by decide +kernel, by decide +kernel, by decide +kernel, by decide +kernel⟩,
   ⟨({ grouped with rd := { wins := [(9, { high := 4, seen := 1, last := 0 })] } } : State),
     ({ typ := T.CONTRIB, src := 9, ctx := 5, slot := 12, chunk := 2, seq := 4 } : Cell), 1599, _, rfl,
     by decide +kernel⟩⟩

/-- Hypotheses of ReductionHousekeeping. -/
theorem test_meets_ReductionHousekeeping :
    (∃ (s : State) (e : Early), s.regsWf = true ∧ s.rd.early = [e] ∧ e.at_ + 32 ≤ s.now ∧ e.cell.slot < 8192) ∧
    (∃ (s : State) (i : Inst) (e : RdEntry) (d : Desc), d = descOf i.desc ∧ s.regsWf = true ∧ s.inst e.slot = some i ∧
      i.spillHub < 16 ∧ (s.rd.entries.find? fun a => a.slot == e.slot && a.chunk == e.chunk) = some e ∧
      e.opened + 32 ≤ s.now ∧ kget s.rd.spilled (chunkKey e.slot e.chunk) = none ∧ Memory.wf s.mem = true ∧
      (∀ w, w < 16 → s.winLive i.spillHub w = false)) ∧
    (∃ (s : State) (src : Nat) (p : Nat) (a : Nat × Nat × Nat), s.regsWf = true ∧ s.rd.acks = [(src, [a])] ∧
      s.posOf src = some p ∧ p < 144 ∧ s.posUp p = true ∧ (kgetD s.sw.outG p []).length < 128) ∧
    (∃ (s : State) (src : Nat) (p : Nat) (a : Nat × Nat × Nat), s.regsWf = true ∧ s.rd.acks = [(src, [a])] ∧
      s.posOf src = some p ∧ s.posUp p = true ∧ 128 ≤ (kgetD s.sw.outG p []).length) ∧
    (∃ (s : State), s.regsWf = true) :=
  ⟨⟨({ ({} : State) with tb := { frame := 32 }, rd := { early := [({ cell := { slot := 8191 } } : Early)] } } : State),
    ({ cell := { slot := 8191 } } : Early), by decide +kernel⟩,
   ⟨((let s := holds 1 ({ slot := 12, ctx := 5, group := 7, desc := desc 0 0 0 5 1000, spillBase := 0x1000, spillHub := 3 } : Inst); { clock 32 s with rd := { s.rd with entries := [({ slot := 12, chunk := 17, acc := List.replicate 16 (some 77), members := 2 } : RdEntry)] } }) : State),
     ({ slot := 12, ctx := 5, group := 7, desc := desc 0 0 0 5 1000, spillBase := 0x1000, spillHub := 3 } : Inst),
     ({ slot := 12, chunk := 17, acc := List.replicate 16 (some 77), members := 2 } : RdEntry), _, rfl,
     by decide +kernel⟩,
   ⟨({ up [5] with rd := { acks := [(5, [((7, 1, 3) : Nat × Nat × Nat)])] } } : State), 5, 5,
     ((7, 1, 3) : Nat × Nat × Nat), by decide +kernel⟩,
   ⟨({ up [5] with rd := { acks := [(5, [((7, 1, 3) : Nat × Nat × Nat)])] }, sw := { outG := [(5, List.replicate 128 {})] } } : State),
     5, 5, ((7, 1, 3) : Nat × Nat × Nat), by decide +kernel⟩,
   ⟨({} : State), by decide +kernel⟩⟩

/-- Hypotheses of ResultsReachTheRoot. -/
theorem test_meets_ResultsReachTheRoot :
    (∃ (s : State) (r : RdResult) (p : Nat) (m : Nat) (fclk : Nat), m = steerOf r.slot r.chunk ∧ fclk < 1600 ∧
      s.rd.entries = [] ∧ s.rd.results = [r] ∧ r.sent = none ∧ r.cell.typ = T.RESULT ∧ r.spilled = true ∧
      s.rdSeqFits r.root r.seqPlane = true ∧ s.posOf r.root = some p ∧ s.posUp p = true ∧
      (kgetD s.sw.midBe m []).length < 256 ∧ ((kgetD s.sw.midBe m []).filter (·.outPos == p)).length < 4) ∧
    (∃ (s : State) (h : Nat) (c : Cell) (r : RootArm) (d : Desc), d = descOf r.desc ∧ s.regsWf = true ∧ h < 16 ∧
      c.typ = T.RESULT ∧ s.root h c.slot = some r ∧ d.bcast = false ∧ (d.planeHub = true → c.chunk % 16 = s.plane) ∧
      c.chunk < d.n ∧ winNew (kget (s.ep h).wins (c.src * 16 + planeOfId c.src)) c.seq = true ∧
      d.index c.chunk = r.prefix_ ∧ r.written = [] ∧ r.rootMs < 4096 ∧ Memory.wf s.mem = true ∧
      (∀ w, w < 16 → s.winLive h w = false)) ∧
    (∃ (s : State) (h : Nat) (c : Cell), h < 16 ∧ c.typ = T.RESULT ∧ s.root h c.slot = none) :=
  ⟨⟨({ up [5] with rd := { results := [({ slot := 12, chunk := 17, root := 5, spilled := true, cell := { typ := T.RESULT, dst := 5, src := 384, slot := 12, chunk := 17 } } : RdResult)] } } : State),
    ({ slot := 12, chunk := 17, root := 5, spilled := true, cell := { typ := T.RESULT, dst := 5, src := 384, slot := 12, chunk := 17 } } : RdResult),
    5, _, 1599, rfl, by decide +kernel, by decide +kernel⟩,
   ⟨({ ({} : State) with eps := [(3, { roots := [({ slot := 12, desc := desc 0 0 0 131 100, resultBase := 0x2000, rootMs := 9, prefix_ := 2 } : RootArm)] })] } : State),
     3, ({ typ := T.RESULT, dst := 131, src := 384, slot := 12, chunk := 2, payload := 77 } : Cell),
     ({ slot := 12, desc := desc 0 0 0 131 100, resultBase := 0x2000, rootMs := 9, prefix_ := 2 } : RootArm), _, rfl,
     by decide +kernel, by decide +kernel, by decide +kernel, by decide +kernel⟩,
   ⟨({} : State), 3, ({ typ := T.RESULT, dst := 131, src := 384, slot := 12 } : Cell), by decide +kernel⟩⟩

/-- Hypotheses of BroadcastRuns. -/
theorem test_meets_BroadcastRuns :
    (∃ (s : State) (e : Nat) (slot : Nat) (c : Nat) (r : RootArm) (d : Desc) (w : BitVec 512 × Nat), d = descOf r.desc ∧
      c = (if d.planeHub then 16 * r.next + s.plane else r.next) ∧ e < 16 ∧ s.root e slot = some r ∧ d.bcast = true ∧
      r.next < d.count s.plane ∧ s.gateOpen e r r.next = true ∧
      s.resvFor e s.plane { typ := T.BCAST, src := s.epId e, ctx := r.ctx, slot := slot, chunk := c } = none ∧
      s.readChunk e slot d r.resultBase d.inT (d.count s.plane) r.next = (s, some (some w))) ∧
    (∃ (s : State) (e : Nat) (c : Cell) (m : Member) (d : Desc), d = descOf m.desc ∧ e < 16 ∧ c.typ = T.BCAST ∧
      s.member e c.slot = some m ∧ d.bcast = true ∧ m.ctx = c.ctx ∧ c.chunk < d.n ∧
      (addNew m.have_ c.chunk).length < d.n ∧ Memory.wf s.mem = true ∧ (∀ w, w < 16 → s.winLive e w = false)) ∧
    (∃ (s : State) (e : Nat) (c : Cell) (m : Member) (d : Desc), d = descOf m.desc ∧ e < 16 ∧ c.typ = T.BCAST ∧
      s.member e c.slot = some m ∧ d.bcast = true ∧ m.ctx = c.ctx ∧ c.chunk < d.n ∧
      d.n ≤ (addNew m.have_ c.chunk).length ∧ m.doneSent = false ∧ m.aborted = false ∧ s.now < (s.ep e).quietUntil) ∧
    (∃ (s : State) (e : Nat) (slot : Nat) (m : Member) (d : Desc) (g : Nat), d = descOf m.desc ∧
      g = s.epRack e * 2 ^ 56 + d.rootOn 0 * 2 ^ 44 ∧ e < 18 ∧ e ≠ 16 ∧ s.member e slot = some m ∧ d.bcast = true ∧
      d.n = 1 ∧ m.aborted = false ∧ m.have_ = [] ∧ m.recovering = [] ∧ m.lastBcast + 4 ≤ s.now ∧
      s.now < (s.ep e).quietUntil ∧ s.mayRead e m.ctx (g + d.dataAt m.sourceBase d.inT 0) (d.bytes d.inT) = true ∧
      (0 < d.scaleBytes d.inT → s.mayRead e m.ctx (g + d.scaleAt m.sourceBase d.inT (d.count 0) 0) (d.scaleBytes d.inT) = true) ∧
      s.choosePlane e (d.rootOn 0) (d.dataAt m.sourceBase d.inT 0) ≠ none) :=
  ⟨⟨({ ({} : State) with mem := [(hubAddr 3 0x2000, 7)], eps := [(3, { roots := [({ slot := 12, ctx := 5, desc := desc 3 0 0 131 100, resultBase := 0x2000 } : RootArm)] })] } : State),
    3, 12, _, ({ slot := 12, ctx := 5, desc := desc 3 0 0 131 100, resultBase := 0x2000 } : RootArm), _,
    ((7, 0) : BitVec 512 × Nat), rfl, rfl, by decide +kernel⟩,
   ⟨({ ({} : State) with eps := [(3, { members := [({ slot := 12, ctx := 5, desc := desc 3 0 0 5 100, region := 0x2000 } : Member)] })] } : State),
     3, ({ typ := T.BCAST, ctx := 5, slot := 12, chunk := 2, payload := 9 } : Cell),
     ({ slot := 12, ctx := 5, desc := desc 3 0 0 5 100, region := 0x2000 } : Member), _, rfl, by decide +kernel⟩,
   ⟨({ ({} : State) with eps := [(3, { members := [({ slot := 12, ctx := 5, desc := desc 3 0 0 5 100, region := 0x2000, have_ := [0, 1, 2, 3, 4, 5] } : Member)] })] } : State),
     3, ({ typ := T.BCAST, ctx := 5, slot := 12, chunk := 6, payload := 9 } : Cell),
     ({ slot := 12, ctx := 5, desc := desc 3 0 0 5 100, region := 0x2000, have_ := [0, 1, 2, 3, 4, 5] } : Member), _,
     rfl, by decide +kernel⟩,
   ⟨({ at_ [(R.TRANS0.VALID 17 0, 1), (R.TRANS0.CONTEXT 17 0, 5), (R.TRANS0.SIZE_LOG2 17 0, 20), (R.TRANS0.READ 17 0, 1), (R.TRANS2.GA_BASE 17 0, 5 * 2 ^ 32)] (clock 4 (up [165])) with chip := { rack := 0 }, eps := [(17, { members := [({ slot := 12, ctx := 5, desc := desc 3 0 0 5 3, sourceBase := 0x2000 } : Member)] })] } : State),
     17, 12, ({ slot := 12, ctx := 5, desc := desc 3 0 0 5 3, sourceBase := 0x2000 } : Member), _, _, rfl, rfl,
     by decide +kernel, by decide +kernel, by decide +kernel, by decide +kernel⟩⟩

/-- Hypotheses of InstancesClose (InstancesEnd). -/
theorem test_meets_InstancesEnd :
    (∃ (s : State) (slot : Nat) (i : Inst) (st : Nat), s.regsWf = true ∧ slot < 8192 ∧ s.armed slot = some i ∧
      i.group < 4096 ∧ i.endStatus = some st) ∧
    (∃ (s : State) (slot : Nat) (i : Inst), s.regsWf = true ∧ slot < 8192 ∧ s.armed slot = some i ∧ i.group < 4096 ∧
      i.endStatus = none ∧ i.deadline < s.now ∧ s.instDone i = false ∧ s.fbit (R.RD_INST0.EARLY_DROP slot) = false) ∧
    (∃ (s : State) (slot : Nat) (n : Notice), s.regsWf = true ∧ slot < 8192 ∧ s.rd.notices = [n] ∧ n.slot = slot ∧
      n.sends < 3 ∧ n.first + 16 * (n.sends + 1) ≤ s.now) ∧
    (∃ (s : State) (slot : Nat) (i : Inst), s.regsWf = true ∧ slot < 8192 ∧ kget s.rd.insts slot = some i ∧
      i.ctx < 64 ∧ krising s.rd.insts = true ∧ s.slotState slot = 2 ∧ i.closedAt + 256 ≤ s.now) ∧
    (∃ (s : State) (slot : Nat) (r : RdResult) (i : Inst) (f : Nat), s.regsWf = true ∧ slot < 8192 ∧ r.slot = slot ∧
      s.rd.results.find? (·.key == r.key) = some r ∧ r.sent = some f ∧ r.refused = false ∧
      f + finalMark r.outst ≤ s.now ∧ s.armed slot = some i ∧ i.endStatus = none) :=
  ⟨⟨(holds 1 ({ slot := 12, ctx := 5, group := 7, iseq := 3, root := 5, desc := desc 0 0 0 5 100, endStatus := some ST.LOST } : Inst) : State),
    12,
    ({ slot := 12, ctx := 5, group := 7, iseq := 3, root := 5, desc := desc 0 0 0 5 100, endStatus := some ST.LOST } : Inst),
    ST.LOST, by decide +kernel⟩,
   ⟨(clock 11 (holds 1 ({ slot := 12, ctx := 5, group := 7, iseq := 3, root := 5, desc := desc 0 0 0 5 100, deadline := 10 } : Inst)) : State),
     12,
     ({ slot := 12, ctx := 5, group := 7, iseq := 3, root := 5, desc := desc 0 0 0 5 100, deadline := 10 } : Inst),
     by decide +kernel⟩,
   ⟨({ clock 32 {} with rd := { notices := [({ slot := 12, dst := 5, seq := 3, ctx := 5, sends := 1 } : Notice)] } } : State),
     12, ({ slot := 12, dst := 5, seq := 3, ctx := 5, sends := 1 } : Notice), by decide +kernel⟩,
   ⟨(clock 256 (holds 2 ({ slot := 12, ctx := 5, group := 7 } : Inst)) : State), 12,
     ({ slot := 12, ctx := 5, group := 7 } : Inst), by decide +kernel⟩,
   ⟨((let s := holds 1 ({ slot := 12, ctx := 5, group := 7, desc := desc 0 0 0 5 100 } : Inst); { clock 256 s with rd := { s.rd with results := [({ key := 3, slot := 12, sent := some 0, cell := { typ := T.RESULT, cls := clsBE } } : RdResult)] } }) : State),
     12, ({ key := 3, slot := 12, sent := some 0, cell := { typ := T.RESULT, cls := clsBE } } : RdResult),
     ({ slot := 12, ctx := 5, group := 7, desc := desc 0 0 0 5 100 } : Inst), 0, by decide +kernel⟩⟩

/-- Hypotheses of InstancesClose (NoticesComplete). -/
theorem test_meets_NoticesComplete :
    ∃ (s : State) (m : Member) (c : Cell), s.member 17 m.slot = some m ∧ (s.ep 17).roots = [] ∧ (s.ep 17).ort = [] ∧
      m.ms = none ∧ m.ownStatus = ST.OK ∧ (∀ n ∈ m.notices, n.2 = ST.OK) ∧ c.typ = T.STATUS ∧
      field (lineBytes c.payload) 0 1 = 0x20 ∧ field (lineBytes c.payload) 8 2 % 8192 = m.slot ∧
      field (lineBytes c.payload) 4 4 = m.iseq ∧ ((descOf m.desc).bcast = true → (descOf m.desc).n ≤ m.have_.length) ∧
      (∀ p ∈ (descOf m.desc).planes, p ≠ planeOfId c.src → kget m.notices p = some ST.OK) ∧
      kget m.notices (planeOfId c.src) = none :=
  ⟨({ ({} : State) with eps := [(17, { members := [({ slot := 12, iseq := 3, desc := desc 0 0 0 5 100, observer := 2, tag := 9, notices := (List.range 15).map fun k => (k + 1, ST.OK) } : Member)] })] } : State),
    ({ slot := 12, iseq := 3, desc := desc 0 0 0 5 100, observer := 2, tag := 9, notices := (List.range 15).map fun k => (k + 1, ST.OK) } : Member),
    ({ typ := T.STATUS, src := 384, payload := 0x20 + 4 * 2 ^ 16 + 3 * 2 ^ 32 + 12 * 2 ^ 64 } : Cell),
    by decide +kernel, by decide +kernel, by decide +kernel, by decide +kernel⟩

/-- Hypotheses of HubAccesses. -/
theorem test_meets_HubAccesses :
    (∃ (s : State) (h : Nat) (c : Nat) (r : MemReq), c = 16 * h + r.observer / 4 ∧ h < 16 ∧ r.observer < 64 ∧
      r.len = 8 ∧ r.ms = none ∧ r.bothHints = false ∧ formOk r r.addr = true ∧ r.addr + 8 ≤ s.populated h ∧
      s.heldAt h r.addr = false ∧ Memory.wf s.mem = true ∧ (∀ w, w < 16 → s.winLive h w = false) ∧
      s.observerHeld h r.observer r.ctx = true) ∧
    (∃ (s : State) (h : Nat) (c : Nat) (r : MemReq), c = 16 * h + r.observer / 4 ∧ h < 16 ∧ r.observer < 64 ∧
      r.len = 8 ∧ r.ms = none ∧ r.bothHints = false ∧ formOk r r.addr = true ∧ r.addr + 8 ≤ s.populated h ∧
      s.heldAt h r.addr = false ∧ Memory.wf s.mem = true ∧ (∀ w, w < 16 → s.winLive h w = false) ∧
      s.observerHeld h r.observer r.ctx = false ∧ r.op = 0 ∧ s.poisoned h r.addr = false ∧
      (s.core c).run.ctx = r.ctx ∧ (s.core c).run.ra = none ∧ (s.core c).run.s.length = 32 ∧ r.tag % 32 ≠ 0) ∧
    (∃ (s : State) (h : Nat) (c : Nat) (r : MemReq), c = 16 * h + r.observer / 4 ∧ h < 16 ∧ r.observer < 64 ∧
      r.len = 8 ∧ r.ms = none ∧ r.bothHints = false ∧ formOk r r.addr = true ∧ r.addr + 8 ≤ s.populated h ∧
      s.heldAt h r.addr = false ∧ Memory.wf s.mem = true ∧ (∀ w, w < 16 → s.winLive h w = false) ∧
      s.observerHeld h r.observer r.ctx = false ∧ r.op = 3 ∧ r.data.length = 8) :=
  ⟨⟨({ ({} : State) with eps := [(3, { fences := [{ id := 3, covers := [5], observer := 22, ctx := 0, tag := 5 }] })] } : State),
    3, _, ({ observer := 22, len := 8, addr := 0x1008, tag := 5 } : MemReq), rfl, by decide +kernel,
    by decide +kernel⟩,
   ⟨({ ({} : State) with mem := [(hubAddr 3 0x1008, 7)] } : State), 3, _,
     ({ observer := 22, len := 8, addr := 0x1008, tag := 5 } : MemReq), rfl, by decide +kernel, by decide +kernel,
     by decide +kernel, by decide +kernel, by decide +kernel, by decide +kernel, by decide +kernel,
     by decide +kernel⟩,
   ⟨({} : State), 3, _,
     ({ observer := 22, len := 8, addr := 0x1008, op := 3, data := leBytes 0x1122334455667788 8 } : MemReq), rfl,
     by decide +kernel, by decide +kernel, by decide +kernel, by decide +kernel⟩⟩

/-- Hypotheses of HubStaysSound (HubUpkeep). -/
theorem test_meets_HubUpkeep :
    (∃ (s : State) (h : Nat) (g : List Nat), g = s.goodCh h (s.fget (R.HB_STATUS.ACTIVE_MAP h)) ∧ s.regsWf = true ∧
      h < 16 ∧ (g.getD ((s.hub h).scrub / chanLines % max 1 g.length) 0) / 8 ∈ (s.hub h).held) ∧
    (∃ (s : State) (h : Nat) (o : Nat) (n : Nat) (b : Nat), n = (s.hub h).scrub ∧
      b = s.fget (R.HB_STATUS.ACTIVE_MAP h) ∧ s.regsWf = true ∧ h < 16 ∧ n % chanLines % 16 ≠ 15 ∧
      (s.hub h).held = [] ∧
      s.physOffset h ((s.goodCh h b).getD (n / chanLines % max 1 (s.goodCh h b).length) 0) (15 * (n % chanLines / 16) + n % chanLines % 16) = some o) ∧
    (∃ (s : State) (h : Nat) (ch : Nat) (rank : Nat) (bank : Nat), s.regsWf = true ∧ h < 16 ∧ ch < 96 ∧ rank < 2 ∧
      bank < 16 ∧ s.fget (R.HB_CHAN.STATE h ch) ≠ 2) ∧
    (∃ (s : State) (h : Nat) (temps : List Nat), s.regsWf = true ∧ h < 16 ∧ temps.length = 12 ∧ s.now % 16 = 0 ∧
      (s.hub h).waiting = []) :=
  ⟨⟨({ ({} : State) with hubs := [(3, { held := [0] })] } : State), 3, _, rfl, by decide +kernel⟩,
   ⟨({ ({} : State) with hubs := [(3, { scrub := 17 })] } : State), 3,
     ((({ ({} : State) with hubs := [(3, { scrub := 17 })] } : State).physOffset 3 ((({ ({} : State) with hubs := [(3, { scrub := 17 })] } : State).goodCh 3 (({ ({} : State) with hubs := [(3, { scrub := 17 })] } : State).fget (R.HB_STATUS.ACTIVE_MAP 3) : Nat)).getD (((({ ({} : State) with hubs := [(3, { scrub := 17 })] } : State).hub 3).scrub : Nat) / chanLines % max 1 (({ ({} : State) with hubs := [(3, { scrub := 17 })] } : State).goodCh 3 (({ ({} : State) with hubs := [(3, { scrub := 17 })] } : State).fget (R.HB_STATUS.ACTIVE_MAP 3) : Nat)).length) 0) (15 * (((({ ({} : State) with hubs := [(3, { scrub := 17 })] } : State).hub 3).scrub : Nat) % chanLines / 16) + ((({ ({} : State) with hubs := [(3, { scrub := 17 })] } : State).hub 3).scrub : Nat) % chanLines % 16)).getD 0 : Nat),
     _, _, rfl, rfl, by decide +kernel⟩,
   ⟨({} : State), 3, 95, 1, 15, by decide +kernel⟩,
   ⟨({ clock 32 {} with hubs := [(3, { held := [1] })] } : State), 3,
     ([106, 100, 105, 96, 40, 40, 40, 40, 40, 40, 40, 200] : List Nat), by decide +kernel⟩⟩

/-- Hypotheses of ChannelRetires. -/
theorem test_meets_ChannelRetires :
    (∃ (s : State) (h : Nat), s.regsWf = true ∧ h < 16 ∧ s.fget (R.HB_STATUS.RETIRE_STATE h) = 1 ∧
      ((s.hub h).go = true ∨ (s.hub h).retireAt + 60000000 ≤ s.now) ∧ s.regionAbove h (s.hub h).newSize = false) ∧
    (∃ (s : State) (h : Nat), s.regsWf = true ∧ h < 16 ∧ s.fget (R.HB_STATUS.RETIRE_STATE h) = 2 ∧
      ((s.hub h).copyCredit < 256 ∨ s.copyHeld h = true)) ∧
    (∃ (s : State) (h : Nat), s.regsWf = true ∧ h < 16 ∧ s.fget (R.HB_STATUS.RETIRE_STATE h) = 2 ∧
      256 ≤ (s.hub h).copyCredit ∧ s.copyHeld h = false ∧ s.fget (R.HB_WATERMARK.WM h) + 24576 < s.populated h) ∧
    (∃ (s : State) (h : Nat), s.regsWf = true ∧ h < 16 ∧ s.fget (R.HB_STATUS.RETIRE_STATE h) = 2 ∧
      256 ≤ (s.hub h).copyCredit ∧ s.copyHeld h = false ∧ s.populated h ≤ s.fget (R.HB_WATERMARK.WM h) + 24576) :=
  ⟨⟨({ at_ [(R.HB_STATUS.RETIRE_STATE 3, 1)] with mem := [(hubAddr 3 (Machine.sizeOf 95 - 1), 7), (hubAddr 3 (Machine.sizeOf 95), 8)], hubs := [(3, { go := true, newSize := Machine.sizeOf 95 })] } : State),
    3, by decide +kernel⟩,
   ⟨(at_ [(R.HB_STATUS.RETIRE_STATE 3, 2)] : State), 3, by decide +kernel⟩,
   ⟨({ at_ [(R.HB_STATUS.RETIRE_STATE 3, 2)] with hubs := [(3, { copyCredit := 300 })] } : State), 3,
     by decide +kernel⟩,
   ⟨({ at_ [(R.HB_STATUS.RETIRE_STATE 3, 2), (R.HB_STATUS.RETIRE_CH 3, 9), (R.HB_WATERMARK.WM 3, ({} : State).populated 3 - 24576)] with hubs := [(3, { copyCredit := 256 })] } : State),
     3, by decide +kernel⟩⟩

/-- Hypotheses of HubStaysSound (HubLanes). -/
theorem test_meets_HubLanes :
    (∃ (s : State) (h : Nat) (rx : List Nat) (tx : List Nat), (∀ k, rx.getD k 0 ≤ 1000 ∧ tx.getD k 0 ≤ 1000) ∧
      s.regsWf = true ∧ h < 16 ∧ s.now % 1000000 = 0) ∧
    (∃ (s : State) (h : Nat) (rx : List Nat) (tx : List Nat) (k : Nat), (∀ j, j ≠ k → rx.getD j 0 ≤ 1000 ∧
      tx.getD j 0 ≤ 1000) ∧ s.regsWf = true ∧ h < 16 ∧ s.now % 1000000 = 0 ∧ k < 8 ∧
      bitAt (s.fget (R.HB_LINK.LANE_WORKING h)) k = true ∧ 1000 < rx.getD k 0 ∧ kgetD (s.hub h).laneOver k 0 = 2 ∧
      s.tt.changes = []) ∧
    (∃ (s : State) (h : Nat) (k : Nat), s.regsWf = true ∧ h < 16 ∧ k < 8 ∧
      bitAt (s.fget (R.HB_LINK.LANE_WORKING h)) k = true ∧ (∀ c ∈ s.tt.changes, ¬(c.pos = 144 + h ∧ c.wl = k))) :=
  ⟨⟨({ ({} : State) with hubs := [(3, { laneOver := [(2, 2)] })] } : State), 3, ([1000, 1000] : List Nat),
    ([1000] : List Nat), fun k => ⟨getD_all (P := (· ≤ 1000)) (by decide) (by decide) k,
    getD_all (P := (· ≤ 1000)) (by decide) (by decide) k⟩, by decide +kernel⟩,
   ⟨({ ({} : State) with hubs := [(3, { laneOver := [(2, 2)] })] } : State), 3, ([1000, 0, 1001] : List Nat),
     ([1000] : List Nat), 2, by intro j hj; rcases j with _ | _ | _ | j <;> simp_all, by decide +kernel⟩,
   ⟨({} : State), 3, 7, by decide +kernel⟩⟩

/-- Hypotheses of MirrorRuns. -/
theorem test_meets_MirrorRuns :
    (∃ (s : State) (h : Nat) (w : Nat), s.regsWf = true ∧ h < 16 ∧ w < 16 ∧ s.winOk h w = true) ∧
    (∃ (s : State) (h : Nat) (w : Nat), s.regsWf = true ∧ h < 16 ∧ w < 16 ∧ s.winOk h w = false) ∧
    (∃ (s : State) (h : Nat) (w : Nat) (p : Nat), s.regsWf = true ∧ h < 16 ∧ w < 16 ∧ p < 2 ^ 32 ∧
      s.mirrorWork h = [w * 2 ^ 32 + p] ∧ (s.hub h).poison = [] ∧ (s.hub h).held = [] ∧ Memory.wf s.mem = true ∧
      s.now < (s.ep h).quietUntil) ∧
    (∃ (s : State) (h : Nat) (ms : Nat) (ws : Nat), s.regsWf = true ∧ h < 16 ∧ ms < 4096 ∧ ws < 65536 ∧
      (s.hub h).syncs.length < 16 ∧
      (∀ i, i < 16 → bitAt ws i = true → s.fget (R.MS_INFO.OWNER h ms) = s.fget (R.HB_MIRROR0.CONTEXT h i) ∧
      s.fbit (R.HB_MIRROR0.PARTNER_LOST h i) = false)) ∧
    (∃ (s : State) (h : Nat) (ms : Nat) (ws : Nat) (i : Nat), s.regsWf = true ∧ h < 16 ∧ ms < 4096 ∧ ws < 65536 ∧
      i < 16 ∧ bitAt ws i = true ∧ s.fget (R.MS_INFO.OWNER h ms) ≠ s.fget (R.HB_MIRROR0.CONTEXT h i)) ∧
    (∃ (s : State) (h : Nat) (ms : Nat) (ws : Nat) (i : Nat), s.regsWf = true ∧ h < 16 ∧ ms < 4096 ∧ ws < 65536 ∧
      (s.hub h).syncs.length < 16 ∧ i < 16 ∧ bitAt ws i = true ∧
      (∀ j, j < 16 → bitAt ws j = true → s.fget (R.MS_INFO.OWNER h ms) = s.fget (R.HB_MIRROR0.CONTEXT h j)) ∧
      s.fbit (R.HB_MIRROR0.PARTNER_LOST h i) = true) ∧
    (∃ (s : State) (h : Nat) (y : Sync), s.regsWf = true ∧ h < 16 ∧ (s.hub h).syncs = [y] ∧ y.pages = [] ∧
      y.out = [] ∧ y.status = ST.OK ∧ y.ms < 4096) :=
  ⟨⟨(mirrored 64 : State), 3, 15, by decide +kernel⟩,
   ⟨(at_ [(R.HB_MIRROR2.PAGES 3 15, 2 ^ 32 - 1)] : State), 3, 15, by decide +kernel⟩,
   ⟨({ at_ [(R.HB_MIRROR0.VALID 3 15, 1)] (mirrored 64) with mem := [(hubAddr 3 0x9000, 2)] } : State), 3, 15, 1,
     by decide +kernel⟩,
   ⟨({} : State), 3, 4095, 65535, by decide +kernel⟩,
   ⟨(at_ [(R.MS_INFO.OWNER 3 9, 5)] : State), 3, 9, 4, 2, by decide +kernel⟩,
   ⟨(at_ [(R.HB_MIRROR0.PARTNER_LOST 3 2, 1)] : State), 3, 9, 4, 2, by decide +kernel⟩,
   ⟨({ ({} : State) with hubs := [(3, { syncs := [({ ms := 4095, windows := 3 } : Sync)] })] } : State), 3,
     ({ ms := 4095, windows := 3 } : Sync), by decide +kernel⟩⟩

/-- Hypotheses of ScalarArithmetic. -/
theorem test_meets_ScalarArithmetic :
    (∃ (s : State) (c : Nat) (w : W64) (a : W64) (b : W64) (d : Nat), d = (fmtS w).d ∧ a = s.sv c (fmtS w).a ∧
      b = (if (fmtS w).i = 1 then (fmtS w).imm else s.sv c (fmtS w).b) ∧ Runs s c 2 0x00 w) ∧
    (∃ (s : State) (c : Nat) (w : W64) (a : W64) (b : W64) (d : Nat), d = (fmtS w).d ∧ a = s.sv c (fmtS w).a ∧
      b = (if (fmtS w).i = 1 then (fmtS w).imm else s.sv c (fmtS w).b) ∧ Runs s c 2 0x01 w) ∧
    (∃ (s : State) (c : Nat) (w : W64) (a : W64) (b : W64) (d : Nat), d = (fmtS w).d ∧ a = s.sv c (fmtS w).a ∧
      b = (if (fmtS w).i = 1 then (fmtS w).imm else s.sv c (fmtS w).b) ∧ Runs s c 2 0x02 w) ∧
    (∃ (s : State) (c : Nat) (w : W64) (a : W64) (b : W64) (d : Nat), d = (fmtS w).d ∧ a = s.sv c (fmtS w).a ∧
      b = (if (fmtS w).i = 1 then (fmtS w).imm else s.sv c (fmtS w).b) ∧ Runs s c 2 0x03 w) ∧
    (∃ (s : State) (c : Nat) (w : W64) (a : W64) (b : W64) (d : Nat), d = (fmtS w).d ∧ a = s.sv c (fmtS w).a ∧
      b = (if (fmtS w).i = 1 then (fmtS w).imm else s.sv c (fmtS w).b) ∧ Runs s c 2 0x04 w) ∧
    (∃ (s : State) (c : Nat) (w : W64) (a : W64) (b : W64) (d : Nat), d = (fmtS w).d ∧ a = s.sv c (fmtS w).a ∧
      b = (if (fmtS w).i = 1 then (fmtS w).imm else s.sv c (fmtS w).b) ∧ Runs s c 2 0x05 w) ∧
    (∃ (s : State) (c : Nat) (w : W64) (a : W64) (b : W64) (d : Nat), d = (fmtS w).d ∧ a = s.sv c (fmtS w).a ∧
      b = (if (fmtS w).i = 1 then (fmtS w).imm else s.sv c (fmtS w).b) ∧ Runs s c 2 0x06 w) ∧
    (∃ (s : State) (c : Nat) (w : W64) (a : W64) (b : W64) (d : Nat), d = (fmtS w).d ∧ a = s.sv c (fmtS w).a ∧
      b = (if (fmtS w).i = 1 then (fmtS w).imm else s.sv c (fmtS w).b) ∧ Runs s c 2 0x07 w) ∧
    (∃ (s : State) (c : Nat) (w : W64) (a : W64) (b : W64) (d : Nat), d = (fmtS w).d ∧ a = s.sv c (fmtS w).a ∧
      b = (if (fmtS w).i = 1 then (fmtS w).imm else s.sv c (fmtS w).b) ∧ Runs s c 2 0x08 w) ∧
    (∃ (s : State) (c : Nat) (w : W64) (a : W64) (b : W64) (d : Nat), d = (fmtS w).d ∧ a = s.sv c (fmtS w).a ∧
      b = (if (fmtS w).i = 1 then (fmtS w).imm else s.sv c (fmtS w).b) ∧ Runs s c 2 0x09 w) ∧
    (∃ (s : State) (c : Nat) (w : W64) (a : W64) (b : W64) (d : Nat), d = (fmtS w).d ∧ a = s.sv c (fmtS w).a ∧
      b = (if (fmtS w).i = 1 then (fmtS w).imm else s.sv c (fmtS w).b) ∧ Runs s c 2 0x0A w) ∧
    (∃ (s : State) (c : Nat) (w : W64) (a : W64) (b : W64) (d : Nat), d = (fmtS w).d ∧ a = s.sv c (fmtS w).a ∧
      b = (if (fmtS w).i = 1 then (fmtS w).imm else s.sv c (fmtS w).b) ∧ Runs s c 2 0x0B w) ∧
    (∃ (s : State) (c : Nat) (w : W64) (a : W64) (b : W64) (d : Nat), d = (fmtS w).d ∧ a = s.sv c (fmtS w).a ∧
      b = (if (fmtS w).i = 1 then (fmtS w).imm else s.sv c (fmtS w).b) ∧ Runs s c 2 0x0C w) ∧
    (∃ (s : State) (c : Nat) (w : W64) (a : W64) (b : W64) (d : Nat), d = (fmtS w).d ∧ a = s.sv c (fmtS w).a ∧
      b = (if (fmtS w).i = 1 then (fmtS w).imm else s.sv c (fmtS w).b) ∧ Runs s c 2 0x0D w) ∧
    (∃ (s : State) (c : Nat) (w : W64) (a : W64) (b : W64) (d : Nat), d = (fmtS w).d ∧ a = s.sv c (fmtS w).a ∧
      b = (if (fmtS w).i = 1 then (fmtS w).imm else s.sv c (fmtS w).b) ∧ Runs s c 2 0x0E w) ∧
    (∃ (s : State) (c : Nat) (w : W64) (a : W64) (b : W64) (d : Nat), d = (fmtS w).d ∧ a = s.sv c (fmtS w).a ∧
      b = (if (fmtS w).i = 1 then (fmtS w).imm else s.sv c (fmtS w).b) ∧ Runs s c 2 0x0F w) ∧
    (∃ (s : State) (c : Nat) (w : W64) (a : W64) (b : W64) (d : Nat), d = (fmtS w).d ∧ a = s.sv c (fmtS w).a ∧
      b = (if (fmtS w).i = 1 then (fmtS w).imm else s.sv c (fmtS w).b) ∧ Runs s c 2 0x10 w) ∧
    (∃ (s : State) (c : Nat) (w : W64) (a : W64) (b : W64) (d : Nat), d = (fmtS w).d ∧ a = s.sv c (fmtS w).a ∧
      b = (if (fmtS w).i = 1 then (fmtS w).imm else s.sv c (fmtS w).b) ∧ Runs s c 2 0x11 w) ∧
    (∃ (s : State) (c : Nat) (w : W64) (a : W64) (b : W64) (d : Nat), d = (fmtS w).d ∧ a = s.sv c (fmtS w).a ∧
      b = (if (fmtS w).i = 1 then (fmtS w).imm else s.sv c (fmtS w).b) ∧ Runs s c 2 0x12 w) ∧
    (∃ (s : State) (c : Nat) (w : W64) (a : W64) (b : W64) (d : Nat), d = (fmtS w).d ∧ a = s.sv c (fmtS w).a ∧
      b = (if (fmtS w).i = 1 then (fmtS w).imm else s.sv c (fmtS w).b) ∧ Runs s c 2 0x13 w) ∧
    (∃ (s : State) (c : Nat) (w : W64) (a : W64) (b : W64) (d : Nat), d = (fmtS w).d ∧ a = s.sv c (fmtS w).a ∧
      b = (if (fmtS w).i = 1 then (fmtS w).imm else s.sv c (fmtS w).b) ∧ Runs s c 2 0x14 w) :=
  ⟨⟨(running (0x82400 : W64) regs5 : State), 53, (0x82400 : W64), _, _, _, rfl, rfl, rfl,
    by unfold Runs; decide +kernel⟩,
   ⟨(running (0x82401 : W64) regs5 : State), 53, (0x82401 : W64), _, _, _, rfl, rfl, rfl,
     by unfold Runs; decide +kernel⟩,
   ⟨(running (0x82402 : W64) regs5 : State), 53, (0x82402 : W64), _, _, _, rfl, rfl, rfl,
     by unfold Runs; decide +kernel⟩,
   ⟨(running (0x82403 : W64) regs5 : State), 53, (0x82403 : W64), _, _, _, rfl, rfl, rfl,
     by unfold Runs; decide +kernel⟩,
   ⟨(running (0x82404 : W64) regs5 : State), 53, (0x82404 : W64), _, _, _, rfl, rfl, rfl,
     by unfold Runs; decide +kernel⟩,
   ⟨(running (0x82405 : W64) regs5 : State), 53, (0x82405 : W64), _, _, _, rfl, rfl, rfl,
     by unfold Runs; decide +kernel⟩,
   ⟨(running (0x82406 : W64) regs5 : State), 53, (0x82406 : W64), _, _, _, rfl, rfl, rfl,
     by unfold Runs; decide +kernel⟩,
   ⟨(running (0x82407 : W64) regs5 : State), 53, (0x82407 : W64), _, _, _, rfl, rfl, rfl,
     by unfold Runs; decide +kernel⟩,
   ⟨(running (0x82408 : W64) regs5 : State), 53, (0x82408 : W64), _, _, _, rfl, rfl, rfl,
     by unfold Runs; decide +kernel⟩,
   ⟨(running (0x40802409 : W64) regs5 : State), 53, (0x40802409 : W64), _, _, _, rfl, rfl, rfl,
     by unfold Runs; decide +kernel⟩,
   ⟨(running (0x8240a : W64) regs5 : State), 53, (0x8240a : W64), _, _, _, rfl, rfl, rfl,
     by unfold Runs; decide +kernel⟩,
   ⟨(running (0x8240b : W64) regs5 : State), 53, (0x8240b : W64), _, _, _, rfl, rfl, rfl,
     by unfold Runs; decide +kernel⟩,
   ⟨(running (0x8240c : W64) regs5 : State), 53, (0x8240c : W64), _, _, _, rfl, rfl, rfl,
     by unfold Runs; decide +kernel⟩,
   ⟨(running (0x8240d : W64) regs5 : State), 53, (0x8240d : W64), _, _, _, rfl, rfl, rfl,
     by unfold Runs; decide +kernel⟩,
   ⟨(running (0x8240e : W64) regs5 : State), 53, (0x8240e : W64), _, _, _, rfl, rfl, rfl,
     by unfold Runs; decide +kernel⟩,
   ⟨(running (0x8240f : W64) regs5 : State), 53, (0x8240f : W64), _, _, _, rfl, rfl, rfl,
     by unfold Runs; decide +kernel⟩,
   ⟨(running (0x82410 : W64) regs5 : State), 53, (0x82410 : W64), _, _, _, rfl, rfl, rfl,
     by unfold Runs; decide +kernel⟩,
   ⟨(running (0x82411 : W64) regs5 : State), 53, (0x82411 : W64), _, _, _, rfl, rfl, rfl,
     by unfold Runs; decide +kernel⟩,
   ⟨(running (0x82412 : W64) regs5 : State), 53, (0x82412 : W64), _, _, _, rfl, rfl, rfl,
     by unfold Runs; decide +kernel⟩,
   ⟨(running (0xffffffff60000413 : W64) regs5 : State), 53, (0xffffffff60000413 : W64), _, _, _, rfl, rfl, rfl,
     by unfold Runs; decide +kernel⟩,
   ⟨(running (0x2460002414 : W64) regs5 : State), 53, (0x2460002414 : W64), _, _, _, rfl, rfl, rfl,
     by unfold Runs; decide +kernel⟩⟩

/-- Hypotheses of ScalarFlow. -/
theorem test_meets_ScalarFlow :
    (∃ (s : State) (c : Nat) (w : W64) (x : FS) (a : W64) (b : W64) (k : Core) (pc : Nat) (len : Nat) (tgt : Int), x = fmtS w ∧
      a = s.sv c x.a ∧ b = s.sv c x.b ∧ k = s.core c ∧ pc = (s.eng c 2).pc ∧
      len = s.fget (R.CO_PART.CODE_LEN c k.run.ctx) ∧ tgt = (pc : Int) + x.imm.toInt ∧ Runs s c 2 0x18 w ∧
      s.regsWf = true ∧ k.run.ctx < 64 ∧ Memory.wf k.scratch = true ∧ 0 ≤ tgt ∧ tgt < len) ∧
    (∃ (s : State) (c : Nat) (w : W64) (x : FS) (a : W64) (b : W64) (k : Core) (pc : Nat) (len : Nat) (tgt : Int), x = fmtS w ∧
      a = s.sv c x.a ∧ b = s.sv c x.b ∧ k = s.core c ∧ pc = (s.eng c 2).pc ∧
      len = s.fget (R.CO_PART.CODE_LEN c k.run.ctx) ∧ tgt = (pc : Int) + x.imm.toInt ∧ Runs s c 2 0x19 w ∧
      s.regsWf = true ∧ k.run.ctx < 64 ∧ Memory.wf k.scratch = true ∧ 0 ≤ tgt ∧ tgt < len) ∧
    (∃ (s : State) (c : Nat) (w : W64) (x : FS) (a : W64) (b : W64) (k : Core) (pc : Nat) (len : Nat) (tgt : Int), x = fmtS w ∧
      a = s.sv c x.a ∧ b = s.sv c x.b ∧ k = s.core c ∧ pc = (s.eng c 2).pc ∧
      len = s.fget (R.CO_PART.CODE_LEN c k.run.ctx) ∧ tgt = (pc : Int) + x.imm.toInt ∧ Runs s c 2 0x1A w ∧
      s.regsWf = true ∧ k.run.ctx < 64 ∧ Memory.wf k.scratch = true ∧ 0 ≤ tgt ∧ tgt < len) ∧
    (∃ (s : State) (c : Nat) (w : W64) (x : FS) (a : W64) (b : W64) (k : Core) (pc : Nat) (len : Nat) (tgt : Int), x = fmtS w ∧
      a = s.sv c x.a ∧ b = s.sv c x.b ∧ k = s.core c ∧ pc = (s.eng c 2).pc ∧
      len = s.fget (R.CO_PART.CODE_LEN c k.run.ctx) ∧ tgt = (pc : Int) + x.imm.toInt ∧ Runs s c 2 0x1B w ∧
      s.regsWf = true ∧ k.run.ctx < 64 ∧ Memory.wf k.scratch = true ∧ 0 ≤ tgt ∧ tgt < len) ∧
    (∃ (s : State) (c : Nat) (w : W64) (x : FS) (a : W64) (b : W64) (k : Core) (pc : Nat) (len : Nat) (tgt : Int), x = fmtS w ∧
      a = s.sv c x.a ∧ b = s.sv c x.b ∧ k = s.core c ∧ pc = (s.eng c 2).pc ∧
      len = s.fget (R.CO_PART.CODE_LEN c k.run.ctx) ∧ tgt = (pc : Int) + x.imm.toInt ∧ Runs s c 2 0x1C w ∧
      s.regsWf = true ∧ k.run.ctx < 64 ∧ Memory.wf k.scratch = true ∧ 0 ≤ tgt ∧ tgt < len) ∧
    (∃ (s : State) (c : Nat) (w : W64) (x : FS) (a : W64) (b : W64) (k : Core) (pc : Nat) (len : Nat) (tgt : Int), x = fmtS w ∧
      a = s.sv c x.a ∧ b = s.sv c x.b ∧ k = s.core c ∧ pc = (s.eng c 2).pc ∧
      len = s.fget (R.CO_PART.CODE_LEN c k.run.ctx) ∧ tgt = (pc : Int) + x.imm.toInt ∧ Runs s c 2 0x1D w ∧
      s.regsWf = true ∧ k.run.ctx < 64 ∧ Memory.wf k.scratch = true ∧ 0 ≤ tgt ∧ tgt < len) ∧
    (∃ (s : State) (c : Nat) (w : W64) (x : FS) (a : W64) (b : W64) (k : Core) (pc : Nat) (len : Nat) (tgt : Int), x = fmtS w ∧
      a = s.sv c x.a ∧ b = s.sv c x.b ∧ k = s.core c ∧ pc = (s.eng c 2).pc ∧
      len = s.fget (R.CO_PART.CODE_LEN c k.run.ctx) ∧ tgt = (pc : Int) + x.imm.toInt ∧ Runs s c 2 0x1E w ∧
      s.regsWf = true ∧ k.run.ctx < 64 ∧ Memory.wf k.scratch = true ∧ 0 ≤ tgt ∧ tgt < len) ∧
    (∃ (s : State) (c : Nat) (w : W64) (x : FS) (a : W64) (b : W64) (k : Core) (pc : Nat) (len : Nat) (tgt : Int), x = fmtS w ∧
      a = s.sv c x.a ∧ b = s.sv c x.b ∧ k = s.core c ∧ pc = (s.eng c 2).pc ∧
      len = s.fget (R.CO_PART.CODE_LEN c k.run.ctx) ∧ tgt = (pc : Int) + x.imm.toInt ∧ Runs s c 2 0x1E w ∧
      s.regsWf = true ∧ k.run.ctx < 64 ∧ Memory.wf k.scratch = true ∧ (tgt < 0 ∨ len ≤ tgt)) ∧
    (∃ (s : State) (c : Nat) (w : W64) (x : FS) (a : W64) (b : W64) (k : Core) (pc : Nat) (len : Nat) (tgt : Int), x = fmtS w ∧
      a = s.sv c x.a ∧ b = s.sv c x.b ∧ k = s.core c ∧ pc = (s.eng c 2).pc ∧
      len = s.fget (R.CO_PART.CODE_LEN c k.run.ctx) ∧ tgt = (pc : Int) + x.imm.toInt ∧ Runs s c 2 0x1F w ∧
      s.regsWf = true ∧ k.run.ctx < 64 ∧ Memory.wf k.scratch = true ∧ a.toNat < 2 ^ 15 ∧ a.toNat < len) ∧
    (∃ (s : State) (c : Nat) (w : W64) (x : FS) (a : W64) (b : W64) (k : Core) (pc : Nat) (len : Nat) (tgt : Int), x = fmtS w ∧
      a = s.sv c x.a ∧ b = s.sv c x.b ∧ k = s.core c ∧ pc = (s.eng c 2).pc ∧
      len = s.fget (R.CO_PART.CODE_LEN c k.run.ctx) ∧ tgt = (pc : Int) + x.imm.toInt ∧ Runs s c 2 0x1F w ∧
      s.regsWf = true ∧ k.run.ctx < 64 ∧ Memory.wf k.scratch = true ∧ (2 ^ 15 ≤ a.toNat ∨ len ≤ a.toNat)) ∧
    (∃ (s : State) (c : Nat) (w : W64) (x : FS) (a : W64) (b : W64) (k : Core) (pc : Nat) (len : Nat) (tgt : Int) (off : Nat) (n : Nat), x = fmtS w ∧
      a = s.sv c x.a ∧ b = s.sv c x.b ∧ k = s.core c ∧ pc = (s.eng c 2).pc ∧
      len = s.fget (R.CO_PART.CODE_LEN c k.run.ctx) ∧ tgt = (pc : Int) + x.imm.toInt ∧ off = (a + x.imm).toNat ∧
      n = 2 ^ x.sz ∧ Runs s c 2 0x20 w ∧ s.regsWf = true ∧ k.run.ctx < 64 ∧ Memory.wf k.scratch = true ∧
      off % n ≠ 0) ∧
    (∃ (s : State) (c : Nat) (w : W64) (x : FS) (a : W64) (b : W64) (k : Core) (pc : Nat) (len : Nat) (tgt : Int) (off : Nat) (n : Nat), x = fmtS w ∧
      a = s.sv c x.a ∧ b = s.sv c x.b ∧ k = s.core c ∧ pc = (s.eng c 2).pc ∧
      len = s.fget (R.CO_PART.CODE_LEN c k.run.ctx) ∧ tgt = (pc : Int) + x.imm.toInt ∧ off = (a + x.imm).toNat ∧
      n = 2 ^ x.sz ∧ Runs s c 2 0x21 w ∧ s.regsWf = true ∧ k.run.ctx < 64 ∧ Memory.wf k.scratch = true ∧ off % n = 0 ∧
      s.scratchLimit c k.run.ctx < off + n) ∧
    (∃ (s : State) (c : Nat) (w : W64) (x : FS) (a : W64) (b : W64) (k : Core) (pc : Nat) (len : Nat) (tgt : Int) (off : Nat) (n : Nat), x = fmtS w ∧
      a = s.sv c x.a ∧ b = s.sv c x.b ∧ k = s.core c ∧ pc = (s.eng c 2).pc ∧
      len = s.fget (R.CO_PART.CODE_LEN c k.run.ctx) ∧ tgt = (pc : Int) + x.imm.toInt ∧ off = (a + x.imm).toNat ∧
      n = 2 ^ x.sz ∧ Runs s c 2 0x20 w ∧ s.regsWf = true ∧ k.run.ctx < 64 ∧ Memory.wf k.scratch = true ∧ off % n = 0 ∧
      off + n ≤ s.scratchLimit c k.run.ctx) ∧
    (∃ (s : State) (c : Nat) (w : W64) (x : FS) (a : W64) (b : W64) (k : Core) (pc : Nat) (len : Nat) (tgt : Int) (off : Nat) (n : Nat), x = fmtS w ∧
      a = s.sv c x.a ∧ b = s.sv c x.b ∧ k = s.core c ∧ pc = (s.eng c 2).pc ∧
      len = s.fget (R.CO_PART.CODE_LEN c k.run.ctx) ∧ tgt = (pc : Int) + x.imm.toInt ∧ off = (a + x.imm).toNat ∧
      n = 2 ^ x.sz ∧ Runs s c 2 0x22 w ∧ s.regsWf = true ∧ k.run.ctx < 64 ∧ Memory.wf k.scratch = true ∧ off % n = 0 ∧
      off + n ≤ s.scratchLimit c k.run.ctx ∧ x.scope < 3) ∧
    (∃ (s : State) (c : Nat) (w : W64) (x : FS) (a : W64) (b : W64) (k : Core) (pc : Nat) (len : Nat) (tgt : Int) (off : Nat) (n : Nat), x = fmtS w ∧
      a = s.sv c x.a ∧ b = s.sv c x.b ∧ k = s.core c ∧ pc = (s.eng c 2).pc ∧
      len = s.fget (R.CO_PART.CODE_LEN c k.run.ctx) ∧ tgt = (pc : Int) + x.imm.toInt ∧ off = (a + x.imm).toNat ∧
      n = 2 ^ x.sz ∧ Runs s c 2 0x22 w ∧ s.regsWf = true ∧ k.run.ctx < 64 ∧ Memory.wf k.scratch = true ∧ off % n = 0 ∧
      off + n ≤ s.scratchLimit c k.run.ctx ∧ 3 ≤ x.scope) ∧
    (∃ (s : State) (c : Nat) (w : W64) (x : FS) (a : W64) (b : W64) (k : Core) (pc : Nat) (len : Nat) (tgt : Int) (off : Nat) (n : Nat), x = fmtS w ∧
      a = s.sv c x.a ∧ b = s.sv c x.b ∧ k = s.core c ∧ pc = (s.eng c 2).pc ∧
      len = s.fget (R.CO_PART.CODE_LEN c k.run.ctx) ∧ tgt = (pc : Int) + x.imm.toInt ∧ off = (a + x.imm).toNat ∧
      n = 2 ^ x.sz ∧ Runs s c 2 0x21 w ∧ s.regsWf = true ∧ k.run.ctx < 64 ∧ Memory.wf k.scratch = true ∧ off % n = 0 ∧
      off + n ≤ s.scratchLimit c k.run.ctx) ∧
    (∃ (s : State) (c : Nat) (w : W64) (x : FS) (a : W64) (b : W64) (k : Core) (pc : Nat) (len : Nat) (tgt : Int) (off : Nat) (n : Nat), x = fmtS w ∧
      a = s.sv c x.a ∧ b = s.sv c x.b ∧ k = s.core c ∧ pc = (s.eng c 2).pc ∧
      len = s.fget (R.CO_PART.CODE_LEN c k.run.ctx) ∧ tgt = (pc : Int) + x.imm.toInt ∧ off = (a + x.imm).toNat ∧
      n = 2 ^ x.sz ∧ Runs s c 2 0x23 w ∧ s.regsWf = true ∧ k.run.ctx < 64 ∧ Memory.wf k.scratch = true ∧ off % n = 0 ∧
      off + n ≤ s.scratchLimit c k.run.ctx ∧ s.outstanding (c / 16) (obsOf c 2) k.run.ctx = []) ∧
    (∃ (s : State) (c : Nat) (w : W64) (x : FS) (a : W64) (b : W64) (k : Core) (pc : Nat) (len : Nat) (tgt : Int) (off : Nat) (n : Nat), x = fmtS w ∧
      a = s.sv c x.a ∧ b = s.sv c x.b ∧ k = s.core c ∧ pc = (s.eng c 2).pc ∧
      len = s.fget (R.CO_PART.CODE_LEN c k.run.ctx) ∧ tgt = (pc : Int) + x.imm.toInt ∧ off = (a + x.imm).toNat ∧
      n = 2 ^ x.sz ∧ Runs s c 2 0x23 w ∧ s.regsWf = true ∧ k.run.ctx < 64 ∧ Memory.wf k.scratch = true ∧ off % n = 0 ∧
      off + n ≤ s.scratchLimit c k.run.ctx ∧ s.outstanding (c / 16) (obsOf c 2) k.run.ctx ≠ []) ∧
    (∃ (s : State) (c : Nat) (w : W64) (x : FS) (a : W64) (b : W64) (k : Core) (pc : Nat) (len : Nat) (tgt : Int), x = fmtS w ∧
      a = s.sv c x.a ∧ b = s.sv c x.b ∧ k = s.core c ∧ pc = (s.eng c 2).pc ∧
      len = s.fget (R.CO_PART.CODE_LEN c k.run.ctx) ∧ tgt = (pc : Int) + x.imm.toInt ∧ Runs s c 2 0x24 w ∧
      s.regsWf = true ∧ k.run.ctx < 64 ∧ Memory.wf k.scratch = true ∧ x.imm.toNat ≠ 3) ∧
    (∃ (s : State) (c : Nat) (w : W64) (x : FS) (a : W64) (b : W64) (k : Core) (pc : Nat) (len : Nat) (tgt : Int), x = fmtS w ∧
      a = s.sv c x.a ∧ b = s.sv c x.b ∧ k = s.core c ∧ pc = (s.eng c 2).pc ∧
      len = s.fget (R.CO_PART.CODE_LEN c k.run.ctx) ∧ tgt = (pc : Int) + x.imm.toInt ∧ Runs s c 2 0x24 w ∧
      s.regsWf = true ∧ k.run.ctx < 64 ∧ Memory.wf k.scratch = true ∧ x.imm.toNat = 3) ∧
    (∃ (s : State) (c : Nat) (w : W64) (x : FS) (a : W64) (b : W64) (k : Core) (pc : Nat) (len : Nat) (tgt : Int), x = fmtS w ∧
      a = s.sv c x.a ∧ b = s.sv c x.b ∧ k = s.core c ∧ pc = (s.eng c 2).pc ∧
      len = s.fget (R.CO_PART.CODE_LEN c k.run.ctx) ∧ tgt = (pc : Int) + x.imm.toInt ∧ Runs s c 2 0x25 w ∧
      s.regsWf = true ∧ k.run.ctx < 64 ∧ Memory.wf k.scratch = true) :=
  ⟨⟨(running (0xa0082018 : W64) regs5 [(16384 + 0x40, 9)] : State), 53, (0xa0082018 : W64), _, _, _, _, _, _, _, rfl,
    rfl, rfl, rfl, rfl, rfl, rfl, by unfold Runs; decide +kernel, by decide +kernel⟩,
   ⟨(running (0xa0082019 : W64) regs5 [(16384 + 0x40, 9)] : State), 53, (0xa0082019 : W64), _, _, _, _, _, _, _, rfl,
     rfl, rfl, rfl, rfl, rfl, rfl, by unfold Runs; decide +kernel, by decide +kernel⟩,
   ⟨(running (0xa008201a : W64) regs5 [(16384 + 0x40, 9)] : State), 53, (0xa008201a : W64), _, _, _, _, _, _, _, rfl,
     rfl, rfl, rfl, rfl, rfl, rfl, by unfold Runs; decide +kernel, by decide +kernel⟩,
   ⟨(running (0xa008201b : W64) regs5 [(16384 + 0x40, 9)] : State), 53, (0xa008201b : W64), _, _, _, _, _, _, _, rfl,
     rfl, rfl, rfl, rfl, rfl, rfl, by unfold Runs; decide +kernel, by decide +kernel⟩,
   ⟨(running (0xa008201c : W64) regs5 [(16384 + 0x40, 9)] : State), 53, (0xa008201c : W64), _, _, _, _, _, _, _, rfl,
     rfl, rfl, rfl, rfl, rfl, rfl, by unfold Runs; decide +kernel, by decide +kernel⟩,
   ⟨(running (0xa008201d : W64) regs5 [(16384 + 0x40, 9)] : State), 53, (0xa008201d : W64), _, _, _, _, _, _, _, rfl,
     rfl, rfl, rfl, rfl, rfl, rfl, by unfold Runs; decide +kernel, by decide +kernel⟩,
   ⟨(running (0xffffffff2000041e : W64) regs5 [(16384 + 0x40, 9)] : State), 53, (0xffffffff2000041e : W64), _, _, _,
     _, _, _, _, rfl, rfl, rfl, rfl, rfl, rfl, rfl, by unfold Runs; decide +kernel, by decide +kernel⟩,
   ⟨(running (0xffffffff0000041e : W64) regs5 [(16384 + 0x40, 9)] : State), 53, (0xffffffff0000041e : W64), _, _, _,
     _, _, _, _, rfl, rfl, rfl, rfl, rfl, rfl, rfl, by unfold Runs; decide +kernel, by decide +kernel⟩,
   ⟨(running (0x601f : W64) regs5 [(16384 + 0x40, 9)] : State), 53, (0x601f : W64), _, _, _, _, _, _, _, rfl, rfl,
     rfl, rfl, rfl, rfl, rfl, by unfold Runs; decide +kernel, by decide +kernel⟩,
   ⟨(running (0x201f : W64) regs5 [(16384 + 0x40, 9)] : State), 53, (0x201f : W64), _, _, _, _, _, _, _, rfl, rfl,
     rfl, rfl, rfl, rfl, rfl, by unfold Runs; decide +kernel, by decide +kernel⟩,
   ⟨(running (0x1006420 : W64) regs5 [(16384 + 0x40, 9)] : State), 53, (0x1006420 : W64), _, _, _, _, _, _, _, _, _,
     rfl, rfl, rfl, rfl, rfl, rfl, rfl, rfl, rfl, by unfold Runs; decide +kernel, by decide +kernel⟩,
   ⟨(running (0x8a021 : W64) regs5 [(16384 + 0x40, 9)] : State), 53, (0x8a021 : W64), _, _, _, _, _, _, _, _, _, rfl,
     rfl, rfl, rfl, rfl, rfl, rfl, rfl, rfl, by unfold Runs; decide +kernel, by decide +kernel⟩,
   ⟨(running (0x300c420 : W64) regs5 [(16384 + 0x40, 9)] : State), 53, (0x300c420 : W64), _, _, _, _, _, _, _, _, _,
     rfl, rfl, rfl, rfl, rfl, rfl, rfl, rfl, rfl, by unfold Runs; decide +kernel, by decide +kernel⟩,
   ⟨(running (0x300c422 : W64) regs5 [(16384 + 0x40, 9)] : State), 53, (0x300c422 : W64), _, _, _, _, _, _, _, _, _,
     rfl, rfl, rfl, rfl, rfl, rfl, rfl, rfl, rfl, by unfold Runs; decide +kernel, by decide +kernel⟩,
   ⟨((let s := running (0xf00c422 : W64) regs5 [(16384 + 0x40, 9)]; { s with eps := [(3, { cache := [{ ctx := 5 }, { ctx := 4 }] })] }) : State),
     53, (0xf00c422 : W64), _, _, _, _, _, _, _, _, _, rfl, rfl, rfl, rfl, rfl, rfl, rfl, rfl, rfl,
     by unfold Runs; decide +kernel, by decide +kernel⟩,
   ⟨(running (0x308c021 : W64) regs5 [(16384 + 0x40, 9)] : State), 53, (0x308c021 : W64), _, _, _, _, _, _, _, _, _,
     rfl, rfl, rfl, rfl, rfl, rfl, rfl, rfl, rfl, by unfold Runs; decide +kernel, by decide +kernel⟩,
   ⟨(running (0x308c023 : W64) regs5 [(16384 + 0x40, 9)] : State), 53, (0x308c023 : W64), _, _, _, _, _, _, _, _, _,
     rfl, rfl, rfl, rfl, rfl, rfl, rfl, rfl, rfl, by unfold Runs; decide +kernel, by decide +kernel⟩,
   ⟨((let s := running (0x308c023 : W64) regs5 [(16384 + 0x40, 9)]; { s with eps := [(3, { reqs := [{ id := 6, r := { observer := 22, ctx := 5 } }] })] }) : State),
     53, (0x308c023 : W64), _, _, _, _, _, _, _, _, _, rfl, rfl, rfl, rfl, rfl, rfl, rfl, rfl, rfl,
     by unfold Runs; decide +kernel, by decide +kernel⟩,
   ⟨(clock 77 (running (0x40000424 : W64) regs5) : State), 53, (0x40000424 : W64), _, _, _, _, _, _, _, rfl, rfl, rfl,
     rfl, rfl, rfl, rfl, by unfold Runs; decide +kernel, by decide +kernel⟩,
   ⟨(running (0x60000424 : W64) regs5 [(16384 + 0x40, 9)] : State), 53, (0x60000424 : W64), _, _, _, _, _, _, _, rfl,
     rfl, rfl, rfl, rfl, rfl, rfl, by unfold Runs; decide +kernel, by decide +kernel⟩,
   ⟨(running (0x425 : W64) regs5 [(16384 + 0x40, 9)] : State), 53, (0x425 : W64), _, _, _, _, _, _, _, rfl, rfl, rfl,
     rfl, rfl, rfl, rfl, by unfold Runs; decide +kernel, by decide +kernel⟩⟩

/-- Hypotheses of CoreRequests. -/
theorem test_meets_CoreRequests :
    (∃ (s : State) (c : Nat) (w : W64) (kind : Nat) (hint : Nat) (x : Xlat), kind = 0 ∧ hint = 0 ∧ Runs s c 2 0x28 w ∧
      s.regsWf = true ∧ s.now < (s.ep (c / 16)).quietUntil ∧ s.fbit (R.EP_CTL.CACHE_EN (c / 16)) = false ∧
      (∀ v ∈ s.transEntries (c / 16), s.badEntry (c / 16) v = false) ∧
      s.check (c / 16) (s.qReq c w kind hint) = (ST.OK, some x) ∧ x.ga / 2 ^ 44 % 1024 ≠ s.epId (c / 16) ∧
      (s.eng c 2).wait = 0) ∧
    (∃ (s : State) (c : Nat) (w : W64) (kind : Nat) (hint : Nat) (x : Xlat), kind = 1 ∧ hint = 0 ∧ Runs s c 2 0x29 w ∧
      s.regsWf = true ∧ s.now < (s.ep (c / 16)).quietUntil ∧ s.fbit (R.EP_CTL.CACHE_EN (c / 16)) = false ∧
      (∀ v ∈ s.transEntries (c / 16), s.badEntry (c / 16) v = false) ∧
      s.check (c / 16) (s.qReq c w kind hint) = (ST.OK, some x) ∧ x.ga / 2 ^ 44 % 1024 ≠ s.epId (c / 16) ∧
      (s.eng c 2).wait = 0) ∧
    (∃ (s : State) (c : Nat) (w : W64) (kind : Nat) (hint : Nat) (x : Xlat), kind = 2 ∧ hint = 0 ∧ Runs s c 2 0x2A w ∧
      s.regsWf = true ∧ s.now < (s.ep (c / 16)).quietUntil ∧ s.fbit (R.EP_CTL.CACHE_EN (c / 16)) = false ∧
      (∀ v ∈ s.transEntries (c / 16), s.badEntry (c / 16) v = false) ∧
      s.check (c / 16) (s.qReq c w kind hint) = (ST.OK, some x) ∧ x.ga / 2 ^ 44 % 1024 ≠ s.epId (c / 16)) ∧
    (∃ (s : State) (c : Nat) (w : W64) (kind : Nat) (hint : Nat) (x : Xlat), kind = 3 ∧ hint = 0 ∧ Runs s c 2 0x2C w ∧
      s.regsWf = true ∧ s.now < (s.ep (c / 16)).quietUntil ∧ s.fbit (R.EP_CTL.CACHE_EN (c / 16)) = false ∧
      (∀ v ∈ s.transEntries (c / 16), s.badEntry (c / 16) v = false) ∧
      s.check (c / 16) (s.qReq c w kind hint) = (ST.OK, some x) ∧ x.ga / 2 ^ 44 % 1024 ≠ s.epId (c / 16) ∧
      (s.eng c 2).wait = 0) ∧
    (∃ (s : State) (c : Nat) (w : W64) (kind : Nat) (hint : Nat) (x : Xlat), kind = 4 ∧ hint = 0 ∧ Runs s c 2 0x2D w ∧
      s.regsWf = true ∧ s.now < (s.ep (c / 16)).quietUntil ∧ s.fbit (R.EP_CTL.CACHE_EN (c / 16)) = false ∧
      (∀ v ∈ s.transEntries (c / 16), s.badEntry (c / 16) v = false) ∧
      s.check (c / 16) (s.qReq c w kind hint) = (ST.OK, some x) ∧ x.ga / 2 ^ 44 % 1024 ≠ s.epId (c / 16)) ∧
    (∃ (s : State) (c : Nat) (w : W64) (kind : Nat) (hint : Nat) (x : Xlat), kind = 5 ∧ hint = 0 ∧ Runs s c 2 0x30 w ∧
      s.regsWf = true ∧ s.now < (s.ep (c / 16)).quietUntil ∧ s.fbit (R.EP_CTL.CACHE_EN (c / 16)) = false ∧
      (∀ v ∈ s.transEntries (c / 16), s.badEntry (c / 16) v = false) ∧
      s.check (c / 16) (s.qReq c w kind hint) = (ST.OK, some x) ∧ x.ga / 2 ^ 44 % 1024 ≠ s.epId (c / 16) ∧
      (s.eng c 2).wait = 0) ∧
    (∃ (s : State) (c : Nat) (w : W64) (kind : Nat) (hint : Nat) (x : Xlat), kind = 5 ∧ hint = 1 ∧ Runs s c 2 0x31 w ∧
      s.regsWf = true ∧ s.now < (s.ep (c / 16)).quietUntil ∧ s.fbit (R.EP_CTL.CACHE_EN (c / 16)) = false ∧
      (∀ v ∈ s.transEntries (c / 16), s.badEntry (c / 16) v = false) ∧
      s.check (c / 16) (s.qReq c w kind hint) = (ST.OK, some x) ∧ x.ga / 2 ^ 44 % 1024 ≠ s.epId (c / 16)) ∧
    (∃ (s : State) (c : Nat) (w : W64) (kind : Nat) (hint : Nat) (x : Xlat), kind = 5 ∧ hint = 2 ∧ Runs s c 2 0x32 w ∧
      s.regsWf = true ∧ s.now < (s.ep (c / 16)).quietUntil ∧ s.fbit (R.EP_CTL.CACHE_EN (c / 16)) = false ∧
      (∀ v ∈ s.transEntries (c / 16), s.badEntry (c / 16) v = false) ∧
      s.check (c / 16) (s.qReq c w kind hint) = (ST.OK, some x) ∧ x.ga / 2 ^ 44 % 1024 ≠ s.epId (c / 16)) ∧
    (∃ (s : State) (c : Nat) (w : W64) (kind : Nat) (hint : Nat) (x : Xlat), kind = 6 ∧ hint = 0 ∧ Runs s c 2 0x34 w ∧
      s.regsWf = true ∧ s.now < (s.ep (c / 16)).quietUntil ∧ s.fbit (R.EP_CTL.CACHE_EN (c / 16)) = false ∧
      (∀ v ∈ s.transEntries (c / 16), s.badEntry (c / 16) v = false) ∧
      s.check (c / 16) (s.qReq c w kind hint) = (ST.OK, some x) ∧ x.ga / 2 ^ 44 % 1024 ≠ s.epId (c / 16) ∧
      (s.eng c 2).wait = 0) ∧
    (∃ (s : State) (c : Nat) (w : W64) (op : Nat) (i : Instr) (x : FD) (y : Xfer), x = fmtD w ∧ y = s.newXfer c op x ∧
      Runs s c 3 op w ∧ s.regsWf = true ∧ ((op = 0xA0 ∧ i = .dmain c w) ∨ (op = 0xA1 ∧ i = .dmainv c w) ∨ (op = 0xA2 ∧
      i = .dmaout c w) ∨ (op = 0xA3 ∧ i = .dmaadd c w)) ∧ y.scratch % 32 = y.addr % 32 ∧
      (op = 0xA3 → y.scratch % subWidth x.sub = 0) ∧ y.scratch + y.len ≤ s.scratchLimit c y.ctx ∧
      s.dmaFull c = false ∧ (∀ v ∈ s.transEntries (c / 16), s.badEntry (c / 16) v = false) ∧
      (s.xferXlat c y).isSome = true) ∧
    (∃ (s : State) (c : Nat) (w : W64) (op : Nat) (i : Instr) (x : FD) (y : Xfer), x = fmtD w ∧ y = s.newXfer c op x ∧
      Runs s c 3 op w ∧ s.regsWf = true ∧ ((op = 0xA0 ∧ i = .dmain c w) ∨ (op = 0xA1 ∧ i = .dmainv c w) ∨ (op = 0xA2 ∧
      i = .dmaout c w) ∨ (op = 0xA3 ∧ i = .dmaadd c w)) ∧ y.scratch % 32 = y.addr % 32 ∧
      (op = 0xA3 → y.scratch % subWidth x.sub = 0) ∧ y.scratch + y.len ≤ s.scratchLimit c y.ctx ∧
      16 ≤ (s.core c).xfers.length ∧ (s.eng c 3).oldest = none) ∧
    (∃ (s : State) (c : Nat) (x : Xfer) (m : Nat), s.regsWf = true ∧ c < 256 ∧ s.fget (R.CO_STATUS.KIND c) = 0 ∧
      (s.core c).xfers.find? (·.id == x.id) = some x ∧ x.len ≤ x.issued ∧ x.open_ = 0 ∧ x.status = ST.OK ∧
      x.cut = false ∧ x.ms = some m ∧ m < 4096 ∧ x.ctx = (s.core c).run.ctx) ∧
    (∃ (s : State) (c : Nat) (w : W64) (x : FD) (a : Nat) (b : Nat) (n : Nat), x = fmtD w ∧
      a = (s.xv c 3 x.xm).toNat ∧ b = (s.xv c 3 x.xs).toNat ∧ n = x.len ∧ Runs s c 3 0xA4 w ∧ s.regsWf = true ∧
      a + n ≤ s.scratchLimit c (s.core c).run.ctx ∧ b + n ≤ s.scratchLimit c (s.core c).run.ctx ∧
      s.dmaFull c = false ∧ s.scratchBusy c (s.core c).run.ctx (s.core c).nextXfer a n false = false ∧
      s.scratchBusy c (s.core c).run.ctx (s.core c).nextXfer b n true = false ∧ Memory.wf (s.core c).scratch = true ∧
      (a = b ∨ a + n ≤ b ∨ b + n ≤ a)) :=
  ⟨⟨(running (0xc0000000e428 : W64) regs5 [] (mapped (at_ [(R.EP_CTL.CACHE_EN 3, 0)])) : State), 53,
    (0xc0000000e428 : W64), _, _,
    ({ ga := 7 * 2 ^ 44 + 0x40, read := true, write := true, atomic := true, cache := false, window := 0, limit := 0x200000 } : Xlat),
    rfl, rfl, by unfold Runs; decide +kernel, by decide +kernel⟩,
   ⟨(running (0xc0000000e429 : W64) regs5 [] (mapped (at_ [(R.EP_CTL.CACHE_EN 3, 0)])) : State), 53,
     (0xc0000000e429 : W64), _, _,
     ({ ga := 7 * 2 ^ 44 + 0x40, read := true, write := true, atomic := true, cache := false, window := 0, limit := 0x200000 } : Xlat),
     rfl, rfl, by unfold Runs; decide +kernel, by decide +kernel⟩,
   ⟨(running (0xc0003000e42a : W64) regs5 [] (mapped (at_ [(R.EP_CTL.CACHE_EN 3, 0)])) : State), 53,
     (0xc0003000e42a : W64), _, _,
     ({ ga := 7 * 2 ^ 44 + 0x40, read := true, write := true, atomic := true, cache := false, window := 0, limit := 0x200000 } : Xlat),
     rfl, rfl, by unfold Runs; decide +kernel, by decide +kernel⟩,
   ⟨(running (0xc0000008e02c : W64) regs5 [] (mapped (at_ [(R.EP_CTL.CACHE_EN 3, 0)])) : State), 53,
     (0xc0000008e02c : W64), _, _,
     ({ ga := 7 * 2 ^ 44 + 0x40, read := true, write := true, atomic := true, cache := false, window := 0, limit := 0x200000 } : Xlat),
     rfl, rfl, by unfold Runs; decide +kernel, by decide +kernel⟩,
   ⟨(running (0xc0003008e02d : W64) regs5 [] (mapped (at_ [(R.EP_CTL.CACHE_EN 3, 0)])) : State), 53,
     (0xc0003008e02d : W64), _, _,
     ({ ga := 7 * 2 ^ 44 + 0x40, read := true, write := true, atomic := true, cache := false, window := 0, limit := 0x200000 } : Xlat),
     rfl, rfl, by unfold Runs; decide +kernel, by decide +kernel⟩,
   ⟨(running (0x4400000008e430 : W64) regs5 [] (mapped (at_ [(R.EP_CTL.CACHE_EN 3, 0)])) : State), 53,
     (0x4400000008e430 : W64), _, _,
     ({ ga := 7 * 2 ^ 44 + 0x40, read := true, write := true, atomic := true, cache := false, window := 0, limit := 0x200000 } : Xlat),
     rfl, rfl, by unfold Runs; decide +kernel, by decide +kernel⟩,
   ⟨(running (0x4400000008e431 : W64) regs5 [] (mapped (at_ [(R.EP_CTL.CACHE_EN 3, 0)])) : State), 53,
     (0x4400000008e431 : W64), _, _,
     ({ ga := 7 * 2 ^ 44 + 0x40, read := true, write := true, atomic := true, cache := false, window := 0, limit := 0x200000 } : Xlat),
     rfl, rfl, by unfold Runs; decide +kernel, by decide +kernel⟩,
   ⟨(running (0x4400000008e432 : W64) regs5 [] (mapped (at_ [(R.EP_CTL.CACHE_EN 3, 0)])) : State), 53,
     (0x4400000008e432 : W64), _, _,
     ({ ga := 7 * 2 ^ 44 + 0x40, read := true, write := true, atomic := true, cache := false, window := 0, limit := 0x200000 } : Xlat),
     rfl, rfl, by unfold Runs; decide +kernel, by decide +kernel⟩,
   ⟨(running (0x180000000ce034 : W64) regs5 [] (mapped (at_ [(R.EP_CTL.CACHE_EN 3, 0)])) : State), 53,
     (0x180000000ce034 : W64), _, _,
     ({ ga := 7 * 2 ^ 44 + 0x40, read := true, write := true, atomic := true, cache := false, window := 0, limit := 0x200000 } : Xlat),
     rfl, rfl, by unfold Runs; decide +kernel, by decide +kernel⟩,
   ⟨(running (0x404a0 : W64) (regs5 [0x100040, 0x40]) [] (mapped (at_ [(R.EP_CTL.CACHE_EN 3, 0)])) : State), 53,
     (0x404a0 : W64), 0xA0, (.dmain 53 (0x404a0 : W64) : Instr), _, _, rfl, rfl, by unfold Runs; decide +kernel,
     by decide +kernel⟩,
   ⟨((let s := running (0x404a0 : W64) (regs5 [0x100040, 0x40]) [] (mapped (at_ [(R.EP_CTL.CACHE_EN 3, 0)])); s.setCore 53 { s.core 53 with xfers := (List.range 16).map fun q => { id := 3 + q, ctx := 5, len := 64, issued := 64 } }) : State),
     53, (0x404a0 : W64), 0xA0, (.dmain 53 (0x404a0 : W64) : Instr), _, _, rfl, rfl, by unfold Runs; decide +kernel,
     by decide +kernel⟩,
   ⟨({ ({} : State) with cores := [(53, { run := { ctx := 5 }, xfers := [({ id := 3, ctx := 5, len := 64, issued := 64, ms := some 9 } : Xfer)] })] } : State),
     53, ({ id := 3, ctx := 5, len := 64, issued := 64, ms := some 9 } : Xfer), 9, by decide +kernel,
     by decide +kernel⟩,
   ⟨(running (0x204a4 : W64) (regs5 [0x40, 0x200]) [(16384 + 0x40, 9)] : State), 53, (0x204a4 : W64), _, _, _, _, rfl,
     rfl, rfl, rfl, by unfold Runs; decide +kernel, by decide +kernel⟩⟩

/-- Hypotheses of VectorInstructions. -/
theorem test_meets_VectorInstructions :
    (∃ (s : State) (c : Nat) (w : W64) (x : FVec) (f : Fmt) (r : RegSet) (off : Nat) (m : Nat → Mode) (va : Nat → Nat) (vb : Nat → Nat) (vc : Nat → Nat) (vd : Nat → Nat) (op : Nat) (i : Instr) (g : Nat → Nat), x = fmtV w ∧
      f = laneFmt x.fmt ∧ r = (s.core c).run ∧ off = s.vOff c x ∧ m = s.roundMode c 1 (x.sr == 1) ∧
      va = lane x.fmt (s.vv c x.va) ∧ vb = lane x.fmt (s.vv c x.vb) ∧ vc = lane x.fmt (s.vv c x.vc) ∧
      vd = lane x.fmt (s.vv c x.vd) ∧ Runs s c 1 op w ∧ ((op = 0x48 ∧ i = .vadd c w ∧
      g = fun k => f.encode (m k) false ((f.decode (va k)).add (f.decode (vb k)))) ∨ (op = 0x49 ∧ i = .vsub c w ∧
      g = fun k => f.encode (m k) false ((f.decode (va k)).add (f.decode (vb k)).neg)) ∨ (op = 0x4A ∧ i = .vmul c w ∧
      g = fun k => f.encode (m k) false ((f.decode (va k)).mul (f.decode (vb k)))) ∨ (op = 0x4B ∧ i = .vfma c w ∧
      g = fun k => f.encode (m k) false (((f.decode (va k)).mul (f.decode (vb k))).add (f.decode (vc k)))) ∨ (op = 0x4C ∧
      i = .vmin c w ∧ g = fun k => f.fmin (va k) (vb k)) ∨ (op = 0x4D ∧ i = .vmax c w ∧
      g = fun k => f.fmax (va k) (vb k)) ∨ (op = 0x4E ∧ i = .vsel c w ∧ g = fun k => if f.isNan (va k) = false ∧
      f.isNan (vb k) = false ∧ f.key (va k) < f.key (vb k) then vc k else vd k)) ∧
      Memory.wf (s.core c).scratch = true) ∧
    (∃ (s : State) (c : Nat) (w : W64) (x : FVec) (f : Fmt) (r : RegSet) (off : Nat) (m : Nat → Mode) (va : Nat → Nat) (vb : Nat → Nat) (vc : Nat → Nat) (vd : Nat → Nat) (op : Nat) (i : Instr) (g : Nat → Nat), x = fmtV w ∧
      f = laneFmt x.fmt ∧ r = (s.core c).run ∧ off = s.vOff c x ∧ m = s.roundMode c 1 (x.sr == 1) ∧
      va = lane x.fmt (s.vv c x.va) ∧ vb = lane x.fmt (s.vv c x.vb) ∧ vc = lane x.fmt (s.vv c x.vc) ∧
      vd = lane x.fmt (s.vv c x.vd) ∧ Runs s c 1 op w ∧ ((op = 0x50 ∧ i = .vrcp c w ∧ g = rcp32) ∨ (op = 0x51 ∧
      i = .vrsq c w ∧ g = rsq32) ∨ (op = 0x52 ∧ i = .vexp2 c w ∧ g = exp2f)) ∧ Memory.wf (s.core c).scratch = true) ∧
    (∃ (s : State) (c : Nat) (w : W64) (x : FVec) (f : Fmt) (r : RegSet) (off : Nat) (m : Nat → Mode) (va : Nat → Nat) (vb : Nat → Nat) (vc : Nat → Nat) (vd : Nat → Nat), x = fmtV w ∧
      f = laneFmt x.fmt ∧ r = (s.core c).run ∧ off = s.vOff c x ∧ m = s.roundMode c 1 (x.sr == 1) ∧
      va = lane x.fmt (s.vv c x.va) ∧ vb = lane x.fmt (s.vv c x.vb) ∧ vc = lane x.fmt (s.vv c x.vc) ∧
      vd = lane x.fmt (s.vv c x.vd) ∧ Runs s c 1 0x54 w ∧ Memory.wf (s.core c).scratch = true) ∧
    (∃ (s : State) (c : Nat) (w : W64) (x : FVec) (f : Fmt) (r : RegSet) (off : Nat) (m : Nat → Mode) (va : Nat → Nat) (vb : Nat → Nat) (vc : Nat → Nat) (vd : Nat → Nat), x = fmtV w ∧
      f = laneFmt x.fmt ∧ r = (s.core c).run ∧ off = s.vOff c x ∧ m = s.roundMode c 1 (x.sr == 1) ∧
      va = lane x.fmt (s.vv c x.va) ∧ vb = lane x.fmt (s.vv c x.vb) ∧ vc = lane x.fmt (s.vv c x.vc) ∧
      vd = lane x.fmt (s.vv c x.vd) ∧ Runs s c 1 0x55 w ∧ Memory.wf (s.core c).scratch = true) ∧
    (∃ (s : State) (c : Nat) (w : W64) (x : FVec) (f : Fmt) (r : RegSet) (off : Nat) (m : Nat → Mode) (va : Nat → Nat) (vb : Nat → Nat) (vc : Nat → Nat) (vd : Nat → Nat), x = fmtV w ∧
      f = laneFmt x.fmt ∧ r = (s.core c).run ∧ off = s.vOff c x ∧ m = s.roundMode c 1 (x.sr == 1) ∧
      va = lane x.fmt (s.vv c x.va) ∧ vb = lane x.fmt (s.vv c x.vb) ∧ vc = lane x.fmt (s.vv c x.vc) ∧
      vd = lane x.fmt (s.vv c x.vd) ∧ Runs s c 1 0x58 w ∧ Memory.wf (s.core c).scratch = true ∧ x.fmt ≠ 0 ∧
      x.vc ≠ 0) ∧
    (∃ (s : State) (c : Nat) (w : W64) (x : FVec) (f : Fmt) (r : RegSet) (off : Nat) (m : Nat → Mode) (va : Nat → Nat) (vb : Nat → Nat) (vc : Nat → Nat) (vd : Nat → Nat), x = fmtV w ∧
      f = laneFmt x.fmt ∧ r = (s.core c).run ∧ off = s.vOff c x ∧ m = s.roundMode c 1 (x.sr == 1) ∧
      va = lane x.fmt (s.vv c x.va) ∧ vb = lane x.fmt (s.vv c x.vb) ∧ vc = lane x.fmt (s.vv c x.vc) ∧
      vd = lane x.fmt (s.vv c x.vd) ∧ Runs s c 1 0x58 w ∧ Memory.wf (s.core c).scratch = true ∧
      (x.fmt = 0 ∨ x.vc = 0)) ∧
    (∃ (s : State) (c : Nat) (w : W64) (x : FVec) (f : Fmt) (r : RegSet) (off : Nat) (m : Nat → Mode) (va : Nat → Nat) (vb : Nat → Nat) (vc : Nat → Nat) (vd : Nat → Nat), x = fmtV w ∧
      f = laneFmt x.fmt ∧ r = (s.core c).run ∧ off = s.vOff c x ∧ m = s.roundMode c 1 (x.sr == 1) ∧
      va = lane x.fmt (s.vv c x.va) ∧ vb = lane x.fmt (s.vv c x.vb) ∧ vc = lane x.fmt (s.vv c x.vc) ∧
      vd = lane x.fmt (s.vv c x.vd) ∧ Runs s c 1 0x59 w ∧ Memory.wf (s.core c).scratch = true) ∧
    (∃ (s : State) (c : Nat) (w : W64) (x : FVec) (f : Fmt) (r : RegSet) (off : Nat) (m : Nat → Mode) (va : Nat → Nat) (vb : Nat → Nat) (vc : Nat → Nat) (vd : Nat → Nat), x = fmtV w ∧
      f = laneFmt x.fmt ∧ r = (s.core c).run ∧ off = s.vOff c x ∧ m = s.roundMode c 1 (x.sr == 1) ∧
      va = lane x.fmt (s.vv c x.va) ∧ vb = lane x.fmt (s.vv c x.vb) ∧ vc = lane x.fmt (s.vv c x.vc) ∧
      vd = lane x.fmt (s.vv c x.vd) ∧ Runs s c 1 0x40 w ∧ Memory.wf (s.core c).scratch = true ∧ off % 32 = 0 ∧
      off + (if x.half = 1 then 128 else 256) ≤ s.scratchLimit c r.ctx) ∧
    (∃ (s : State) (c : Nat) (w : W64) (x : FVec) (f : Fmt) (r : RegSet) (off : Nat) (m : Nat → Mode) (va : Nat → Nat) (vb : Nat → Nat) (vc : Nat → Nat) (vd : Nat → Nat), x = fmtV w ∧
      f = laneFmt x.fmt ∧ r = (s.core c).run ∧ off = s.vOff c x ∧ m = s.roundMode c 1 (x.sr == 1) ∧
      va = lane x.fmt (s.vv c x.va) ∧ vb = lane x.fmt (s.vv c x.vb) ∧ vc = lane x.fmt (s.vv c x.vc) ∧
      vd = lane x.fmt (s.vv c x.vd) ∧ Runs s c 1 0x41 w ∧ Memory.wf (s.core c).scratch = true ∧ off % 32 = 0 ∧
      off + f.w / 8 ≤ s.scratchLimit c r.ctx) ∧
    (∃ (s : State) (c : Nat) (w : W64) (x : FVec) (f : Fmt) (r : RegSet) (off : Nat) (m : Nat → Mode) (va : Nat → Nat) (vb : Nat → Nat) (vc : Nat → Nat) (vd : Nat → Nat), x = fmtV w ∧
      f = laneFmt x.fmt ∧ r = (s.core c).run ∧ off = s.vOff c x ∧ m = s.roundMode c 1 (x.sr == 1) ∧
      va = lane x.fmt (s.vv c x.va) ∧ vb = lane x.fmt (s.vv c x.vb) ∧ vc = lane x.fmt (s.vv c x.vc) ∧
      vd = lane x.fmt (s.vv c x.vd) ∧ Runs s c 1 0x42 w ∧ Memory.wf (s.core c).scratch = true ∧ off % 32 = 0 ∧
      off + (if x.half = 1 then 128 else 256) ≤ s.scratchLimit c r.ctx) ∧
    (∃ (s : State) (c : Nat) (w : W64) (x : FVec) (f : Fmt) (r : RegSet) (off : Nat) (m : Nat → Mode) (va : Nat → Nat) (vb : Nat → Nat) (vc : Nat → Nat) (vd : Nat → Nat), x = fmtV w ∧
      f = laneFmt x.fmt ∧ r = (s.core c).run ∧ off = s.vOff c x ∧ m = s.roundMode c 1 (x.sr == 1) ∧
      va = lane x.fmt (s.vv c x.va) ∧ vb = lane x.fmt (s.vv c x.vb) ∧ vc = lane x.fmt (s.vv c x.vc) ∧
      vd = lane x.fmt (s.vv c x.vd) ∧ Runs s c 1 0x40 w ∧ Memory.wf (s.core c).scratch = true ∧ off % 32 ≠ 0 ∧
      s.regsWf = true ∧ r.ctx < 64) :=
  ⟨⟨((let s := running (0x510c414b : W64) { regs5 with v := [(2, 0x3F80000040000000), (3, 0x4040000041200000)] } [(16384 + 0x40, 9)]; s) : State),
    53, (0x510c414b : W64), _, _, _, _, _, _, _, _, _, 0x4B, (.vfma 53 (0x510c414b : W64) : Instr), _, rfl, rfl, rfl,
    rfl, rfl, rfl, rfl, rfl, rfl, by unfold Runs; decide +kernel, .inr (.inr (.inr (.inl ⟨rfl, rfl, rfl⟩))),
    by decide +kernel⟩,
   ⟨((let s := running (0x4150 : W64) { regs5 with v := [(2, 0x3F80000040000000), (3, 0x4040000041200000)] } [(16384 + 0x40, 9)]; s) : State),
     53, (0x4150 : W64), _, _, _, _, _, _, _, _, _, 0x50, (.vrcp 53 (0x4150 : W64) : Instr), (rcp32 : Nat → Nat), rfl,
     rfl, rfl, rfl, rfl, rfl, rfl, rfl, rfl, by unfold Runs; decide +kernel, .inl ⟨rfl, rfl, rfl⟩, by decide +kernel⟩,
   ⟨((let s := running (0x4154 : W64) { regs5 with v := [(2, 0x3F80000040000000), (3, 0x4040000041200000)] } [(16384 + 0x40, 9)]; s) : State),
     53, (0x4154 : W64), _, _, _, _, _, _, _, _, _, rfl, rfl, rfl, rfl, rfl, rfl, rfl, rfl, rfl,
     by unfold Runs; decide +kernel, by decide +kernel⟩,
   ⟨((let s := running (0x4155 : W64) { regs5 with v := [(2, 0x3F80000040000000), (3, 0x4040000041200000)] } [(16384 + 0x40, 9)]; s) : State),
     53, (0x4155 : W64), _, _, _, _, _, _, _, _, _, rfl, rfl, rfl, rfl, rfl, rfl, rfl, rfl, rfl,
     by unfold Runs; decide +kernel, by decide +kernel⟩,
   ⟨((let s := running (0x11004158 : W64) { regs5 with v := [(2, 0x3F80000040000000), (3, 0x4040000041200000)] } [(16384 + 0x40, 9)]; s) : State),
     53, (0x11004158 : W64), _, _, _, _, _, _, _, _, _, rfl, rfl, rfl, rfl, rfl, rfl, rfl, rfl, rfl,
     by unfold Runs; decide +kernel, by decide +kernel⟩,
   ⟨((let s := running (0x40804158 : W64) { regs5 with v := [(2, 0x3F80000040000000), (3, 0x4040000041200000)] } [(16384 + 0x40, 9)]; s) : State),
     53, (0x40804158 : W64), _, _, _, _, _, _, _, _, _, rfl, rfl, rfl, rfl, rfl, rfl, rfl, rfl, rfl,
     by unfold Runs; decide +kernel, by decide +kernel⟩,
   ⟨((let s := running (0xfe000000000159 : W64) { regs5 with v := [(2, 0x3F80000040000000), (3, 0x4040000041200000)] } [(16384 + 0x40, 9)]; s) : State),
     53, (0xfe000000000159 : W64), _, _, _, _, _, _, _, _, _, rfl, rfl, rfl, rfl, rfl, rfl, rfl, rfl, rfl,
     by unfold Runs; decide +kernel, by decide +kernel⟩,
   ⟨((let s := running (0x140 : W64) { regs5 with v := [(2, 0x3F80000040000000), (3, 0x4040000041200000)] } [(16384 + 0x40, 9)]; s) : State),
     53, (0x140 : W64), _, _, _, _, _, _, _, _, _, rfl, rfl, rfl, rfl, rfl, rfl, rfl, rfl, rfl,
     by unfold Runs; decide +kernel, by decide +kernel⟩,
   ⟨((let s := running (0x141 : W64) { regs5 with v := [(2, 0x3F80000040000000), (3, 0x4040000041200000)] } [(16384 + 0x40, 9)]; s) : State),
     53, (0x141 : W64), _, _, _, _, _, _, _, _, _, rfl, rfl, rfl, rfl, rfl, rfl, rfl, rfl, rfl,
     by unfold Runs; decide +kernel, by decide +kernel⟩,
   ⟨((let s := running (0x242 : W64) { regs5 with v := [(2, 0x3F80000040000000), (3, 0x4040000041200000)] } [(16384 + 0x40, 9)]; s) : State),
     53, (0x242 : W64), _, _, _, _, _, _, _, _, _, rfl, rfl, rfl, rfl, rfl, rfl, rfl, rfl, rfl,
     by unfold Runs; decide +kernel, by decide +kernel⟩,
   ⟨((let s := running (0x400000140 : W64) { regs5 with v := [(2, 0x3F80000040000000), (3, 0x4040000041200000)] } [(16384 + 0x40, 9)]; s) : State),
     53, (0x400000140 : W64), _, _, _, _, _, _, _, _, _, rfl, rfl, rfl, rfl, rfl, rfl, rfl, rfl, rfl,
     by unfold Runs; decide +kernel, by decide +kernel⟩⟩

/-- Hypotheses of MatrixInstructions. -/
theorem test_meets_MatrixInstructions :
    (∃ (s : State) (c : Nat) (w : W64) (x : FM) (k : Core) (a : Nat) (b : Nat) (groups : Nat) (i0 : Nat) (n : Nat), x = fmtM w ∧
      k = s.core c ∧ a = (s.xv c 0 x.xa).toNat ∧ b = (s.xv c 0 x.xb).toNat ∧ i0 = (s.eng c 0).mmaAt ∧
      n = min groups (x.kg - i0) ∧ Runs s c 0 0x80 w ∧ krising k.run.acc = true ∧ Memory.wf k.scratch = true ∧
      pairOk x = true ∧ a % 32 = 0 ∧ b % 32 = 0 ∧ a + operandBytes x.fa x.nsa x.kg ≤ s.scratchLimit c k.run.ctx ∧
      b + operandBytes x.fb x.nsb x.kg ≤ s.scratchLimit c k.run.ctx) ∧
    (∃ (s : State) (c : Nat) (w : W64) (x : FM) (k : Core) (a : Nat) (b : Nat), x = fmtM w ∧ k = s.core c ∧
      a = (s.xv c 0 x.xa).toNat ∧ b = (s.xv c 0 x.xb).toNat ∧ Runs s c 0 0x80 w ∧ krising k.run.acc = true ∧
      Memory.wf k.scratch = true ∧ pairOk x = false ∧ s.regsWf = true ∧ k.run.ctx < 64) ∧
    (∃ (s : State) (c : Nat) (w : W64) (x : FM) (k : Core) (a : Nat) (b : Nat), x = fmtM w ∧ k = s.core c ∧
      a = (s.xv c 0 x.xa).toNat ∧ b = (s.xv c 0 x.xb).toNat ∧ Runs s c 0 0x81 w ∧ krising k.run.acc = true ∧
      Memory.wf k.scratch = true) ∧
    (∃ (s : State) (c : Nat) (w : W64) (x : FM) (k : Core) (a : Nat) (b : Nat), x = fmtM w ∧ k = s.core c ∧
      a = (s.xv c 0 x.xa).toNat ∧ b = (s.xv c 0 x.xb).toNat ∧ Runs s c 0 0x82 w ∧ krising k.run.acc = true ∧
      Memory.wf k.scratch = true ∧ a % 32 = 0 ∧
      a + (512 * typeWidth x.fa + (if isMx x.fa = true then 128 else 0)) ≤ s.scratchLimit c k.run.ctx) ∧
    (∃ (s : State) (c : Nat) (w : W64) (x : FM) (k : Core) (a : Nat) (b : Nat), x = fmtM w ∧ k = s.core c ∧
      a = (s.xv c 0 x.xa).toNat ∧ b = (s.xv c 0 x.xb).toNat ∧ Runs s c 0 0x83 w ∧ krising k.run.acc = true ∧
      Memory.wf k.scratch = true ∧ a % 32 = 0 ∧ a + 16384 ≤ s.scratchLimit c k.run.ctx) :=
  ⟨⟨(running (0x11005180 : W64) { regs5 with acc := [(4096, 0x3F800000), (5000, 0x40000000), (8192, 7)] } [(16384 + 0x41, 0x3F), (16384 + 0x2001, 0x40)] : State),
    53, (0x11005180 : W64), _, _, _, _, 1, _, _, rfl, rfl, rfl, rfl, rfl, rfl, by unfold Runs; decide +kernel,
    by decide +kernel⟩,
   ⟨(running (0x21005180 : W64) { regs5 with acc := [(4096, 0x3F800000), (5000, 0x40000000), (8192, 7)] } [(16384 + 0x41, 0x3F), (16384 + 0x2001, 0x40)] : State),
     53, (0x21005180 : W64), _, _, _, _, rfl, rfl, rfl, rfl, by unfold Runs; decide +kernel, by decide +kernel⟩,
   ⟨(running (0x181 : W64) { regs5 with acc := [(4096, 0x3F800000), (5000, 0x40000000), (8192, 7)] } [(16384 + 0x41, 0x3F), (16384 + 0x2001, 0x40)] : State),
     53, (0x181 : W64), _, _, _, _, rfl, rfl, rfl, rfl, by unfold Runs; decide +kernel, by decide +kernel⟩,
   ⟨(running (0x800000182 : W64) { regs5 with acc := [(4096, 0x3F800000), (5000, 0x40000000), (8192, 7)] } [(16384 + 0x41, 0x3F), (16384 + 0x2001, 0x40)] : State),
     53, (0x800000182 : W64), _, _, _, _, rfl, rfl, rfl, rfl, by unfold Runs; decide +kernel, by decide +kernel⟩,
   ⟨(running (0x183 : W64) { regs5 with acc := [(4096, 0x3F800000), (5000, 0x40000000), (8192, 7)] } [(16384 + 0x41, 0x3F), (16384 + 0x2001, 0x40)] : State),
     53, (0x183 : W64), _, _, _, _, rfl, rfl, rfl, rfl, by unfold Runs; decide +kernel, by decide +kernel⟩⟩

/-- Hypotheses of IndexAndSync. -/
theorem test_meets_IndexAndSync :
    (∃ (s : State) (c : Nat) (e : Nat) (w : W64) (r : RegSet) (pc : Nat) (len : Nat) (h : Nat) (tgt : Int), r = (s.core c).run ∧
      pc = (s.eng c e).pc ∧ len = s.fget (R.CO_PART.CODE_LEN c r.ctx) ∧ tgt = (pc : Int) + (fmtX w).imm.toInt ∧
      h = c / 16 ∧ Runs s c e 0xE0 w ∧ s.regsWf = true ∧ r.ra = none ∧ r.ctx < 64) ∧
    (∃ (s : State) (c : Nat) (e : Nat) (w : W64) (r : RegSet) (pc : Nat) (len : Nat) (h : Nat) (tgt : Int), r = (s.core c).run ∧
      pc = (s.eng c e).pc ∧ len = s.fget (R.CO_PART.CODE_LEN c r.ctx) ∧ tgt = (pc : Int) + (fmtX w).imm.toInt ∧
      h = c / 16 ∧ Runs s c e 0xE1 w ∧ s.regsWf = true ∧ r.ra = none ∧ r.ctx < 64) ∧
    (∃ (s : State) (c : Nat) (e : Nat) (w : W64) (r : RegSet) (pc : Nat) (len : Nat) (h : Nat) (tgt : Int), r = (s.core c).run ∧
      pc = (s.eng c e).pc ∧ len = s.fget (R.CO_PART.CODE_LEN c r.ctx) ∧ tgt = (pc : Int) + (fmtX w).imm.toInt ∧
      h = c / 16 ∧ Runs s c e 0xE6 w ∧ s.regsWf = true ∧ r.ra = none ∧ r.ctx < 64) ∧
    (∃ (s : State) (c : Nat) (e : Nat) (w : W64) (r : RegSet) (pc : Nat) (len : Nat) (h : Nat) (tgt : Int), r = (s.core c).run ∧
      pc = (s.eng c e).pc ∧ len = s.fget (R.CO_PART.CODE_LEN c r.ctx) ∧ tgt = (pc : Int) + (fmtX w).imm.toInt ∧
      h = c / 16 ∧ Runs s c e 0xE5 w ∧ s.regsWf = true ∧ r.ra = none ∧ r.ctx < 64) ∧
    (∃ (s : State) (c : Nat) (e : Nat) (w : W64) (r : RegSet) (pc : Nat) (len : Nat) (h : Nat) (tgt : Int), r = (s.core c).run ∧
      pc = (s.eng c e).pc ∧ len = s.fget (R.CO_PART.CODE_LEN c r.ctx) ∧ tgt = (pc : Int) + (fmtX w).imm.toInt ∧
      h = c / 16 ∧ Runs s c e 0xE4 w ∧ s.regsWf = true ∧ r.ra = none ∧ r.ctx < 64 ∧ 0 ≤ tgt ∧ tgt < len) ∧
    (∃ (s : State) (c : Nat) (e : Nat) (w : W64) (r : RegSet) (pc : Nat) (len : Nat) (h : Nat) (tgt : Int), r = (s.core c).run ∧
      pc = (s.eng c e).pc ∧ len = s.fget (R.CO_PART.CODE_LEN c r.ctx) ∧ tgt = (pc : Int) + (fmtX w).imm.toInt ∧
      h = c / 16 ∧ Runs s c e 0xE2 w ∧ s.regsWf = true ∧ r.ra = none ∧ r.ctx < 64 ∧ 0 ≤ tgt ∧ tgt < len) ∧
    (∃ (s : State) (c : Nat) (e : Nat) (w : W64) (r : RegSet) (pc : Nat) (len : Nat) (h : Nat) (tgt : Int), r = (s.core c).run ∧
      pc = (s.eng c e).pc ∧ len = s.fget (R.CO_PART.CODE_LEN c r.ctx) ∧ tgt = (pc : Int) + (fmtX w).imm.toInt ∧
      h = c / 16 ∧ Runs s c e 0xE3 w ∧ s.regsWf = true ∧ r.ra = none ∧ r.ctx < 64 ∧ 0 ≤ tgt ∧ tgt < len) ∧
    (∃ (s : State) (c : Nat) (e : Nat) (w : W64) (r : RegSet) (pc : Nat) (len : Nat) (h : Nat) (tgt : Int), r = (s.core c).run ∧
      pc = (s.eng c e).pc ∧ len = s.fget (R.CO_PART.CODE_LEN c r.ctx) ∧ tgt = (pc : Int) + (fmtX w).imm.toInt ∧
      h = c / 16 ∧ Runs s c e 0xC7 w ∧ s.regsWf = true ∧ r.ra = none ∧ r.ctx < 64) ∧
    (∃ (s : State) (c : Nat) (e : Nat) (w : W64) (r : RegSet) (pc : Nat) (len : Nat) (h : Nat) (tgt : Int), r = (s.core c).run ∧
      pc = (s.eng c e).pc ∧ len = s.fget (R.CO_PART.CODE_LEN c r.ctx) ∧ tgt = (pc : Int) + (fmtX w).imm.toInt ∧
      h = c / 16 ∧ Runs s c e 0xC5 w ∧ s.regsWf = true ∧ r.ra = none ∧ r.ctx < 64) ∧
    (∃ (s : State) (c : Nat) (e : Nat) (w : W64) (r : RegSet) (pc : Nat) (len : Nat) (h : Nat) (tgt : Int) (j : Nat) (g : Engine), r = (s.core c).run ∧
      pc = (s.eng c e).pc ∧ len = s.fget (R.CO_PART.CODE_LEN c r.ctx) ∧ tgt = (pc : Int) + (fmtX w).imm.toInt ∧
      h = c / 16 ∧ Runs s c e 0xC6 w ∧ s.regsWf = true ∧ r.ra = none ∧ r.ctx < 64 ∧ j < 4 ∧ j ≠ e ∧
      r.engines[j]? = some g ∧ g.stopped = false) ∧
    (∃ (s : State) (c : Nat) (e : Nat) (w : W64) (r : RegSet) (pc : Nat) (len : Nat) (h : Nat) (tgt : Int), r = (s.core c).run ∧
      pc = (s.eng c e).pc ∧ len = s.fget (R.CO_PART.CODE_LEN c r.ctx) ∧ tgt = (pc : Int) + (fmtX w).imm.toInt ∧
      h = c / 16 ∧ (∀ j g, j ≠ e → r.engines[j]? = some g → g.stopped = true) ∧ Runs s c e 0xC6 w ∧ s.regsWf = true ∧
      r.ra = none ∧ r.ctx < 64) ∧
    (∃ (s : State) (c : Nat) (e : Nat) (w : W64) (r : RegSet) (pc : Nat) (len : Nat) (h : Nat) (tgt : Int), r = (s.core c).run ∧
      pc = (s.eng c e).pc ∧ len = s.fget (R.CO_PART.CODE_LEN c r.ctx) ∧ tgt = (pc : Int) + (fmtX w).imm.toInt ∧
      h = c / 16 ∧ Runs s c e 0xC0 w ∧ s.regsWf = true ∧ r.ra = none ∧ r.ctx < 64 ∧ (fmtY w).keep = 1 ∧
      s.outstanding h (obsOf c e) r.ctx = [] ∧ (e = 3 → s.xferIds c r.ctx false = []) ∧
      s.lostPending h (obsOf c e) r.ctx = false) ∧
    (∃ (s : State) (c : Nat) (e : Nat) (w : W64) (r : RegSet) (pc : Nat) (len : Nat) (h : Nat) (tgt : Int), r = (s.core c).run ∧
      pc = (s.eng c e).pc ∧ len = s.fget (R.CO_PART.CODE_LEN c r.ctx) ∧ tgt = (pc : Int) + (fmtX w).imm.toInt ∧
      h = c / 16 ∧ Runs s c e 0xC0 w ∧ s.regsWf = true ∧ r.ra = none ∧ r.ctx < 64 ∧
      s.outstanding h (obsOf c e) r.ctx ≠ []) ∧
    (∃ (s : State) (c : Nat) (e : Nat) (w : W64) (r : RegSet) (pc : Nat) (len : Nat) (h : Nat) (tgt : Int) (i : Instr), r = (s.core c).run ∧
      pc = (s.eng c e).pc ∧ len = s.fget (R.CO_PART.CODE_LEN c r.ctx) ∧ tgt = (pc : Int) + (fmtX w).imm.toInt ∧
      h = c / 16 ∧ (i = .tsig c e w ∧ Runs s c e 0xC1 w ∨ i = .twait c e w ∧ Runs s c e 0xC2 w) ∧ s.regsWf = true ∧
      r.ra = none ∧ r.ctx < 64 ∧ s.tokenBusy c e (fmtY w).token = true) ∧
    (∃ (s : State) (c : Nat) (e : Nat) (w : W64) (r : RegSet) (pc : Nat) (len : Nat) (h : Nat) (tgt : Int), r = (s.core c).run ∧
      pc = (s.eng c e).pc ∧ len = s.fget (R.CO_PART.CODE_LEN c r.ctx) ∧ tgt = (pc : Int) + (fmtX w).imm.toInt ∧
      h = c / 16 ∧ Runs s c e 0xC1 w ∧ s.regsWf = true ∧ r.ra = none ∧ r.ctx < 64 ∧
      s.tokenBusy c e (fmtY w).token = false ∧ (e = 3 → s.xferIds c r.ctx true = [])) ∧
    (∃ (s : State) (c : Nat) (e : Nat) (w : W64) (r : RegSet) (pc : Nat) (len : Nat) (h : Nat) (tgt : Int) (g : Nat), r = (s.core c).run ∧
      pc = (s.eng c e).pc ∧ len = s.fget (R.CO_PART.CODE_LEN c r.ctx) ∧ tgt = (pc : Int) + (fmtX w).imm.toInt ∧
      h = c / 16 ∧
      g = ((fmtY w).imm16 + (if e = 2 then s.sv c (fmtY w).reg else s.xv c e ((fmtY w).reg % 4)).toNat) % 65536 ∧
      Runs s c e 0xC2 w ∧ s.regsWf = true ∧ r.ra = none ∧ r.ctx < 64 ∧ s.tokenBusy c e (fmtY w).token = false ∧
      tokenMet (kgetD r.tokens (fmtY w).token 0) g = true) ∧
    (∃ (s : State) (c : Nat) (e : Nat) (w : W64) (r : RegSet) (pc : Nat) (len : Nat) (h : Nat) (tgt : Int) (g : Nat), r = (s.core c).run ∧
      pc = (s.eng c e).pc ∧ len = s.fget (R.CO_PART.CODE_LEN c r.ctx) ∧ tgt = (pc : Int) + (fmtX w).imm.toInt ∧
      h = c / 16 ∧
      g = ((fmtY w).imm16 + (if e = 2 then s.sv c (fmtY w).reg else s.xv c e ((fmtY w).reg % 4)).toNat) % 65536 ∧
      Runs s c e 0xC2 w ∧ s.regsWf = true ∧ r.ra = none ∧ r.ctx < 64 ∧ s.tokenBusy c e (fmtY w).token = false ∧
      tokenMet (kgetD r.tokens (fmtY w).token 0) g = false) ∧
    (∃ (s : State) (c : Nat) (e : Nat) (w : W64) (r : RegSet) (pc : Nat) (len : Nat) (h : Nat) (tgt : Int) (g : Nat), r = (s.core c).run ∧
      pc = (s.eng c e).pc ∧ len = s.fget (R.CO_PART.CODE_LEN c r.ctx) ∧ tgt = (pc : Int) + (fmtX w).imm.toInt ∧
      h = c / 16 ∧ g = (if e = 2 then s.sv c (fmtY w).reg else s.xv c e ((fmtY w).reg % 4)).toNat ∧
      Runs s c e 0xC3 w ∧ s.regsWf = true ∧ r.ra = none ∧ r.ctx < 64 ∧
      s.fget (R.MS_INFO.OWNER h (fmtY w).ms) ≠ r.ctx) ∧
    (∃ (s : State) (c : Nat) (e : Nat) (w : W64) (r : RegSet) (pc : Nat) (len : Nat) (h : Nat) (tgt : Int) (g : Nat), r = (s.core c).run ∧
      pc = (s.eng c e).pc ∧ len = s.fget (R.CO_PART.CODE_LEN c r.ctx) ∧ tgt = (pc : Int) + (fmtX w).imm.toInt ∧
      h = c / 16 ∧ g = (if e = 2 then s.sv c (fmtY w).reg else s.xv c e ((fmtY w).reg % 4)).toNat ∧
      Runs s c e 0xC3 w ∧ s.regsWf = true ∧ r.ra = none ∧ r.ctx < 64 ∧
      s.fget (R.MS_INFO.OWNER h (fmtY w).ms) = r.ctx ∧ (s.ep h).waits.length < 256 ∧
      g ≤ s.fget (R.MS_COUNT.COUNT h (fmtY w).ms) ∧ (fmtY w).keep = 1) ∧
    (∃ (s : State) (c : Nat) (e : Nat) (w : W64) (r : RegSet) (pc : Nat) (len : Nat) (h : Nat) (tgt : Int) (g : Nat), r = (s.core c).run ∧
      pc = (s.eng c e).pc ∧ len = s.fget (R.CO_PART.CODE_LEN c r.ctx) ∧ tgt = (pc : Int) + (fmtX w).imm.toInt ∧
      h = c / 16 ∧ g = (if e = 2 then s.sv c (fmtY w).reg else s.xv c e ((fmtY w).reg % 4)).toNat ∧
      Runs s c e 0xC3 w ∧ s.regsWf = true ∧ r.ra = none ∧ r.ctx < 64 ∧
      s.fget (R.MS_INFO.OWNER h (fmtY w).ms) = r.ctx ∧ (s.ep h).waits.length < 256 ∧
      s.fget (R.MS_COUNT.COUNT h (fmtY w).ms) < g) ∧
    (∃ (s : State) (c : Nat) (e : Nat) (w : W64) (r : RegSet) (pc : Nat) (len : Nat) (h : Nat) (tgt : Int), r = (s.core c).run ∧
      pc = (s.eng c e).pc ∧ len = s.fget (R.CO_PART.CODE_LEN c r.ctx) ∧ tgt = (pc : Int) + (fmtX w).imm.toInt ∧
      h = c / 16 ∧ Runs s c e 0xC4 w ∧ s.regsWf = true ∧ r.ra = none ∧ r.ctx < 64 ∧
      s.fget (R.MS_INFO.OWNER h (fmtY w).ms) = r.ctx ∧ s.outstanding h (obsOf c e) r.ctx = [] ∧
      (e = 3 → s.xferIds c r.ctx false = []) ∧ s.lostPending h (obsOf c e) r.ctx = false ∧ (s.ep h).waits = []) ∧
    (∃ (s : State) (c : Nat) (e : Nat) (w : W64) (r : RegSet) (pc : Nat) (len : Nat) (h : Nat) (tgt : Int), r = (s.core c).run ∧
      pc = (s.eng c e).pc ∧ len = s.fget (R.CO_PART.CODE_LEN c r.ctx) ∧ tgt = (pc : Int) + (fmtX w).imm.toInt ∧
      h = c / 16 ∧ s.regsWf = true ∧ r.ra = none ∧ r.ctx < 64 ∧
      s.mayIssue { c := c, e := e, op := 0xC7, w := w } = true ∧ s.ahead c e = false ∧ len ≤ pc) ∧
    (∃ (s : State) (c : Nat) (e : Nat) (w : W64) (r : RegSet) (pc : Nat) (len : Nat) (h : Nat) (tgt : Int), r = (s.core c).run ∧
      pc = (s.eng c e).pc ∧ len = s.fget (R.CO_PART.CODE_LEN c r.ctx) ∧ tgt = (pc : Int) + (fmtX w).imm.toInt ∧
      h = c / 16 ∧ s.regsWf = true ∧ r.ra = none ∧ r.ctx < 64 ∧
      s.mayIssue { c := c, e := e, op := 0xC7, w := w } = true ∧ s.ahead c e = false ∧ pc < len ∧ s.fetched c e = w ∧
      classOk e (opOf w) = false) ∧
    (∃ (s : State) (c : Nat) (e : Nat) (w : W64) (r : RegSet) (pc : Nat) (len : Nat) (h : Nat) (tgt : Int), r = (s.core c).run ∧
      pc = (s.eng c e).pc ∧ len = s.fget (R.CO_PART.CODE_LEN c r.ctx) ∧ tgt = (pc : Int) + (fmtX w).imm.toInt ∧
      h = c / 16 ∧ s.regsWf = true ∧ r.ra = none ∧ r.ctx < 64 ∧
      s.mayIssue { c := c, e := e, op := 0xC7, w := w } = true ∧ s.ahead c e = false ∧ pc < len ∧ s.fetched c e = w ∧
      classOk e (opOf w) = true ∧ wordOk e w = false) :=
  ⟨⟨(running (0xffffffffffffb1e0 : W64) regs5 : State), 53, 0, (0xffffffffffffb1e0 : W64), _, _, _, _, _, rfl, rfl,
    rfl, rfl, rfl, by unfold Runs; decide +kernel, by decide +kernel⟩,
   ⟨(running (0xffffffffffffb1e1 : W64) regs5 : State), 53, 1, (0xffffffffffffb1e1 : W64), _, _, _, _, _, rfl, rfl,
     rfl, rfl, rfl, by unfold Runs; decide +kernel, by decide +kernel⟩,
   ⟨(running (0x771e6 : W64) regs5 : State), 53, 0, (0x771e6 : W64), _, _, _, _, _, rfl, rfl, rfl, rfl, rfl,
     by unfold Runs; decide +kernel, by decide +kernel⟩,
   ⟨(running (0x1e5 : W64) regs5 : State), 53, 3, (0x1e5 : W64), _, _, _, _, _, rfl, rfl, rfl, rfl, rfl,
     by unfold Runs; decide +kernel, by decide +kernel⟩,
   ⟨(running (0xffffffffffff90e4 : W64) regs5 : State), 53, 0, (0xffffffffffff90e4 : W64), _, _, _, _, _, rfl, rfl,
     rfl, rfl, rfl, by unfold Runs; decide +kernel, by decide +kernel⟩,
   ⟨(running (0x38e2 : W64) regs5 : State), 53, 0, (0x38e2 : W64), _, _, _, _, _, rfl, rfl, rfl, rfl, rfl,
     by unfold Runs; decide +kernel, by decide +kernel⟩,
   ⟨(running (0xffffffffffffd0e3 : W64) regs5 : State), 53, 0, (0xffffffffffffd0e3 : W64), _, _, _, _, _, rfl, rfl,
     rfl, rfl, rfl, by unfold Runs; decide +kernel, by decide +kernel⟩,
   ⟨(running (0xc7 : W64) regs5 : State), 53, 2, (0xc7 : W64), _, _, _, _, _, rfl, rfl, rfl, rfl, rfl,
     by unfold Runs; decide +kernel, by decide +kernel⟩,
   ⟨(running (0xc5 : W64) regs5 : State), 53, 2, (0xc5 : W64), _, _, _, _, _, rfl, rfl, rfl, rfl, rfl,
     by unfold Runs; decide +kernel, by decide +kernel⟩,
   ⟨(running (0xc6 : W64) regs5 : State), 53, 0, (0xc6 : W64), _, _, _, _, _, 1,
     ({ pc := 7, stopped := false, x := [0x40, 0x2000, 0, 3] } : Engine), rfl, rfl, rfl, rfl, rfl,
     by unfold Runs; decide +kernel, by decide +kernel⟩,
   ⟨(running (0xc6 : W64) { engines := [{ pc := 7, stopped := false }, {}, {}, {}] } : State), 53, 0, (0xc6 : W64), _,
     _, _, _, _, rfl, rfl, rfl, rfl, rfl, idx_all (by decide +kernel), by unfold Runs; decide +kernel,
     by decide +kernel⟩,
   ⟨(running (0xac0 : W64) regs5 : State), 53, 0, (0xac0 : W64), _, _, _, _, _, rfl, rfl, rfl, rfl, rfl,
     by unfold Runs; decide +kernel, by decide +kernel⟩,
   ⟨((let s := running (0xac0 : W64) regs5; { s with eps := [(3, { reqs := [{ id := 6, r := { observer := 20, ctx := 5 } }] })] }) : State),
     53, 0, (0xac0 : W64), _, _, _, _, _, rfl, rfl, rfl, rfl, rfl, by unfold Runs; decide +kernel, by decide +kernel⟩,
   ⟨((let s := running (0x730c1 : W64) regs5; { s with eps := [(3, { fences := [{ id := 6, kind := 2, observer := 20, ctx := 5, ms := 3 }] })] }) : State),
     53, 0, (0x730c1 : W64), _, _, _, _, _, (.tsig 53 0 (0x730c1 : W64) : Instr), rfl, rfl, rfl, rfl, rfl,
     by unfold Runs; decide +kernel, by decide +kernel⟩,
   ⟨(running (0x730c1 : W64) regs5 : State), 53, 0, (0x730c1 : W64), _, _, _, _, _, rfl, rfl, rfl, rfl, rfl,
     by unfold Runs; decide +kernel, by decide +kernel⟩,
   ⟨(running (0xe00000030c2 : W64) { regs5 with tokens := [(3, 0x47)] } : State), 53, 0, (0xe00000030c2 : W64), _, _,
     _, _, _, _, rfl, rfl, rfl, rfl, rfl, rfl, by unfold Runs; decide +kernel, by decide +kernel⟩,
   ⟨(running (0xe00000030c2 : W64) regs5 : State), 53, 0, (0xe00000030c2 : W64), _, _, _, _, _, _, rfl, rfl, rfl, rfl,
     rfl, rfl, by unfold Runs; decide +kernel, by decide +kernel⟩,
   ⟨(running (0x90000c3 : W64) regs5 : State), 53, 0, (0x90000c3 : W64), _, _, _, _, _, _, rfl, rfl, rfl, rfl, rfl,
     rfl, by unfold Runs; decide +kernel, by decide +kernel⟩,
   ⟨(running (0x20090008c3 : W64) regs5 [] (at_ [(R.MS_INFO.OWNER 3 9, 5)]) : State), 53, 0, (0x20090008c3 : W64), _,
     _, _, _, _, _, rfl, rfl, rfl, rfl, rfl, rfl, by unfold Runs; decide +kernel, by decide +kernel⟩,
   ⟨(running (0x5030090008c3 : W64) regs5 [] (at_ [(R.MS_INFO.OWNER 3 9, 5)]) : State), 53, 0, (0x5030090008c3 : W64),
     _, _, _, _, _, _, rfl, rfl, rfl, rfl, rfl, rfl, by unfold Runs; decide +kernel, by decide +kernel⟩,
   ⟨(running (0x90700c4 : W64) regs5 [] (at_ [(R.MS_INFO.OWNER 3 9, 5)]) : State), 53, 0, (0x90700c4 : W64), _, _, _,
     _, _, rfl, rfl, rfl, rfl, rfl, by unfold Runs; decide +kernel, by decide +kernel⟩,
   ⟨(running (0xc7 : W64) (regs5 [] 100) : State), 53, 0, (0xc7 : W64), _, _, _, _, _, rfl, rfl, rfl, rfl, rfl,
     by decide +kernel⟩,
   ⟨(running (0x0 : W64) regs5 : State), 53, 0, (0x0 : W64), _, _, _, _, _, rfl, rfl, rfl, rfl, rfl, by decide +kernel⟩,
   ⟨(running (0x1c7 : W64) regs5 : State), 53, 0, (0x1c7 : W64), _, _, _, _, _, rfl, rfl, rfl, rfl, rfl,
     by decide +kernel⟩⟩

/-- Hypotheses of ContextsAndQuanta (QuantaScheduled). -/
theorem test_meets_QuantaScheduled :
    (∃ (s : State) (c : Nat), s.regsWf = true ∧ c < 256 ∧ (s.core c).standby = none ∧ (s.core c).resetDue = 0 ∧
      (s.core c).run.ctx < 64 ∧ s.fbit (R.CO_POWER.HALT c) = true) ∧
    (∃ (s : State) (c : Nat) (x : Nat), s.regsWf = true ∧ c < 256 ∧ (s.core c).standby = none ∧
      (s.core c).resetDue = 0 ∧ (s.core c).run.ctx < 64 ∧ s.fbit (R.CO_POWER.HALT c) = false ∧
      s.unitInReset 1 c = false ∧ s.fbit (R.CO_POWER.OPP_STOP c) = false ∧
      (∀ d ∈ s.coreEntries (s.activeBank 0), d.core = c → (s.now + 1) % 2 ^ d.plog ≠ d.phase) ∧ x < 64 ∧
      (∀ y, y < 64 → (s.startedKind c y 1 = true ↔ y = x)) ∧ x ≠ (s.core c).run.ctx) ∧
    (∃ (s : State) (c : Nat) (x : Start), s.regsWf = true ∧ c < 256 ∧ (s.core c).standby = none ∧
      (s.core c).resetDue = 0 ∧ (s.core c).run.ctx < 64 ∧ s.fget (R.CO_STATUS.KIND c) = 1 ∧
      (∃ g ∈ (s.core c).run.engines, g.stopped = false ∧ g.stepEnd = false) ∧
      s.fget (R.CO_STATS.OVERRUN c) + 1 < 2 ^ 16 ∧ s.kern.starts = [x] ∧ x.ctx = (s.core c).run.ctx ∧ c ∈ x.cores ∧
      kget x.ended c = none) :=
  ⟨⟨(at_ [(R.CO_POWER.HALT 53, 1)] : State), 53, by decide +kernel⟩,
   ⟨(at_ [(R.CO_KSTATE.STATE 53 5, KS.STARTED), (R.CO_KSTATE.KIND 53 5, 1)] : State), 53, 5, by decide +kernel,
     by decide +kernel, by decide +kernel⟩,
   ⟨((let s := running 0x25 regs5; { s with kern := { s.kern with starts := [({ owner := 1, tag := 2, ctx := 5, cores := [53] } : Start)] } }) : State),
     53, ({ owner := 1, tag := 2, ctx := 5, cores := [53] } : Start), by decide +kernel, by decide +kernel,
     by decide +kernel⟩⟩

/-- Hypotheses of ContextsAndQuanta (ContextsLive). -/
theorem test_meets_ContextsLive :
    (∃ (s : State) (r : CmdReq) (p : List Byte), Fresh s r ∧ s.regsWf = true ∧ p = r.payload ∧ r.ctx < 64 ∧
      s.createStatus r.ctx p = ST.OK) ∧
    (∃ (s : State) (r : CmdReq), Fresh s r ∧ s.regsWf = true ∧ s.createStatus r.ctx r.payload ≠ ST.OK) ∧
    (∃ (s : State) (r : CmdReq), Fresh s r ∧ s.regsWf = true ∧ r.ctx ≠ 0 ∧ r.ctx < 64 ∧ s.ctxState r.ctx = 1 ∧
      s.rd.insts = []) ∧
    (∃ (s : State) (r : CmdReq), Fresh s r ∧ s.regsWf = true ∧ r.ctx = 0) ∧
    (∃ (s : State) (ctx : Nat) (n : Nat) (owner : Nat) (tag : Nat), s.regsWf = true ∧ ctx ≠ 0 ∧ ctx < 64 ∧
      s.ctxState ctx = 2 ∧ (s.ctxRec ctx).scrub = some (n, owner, tag) ∧ s.scrubDrained ctx = true ∧
      (∀ e, e < 17 → ∀ w ∈ (s.ep e).waits, w.core < 256)) :=
  ⟨⟨({} : State),
    ({ owner := 1, tag := 2, ctx := 5, payload := leBytes 3 1 ++ leBytes 0 1 ++ leBytes 9 2 ++ leBytes 16 2 ++ leBytes 100 2 ++ leBytes 4 2 ++ leBytes 1 1 ++ leBytes 0 5 ++ leBytes (1 + 5 * 2 + 20 * 128 + 7 * 2 ^ 13) 8 ++ leBytes 0x100000 8 ++ leBytes (7 * 2 ^ 44) 8 ++ leBytes 0 8 } : CmdReq),
    (({ owner := 1, tag := 2, ctx := 5, payload := leBytes 3 1 ++ leBytes 0 1 ++ leBytes 9 2 ++ leBytes 16 2 ++ leBytes 100 2 ++ leBytes 4 2 ++ leBytes 1 1 ++ leBytes 0 5 ++ leBytes (1 + 5 * 2 + 20 * 128 + 7 * 2 ^ 13) 8 ++ leBytes 0x100000 8 ++ leBytes (7 * 2 ^ 44) 8 ++ leBytes 0 8 } : CmdReq).payload : List Byte),
    fresh_none (by decide +kernel), by decide +kernel⟩,
   ⟨({} : State), ({ owner := 1, tag := 2, ctx := 0 } : CmdReq), fresh_none (by decide +kernel), by decide +kernel⟩,
   ⟨((let s := at_ [(R.CP_CTX.STATE 5, 1), (R.HE_MR0.CONTEXT 9, 5), (R.HE_MR0.VALID 9, 1)] (running 0x25 regs5); s) : State),
     ({ owner := 1, tag := 2, ctx := 5 } : CmdReq), fresh_none (by decide +kernel), by decide +kernel⟩,
   ⟨({} : State), ({ owner := 1, tag := 2, ctx := 0 } : CmdReq), fresh_none (by decide +kernel), by decide +kernel⟩,
   ⟨((let s := at_ [(R.CP_CTX.STATE 5, 2), (R.MS_INFO.OWNER 3 9, 5), (R.MS_COUNT.COUNT 3 9, 7)] (mapped (running 0x25 regs5)); { s with host := { tags := [{ owner := 1, tag := 2 }] }, kern := { ctxs := [(5, { scrub := some (1, 1, 2) })] } }) : State),
     5, 1, 1, 2, by decide +kernel⟩⟩

/-- Hypotheses of KernelsRun (KernelsLoad). -/
theorem test_meets_KernelsLoad :
    (∃ (s : State) (r : CmdReq) (l : LoadPlan) (h : Nat) (mask : Nat) (st : Nat × Nat) (x : Nat), Fresh s r ∧
      l = s.loadPlan r.payload ∧ s.regsWf = true ∧ r.ctx < 64 ∧ h = field r.payload 2 1 ∧ mask = field r.payload 4 2 ∧
      st = s.loadStatus r.ctx r.payload l ∧ s.ctxRefusal r.ctx = some x) ∧
    (∃ (s : State) (r : CmdReq) (l : LoadPlan) (h : Nat) (mask : Nat) (st : Nat × Nat), Fresh s r ∧
      l = s.loadPlan r.payload ∧ s.regsWf = true ∧ r.ctx < 64 ∧ h = field r.payload 2 1 ∧ mask = field r.payload 4 2 ∧
      st = s.loadStatus r.ctx r.payload l ∧ s.ctxRefusal r.ctx = none ∧ st.1 ≠ ST.OK) ∧
    (∃ (s : State) (r : CmdReq) (l : LoadPlan) (h : Nat) (mask : Nat) (st : Nat × Nat), Fresh s r ∧
      l = s.loadPlan r.payload ∧ (∀ c, Memory.wf (s.core c).scratch = true) ∧ s.regsWf = true ∧ r.ctx < 64 ∧
      h = field r.payload 2 1 ∧ mask = field r.payload 4 2 ∧ st = s.loadStatus r.ctx r.payload l ∧
      s.ctxRefusal r.ctx = none ∧ st.1 = ST.OK ∧ (∀ x ∈ s.kern.loads, x.hub < 16 ∧ ∀ n ∈ x.trans, n < 4096)) :=
  ⟨⟨({} : State), ({ owner := 1, tag := 2, ctx := 5, payload := loadBytes 0x25 0 } : CmdReq),
    (({} : State).loadPlan ({ owner := 1, tag := 2, ctx := 5, payload := loadBytes 0x25 0 } : CmdReq).payload : LoadPlan),
    (field ({ owner := 1, tag := 2, ctx := 5, payload := loadBytes 0x25 0 } : CmdReq).payload 2 1 : Nat),
    (field ({ owner := 1, tag := 2, ctx := 5, payload := loadBytes 0x25 0 } : CmdReq).payload 4 2 : Nat),
    (({} : State).loadStatus ({ owner := 1, tag := 2, ctx := 5, payload := loadBytes 0x25 0 } : CmdReq).ctx ({ owner := 1, tag := 2, ctx := 5, payload := loadBytes 0x25 0 } : CmdReq).payload (({} : State).loadPlan ({ owner := 1, tag := 2, ctx := 5, payload := loadBytes 0x25 0 } : CmdReq).payload : LoadPlan) : Nat × Nat),
    ST.BAD_PARAM, fresh_none (by decide +kernel), rfl, by decide +kernel⟩,
   ⟨(at_ [(R.CP_CTX.STATE 5, 1)] : State), ({ owner := 1, tag := 2, ctx := 5, payload := loadBytes 0x25 0 } : CmdReq),
     ((at_ [(R.CP_CTX.STATE 5, 1)] : State).loadPlan ({ owner := 1, tag := 2, ctx := 5, payload := loadBytes 0x25 0 } : CmdReq).payload : LoadPlan),
     (field ({ owner := 1, tag := 2, ctx := 5, payload := loadBytes 0x25 0 } : CmdReq).payload 2 1 : Nat),
     (field ({ owner := 1, tag := 2, ctx := 5, payload := loadBytes 0x25 0 } : CmdReq).payload 4 2 : Nat),
     ((at_ [(R.CP_CTX.STATE 5, 1)] : State).loadStatus ({ owner := 1, tag := 2, ctx := 5, payload := loadBytes 0x25 0 } : CmdReq).ctx ({ owner := 1, tag := 2, ctx := 5, payload := loadBytes 0x25 0 } : CmdReq).payload ((at_ [(R.CP_CTX.STATE 5, 1)] : State).loadPlan ({ owner := 1, tag := 2, ctx := 5, payload := loadBytes 0x25 0 } : CmdReq).payload : LoadPlan) : Nat × Nat),
     fresh_none (by decide +kernel), rfl, by decide +kernel⟩,
   ⟨(served {} : State), ({ owner := 1, tag := 2, ctx := 5, payload := loadBytes 0x25 1 } : CmdReq),
     ((served {} : State).loadPlan ({ owner := 1, tag := 2, ctx := 5, payload := loadBytes 0x25 1 } : CmdReq).payload : LoadPlan),
     (field ({ owner := 1, tag := 2, ctx := 5, payload := loadBytes 0x25 1 } : CmdReq).payload 2 1 : Nat),
     (field ({ owner := 1, tag := 2, ctx := 5, payload := loadBytes 0x25 1 } : CmdReq).payload 4 2 : Nat),
     ((served {} : State).loadStatus ({ owner := 1, tag := 2, ctx := 5, payload := loadBytes 0x25 1 } : CmdReq).ctx ({ owner := 1, tag := 2, ctx := 5, payload := loadBytes 0x25 1 } : CmdReq).payload ((served {} : State).loadPlan ({ owner := 1, tag := 2, ctx := 5, payload := loadBytes 0x25 1 } : CmdReq).payload : LoadPlan) : Nat × Nat),
     fresh_none (by decide +kernel), rfl, fun _ => rfl, by decide +kernel⟩⟩

/-- Hypotheses of KernelsRun (KernelsStartAndEnd). -/
theorem test_meets_KernelsStartAndEnd :
    (∃ (s : State) (r : CmdReq) (p : List Byte) (l : List Nat), Fresh s r ∧ s.regsWf = true ∧ p = r.payload ∧
      l = maskCores (field p 0 1) (field p 2 2) ∧ r.ctx < 64 ∧ s.ctxRefusal r.ctx = none ∧
      s.startStatus r.ctx p = ST.OK) ∧
    (∃ (s : State) (r : CmdReq), Fresh s r ∧ s.regsWf = true ∧ s.ctxRefusal r.ctx = none ∧
      s.startStatus r.ctx r.payload ≠ ST.OK) ∧
    (∃ (s : State) (r : CmdReq) (p : List Byte) (l : List Nat), Fresh s r ∧ s.regsWf = true ∧ p = r.payload ∧
      l = maskCores (field p 0 1) (field p 2 2) ∧ s.ctxRefusal r.ctx = none ∧ p.length = 8 ∧ field p 0 1 < 16 ∧
      l ≠ [] ∧ (∀ c ∈ l, s.fget (R.CO_KSTATE.STATE c r.ctx) ≠ 0) ∧ field p 1 1 = 0) ∧
    (∃ (s : State) (r : CmdReq) (p : List Byte) (l : List Nat), Fresh s r ∧ s.regsWf = true ∧ p = r.payload ∧
      l = maskCores (field p 0 1) (field p 2 2) ∧ s.ctxRefusal r.ctx = none ∧ p.length = 8 ∧ field p 0 1 < 16 ∧
      l ≠ [] ∧ (∀ c ∈ l, s.fget (R.CO_KSTATE.STATE c r.ctx) ≠ 0) ∧ field p 1 1 = 1) ∧
    (∃ (s : State) (ctx : Nat) (c : Nat) (owner : Nat) (tag : Nat), s.regsWf = true ∧
      s.kern.unloads = [(ctx, c, owner, tag)] ∧ s.fget (R.CO_KSTATE.STATE c ctx) ≠ KS.STARTED ∧
      s.coreDrained c ctx = true) ∧
    (∃ (s : State) (x : Start) (c : Nat) (how : Nat), s.regsWf = true ∧ s.kern.starts = [x] ∧ c ∈ x.cores ∧
      (∀ d ∈ x.cores, kget x.ended d ≠ none) ∧ (∀ e ∈ x.ended, e.2 = how) ∧ how < 4) :=
  ⟨⟨((served (running 0x25 regs5 [] (at_ [(R.CORE_ENTRY.CORE 0 3, 53), (R.CORE_ENTRY.CONTEXT 0 3, 5), (R.CORE_ENTRY.VALID 0 3, 1)]))).setReg (R.CO_KSTATE.addr 53 5) 1 : State),
    ({ owner := 1, tag := 2, ctx := 5, payload := leBytes 3 2 ++ leBytes 0x20 2 ++ leBytes 0 4 ++ (List.range 344).map (BitVec.ofNat 8) } : CmdReq),
    (({ owner := 1, tag := 2, ctx := 5, payload := leBytes 3 2 ++ leBytes 0x20 2 ++ leBytes 0 4 ++ (List.range 344).map (BitVec.ofNat 8) } : CmdReq).payload : List Byte),
    ([53] : List Nat), fresh_none (by decide +kernel), by decide +kernel⟩,
   ⟨(served {} : State), ({ owner := 1, tag := 2, ctx := 5 } : CmdReq), fresh_none (by decide +kernel),
     by decide +kernel⟩,
   ⟨(served (running 0x25 regs5) : State),
     ({ owner := 1, tag := 2, ctx := 5, payload := leBytes 3 2 ++ leBytes 0x20 2 ++ leBytes 0 4 } : CmdReq),
     (({ owner := 1, tag := 2, ctx := 5, payload := leBytes 3 2 ++ leBytes 0x20 2 ++ leBytes 0 4 } : CmdReq).payload : List Byte),
     ([53] : List Nat), fresh_none (by decide +kernel), by decide +kernel⟩,
   ⟨(served (running 0x25 regs5) : State),
     ({ owner := 1, tag := 2, ctx := 5, payload := leBytes 0x103 2 ++ leBytes 0x20 2 ++ leBytes 0 4 } : CmdReq),
     (({ owner := 1, tag := 2, ctx := 5, payload := leBytes 0x103 2 ++ leBytes 0x20 2 ++ leBytes 0 4 } : CmdReq).payload : List Byte),
     ([53] : List Nat), fresh_none (by decide +kernel), by decide +kernel⟩,
   ⟨((let s := at_ [(R.CO_KSTATE.STATE 53 5, KS.ENDED)] (running 0x25 regs5 [(16384 + 3, 9)]); { s with host := { tags := [{ owner := 1, tag := 2 }] }, kern := { unloads := [(5, 53, 1, 2)] } }) : State),
     5, 53, 1, 2, by decide +kernel⟩,
   ⟨({ ({} : State) with host := { tags := [{ owner := 1, tag := 2 }] }, kern := { starts := [({ owner := 1, tag := 2, ctx := 5, cores := [53, 54], ended := [(53, 3), (54, 3)], frames := 77, overruns := 4 } : Start)] } } : State),
     ({ owner := 1, tag := 2, ctx := 5, cores := [53, 54], ended := [(53, 3), (54, 3)], frames := 77, overruns := 4 } : Start),
     54, 3, by decide +kernel⟩⟩

/-- Hypotheses of StandardKernelsRun. -/
theorem test_meets_StandardKernelsRun :
    (∃ (s : State) (c : Nat) (ctx : Nat) (l : Load) (n : Nat), s.loadOn c ctx = some l ∧ 2 ≤ l.std ∧
      s.stdRuns c ctx l.std = true ∧ n = kgetD (s.core c).ringNext ctx (rankIn c l) ∧
      (s.kRead (c / 16) ctx (((ringOf l.std l.params).1 + n % (ringOf l.std l.params).2 * 64) % 2 ^ 64) 64).st = ST.OK ∧
      field (s.kRead (c / 16) ctx (((ringOf l.std l.params).1 + n % (ringOf l.std l.params).2 * 64) % 2 ^ 64) 64).bytes 0 8 = n + 1) ∧
    (∃ (s : State) (c : Nat) (ctx : Nat) (l : Load) (n : Nat) (h : Nat) (va : Nat) (o : Nat) (rec_ : List Byte), h = c / 16 ∧
      va = ((ringOf l.std l.params).1 + n % (ringOf l.std l.params).2 * 64) % 2 ^ 64 ∧ rec_ = s.hubRead h o 64 ∧
      OwnBytes s h ctx va 64 o ∧ s.loadOn c ctx = some l ∧ 2 ≤ l.std ∧ s.stdRuns c ctx l.std = true ∧
      n = kgetD (s.core c).ringNext ctx (rankIn c l) ∧ field rec_ 0 8 ≠ n + 1) ∧
    (∃ (s : State) (c : Nat) (ctx : Nat) (l : Load) (n : Nat) (h : Nat) (va : Nat) (o : Nat) (rec_ : List Byte) (f : Nat), h = c / 16 ∧
      va = ((ringOf l.std l.params).1 + n % (ringOf l.std l.params).2 * 64) % 2 ^ 64 ∧ rec_ = s.hubRead h o 64 ∧
      OwnBytes s h ctx va 64 o ∧ OwnBytes s h ctx (field rec_ (flagAt l.std) 8) 8 f ∧ s.loadOn c ctx = some l ∧
      2 ≤ l.std ∧ s.stdRuns c ctx l.std = true ∧ n = kgetD (s.core c).ringNext ctx (rankIn c l) ∧
      field rec_ 0 8 = n + 1 ∧ Memory.wf s.mem = true ∧ (∀ w, w < 16 → s.winLive h w = false)) ∧
    (∃ (s : State) (c : Nat) (ctx : Nat) (l : Load) (b : List Byte) (n : Nat) (h : Nat) (i : Nat) (g : Nat) (w : Nat) (m : Nat) (v : Nat) (o : Nat) (rg : Nat) (rw : Nat) (rm : Nat) (rv : Nat) (x : Nat × Nat × Nat), h = c / 16 ∧
      i = n * field b 40 4 + rankIn c l ∧ rg = leNat (s.hubRead h g 2) * 65536 ∧ rw = leNat (s.hubRead h w 4) ∧
      rm = leNat (s.hubRead h m 2) * 65536 ∧ rv = leNat (s.hubRead h v 2) * 65536 ∧ x = optimize b rg rm rv rw ∧
      OwnBytes s h ctx ((field b 0 8 + i * 2) % 2 ^ 64) 2 g ∧ OwnBytes s h ctx ((field b 8 8 + i * 4) % 2 ^ 64) 4 w ∧
      OwnBytes s h ctx ((field b 16 8 + i * 2) % 2 ^ 64) 2 m ∧
      OwnBytes s h ctx ((field b 24 8 + i * 2) % 2 ^ 64) 2 v ∧
      OwnBytes s h ctx ((field b 32 8 + i * 2) % 2 ^ 64) 2 o ∧ s.loadOn c ctx = some l ∧ l.std = 1 ∧ b = l.params ∧
      s.stdRuns c ctx 1 = true ∧ n = kgetD (s.core c).batch ctx 0 ∧ rankIn c l ≠ 0 ∧ n + 1 < field b 44 4 ∧
      field b 56 8 + (n + 1) * field b 40 4 / 32 ≤ s.fget (R.MS_COUNT.COUNT h (field b 48 2)) ∧
      field b 40 4 / l.cores.length = 1 ∧ bitAt (field b 92 1) 0 = false ∧
      [w / 2, w / 2 + 1, m / 2, v / 2, o / 2].Nodup ∧ Memory.wf s.mem = true ∧ (∀ k, k < 16 → s.winLive h k = false) ∧
      s.outstanding h (obsOf c 2) ctx = [] ∧ s.lostPending h (obsOf c 2) ctx = false ∧ (s.ep h).waits = [] ∧
      s.fget (R.MS_INFO.OWNER h (field b 50 2)) = ctx ∧ field b 50 2 < 4096 ∧ s.regsWf = true) ∧
    (∃ (s : State) (c : Nat) (ctx : Nat) (l : Load) (b : List Byte) (n : Nat), s.loadOn c ctx = some l ∧ l.std = 1 ∧
      b = l.params ∧ s.stdRuns c ctx 1 = true ∧ n = kgetD (s.core c).batch ctx 0 ∧ rankIn c l ≠ 0 ∧
      n + 1 < field b 44 4 ∧
      field b 56 8 + (n + 1) * field b 40 4 / 32 ≤ s.fget (R.MS_COUNT.COUNT (c / 16) (field b 48 2))) ∧
    (∃ (s : State) (c : Nat) (ctx : Nat) (l : Load) (b : List Byte) (n : Nat), s.loadOn c ctx = some l ∧ l.std = 1 ∧
      b = l.params ∧ s.stdRuns c ctx 1 = true ∧ n = kgetD (s.core c).batch ctx 0 ∧ rankIn c l ≠ 0 ∧ n < field b 44 4 ∧
      s.fget (R.MS_COUNT.COUNT (c / 16) (field b 48 2)) < field b 56 8 + (n + 1) * field b 40 4 / 32) ∧
    (∃ (s : State) (c : Nat) (ctx : Nat) (l : Load) (b : List Byte) (n : Nat), s.loadOn c ctx = some l ∧ l.std = 1 ∧
      b = l.params ∧ s.stdRuns c ctx 1 = true ∧ n = kgetD (s.core c).batch ctx 0 ∧ rankIn c l = 0 ∧ n % 2 = 1 ∧
      n / 2 + 1 < field b 44 4 ∧
      field b 96 8 + l.cores.length * (n / 2 + 1) ≤ s.fget (R.MS_COUNT.COUNT (c / 16) (field b 50 2))) ∧
    (∃ (s : State) (c : Nat) (ctx : Nat) (l : Load) (b : List Byte) (n : Nat), s.loadOn c ctx = some l ∧ l.std = 1 ∧
      b = l.params ∧ s.stdRuns c ctx 1 = true ∧ n = kgetD (s.core c).batch ctx 0 ∧ rankIn c l ≠ 0 ∧ field b 44 4 ≤ n ∧
      s.regsWf = true) :=
  ⟨⟨(stdKernel 5 [52, 53] (leBytes 0x100000 8 ++ leBytes 4 4) (let s := at_ [(R.TRANS2.GA_BASE 3 0, 131 * 2 ^ 32)] (mapped {}); s.hubWrite 3 (1 * 64) (leBytes 2 8)) : State),
    53, 5,
    (((stdKernel 5 [52, 53] (leBytes 0x100000 8 ++ leBytes 4 4) (let s := at_ [(R.TRANS2.GA_BASE 3 0, 131 * 2 ^ 32)] (mapped {}); s.hubWrite 3 (1 * 64) (leBytes 2 8)) : State).kern.loads[0]?).getD {} : Load),
    1, by decide +kernel⟩,
   ⟨(stdKernel 5 [52, 53] (leBytes 0x100000 8 ++ leBytes 4 4) (let s := at_ [(R.TRANS2.GA_BASE 3 0, 131 * 2 ^ 32), (R.MS_INFO.OWNER 3 10, 5)] (mapped {}); s.hubWrite 3 (1 * 64) (leBytes 1 8)) : State),
     53, 5,
     (((stdKernel 5 [52, 53] (leBytes 0x100000 8 ++ leBytes 4 4) (let s := at_ [(R.TRANS2.GA_BASE 3 0, 131 * 2 ^ 32), (R.MS_INFO.OWNER 3 10, 5)] (mapped {}); s.hubWrite 3 (1 * 64) (leBytes 1 8)) : State).kern.loads[0]?).getD {} : Load),
     1, _, _, 64, _, rfl, rfl, rfl, by unfold OwnBytes; decide +kernel, by decide +kernel⟩,
   ⟨(stdKernel 5 [52, 53] (leBytes 0x100000 8 ++ leBytes 4 4) (let s := at_ [(R.TRANS2.GA_BASE 3 0, 131 * 2 ^ 32), (R.MS_INFO.OWNER 3 10, 5)] (mapped {}); s.hubWrite 3 (1 * 64) (leBytes 2 8 ++ List.replicate (flagAt 5 - 8) 0 ++ leBytes 0x100200 8)) : State),
     53, 5,
     (((stdKernel 5 [52, 53] (leBytes 0x100000 8 ++ leBytes 4 4) (let s := at_ [(R.TRANS2.GA_BASE 3 0, 131 * 2 ^ 32), (R.MS_INFO.OWNER 3 10, 5)] (mapped {}); s.hubWrite 3 (1 * 64) (leBytes 2 8 ++ List.replicate (flagAt 5 - 8) 0 ++ leBytes 0x100200 8)) : State).kern.loads[0]?).getD {} : Load),
     1, _, _, 64, _, 0x200, rfl, rfl, rfl, by unfold OwnBytes; decide +kernel, by unfold OwnBytes; decide +kernel,
     by decide +kernel⟩,
   ⟨(stdKernel 1 [52, 53] (leBytes 0x100000 8 ++ leBytes 0x100100 8 ++ leBytes 0x100200 8 ++ leBytes 0x100300 8 ++ leBytes 0x100400 8 ++ leBytes 2 4 ++ leBytes 6 4 ++ leBytes 9 2 ++ leBytes 10 2 ++ leBytes 11 2 ++ leBytes 0 2 ++ leBytes 0 192) (let s := at_ [(R.TRANS2.GA_BASE 3 0, 131 * 2 ^ 32), (R.MS_INFO.OWNER 3 10, 5)] (mapped {}); (s.hubWrite 3 2 (leBytes 0x3F80 2)).hubWrite 3 0x104 (leBytes 0x40000000 4)) : State),
     53, 5,
     (((stdKernel 1 [52, 53] (leBytes 0x100000 8 ++ leBytes 0x100100 8 ++ leBytes 0x100200 8 ++ leBytes 0x100300 8 ++ leBytes 0x100400 8 ++ leBytes 2 4 ++ leBytes 6 4 ++ leBytes 9 2 ++ leBytes 10 2 ++ leBytes 11 2 ++ leBytes 0 2 ++ leBytes 0 192) (let s := at_ [(R.TRANS2.GA_BASE 3 0, 131 * 2 ^ 32), (R.MS_INFO.OWNER 3 10, 5)] (mapped {}); (s.hubWrite 3 2 (leBytes 0x3F80 2)).hubWrite 3 0x104 (leBytes 0x40000000 4)) : State).kern.loads[0]?).getD {} : Load),
     ((((stdKernel 1 [52, 53] (leBytes 0x100000 8 ++ leBytes 0x100100 8 ++ leBytes 0x100200 8 ++ leBytes 0x100300 8 ++ leBytes 0x100400 8 ++ leBytes 2 4 ++ leBytes 6 4 ++ leBytes 9 2 ++ leBytes 10 2 ++ leBytes 11 2 ++ leBytes 0 2 ++ leBytes 0 192) (let s := at_ [(R.TRANS2.GA_BASE 3 0, 131 * 2 ^ 32), (R.MS_INFO.OWNER 3 10, 5)] (mapped {}); (s.hubWrite 3 2 (leBytes 0x3F80 2)).hubWrite 3 0x104 (leBytes 0x40000000 4)) : State).kern.loads[0]?).getD {} : Load).params : List Byte),
     0, _, _, 2, 0x104, 0x202, 0x302, 0x402, _, _, _, _, _, rfl, rfl, rfl, rfl, rfl, rfl, rfl,
     by unfold OwnBytes; decide +kernel, by unfold OwnBytes; decide +kernel, by unfold OwnBytes; decide +kernel,
     by unfold OwnBytes; decide +kernel, by unfold OwnBytes; decide +kernel, by decide +kernel, by decide +kernel,
     by decide +kernel, by decide +kernel, by decide +kernel, by decide +kernel, by decide +kernel, by decide +kernel,
     by decide +kernel, by decide +kernel⟩,
   ⟨(stdKernel 1 [52, 53] (leBytes 0 40 ++ leBytes 128 4 ++ leBytes 6 4 ++ leBytes 9 2 ++ leBytes 10 2 ++ leBytes 11 2 ++ leBytes 0 2 ++ leBytes 0 192) (at_ [(R.MS_COUNT.COUNT 3 9, 4), (R.MS_INFO.OWNER 3 10, 5)]) : State),
     53, 5,
     (((stdKernel 1 [52, 53] (leBytes 0 40 ++ leBytes 128 4 ++ leBytes 6 4 ++ leBytes 9 2 ++ leBytes 10 2 ++ leBytes 11 2 ++ leBytes 0 2 ++ leBytes 0 192) (at_ [(R.MS_COUNT.COUNT 3 9, 4), (R.MS_INFO.OWNER 3 10, 5)]) : State).kern.loads[0]?).getD {} : Load),
     ((((stdKernel 1 [52, 53] (leBytes 0 40 ++ leBytes 128 4 ++ leBytes 6 4 ++ leBytes 9 2 ++ leBytes 10 2 ++ leBytes 11 2 ++ leBytes 0 2 ++ leBytes 0 192) (at_ [(R.MS_COUNT.COUNT 3 9, 4), (R.MS_INFO.OWNER 3 10, 5)]) : State).kern.loads[0]?).getD {} : Load).params : List Byte),
     0, by decide +kernel⟩,
   ⟨(stdKernel 1 [52, 53] ((leBytes 0 40 ++ leBytes 128 4 ++ leBytes 6 4 ++ leBytes 9 2 ++ leBytes 10 2 ++ leBytes 11 2 ++ leBytes 0 2 ++ leBytes 0 192).set 56 1) {} : State),
     53, 5,
     (((stdKernel 1 [52, 53] ((leBytes 0 40 ++ leBytes 128 4 ++ leBytes 6 4 ++ leBytes 9 2 ++ leBytes 10 2 ++ leBytes 11 2 ++ leBytes 0 2 ++ leBytes 0 192).set 56 1) {} : State).kern.loads[0]?).getD {} : Load),
     ((((stdKernel 1 [52, 53] ((leBytes 0 40 ++ leBytes 128 4 ++ leBytes 6 4 ++ leBytes 9 2 ++ leBytes 10 2 ++ leBytes 11 2 ++ leBytes 0 2 ++ leBytes 0 192).set 56 1) {} : State).kern.loads[0]?).getD {} : Load).params : List Byte),
     0, by decide +kernel⟩,
   ⟨((let s := stdKernel 1 [53, 54] (leBytes 0 40 ++ leBytes 128 4 ++ leBytes 6 4 ++ leBytes 9 2 ++ leBytes 10 2 ++ leBytes 11 2 ++ leBytes 0 2 ++ leBytes 0 192) (at_ [(R.MS_COUNT.COUNT 3 10, 2), (R.MS_INFO.OWNER 3 11, 5)]); s.setCore 53 { s.core 53 with batch := [(5, 1)] }) : State),
     53, 5,
     ((((let s := stdKernel 1 [53, 54] (leBytes 0 40 ++ leBytes 128 4 ++ leBytes 6 4 ++ leBytes 9 2 ++ leBytes 10 2 ++ leBytes 11 2 ++ leBytes 0 2 ++ leBytes 0 192) (at_ [(R.MS_COUNT.COUNT 3 10, 2), (R.MS_INFO.OWNER 3 11, 5)]); s.setCore 53 { s.core 53 with batch := [(5, 1)] }) : State).kern.loads[0]?).getD {} : Load),
     (((((let s := stdKernel 1 [53, 54] (leBytes 0 40 ++ leBytes 128 4 ++ leBytes 6 4 ++ leBytes 9 2 ++ leBytes 10 2 ++ leBytes 11 2 ++ leBytes 0 2 ++ leBytes 0 192) (at_ [(R.MS_COUNT.COUNT 3 10, 2), (R.MS_INFO.OWNER 3 11, 5)]); s.setCore 53 { s.core 53 with batch := [(5, 1)] }) : State).kern.loads[0]?).getD {} : Load).params : List Byte),
     1, by decide +kernel⟩,
   ⟨((let s := stdKernel 1 [52, 53] (leBytes 0 40 ++ leBytes 128 4 ++ leBytes 6 4 ++ leBytes 9 2 ++ leBytes 10 2 ++ leBytes 11 2 ++ leBytes 0 2 ++ leBytes 0 192) {}; s.setCore 53 { s.core 53 with batch := [(5, 6)] }) : State),
     53, 5,
     ((((let s := stdKernel 1 [52, 53] (leBytes 0 40 ++ leBytes 128 4 ++ leBytes 6 4 ++ leBytes 9 2 ++ leBytes 10 2 ++ leBytes 11 2 ++ leBytes 0 2 ++ leBytes 0 192) {}; s.setCore 53 { s.core 53 with batch := [(5, 6)] }) : State).kern.loads[0]?).getD {} : Load),
     (((((let s := stdKernel 1 [52, 53] (leBytes 0 40 ++ leBytes 128 4 ++ leBytes 6 4 ++ leBytes 9 2 ++ leBytes 10 2 ++ leBytes 11 2 ++ leBytes 0 2 ++ leBytes 0 192) {}; s.setCore 53 { s.core 53 with batch := [(5, 6)] }) : State).kern.loads[0]?).getD {} : Load).params : List Byte),
     6, by decide +kernel⟩⟩

/-- Hypotheses of CommandsAndTags. -/
theorem test_meets_CommandsAndTags :
    (∃ (s : State) (port : Nat) (addr : Nat) (udp : Nat) (i : Nat) (b : List Byte) (h : Hdr) (r : CmdReq) (j : Instr), h = hdrOf beNat b ∧
      r = h.cmd i (b.drop 32) { port := port, addr := addr, udp := udp } ∧ s.hostOn port = true ∧ 32 ≤ b.length ∧
      h.magic = 0x4A58 ∧ s.allowed addr = some i ∧ s.unitInReset U.CONTROL 0 = false ∧ h.refusal = none ∧
      s.maySend i h = true ∧ s.findTag i h.tag = none ∧ fragOk h (b.length - 32) = true ∧ h.length ≤ 1024 ∧
      h.argOk = true ∧ s.stateRefusal r = none ∧ s.tagsFull r = false ∧ ((h.opcode = 0x01 ∧
      j = .identify r) ∨ (h.opcode = 0x02 ∧ j = .regRead r) ∨ (h.opcode = 0x03 ∧ j = .regWrite r) ∨ (h.opcode = 0x10 ∧
      j = .planLoad r) ∨ (h.opcode = 0x11 ∧ j = .planAccept r) ∨ (h.opcode = 0x12 ∧
      j = .signpostLoad r) ∨ (h.opcode = 0x20 ∧ j = .timetableLoad r) ∨ (h.opcode = 0x21 ∧
      j = .timetableSwap r) ∨ (h.opcode = 0x30 ∧ j = .groupLoad r) ∨ (h.opcode = 0x31 ∧
      j = .instanceArm r) ∨ (h.opcode = 0x40 ∧ j = .contextCreate r) ∨ (h.opcode = 0x41 ∧
      j = .contextScrub r) ∨ (h.opcode = 0x50 ∧ j = .kernelLoad r) ∨ (h.opcode = 0x51 ∧
      j = .kernelStart r) ∨ (h.opcode = 0x52 ∧ j = .kernelStop r) ∨ (h.opcode = 0x60 ∧
      j = .memRead r) ∨ (h.opcode = 0x61 ∧ j = .memWrite r) ∨ (h.opcode = 0x70 ∧ j = .linkTest r) ∨ (h.opcode = 0x71 ∧
      j = .wiringVerify r) ∨ (h.opcode = 0x72 ∧ j = .connectorInspect r) ∨ (h.opcode = 0x80 ∧
      j = .almanacWindow r) ∨ (h.opcode = 0x81 ∧ j = .vigilConfirm r) ∨ (h.opcode = 0x90 ∧
      j = .attest r) ∨ (h.opcode = 0xA0 ∧ j = .fwStage r) ∨ (h.opcode = 0xA1 ∧ j = .fwActivate r) ∨ (h.opcode = 0xB0 ∧
      j = .resetPartial r) ∨ (h.opcode = 0xB1 ∧ j = .powerPolicy r) ∨ (h.opcode = 0xF0 ∧
      j = .resultRead r) ∨ (h.opcode = 0xF1 ∧ j = .tagRetire r))) ∧
    (∃ (s : State) (port : Nat) (addr : Nat) (udp : Nat) (i : Nat) (b : List Byte) (h : Hdr) (r : CmdReq), h = hdrOf beNat b ∧
      r = h.cmd i (b.drop 32) { port := port, addr := addr, udp := udp } ∧ s.hostOn port = true ∧ 32 ≤ b.length ∧
      h.magic = 0x4A58 ∧ s.allowed addr = some i ∧ s.unitInReset U.CONTROL 0 = false ∧ h.refusal = none ∧
      s.maySend i h = true ∧ s.findTag i h.tag = none ∧ fragOk h (b.length - 32) = true ∧ h.length ≤ 1024 ∧
      h.argOk = true ∧ s.stateRefusal r = none ∧ h.opcode = 0x01 ∧ (s.acceptCmd i).ctxRefusal r.ctx = none) ∧
    (∃ (s : State) (port : Nat) (b : List Byte), s.regsWf = true ∧ s.hostOn port = true ∧
      (b.length < 32 ∨ beNat (bytesAt b 0 2) ≠ 0x4A58) ∧ s.fget R.HE_STATS.MALFORMED + 1 < 2 ^ 16) ∧
    (∃ (s : State) (port : Nat) (addr : Nat) (b : List Byte), s.regsWf = true ∧ s.hostOn port = true ∧ 32 ≤ b.length ∧
      beNat (bytesAt b 0 2) = 0x4A58 ∧ s.allowed addr = none ∧ s.fget R.HE_STATS.NOT_LISTED + 1 < 2 ^ 16) ∧
    (∃ (s : State) (r : CmdReq) (x : TagSt), s.findTag r.owner (r.arg % 65536) = some x ∧ x.done = true) ∧
    (∃ (s : State) (r : CmdReq) (x : TagSt), s.findTag r.owner (r.arg % 65536) = some x ∧ x.done = false) ∧
    (∃ (s : State) (r : CmdReq), s.findTag r.owner (r.arg % 65536) = none) ∧
    (∃ (s : State) (r : CmdReq) (l : List Nat), retireList r.payload = some l ∧ l.Nodup ∧
      (∀ x ∈ l, ∃ y, s.findTag r.owner x = some y ∧ y.done = true)) ∧
    (∃ (s : State) (r : CmdReq), s.ctxRefusal r.ctx = none) ∧
    (∃ (s : State) (m : MemCmd), s.host.memCmds = [m] ∧ m.qp = 0 ∧ m.size ≤ m.issued ∧ m.left = 0 ∧
      s.si.pendingAtt = [] ∧ s.jobOf 2 m.owner m.tag = none) :=
  ⟨⟨(listed (inState SS.SERVICE) : State), 0, 77, 5, 2, (packet 0x10 (leBytes 3 8) : List Byte), _, _,
    (.planLoad ((hdrOf beNat (packet 0x10 (leBytes 3 8) : List Byte) : Hdr).cmd 2 ((packet 0x10 (leBytes 3 8) : List Byte).drop 32) { port := 0, addr := 77, udp := 5 } : CmdReq) : Instr),
    rfl, rfl, by decide +kernel, by decide +kernel, by decide +kernel, by decide +kernel, by decide +kernel,
    by decide +kernel, by decide +kernel, by decide +kernel, by decide +kernel, by decide +kernel, by decide +kernel,
    by decide +kernel, by decide +kernel, by decide +kernel⟩,
   ⟨(listed (inState SS.SERVICE) : State), 0, 77, 5, 2, (packet 0x01 [] : List Byte), _, _, rfl, rfl,
     by decide +kernel, by decide +kernel, by decide +kernel, by decide +kernel, by decide +kernel⟩,
   ⟨(inState SS.SERVICE : State), 0, ((List.replicate 40 0) : List Byte), by decide +kernel⟩,
   ⟨(inState SS.SERVICE : State), 0, 77, (packet 0xB1 (leBytes 3 8) : List Byte), by decide +kernel⟩,
   ⟨({ ({} : State) with host := { tags := [({ owner := 1, tag := 9, done := true, status := 3, result := [1, 2] } : TagSt)] } } : State),
     ({ owner := 1, arg := 9 } : CmdReq),
     ({ owner := 1, tag := 9, done := true, status := 3, result := [1, 2] } : TagSt), by decide +kernel⟩,
   ⟨({ ({} : State) with host := { tags := [({ owner := 1, tag := 9, n := 40 } : TagSt)] } } : State),
     ({ owner := 1, arg := 9 } : CmdReq), ({ owner := 1, tag := 9, n := 40 } : TagSt), by decide +kernel⟩,
   ⟨({} : State), ({ owner := 1, arg := 9 } : CmdReq), by decide +kernel⟩,
   ⟨({ ({} : State) with host := { tags := [{ owner := 1, tag := 9, done := true }, { owner := 1, tag := 7, done := true }, { owner := 2, tag := 7, done := true }, { owner := 1, tag := 5 }] } } : State),
     ({ owner := 1, payload := leBytes 2 2 ++ leBytes 9 2 ++ leBytes 7 2 } : CmdReq), ([9, 7] : List Nat),
     by decide +kernel⟩,
   ⟨(inState SS.SERVICE (clock 99 {}) : State), ({ owner := 1 } : CmdReq), by decide +kernel⟩,
   ⟨({ ({} : State) with host := { tags := [{ owner := 1, tag := 9 }], memCmds := [({ owner := 1, tag := 9, size := 4, issued := 4, data := [(0, 7), (2, 8)], status := 7, cut := some 3 } : MemCmd)] } } : State),
     ({ owner := 1, tag := 9, size := 4, issued := 4, data := [(0, 7), (2, 8)], status := 7, cut := some 3 } : MemCmd),
     by decide +kernel⟩⟩

/-- Hypotheses of RegistersReadAndWritten. -/
theorem test_meets_RegistersReadAndWritten :
    (∃ (s : State) (a : Nat), PlainReg a ∧ s.regsWf = true ∧ s.regSilent a = false ∧ SS.INIT ≤ s.sled ∧
      s.bmOpen a = true) ∧
    (∃ (s : State) (a : Nat) (v : W64) (r : CmdReq), PlainReg a ∧ Fresh s r ∧ s.regsWf = true ∧
      s.regSilent a = false ∧ SS.INIT ≤ s.sled ∧ r.payload.length = 16 ∧ field r.payload 0 8 = a ∧
      field r.payload 8 8 = v.toNat) ∧
    (∃ (s : State) (a : Nat) (r : CmdReq), Fresh s r ∧ s.regsWf = true ∧ s.regSilent a = false ∧ a % 8 = 0 ∧
      a < 2 ^ 32 ∧ SS.OFF ≠ s.sled ∧ s.bmOpen a = true ∧
      ((regFields a).Pairwise (fun f g => f.hi < g.lo ∨ g.hi < f.lo)) ∧ (∀ f ∈ regFields a, f.lo ≤ f.hi ∧ f.hi < 64) ∧
      r.payload = leBytes a 4) ∧
    (∃ (s : State) (a : Nat), s.regsWf = true ∧ s.regSilent a = false ∧ a % 8 ≠ 0 ∧ a < 2 ^ 32) ∧
    (∃ (s : State) (a : Nat) (r : CmdReq), Fresh s r ∧ s.regsWf = true ∧ s.regSilent a = false ∧ a % 8 ≠ 0 ∧
      a < 2 ^ 32 ∧ r.payload = leBytes a 4) ∧
    (∃ (s : State) (a : Nat) (r : CmdReq), Fresh s r ∧ s.regsWf = true ∧ s.regSilent a = false ∧ a % 8 ≠ 0 ∧
      a < 2 ^ 32 ∧ r.payload.length = 16 ∧ field r.payload 0 8 = a) :=
  ⟨⟨(inState SS.SERVICE : State), (R.TRANS0.addr 3 9 : Nat), by unfold PlainReg; decide +kernel, by decide +kernel⟩,
   ⟨(inState SS.SERVICE : State), (R.TRANS0.addr 3 9 : Nat), (0xFEDCBA9876543210 : W64),
     ({ owner := 1, tag := 2, payload := leBytes (R.TRANS0.addr 3 9 : Nat) 8 ++ leBytes (0xFEDCBA9876543210 : W64).toNat 8 } : CmdReq),
     by unfold PlainReg; decide +kernel, fresh_none (by decide +kernel), by decide +kernel⟩,
   ⟨(inState SS.SERVICE (at_ [(⟨0x28, 47, 16⟩, 77)]) : State), 0x28,
     ({ owner := 1, tag := 2, payload := leBytes 0x28 4 } : CmdReq), fresh_none (by decide +kernel),
     by decide +kernel⟩,
   ⟨(inState SS.SERVICE : State), 12, by decide +kernel⟩,
   ⟨(inState SS.SERVICE : State), 12, ({ owner := 1, tag := 2, payload := leBytes 12 4 } : CmdReq),
     fresh_none (by decide +kernel), by decide +kernel⟩,
   ⟨(inState SS.SERVICE : State), 12, ({ owner := 1, tag := 2, payload := leBytes 12 8 ++ leBytes 5 8 } : CmdReq),
     fresh_none (by decide +kernel), by decide +kernel⟩⟩

/-- Hypotheses of HostPortsRun. -/
theorem test_meets_HostPortsRun :
    (∃ (s : State) (p : Nat), s.regsWf = true ∧ p < 2 ∧ SS.INIT ≤ s.sled) ∧
    (∃ (s : State) (f : EthFrame), s.regsWf = true ∧ s.hostOn f.port = true ∧ s.vlanOk f.vlan = true ∧
      f.bytes ≤ 9216 ∧ f.proto = 3) ∧
    (∃ (s : State) (f : EthFrame), s.regsWf = true ∧ s.hostOn f.port = true ∧ s.vlanOk f.vlan = true ∧
      f.bytes ≤ 9216 ∧ f.proto < 3 ∧ s.ownAddr f.port (f.proto == 0 || (f.proto == 2 && f.ipv4)) f.target = true) ∧
    (∃ (s : State) (f : EthFrame), s.regsWf = true ∧ s.hostOn f.port = true ∧ s.vlanOk f.vlan = true ∧
      f.bytes ≤ 9216 ∧ 3 < f.proto) ∧
    (∃ (s : State) (f : EthFrame), s.regsWf = true ∧ s.vlanOk f.vlan = false) ∧
    (∃ (s : State), s.regsWf = true ∧ SS.INIT ≤ s.sled ∧ s.host.lastLldp + 30000000 ≤ s.now) ∧
    (∃ (s : State) (m : PtpMsg) (tt : Nat), s.regsWf = true ∧ s.hostOn m.port = true ∧
      m.domain = s.fget R.HE_CTL.PTP_DOMAIN ∧ m.selected = true ∧ m.utcOffsetValid = true ∧ m.sync = some tt ∧
      1000 * m.utcOffset ≤ tt ∧ s.timeValid = false) ∧
    (∃ (s : State), s.regsWf = true ∧ SS.INIT ≤ s.sled ∧ s.ptpLocked = true ∧
      s.fget R.HE_STATS.TIME_IGNORED + 1 < 2 ^ 16) ∧
    (∃ (s : State) (v : W64), s.regsWf = true ∧ SS.INIT ≤ s.sled ∧ s.ptpLocked = false ∧ s.timeValid = true ∧
      v.toNat < 2 ^ 48 ∧ v.toNat ≤ s.fget R.HE_TIME.UTC_MS + 1000 ∧ s.fget R.HE_TIME.UTC_MS ≤ v.toNat + 1000) ∧
    (∃ (s : State) (v : W64), s.regsWf = true ∧ SS.INIT ≤ s.sled ∧ s.ptpLocked = false ∧ s.timeValid = true ∧
      v.toNat < 2 ^ 48 ∧ s.fget R.HE_TIME.UTC_MS + 1000 < v.toNat) ∧
    (∃ (s : State) (i : Nat) (k : Nat) (v : W64), s.regsWf = true ∧ i < 32 ∧ k < 4 ∧
      definedBits (R.HE_ALLOW0.addr i + 8 * k) v.toNat % 2 ^ 64 ≠ (s.reg (R.HE_ALLOW0.addr i + 8 * k)).toNat) ∧
    (∃ (s : State) (q : Nat) (v : W64), s.regsWf = true ∧ q < 256 ∧ bitsOf v.toNat 9 8 = 0) ∧
    (∃ (s : State) (q : Nat) (v : W64), s.regsWf = true ∧ q < 256 ∧ s.fget (R.HE_QP0.STATE q) = 0 ∧
      bitsOf v.toNat 9 8 = 1) ∧
    (∃ (s : State) (q : Nat) (v : W64), s.regsWf = true ∧ q < 256 ∧ s.fget (R.HE_QP0.STATE q) = 2 ∧
      bitsOf v.toNat 9 8 ≠ 0) :=
  ⟨⟨({} : State), 1, by decide +kernel⟩,
   ⟨({} : State), ({ proto := 3, lldpPort := 70000, lldpChassis := 4 } : EthFrame), by decide +kernel⟩,
   ⟨(at_ [(R.HE_ADDR1.IPV4 0, 0x0A000001)] : State), ({ proto := 0, target := 0x0A000001 } : EthFrame),
     by decide +kernel⟩,
   ⟨({} : State), ({ proto := 4 } : EthFrame), by decide +kernel⟩,
   ⟨({} : State), ({ proto := 3, vlan := some 9 } : EthFrame), by decide +kernel⟩,
   ⟨(clock 30000000 (at_ [(R.HE_PORT.LINK_UP 1, 1)]) : State), by decide +kernel⟩,
   ⟨({} : State), ({ sync := some 5000037000, utcOffset := 37, utcOffsetValid := true } : PtpMsg), 5000037000,
     by decide +kernel⟩,
   ⟨({ ({} : State) with host := { lastMaster := some 0 } } : State), by decide +kernel⟩,
   ⟨(at_ [(R.HE_TIME.UTC_MS, 5000), (R.HE_TIME.VALID, 1)] : State), (4000 : W64), by decide +kernel⟩,
   ⟨(at_ [(R.HE_TIME.UTC_MS, 5000), (R.HE_TIME.VALID, 1)] : State), (6001 : W64), by decide +kernel⟩,
   ⟨({ ({} : State) with host := { tags := [{ owner := 3, tag := 1 }, { owner := 4, tag := 2 }] } } : State), 3, 0,
     (0x0301 : W64), by decide +kernel⟩,
   ⟨({ paired {} with host := { memCmds := [{ qp := 8 }, { qp := 9 }], writes := [(7, 3, 4)] } } : State), 7,
     (0x123456AABBCCFF : W64), by decide +kernel⟩,
   ⟨({} : State), 7, (0x12345600000001FF : W64), by decide +kernel⟩,
   ⟨(at_ [(R.HE_QP0.STATE 7, 2), (R.HE_QP0.EPSN 7, 5)] : State), 7, (0x12345600000001FF : W64), by decide +kernel⟩⟩

/-- Hypotheses of MemoryFromTheHost. -/
theorem test_meets_MemoryFromTheHost :
    (∃ (s : State) (r : CmdReq) (p : List Byte) (w : Bool) (i : Instr), p = r.payload ∧
      i = (if w then .memWrite r else .memRead r) ∧ Fresh s r ∧ s.regsWf = true ∧ s.now < (s.ep 16).quietUntil ∧
      p.length = (if w then 16 + field p 8 4 else 16) ∧ 1 ≤ field p 8 4 ∧ field p 8 4 ≤ 2 ^ 20 ∧
      s.ctxRefusal r.ctx = none ∧ s.rangeStatus r.ctx (field p 12 1) (field p 0 8) (field p 8 4) w = ST.OK ∧
      r.ctx = 0 ∧ s.host.memCmds = [] ∧ linePiece (field p 0 8) (field p 8 4) = field p 8 4) ∧
    (∃ (s : State) (r : CmdReq) (p : List Byte) (w : Bool) (i : Instr) (st : Nat), p = r.payload ∧
      i = (if w then .memWrite r else .memRead r) ∧ Fresh s r ∧ s.regsWf = true ∧ s.now < (s.ep 16).quietUntil ∧
      p.length = (if w then 16 + field p 8 4 else 16) ∧ 1 ≤ field p 8 4 ∧ field p 8 4 ≤ 2 ^ 20 ∧
      s.ctxRefusal r.ctx = none ∧ s.rangeStatus r.ctx (field p 12 1) (field p 0 8) (field p 8 4) w = st ∧
      st ≠ ST.OK) ∧
    (∃ (s : State) (p : RdmaPkt), s.regsWf = true ∧ s.now < (s.ep 16).quietUntil ∧ s.qpTakes p = true ∧
      s.psnPlace p = 0 ∧ p.place = 0 ∧ kget s.host.writes p.qp = none ∧ s.regionStatus p true = true ∧
      p.data.length = p.dlen ∧ p.dlen ≤ 4096) ∧
    (∃ (s : State) (p : RdmaPkt), s.regsWf = true ∧ s.now < (s.ep 16).quietUntil ∧ s.qpTakes p = true ∧
      s.psnPlace p = 0 ∧ kget s.host.writes p.qp = none ∧ (∀ m ∈ s.host.memCmds, m.qp ≠ p.qp + 1) ∧ p.dlen ≤ 2 ^ 31 ∧
      s.regionStatus p false = true) ∧
    (∃ (s : State) (p : RdmaPkt) (i : Instr) (nak : Nat), s.regsWf = true ∧ s.now < (s.ep 16).quietUntil ∧
      s.qpTakes p = true ∧ s.fget R.HE_STATS.RDMA_ERR + 1 < 2 ^ 16 ∧ ((i = .rdmaUnsupported p ∧
      nak = 2) ∨ (i = .rdmaWrite p ∧ s.psnPlace p = 0 ∧ p.place = 0 ∧ kget s.host.writes p.qp = none ∧
      s.regionStatus p true = false ∧ nak = 3) ∨ (i = .rdmaWrite p ∧ s.psnPlace p = 0 ∧ p.place = 2 ∧
      kget s.host.writes p.qp = none ∧ nak = 2))) ∧
    (∃ (s : State) (p : RdmaPkt), s.regsWf = true ∧ s.now < (s.ep 16).quietUntil ∧ s.qpTakes p = true ∧
      s.psnPlace p = 2) :=
  ⟨⟨({} : State),
    ({ owner := 1, tag := 2, payload := leBytes 0x1000 8 ++ leBytes 8 4 ++ leBytes 3 4 ++ leBytes 0x1122334455667788 8 } : CmdReq),
    _, true, _, rfl, rfl, fresh_none (by decide +kernel), by decide +kernel⟩,
   ⟨({} : State), ({ owner := 1, tag := 2, payload := leBytes 0x1000 8 ++ leBytes 8 4 ++ leBytes 17 4 } : CmdReq), _,
     false, _, ST.BAD_PARAM, rfl, rfl, fresh_none (by decide +kernel), by decide +kernel⟩,
   ⟨(paired {} : State),
     ({ qp := 7, psn := 3, va := 0x100040, rkey := 0x55, dlen := 4, data := [1, 2, 3, 4] } : RdmaPkt),
     by decide +kernel⟩,
   ⟨(paired {} : State), ({ qp := 7, psn := 3, va := 0x100040, rkey := 0x55, dlen := 5000 } : RdmaPkt),
     by decide +kernel⟩,
   ⟨(paired {} : State),
     ({ qp := 7, psn := 3, va := 0x200040, rkey := 0x55, dlen := 4, data := [1, 2, 3, 4] } : RdmaPkt),
     (.rdmaWrite ({ qp := 7, psn := 3, va := 0x200040, rkey := 0x55, dlen := 4, data := [1, 2, 3, 4] } : RdmaPkt) : Instr),
     3, by decide +kernel⟩,
   ⟨(paired {} : State),
     ({ qp := 7, psn := 5, va := 0x100040, rkey := 0x55, dlen := 4, data := [1, 2, 3, 4] } : RdmaPkt),
     by decide +kernel⟩⟩

/-- Hypotheses of SledStates (SledBoots). -/
theorem test_meets_SledBoots :
    (∃ (s : State) (v : Nat), s.regsWf = true ∧ s.sled = SS.OFF ∧ 4600 ≤ v ∧ v ≤ 5800) ∧
    (∃ (s : State) (st : Straps), s.regsWf = true ∧ s.sled ≠ SS.OFF ∧ s.sled ≠ SS.STANDBY ∧ st ≠ s.boot.straps) ∧
    (∃ (s : State) (chk : BootCheck), s.regsWf = true ∧ s.bootReady = true ∧ chk.railFail = true) ∧
    (∃ (s : State) (chk : BootCheck) (k : Nat), s.regsWf = true ∧ s.bootReady = true ∧ chk.railFail = false ∧
      s.boot.act = none ∧ k = s.fget R.CP_FW.PREFERRED ∧ s.bootOk chk k = true) ∧
    (∃ (s : State) (chk : BootCheck), s.regsWf = true ∧ s.bootReady = true ∧ chk.railFail = false ∧
      s.boot.act = none ∧ s.bootOk chk 0 = false ∧ s.bootOk chk 1 = false) ∧
    (∃ (s : State) (v : Bool), s.regsWf = true ∧ (v = true ∨ s.sled ≠ SS.HALT)) ∧
    (∃ (s : State), s.regsWf = true ∧ s.sled = SS.HALT ∧ s.power.cool = true) ∧
    (∃ (s : State), s.regsWf = true ∧ s.sled = SS.INIT ∧ s.boot.act = none) :=
  ⟨⟨(inState SS.OFF : State), 4600, by decide +kernel⟩,
   ⟨(inState SS.SERVICE : State), ({ slotId := 3 } : Straps), by decide +kernel⟩,
   ⟨(at_ [(R.PT_COOLANT.FLOW, 40), (R.PT_COOLANT.INLET, 20)] (inState SS.STANDBY { ({} : State) with boot := { inputOk := true, presentLow := true, railFails := 2 } }) : State),
     ({ railFail := true } : BootCheck), by decide +kernel⟩,
   ⟨(at_ [(R.PT_COOLANT.FLOW, 40), (R.PT_COOLANT.INLET, 20)] (inState SS.STANDBY { clock 77 {} with boot := { inputOk := true, presentLow := true, railFails := 2 } }) : State),
     ({} : BootCheck), 0, by decide +kernel⟩,
   ⟨(at_ [(R.PT_COOLANT.FLOW, 40), (R.PT_COOLANT.INLET, 20)] (inState SS.STANDBY { clock 77 {} with boot := { inputOk := true, presentLow := true, railFails := 2 } }) : State),
     ({ slotAok := false, slotBok := false } : BootCheck), by decide +kernel⟩,
   ⟨(inState SS.SERVICE : State), false, by decide +kernel⟩,
   ⟨(inState SS.HALT { ({} : State) with power := { cool := true } } : State), by decide +kernel⟩,
   ⟨(at_ [(⟨R.CP_LOCATION.addr, 17, 17⟩, 0)] : State), by decide +kernel⟩⟩

/-- Hypotheses of SledStates (SledLeavesService). -/
theorem test_meets_SledLeavesService :
    (∃ (s : State), s.regsWf = true ∧ (s.sled = SS.PLAN_CHECK ∨ s.sled = SS.SERVICE ∨ s.sled = SS.DEGRADED)) ∧
    (∃ (s : State), s.regsWf = true ∧ s.sled ≠ SS.PLAN_CHECK ∧ s.sled ≠ SS.SERVICE ∧ s.sled ≠ SS.DEGRADED) ∧
    (∃ (s : State), s.regsWf = true ∧ s.sled = SS.MAINTENANCE ∧ s.strapConflict = false ∧
      s.fget R.SG_STATUS.DUP_PLANE = 0 ∧ s.fget R.CP_STATE.RECOVERY = 0) ∧
    (∃ (s : State), s.regsWf = true ∧ (s.sled ≠ SS.MAINTENANCE ∨ s.strapConflict = true)) ∧
    (∃ (s : State) (d : Drain), s.regsWf = true ∧ s.boot.drain = some d ∧ s.sled = SS.DRAIN ∧ d.endAt ≤ s.now ∧
      s.rd.insts = [] ∧ d.cause = 1) ∧
    (∃ (s : State) (d : Drain), s.regsWf = true ∧ s.boot.drain = some d ∧ s.sled = SS.DRAIN ∧ d.endAt ≤ s.now ∧
      s.rd.insts = [] ∧ d.cause = 2) ∧
    (∃ (s : State), s.regsWf = true ∧ SS.INIT ≤ s.sled ∧ s.boot.railsCore = true) ∧
    (∃ (s : State) (i : Instr), s.regsWf = true ∧ ((i = .inputLoss) ∨ (i = .presentNRise)) ∧ SS.BOOT < s.sled ∧
      s.boot.lossAt = none) ∧
    (∃ (s : State) (i : Instr), s.regsWf = true ∧ ((i = .inputLoss) ∨ (i = .presentNRise)) ∧ 0 < s.sled ∧
      s.sled ≤ SS.BOOT) ∧
    (∃ (s : State) (l : Nat), s.regsWf = true ∧ s.boot.lossAt = some l ∧ l + 2 ≤ s.now ∧
      (∀ x ∈ s.rd.insts, x.1 < 8192 ∧ x.2.group < 4096)) ∧
    (∃ (s : State) (l : Nat), s.regsWf = true ∧ s.boot.lossAt = some l ∧ l + 4000 ≤ s.now) :=
  ⟨⟨(inState SS.SERVICE : State), by decide +kernel⟩,
   ⟨(inState SS.DISCOVERY : State), by decide +kernel⟩,
   ⟨(inState SS.MAINTENANCE : State), by decide +kernel⟩,
   ⟨(inState SS.SERVICE : State), by decide +kernel⟩,
   ⟨(inState SS.DRAIN { running 0x25 regs5 [] (clock 100 (up [5])) with boot := { drain := some ({ endAt := 100, cause := 1 } : Drain) } } : State),
     ({ endAt := 100, cause := 1 } : Drain), by decide +kernel⟩,
   ⟨(inState SS.DRAIN { running 0x25 regs5 [] (clock 100 (up [5])) with boot := { drain := some ({ endAt := 100, cause := 2 } : Drain) } } : State),
     ({ endAt := 100, cause := 2 } : Drain), by decide +kernel⟩,
   ⟨({ inState SS.SERVICE (running 0x25 regs5 [] (up [5])) with boot := { railsCore := true } } : State),
     by decide +kernel⟩,
   ⟨(inState SS.SERVICE (clock 9 {}) : State), (.inputLoss : Instr), by decide +kernel⟩,
   ⟨(inState SS.BOOT (clock 9 {}) : State), (.presentNRise : Instr), by decide +kernel⟩,
   ⟨((let s := holds 1 { group := 7, ctx := 5 }; { clock 102 s with boot := { lossAt := some 100 }, rd := { s.rd with notices := [{ slot := 3 }] }, al := { pages := [{ period := 0, frame := 101 }, { period := 1, frame := 5 }] } }) : State),
     100, by decide +kernel⟩,
   ⟨({ inState SS.DRAIN (clock 4100 {}) with boot := { lossAt := some 100 } } : State), 100, by decide +kernel⟩⟩

/-- Hypotheses of UnitsReset. -/
theorem test_meets_UnitsReset :
    (∃ (s : State) (r : CmdReq) (u : UnitReset), u = { unit := field r.payload 0 1, index := field r.payload 2 2, relayout := field r.payload 1 1 == 1, owner := r.owner, tag := r.tag, byCmd := true, begun := false, since := s.now } ∧
      Fresh s r ∧ s.regsWf = true ∧ s.resetStatus r.payload ≠ ST.OK) ∧
    (∃ (s : State) (r : CmdReq) (u : UnitReset), u = { unit := field r.payload 0 1, index := field r.payload 2 2, relayout := field r.payload 1 1 == 1, owner := r.owner, tag := r.tag, byCmd := true, begun := false, since := s.now } ∧
      Fresh s r ∧ s.regsWf = true ∧ s.resetStatus r.payload = ST.OK ∧ u.unit = U.CORE) ∧
    (∃ (s : State) (r : CmdReq) (u : UnitReset), u = { unit := field r.payload 0 1, index := field r.payload 2 2, relayout := field r.payload 1 1 == 1, owner := r.owner, tag := r.tag, byCmd := true, begun := false, since := s.now } ∧
      Fresh s r ∧ s.regsWf = true ∧ s.resetStatus r.payload = ST.OK ∧ u.unit = U.PORT) ∧
    (∃ (s : State) (r : CmdReq) (u : UnitReset), u = { unit := field r.payload 0 1, index := field r.payload 2 2, relayout := field r.payload 1 1 == 1, owner := r.owner, tag := r.tag, byCmd := true, begun := false, since := s.now } ∧
      Fresh s r ∧ s.regsWf = true ∧ s.resetStatus r.payload = ST.OK ∧ u.unit = U.TOLLGATE ∧ s.tg.batches = [] ∧
      s.tg.origins = []) ∧
    (∃ (s : State) (r : CmdReq) (u : UnitReset), u = { unit := field r.payload 0 1, index := field r.payload 2 2, relayout := field r.payload 1 1 == 1, owner := r.owner, tag := r.tag, byCmd := true, begun := false, since := s.now } ∧
      Fresh s r ∧ s.regsWf = true ∧ s.resetStatus r.payload = ST.OK ∧ u.unit = U.HUB ∧ s.rd.insts = [] ∧
      (∀ q ∈ (s.ep u.index).reqs, q.direct = false)) ∧
    (∃ (s : State) (r : CmdReq) (u : UnitReset), u = { unit := field r.payload 0 1, index := field r.payload 2 2, relayout := field r.payload 1 1 == 1, owner := r.owner, tag := r.tag, byCmd := true, begun := false, since := s.now } ∧
      Fresh s r ∧ s.regsWf = true ∧ s.resetStatus r.payload = ST.OK ∧ u.unit = U.CONTROL) ∧
    (∃ (s : State) (u : UnitReset), s.regsWf = true ∧ s.boot.resets = [u] ∧ u.unit = U.CONTROL ∧ u.index = 0 ∧
      u.begun = false ∧ u.since + 1 ≤ s.now ∧ (∀ a, s.boot.act = some a → a.full = true ∨ a.begun = true)) ∧
    (∃ (s : State) (u : UnitReset), s.regsWf = true ∧ s.boot.resets = [u] ∧ u.begun = true ∧ u.unit < 5 ∧
      u.unit ≠ U.HUB ∧ (u.unit = U.CONTROL → s.boot.act = none) ∧ s.fget R.CP_RESET.COUNT + 1 < 2 ^ 32) ∧
    (∃ (s : State) (u : UnitReset), s.regsWf = true ∧ s.boot.resets = [u] ∧ u.begun = true ∧ u.unit = U.HUB ∧
      u.index < 16 ∧ u.byCmd = true ∧ (∀ i, i < 16 → (s.core (16 * u.index + i)).resetDue = 0)) ∧
    (∃ (s : State) (i : Nat) (n : Nat) (w : Switch), s.regsWf = true ∧
      s.sw.takeCells (i % 16) (i / 16) = some (n, w) ∧ s.fget R.VG_FAULT.BUFFER_DBE + n < 2 ^ 16) ∧
    (∃ (s : State) (i : Nat), s.regsWf = true ∧ s.sw.takeCells (i % 16) (i / 16) = none) ∧
    (∃ (s : State) (u : Nat) (i : Nat), s.regsWf = true ∧ ((u = U.CORE ∧ i < 256) ∨ (u = U.HUB ∧
      i < 16) ∨ (u = U.TOLLGATE ∧ i = 0) ∨ (u = U.CONTROL ∧ i = 0)) ∧ s.resetBusy u i = false ∧
      s.fget R.VG_FAULT.AUTO_RESET + 1 < 2 ^ 16) ∧
    (∃ (s : State) (a : Nat) (f : Nat) (b : Nat), s.regsWf = true ∧ bankOf a = some (f, b) ∧ s.eccBad f a = false ∧
      s.fget R.VG_FAULT.TABLE_ERR + 1 < 2 ^ 16 ∧ b = s.activeBank f) ∧
    (∃ (s : State) (a : Nat) (f : Nat) (b : Nat), s.regsWf = true ∧ bankOf a = some (f, b) ∧ s.eccBad f a = false ∧
      s.fget R.VG_FAULT.TABLE_ERR + 1 < 2 ^ 16 ∧ b ≠ s.activeBank f) :=
  ⟨⟨({} : State), ({ owner := 1, tag := 2, payload := leBytes 9 2 ++ leBytes 0 2 ++ leBytes 0 4 } : CmdReq), _, rfl,
    fresh_none (by decide +kernel), by decide +kernel⟩,
   ⟨(inState SS.SERVICE (running 0x25 regs5) : State),
     ({ owner := 1, tag := 2, payload := leBytes 1 2 ++ leBytes 53 2 ++ leBytes 0 4 } : CmdReq), _, rfl,
     fresh_none (by decide +kernel), by decide +kernel⟩,
   ⟨(inState SS.SERVICE (up [5]) : State),
     ({ owner := 1, tag := 2, payload := leBytes 0 2 ++ leBytes 5 2 ++ leBytes 0 4 } : CmdReq), _, rfl,
     fresh_none (by decide +kernel), by decide +kernel⟩,
   ⟨(inState SS.SERVICE { ({} : State) with tg := { nextTid := 7, seqs := [(1, 2)] } } : State),
     ({ owner := 1, tag := 2, payload := leBytes 3 2 ++ leBytes 0 2 ++ leBytes 0 4 } : CmdReq), _, rfl,
     fresh_none (by decide +kernel), by decide +kernel⟩,
   ⟨(inState SS.SERVICE (clock 50 (running 0x25 regs5 [] (up [147]))) : State),
     ({ owner := 1, tag := 2, payload := leBytes 2 2 ++ leBytes 3 2 ++ leBytes 0 4 } : CmdReq), _, rfl,
     fresh_none (by decide +kernel), by decide +kernel⟩,
   ⟨(inState SS.SERVICE {} : State),
     ({ owner := 1, tag := 2, payload := leBytes 4 2 ++ leBytes 0 2 ++ leBytes 0 4 } : CmdReq), _, rfl,
     fresh_none (by decide +kernel), by decide +kernel⟩,
   ⟨(at_ [(R.HE_QP0.VALID 7, 1), (R.HE_QP0.STATE 7, 1)] (clock 9 { ({} : State) with boot := { resets := [({ unit := U.CONTROL, begun := false, since := 8 } : UnitReset)] }, host := { tags := [{ owner := 1, tag := 2 }, { owner := 1, tag := 3, island := true }], partials := [{}] } }) : State),
     ({ unit := U.CONTROL, begun := false, since := 8 } : UnitReset), by decide +kernel⟩,
   ⟨(at_ [(R.CP_RESET.BUSY, 1)] { ({} : State) with boot := { resets := [({ unit := U.PORT, index := 5, owner := 1, tag := 2, byCmd := true } : UnitReset)] }, host := { tags := [{ owner := 1, tag := 2 }] } } : State),
     ({ unit := U.PORT, index := 5, owner := 1, tag := 2, byCmd := true } : UnitReset), by decide +kernel⟩,
   ⟨(at_ [(R.CP_RESET.BUSY, 4)] { ({} : State) with boot := { resets := [({ unit := U.HUB, index := 3, owner := 1, tag := 2, byCmd := true, relayout := true } : UnitReset)] }, host := { tags := [{ owner := 1, tag := 2 }] } } : State),
     ({ unit := U.HUB, index := 3, owner := 1, tag := 2, byCmd := true, relayout := true } : UnitReset),
     by decide +kernel⟩,
   ⟨({ ({} : State) with sw := { inG := [(3, [{ cell := { typ := T.READ, dst := 5 }, outPos := 5 }])] } } : State), 0,
     (((({ ({} : State) with sw := { inG := [(3, [{ cell := { typ := T.READ, dst := 5 }, outPos := 5 }])] } } : State).sw.takeCells (0 % 16) (0 / 16)).map (·.1)).getD 0 : Nat),
     (((({ ({} : State) with sw := { inG := [(3, [{ cell := { typ := T.READ, dst := 5 }, outPos := 5 }])] } } : State).sw.takeCells (0 % 16) (0 / 16)).map (·.2)).getD {} : Switch),
     by decide +kernel⟩,
   ⟨({} : State), 77, by decide +kernel⟩,
   ⟨(clock 5 {} : State), U.CORE, 200, by decide +kernel⟩,
   ⟨({} : State), (R.CELL0.addr 0 5 : Nat), 0, 0, by decide +kernel⟩,
   ⟨({} : State), (R.CELL0.addr 1 5 : Nat), 0, 1, by decide +kernel⟩⟩

/-- Hypotheses of FirmwareActivates. -/
theorem test_meets_FirmwareActivates :
    (∃ (s : State) (k : Nat) (r : CmdReq), Fresh s r ∧ s.regsWf = true ∧ k = 1 - s.fget R.CP_FW.RUN_SLOT ∧
      s.stageStatus r.payload ≠ ST.OK) ∧
    (∃ (s : State) (k : Nat) (r : CmdReq) (p : List Byte), p = r.payload ∧ Fresh s r ∧ s.regsWf = true ∧
      k = 1 - s.fget R.CP_FW.RUN_SLOT ∧ s.stageStatus p = ST.OK ∧ field p 8 1 < 2) ∧
    (∃ (s : State) (k : Nat) (r : CmdReq) (p : List Byte), p = r.payload ∧ Fresh s r ∧ s.regsWf = true ∧
      k = 1 - s.fget R.CP_FW.RUN_SLOT ∧ s.stageStatus p = ST.OK ∧ 2 ≤ field p 8 1) ∧
    (∃ (s : State) (k : Nat) (r : CmdReq), Fresh s r ∧ s.regsWf = true ∧ k = 1 - s.fget R.CP_FW.RUN_SLOT ∧
      s.activateStatus r.payload ≠ ST.OK) ∧
    (∃ (s : State) (k : Nat) (r : CmdReq), Fresh s r ∧ s.regsWf = true ∧ k = 1 - s.fget R.CP_FW.RUN_SLOT ∧
      s.activateStatus r.payload = ST.OK ∧ field r.payload 0 1 = 0) ∧
    (∃ (s : State) (k : Nat) (r : CmdReq), Fresh s r ∧ s.regsWf = true ∧ k = 1 - s.fget R.CP_FW.RUN_SLOT ∧
      s.activateStatus r.payload = ST.OK ∧ field r.payload 0 1 = 1) ∧
    (∃ (s : State) (k : Nat) (a : Activation), s.regsWf = true ∧ k = 1 - s.fget R.CP_FW.RUN_SLOT ∧
      s.boot.act = some a ∧ a.full = false ∧ a.slot < 2 ∧ a.begun = true ∧ s.now ≤ a.at_ + 10000000) ∧
    (∃ (s : State) (k : Nat) (a : Activation), s.regsWf = true ∧ k = 1 - s.fget R.CP_FW.RUN_SLOT ∧
      s.boot.act = some a ∧ a.full = false ∧ a.slot < 2 ∧ a.slot = k ∧ a.at_ + 10000000 ≤ s.now) ∧
    (∃ (s : State) (k : Nat) (a : Activation), s.regsWf = true ∧ k = 1 - s.fget R.CP_FW.RUN_SLOT ∧
      s.boot.act = some a ∧ a.full = true ∧ a.slot < 2 ∧ s.sled = SS.INIT ∧ 59300000 ≤ s.now) :=
  ⟨⟨({} : State), 1, ({ owner := 1, tag := 2, payload := [1] } : CmdReq), fresh_none (by decide +kernel),
    by decide +kernel⟩,
   ⟨({} : State), 1,
     ({ owner := 1, tag := 2, payload := leBytes 4 4 ++ leBytes 100 4 ++ leBytes 1 8 ++ [7, 8, 9] } : CmdReq), _, rfl,
     fresh_none (by decide +kernel), by decide +kernel⟩,
   ⟨({} : State), 1,
     ({ owner := 1, tag := 2, payload := leBytes 0 4 ++ leBytes 8 4 ++ leBytes 3 8 ++ [7, 8, 9, 4, 5, 6, 1, 2] } : CmdReq),
     _, rfl, fresh_none (by decide +kernel), by decide +kernel⟩,
   ⟨({} : State), 1, ({ owner := 1, tag := 2, payload := [1] } : CmdReq), fresh_none (by decide +kernel),
     by decide +kernel⟩,
   ⟨({ at_ [(R.CP_FW.SLOT_B, 2), (R.CP_FW.RUN_MAJOR, 4)] with boot := { slotA := { comps := List.replicate 8 5, major := 4 }, slotB := { comps := List.replicate 8 5, major := 4, total := 64 } } } : State),
     1, ({ owner := 1, tag := 2, payload := leBytes 0 64 } : CmdReq), fresh_none (by decide +kernel),
     by decide +kernel⟩,
   ⟨({ at_ [(R.CP_FW.SLOT_B, 2), (R.CP_FW.RUN_MAJOR, 4)] with boot := { slotA := { comps := List.replicate 8 5, major := 4 }, slotB := { comps := List.replicate 8 5, major := 4, total := 64 } } } : State),
     1, ({ owner := 1, tag := 2, payload := leBytes 1 64 } : CmdReq), fresh_none (by decide +kernel),
     by decide +kernel⟩,
   ⟨({ clock 10000005 {} with boot := { act := some ({ slot := 1, at_ := 5, begun := true } : Activation), slotB := { major := 5 } } } : State),
     1, ({ slot := 1, at_ := 5, begun := true } : Activation), by decide +kernel⟩,
   ⟨({ clock 10000005 {} with boot := { act := some ({ slot := 1, at_ := 5, begun := true } : Activation), slotB := { major := 5 } } } : State),
     1, ({ slot := 1, at_ := 5, begun := true } : Activation), by decide +kernel⟩,
   ⟨({ clock 59300000 (at_ [(R.CP_FW.RUN_SLOT, 1), (R.CP_FW.TRIAL, 1)]) with boot := { act := some ({ slot := 1, full := true } : Activation) } } : State),
     0, ({ slot := 1, full := true } : Activation), by decide +kernel⟩⟩

/-- Hypotheses of HeartbeatsAndVigil. -/
theorem test_meets_HeartbeatsAndVigil :
    (∃ (s : State) (p : Nat), s.regsWf = true ∧ s.isPort p = true ∧ p < 144 ∧ SS.DISCOVERY ≤ s.sled ∧
      s.now % 256 = s.beatPhase p ∧ s.portState p = PS.UP ∧ s.vigil.sentNow.contains p = false) ∧
    (∃ (s : State), s.regsWf = true ∧ SS.DISCOVERY ≤ s.sled ∧ s.announces ≠ s.vigil.announced) ∧
    (∃ (s : State) (p : Nat) (c : Cell), s.regsWf = true ∧ c.typ = T.HEARTBEAT ∧ s.isPort p = true ∧
      s.portState p = PS.UP ∧ p < 128) ∧
    (∃ (s : State) (p : Nat) (c : Cell) (q : Nat), s.regsWf = true ∧ c.typ = T.HEARTBEAT ∧ s.isPort p = true ∧
      s.portState p = PS.UP ∧ 128 ≤ p ∧ p < 144 ∧ q < 16 ∧ c.src = 384 + q) ∧
    (∃ (s : State) (p : Nat) (c : Cell), s.regsWf = true ∧ c.typ = T.HEARTBEAT ∧ s.isPort p = true ∧
      s.portState p = PS.UP ∧ 160 ≤ p ∧ bitAt (field (lineBytes c.payload) 3 1) 0 = true) ∧
    (∃ (s : State) (i : Nat), s.regsWf = true ∧ i < 144 ∧ i ≠ s.ownPos ∧ s.now % 256 = s.subjectPhase i ∧
      i ∈ s.vigil.heardNow) ∧
    (∃ (s : State) (i : Nat), s.regsWf = true ∧ i < 144 ∧ i ≠ s.ownPos ∧ s.now % 256 = s.subjectPhase i ∧
      i ∉ s.vigil.heardNow ∧ s.fget (R.VG_EP.MISSED i) ≠ 3) ∧
    (∃ (s : State) (i : Nat), s.regsWf = true ∧ i < 144 ∧ i ≠ s.ownPos ∧ s.now % 256 = s.subjectPhase i ∧
      i ∉ s.vigil.heardNow ∧ s.fget (R.VG_EP.MISSED i) = 3 ∧ s.fget (R.VG_EP.STATE i) = 1) ∧
    (∃ (s : State) (r : CmdReq) (p : List Byte) (i : Nat), Fresh s r ∧ s.regsWf = true ∧ p = r.payload ∧
      p.length = 12 ∧ field p 0 2 = 1 ∧ s.subjectOf (field p 8 2) = some i ∧ field p 10 1 = 0) ∧
    (∃ (s : State) (r : CmdReq) (p : List Byte) (i : Nat), Fresh s r ∧ s.regsWf = true ∧ p = r.payload ∧
      p.length = 12 ∧ field p 0 2 = 1 ∧ s.subjectOf (field p 8 2) = some i ∧ field p 10 1 = 1) ∧
    (∃ (s : State) (r : CmdReq) (p : List Byte) (i : Nat), Fresh s r ∧ s.regsWf = true ∧ p = r.payload ∧
      p.length = 12 ∧ field p 0 2 = 1 ∧ s.subjectOf (field p 8 2) = some i ∧ field p 10 1 = 2) ∧
    (∃ (s : State) (r : CmdReq) (p : List Byte) (i : Nat), Fresh s r ∧ s.regsWf = true ∧ p = r.payload ∧
      p.length = 12 ∧ field p 0 2 = 1 ∧ s.subjectOf (field p 8 2) = some i ∧ 2 < field p 10 1) ∧
    (∃ (s : State) (q : Nat), s.regsWf = true ∧ q < 16 ∧ q ≠ s.plane ∧ s.sg.departMarks.contains q = false ∧
      (kget s.sg.departAt q = some s.now ∨ kget s.sg.noPath q = some 4)) ∧
    (∃ (s : State) (p : Nat), s.regsWf = true ∧ p < 128 ∧ s.portState p = PS.UP ∧
      (s.outcome p = OC.MATCH ∨ s.outcome p = OC.ADOPTED)) ∧
    (∃ (s : State) (id : Nat), s.regsWf = true ∧ 128 ≤ id ∧ id < 416 ∧
      s.sg.departMarks.contains (planeOfId id) = true ∧ s.backAgain (planeOfId id) = true) :=
  ⟨⟨(clock 11 (inState SS.SERVICE (up [5])) : State), 5, by decide +kernel⟩,
   ⟨({ clock 11 (inState SS.SERVICE (up [5, 6])) with vigil := { sentNow := [6] } } : State), by decide +kernel⟩,
   ⟨(clock 11 (up [5]) : State), 5,
     ({ typ := T.HEARTBEAT, payload := lineOf (leBytes 0 1 ++ leBytes 0 1 ++ leBytes 6 1 ++ leBytes 3 1 ++ leBytes 1 4 ++ leBytes 77 8 ++ leBytes 0xFFFF 2) } : Cell),
     by decide +kernel⟩,
   ⟨(clock 11 (up [130]) : State), 130,
     ({ typ := T.HEARTBEAT, src := 391, payload := lineOf (leBytes 0 1 ++ leBytes 0 1 ++ leBytes 6 1 ++ leBytes 3 1 ++ leBytes 1 4 ++ leBytes 77 8 ++ leBytes 0xFFFF 2) } : Cell),
     7, by decide +kernel⟩,
   ⟨(clock 11 (up [161]) : State), 161,
     ({ typ := T.HEARTBEAT, payload := lineOf (leBytes 0 1 ++ leBytes 0 1 ++ leBytes 6 1 ++ leBytes 3 1 ++ leBytes 1 4 ++ leBytes 77 8 ++ leBytes 0xFFFF 2) } : Cell),
     by decide +kernel⟩,
   ⟨({ clock 10 (at_ [(R.VG_EP.MISSED 5, 3)]) with vigil := { heardNow := [5, 6] } } : State), 5, by decide +kernel⟩,
   ⟨({ clock 10 (at_ [(R.VG_EP.MISSED 5, 2)]) with vigil := { heardNow := [6] } } : State), 5, by decide +kernel⟩,
   ⟨({ clock 10 (at_ [(R.VG_EP.MISSED 5, 3), (R.VG_EP.STATE 5, 1)]) with vigil := { heardNow := [6] } } : State), 5,
     by decide +kernel⟩,
   ⟨({} : State),
     ({ owner := 1, tag := 2, payload := leBytes 1 2 ++ leBytes 9 6 ++ leBytes 5 2 ++ leBytes 0 2 } : CmdReq),
     (({ owner := 1, tag := 2, payload := leBytes 1 2 ++ leBytes 9 6 ++ leBytes 5 2 ++ leBytes 0 2 } : CmdReq).payload : List Byte),
     5, fresh_none (by decide +kernel), by decide +kernel⟩,
   ⟨({} : State),
     ({ owner := 1, tag := 2, payload := leBytes 1 2 ++ leBytes 9 6 ++ leBytes 5 2 ++ leBytes 1 2 } : CmdReq),
     (({ owner := 1, tag := 2, payload := leBytes 1 2 ++ leBytes 9 6 ++ leBytes 5 2 ++ leBytes 1 2 } : CmdReq).payload : List Byte),
     5, fresh_none (by decide +kernel), by decide +kernel⟩,
   ⟨({ ({} : State) with vigil := { heardNow := [5] } } : State),
     ({ owner := 1, tag := 2, payload := leBytes 1 2 ++ leBytes 9 6 ++ leBytes 5 2 ++ leBytes 2 2 } : CmdReq),
     (({ owner := 1, tag := 2, payload := leBytes 1 2 ++ leBytes 9 6 ++ leBytes 5 2 ++ leBytes 2 2 } : CmdReq).payload : List Byte),
     5, fresh_none (by decide +kernel), by decide +kernel⟩,
   ⟨({} : State),
     ({ owner := 1, tag := 2, payload := leBytes 1 2 ++ leBytes 9 6 ++ leBytes 5 2 ++ leBytes 3 2 } : CmdReq),
     (({ owner := 1, tag := 2, payload := leBytes 1 2 ++ leBytes 9 6 ++ leBytes 5 2 ++ leBytes 3 2 } : CmdReq).payload : List Byte),
     5, fresh_none (by decide +kernel), by decide +kernel⟩,
   ⟨({ clock 11 {} with sg := { departAt := [(3, 11)] } } : State), 3, by decide +kernel⟩,
   ⟨(at_ [(R.SG_FOUND.OUTCOME 70, OC.MATCH), (R.VG_GONE_LIGHT.MAP 1, 0xFF)] (up [70]) : State), 70, by decide +kernel⟩,
   ⟨({ at_ [(R.SG_FOUND.OUTCOME 131, OC.MATCH), (R.VG_PLANES.DEPARTED, 0xF)] (up [131]) with sg := { departMarks := [3] }, vigil := { beats := [(131, { links := 0xFFFF })] } } : State),
     179, by decide +kernel⟩⟩

/-- Hypotheses of CoolingAndPower (CoolingActs). -/
theorem test_meets_CoolingActs :
    (∃ (s : State), s.regsWf = true) ∧
    (∃ (s : State) (d : DieTemps), s.regsWf = true ∧ SS.INIT ≤ s.sled ∧ s.boot.railsCore = true ∧
      s.boot.railsDram = true ∧ logicMax d < 95 ∧ listMax d.optical < 100 ∧ listMax d.vr < 125 ∧ d.dram < 110 ∧
      d.control < 100) ∧
    (∃ (s : State) (d : DieTemps), s.regsWf = true ∧ SS.INIT ≤ s.sled ∧ s.boot.railsCore = true ∧
      s.boot.railsDram = true ∧ 95 ≤ logicMax d ∧ logicMax d < 105 ∧ listMax d.optical < 100 ∧ listMax d.vr < 125 ∧
      d.dram < 110 ∧ d.control < 100) ∧
    (∃ (s : State) (d : DieTemps), s.regsWf = true ∧ SS.INIT ≤ s.sled ∧ s.boot.railsCore = true ∧
      s.boot.railsDram = true ∧ 105 ≤ logicMax d ∧ d.dram < 110 ∧ d.control < 110) ∧
    (∃ (s : State) (d : DieTemps), s.regsWf = true ∧ SS.INIT ≤ s.sled ∧ s.boot.railsCore = true ∧
      s.boot.railsDram = true ∧ 110 ≤ d.dram ∧ d.control < 110) ∧
    (∃ (s : State) (d : DieTemps), s.regsWf = true ∧ SS.INIT ≤ s.sled ∧ s.boot.railsCore = true ∧
      s.boot.railsDram = true ∧ 110 ≤ d.control) ∧
    (∃ (s : State), s.regsWf = true ∧ s.power.goodFor < 1000) ∧
    (∃ (s : State), s.regsWf = true ∧ 1000 ≤ s.power.goodFor ∧
      (s.fget R.VG_PLANES.COOLANT_EMERG = 1 ∨ s.power.haltTemp = true) ∧ s.boot.railsCore = true ∧
      s.power.inputLoss = false) :=
  ⟨⟨(at_ [(R.PT_COOLANT.BAND, 1)] { ({} : State) with power := { lowFlow := 1 } } : State), by decide +kernel⟩,
   ⟨((let s := running 0x25 regs5 [] (inState SS.SERVICE); { s with boot := { railsCore := true, railsDram := true } }) : State),
     ({ switch := 60, core := [84], control := 99, dram := 70 } : DieTemps), by decide +kernel⟩,
   ⟨((let s := running 0x25 regs5 [] (inState SS.SERVICE); { s with boot := { railsCore := true, railsDram := true } }) : State),
     ({ switch := 60, core := [95], control := 99, dram := 70 } : DieTemps), by decide +kernel⟩,
   ⟨((let s := running 0x25 regs5 [] (inState SS.SERVICE); { s with boot := { railsCore := true, railsDram := true } }) : State),
     ({ switch := 60, core := [105], control := 99, dram := 70 } : DieTemps), by decide +kernel⟩,
   ⟨({ (let s := running 0x25 regs5 [] (inState SS.SERVICE); { s with boot := { railsCore := true, railsDram := true } }) with mem := [(5, 6)] } : State),
     ({ switch := 60, core := [84], control := 99, dram := 110 } : DieTemps), by decide +kernel⟩,
   ⟨({ (let s := running 0x25 regs5 [] (inState SS.SERVICE); { s with boot := { railsCore := true, railsDram := true } }) with mem := [(5, 6)] } : State),
     ({ control := 110 } : DieTemps), by decide +kernel⟩,
   ⟨(at_ [(R.VG_PLANES.COOLANT_EMERG, 1)] { ({} : State) with power := { goodFor := 999 } } : State),
     by decide +kernel⟩,
   ⟨(at_ [(R.VG_PLANES.COOLANT_EMERG, 1), (R.CO_POWER.HALT 53, 1)] { (let s := running 0x25 regs5 [] (inState SS.SERVICE); { s with boot := { railsCore := true, railsDram := true } }) with power := { goodFor := 1000 } } : State),
     by decide +kernel⟩⟩

/-- Hypotheses of CoolingAndPower (PowerActs). -/
theorem test_meets_PowerActs :
    (∃ (s : State), s.regsWf = true ∧ s.power.quiet < 1000) ∧
    (∃ (s : State), s.regsWf = true ∧ 1000 ≤ s.power.quiet ∧
      s.fget R.PT_LADDER.LADDER_MIN < s.fget R.PT_LADDER.POSITION) ∧
    (∃ (s : State), s.regsWf = true ∧
      (s.power.budget = 0 ∨ 20000000 ≤ s.power.episode ∨ s.fget R.PT_LADDER.BOOST_EN = 0)) ∧
    (∃ (s : State), s.regsWf = true ∧ 80000000000 ≤ s.power.budget ∧ s.power.episode < 20000000 ∧
      s.fget R.PT_LADDER.BOOST_EN = 1 ∧ s.fget R.PT_COOLANT.BAND = 0 ∧ s.power.lowFlow = 0 ∧
      s.fget R.PT_COOLANT.INLET_HIGH = 0) ∧
    (∃ (s : State) (r : CmdReq) (p : List Byte), Fresh s r ∧ s.regsWf = true ∧ p = r.payload ∧ p.length = 16 ∧
      field p 4 12 = 0 ∧ field p 0 2 ≤ 17000 ∧ field p 2 1 ≤ 1 ∧ field p 3 1 ≤ 15 ∧
      s.fget R.TB_POWER.FLOOR + max (s.fget R.TB_POWER.RESERVED_PEAK) s.armedPeak ≤ field p 0 2) ∧
    (∃ (s : State) (r : CmdReq) (p : List Byte), Fresh s r ∧ s.regsWf = true ∧ p = r.payload ∧ p.length = 16 ∧
      field p 4 12 = 0 ∧ field p 0 2 ≤ 17000 ∧ field p 2 1 ≤ 1 ∧ field p 3 1 ≤ 15 ∧
      field p 0 2 < s.fget R.TB_POWER.FLOOR + max (s.fget R.TB_POWER.RESERVED_PEAK) s.armedPeak) ∧
    (∃ (s : State) (r : CmdReq), Fresh s r ∧ s.regsWf = true ∧
      (r.payload.length ≠ 16 ∨ 17000 < field r.payload 0 2 ∨ 15 < field r.payload 3 1)) ∧
    (∃ (s : State) (ts : List Nat), s.regsWf = true ∧ ts.length ≤ 20 ∧
      (∀ k, k < ts.length → s.fget (R.PT_LASER.WEAR k) + wearOf (ts.getD k 0) < 2 ^ 32)) ∧
    (∃ (s : State), s.regsWf = true ∧ s.now % 4096 = 0 ∧ s.power.periodAt ≠ s.now ∧ 0 < s.power.periodMax ∧
      (∀ x, x < 64 → s.fget (R.PT_CTX_THROTTLE.BE x) < 65535 ∧ s.fget (R.PT_CTX_THROTTLE.MEM x) < 65535 ∧
      s.fget (R.PT_CTX_THROTTLE.DUTY x) < 65535)) :=
  ⟨⟨({ ({} : State) with power := { quiet := 999 } } : State), by decide +kernel⟩,
   ⟨(at_ [(R.PT_LADDER.POSITION, 4), (R.PT_LADDER.LADDER_MIN, 3)] { (let s := running 0x25 regs5 [] (inState SS.SERVICE); { s with boot := { railsCore := true, railsDram := true } }) with power := { quiet := 1000 } } : State),
     by decide +kernel⟩,
   ⟨({ ({} : State) with power := { budget := 0 } } : State), by decide +kernel⟩,
   ⟨(at_ [(R.PT_LADDER.BOOST_EN, 1)] : State), by decide +kernel⟩,
   ⟨(at_ [(R.TB_POWER.FLOOR, 12300), (R.TB_POWER.RESERVED_PEAK, 100)] : State),
     ({ owner := 1, tag := 2, payload := leBytes 12400 2 ++ leBytes 1 1 ++ leBytes 3 1 ++ leBytes 0 12 } : CmdReq),
     (({ owner := 1, tag := 2, payload := leBytes 12400 2 ++ leBytes 1 1 ++ leBytes 3 1 ++ leBytes 0 12 } : CmdReq).payload : List Byte),
     fresh_none (by decide +kernel), by decide +kernel⟩,
   ⟨(at_ [(R.TB_POWER.FLOOR, 12300), (R.TB_POWER.RESERVED_PEAK, 100)] : State),
     ({ owner := 1, tag := 2, payload := leBytes 12399 2 ++ leBytes 1 1 ++ leBytes 3 1 ++ leBytes 0 12 } : CmdReq),
     (({ owner := 1, tag := 2, payload := leBytes 12399 2 ++ leBytes 1 1 ++ leBytes 3 1 ++ leBytes 0 12 } : CmdReq).payload : List Byte),
     fresh_none (by decide +kernel), by decide +kernel⟩,
   ⟨({} : State),
     ({ owner := 1, tag := 2, payload := leBytes 17001 2 ++ leBytes 1 1 ++ leBytes 3 1 ++ leBytes 0 12 } : CmdReq),
     fresh_none (by decide +kernel), by decide +kernel⟩,
   ⟨(at_ [(R.PT_LASER.WEAR 1, 921599980)] : State), ([70, 71, 120] : List Nat), by decide +kernel⟩,
   ⟨(clock 4096 { ({} : State) with power := { periodMax := 8 } } : State), by decide +kernel⟩⟩

/-- Hypotheses of IslandAnswers. -/
theorem test_meets_IslandAnswers :
    (∃ (s : State) (r : CmdReq) (p : List Byte), Fresh s r ∧ s.regsWf = true ∧ p = r.payload ∧ p.length = 72 ∧
      field p 1 1 = 0xFF ∧ r.owner < 64 ∧ s.ctxRefusal r.ctx = none ∧ field p 0 1 = 1 ∧ field p 8 64 = 0) ∧
    (∃ (s : State) (r : CmdReq) (p : List Byte) (b : List Byte), Fresh s r ∧ s.heldFor (field p 8 64) = some b ∧
      s.regsWf = true ∧ p = r.payload ∧ p.length = 72 ∧ field p 1 1 = 0xFF ∧ r.owner < 64 ∧
      s.ctxRefusal r.ctx = none ∧ field p 0 1 = 0 ∧ b.length = 6003) ∧
    (∃ (s : State) (r : CmdReq) (p : List Byte), Fresh s r ∧ s.regsWf = true ∧ p = r.payload ∧ p.length = 72 ∧
      field p 1 1 = 0xFF ∧ r.owner < 64 ∧ s.ctxRefusal r.ctx = none ∧ field p 0 1 = 0 ∧
      s.heldFor (field p 8 64) = none ∧ s.si.pendingAtt.length < 4 ∧ s.fbit R.SI_STATUS.RNG_OK = true) ∧
    (∃ (s : State) (r : CmdReq) (p : List Byte), Fresh s r ∧ s.regsWf = true ∧ p = r.payload ∧ p.length = 72 ∧
      field p 1 1 = 0xFF ∧ r.owner < 64 ∧ s.ctxRefusal r.ctx = none ∧ field p 0 1 = 0 ∧
      s.heldFor (field p 8 64) = none ∧ (4 ≤ s.si.pendingAtt.length ∨ s.fbit R.SI_STATUS.RNG_OK = false)) ∧
    (∃ (s : State) (a : Attest) (b : List Byte), s.heldFor a.nonce = some b ∧ s.regsWf = true ∧
      s.si.pendingAtt = [a] ∧ b.length = 6003) ∧
    (∃ (s : State), s.regsWf = true ∧ s.fbit R.SI_ATT_CTL.BUSY = false ∧ SS.INIT ≤ s.sled) ∧
    (∃ (s : State), s.regsWf = true ∧ s.fbit R.SI_ATT_CTL.BUSY = true ∧ s.si.boardGo = none ∧
      s.fbit R.SI_STATUS.RNG_OK = true) ∧
    (∃ (s : State) (k : Nat), s.regsWf = true ∧ s.si.dirty.contains k = true) ∧
    (∃ (s : State) (src : Nat), s.regsWf = true ∧ src ≤ 2 ∧ s.fbit R.SI_DEBUG.ACTIVE = false ∧ s.sled ≠ SS.OFF ∧
      s.fget R.SI_DEBUG.SESSIONS_TOTAL + 1 < 2 ^ 32) ∧
    (∃ (s : State), s.regsWf = true ∧ s.fbit R.SI_DEBUG.ACTIVE = true) :=
  ⟨⟨({} : State), ({ owner := 1, tag := 2, payload := leBytes 0xFF01 8 ++ leBytes 0 64 } : CmdReq),
    (({ owner := 1, tag := 2, payload := leBytes 0xFF01 8 ++ leBytes 0 64 } : CmdReq).payload : List Byte),
    fresh_none (by decide +kernel), by decide +kernel⟩,
   ⟨({ ({} : State) with si := { held := [(77, 0, (List.replicate 6003 7 : List Byte))] } } : State),
     ({ owner := 1, tag := 2, payload := leBytes 0xFF00 8 ++ leBytes 77 64 } : CmdReq),
     (({ owner := 1, tag := 2, payload := leBytes 0xFF00 8 ++ leBytes 77 64 } : CmdReq).payload : List Byte),
     (List.replicate 6003 7 : List Byte), fresh_none (by decide +kernel),
     held_one (h := (77, 0, List.replicate 6003 7)) rfl (by decide +kernel), by decide +kernel⟩,
   ⟨(at_ [(R.SI_STATUS.RNG_OK, 1)] : State),
     ({ owner := 1, tag := 2, payload := leBytes 0xFF00 8 ++ leBytes 77 64 } : CmdReq),
     (({ owner := 1, tag := 2, payload := leBytes 0xFF00 8 ++ leBytes 77 64 } : CmdReq).payload : List Byte),
     fresh_none (by decide +kernel), by decide +kernel⟩,
   ⟨(at_ [(R.SI_STATUS.RNG_OK, 0)] : State),
     ({ owner := 1, tag := 2, payload := leBytes 0xFF00 8 ++ leBytes 77 64 } : CmdReq),
     (({ owner := 1, tag := 2, payload := leBytes 0xFF00 8 ++ leBytes 77 64 } : CmdReq).payload : List Byte),
     fresh_none (by decide +kernel), by decide +kernel⟩,
   ⟨({ at_ [(R.SI_STATUS.ATT_PENDING, 1)] with si := { held := [(77, 0, (List.replicate 6003 7 : List Byte))], pendingAtt := [({ owner := 1, tag := 2, nonce := 77, piece := 2 } : Attest)] }, host := { tags := [{ owner := 1, tag := 2 }] } } : State),
     ({ owner := 1, tag := 2, nonce := 77, piece := 2 } : Attest), (List.replicate 6003 7 : List Byte), rfl,
     by decide +kernel⟩,
   ⟨(at_ [(R.SI_ATT_CTL.DONE, 1), (⟨R.SI_ATT_NONCE.addr 0, 63, 0⟩, 5)] : State), by decide +kernel⟩,
   ⟨({ at_ [(R.SI_ATT_CTL.BUSY, 1), (R.SI_STATUS.RNG_OK, 1)] with si := { window := [1, 2] } } : State),
     by decide +kernel⟩,
   ⟨({ ({} : State) with si := { dirty := [3, 4] } } : State), 4, by decide +kernel⟩,
   ⟨(inState SS.SERVICE : State), 2, by decide +kernel⟩,
   ⟨(at_ [(R.SI_DEBUG.ACTIVE, 1), (R.SI_STATUS.DEBUG_ACTIVE, 1)] : State), by decide +kernel⟩⟩

/-- Hypotheses of AlmanacRuns. -/
theorem test_meets_AlmanacRuns :
    (∃ (s : State) (p : Page), s.regsWf = true ∧ s.al.pages = [p] ∧ s.atEdge p = true ∧ p.frame ≠ s.now) ∧
    (∃ (s : State) (p : Page), s.regsWf = true ∧ s.al.pages = [p] ∧ s.atEdge p = false) ∧
    (∃ (s : State) (p : Page) (l : List Page), s.regsWf = true ∧ s.al.closing = p :: l ∧ s.al.tries < 2) ∧
    (∃ (s : State) (p : Page) (l : List Page), s.regsWf = true ∧ s.al.closing = p :: l ∧ 2 ≤ s.al.tries) ∧
    (∃ (s : State) (r : CmdReq) (p : List Byte), Fresh s r ∧ s.regsWf = true ∧ p = r.payload ∧ p.length = 64 ∧
      field p 0 1 = 0) ∧
    (∃ (s : State) (r : CmdReq) (p : List Byte), Fresh s r ∧ s.regsWf = true ∧ p = r.payload ∧ p.length = 64 ∧
      field p 0 1 = 1 ∧ field p 1 1 ≤ 2 ∧ field p 8 8 = 0) ∧
    (∃ (s : State) (r : CmdReq) (p : List Byte), Fresh s r ∧ s.regsWf = true ∧ p = r.payload ∧ p.length = 64 ∧
      1 < field p 0 1) :=
  ⟨⟨({ clock 120000000 {} with al := { pages := [({ period := 0, frame := 5 } : Page)] } } : State),
    ({ period := 0, frame := 5 } : Page), by decide +kernel⟩,
   ⟨({ clock 120000001 {} with al := { pages := [({ period := 0, frame := 5 } : Page)] } } : State),
     ({ period := 0, frame := 5 } : Page), by decide +kernel⟩,
   ⟨({ ({} : State) with al := { closing := [({ period := 0, frame := 5 } : Page)], part := 2, tries := 1, nextRseq := 9 } } : State),
     ({ period := 0, frame := 5 } : Page), ([] : List Page), by decide +kernel⟩,
   ⟨({ ({} : State) with al := { closing := [({ period := 0, frame := 5 } : Page)], part := 2, tries := 2, nextRseq := 9 } } : State),
     ({ period := 0, frame := 5 } : Page), ([] : List Page), by decide +kernel⟩,
   ⟨({ ({} : State) with al := { flash := [(3, 77)] } } : State),
     ({ owner := 1, tag := 2, payload := leBytes 0 64 } : CmdReq),
     (({ owner := 1, tag := 2, payload := leBytes 0 64 } : CmdReq).payload : List Byte),
     fresh_none (by decide +kernel), by decide +kernel⟩,
   ⟨({} : State), ({ owner := 1, tag := 2, payload := leBytes 0x20201 64 } : CmdReq),
     (({ owner := 1, tag := 2, payload := leBytes 0x20201 64 } : CmdReq).payload : List Byte),
     fresh_none (by decide +kernel), by decide +kernel⟩,
   ⟨({} : State), ({ owner := 1, tag := 2, payload := leBytes 2 64 } : CmdReq),
     (({ owner := 1, tag := 2, payload := leBytes 2 64 } : CmdReq).payload : List Byte),
     fresh_none (by decide +kernel), by decide +kernel⟩⟩

/-- Hypotheses of TestsAndPatterns (PortTestsRun). -/
theorem test_meets_PortTestsRun :
    (∃ (s : State) (r : CmdReq) (p : List Byte) (n : Nat), Fresh s r ∧ s.regsWf = true ∧ p = r.payload ∧
      s.badTest p = false ∧ field p 16 2 = 1 ∧ p.length = 96 ∧
      n = (if field p 8 8 = 0 then s.now + 1 else field p 8 8) ∧ s.testRec false (bytesAt p 88 8) = ST.OK) ∧
    (∃ (s : State) (r : CmdReq) (p : List Byte) (n : Nat), Fresh s r ∧ s.regsWf = true ∧ p = r.payload ∧
      s.badTest p = false ∧ field p 16 2 = 1 ∧ p.length = 96 ∧
      n = (if field p 8 8 = 0 then s.now + 1 else field p 8 8) ∧ s.testRec false (bytesAt p 88 8) ≠ ST.OK) ∧
    (∃ (s : State) (j : LinkJob) (p : Nat) (m : Nat) (f : Nat), s.regsWf = true ∧ s.isPort p = true ∧
      s.pat.jobs = [j] ∧ j.kind = 0 ∧ j.started = false ∧ j.n ≤ s.now ∧ j.records = [(p, m, f)] ∧
      m &&& s.fget (R.OP_PORT_STATUS.WL_RETIRED p) ≠ m) ∧
    (∃ (s : State) (j : LinkJob) (x : WlTest), s.regsWf = true ∧ s.pat.jobs = [j] ∧ j.started = true ∧ j.tests = [x] ∧
      x.rx = true ∧ x.ended = false ∧ x.locked = false) ∧
    (∃ (s : State) (j : LinkJob) (x : WlTest), s.regsWf = true ∧ s.pat.jobs = [j] ∧ j.started = true ∧ j.tests = [x] ∧
      x.rx = true ∧ x.ended = false ∧ x.locked = true ∧ x.ever = true) ∧
    (∃ (s : State) (j : LinkJob), s.regsWf = true ∧ s.pat.jobs = [j] ∧ j.kind = 0 ∧ j.started = true ∧
      j.n + j.duration ≤ s.now ∧ j.owner ≠ chipOwner) ∧
    (∃ (s : State) (r : CmdReq) (p : List Byte), Fresh s r ∧ s.regsWf = true ∧ p = r.payload ∧ wireForm p = true ∧
      20 ≤ field p 8 2 ∧ field p 8 2 ≤ 1000 ∧ s.badStart (field p 0 8) = false ∧
      s.firstWire (s.namedPorts p) false = none) ∧
    (∃ (s : State) (j : LinkJob) (p : Nat), s.regsWf = true ∧ s.isPort p = true ∧ s.pat.jobs = [j] ∧ j.kind = 1 ∧
      j.started = false ∧ j.n ≤ s.now ∧ j.records = [(p, 0, 0)] ∧ s.portState p ≠ PS.UP) ∧
    (∃ (s : State) (j : LinkJob), s.regsWf = true ∧ s.pat.jobs = [j] ∧ j.kind = 1 ∧ j.started = true ∧
      j.n + j.duration ≤ s.now ∧ j.owner ≠ chipOwner) ∧
    (∃ (s : State) (p : Nat) (b : Beacon), s.regsWf = true ∧ s.isPort p = true ∧ p < 144 ∧ b.crcOk = true ∧
      s.fbit (R.OP_PORT_CTL.ENABLE p) = true ∧ s.portState p ≠ PS.UP) ∧
    (∃ (s : State) (p : Nat), s.regsWf = true ∧ (s.port p).beaconUntil ≠ 0 ∧ (s.port p).beaconUntil ≤ s.now ∧
      s.pat.jobs = []) ∧
    (∃ (s : State) (r : CmdReq) (p : List Byte), Fresh s r ∧ s.regsWf = true ∧ p = r.payload ∧ p.length = 18 ∧
      field p 10 2 = 1 ∧ field p 8 2 = 0 ∧ s.badStart (field p 0 8) = false ∧ field p 16 2 < 160 ∧
      field p 16 2 ≠ s.ownPos ∧ s.occupied (field p 16 2) = false ∧ s.portState (field p 16 2) ≠ PS.UP) ∧
    (∃ (s : State) (r : CmdReq) (p : List Byte), Fresh s r ∧ s.regsWf = true ∧ p = r.payload ∧ p.length = 18 ∧
      field p 10 2 = 1 ∧ field p 8 2 = 0 ∧ s.badStart (field p 0 8) = false ∧ field p 16 2 < 160 ∧
      field p 16 2 ≠ s.ownPos ∧ s.portState (field p 16 2) = PS.UP) ∧
    (∃ (s : State) (j : LinkJob) (p : Nat) (m : Nat) (f : Nat), s.regsWf = true ∧ s.isPort p = true ∧
      s.pat.jobs = [j] ∧ j.kind = 2 ∧ j.started = false ∧ j.n ≤ s.now ∧ j.records = [(p, m, f)]) ∧
    (∃ (s : State) (j : LinkJob), s.regsWf = true ∧ s.pat.jobs = [j] ∧ j.kind = 2 ∧ j.started = true ∧
      j.n + 8000 ≤ s.now ∧ j.owner ≠ chipOwner ∧ s.si.pendingAtt = []) ∧
    (∃ (s : State) (k : Nat), s.regsWf = true ∧ k ≤ 1 ∧ s.fbit R.CH_TEST.BUSY = false ∧
      (∀ i, i < 2048 → kget s.chip.testBuf i = none)) :=
  ⟨⟨(at_ [(R.OP_PORT_CTL.FORCE_DOWN 5, 1)] : State),
    ({ owner := 1, tag := 2, payload := leBytes 1000 16 ++ leBytes 1 8 ++ leBytes 0 64 ++ leBytes 5 2 ++ leBytes 0x103 6 } : CmdReq),
    (({ owner := 1, tag := 2, payload := leBytes 1000 16 ++ leBytes 1 8 ++ leBytes 0 64 ++ leBytes 5 2 ++ leBytes 0x103 6 } : CmdReq).payload : List Byte),
    1, fresh_none (by decide +kernel), by decide +kernel⟩,
   ⟨(up [5] : State),
     ({ owner := 1, tag := 2, payload := leBytes 1000 16 ++ leBytes 1 8 ++ leBytes 0 64 ++ leBytes 5 2 ++ leBytes 0x103 6 } : CmdReq),
     (({ owner := 1, tag := 2, payload := leBytes 1000 16 ++ leBytes 1 8 ++ leBytes 0 64 ++ leBytes 5 2 ++ leBytes 0x103 6 } : CmdReq).payload : List Byte),
     1, fresh_none (by decide +kernel), by decide +kernel⟩,
   ⟨({ clock 9 (up [5]) with pat := { jobs := [({ owner := 1, tag := 2, n := 9, records := [(5, 3, 3)] } : LinkJob)] } } : State),
     ({ owner := 1, tag := 2, n := 9, records := [(5, 3, 3)] } : LinkJob), 5, 3, 3, by decide +kernel⟩,
   ⟨({ ({} : State) with pat := { jobs := [({ started := true, tests := [({ port := 5, wl := 1, rx := true } : WlTest)] } : LinkJob)] } } : State),
     ({ started := true, tests := [({ port := 5, wl := 1, rx := true } : WlTest)] } : LinkJob),
     ({ port := 5, wl := 1, rx := true } : WlTest), by decide +kernel⟩,
   ⟨({ ({} : State) with pat := { jobs := [({ started := true, tests := [({ port := 5, wl := 1, rx := true, locked := true, ever := true } : WlTest)] } : LinkJob)] } } : State),
     ({ started := true, tests := [({ port := 5, wl := 1, rx := true, locked := true, ever := true } : WlTest)] } : LinkJob),
     ({ port := 5, wl := 1, rx := true, locked := true, ever := true } : WlTest), by decide +kernel⟩,
   ⟨({ clock 1009 {} with pat := { jobs := [({ owner := 1, tag := 2, n := 9, duration := 1000, started := true, records := [(5, 1, 3)], tests := [{ port := 5, rx := true }] } : LinkJob)] }, host := { tags := [{ owner := 1, tag := 2 }] } } : State),
     ({ owner := 1, tag := 2, n := 9, duration := 1000, started := true, records := [(5, 1, 3)], tests := [{ port := 5, rx := true }] } : LinkJob),
     by decide +kernel⟩,
   ⟨(up [5] : State),
     ({ owner := 1, tag := 2, payload := leBytes 0 8 ++ leBytes 20 2 ++ leBytes 1 2 ++ leBytes 0 4 ++ leBytes 5 2 } : CmdReq),
     (({ owner := 1, tag := 2, payload := leBytes 0 8 ++ leBytes 20 2 ++ leBytes 1 2 ++ leBytes 0 4 ++ leBytes 5 2 } : CmdReq).payload : List Byte),
     fresh_none (by decide +kernel), by decide +kernel⟩,
   ⟨({ clock 9 {} with pat := { jobs := [({ owner := 1, tag := 2, kind := 1, n := 9, records := [(5, 0, 0)] } : LinkJob)] } } : State),
     ({ owner := 1, tag := 2, kind := 1, n := 9, records := [(5, 0, 0)] } : LinkJob), 5, by decide +kernel⟩,
   ⟨({ clock 1009 {} with pat := { jobs := [({ owner := 1, tag := 2, kind := 1, n := 9, duration := 1000, started := true, records := [(5, 0, 4)] } : LinkJob)] }, host := { tags := [{ owner := 1, tag := 2 }] } } : State),
     ({ owner := 1, tag := 2, kind := 1, n := 9, duration := 1000, started := true, records := [(5, 0, 4)] } : LinkJob),
     by decide +kernel⟩,
   ⟨(at_ [(R.OP_PORT_CTL.ENABLE 5, 1)] : State), 5, ({ sender := { rack := 3 } } : Beacon), by decide +kernel⟩,
   ⟨({ clock 9 {} with ports := [(5, { beaconUntil := 9, heard := some {} })] } : State), 5, by decide +kernel⟩,
   ⟨({} : State),
     ({ owner := 1, tag := 2, payload := leBytes 0 10 ++ leBytes 1 2 ++ leBytes 0 4 ++ leBytes 5 2 } : CmdReq),
     (({ owner := 1, tag := 2, payload := leBytes 0 10 ++ leBytes 1 2 ++ leBytes 0 4 ++ leBytes 5 2 } : CmdReq).payload : List Byte),
     fresh_none (by decide +kernel), by decide +kernel⟩,
   ⟨(up [5] : State),
     ({ owner := 1, tag := 2, payload := leBytes 0 10 ++ leBytes 1 2 ++ leBytes 0 4 ++ leBytes 5 2 } : CmdReq),
     (({ owner := 1, tag := 2, payload := leBytes 0 10 ++ leBytes 1 2 ++ leBytes 0 4 ++ leBytes 5 2 } : CmdReq).payload : List Byte),
     fresh_none (by decide +kernel), by decide +kernel⟩,
   ⟨({ clock 9 (up [5]) with pat := { jobs := [({ owner := 1, tag := 2, kind := 2, n := 9, records := [(5, 0, 4)] } : LinkJob)] } } : State),
     ({ owner := 1, tag := 2, kind := 2, n := 9, records := [(5, 0, 4)] } : LinkJob), 5, 0, 4, by decide +kernel⟩,
   ⟨({ clock 8009 {} with pat := { jobs := [({ owner := 1, tag := 2, kind := 2, n := 9, started := true, result := [1, 2, 3] } : LinkJob)] }, host := { tags := [{ owner := 1, tag := 2 }] } } : State),
     ({ owner := 1, tag := 2, kind := 2, n := 9, started := true, result := [1, 2, 3] } : LinkJob),
     by decide +kernel⟩,
   ⟨({} : State), 1, by decide +kernel⟩⟩

/-- Hypotheses of TestsAndPatterns (PatternsRun). -/
theorem test_meets_PatternsRun :
    (∃ (s : State) (g : Nat) (f : Nat), s.regsWf = true ∧ g < 16 ∧ s.fbit (R.PGEN0.RUN g) = true ∧
      s.fget (R.PGEN0.IN_POS g) ≤ 159 ∧ f < 1600 ∧ kgetD s.pat.placed g 0 < s.patternRate g ∧
      s.fget (R.PGEN2.SKIPPED g) + 1 < 2 ^ (R.PGEN2.SKIPPED g).hi) ∧
    (∃ (s : State) (j : Nat) (f : Nat) (c : Cell), s.regsWf = true ∧ j < 16 ∧ c.typ = T.PATTERN ∧
      c.dst = 384 + s.plane ∧ f < 1600 ∧ (∀ k, k < 16 → (s.fbit (R.PCHK0.ENABLE k) = true ∧
      s.fget (R.PCHK0.SRC k) = c.src ∧ s.fget (R.PCHK0.STREAM k) = c.offset % 65536 ↔ k = j)) ∧
      kget s.pat.chkWins j = none ∧ c.payload.toNat / 2 ^ 64 = prbsBits (c.offset % 65536) c.seq ∧
      s.fget (latField j (s.transit c f)) + 1 < 2 ^ ((latField j (s.transit c f)).hi + 1 - (latField j (s.transit c f)).lo)) ∧
    (∃ (s : State) (j : Nat) (v : W64), s.regsWf = true ∧ j < 16 ∧ krising s.pat.chkWins = true ∧ v.toNat % 2 = 1) ∧
    (∃ (s : State) (j : Nat) (v : W64), s.regsWf = true ∧ j < 16 ∧ krising s.pat.chkWins = true ∧ v.toNat % 2 = 0) :=
  ⟨⟨(at_ [(R.PGEN0.RUN 3, 1), (R.PGEN0.RATE 3, 5), (R.PGEN0.IN_POS 3, 5)] : State), 3, 9, by decide +kernel⟩,
   ⟨(at_ [(R.PCHK0.ENABLE 4, 1), (R.PCHK0.SRC 4, 9), (R.PCHK0.STREAM 4, 7)] (clock 5 {}) : State), 4, 900,
     ({ typ := T.PATTERN, dst := 384, src := 9, offset := 7, seq := 11, payload := patternPayload 5 400 7 11 } : Cell),
     by decide +kernel⟩,
   ⟨({ at_ [(R.PCHK1.RECEIVED 4, 9)] with pat := { chkWins := [(4, {})] } } : State), 4, (0x70013 : W64),
     by decide +kernel⟩,
   ⟨({ at_ [(R.PCHK1.RECEIVED 4, 9)] with pat := { chkWins := [(4, {})] } } : State), 4, (0x70012 : W64),
     by decide +kernel⟩⟩

/-- Hypotheses of MembersAndRoots. -/
theorem test_meets_MembersAndRoots :
    (∃ (s : State) (rq : Nat) (ctx : Nat) (ms : Option Nat) (b : List Byte), MemberOk s 17 ctx ms b ∧ rq < 64 ∧
      ctx < 64 ∧ s.holdsBack rq = false ∧ s.now < (s.ep 17).quietUntil ∧ b.length = 64 ∧ (s.ep 17).members = [] ∧
      (s.ep 17).roots = [] ∧ s.planeUsable 17 0 = true) ∧
    (∃ (s : State) (rq : Nat) (ctx : Nat) (ms : Option Nat) (b : List Byte), rq < 64 ∧ ctx < 64 ∧
      s.holdsBack rq = false ∧ s.now < (s.ep 17).quietUntil ∧ (∀ k ∈ ms, k < 4096) ∧ s.chipArmStatus b = ST.OK ∧
      (s.ep 17).members = []) ∧
    (∃ (s : State) (rq : Nat) (ctx : Nat) (ms : Option Nat) (b : List Byte), rq < 64 ∧ ctx < 64 ∧
      s.holdsBack rq = false ∧ s.now < (s.ep 17).quietUntil ∧ (∀ k ∈ ms, k < 4096) ∧ s.chipArmStatus b ≠ ST.OK) ∧
    (∃ (s : State) (rq : Nat) (ctx : Nat) (ms : Option Nat) (b : List Byte) (m : Member), rq < 64 ∧ ctx < 64 ∧
      s.holdsBack rq = false ∧ s.now < (s.ep 17).quietUntil ∧ (∀ k ∈ ms, k < 4096) ∧ (s.ep 17).members = [m] ∧
      m.slot = field b 0 2 ∧ m.slot < 8192 ∧ m.group = field b 2 2 ∧ m.group < 4096 ∧ m.iseq = field b 4 4) :=
  ⟨⟨((let s := at_ [(R.CH_CTL.EP_ID, 9), (R.TRANS0.VALID 17 0, 1), (R.TRANS0.CONTEXT 17 0, 5), (R.TRANS0.SIZE_LOG2 17 0, 20), (R.TRANS0.READ 17 0, 1), (R.TRANS1.VA_BASE 17 0, 0x100), (R.TRANS2.GA_BASE 17 0, 2 * 2 ^ 44 + 9 * 2 ^ 32), (R.MS_INFO.OWNER 17 9, 5)] (up [160, 161, 175]); { s with chip := { rack := 2 } }) : State),
    2, 5, (some 9 : Option Nat),
    (leBytes 12 2 ++ leBytes 7 2 ++ leBytes 3 4 ++ desc 0 2 2 5 30 ++ leBytes 0 2 ++ leBytes 0x100000 8 ++ leBytes 999 8 ++ leBytes 0 6 ++ leBytes 0 18 : List Byte),
    ⟨by decide +kernel, by decide +kernel, by decide +kernel, by decide +kernel, by decide +kernel,
    ex_some (by decide +kernel)⟩, by decide +kernel⟩,
   ⟨((let s := clock 10 (at_ [(R.CH_CTL.EP_ID, 9)] {}); { s with chip := { rack := 2 } }) : State), 2, 5,
     (none : Option Nat), (armBytes (desc 0 2 2 9 30) 0x2000 100 : List Byte), by decide +kernel⟩,
   ⟨((let s := clock 10 (at_ [(R.CH_CTL.EP_ID, 9)] {}); { s with chip := { rack := 2 } }) : State), 2, 5,
     (none : Option Nat), (armBytes (desc 0 2 2 9 30) 0x2000 63 : List Byte), by decide +kernel⟩,
   ⟨({ at_ [(R.CH_CTL.EP_ID, 9)] {} with eps := [(17, { members := [({ slot := 12, group := 7, iseq := 3, ctx := 5, desc := desc 0 2 2 5 30 } : Member)] })] } : State),
     2, 5, (none : Option Nat), (leBytes 12 2 ++ leBytes 7 2 ++ leBytes 3 4 ++ leBytes 0 56 : List Byte),
     ({ slot := 12, group := 7, iseq := 3, ctx := 5, desc := desc 0 2 2 5 30 } : Member), by decide +kernel,
     by decide +kernel⟩⟩

/-- Hypotheses of ChipletMessages. -/
theorem test_meets_ChipletMessages :
    (∃ (s : State) (r : MemReq), s.regsWf = true ∧ s.holdsBack r.observer = true) ∧
    (∃ (s : State) (rq : Nat), s.regsWf = true ∧ s.holdsBack rq = true) ∧
    (∃ (s : State) (r : MemReq) (x : Xlat), s.regsWf = true ∧ r.observer < 64 ∧ s.holdsBack r.observer = false ∧
      1 ≤ r.op ∧ r.op ≤ 5 ∧ r.ctx < 64 ∧ r.scope < 8 ∧ (lenCode r.len).isSome = true ∧ r.ms.map (· % 4096) = r.ms ∧
      s.chip.selfAns = [] ∧ (s.ep 17).waits = [] ∧ (∀ w ∈ s.transEntries 17, s.badEntry 17 w = false) ∧
      s.check 17 r = (ST.OK, some x) ∧ x.ga / 2 ^ 44 % 1024 ≠ s.epId 17 ∧ s.now < (s.ep 17).quietUntil) ∧
    (∃ (s : State) (rq : Nat) (ctx : Nat) (scope : Nat), s.regsWf = true ∧ rq < 64 ∧ ctx < 64 ∧ scope < 8 ∧
      s.holdsBack rq = false ∧ s.outstanding 17 rq ctx ≠ []) ∧
    (∃ (s : State) (rq : Nat) (ctx : Nat) (scope : Nat) (ms : Nat), s.regsWf = true ∧ rq < 64 ∧ ctx < 64 ∧ scope < 8 ∧
      s.holdsBack rq = false ∧ ms < 4096 ∧ s.fget (R.MS_INFO.OWNER 17 ms) ≠ ctx) ∧
    (∃ (s : State) (rq : Nat) (ctx : Nat) (scope : Nat) (ms : Nat) (v : W64), s.regsWf = true ∧ rq < 64 ∧ ctx < 64 ∧
      scope < 8 ∧ s.holdsBack rq = false ∧ ms < 4096 ∧ s.fget (R.MS_INFO.OWNER 17 ms) = ctx ∧
      v.toNat ≤ s.fget (R.MS_COUNT.COUNT 17 ms)) ∧
    (∃ (s : State) (rq : Nat) (ctx : Nat) (scope : Nat) (ms : Nat) (v : W64), s.regsWf = true ∧ rq < 64 ∧ ctx < 64 ∧
      scope < 8 ∧ s.holdsBack rq = false ∧ ms < 4096 ∧ s.fget (R.MS_INFO.OWNER 17 ms) = ctx ∧
      s.fget (R.MS_COUNT.COUNT 17 ms) < v.toNat ∧ 256 ≤ (s.ep 17).waits.length) ∧
    (∃ (s : State) (rq : Nat) (ctx : Nat) (scope : Nat) (ms : Nat) (v : W64), s.regsWf = true ∧ rq < 64 ∧ ctx < 64 ∧
      scope < 8 ∧ s.holdsBack rq = false ∧ ms < 4096 ∧ s.fget (R.MS_INFO.OWNER 17 ms) = ctx ∧
      s.fget (R.MS_COUNT.COUNT 17 ms) < v.toNat ∧ (s.ep 17).waits.length < 256) ∧
    (∃ (s : State) (rq : Nat) (ctx : Nat) (scope : Nat) (ms : Nat) (v : W64), s.regsWf = true ∧ rq < 64 ∧ ctx < 64 ∧
      scope < 8 ∧ s.holdsBack rq = false ∧ ms < 4096 ∧ s.fget (R.MS_INFO.OWNER 17 ms) = ctx ∧ v ≠ 0 ∧
      s.outstanding 17 rq ctx = [] ∧ s.lostPending 17 rq ctx = false ∧ (s.ep 17).waits = []) ∧
    (∃ (s : State) (p : Nat) (ctx : Nat) (b : List Byte), s.regsWf = true ∧ s.chip.hold = false ∧ p < 16 ∧ ctx < 64 ∧
      32 ≤ b.length ∧ b.length ≤ 1056 ∧ s.now < (s.ep 17).quietUntil) :=
  ⟨⟨({ ({} : State) with chip := { hold := true } } : State), ({ observer := 2, tag := 3, ctx := 5 } : MemReq),
    by decide +kernel⟩,
   ⟨({ ({} : State) with chip := { hold := true } } : State), 2, by decide +kernel⟩,
   ⟨((let s := at_ [(R.CH_CTL.EP_ID, 9), (R.TRANS0.VALID 17 0, 1), (R.TRANS0.CONTEXT 17 0, 5), (R.TRANS0.SIZE_LOG2 17 0, 20), (R.TRANS0.WRITE 17 0, 1), (R.TRANS1.VA_BASE 17 0, 0x100), (R.TRANS2.GA_BASE 17 0, 2 * 2 ^ 44 + 131 * 2 ^ 32)] (up [160, 161, 162, 163, 164, 175]); { s with chip := { rack := 2 }, eps := [(17, { reqs := [{ id := 77, r := { observer := 2, op := 0 } }] })] }) : State),
     ({ observer := 2, tag := 3, ctx := 5, op := 4, len := 128, addr := 0x100080, scope := 4 } : MemReq),
     ((((let s := at_ [(R.CH_CTL.EP_ID, 9), (R.TRANS0.VALID 17 0, 1), (R.TRANS0.CONTEXT 17 0, 5), (R.TRANS0.SIZE_LOG2 17 0, 20), (R.TRANS0.WRITE 17 0, 1), (R.TRANS1.VA_BASE 17 0, 0x100), (R.TRANS2.GA_BASE 17 0, 2 * 2 ^ 44 + 131 * 2 ^ 32)] (up [160, 161, 162, 163, 164, 175]); { s with chip := { rack := 2 }, eps := [(17, { reqs := [{ id := 77, r := { observer := 2, op := 0 } }] })] }) : State).lookup 17 5 0x100080).getD { ga := 0, read := false, write := false, atomic := false, cache := false, window := 0 } : Xlat),
     by decide +kernel, by decide +kernel, by decide +kernel, by decide +kernel, by decide +kernel,
     by decide +kernel⟩,
   ⟨({ ({} : State) with eps := [(17, { reqs := [{ id := 77, r := { observer := 2, op := 0 } }] })] } : State), 2, 5,
     4, by decide +kernel⟩,
   ⟨({} : State), 2, 5, 4, 9, by decide +kernel⟩,
   ⟨(at_ [(R.MS_INFO.OWNER 17 9, 5), (R.MS_COUNT.COUNT 17 9, 4)] : State), 2, 5, 4, 9, (4 : W64), by decide +kernel⟩,
   ⟨({ at_ [(R.MS_INFO.OWNER 17 9, 5), (R.MS_COUNT.COUNT 17 9, 3)] with eps := [(17, { waits := List.replicate 256 { observer := 9 } })] } : State),
     2, 5, 4, 9, (4 : W64), by decide +kernel⟩,
   ⟨({ at_ [(R.MS_INFO.OWNER 17 9, 5), (R.MS_COUNT.COUNT 17 9, 3)] with eps := [(17, { waits := List.replicate 255 { observer := 9 } })] } : State),
     2, 5, 4, 9, (4 : W64), by decide +kernel⟩,
   ⟨(at_ [(R.MS_INFO.OWNER 17 9, 5), (R.MS_COUNT.COUNT 17 9, 2 ^ 64 - 1)] : State), 2, 5, 4, 9, (4 : W64),
     by decide +kernel, by decide +kernel⟩,
   ⟨({} : State), 15, 5, ((List.range 1056).map (BitVec.ofNat 8) : List Byte), by decide +kernel⟩⟩

/-- Hypotheses of HomeMemoryServes. -/
theorem test_meets_HomeMemoryServes :
    (∃ (s : State) (line : Nat) (x : StoreLine) (k : Nat) (c : Cell), s.chip.selfAns = [] ∧ (s.ep 17).members = [] ∧
      (s.ep 17).roots = [] ∧ s.findLine line = some x ∧ x.awaitData = true ∧ x.waiting = [(k, c)] ∧ k < 16 ∧
      s.planeUsable 17 k = true ∧ c.typ = T.READ) ∧
    (∃ (s : State) (line : Nat) (x : StoreLine) (k : Nat) (c : Cell), s.chip.selfAns = [] ∧ (s.ep 17).members = [] ∧
      (s.ep 17).roots = [] ∧ s.findLine line = some x ∧ x.awaitData = true ∧ x.waiting = [(k, c)] ∧ k < 16 ∧
      s.planeUsable 17 k = true ∧ (c.typ ≠ T.WRITE ∨ c.bytes < 64) ∧ s.regsWf = true ∧ x.since + 64 ≤ s.now) ∧
    (∃ (s : State) (line : Nat) (x : StoreLine) (k : Nat) (c : Cell), s.chip.selfAns = [] ∧ (s.ep 17).members = [] ∧
      (s.ep 17).roots = [] ∧ s.findLine line = some x ∧ x.awaitData = true ∧ x.waiting = [(k, c)] ∧ k < 16 ∧
      s.planeUsable 17 k = true ∧ c.typ = T.WRITE ∧ c.bytes = 64 ∧ s.homeLine c.offset = line) ∧
    (∃ (s : State) (line : Nat) (x : StoreLine), s.chip.selfAns = [] ∧ (s.ep 17).members = [] ∧ (s.ep 17).roots = [] ∧
      s.findLine line = some x ∧ s.now < x.since + 64) ∧
    (∃ (s : State) (line : Nat) (x : StoreLine) (k : Nat) (c : Cell) (l : List (Nat × Cell)), s.chip.selfAns = [] ∧
      (s.ep 17).members = [] ∧ (s.ep 17).roots = [] ∧ s.findLine line = some x ∧
      takeFirst (fun a => s.homeLine a.2.offset == line) s.chip.storeQueue = some ((k, c), l) ∧ x.valid = true ∧
      x.waiting = [] ∧ c.typ = T.READ ∧ k < 16 ∧ s.planeUsable 17 k = true) ∧
    (∃ (s : State) (line : Nat) (k : Nat) (c : Cell) (l : List (Nat × Cell)), s.homeRoom = none ∧
      s.chip.selfAns = [] ∧ (s.ep 17).members = [] ∧ (s.ep 17).roots = [] ∧ s.findLine line = none ∧
      takeFirst (fun a => s.homeLine a.2.offset == line) s.chip.storeQueue = some ((k, c), l)) ∧
    (∃ (s : State) (line : Nat) (k : Nat) (c : Cell) (l : List (Nat × Cell)), s.chip.selfAns = [] ∧
      (s.ep 17).members = [] ∧ (s.ep 17).roots = [] ∧ s.findLine line = none ∧
      takeFirst (fun a => s.homeLine a.2.offset == line) s.chip.storeQueue = some ((k, c), l) ∧
      s.chip.store.length < 8192 ∧ c.typ = T.READ) :=
  ⟨⟨({ up [165] with chip := { store := [{ line := 3 }, ({ line := 7, awaitData := true, since := 6, awaitDone := 1, waiting := [(5, ({ typ := T.READ, src := 130, offset := 0x1c0 + 4, len := 2, seq := 6 } : Cell))] } : StoreLine)] }, tb := { frame := 70 } } : State),
    7,
    ({ line := 7, awaitData := true, since := 6, awaitDone := 1, waiting := [(5, ({ typ := T.READ, src := 130, offset := 0x1c0 + 4, len := 2, seq := 6 } : Cell))] } : StoreLine),
    5, ({ typ := T.READ, src := 130, offset := 0x1c0 + 4, len := 2, seq := 6 } : Cell), by decide +kernel⟩,
   ⟨({ up [165] with chip := { store := [{ line := 3 }, ({ line := 7, awaitData := true, since := 6, awaitDone := 1, waiting := [(5, ({ typ := T.READ, src := 130, offset := 0x1c0 + 4, len := 2, seq := 6 } : Cell))] } : StoreLine)] }, tb := { frame := 70 } } : State),
     7,
     ({ line := 7, awaitData := true, since := 6, awaitDone := 1, waiting := [(5, ({ typ := T.READ, src := 130, offset := 0x1c0 + 4, len := 2, seq := 6 } : Cell))] } : StoreLine),
     5, ({ typ := T.READ, src := 130, offset := 0x1c0 + 4, len := 2, seq := 6 } : Cell), by decide +kernel,
     by decide +kernel⟩,
   ⟨({ up [165] with chip := { store := [{ line := 3 }, ({ line := 7, awaitData := true, since := 6, awaitDone := 1, waiting := [(5, ({ typ := T.WRITE, src := 130, offset := 0x1c0, len := 6, seq := 6, payload := 0xffffffffffffffffffffff } : Cell))] } : StoreLine)] }, tb := { frame := 70 } } : State),
     7,
     ({ line := 7, awaitData := true, since := 6, awaitDone := 1, waiting := [(5, ({ typ := T.WRITE, src := 130, offset := 0x1c0, len := 6, seq := 6, payload := 0xffffffffffffffffffffff } : Cell))] } : StoreLine),
     5,
     ({ typ := T.WRITE, src := 130, offset := 0x1c0, len := 6, seq := 6, payload := 0xffffffffffffffffffffff } : Cell),
     by decide +kernel, by decide +kernel⟩,
   ⟨({ up [165] with chip := { store := [{ line := 3 }, ({ line := 7, awaitData := true, since := 7, awaitDone := 1, waiting := [] } : StoreLine)] }, tb := { frame := 70 } } : State),
     7, ({ line := 7, awaitData := true, since := 7, awaitDone := 1, waiting := [] } : StoreLine), by decide +kernel⟩,
   ⟨({ up [165] with chip := { store := [{ line := 3 }, ({ line := 7, valid := true, data := 0x123456789abcdef0fedcba } : StoreLine)], storeQueue := [(4, { offset := 0x40 }), (5, ({ typ := T.READ, src := 130, offset := 0x1c0 + 4, len := 2, seq := 6 } : Cell)), (4, { offset := 0x1c0 })] } } : State),
     7, ({ line := 7, valid := true, data := 0x123456789abcdef0fedcba } : StoreLine), 5,
     ({ typ := T.READ, src := 130, offset := 0x1c0 + 4, len := 2, seq := 6 } : Cell),
     ([(4, { offset := 0x40 }), (4, { offset := 0x1c0 })] : List (Nat × Cell)), by decide +kernel⟩,
   ⟨({ up [165] with chip := { store := List.replicate 8192 { line := 8, awaitData := true }, storeQueue := [(4, { offset := 0x40 }), (5, ({ typ := T.READ, src := 130, offset := 0x1c0 + 4, len := 2, seq := 6 } : Cell))] } } : State),
     7, 5, ({ typ := T.READ, src := 130, offset := 0x1c0 + 4, len := 2, seq := 6 } : Cell),
     ([(4, { offset := 0x40 })] : List (Nat × Cell)),
     by unfold State.homeRoom; rw [if_neg (by decide +kernel)]; rw [show ∀ n, evictLine (List.replicate n { line := 8, awaitData := true }) = none from fun n => by induction n with | zero => rfl | succ n ih => rw [List.replicate_succ, evictLine, ih]; rfl]; rfl,
     by decide +kernel⟩,
   ⟨({ up [165] with chip := { store := [{ line := 8, awaitData := true }], storeQueue := [(4, { offset := 0x40 }), (5, ({ typ := T.READ, src := 130, offset := 0x1c0 + 4, len := 2, seq := 6 } : Cell))] } } : State),
     7, 5, ({ typ := T.READ, src := 130, offset := 0x1c0 + 4, len := 2, seq := 6 } : Cell),
     ([(4, { offset := 0x40 })] : List (Nat × Cell)), by decide +kernel⟩⟩

/-- Hypotheses of ChipletControl. -/
theorem test_meets_ChipletControl :
    (∃ (s : State), s.regsWf = true ∧ s.chip.hold = false) ∧
    (∃ (s : State) (m : Nat), s.regsWf = true ∧ m < 8 ∧ s.chip.hold = false ∧ s.chip.leftOut.contains m = false) ∧
    (∃ (s : State) (m : Nat), s.regsWf = true ∧ m < 8 ∧ s.chip.hold = false ∧ s.chip.leftOut.contains m = true) ∧
    (∃ (s : State) (i : Instr) (j : Nat) (o : Nat) (h : Bool), ((i = .chipletReset ∧
      h = s.chip.hold) ∨ (i = .chipletThermalTrip j o ∧ (105 ≤ j ∨ 100 ≤ o) ∧ h = true)) ∧ s.regsWf = true) ∧
    (∃ (s : State) (j : Nat) (o : Nat), s.regsWf = true ∧ j < 105 ∧ o < 100 ∧ s.chip.hold = false) ∧
    (∃ (s : State) (j : Nat) (o : Nat), s.regsWf = true ∧ j < 85 ∧ o < 85) ∧
    (∃ (s : State) (j : Nat) (o : Nat), s.regsWf = true ∧ (85 ≤ j ∨ 85 ≤ o)) :=
  ⟨⟨({} : State), by decide +kernel⟩,
   ⟨({} : State), 3, by decide +kernel⟩,
   ⟨({ at_ [(R.CH_STATUS.MODULES, 247)] {} with chip := { leftOut := [3] } } : State), 3, by decide +kernel⟩,
   ⟨({ at_ [(R.CH_STATUS.MODULES, 247), (R.CH_LASER.WEAR 0, 5), (R.CP_STATE.STATE, 6)] (up [3, 165]) with chip := { leftOut := [3], fwMajor := 2 }, eps := [(17, { reqs := [{ id := 77, r := { observer := 2, op := 0 }, dest := .complete 2 3 }], waits := [{ observer := 5, tag := 6 }] })] } : State),
     (.chipletThermalTrip 105 99 : Instr), 105, 99, true, .inr ⟨rfl, by decide +kernel, rfl⟩, by decide +kernel⟩,
   ⟨({} : State), 104, 99, by decide +kernel⟩,
   ⟨({ ({} : State) with chip := { hold := true } } : State), 84, 84, by decide +kernel⟩,
   ⟨({ ({} : State) with chip := { hold := true } } : State), 84, 85, by decide +kernel⟩⟩

/-- Hypotheses of CollRequestsHeld. -/
theorem test_meets_CollRequestsHeld :
    (∃ (s : State) (c : Nat) (h : Nat) (w : W64) (b : List Byte) (ms : Option Nat), h = c / 16 ∧
      b = s.sget c (s.sv c (fmtQ w).a).toNat 64 ∧ ms = (if (fmtQ w).msv = 1 then some (fmtQ w).ms else none) ∧
      Runs s c 2 0x36 w ∧ s.scratchFault c 32 (s.sv c (fmtQ w).a).toNat 64 = none ∧ (s.ep h).members.length ≤ 64) ∧
    (∃ (s : State) (c : Nat) (h : Nat) (w : W64) (b : List Byte) (ms : Option Nat), h = c / 16 ∧
      b = s.sget c (s.sv c (fmtQ w).a).toNat 64 ∧ ms = (if (fmtQ w).msv = 1 then some (fmtQ w).ms else none) ∧
      Runs s c 2 0x36 w ∧ s.scratchFault c 32 (s.sv c (fmtQ w).a).toNat 64 = none ∧ 64 ≤ (s.ep h).members.length) ∧
    (∃ (s : State) (c : Nat) (h : Nat) (w : W64) (b : List Byte) (ms : Option Nat), h = c / 16 ∧
      b = s.sget c (s.sv c (fmtQ w).a).toNat 64 ∧ ms = (if (fmtQ w).msv = 1 then some (fmtQ w).ms else none) ∧
      Runs s c 2 0x36 w ∧ MemberOk s h (s.core c).run.ctx ms b ∧
      s.scratchFault c 32 (s.sv c (fmtQ w).a).toNat 64 = none ∧ s.now < (s.ep h).quietUntil ∧ (s.ep h).members = [] ∧
      (s.ep h).roots = []) ∧
    (∃ (s : State) (c : Nat) (h : Nat) (w : W64) (b : List Byte) (ms : Option Nat), h = c / 16 ∧
      b = s.sget c (s.sv c (fmtQ w).a).toNat 64 ∧ ms = (if (fmtQ w).msv = 1 then some (fmtQ w).ms else none) ∧
      Runs s c 2 0x36 w ∧ s.scratchFault c 32 (s.sv c (fmtQ w).a).toNat 64 = none ∧ (s.ep h).members.length < 64 ∧
      blockZero b = false ∧ ms = none) ∧
    (∃ (s : State) (c : Nat) (h : Nat) (w : W64) (b : List Byte) (ms : Option Nat) (m : Member), h = c / 16 ∧
      b = s.sget c (s.sv c (fmtQ w).a).toNat 64 ∧ ms = (if (fmtQ w).msv = 1 then some (fmtQ w).ms else none) ∧
      Runs s c 2 0x37 w ∧ s.scratchFault c 32 (s.sv c (fmtQ w).a).toNat 64 = none ∧ s.now < (s.ep h).quietUntil ∧
      (s.ep h).members = [m] ∧ m.slot = field b 0 2 ∧ m.slot < 8192 ∧ m.group = field b 2 2 ∧ m.group < 4096 ∧
      m.iseq = field b 4 4) ∧
    (∃ (s : State) (c : Nat) (h : Nat) (w : W64) (b : List Byte) (ms : Option Nat), h = c / 16 ∧
      b = s.sget c (s.sv c (fmtQ w).a).toNat 64 ∧ ms = (if (fmtQ w).msv = 1 then some (fmtQ w).ms else none) ∧
      Runs s c 2 0x37 w ∧ s.scratchFault c 32 (s.sv c (fmtQ w).a).toNat 64 = none ∧
      (∀ m ∈ (s.ep h).members, m.slot ≠ field b 0 2 % 8192 ∨ m.group ≠ field b 2 2 % 4096 ∨ m.iseq ≠ field b 4 4)) :=
  ⟨⟨((let s := at_ [(R.MS_INFO.OWNER 3 9, 5), (R.TRANS2.GA_BASE 3 0, 131 * 2 ^ 32)] (mapped (running (0x36 + 6 * 8192 : W64) (regs5 [0x40, 0x2000, 0, 3]) (Memory.write [] (16384 + 0x40) (leBytes 12 2 ++ leBytes 7 2 ++ leBytes 3 4 ++ desc 0 2 2 5 30 ++ leBytes 0 2 ++ leBytes 0x100000 8 ++ leBytes 999 8 ++ leBytes 0 6 ++ leBytes 0 18)))); s) : State),
    53, _, (0x36 + 6 * 8192 : W64), _, _, rfl, rfl, rfl, by unfold Runs; decide +kernel, by decide +kernel⟩,
   ⟨((let s := at_ [(R.MS_INFO.OWNER 3 9, 5)] (mapped (running (0x36 + 6 * 8192 : W64) regs5)); { s with eps := [(3, { members := List.replicate 64 {} })] }) : State),
     53, _, (0x36 + 6 * 8192 : W64), _, _, rfl, rfl, rfl, by unfold Runs; decide +kernel, by decide +kernel⟩,
   ⟨((let s := at_ [(R.MS_INFO.OWNER 3 9, 5), (R.TRANS2.GA_BASE 3 0, 131 * 2 ^ 32)] (mapped (running (0x36 + 6 * 8192 : W64) (regs5 [0x40, 0x2000, 0, 3]) (Memory.write [] (16384 + 0x40) (leBytes 12 2 ++ leBytes 7 2 ++ leBytes 3 4 ++ desc 0 2 2 5 30 ++ leBytes 0 2 ++ leBytes 0x100000 8 ++ leBytes 999 8 ++ leBytes 0 6 ++ leBytes 0 18)))); s) : State),
     53, _, (0x36 + 6 * 8192 : W64), _, _, rfl, rfl, rfl, by unfold Runs; decide +kernel, ⟨by decide +kernel,
     by decide +kernel, by decide +kernel, by decide +kernel, by decide +kernel, ex_some (by decide +kernel)⟩,
     by decide +kernel⟩,
   ⟨(running (0x36 + 6 * 8192 : W64) (regs5 [0x40, 0x2000, 0, 3]) [(16384 + 0x40 + 22, 1)] : State), 53, _,
     (0x36 + 6 * 8192 : W64), _, _, rfl, rfl, rfl, by unfold Runs; decide +kernel, by decide +kernel⟩,
   ⟨((let s := at_ [(R.MS_INFO.OWNER 3 9, 5), (R.TRANS2.GA_BASE 3 0, 131 * 2 ^ 32)] (mapped (running (0x37 + 6 * 8192 : W64) (regs5 [0x40, 0x2000, 0, 3]) (Memory.write [] (16384 + 0x40) (leBytes 12 2 ++ leBytes 7 2 ++ leBytes 3 4 ++ desc 0 2 2 5 30 ++ leBytes 0 2 ++ leBytes 0x100000 8 ++ leBytes 999 8 ++ leBytes 0 6 ++ leBytes 0 18)))); { s with eps := [(3, { members := [({ slot := 12, group := 7, iseq := 3, ctx := 5, desc := desc 0 2 2 5 30 } : Member)] })] }) : State),
     53, _, (0x37 + 6 * 8192 : W64), _, _,
     ({ slot := 12, group := 7, iseq := 3, ctx := 5, desc := desc 0 2 2 5 30 } : Member), rfl, rfl, rfl,
     by unfold Runs; decide +kernel, by decide +kernel⟩,
   ⟨((let s := at_ [(R.MS_INFO.OWNER 3 9, 5), (R.TRANS2.GA_BASE 3 0, 131 * 2 ^ 32)] (mapped (running (0x37 + 6 * 8192 : W64) (regs5 [0x40, 0x2000, 0, 3]) (Memory.write [] (16384 + 0x40) (leBytes 12 2 ++ leBytes 7 2 ++ leBytes 3 4 ++ desc 0 2 2 5 30 ++ leBytes 0 2 ++ leBytes 0x100000 8 ++ leBytes 999 8 ++ leBytes 0 6 ++ leBytes 0 18)))); s) : State),
     53, _, (0x37 + 6 * 8192 : W64), _, _, rfl, rfl, rfl, by unfold Runs; decide +kernel, by decide +kernel⟩⟩

/-- Hypotheses of CountersAreShadowed. -/
theorem test_meets_CountersAreShadowed :
    (∃ (s : State), s.regsWf = true ∧ s.al.snapDue = none) ∧
    (∃ (s : State) (f : Nat), s.regsWf = true ∧ s.al.snapDue = some f ∧ s.now ≤ f) ∧
    (∃ (s : State) (f : Nat), s.regsWf = true ∧ s.al.snapDue = some f ∧ f < s.now) :=
  ⟨⟨(clock 6 (at_ [(R.TM_SNAP.DONE, 1)] {}) : State), by decide +kernel⟩,
   ⟨(clock 5 { (at_ [(R.TM_SNAP.DONE, 1)] {}) with al := { snapDue := some 5 } } : State), 5, by decide +kernel⟩,
   ⟨(clock 6 { ({ ({} : State) with al := { snapDue := some 5 } }).setReg (R.TM_POS.addr 9 3) 0x1234 with boot := {} } : State),
     5, by decide +kernel⟩⟩

/-- Hypotheses of UnassignedAddresses. -/
theorem test_meets_UnassignedAddresses :
    (∃ (a : Nat), unassigned a = true ∧ a % 8 = 0 ∧ a < 2 ^ 32) ∧
    (∃ (s : State) (a : Nat), unassigned a = true ∧ a % 8 = 0 ∧ a < 2 ^ 32 ∧ s.sled ≠ SS.OFF) ∧
    (∃ (a : Nat) (k : Nat), unassigned a = true ∧ a % 8 = 0 ∧ a < 2 ^ 32 ∧ k < 3) ∧
    (∃ (s : State) (a : Nat) (r : CmdReq), Fresh s r ∧ unassigned a = true ∧ a % 8 = 0 ∧ a < 2 ^ 32 ∧
      r.payload = leBytes a 4) ∧
    (∃ (s : State) (a : Nat) (v : W64) (r : CmdReq), Fresh s r ∧ unassigned a = true ∧ a % 8 = 0 ∧ a < 2 ^ 32 ∧
      r.payload = leBytes a 8 ++ leBytes v.toNat 8) :=
  ⟨⟨0x10FF8, by decide +kernel⟩,
   ⟨({} : State), 0x10FF8, by decide +kernel⟩,
   ⟨0x10FF8, 1, by decide +kernel⟩,
   ⟨({} : State), 0x10FF8, ({ owner := 1, tag := 2, payload := leBytes 0x10FF8 4 } : CmdReq),
     fresh_none (by decide +kernel), by decide +kernel⟩,
   ⟨({} : State), 0x10FF8, (5 : W64),
     ({ owner := 1, tag := 2, payload := leBytes 0x10FF8 8 ++ leBytes (5 : W64).toNat 8 } : CmdReq),
     fresh_none (by decide +kernel), by decide +kernel⟩⟩

/-- Hypotheses of ReservedIdsAreRefused. -/
theorem test_meets_ReservedIdsAreRefused :
    ∃ (s : State) (e : Nat) (r : MemReq) (x : Xlat), e < 18 ∧ r.ms = none ∧ s.chip.selfAns = [] ∧
      s.lookup e r.ctx r.addr = some x ∧
      (if r.op ≤ 2 then x.read else if r.op = 5 then x.atomic else x.write) = true ∧
      (416 ≤ x.ga / 2 ^ 44 % 1024 ∨ (r.op = 6 ∧ 416 ≤ r.reader)) ∧ s.lostPending e r.observer r.ctx = false :=
  ⟨((let s := at_ [(R.TRANS2.GA_BASE 3 0, 416 * 2 ^ 32)] (mapped (running 0x25 regs5)); s) : State), 3,
    ({ observer := 20, tag := 3, ctx := 5, op := 1, len := 8, addr := 0x100000 } : MemReq),
    ((((let s := at_ [(R.TRANS2.GA_BASE 3 0, 416 * 2 ^ 32)] (mapped (running 0x25 regs5)); s) : State).lookup 3 5 0x100000).getD { ga := 0, read := false, write := false, atomic := false, cache := false, window := 0 } : Xlat),
    by decide +kernel⟩

/-- Hypotheses of StepTakesFront. -/
theorem test_meets_StepTakesFront :
    (∃ (s : State) (i : Instr) (l : List Instr), s.pending = i :: l) ∧ ∃ s : State, s.pending = [] :=
  ⟨⟨{ pending := [.lockLost, .ageDiscard] }, _, _, rfl⟩, {}, rfl⟩

/-- Hypotheses of ResetState. -/
theorem test_meets_ResetState : (∃ h : Nat, h < 16 ∧ h = 15) ∧ (∃ c : Nat, c < 256 ∧ c = 255) ∧ ∃ p : Nat, p < 176 ∧ p = 175 :=
  ⟨⟨15, by decide⟩, ⟨255, by decide⟩, 175, by decide⟩

/-- Hypotheses of StepsStaySound: a command waits, memory and registers hold something. -/
theorem test_meets_StepsStaySound : ∃ s : State, Sound s ∧ s.pending = [.lockLost] ∧ s.mem ≠ [] ∧ s.regs ≠ [] :=
  ⟨{ at_ [(R.CP_STATE.STATE, SS.SERVICE)] with mem := [(5, 1)], pending := [.lockLost] }, by unfold Sound; decide +kernel,
   rfl, by decide, by decide +kernel⟩

/-- Hypotheses of QueueAndOutputsStand. -/
theorem test_meets_QueueAndOutputsStand : ∃ (i : Instr) (s t : State), exec i s = .next t ∧ s.pending = [.ageDiscard] :=
  ⟨.combineEn false, { pending := [.ageDiscard] }, _, rfl, rfl⟩

/-- Hypotheses of StrapsStayLatched. -/
theorem test_meets_StrapsStayLatched :
    ∃ (i : Instr) (s t : State), exec i s = .next t ∧ t.boot.latched ≠ s.boot.latched :=
  ⟨.bootEntry { slotId := 3, plug := true } { railFail := true }, at_ [(R.PT_COOLANT.FLOW, 40), (R.PT_COOLANT.INLET, 20)]
     (inState SS.STANDBY { boot := { inputOk := true, presentLow := true } }), _, rfl,
   by decide +kernel⟩

/-- Hypotheses of StoresReadBack. -/
theorem test_meets_StoresReadBack :
    (∃ m : Memory, Memory.wf m = true ∧ m ≠ []) ∧ (∃ s : State, s.regsWf = true ∧ s.regs ≠ []) ∧
    ∃ (s : State) (f : Fld) (v : Nat), s.regsWf = true ∧ f.lo ≤ f.hi ∧ f.hi < 64 ∧ v < 2 ^ (f.hi + 1 - f.lo) :=
  ⟨⟨[(5, 1), (7, 2)], by decide⟩, ⟨inState SS.SERVICE, by decide +kernel⟩, inState SS.SERVICE, R.TB_POWER.LIMIT, 65535,
   by decide +kernel⟩

end Sys2Proof.Tests
end

/-! # Every command keeps a state sound -/
section
namespace Sys2Proof.Machine

open Sys2Proof.Laws

variable {s t u : State} {α β : Type}

/-- What every step keeps of the state it starts from: soundness, the queue and what has left the block. -/
structure Keeps (s t : State) : Prop where
  sound : Sound s → Sound t
  pending : t.pending = s.pending
  out : s.out <:+ t.out

theorem Keeps.refl (s : State) : Keeps s s := ⟨id, rfl, List.suffix_refl _⟩

theorem Keeps.trans (h : Keeps s t) (k : Keeps t u) : Keeps s u :=
  ⟨k.sound ∘ h.sound, k.pending.trans h.pending, h.out.trans k.out⟩

/-- What every step but BOOT_ENTRY keeps: the latched straps too, on which the reset values of registers depend (R20). -/
structure Evolves (s t : State) : Prop extends Keeps s t where
  latched : t.boot.latched = s.boot.latched

theorem Evolves.refl (s : State) : Evolves s s := ⟨.refl s, rfl⟩

theorem Evolves.trans (h : Evolves s t) (k : Evolves t u) : Evolves s u :=
  ⟨h.toKeeps.trans k.toKeeps, k.latched.trans h.latched⟩

/-- A meaning answers a next state that evolves from s. -/
def Continues (s : State) (r : Res) : Prop := ∃ t, r = .next t ∧ Evolves s t

theorem Evolves.next (h : Evolves s t) : Continues s (.next t) := ⟨t, rfl, h⟩

/-! ## The primitive updates -/

/-- An update of anything but the memory, the registers, the queue, the outputs and the latched straps. -/
theorem Evolves.updLatched (h : Evolves s t) {tb tt ports sw sg tg eps rd hubs cores kern host boot vigil power si al pat chip free}
    (hb : boot.latched = t.boot.latched) :
    Evolves s
      { regs := t.regs, mem := t.mem, out := t.out, pending := t.pending, tb := tb, tt := tt, ports := ports, sw := sw, sg := sg
        tg := tg, eps := eps, rd := rd, hubs := hubs, cores := cores, kern := kern, host := host, boot := boot, vigil := vigil
        power := power, si := si, al := al, pat := pat, chip := chip, free := free } :=
  h.trans ⟨⟨fun ⟨hm, hr⟩ => ⟨hm, by simpa only [State.regsWf, hb] using hr⟩, rfl, List.suffix_refl _⟩, hb⟩

/-- An update that leaves the boot record as it is. -/
theorem Evolves.upd (h : Evolves s t) {tb tt ports sw sg tg eps rd hubs cores kern host vigil power si al pat chip free} :
    Evolves s
      { regs := t.regs, mem := t.mem, out := t.out, pending := t.pending, tb := tb, tt := tt, ports := ports, sw := sw, sg := sg
        tg := tg, eps := eps, rd := rd, hubs := hubs, cores := cores, kern := kern, host := host, boot := t.boot, vigil := vigil
        power := power, si := si, al := al, pat := pat, chip := chip, free := free } :=
  h.updLatched rfl

/-- An update of the boot record but for the latched straps. -/
theorem Evolves.updBoot (h : Evolves s t)
    {tb tt ports sw sg tg eps rd hubs cores kern host vigil power si al pat chip free drain resets act slotA slotB railFails straps
      lossAt stateDue inputOk presentLow bootAt railsCore railsDram rebootDue} :
    Evolves s
      { regs := t.regs, mem := t.mem, out := t.out, pending := t.pending, tb := tb, tt := tt, ports := ports, sw := sw, sg := sg
        tg := tg, eps := eps, rd := rd, hubs := hubs, cores := cores, kern := kern, host := host, boot := {
          drain := drain, resets := resets, act := act, slotA := slotA, slotB := slotB, railFails := railFails, straps := straps
          latched := t.boot.latched, lossAt := lossAt, stateDue := stateDue, inputOk := inputOk, presentLow := presentLow
          bootAt := bootAt, railsCore := railsCore, railsDram := railsDram, rebootDue := rebootDue }, vigil := vigil
        power := power, si := si, al := al, pat := pat, chip := chip, free := free } :=
  h.updLatched rfl

/-- An update that leaves the memory empty. -/
theorem Evolves.memNone (h : Evolves s t)
    {tb tt ports sw sg tg eps rd hubs cores kern host vigil power si al pat chip free drain resets act slotA slotB railFails straps
      lossAt stateDue inputOk presentLow bootAt railsCore railsDram rebootDue} :
    Evolves s
      { regs := t.regs, mem := [], out := t.out, pending := t.pending, tb := tb, tt := tt, ports := ports, sw := sw, sg := sg
        tg := tg, eps := eps, rd := rd, hubs := hubs, cores := cores, kern := kern, host := host, boot := {
          drain := drain, resets := resets, act := act, slotA := slotA, slotB := slotB, railFails := railFails, straps := straps
          latched := t.boot.latched, lossAt := lossAt, stateDue := stateDue, inputOk := inputOk, presentLow := presentLow
          bootAt := bootAt, railsCore := railsCore, railsDram := railsDram, rebootDue := rebootDue }, vigil := vigil
        power := power, si := si, al := al, pat := pat, chip := chip, free := free } :=
  h.trans ⟨⟨fun ⟨_, hr⟩ => ⟨rfl, hr⟩, rfl, List.suffix_refl _⟩, rfl⟩

theorem Evolves.setReg {a v} (h : Evolves s t) : Evolves s (t.setReg a v) :=
  h.trans ⟨⟨fun ⟨hm, hr⟩ => ⟨hm, t.regsWf_setReg hr a v⟩, rfl, List.suffix_refl _⟩, rfl⟩

/-- Leaving memory bytes out. -/
theorem Evolves.memFilter {p} (h : Evolves s t) : Evolves s { t with mem := t.mem.filter p } :=
  h.trans ⟨⟨fun ⟨hm, hr⟩ => ⟨Memory.wf_filter hm p, hr⟩, rfl, List.suffix_refl _⟩, rfl⟩

/-- Leaving registers out: they read their reset values. -/
theorem State.regsWf_filter (hr : t.regsWf = true) (p : Nat × W64 → Bool) :
    ({ t with regs := t.regs.filter p } : State).regsWf = true := by
  simp only [State.regsWf, Bool.and_eq_true, List.all_eq_true] at hr ⊢
  exact ⟨krising_filter hr.1 p, fun e he => hr.2 e (List.mem_of_mem_filter he)⟩

theorem Evolves.regsFilter {p} (h : Evolves s t) : Evolves s { t with regs := t.regs.filter p } :=
  h.trans ⟨⟨fun ⟨hm, hr⟩ => ⟨hm, State.regsWf_filter hr p⟩, rfl, List.suffix_refl _⟩, rfl⟩

theorem Evolves.hubWrite {x off b} (h : Evolves s t) : Evolves s (t.hubWrite x off b) :=
  h.trans ⟨⟨fun ⟨hm, hr⟩ => ⟨t.memWf_hubWrite hm x off b, hr⟩, rfl, List.suffix_refl _⟩, rfl⟩

theorem Evolves.emit {o} (h : Evolves s t) : Evolves s (t.emit o) :=
  h.trans ⟨⟨id, rfl, List.suffix_cons _ _⟩, rfl⟩

theorem Evolves.ownSend {c} (h : Evolves s t) : Evolves s (t.ownSend c) :=
  h.trans ⟨⟨id, rfl, List.suffix_cons _ _⟩, rfl⟩

/-! ## The ways updates are put together -/

theorem Evolves.ite {c : Prop} [Decidable c] (h : Evolves s t) (k : Evolves s u) : Evolves s (if c then t else u) := by
  split
  · exact h
  · exact k

theorem Evolves.when {c} {f : State → State} (h : Evolves s t) (hf : ∀ {u}, Evolves s u → Evolves s (f u)) :
    Evolves s (t.when c f) := .ite (hf h) h

theorem Evolves.forEach {l : List α} {f : State → α → State} (h : Evolves s t)
    (hf : ∀ {u} a, Evolves s u → Evolves s (f u a)) : Evolves s (t.forEach l f) :=
  State.forEach_keeps (fun _ a => hf a) l t h

theorem Evolves.foldl {l : List α} {f : State → α → State} (h : Evolves s t)
    (hf : ∀ {u} a, Evolves s u → Evolves s (f u a)) : Evolves s (l.foldl f t) := h.forEach hf

/-- An option that holds a state, or else the state itself. -/
theorem Evolves.getD {o : Option State} (h : Evolves s t) (ho : ∀ {u}, o = some u → Evolves s u) : Evolves s (o.getD t) := by
  cases o with
  | none => exact h
  | some u => exact ho rfl

/-- One of two options that hold states. -/
theorem Evolves.orElse {o : Option State} {f : Unit → Option State} (e : o.orElse f = some u)
    (ho : ∀ {u}, o = some u → Evolves s u) (hf : ∀ {u}, f () = some u → Evolves s u) : Evolves s u := by
  cases o with
  | none => exact hf e
  | some v => exact ho e

theorem Evolves.ofEq {p : State × α} {a : α} (h : Evolves s p.1) (e : p = (u, a)) : Evolves s u := by
  rwa [e] at h

/-! ## Ops -/

theorem Evolves.fset {f v} (h : Evolves s t) : Evolves s (t.fset f v) := h.setReg

theorem Evolves.fsetb {f v} (h : Evolves s t) : Evolves s (t.fsetb f v) := h.fset

theorem Evolves.fsat {f n} (h : Evolves s t) : Evolves s (t.fsat f n) := h.fset

theorem Evolves.freeUsed (h : Evolves s t) : Evolves s t.freeUsed := h.upd

theorem Evolves.finc {f n} (h : Evolves s t) : Evolves s (t.finc f n) := h.fset.ite h.fset.freeUsed

theorem Evolves.fmax {f v} (h : Evolves s t) : Evolves s (t.fmax f v) := h.fset.ite h

theorem Evolves.alert {bit} (h : Evolves s t) : Evolves s (t.alert bit) := h.setReg.emit

theorem Evolves.setPort {p x} (h : Evolves s t) : Evolves s (t.setPort p x) := h.upd

theorem Evolves.setEp {e x} (h : Evolves s t) : Evolves s (t.setEp e x) := h.upd

theorem Evolves.setHub {h' x} (h : Evolves s t) : Evolves s (t.setHub h' x) := h.upd

theorem Evolves.setCore {c x} (h : Evolves s t) : Evolves s (t.setCore c x) := h.upd

theorem Evolves.updTag {owner tag f} (h : Evolves s t) : Evolves s (t.updTag owner tag f) := h.upd

theorem Evolves.sendReply {r status progress result rep} (h : Evolves s t) :
    Evolves s (t.sendReply r status progress result rep) := by
  dsimp only [State.sendReply]
  split
  · exact h.forEach fun _ k => k.emit
  · exact h.forEach fun _ k => k.ownSend

theorem Evolves.reply {r status progress result} (h : Evolves s t) : Evolves s (t.reply r status progress result) := h.sendReply

theorem Evolves.answer {r status progress result} (h : Evolves s t) : Evolves s (t.answer r status progress result) :=
  h.updTag.reply

theorem Evolves.answerSt {r status} (h : Evolves s t) : Evolves s (t.answerSt r status) := h.answer

theorem Evolves.pend {r n} (h : Evolves s t) : Evolves s (t.pend r n) := h.updTag.reply

theorem Evolves.complete {owner tag status progress result} (h : Evolves s t) :
    Evolves s (t.complete owner tag status progress result) := by
  dsimp only [State.complete]
  split
  · exact h
  · split
    · exact h
    · split
      · exact h.updTag.reply
      · exact h.updTag

theorem Evolves.almUpd {k' f} (h : Evolves s t) : Evolves s (t.almUpd k' f) := h.upd

theorem Evolves.almAdd {kind entry off n} (h : Evolves s t) : Evolves s (t.almAdd kind entry off n) := h.almUpd

theorem Evolves.almMax {kind entry off v} (h : Evolves s t) : Evolves s (t.almMax kind entry off v) := h.almUpd

theorem Evolves.almMin {kind entry off v} (h : Evolves s t) : Evolves s (t.almMin kind entry off v) := h.almUpd

theorem Evolves.almLow {kind entry off v} (h : Evolves s t) : Evolves s (t.almLow kind entry off v) := h.almUpd

theorem Evolves.almOr {kind entry off v} (h : Evolves s t) : Evolves s (t.almOr kind entry off v) := h.almUpd

/-! ## Timebase -/

theorem Evolves.follow (h : Evolves s t) : Evolves s t.follow := by
  dsimp only [State.follow]
  split
  · exact h
  · split
    · split
      · exact h.fset
      · exact h
    · split
      · exact h.fset.fset.fsetb.fset.upd
      · exact h.fset.fset.fsetb

theorem Evolves.chipFollow (h : Evolves s t) : Evolves s t.chipFollow := h.upd

theorem Evolves.noteMarker {port m} (h : Evolves s t) : Evolves s (t.noteMarker port m) := h.upd

theorem Evolves.noteArrival {port m} (h : Evolves s t) : Evolves s (t.noteArrival port m) := h.setPort.when fun k => k.freeUsed

theorem Evolves.estimate {t1 t2} (h : Evolves s t) : Evolves s (t.estimate t1 t2) := h.fset.fset.upd.freeUsed

theorem Evolves.noteNumber {port m} (h : Evolves s t) : Evolves s (t.noteNumber port m) := by
  dsimp only [State.noteNumber]
  split
  · exact h.upd
  · split
    · split
      · exact h.fsetb.almAdd.upd
      · exact h
    · split
      · exact h.upd
      · exact h

theorem Evolves.chipMarker {k' m} (h : Evolves s t) : Evolves s (t.chipMarker k' m) :=
  h.chipFollow.ite h.chipFollow.upd.freeUsed

theorem Evolves.frameMarker {port m} (h : Evolves s t) : Evolves s (t.frameMarker port m) := by
  dsimp only [State.frameMarker]
  split
  · exact h
  · split
    · exact h.noteArrival.noteMarker.chipMarker
    · split
      · exact h.noteArrival.noteMarker
      · split
        · exact h.noteArrival.noteMarker.follow
        · split
          · exact h.noteArrival.noteMarker.follow.noteNumber.estimate
          · exact h.noteArrival.noteMarker.follow

theorem Evolves.execFrameMarker {port m} (h : Evolves s t) : Continues s (execFrameMarker port m t) := h.frameMarker.next

theorem Evolves.aligned {port t1 far} (h : Evolves s t) : Evolves s (t.aligned port t1 far) := h.setPort.fset.freeUsed

theorem Evolves.execRealignDone {a} (h : Evolves s t) : Continues s (execRealignDone a t) := (h.ite h.aligned.upd).next

theorem Evolves.becomeMaster (h : Evolves s t) : Evolves s t.becomeMaster := h.fset.fsetb.fset.fsetb.upd

theorem Evolves.execLockAchieved (h : Evolves s t) : Continues s (execLockAchieved t) := (h.fset.upd.ite h).next

theorem Evolves.execLockLost (h : Evolves s t) : Continues s (execLockLost t) := (h.fset.upd.ite h).next

theorem Evolves.execHoldoverEntry (h : Evolves s t) : Continues s (execHoldoverEntry t) := (h.fset.almAdd.upd.ite h).next

theorem Evolves.execHoldoverExpiry (h : Evolves s t) : Continues s (execHoldoverExpiry t) := (h.fset.upd.ite h).next

theorem Evolves.execMasterDeclare (h : Evolves s t) : Continues s (execMasterDeclare t) := (h.becomeMaster.ite h).next

theorem Evolves.execMasterTakeover (h : Evolves s t) : Continues s (execMasterTakeover t) := (h.becomeMaster.ite h).next

theorem Evolves.execMasterHandover {plane} (h : Evolves s t) : Continues s (execMasterHandover plane t) := by
  dsimp only [Machine.execMasterHandover]
  refine Evolves.next ?_
  split
  · exact h
  · split
    · split
      · exact h.becomeMaster
      · exact h
    · split
      · exact (h.fset.fset.fsetb.ite h.fset).fsetb
      · exact h

theorem Evolves.execSlipBarEnd (h : Evolves s t) : Continues s (execSlipBarEnd t) := (h.upd.ite h).next

theorem Evolves.tbCount (h : Evolves s t) : Evolves s t.tbCount := h.upd

theorem Evolves.chipCount (h : Evolves s t) : Evolves s t.chipCount := h.upd

theorem Evolves.tbTick (h : Evolves s t) : Evolves s t.tbTick := h.chipCount.tbCount.follow.chipFollow

theorem Evolves.sendMarkers (h : Evolves s t) : Evolves s t.sendMarkers := h.forEach fun _ k => k.setPort.emit

/-! ## Tables -/

theorem Evolves.setSwapSt {fam x} (h : Evolves s t) : Evolves s (t.setSwapSt fam x) := by
  dsimp only [State.setSwapSt]
  split <;> exact h.upd

theorem Evolves.resetRegs {lo hi} (h : Evolves s t) : Evolves s (t.resetRegs lo hi) := h.regsFilter

theorem Evolves.copyBank {fam src} (h : Evolves s t) : Evolves s (t.copyBank fam src) := h.resetRegs.forEach fun _ k => k.setReg

theorem Evolves.useOut {x t'} (h : Evolves s t) : Evolves s (t.useOut x t') := h.upd

theorem Evolves.useIn {x t'} (h : Evolves s t) : Evolves s (t.useIn x t') := h.upd

theorem Evolves.portCell {p t' c} (h : Evolves s t) : Evolves s (t.portCell p t' c) := h.useOut.emit

theorem Evolves.sendQueued {p t' c} (h : Evolves s t) : Evolves s (t.sendQueued p t' c) := h.setPort.portCell

theorem Evolves.portPump {p} (h : Evolves s t) : Evolves s (t.portPump p) := by
  dsimp only [State.portPump]
  split
  · exact h
  · exact h.forEach fun _ k => (by split; exacts [k.sendQueued, k])

theorem Evolves.portSend {p c} (h : Evolves s t) : Evolves s (t.portSend p c) := h.setPort.portPump

/-! ## Timetable -/

theorem Evolves.begin {r} (h : Evolves s t) : Evolves s (t.begin r) := h.ite h.upd

theorem Evolves.clearBank {fam b} (h : Evolves s t) : Evolves s (t.clearBank fam b) := h.resetRegs.forEach fun _ k => k.setReg

theorem Evolves.putRec {fam b r} (h : Evolves s t) : Evolves s (t.putRec fam b r) := by
  dsimp only [State.putRec]
  split
  · split
    · exact h.setReg.setReg
    · exact h.setReg
  · exact h.setReg
  · exact h.setReg.forEach fun _ k => k.setReg

theorem Evolves.doLoad {fam p} (h : Evolves s t) : Evolves s (t.doLoad fam p) :=
  (h.when fun k => k.clearBank).forEach fun _ k => k.putRec

theorem Evolves.swapRequest {fam r} (h : Evolves s t) : Evolves s (t.swapRequest fam r) := by
  dsimp only [State.swapRequest]
  split
  · exact h.answerSt
  · split
    · exact h.answerSt
    · split
      · exact h.answerSt
      · exact h.setSwapSt.pend

theorem Evolves.tableLoad {fam r} (h : Evolves s t) : Evolves s (t.tableLoad fam r) := by
  dsimp only [State.tableLoad]
  split
  · exact h.answerSt
  · split
    · exact h.answerSt
    · split
      · exact h.doLoad.swapRequest
      · exact h.doLoad.answerSt

theorem Evolves.execTimetableLoad {r} (h : Evolves s t) : Continues s (execTimetableLoad r t) := h.begin.tableLoad.next

theorem Evolves.execSignpostLoad {r} (h : Evolves s t) : Continues s (execSignpostLoad r t) := h.begin.tableLoad.next

theorem Evolves.execGroupLoad {r} (h : Evolves s t) : Continues s (execGroupLoad r t) := h.begin.tableLoad.next

theorem Evolves.execTimetableSwap {r} (h : Evolves s t) : Continues s (execTimetableSwap r t) := h.begin.swapRequest.next

theorem Evolves.swapCheckDone {fam} (h : Evolves s t) : Evolves s (t.swapCheckDone fam) := by
  dsimp only [State.swapCheckDone]
  split
  · exact h
  · split
    · exact h.setSwapSt.complete
    · exact h.setSwapSt.setSwapSt.fset.when fun k => k.fset

theorem Evolves.execSwapCheckDone {bank} (h : Evolves s t) : Continues s (execSwapCheckDone bank t) :=
  (h.swapCheckDone.ite h).next

theorem Evolves.grantCredits (h : Evolves s t) : Evolves s t.grantCredits := h.upd

theorem Evolves.bankFigures (h : Evolves s t) : Evolves s t.bankFigures := h.fset.fset.fset

theorem Evolves.tableDirty {t'} (h : Evolves s t) : Evolves s (t.tableDirty t') := h.upd

theorem Evolves.epochRise (h : Evolves s t) : Evolves s t.epochRise := h.upd.ite h.fset.upd.almAdd

theorem Evolves.exchange {fam} (h : Evolves s t) : Evolves s (t.exchange fam) := by
  dsimp only [State.exchange]
  split
  · exact h.fset.fset.setSwapSt.tableDirty.fset.grantCredits.bankFigures
  · exact h.fset.fset.setSwapSt.tableDirty.epochRise
  · exact h.fset.fset.setSwapSt.tableDirty

theorem Evolves.bankSwap {fam} (h : Evolves s t) : Evolves s (t.bankSwap fam) := by
  dsimp only [State.bankSwap]
  split
  · exact h
  · split
    · exact h
    · split
      · exact h.setSwapSt.fset.complete
      · exact h.exchange.complete

theorem Evolves.execBankSwap {bank} (h : Evolves s t) : Continues s (execBankSwap bank t) := (h.bankSwap.ite h).next

theorem Evolves.bankCopyDone {fam} (h : Evolves s t) : Evolves s (t.bankCopyDone fam) := h.copyBank.setSwapSt.fset.ite h

theorem Evolves.execBankCopyDone {bank} (h : Evolves s t) : Continues s (execBankCopyDone bank t) := (h.bankCopyDone.ite h).next

theorem Evolves.demote {frame e} (h : Evolves s t) : Evolves s (t.demote frame e) := by
  refine .almAdd (.alert ?_)
  split
  · exact h.fset.fset.fset.fset.fset.finc
  · exact h.fset.fset.fset.fset.fset.finc.ownSend

theorem Evolves.abandonSwap {pos} (h : Evolves s t) : Evolves s (t.abandonSwap pos) := by
  dsimp only [State.abandonSwap]
  split
  · exact h.setSwapSt.fset.complete
  · exact h.setSwapSt.fset.complete
  · exact h

theorem Evolves.revise (h : Evolves s t) : Evolves s t.revise := by
  dsimp only [State.revise]
  split
  · exact h
  · exact (h.abandonSwap.copyBank.fset.forEach fun _ k => k.fset).upd

theorem Evolves.decideWidth {c} (h : Evolves s t) : Evolves s (t.decideWidth c) := h.upd.revise.ite h.upd

theorem Evolves.activateRevised (h : Evolves s t) : Evolves s t.activateRevised := by
  dsimp only [State.activateRevised]
  split
  · exact h
  · split
    · exact h.upd.exchange.forEach fun _ k => k.demote
    · exact h

/-! ## Switch -/

theorem Evolves.setSw {x} (h : Evolves s t) : Evolves s (t.setSw x) := h.upd

theorem Evolves.noteDepth {x} (h : Evolves s t) : Evolves s (t.noteDepth x) := (h.forEach fun _ k => k.fmax).almMax.almMax

theorem Evolves.coreDrop {f} (h : Evolves s t) : Evolves s (t.coreDrop f) := h.finc.almAdd

theorem Evolves.ownAnswer {c} (h : Evolves s t) : Evolves s (t.ownAnswer c) := by
  dsimp only [State.ownAnswer]
  split
  · exact h
  · split
    · exact h
    · exact h.upd

theorem Evolves.denyCell {x c} (h : Evolves s t) : Evolves s (t.denyCell x c) :=
  h.coreDrop.almAdd.ownAnswer.ite h.coreDrop.almAdd

theorem Evolves.goneCell {x c} (h : Evolves s t) : Evolves s (t.goneCell x c) := h.coreDrop.ownAnswer.ite h.coreDrop

theorem Evolves.admitCell {x c b} (h : Evolves s t) : Evolves s (t.admitCell x c b).1 := by
  dsimp only [State.admitCell]
  split
  · exact h
  · split
    · exact h.upd
    · exact h.finc

theorem Evolves.tmCount {x k'} (h : Evolves s t) : Evolves s (t.tmCount x k') := h.fset

theorem Evolves.joinPool {x q} (h : Evolves s t) : Evolves s (t.joinPool x q) :=
  ((h.setSw.ite h.coreDrop).ite ((h.setSw.ite h.coreDrop).ite (h.setSw.ite h.coreDrop))).noteDepth

theorem Evolves.enterPool {x c b fclk} (h : Evolves s t) : Evolves s (t.enterPool x c b fclk) := by
  dsimp only [State.enterPool]
  split <;> exact h.admitCell.tmCount.almAdd.almAdd.joinPool

theorem Evolves.checkPos {x c b fclk} (h : Evolves s t) : Evolves s (t.checkPos x c b fclk) := by
  dsimp only [State.checkPos]
  split
  · exact h.finc
  · split
    · exact h.enterPool
    · exact h.coreDrop.almAdd
  · exact h.enterPool

theorem Evolves.ingress {x c fclk} (h : Evolves s t) : Evolves s (t.ingress x c fclk) := by
  dsimp only [State.ingress]
  split
  · exact h.finc
  · split
    · exact h.finc
    · split
      · exact h.denyCell
      · split
        · exact h.goneCell
        · exact h.checkPos

theorem Evolves.takeFeed {x c} (h : Evolves s t) : Evolves s (t.takeFeed x c) := h.upd.ite h

theorem Evolves.execCellIngress {pos cell fclk} (h : Evolves s t) : Continues s (execCellIngress pos cell fclk t) :=
  (h.takeFeed.useIn.ingress.ite h).next

theorem Evolves.arriveMid {m x q at_} (h : Evolves s t) : Evolves s (t.arriveMid m x q at_) := by
  dsimp only [State.arriveMid]
  split
  · exact h.emit
  · split
    · split
      · exact h
      · split <;> exact h.setSw
    · split
      · exact h.coreDrop
      · split <;> exact h.setSw

theorem Evolves.firstStage {i fclk} (h : Evolves s t) : Evolves s (t.firstStage i fclk) := by
  dsimp only [State.firstStage]
  split
  · split
    · exact h
    · exact h.finc.almAdd
  · exact Evolves.arriveMid (by split <;> exact h.setSw)

theorem Evolves.execFirstStageSend {input fclk} (h : Evolves s t) : Continues s (execFirstStageSend input fclk t) :=
  (h.firstStage.ite h).next

theorem Evolves.queueItem {p c entry at_} (h : Evolves s t) : Evolves s (t.queueItem p c entry at_) :=
  (h.setSw.ite h.setSw).noteDepth

theorem Evolves.mapItems {p f} (h : Evolves s t) : Evolves s (t.mapItems p f) := h.setSw

theorem Evolves.closeLine {p line} (h : Evolves s t) : Evolves s (t.closeLine p line) := h.mapItems

theorem Evolves.arriveHub {p c at_} (h : Evolves s t) : Evolves s (t.arriveHub p c at_) := by
  dsimp only [State.arriveHub]
  split
  · exact (h.closeLine.ite h).queueItem
  · split
    · exact h.mapItems.finc
    · exact h.closeLine.queueItem

theorem Evolves.arriveOut {p c at_} (h : Evolves s t) : Evolves s (t.arriveOut p c at_) := h.arriveHub.ite h.queueItem

theorem Evolves.takeCand {m o be c} (h : Evolves s t) : Evolves s (t.takeCand m o be c) := by
  dsimp only [State.takeCand]
  split <;> exact h.setSw

theorem Evolves.sendCand {m o be c fclk} (h : Evolves s t) : Evolves s (t.sendCand m o be c fclk) := by
  dsimp only [State.sendCand]
  split
  · exact h.takeCand.coreDrop
  · split
    · exact h.takeCand.finc.ingress
    · exact h.takeCand.arriveOut

theorem Evolves.secondStage {m fclk} (h : Evolves s t) : Evolves s (t.secondStage m fclk) := by
  dsimp only [State.secondStage]
  split
  · exact h.sendCand
  · split
    · exact (h.when fun k => k.finc).sendCand
    · split
      · exact h.finc
      · exact h

theorem Evolves.execSecondStageSend {inter fclk} (h : Evolves s t) : Continues s (execSecondStageSend inter fclk t) :=
  (h.secondStage.ite h).next

theorem Evolves.unqueue {p id} (h : Evolves s t) : Evolves s (t.unqueue p id) := h.setSw

theorem Evolves.countOut {p i} (h : Evolves s t) : Evolves s (t.countOut p i) := h.forEach fun _ k => k.tmCount.almAdd

theorem Evolves.handItem {h' t' i} (h : Evolves s t) : Evolves s (t.handItem h' t' i) := by
  dsimp only [State.handItem]
  split
  · exact h.unqueue.countOut.setEp.finc.upd
  · split
    · exact Evolves.upd (by split; exacts [h.unqueue.countOut.emit, h.unqueue.countOut])
    · split
      · exact h.unqueue.countOut.emit
      · exact h.unqueue.countOut

theorem Evolves.drainAnswers {p fclk} (h : Evolves s t) : Evolves s (t.drainAnswers p fclk) := by
  dsimp only [State.drainAnswers]
  split
  · exact h
  · split
    · exact h.upd.arriveOut
    · exact h

theorem Evolves.sendItem {p t' i} (h : Evolves s t) : Evolves s (t.sendItem p t' i) := by
  dsimp only [State.sendItem]
  split
  · exact h.useOut.handItem
  · exact h.useOut.unqueue.countOut.forEach fun _ k => k.emit

theorem Evolves.outSend {p fclk} (h : Evolves s t) : Evolves s (t.outSend p fclk) := by
  dsimp only [State.outSend]
  split
  · exact h.drainAnswers
  · split
    · exact h.drainAnswers.sendItem
    · split
      · exact h.drainAnswers.sendQueued
      · exact h.drainAnswers.sendItem
    · exact h.drainAnswers.sendQueued
    · exact h.drainAnswers

theorem Evolves.execOutputSend {pos fclk} (h : Evolves s t) : Continues s (execOutputSend pos fclk t) := (h.outSend.ite h).next

theorem Evolves.execEntryHandover {hub fclk} (h : Evolves s t) : Continues s (execEntryHandover hub fclk t) :=
  (h.outSend.ite h).next

theorem Evolves.setCombine {v} (h : Evolves s t) : Evolves s (t.setCombine v) := by
  dsimp only [State.setCombine]
  split
  · exact h.fsetb
  · exact h.fsetb.forEach fun _ k => k.mapItems

theorem Evolves.execCombineEn {v} (h : Evolves s t) : Continues s (execCombineEn v t) := h.setCombine.next

theorem Evolves.leaveUp {x w} (h : Evolves s t) : Evolves s (t.leaveUp x w) := h.upd.finc.almAdd

theorem Evolves.enterUp {x} (h : Evolves s t) : Evolves s (t.enterUp x) := h.upd

theorem Evolves.dropOutput {x} (h : Evolves s t) : Evolves s (t.dropOutput x) := h.setSw

theorem Evolves.ageAll (h : Evolves s t) : Evolves s t.ageAll := h.setSw

theorem Evolves.countAged {x c} (h : Evolves s t) : Evolves s (t.countAged x c) := (h.finc.ite h.finc).almAdd.almAdd

theorem Evolves.ageDiscard (h : Evolves s t) : Evolves s t.ageDiscard :=
  (((((h.forEach fun _ k => k.forEach fun _ k2 => k2.countAged).forEach fun _ k => k.forEach fun _ k2 => k2.countAged).forEach
    fun _ k => k.forEach fun _ k2 => k2.forEach fun _ k3 => k3.countAged).forEach fun _ k => k.forEach fun _ k2 => k2.forEach
    fun _ k3 => k3.countAged).forEach fun _ k => k.countAged).setSw

theorem Evolves.execAgeDiscard (h : Evolves s t) : Continues s (execAgeDiscard t) := h.ageDiscard.next

/-! ## Signpost -/

theorem Evolves.dropLines {e p} (h : Evolves s t) : Evolves s (t.dropLines e p) := h.setEp.upd

theorem Evolves.dropCache {e} (h : Evolves s t) : Evolves s (t.dropCache e) := h.dropLines

theorem Evolves.takeState {st} (h : Evolves s t) : Evolves s (t.takeState st) := by
  dsimp only [State.takeState]
  split
  · exact ((h.fset.fset.when fun k => k.alert).almAdd.upd.when fun k => k.forEach fun _ k2 => k2.dropCache).upd
  · exact (h.fset.fset.when fun k => k.alert).almAdd.upd.when fun k => k.forEach fun _ k2 => k2.dropCache

theorem Evolves.recount (h : Evolves s t) : Evolves s t.recount := h.ite h.fset.finc.upd

theorem Evolves.enterState {st} (h : Evolves s t) : Evolves s (t.enterState st) := h.takeState.recount

theorem Evolves.setOutcome {p o} (h : Evolves s t) : Evolves s (t.setOutcome p o) := by
  dsimp only [State.setOutcome]
  split
  · exact h
  · exact (h.fset.when fun k => k.fsetb).upd

theorem Evolves.recordFound {p f} (h : Evolves s t) : Evolves s (t.recordFound p f) := h.fset.fset.fset.fset.fset

theorem Evolves.setLink {p st} (h : Evolves s t) : Evolves s (t.setLink p st) := by
  dsimp only [State.setLink]
  split
  · exact h.fset
  · split
    · split
      · exact h.fset.leaveUp
      · exact h.fset.enterUp
    · exact h.fset.upd

theorem Evolves.placePort {p f} (h : Evolves s t) : Evolves s (t.placePort p f) :=
  h.setLink.ite h.recordFound.setOutcome.setLink

theorem Evolves.substitute (h : Evolves s t) : Evolves s t.substitute := h.upd.ite h.upd.epochRise

theorem Evolves.execSubstitutionRecompute (h : Evolves s t) : Continues s (execSubstitutionRecompute t) :=
  (h.substitute.ite h).next

theorem Evolves.holdUnused (h : Evolves s t) : Evolves s t.holdUnused :=
  h.forEach fun _ k => k.fset.fset.fset.setPort.setLink.setOutcome

theorem Evolves.narrow (h : Evolves s t) : Evolves s t.narrow := by
  dsimp only [State.narrow]
  split
  · exact h
  · exact h.forEach fun _ k => k.ite (k.fset.fset.ite k.fset.fset.setPort.setLink.setOutcome)

theorem Evolves.replaceAll (h : Evolves s t) : Evolves s t.replaceAll :=
  h.forEach fun _ k => k.setOutcome.ite (by split; exacts [k.placePort, k.ite k.setOutcome, k])

theorem Evolves.newPlan {h' m} (h : Evolves s t) : Evolves s (t.newPlan h' m) :=
  h.fset.fsetb.upd.holdUnused.narrow.replaceAll.recount.tableDirty

theorem Evolves.execPlanLoad {r} (h : Evolves s t) : Continues s (execPlanLoad r t) :=
  (h.begin.newPlan.answerSt.ite h.begin.answerSt).next

theorem Evolves.acceptDiff {adopt p} (h : Evolves s t) : Evolves s (t.acceptDiff adopt p) := by
  dsimp only [State.acceptDiff]
  split
  · exact h.setOutcome
  · split
    · exact h
    · split
      · exact h.setOutcome.setLink.upd
      · exact h.upd

theorem Evolves.execPlanAccept {r} (h : Evolves s t) : Continues s (execPlanAccept r t) := by
  dsimp only [Machine.execPlanAccept]
  refine Evolves.next ?_
  split
  · exact h.begin.answerSt
  · exact (h.begin.forEach fun _ k => k.acceptDiff).upd.recount.answerSt

theorem Evolves.execPortSettleTimeout {port} (h : Evolves s t) : Continues s (execPortSettleTimeout port t) :=
  (h.setPort.recount.ite h).next

theorem Evolves.dupClear (h : Evolves s t) : Evolves s t.dupClear := h.fsetb.ite h

theorem Evolves.planMove (h : Evolves s t) : Evolves s t.planMove := by
  dsimp only [State.planMove]
  split
  · split
    · exact h.dupClear.enterState
    · exact h.dupClear
  · split
    · split
      · exact h.dupClear.upd
      · split
        · exact h.dupClear.upd.enterState
        · split
          · exact h.dupClear.upd.enterState
          · exact h.dupClear.upd
    · split
      · split
        · exact h.dupClear.upd.enterState.alert
        · exact h.dupClear
      · split
        · split
          · exact h.dupClear.enterState
          · exact h.dupClear
        · exact h.dupClear

theorem Evolves.execPlanStateChange (h : Evolves s t) : Continues s (execPlanStateChange t) := h.planMove.next

/-! ## Ports -/

theorem Evolves.sendMgmt {p kind wl cause n errors} (h : Evolves s t) : Evolves s (t.sendMgmt p kind wl cause n errors) :=
  h.ite h.portSend

theorem Evolves.mgmtTick (h : Evolves s t) : Evolves s t.mgmtTick := h.forEach fun _ k => k.setPort.portPump

theorem Evolves.cellReceive {p c uncorr overflow} (h : Evolves s t) : Evolves s (t.cellReceive p c uncorr overflow) := by
  dsimp only [State.cellReceive]
  split
  · exact h
  · split
    · exact h.finc.almAdd
    · split
      · exact h.finc.almAdd
      · split
        · exact h.finc
        · split
          · exact h
          · split
            · exact h.emit
            · exact h

theorem Evolves.execCellReceive {port cell uncorr overflow} (h : Evolves s t) :
    Continues s (execCellReceive port cell uncorr overflow t) :=
  h.cellReceive.next

theorem Evolves.testEnd {p} (h : Evolves s t) : Evolves s (t.testEnd p) := h.upd

theorem Evolves.clearRuns {p} (h : Evolves s t) : Evolves s (t.clearRuns p) := h.forEach fun _ k => k.ite k.fset.fset

theorem Evolves.unlink {p} (h : Evolves s t) : Evolves s (t.unlink p) := by
  unfold State.unlink
  extract_lets _ _ _ _ v _ _ w
  have hv : Evolves s v := h.setLink.fset.fset.fset.fset.setPort.clearRuns
  have hw : Evolves s w := hv.upd
  exact .ite hw.upd.chipFollow (.ite hw hw.setOutcome.recount)

theorem Evolves.portDown {p light} (h : Evolves s t) : Evolves s (t.portDown p light) := by
  dsimp only [State.portDown]
  split
  · exact h
  · split
    · exact (h.unlink.almAdd.almLow.when fun k => k.fset.almAdd).setPort
    · exact h.unlink.almAdd.almLow.when fun k => k.fset.almAdd

theorem Evolves.execLightLoss {port} (h : Evolves s t) : Continues s (execLightLoss port t) := (h.portDown.ite h).next

theorem Evolves.execCodedStreamLoss {port} (h : Evolves s t) : Continues s (execCodedStreamLoss port t) :=
  (h.portDown.ite h).next

theorem Evolves.trainBegin {p} (h : Evolves s t) : Evolves s (t.trainBegin p) := h.setLink.fset.setPort.emit

theorem Evolves.trainFail {p step} (h : Evolves s t) : Evolves s (t.trainFail p step) := h.portDown.fset.setPort

theorem Evolves.recordFar {p f} (h : Evolves s t) : Evolves s (t.recordFar p f) := h.fset.fset.fset.fset.fset

theorem Evolves.trainEnd {p i} (h : Evolves s t) : Evolves s (t.trainEnd p i) := by
  unfold State.trainEnd
  extract_lets _ _ _ _ v w x _ y _ z
  have hv : Evolves s v := h.setPort.emit
  have hy : Evolves s y := hv.fset.fset.recordFar.aligned.setPort
  have hz : Evolves s z := .ite hy.upd hy
  exact .ite hv.trainFail (.ite hv.trainFail (.ite hz.fsetb.fsetb.setLink (.ite hz.setPort.setLink
    (.ite hz.placePort.recount hz.placePort))))

theorem Evolves.execTrainingStart {port info} (h : Evolves s t) : Continues s (execTrainingStart port info t) := by
  dsimp only [Machine.execTrainingStart]
  refine Evolves.next ?_
  split
  · split
    · exact h.trainBegin
    · exact h
  · split
    · exact h.trainEnd
    · exact h

theorem Evolves.execTrainingStepTimeout {port step} (h : Evolves s t) : Continues s (execTrainingStepTimeout port step t) :=
  (h.trainFail.ite h).next

theorem Evolves.execTrainingRetry {port} (h : Evolves s t) : Continues s (execTrainingRetry port t) :=
  (h.setPort.emit.ite h).next

theorem Evolves.execRingLockTimeout {port wl} (h : Evolves s t) : Continues s (execRingLockTimeout port wl t) :=
  (h.setPort.ite h).next

theorem Evolves.execEnable {port v} (h : Evolves s t) : Continues s (execEnable port v t) := by
  dsimp only [Machine.execEnable]
  refine Evolves.next ?_
  split
  · exact h
  · split
    · exact h.fsetb
    · exact h.fsetb.portDown.setPort

theorem Evolves.execFwOverride {port v} (h : Evolves s t) : Continues s (execFwOverride port v t) := (h.fsetb.ite h).next

theorem Evolves.execRetrain {port} (h : Evolves s t) : Continues s (execRetrain port t) := (h.unlink.trainBegin.ite h).next

theorem Evolves.execForceDown {port v} (h : Evolves s t) : Continues s (execForceDown port v t) := by
  dsimp only [Machine.execForceDown]
  refine Evolves.next ?_
  split
  · exact h
  · split
    · exact h.fsetb.portDown
    · exact h.fsetb.when fun k => k.testEnd

theorem Evolves.execForceMaint {port v} (h : Evolves s t) : Continues s (execForceMaint port v t) :=
  (h.ite h.fsetb.setPort).next

theorem Evolves.portTick {p} (h : Evolves s t) : Evolves s (t.portTick p) := by
  dsimp only [State.portTick]
  split
  · split
    · exact h.setPort
    · exact h.setPort.setPort.setLink
  · split
    · split
      · split
        · exact h.setPort.setPort.placePort.recount
        · exact h.setPort.setPort.placePort
      · exact h.setPort
    · exact h.setPort

theorem Evolves.portsTick (h : Evolves s t) : Evolves s t.portsTick := h.forEach fun _ k => k.portTick

theorem Evolves.portChange {p k' n cause sending} (h : Evolves s t) : Evolves s (t.portChange p k' n cause sending) :=
  h.decideWidth

theorem Evolves.retireDecide {p k'} (h : Evolves s t) : Evolves s (t.retireDecide p k') := h.ite h.portChange.sendMgmt

theorem Evolves.retireDue {p} (h : Evolves s t) : Evolves s (t.retireDue p) := by
  dsimp only [State.retireDue]
  split
  · exact h
  · exact h.forEach fun _ k => k.retireDecide

theorem Evolves.berWl {p k' e u'} (h : Evolves s t) : Evolves s (t.berWl p k' e u') := h.fset.fset.setPort.fset.almMin.freeUsed

theorem Evolves.execBerIntervalEnd {port errors uncorr} (h : Evolves s t) :
    Continues s (execBerIntervalEnd port errors uncorr t) := by
  dsimp only [Machine.execBerIntervalEnd]
  refine Evolves.next ?_
  split
  · exact h
  · split
    · exact (h.forEach fun _ k => k.berWl).retireDue
    · exact (h.forEach fun _ k => k.berWl).sendMgmt

theorem Evolves.execRxReport {port errors} (h : Evolves s t) : Continues s (execRxReport port errors t) := by
  dsimp only [Machine.execRxReport]
  refine Evolves.next ?_
  split
  · exact h
  · exact (h.setPort.forEach fun _ k => (by split; exacts [k.fsetb, k.fsetb.setPort.fset.ite k.fsetb.setPort])).retireDue

theorem Evolves.execRetire {port wl cause n} (h : Evolves s t) : Continues s (execRetire port wl cause n t) := by
  dsimp only [Machine.execRetire]
  refine Evolves.next ?_
  split
  · exact h
  · exact (h.portChange.ite h).sendMgmt

theorem Evolves.execRetireAck {port wl} (h : Evolves s t) : Continues s (execRetireAck port wl t) := h.upd.next

theorem Evolves.wlOut {p k'} (h : Evolves s t) : Evolves s (t.wlOut p k') := by
  dsimp only [State.wlOut]
  split
  · exact h
  · split
    · exact h.fset.fset.fset.fset
    · exact h.fset.fset.fset.fset.almAdd.almOr.alert

theorem Evolves.fitWidth {p} (h : Evolves s t) : Evolves s (t.fitWidth p) := h.portDown.ite h.fset.almLow

theorem Evolves.execWavelengthLost {port wl} (h : Evolves s t) : Continues s (execWavelengthLost port wl t) :=
  (h.ite h.portChange.sendMgmt).next

theorem Evolves.retireTick (h : Evolves s t) : Evolves s t.retireTick := h.forEach fun _ k => k.sendMgmt

theorem Evolves.laneOut {h' k'} (h : Evolves s t) : Evolves s (t.laneOut h' k') := h.ite h.fset.fset.alert.almAdd

theorem Evolves.fitLanes {h'} (h : Evolves s t) : Evolves s (t.fitLanes h') := h.fset.upd.leaveUp.ite h.fset

theorem Evolves.lossTick (h : Evolves s t) : Evolves s t.lossTick :=
  h.forEach fun _ k => (k.laneOut.fitLanes.ite k).ite (k.wlOut.fitWidth.ite k)

theorem Evolves.widthChange {x} (h : Evolves s t) : Evolves s (t.widthChange x) := by
  dsimp only [State.widthChange]
  split
  · exact h
  · exact ((h.upd.forEach fun _ k => k.laneOut).fitLanes.ite (h.upd.forEach fun _ k => k.wlOut).fitWidth).activateRevised

theorem Evolves.execWidthChange {pos} (h : Evolves s t) : Continues s (execWidthChange pos t) := h.widthChange.next

/-! ## Tollgate -/

theorem Evolves.setTg {x} (h : Evolves s t) : Evolves s (t.setTg x) := h.upd

theorem Evolves.tgSend {c} (h : Evolves s t) : Evolves s (t.tgSend c) := h.ownSend

theorem Evolves.holdAs {t' mx wait blocked} (h : Evolves s t) : Evolves s (t.holdAs t' mx wait blocked) := h.setTg

theorem Evolves.hold {t'} (h : Evolves s t) : Evolves s (t.hold t') := h.holdAs

theorem Evolves.formTransfer {b} (h : Evolves s t) : Evolves s (t.formTransfer b) := h.setTg.finc.almAdd.holdAs

theorem Evolves.tryClose {id} (h : Evolves s t) : Evolves s (t.tryClose id) := by
  dsimp only [State.tryClose]
  split
  · exact h
  · split
    · exact h.formTransfer
    · exact h.setTg

theorem Evolves.tgAccess {c rack space epId base} (h : Evolves s t) : Evolves s (t.tgAccess c rack space epId base) := by
  dsimp only [State.tgAccess]
  split
  · exact (h.forEach fun _ k => k.tryClose).setTg.tryClose
  · split
    · split
      · exact h.setTg.tryClose
      · exact h.setTg
    · split
      · exact h.setTg.tryClose
      · exact h.setTg

theorem Evolves.farAnswer {c} (h : Evolves s t) : Evolves s (t.farAnswer c) := by
  dsimp only [State.farAnswer]
  split
  · exact h.forEach fun _ k => k.tgSend
  · exact h.setTg

theorem Evolves.tollgateReceive {c} (h : Evolves s t) : Evolves s (t.tollgateReceive c) := by
  dsimp only [State.tollgateReceive]
  split
  · exact h
  · split
    · exact h.farAnswer
    · split
      · exact h
      · split
        · exact h.tgSend
        · split
          · split
            · exact h.tgSend
            · exact h
          · split
            · exact h
            · exact h.tgAccess

theorem Evolves.execTollgateReceive {cell} (h : Evolves s t) : Continues s (execTollgateReceive cell t) :=
  h.tollgateReceive.next

theorem Evolves.execBatchClose {batch} (h : Evolves s t) : Continues s (execBatchClose batch t) := by
  dsimp only [Machine.execBatchClose]
  refine Evolves.next ?_
  split
  · exact h
  · split
    · exact h.tryClose
    · exact h

theorem Evolves.execSingleRelease {tid} (h : Evolves s t) : Continues s (execSingleRelease tid t) := by
  dsimp only [Machine.execSingleRelease]
  refine Evolves.next ?_
  split
  · exact h
  · split
    · exact h
    · exact h.setTg

theorem Evolves.sendTrain {u' h' detour} (h : Evolves s t) : Evolves s (t.sendTrain u' h' detour) :=
  (h.setTg.when fun k => k.finc.almAdd).setTg.emit.foldl fun _ k => k.portSend

theorem Evolves.execUplinkDispatch {uplink} (h : Evolves s t) : Continues s (execUplinkDispatch uplink t) := by
  dsimp only [Machine.execUplinkDispatch]
  refine Evolves.next ?_
  split
  · exact h
  · split
    · exact h.setTg
    · exact h.setTg.sendTrain

theorem Evolves.farIssue {t'} (h : Evolves s t) : Evolves s (t.farIssue t') := h.setTg.forEach fun _ k => k.tgSend

theorem Evolves.farRepeat {j} (h : Evolves s t) : Evolves s (t.farRepeat j) := h.forEach fun _ k => k.tgSend

theorem Evolves.farArrive {t'} (h : Evolves s t) : Evolves s (t.farArrive t') := by
  dsimp only [State.farArrive]
  split
  · exact h.emit
  · split
    · exact h.hold
    · split
      · exact h.farRepeat
      · split
        · exact h.fsat
        · exact h.farIssue

theorem Evolves.trainReceive {t'} (h : Evolves s t) : Evolves s (t.trainReceive t') := by
  dsimp only [State.trainReceive]
  split
  · exact h.fsat
  · split
    · exact h.finc.almAdd
    · split
      · exact h.fsat
      · split
        · exact h.farArrive
        · exact h.hold

theorem Evolves.execTrainReceive {uplink head rest} (h : Evolves s t) : Continues s (execTrainReceive uplink head rest t) := by
  dsimp only [Machine.execTrainReceive]
  refine Evolves.next ?_
  split
  · exact h
  · split
    · exact h.trainReceive
    · exact h

theorem Evolves.addRecord {r} (h : Evolves s t) : Evolves s (t.addRecord r) := h.setTg

theorem Evolves.execFarComplete {key} (h : Evolves s t) : Continues s (execFarComplete key t) := by
  dsimp only [Machine.execFarComplete]
  refine Evolves.next ?_
  split
  · exact h
  · exact h.setTg.addRecord.hold

theorem Evolves.tgTick (h : Evolves s t) : Evolves s t.tgTick := h.setTg

theorem Evolves.execTransferAgeDiscard {key} (h : Evolves s t) : Continues s (execTransferAgeDiscard key t) := by
  dsimp only [Machine.execTransferAgeDiscard]
  refine Evolves.next ?_
  split
  · exact h
  · exact h.setTg.finc.almAdd

theorem Evolves.execTransferResend {tid} (h : Evolves s t) : Continues s (execTransferResend tid t) := by
  dsimp only [Machine.execTransferResend]
  refine Evolves.next ?_
  split
  · exact h
  · split
    · exact h.holdAs
    · exact h

theorem Evolves.forget {tid} (h : Evolves s t) : Evolves s (t.forget tid) := h.setTg

theorem Evolves.execTransferGiveUp {tid} (h : Evolves s t) : Continues s (execTransferGiveUp tid t) := by
  dsimp only [Machine.execTransferGiveUp]
  refine Evolves.next ?_
  split
  · exact h
  · split
    · exact h.forget.forEach fun _ k => k.tgSend
    · exact h

theorem Evolves.execTransferAnswer {t'} (h : Evolves s t) : Continues s (execTransferAnswer t' t) := by
  dsimp only [Machine.execTransferAnswer]
  refine Evolves.next ?_
  split
  · exact h
  · split
    · exact h
    · exact h.forget.forEach fun _ k => k.tgSend

theorem Evolves.tgReset (h : Evolves s t) : Evolves s t.tgReset := (h.forEach fun _ k => k.tgSend).setTg.setReg

/-! ## Hub -/

theorem Evolves.retireChannel {h' ch} (h : Evolves s t) : Evolves s (t.retireChannel h' ch) := by
  dsimp only [State.retireChannel]
  split
  · exact h
  · split
    · exact (h.fset.fset.fset.forEach fun _ k => k.fset.fsetb).setHub.alert.almAdd
    · exact h.fsetb.fset.alert

theorem Evolves.uncorrEvent {h' ch d} (h : Evolves s t) : Evolves s (t.uncorrEvent h' ch d) :=
  h.setHub.fset.when fun k => k.retireChannel

theorem Evolves.errorTick {h'} (h : Evolves s t) : Evolves s (t.errorTick h') := by
  dsimp only [State.errorTick]
  split
  · exact h
  · exact h.setHub.forEach fun _ k => k.fset.fset

theorem Evolves.corrected {h' ch} (h : Evolves s t) : Evolves s (t.corrected h' ch) :=
  h.setHub.finc.fset.almAdd.when fun k => k.retireChannel

theorem Evolves.setPoison {h' off} (h : Evolves s t) : Evolves s (t.setPoison h' off) := h.ite h.setHub.finc.almAdd.almAdd

theorem Evolves.clearPoison {h' off} (h : Evolves s t) : Evolves s (t.clearPoison h' off) := h.setHub

theorem Evolves.poisonPhys {h' ch i} (h : Evolves s t) : Evolves s (t.poisonPhys h' ch i) :=
  Evolves.fset (by split; exacts [h.setPoison, h.finc.almAdd.almAdd])

theorem Evolves.physRead {h' ch i f} (h : Evolves s t) : Evolves s (t.physRead h' ch i f) := by
  dsimp only [State.physRead]
  split
  · exact h
  · exact h.corrected
  · exact h.finc.almAdd.almAdd
  · exact h.poisonPhys.uncorrEvent
  · exact (h.forEach fun _ k => k.poisonPhys).uncorrEvent

theorem Evolves.lineRead {h' off f} (h : Evolves s t) : Evolves s (t.lineRead h' off f) := h.physRead

theorem Evolves.winWritten {h' i} (h : Evolves s t) : Evolves s (t.winWritten h' i) := h.setHub.when fun k => k.fsetb

theorem Evolves.setDirty {h' i p v} (h : Evolves s t) : Evolves s (t.setDirty h' i p v) := h.hubWrite

theorem Evolves.markDirty {h' off} (h : Evolves s t) : Evolves s (t.markDirty h' off) := h.forEach fun _ k => k.setDirty.ite k

theorem Evolves.markAll {h' i} (h : Evolves s t) : Evolves s (t.markAll h' i) := h.hubWrite.ite h.hubWrite.hubWrite

theorem Evolves.execMirrorValidSet {hub window} (h : Evolves s t) : Continues s (execMirrorValidSet hub window t) := by
  dsimp only [Machine.execMirrorValidSet]
  refine Evolves.next ?_
  split
  · exact h
  · split
    · exact h.fsetb.markAll
    · exact h.fsetb.fsetb

theorem Evolves.execMirrorResync {hub window} (h : Evolves s t) : Continues s (execMirrorResync hub window t) := by
  dsimp only [Machine.execMirrorResync]
  refine Evolves.next ?_
  split
  · exact h
  · split
    · exact h.fsetb.markAll
    · exact h.fsetb.fsetb

theorem Evolves.lineWrite {h' off data mask f} (h : Evolves s t) : Evolves s (t.lineWrite h' off data mask f) := by
  dsimp only [State.lineWrite]
  split
  · exact h.clearPoison.hubWrite.markDirty
  · exact h.lineRead.hubWrite.markDirty

theorem Evolves.performLine {h' c f} (h : Evolves s t) : Evolves s (t.performLine h' c f).s := by
  dsimp only [State.performLine]
  split
  · exact (h.ite h.almAdd).lineWrite.almAdd
  · split
    · exact h.lineRead.almAdd
    · split
      · exact h.lineRead.almAdd
      · exact h.lineRead.almAdd.hubWrite.markDirty.almAdd

theorem Evolves.hubSend {h' c} (h : Evolves s t) : Evolves s (t.hubSend h' c) := h.emit

theorem Evolves.addReply {e cap r} (h : Evolves s t) : Evolves s (t.addReply e cap r) := h.setEp.ite h.setEp.finc

theorem Evolves.hubCell {h' c f} (h : Evolves s t) : Evolves s (t.hubCell h' c f) := by
  dsimp only [State.hubCell]
  split
  · exact h.hubSend
  · split
    · exact h.hubSend
    · split
      · exact h.setHub
      · exact (h.performLine.addReply.ite h.performLine).hubSend

theorem Evolves.freeItem {h' id} (h : Evolves s t) : Evolves s (t.freeItem h' id) := h.upd

theorem Evolves.entryPerform {x i f} (h : Evolves s t) : Evolves s (t.entryPerform x i f) := by
  unfold State.entryPerform
  split
  · exact h.forEach fun _ k => k.hubSend
  · extract_lets _ _ _ _ r _
    have hr : Evolves s r.1 := by
      dsimp only [r]
      split
      · exact h
      · split
        · exact h.lineWrite
        · split
          · exact h.lineRead
          · exact h.lineRead.hubWrite.markDirty
    exact (hr.forEach fun _ k => k.hubSend).forEach fun _ k => k.hubSend

theorem Evolves.execHubPerformed {hub item fault} (h : Evolves s t) : Continues s (execHubPerformed hub item fault t) := by
  dsimp only [Machine.execHubPerformed]
  refine Evolves.next ?_
  split
  · exact h
  · split
    · exact h.freeItem
    · split
      · exact h.freeItem
      · split
        · exact h
        · exact h.entryPerform.freeItem

theorem Evolves.line {d : Direct} {x addr f c n} (h : Evolves s d.s) : Evolves s (d.line x addr f c n).s := by
  unfold Direct.line
  split
  · exact h.lineWrite
  · exact h.performLine

theorem Evolves.directPerform {x r f} (h : Evolves s t) : Evolves s (t.directPerform x r f).s := by
  unfold State.directPerform
  split
  · exact h
  · exact List.foldlRecOn (motive := fun d : Direct => Evolves s d.s) _ _ h fun _ k _ _ => k.line

theorem Evolves.execPatrolScrub {hub fault} (h : Evolves s t) : Continues s (execPatrolScrub hub fault t) := by
  dsimp only [Machine.execPatrolScrub]
  refine Evolves.next ?_
  split
  · exact h
  · split
    · exact h
    · exact h.setHub.physRead

theorem Evolves.execRefreshDue {hub chan rank bank} (h : Evolves s t) : Continues s (execRefreshDue hub chan rank bank t) :=
  (h.emit.ite h).next

theorem Evolves.readPackage {h' p t'} (h : Evolves s t) : Evolves s (t.readPackage h' p t') := h.setHub.when fun k => k.almAdd

theorem Evolves.hubTemps {h' temps} (h : Evolves s t) : Evolves s (t.hubTemps h' temps) :=
  (h.fset.fset.fset.fsetb.fsetb.when fun k => k.alert).almMax.almMax

theorem Evolves.execRetireGo {hub} (h : Evolves s t) : Continues s (execRetireGo hub t) := (h.setHub.ite h).next

theorem Evolves.retireDone {h'} (h : Evolves s t) : Evolves s (t.retireDone h') :=
  h.fset.fset.fset.fset.finc.fset.forEach fun _ k => k.fset.fset

theorem Evolves.readGranule {h' faults} (h : Evolves s t) : Evolves s (t.readGranule h' faults) := by
  dsimp only [State.readGranule]
  split
  · exact h
  · exact h.forEach fun _ k => k.lineRead

theorem Evolves.rowCopy {h' faults} (h : Evolves s t) : Evolves s (t.rowCopy h' faults) := by
  dsimp only [State.rowCopy]
  split
  · exact h.setHub.readGranule.fset.retireDone
  · exact h.setHub.readGranule.fset

theorem Evolves.execRetireRowCopy {hub} (h : Evolves s t) : Continues s (execRetireRowCopy hub t) := (h.ite h.rowCopy).next

theorem Evolves.copyTick {h'} (h : Evolves s t) : Evolves s (t.copyTick h') := h.ite h.setHub

theorem Evolves.hubsTick (h : Evolves s t) : Evolves s t.hubsTick := h.forEach fun _ k => k.copyTick.errorTick

theorem Evolves.execLaneMarginInterval {hub rx tx} (h : Evolves s t) : Continues s (execLaneMarginInterval hub rx tx t) := by
  dsimp only [Machine.execLaneMarginInterval]
  refine Evolves.next ?_
  split
  · exact h
  · exact h.forEach fun _ k => k.setHub.ite k.setHub.decideWidth

theorem Evolves.execLaneLost {hub lane} (h : Evolves s t) : Continues s (execLaneLost hub lane t) := (h.ite h.decideWidth).next

/-! ## Home -/

theorem Evolves.homeAnswer {k' c} (h : Evolves s t) : Evolves s (t.homeAnswer k' c) := by
  dsimp only [State.homeAnswer]
  split
  · exact h.upd
  · split
    · split
      · exact h.upd
      · exact h
    · split
      · exact h.portSend
      · exact h

theorem Evolves.useLine {x} (h : Evolves s t) : Evolves s (t.useLine x) := h.upd

theorem Evolves.dropLine {l} (h : Evolves s t) : Evolves s (t.dropLine l) := h.upd

theorem Evolves.putLine {x data mask} (h : Evolves s t) : Evolves s (t.putLine x data mask) := h.useLine.emit

theorem Evolves.performHome {x k' c} (h : Evolves s t) : Evolves s (t.performHome x k' c) := by
  dsimp only [State.performHome]
  split
  · exact h.putLine.homeAnswer
  · split
    · exact h.useLine.homeAnswer
    · exact ((h.useLine.ite h.putLine).addReply.ite (h.useLine.ite h.putLine)).homeAnswer

theorem Evolves.homeRoom (h : Evolves s t) (e : t.homeRoom = some u) : Evolves s u := by
  unfold State.homeRoom at e
  split at e
  · cases e
    exact h
  · obtain ⟨_, -, rfl⟩ := Option.map_eq_some_iff.1 e
    exact h.upd

theorem Evolves.homePlace {k' c} (h : Evolves s t) : Evolves s (t.homePlace k' c) := by
  dsimp only [State.homePlace]
  split
  · split
    · exact h.performHome
    · exact h.useLine
  · split
    · exact h.upd
    · split
      · exact (h.homeRoom ‹_›).performHome
      · exact (h.homeRoom ‹_›).useLine.emit

theorem Evolves.homeTake {k' c} (h : Evolves s t) : Evolves s (t.homeTake k' c) := h.upd.ite h.homePlace

theorem Evolves.homeCell {k' c} (h : Evolves s t) : Evolves s (t.homeCell k' c) := by
  dsimp only [State.homeCell]
  split
  · exact (h.when fun k => k.finc).homeAnswer
  · exact h.homeTake

theorem Evolves.homeWaiters {l w} (h : Evolves s t) : Evolves s (t.homeWaiters l w) :=
  h.forEach fun _ k => (by split; exacts [k.performHome, k])

theorem Evolves.homeGone {l w} (h : Evolves s t) : Evolves s (t.homeGone l w) :=
  h.dropLine.forEach fun _ k => (by split; exacts [k.performHome, k.performHome.ite k.homeAnswer])

theorem Evolves.homeData {line data uncorr} (h : Evolves s t) : Evolves s (t.homeData line data uncorr) := by
  dsimp only [State.homeData]
  split
  · exact h
  · split
    · exact h
    · split
      · exact h.homeGone
      · exact h.useLine.homeWaiters

theorem Evolves.execHomeDone {line} (h : Evolves s t) : Continues s (execHomeDone line t) := by
  dsimp only [Machine.execHomeDone]
  refine Evolves.next ?_
  split
  · exact h
  · exact h.upd

theorem Evolves.homeTimeout {line} (h : Evolves s t) : Evolves s (t.homeTimeout line) := by
  dsimp only [State.homeTimeout]
  split
  · exact h
  · split
    · exact h
    · split
      · exact h.fsetb.homeGone
      · exact h.fsetb

theorem Evolves.lineAdmit {line} (h : Evolves s t) : Evolves s (t.lineAdmit line) := by
  dsimp only [State.lineAdmit]
  split
  · exact h
  · split
    · exact h
    · exact h.upd.homePlace

theorem Evolves.homePut {off b} (h : Evolves s t) : Evolves s (t.homePut off b) := by
  dsimp only [State.homePut]
  split
  · split
    · exact h.putLine
    · exact h.emit
  · split
    · exact h.putLine
    · exact h.emit

/-! ## Endpoint -/

theorem Evolves.epSend {e q c} (h : Evolves s t) : Evolves s (t.epSend e q c) := by
  dsimp only [State.epSend]
  split
  · exact h.emit
  · split
    · exact h.ownSend
    · exact h.portSend

theorem Evolves.markBad {e} (h : Evolves s t) : Evolves s (t.markBad e) := h.when fun k => k.fsetb

theorem Evolves.msAdvance {e m n st} (h : Evolves s t) : Evolves s (t.msAdvance e m n st) := by
  dsimp only [State.msAdvance]
  split
  · exact h.fset
  · split
    · exact h.fset.finc.fset
    · exact h.fset.finc

theorem Evolves.setLost {e obs ctx v} (h : Evolves s t) : Evolves s (t.setLost e obs ctx v) := h.setEp

theorem Evolves.countFenceLost {e obs} (h : Evolves s t) : Evolves s (t.countFenceLost e obs) := by
  dsimp only [State.countFenceLost]
  split
  · exact h.finc
  · split
    · exact h.finc
    · exact h

theorem Evolves.reachCache {e obs ctx sc keep} (h : Evolves s t) : Evolves s (t.reachCache e obs ctx sc keep) := by
  dsimp only [State.reachCache]
  split
  · exact h
  · split
    · exact h.dropLines.finc
    · exact h.dropLines

theorem Evolves.withSet {c ctx f} (h : Evolves s t) : Evolves s (t.withSet c ctx f) := by
  dsimp only [State.withSet]
  split
  · exact h
  · split
    · exact h.setCore
    · split
      · split <;> exact h.setCore
      · exact h.setCore

theorem Evolves.wake {c ctx eng ok} (h : Evolves s t) : Evolves s (t.wake c ctx eng ok) :=
  (h.when fun k => k.finc.almAdd).withSet

theorem Evolves.askBanks {c off n} (h : Evolves s t) : Evolves s (t.askBanks c off n) := h.setCore

theorem Evolves.scratchWrite {c ctx eng off b} (h : Evolves s t) : Evolves s (t.scratchWrite c ctx eng off b) := h.setCore

theorem Evolves.mirrorAck {h' win page st} (h : Evolves s t) : Evolves s (t.mirrorAck h' win page st) := by
  dsimp only [State.mirrorAck]
  split
  · exact h.setHub
  · exact h.setHub.setDirty.fsetb.setHub.forEach fun _ k => k.msAdvance

theorem Evolves.ownPut {e off b} (h : Evolves s t) : Evolves s (t.ownPut e off b) := by
  dsimp only [State.ownPut]
  split
  · exact h.lineWrite
  · split
    · exact h.homePut
    · exact h

theorem Evolves.bcastLine {e slot chunk off st data} (h : Evolves s t) : Evolves s (t.bcastLine e slot chunk off st data) :=
  ((h.when fun k => k.ownPut).when fun k => k.ownPut).setEp

theorem Evolves.deliver {e q st data} (h : Evolves s t) : Evolves s (t.deliver e q st data) := by
  dsimp only [State.deliver]
  split
  · exact h
  · exact (h.wake.ite (h.withSet.ite h)).withSet
  · exact ((h.askBanks.forEach fun _ k => k.scratchWrite).ite h).setCore
  · exact h.emit
  · exact h.upd
  · exact h.upd
  · exact h.mirrorAck
  · exact h.bcastLine

theorem Evolves.coverLost {e id} (h : Evolves s t) : Evolves s (t.coverLost e id) := h.setEp

theorem Evolves.requestDone {e q st data} (h : Evolves s t) : Evolves s (t.requestDone e q st data) := by
  unfold State.requestDone
  extract_lets _ _ v1 _ v2 v3 v4
  have h1 : Evolves s v1 := h.setLost.countFenceLost.ite h
  have h2 : Evolves s v2 := h1.setLost.finc.coverLost.ite h1
  have h3 : Evolves s v3 := h2.reachCache.ite h2
  have h4 : Evolves s v4 := by
    dsimp only [v4]
    split
    · split
      · exact h3
      · exact h3.msAdvance
    · exact h3
  exact h4.deliver

theorem Evolves.cacheFill {e l} (h : Evolves s t) : Evolves s (t.cacheFill e l) := by
  dsimp only [State.cacheFill]
  split
  · exact h
  · exact Evolves.setEp (by split; exacts [h.dropLines, h])

theorem Evolves.cacheTouch {e ls} (h : Evolves s t) : Evolves s (t.cacheTouch e ls) := h.setEp

theorem Evolves.fillAll {e q} (h : Evolves s t) : Evolves s (t.fillAll e q) := h.forEach fun _ k => k.cacheFill

theorem Evolves.finish {e q} (h : Evolves s t) : Evolves s (t.finish e q) := (h.setEp.fillAll.ite h.setEp).requestDone

theorem Evolves.cellDone {e key req st unanswered line} (h : Evolves s t) :
    Evolves s (t.cellDone e key req st unanswered line) := by
  dsimp only [State.cellDone]
  split
  · split
    · exact h.setEp.setEp
    · exact h.setEp
  · split
    · exact h.setEp.finish
    · exact h.setEp.setEp

theorem Evolves.useResv {e i} (h : Evolves s t) : Evolves s (t.useResv e i) := by
  dsimp only [State.useResv]
  split
  · exact h
  · exact h.setEp

theorem Evolves.stallOrt {e key} (h : Evolves s t) : Evolves s (t.stallOrt e key) := h.setEp

theorem Evolves.transmit {e key} (h : Evolves s t) : Evolves s (t.transmit e key) := by
  dsimp only [State.transmit]
  split
  · exact h
  · split
    · exact h
    · split
      · exact h.cellDone
      · split
        · exact h
        · split
          · exact h.stallOrt
          · split
            · exact h.setEp
            · exact h.setEp.useResv.epSend

theorem Evolves.enterCells {e q cs inter far} (h : Evolves s t) : Evolves s (t.enterCells e q cs inter far) := by
  dsimp only [State.enterCells]
  split
  · exact h.setEp
  · exact h.setEp.forEach fun _ k => k.transmit

theorem Evolves.directGo {h' q f} (h : Evolves s t) : Evolves s (t.directGo h' q f) :=
  h.setHub.ite h.directPerform.setEp.requestDone

theorem Evolves.refuseReq {e q st} (h : Evolves s t) : Evolves s (t.refuseReq e q st) := h.requestDone

theorem Evolves.issueAt {e q x f} (h : Evolves s t) : Evolves s (t.issueAt e q x f) := by
  unfold State.issueAt
  extract_lets r id rack sp off inter q' a b v _ _ _ _ cached hit
  clear_value hit
  have hv : Evolves s v := .ite h.dropLines h
  refine .ite h.refuseReq (.ite hv.enterCells (.ite ?_ (.ite ?_ ?_)))
  · exact .ite hv.setEp.directGo hv.setEp
  · exact .ite (hv.setEp.forEach fun _ k => k.homeCell) hv.setEp
  · split
    · exact hv.cacheTouch.finc.requestDone
    · exact hv.enterCells

theorem Evolves.takeKey {e} (h : Evolves s t) : Evolves s (t.takeKey e) := h.setEp

theorem Evolves.issue {e r core dest f} (h : Evolves s t) : Evolves s (t.issue e r core dest f) := by
  dsimp only [State.issue]
  split
  · exact h.markBad.takeKey.refuseReq
  · exact h.markBad.takeKey.issueAt

theorem Evolves.holdEngine {e id core ctx d r} (h : Evolves s t) : Evolves s (t.holdEngine e id core ctx d r) := h.ite h.withSet

theorem Evolves.presentReq {h' core ctx d r} (h : Evolves s t) : Evolves s (t.presentReq h' core ctx d r) := h.issue.holdEngine

theorem Evolves.selfPump (h : Evolves s t) : Evolves s t.selfPump := h.upd.forEach fun _ k => k.cellDone

theorem Evolves.execRequestIssue {ep r} (h : Evolves s t) : Continues s (execRequestIssue ep r t) := by
  dsimp only [Machine.execRequestIssue]
  refine Evolves.next ?_
  split
  · exact h
  · split
    · exact h.presentReq
    · exact h.issue.selfPump

theorem Evolves.execRequestTransmit {ep key} (h : Evolves s t) : Continues s (execRequestTransmit ep key t) :=
  (h.ite h.transmit).next

theorem Evolves.releaseSend {e req} (h : Evolves s t) : Evolves s (t.releaseSend e req) := by
  dsimp only [State.releaseSend]
  split
  · exact h
  · split
    · exact h
    · split
      · exact h.setEp.requestDone
      · split
        · exact h.setEp.directGo
        · split
          · exact h.setEp.forEach fun _ k => k.homeCell
          · exact h.setEp.forEach fun _ k => k.transmit

theorem Evolves.execReleaseSend {ep req} (h : Evolves s t) : Continues s (execReleaseSend ep req t) :=
  (h.ite h.releaseSend.selfPump).next

theorem Evolves.putOut {e o} (h : Evolves s t) : Evolves s (t.putOut e o) := h.setEp

theorem Evolves.resendOn {e o plane} (h : Evolves s t) : Evolves s (t.resendOn e o plane) := by
  dsimp only [State.resendOn]
  split
  · exact h.putOut
  · exact h.putOut.finc.useResv.epSend

theorem Evolves.resendMoved {e o p} (h : Evolves s t) : Evolves s (t.resendMoved e o p) := by
  dsimp only [State.resendMoved]
  split
  · exact h.putOut
  · split
    · exact h.putOut
    · exact h.setEp.resendOn

theorem Evolves.resend {e o} (h : Evolves s t) : Evolves s (t.resend e o) := by
  dsimp only [State.resend]
  split
  · exact h.resendOn
  · split
    · exact h
    · split
      · exact h.cellDone
      · split
        · exact h.putOut
        · split
          · exact h.resendMoved
          · exact h.resendOn

theorem Evolves.retransmit {e key} (h : Evolves s t) : Evolves s (t.retransmit e key) := by
  dsimp only [State.retransmit]
  split
  · split
    · exact h.resend
    · exact h
  · exact h

theorem Evolves.resendDue {e} (h : Evolves s t) : Evolves s (t.resendDue e) := h.forEach fun _ k => k.retransmit

theorem Evolves.lose {e key} (h : Evolves s t) : Evolves s (t.lose e key) := by
  dsimp only [State.lose]
  split
  · split
    · exact h.cellDone
    · exact h
  · exact h

theorem Evolves.answerReceive {e plane c} (h : Evolves s t) : Evolves s (t.answerReceive e plane c) := by
  dsimp only [State.answerReceive]
  split
  · exact h.finc
  · split
    · split
      · exact h.cellDone
      · exact h.resend
    · exact h.cellDone

theorem Evolves.memAnswer {e plane c} (h : Evolves s t) : Evolves s (t.memAnswer e plane c) := h.answerReceive.ite h

theorem Evolves.execReplyRecordExpiry {ep} (h : Evolves s t) : Continues s (execReplyRecordExpiry ep t) := (h.ite h.setEp).next

theorem Evolves.execSeqWindowExpiry {ep key} (h : Evolves s t) : Continues s (execSeqWindowExpiry ep key t) := by
  dsimp only [Machine.execSeqWindowExpiry]
  refine Evolves.next ?_
  split
  · split
    · exact h.setEp
    · exact h
  · exact h

theorem Evolves.execStartupQuietEnd {ep} (h : Evolves s t) : Continues s (execStartupQuietEnd ep t) := (h.setEp.ite h).next

theorem Evolves.demotionNotice {e q c} (h : Evolves s t) : Evolves s (t.demotionNotice e q c) := by
  dsimp only [State.demotionNotice]
  split
  · exact h
  · exact h.forEach fun _ k => k.setReg.ite k

theorem Evolves.execDemotionNotice {ep plane cell} (h : Evolves s t) : Continues s (execDemotionNotice ep plane cell t) :=
  (h.ite h.demotionNotice).next

theorem Evolves.demoteClr {e} (h : Evolves s t) : Evolves s (t.demoteClr e) := h.forEach fun _ k => k.setReg

theorem Evolves.execDemoteClr {ep} (h : Evolves s t) : Continues s (execDemoteClr ep t) := (h.ite h.demoteClr).next

theorem Evolves.setVolatile {e v} (h : Evolves s t) : Evolves s (t.setVolatile e v) := h.fsetb.when fun k => k.dropCache

theorem Evolves.execVolatileSet {ep v} (h : Evolves s t) : Continues s (execVolatileSet ep v t) := (h.ite h.setVolatile).next

theorem Evolves.waitEnd {e w st} (h : Evolves s t) : Evolves s (t.waitEnd e w st) := by
  dsimp only [State.waitEnd]
  split
  · exact (h.setEp.reachCache.ite h.setEp).wake.withSet
  · split
    · exact (h.setEp.reachCache.ite h.setEp).emit
    · split
      · exact h.setEp.reachCache
      · exact h.setEp

theorem Evolves.evalWaits {e} (h : Evolves s t) : Evolves s (t.evalWaits e) := h.forEach fun _ k => k.waitEnd.ite k

theorem Evolves.execMilestoneSatisfied {ep wait} (h : Evolves s t) : Continues s (execMilestoneSatisfied ep wait t) := by
  dsimp only [Machine.execMilestoneSatisfied]
  refine Evolves.next ?_
  split
  · split
    · exact h.waitEnd
    · exact h
  · exact h

theorem Evolves.execWaitDeadline {ep} (h : Evolves s t) : Continues s (execWaitDeadline ep t) := by
  dsimp only [Machine.execWaitDeadline]
  refine Evolves.next ?_
  split
  · exact h
  · exact h.forEach fun _ k => k.waitEnd.ite (k.waitEnd.ite k)

theorem Evolves.writeCount {e m v} (h : Evolves s t) : Evolves s (t.writeCount e m v) := h.setReg.evalWaits

theorem Evolves.execMsCountWrite {ep ms v} (h : Evolves s t) : Continues s (execMsCountWrite ep ms v t) :=
  (h.writeCount.ite h).next

theorem Evolves.tokenAdd {c ctx t' n} (h : Evolves s t) : Evolves s (t.tokenAdd c ctx t' n) := h.withSet

theorem Evolves.fenceEnd {e w} (h : Evolves s t) : Evolves s (t.fenceEnd e w) := by
  unfold State.fenceEnd
  extract_lets x v o eng lost v1 st v2
  refine .ite h.setEp.tokenAdd ?_
  have h1 : Evolves s v1 := .ite h.setEp.setLost.countFenceLost h.setEp
  have h2 : Evolves s v2 := .ite h1.reachCache (.ite (.ite h1.withSet h1) h1.msAdvance)
  exact .ite h2.wake (.ite h2.emit h2)

theorem Evolves.execFenceComplete {ep fence} (h : Evolves s t) : Continues s (execFenceComplete ep fence t) := by
  dsimp only [Machine.execFenceComplete]
  refine Evolves.next ?_
  split
  · split
    · exact h.fenceEnd
    · exact h
  · exact h

theorem Evolves.fenceIssue {e w} (h : Evolves s t) : Evolves s (t.fenceIssue e w) := by
  unfold State.fenceIssue
  exact .ite h.setEp.fenceEnd (.ite h.setEp.withSet h.setEp)

theorem Evolves.execTokenWaitDone {core engine} (h : Evolves s t) : Continues s (execTokenWaitDone core engine t) := by
  dsimp only [Machine.execTokenWaitDone]
  refine Evolves.next ?_
  split
  · exact h
  · split
    · split
      · exact h.wake
      · exact h
    · exact h

theorem Evolves.invalidate {e c} (h : Evolves s t) : Evolves s (t.invalidate e c).1 := by
  unfold State.invalidate
  extract_lets
  split
  · exact h
  · exact h.dropLines

/-! ## Mirror -/

theorem Evolves.execMemoryAccess {hub r fault} (h : Evolves s t) : Continues s (execMemoryAccess hub r fault t) := by
  dsimp only [Machine.execMemoryAccess]
  refine Evolves.next ?_
  split
  · exact h
  · split
    · exact h.requestDone
    · exact (h.takeKey.setEp.directGo.ite h.takeKey.setEp).holdEngine

theorem Evolves.takeWait {h' w} (h : Evolves s t) : Evolves s (t.takeWait h' w) := by
  dsimp only [State.takeWait]
  split
  · exact h.hubCell
  · split
    · exact h.directGo
    · exact h

theorem Evolves.execTempRead {hub temps} (h : Evolves s t) : Continues s (execTempRead hub temps t) := by
  dsimp only [Machine.execTempRead]
  refine Evolves.next ?_
  split
  · exact h
  · exact (h.forEach fun _ k => k.readPackage).hubTemps.setHub.forEach fun _ k => k.takeWait

theorem Evolves.mirrorLine {h' win page k' f} (h : Evolves s t) : Evolves s (t.mirrorLine h' win page k' f) :=
  h.lineRead.finc.ite h.lineRead.dropLines.setHub.setEp.enterCells

theorem Evolves.mirrorPage {h' faults} (h : Evolves s t) : Evolves s (t.mirrorPage h' faults) := by
  dsimp only [State.mirrorPage]
  split
  · exact h
  · split
    · exact h
    · exact (h.setDirty.setHub.forEach fun _ k => k.mirrorLine).finc.almAdd.setHub

theorem Evolves.execMirrorPageSend {hub} (h : Evolves s t) : Continues s (execMirrorPageSend hub t) := (h.ite h.mirrorPage).next

theorem Evolves.mirrorSync {h' ms windows} (h : Evolves s t) : Evolves s (t.mirrorSync h' ms windows) := by
  dsimp only [State.mirrorSync]
  split
  · exact h.fsetb
  · split
    · exact h.msAdvance
    · exact h.setHub

theorem Evolves.execMirrorSync {hub ms windows} (h : Evolves s t) : Continues s (execMirrorSync hub ms windows t) :=
  (h.ite h.mirrorSync).next

theorem Evolves.execMirrorSyncComplete {hub} (h : Evolves s t) : Continues s (execMirrorSyncComplete hub t) := by
  dsimp only [Machine.execMirrorSyncComplete]
  refine Evolves.next ?_
  split
  · exact h
  · exact h.setHub.forEach fun _ k => k.msAdvance

/-! ## Chunks -/

theorem Evolves.putBytes {e off b} (h : Evolves s t) : Evolves s (t.putBytes e off b) := h.forEach fun _ k => k.ownPut

theorem Evolves.getBytes {e slot off n} (h : Evolves s t) : Evolves s (t.getBytes e slot off n).1 := by
  dsimp only [State.getBytes]
  split
  · exact h
  · split
    · split
      · exact h
      · split <;> exact h
    · split
      · exact h
      · split
        · exact h
        · exact h.forEach fun _ k => k.ite k.homeTake

/-! ## Reduce -/

theorem Evolves.setRd {x} (h : Evolves s t) : Evolves s (t.setRd x) := h.upd

theorem Evolves.setInst {slot i} (h : Evolves s t) : Evolves s (t.setInst slot i) := h.setRd

theorem Evolves.fixEarly (h : Evolves s t) : Evolves s t.fixEarly := h.fset

theorem Evolves.oweAck {c} (h : Evolves s t) : Evolves s (t.oweAck c) := h.setRd

theorem Evolves.placeAck {src} (h : Evolves s t) : Evolves s (t.placeAck src) := by
  dsimp only [State.placeAck]
  split
  · exact h
  · split
    · exact h.setRd
    · split
      · exact h.setRd
      · split
        · exact h.setRd.arriveOut
        · exact h

theorem Evolves.execMapAckSend (h : Evolves s t) : Continues s (execMapAckSend t) := (h.forEach fun _ k => k.placeAck).next

theorem Evolves.discardSlot {slot} (h : Evolves s t) : Evolves s (t.discardSlot slot) := h.setRd

theorem Evolves.endWith {slot st} (h : Evolves s t) : Evolves s (t.endWith slot st) := by
  dsimp only [State.endWith]
  split
  · exact h
  · split
    · exact h.setInst.when fun k => k.discardSlot
    · exact h

theorem Evolves.fileLate {i} (h : Evolves s t) : Evolves s (t.fileLate i) := h.forEach fun _ k => k.fsat

theorem Evolves.cpSeq {dst sp} (h : Evolves s t) : Evolves s (t.cpSeq dst sp).1 := h.setEp

theorem Evolves.sendNotices {slot ctx dsts payload} (h : Evolves s t) : Evolves s (t.sendNotices slot ctx dsts payload) :=
  h.forEach fun _ k => k.cpSeq.setRd.ownSend

theorem Evolves.countSlots {ctx} (h : Evolves s t) : Evolves s (t.countSlots ctx) := h.fset.fset

theorem Evolves.instEnd {slot st} (h : Evolves s t) : Evolves s (t.instEnd slot st) := by
  dsimp only [State.instEnd]
  split
  · exact h
  · exact ((((h.fset.fset.fsetb.when fun k => k.finc).when fun k => k.finc).when fun k => k.almAdd).ite
      (((h.fset.fset.fsetb.when fun k => k.finc).when fun k => k.finc).when fun k =>
      k.almAdd).fileLate).discardSlot.setInst.sendNotices

theorem Evolves.okCheck {slot} (h : Evolves s t) : Evolves s (t.okCheck slot) := by
  dsimp only [State.okCheck]
  split
  · exact h
  · split
    · exact h.endWith
    · exact h

theorem Evolves.execInstanceEnd {slot} (h : Evolves s t) : Continues s (execInstanceEnd slot t) := by
  dsimp only [Machine.execInstanceEnd]
  refine Evolves.next ?_
  split
  · exact h
  · split
    · exact h.instEnd
    · split
      · exact h.instEnd
      · exact h

theorem Evolves.execInstanceDeadline {slot} (h : Evolves s t) : Continues s (execInstanceDeadline slot t) := by
  dsimp only [Machine.execInstanceDeadline]
  refine Evolves.next ?_
  split
  · exact h
  · split
    · exact h
    · split <;> exact h.instEnd

theorem Evolves.execEndNoticeRepeat {slot} (h : Evolves s t) : Continues s (execEndNoticeRepeat slot t) :=
  (h.forEach fun _ k => k.setRd.ownSend).next

theorem Evolves.execSlotFree {slot} (h : Evolves s t) : Continues s (execSlotFree slot t) := by
  dsimp only [Machine.execSlotFree]
  refine Evolves.next ?_
  split
  · exact h
  · split
    · exact h
    · exact h.fset.setRd.countSlots

theorem Evolves.onImage {slot chunk faults act} (h : Evolves s t) (hact : ∀ {u}, Evolves s u → Evolves s (act u)) :
    Evolves s (t.onImage slot chunk faults act) := by
  dsimp only [State.onImage]
  split
  · split
    · exact hact h
    · exact hact (h.forEach fun _ k => k.lineRead)
  · exact hact h

theorem Evolves.spill {i e} (h : Evolves s t) : Evolves s (t.spill i e) := h.putBytes.setRd.finc.almAdd

theorem Evolves.makeRoom {m need l} (h : Evolves s t) : Evolves s (t.makeRoom m need l) := by
  induction l generalizing t with
  | nil => exact h
  | cons e l ih =>
    unfold State.makeRoom
    refine .ite h ?_
    split
    · exact ih h.spill
    · exact ih h

theorem Evolves.execEntrySpill {slot chunk} (h : Evolves s t) : Continues s (execEntrySpill slot chunk t) := by
  dsimp only [Machine.execEntrySpill]
  refine Evolves.next ?_
  split
  · split
    · exact h.onImage fun k => k.spill
    · exact h
  · exact h

theorem Evolves.seedRd {seed} (h : Evolves s t) : Evolves s (t.seedRd seed) := h.setRd

theorem Evolves.execRdSrSeed {seed} (h : Evolves s t) : Continues s (execRdSrSeed seed t) := h.seedRd.next

theorem Evolves.addResult {r} (h : Evolves s t) : Evolves s (t.addResult r) := h.setRd

theorem Evolves.addResiduals {i chunk vs} (h : Evolves s t) : Evolves s (t.addResiduals i chunk vs) :=
  h.forEach fun _ k => k.forEach fun _ k2 => k2.addResult

theorem Evolves.chunkDone {i e} (h : Evolves s t) : Evolves s (t.chunkDone i e) :=
  (h.setRd.fsat.finc.fsat.addResiduals.ite h.setRd.fsat.finc.fsat).addResult

theorem Evolves.openEntry {i chunk} (h : Evolves s t) : Evolves s (t.openEntry i chunk).1 := by
  dsimp only [State.openEntry]
  split
  · exact h
  · exact h.makeRoom

theorem Evolves.closeEntry {i e} (h : Evolves s t) : Evolves s (t.closeEntry i e) := by
  dsimp only [State.closeEntry]
  split
  · exact h.chunkDone
  · split <;> exact h.setRd

theorem Evolves.holdEarly {c} (h : Evolves s t) : Evolves s (t.holdEarly c).1 := by
  dsimp only [State.holdEarly]
  split
  · exact h
  · exact h.setRd.fixEarly

theorem Evolves.staleCell (h : Evolves s t) : Evolves s t.staleCell.1 := h.finc

theorem Evolves.addResidual {i c} (h : Evolves s t) : Evolves s (t.addResidual i c) := by
  dsimp only [State.addResidual]
  split
  · exact h
  · split
    · exact h.finc
    · exact h.openEntry.closeEntry

theorem Evolves.addContrib {i c rank} (h : Evolves s t) : Evolves s (t.addContrib i c rank) := by
  dsimp only [State.addContrib]
  split
  · exact h.finc
  · split
    · exact h.setInst
    · exact h.setInst.openEntry.closeEntry

theorem Evolves.rdContrib {c} (h : Evolves s t) : Evolves s (t.rdContrib c).1 := by
  dsimp only [State.rdContrib]
  split
  · exact h.holdEarly
  · split
    · exact h.staleCell
    · split
      · exact h.addResidual
      · split
        · exact h.finc
        · split
          · exact h.finc
          · split
            · exact h.holdEarly
            · split
              · exact h.staleCell
              · exact h.addContrib

theorem Evolves.releaseContribs {p} (h : Evolves s t) : Evolves s (t.releaseContribs p) :=
  h.setRd.fixEarly.forEach fun _ k => k.rdContrib

theorem Evolves.rdJoin {c} (h : Evolves s t) : Evolves s (t.rdJoin c).1 := by
  unfold State.rdJoin
  extract_lets
  split
  · exact h.finc
  · split
    · exact h.holdEarly
    · split
      · exact h.staleCell
      · split
        · exact h.endWith
        · split
          · split
            · exact h.endWith
            · split
              · exact h
              · dsimp only
                exact h.setInst.fset.releaseContribs
          · split
            · split
              · exact h
              · exact h.setInst.fset.okCheck
            · exact h

theorem Evolves.rdReceive {c} {act : State → Cell → State × Bool} (h : Evolves s t)
    (ha : ∀ {u} c, Evolves s u → Evolves s (act u c).1) : Evolves s (t.rdReceive c act) := by
  dsimp only [State.rdReceive]
  split
  · exact h.setRd.finc.oweAck
  · split
    · exact (ha _ h).setRd.oweAck
    · exact ha _ h

theorem Evolves.execJoinReceive {cell fclk} (h : Evolves s t) : Continues s (execJoinReceive cell fclk t) := by
  dsimp only [Machine.execJoinReceive]
  refine Evolves.next ?_
  split
  · exact h.rdReceive fun _ k => k.rdJoin
  · exact h

theorem Evolves.execContribReceive {cell fclk} (h : Evolves s t) : Continues s (execContribReceive cell fclk t) := by
  dsimp only [Machine.execContribReceive]
  refine Evolves.next ?_
  split
  · exact h.onImage fun k => k.rdReceive fun _ k2 => k2.rdContrib
  · exact h

theorem Evolves.execEarlyArrivalExpiry (h : Evolves s t) : Continues s (execEarlyArrivalExpiry t) :=
  (h.setRd.fixEarly.forEach fun _ k => k.finc.fsetb).next

theorem Evolves.releaseSlot {slot} (h : Evolves s t) : Evolves s (t.releaseSlot slot) := by
  unfold State.releaseSlot
  exact (h.setRd.fixEarly.forEach fun _ k => k.rdJoin).releaseContribs

theorem Evolves.putResult {r} (h : Evolves s t) : Evolves s (t.putResult r) := h.setRd

theorem Evolves.toQueue {m c root fclk} (h : Evolves s t) (e : t.toQueue m c root fclk = some u) : Evolves s u := by
  dsimp only [State.toQueue] at e
  split at e
  · cases e
    exact h.finc
  · split at e
    · cases e
      exact h.coreDrop.almAdd
    · split at e
      · cases e
      · cases e
        exact h.setSw.ite h.setSw

theorem Evolves.sendResult {r fclk} (h : Evolves s t) : Evolves s (t.sendResult r fclk) := by
  dsimp only [State.sendResult]
  split
  · exact h
  · split
    · split
      · exact (h.cpSeq.toQueue ‹_›).putResult
      · exact h
    · exact h.cpSeq.putResult.ownSend

theorem Evolves.heldDone {slot chunk} (h : Evolves s t) : Evolves s (t.heldDone slot chunk) := by
  dsimp only [State.heldDone]
  split
  · split
    · exact h.chunkDone
    · exact h
  · exact h

theorem Evolves.execResultHandoff {slot chunk} (h : Evolves s t) : Continues s (execResultHandoff slot chunk t) := by
  dsimp only [Machine.execResultHandoff]
  refine Evolves.next ?_
  split
  · exact h.heldDone
  · split <;> exact h.heldDone.forEach fun _ k => k.sendResult

theorem Evolves.rdResend {r} (h : Evolves s t) : Evolves s (t.rdResend r) := by
  unfold State.rdResend
  extract_lets
  refine .ite (h.getD fun e => ?_) h.putResult.ownSend
  obtain ⟨_, hq, rfl⟩ := Option.map_eq_some_iff.1 e
  exact (h.toQueue hq).putResult

theorem Evolves.rdRetransmit {key} (h : Evolves s t) : Evolves s (t.rdRetransmit key) := by
  dsimp only [State.rdRetransmit]
  split
  · exact h
  · split
    · exact h
    · exact h.rdResend

theorem Evolves.rdLose {key} (h : Evolves s t) : Evolves s (t.rdLose key) := by
  dsimp only [State.rdLose]
  split
  · exact h
  · split
    · exact h.endWith
    · exact h

theorem Evolves.resultAcked {r} (h : Evolves s t) : Evolves s (t.resultAcked r) := by
  dsimp only [State.resultAcked]
  split
  · exact h.setRd
  · exact h.setRd.setInst.fset.okCheck

theorem Evolves.rdAnswer {c} (h : Evolves s t) (e : t.rdAnswer c = some u) : Evolves s u := by
  dsimp only [State.rdAnswer] at e
  split at e
  · split at e
    · cases e
    · cases e
      exact h.forEach fun _ k => k.resultAcked
  · split at e
    · split at e
      · cases e
        exact h.ite h.rdResend
      · split at e
        · cases e
          exact h.endWith.ite h
        · split at e
          · cases e
            exact h.putResult
          · cases e
            exact h.setRd
    · split at e
      · cases e
        exact h.setRd
      · cases e

theorem Evolves.execRetireMoveStart {x} (h : Evolves s t) : Continues s (execRetireMoveStart x t) := by
  dsimp only [Machine.execRetireMoveStart]
  refine Evolves.next ?_
  split
  · exact h
  · exact h.memFilter.setHub.fset.fset.fset

/-! ## Member -/

theorem Evolves.enterColl {e p c} (h : Evolves s t) : Evolves s (t.enterColl e p c) := h.setEp.transmit

theorem Evolves.sendJoin {e m kind p} (h : Evolves s t) : Evolves s (t.sendJoin e m kind p) := h.enterColl

theorem Evolves.sendJoins {e m kind} (h : Evolves s t) : Evolves s (t.sendJoins e m kind) := h.forEach fun _ k => k.sendJoin

theorem Evolves.setMember {e m} (h : Evolves s t) : Evolves s (t.setMember e m) := h.setEp

theorem Evolves.setRoot {e r} (h : Evolves s t) : Evolves s (t.setRoot e r) := h.setEp

theorem Evolves.memberAbort {e m} (h : Evolves s t) : Evolves s (t.memberAbort e m) := h.setMember.sendJoins

theorem Evolves.readChunk {e slot d base t' n i} (h : Evolves s t) : Evolves s (t.readChunk e slot d base t' n i).1 := by
  dsimp only [State.readChunk]
  split <;> exact h.getBytes.getBytes

theorem Evolves.contribPump {e slot n} (h : Evolves s t) : Evolves s (t.contribPump e slot n) := by
  induction n generalizing t with
  | zero => exact h
  | succ n ih =>
    dsimp only [State.contribPump]
    split
    · exact h
    · split
      · exact h
      · split
        · exact ih h.setMember
        · split
          · exact ih h.setMember
          · split
            · exact h
            · split
              · exact h.readChunk
              · exact h.readChunk.memberAbort
              · exact ih h.readChunk.setMember.enterColl

theorem Evolves.residualPump {e slot n} (h : Evolves s t) : Evolves s (t.residualPump e slot n) := by
  induction n generalizing t with
  | zero => exact h
  | succ n ih =>
    unfold State.residualPump
    split
    · exact h
    · extract_lets
      refine .ite h ?_
      split
      · exact h.getBytes
      · exact h.getBytes.setRoot
      · exact ih h.getBytes.setRoot.enterColl

theorem Evolves.collPump {e} (h : Evolves s t) : Evolves s (t.collPump e) :=
  (h.forEach fun _ k => k.contribPump).forEach fun _ k => k.residualPump

theorem Evolves.memberCheck {e slot} (h : Evolves s t) : Evolves s (t.memberCheck e slot) := by
  dsimp only [State.memberCheck]
  split
  · exact h
  · split
    · exact h
    · split
      · exact Evolves.withSet (by split; exacts [h.setEp.msAdvance, h.setEp])
      · split
        · exact Evolves.emit (by split; exacts [h.setEp.msAdvance, h.setEp])
        · split
          · exact h.setEp.msAdvance
          · exact h.setEp

theorem Evolves.rootCheck {e slot} (h : Evolves s t) : Evolves s (t.rootCheck e slot) := by
  unfold State.rootCheck
  split
  · exact h
  · exact .ite h (.ite h.setEp.emit h.setEp)

theorem Evolves.partCheck {e slot} (h : Evolves s t) : Evolves s (t.partCheck e slot) := h.memberCheck.rootCheck

theorem Evolves.partCheckAll {e} (h : Evolves s t) : Evolves s (t.partCheckAll e) := h.forEach fun _ k => k.partCheck

theorem Evolves.noticeReceive {e plane c} (h : Evolves s t) : Evolves s (t.noticeReceive e plane c) := by
  unfold State.noticeReceive
  refine .ite h ?_
  extract_lets st slot q v iseq v1 v2
  have h1 : Evolves s v1 := by
    dsimp only [v1]
    split
    · exact .ite h.epSend.setMember h.epSend
    · exact h.epSend
  have h2 : Evolves s v2 := by
    dsimp only [v2]
    split
    · exact .ite h1.setRoot h1
    · exact h1
  exact h2.partCheck

theorem Evolves.execEndNoticeReceive {ep plane cell} (h : Evolves s t) : Continues s (execEndNoticeReceive ep plane cell t) :=
  (h.ite h.noticeReceive).next

theorem Evolves.execNoticeMissing {ep slot} (h : Evolves s t) : Continues s (Machine.execNoticeMissing ep slot t) := by
  unfold Machine.execNoticeMissing
  refine Evolves.next (.ite h ?_)
  extract_lets v1 v2
  have h1 : Evolves s v1 := by
    dsimp only [v1]
    split
    · exact h.setMember.ite h
    · exact h
  have h2 : Evolves s v2 := by
    dsimp only [v2]
    split
    · exact h1.setRoot.ite h1
    · exact h1
  exact h2.partCheck

theorem Evolves.rootAnswer {e c a} (h : Evolves s t) : Evolves s (t.rootAnswer e c a) := h.epSend

theorem Evolves.resultReceive {e c} (h : Evolves s t) : Evolves s (t.resultReceive e c) := by
  dsimp only [State.resultReceive]
  split
  · exact h.rootAnswer
  · split
    · exact h.rootAnswer
    · split
      · exact h.setEp.finc.rootAnswer
      · split
        · exact h
        · exact h.setEp.putBytes.putBytes.setRoot.fset.rootAnswer

theorem Evolves.execResultReceive {ep cell} (h : Evolves s t) : Continues s (execResultReceive ep cell t) :=
  (h.resultReceive.ite h).next

theorem Evolves.bcastSend {e slot} (h : Evolves s t) : Evolves s (t.bcastSend e slot) := by
  unfold State.bcastSend
  split
  · exact h
  · extract_lets
    refine .ite h (.ite h.setRoot ?_)
    split
    · exact h
    · split
      · exact h.readChunk
      · exact h.readChunk.setRoot
      · exact h.readChunk.setRoot.useResv.epSend

theorem Evolves.execBcastSend {ep slot} (h : Evolves s t) : Continues s (execBcastSend ep slot t) := (h.bcastSend.ite h).next

theorem Evolves.doneCheck {e slot} (h : Evolves s t) : Evolves s (t.doneCheck e slot) := by
  dsimp only [State.doneCheck]
  split
  · exact h
  · split
    · exact h.setMember.sendJoins
    · exact h

theorem Evolves.bcastReceive {e c} (h : Evolves s t) : Evolves s (t.bcastReceive e c) := by
  dsimp only [State.bcastReceive]
  split
  · exact h
  · split
    · exact h
    · exact h.setMember.putBytes.putBytes.doneCheck

theorem Evolves.execBcastReceive {ep cell} (h : Evolves s t) : Continues s (execBcastReceive ep cell t) :=
  (h.bcastReceive.ite h).next

theorem Evolves.recoverPiece {e m chunk root src dst n} (h : Evolves s t) :
    Evolves s (t.recoverPiece e m chunk root src dst n) := by
  unfold State.recoverPiece
  exact h.setEp.enterCells

theorem Evolves.recoverChunk {e slot chunk} (h : Evolves s t) : Evolves s (t.recoverChunk e slot chunk) := by
  dsimp only [State.recoverChunk]
  split
  · exact h
  · split
    · exact h.setMember
    · exact h.setMember.forEach fun _ k => k.recoverPiece

theorem Evolves.lackTick {e} (h : Evolves s t) : Evolves s (t.lackTick e) := h.setEp

theorem Evolves.execBcastRecovery {ep slot} (h : Evolves s t) : Continues s (execBcastRecovery ep slot t) := by
  dsimp only [Machine.execBcastRecovery]
  refine Evolves.next ?_
  split
  · exact h
  · split
    · exact h
    · split
      · exact h.doneCheck
      · exact h.doneCheck.forEach fun _ k => k.recoverChunk

theorem Evolves.collRefuse {e q st} (h : Evolves s t) : Evolves s (t.collRefuse e q st) := by
  dsimp only [State.collRefuse]
  split
  · exact Evolves.withSet (by split; exacts [h.msAdvance, h])
  · split
    · exact Evolves.emit (by split; exacts [h.msAdvance, h])
    · split
      · exact h.msAdvance
      · exact h

theorem Evolves.collMember {e q} (h : Evolves s t) : Evolves s (t.collMember e q) := by
  unfold State.collMember
  extract_lets
  refine .ite h.collRefuse ?_
  split
  · exact h.markBad.collRefuse
  · exact .ite h.markBad.collRefuse (.ite h.markBad.collRefuse (.ite h.markBad.collRefuse
      h.markBad.setEp.sendJoins.doneCheck.collPump))

theorem Evolves.collAbort {e b} (h : Evolves s t) : Evolves s (t.collAbort e b) := by
  dsimp only [State.collAbort]
  split
  · exact h.memberAbort
  · exact h

theorem Evolves.arm {p} (h : Evolves s t) : Evolves s (t.arm p) :=
  (h.setReg.setReg.setInst.countSlots.setEp.collPump.ite h.setReg.setReg.setInst.countSlots).releaseSlot

theorem Evolves.armDropped {p} (h : Evolves s t) : Evolves s (t.armDropped p) := h.setRd.fixEarly.sendNotices.almAdd

theorem Evolves.execInstanceArm {r} (h : Evolves s t) : Continues s (execInstanceArm r t) :=
  (h.begin.arm.ite (h.begin.armDropped.ite h.begin)).answerSt.next

theorem Evolves.mapAcked {e plane c} (h : Evolves s t) : Evolves s (t.mapAcked e plane c) := by
  dsimp only [State.mapAcked]
  split
  · exact h.finc
  · exact h.forEach fun _ k => k.cellDone

theorem Evolves.answerAt {e plane c} (h : Evolves s t) : Evolves s (t.answerAt e plane c) := by
  have direct : Evolves s (if c.typ = T.ACK ∧ c.opmod = 1 then t.mapAcked e plane c else t.memAnswer e plane c) :=
    h.mapAcked.ite h.memAnswer
  exact ((direct.getD h.rdAnswer).ite direct).collPump.partCheckAll

theorem Evolves.execAnswerReceive {ep plane cell} (h : Evolves s t) : Continues s (execAnswerReceive ep plane cell t) :=
  (h.ite h.answerAt).next

theorem Evolves.execRetransmit {ep key} (h : Evolves s t) : Continues s (execRetransmit ep key t) := by
  dsimp only [Machine.execRetransmit]
  refine Evolves.next ?_
  split
  · exact h.retransmit
  · split
    · exact h.rdRetransmit
    · exact h

theorem Evolves.execRequestLost {ep key} (h : Evolves s t) : Continues s (execRequestLost ep key t) := by
  dsimp only [Machine.execRequestLost]
  refine Evolves.next ?_
  split
  · exact h.lose.partCheckAll
  · split
    · exact h.rdLose
    · exact h

/-! ## Flags -/

theorem Evolves.setEng {c e f} (h : Evolves s t) : Evolves s (t.setEng c e f) := h.setCore

theorem Evolves.kernelEnded {c ctx how} (h : Evolves s t) : Evolves s (t.kernelEnded c ctx how) := h.setCore.fset.upd

theorem Evolves.takeFault {c e cause} (h : Evolves s t) : Evolves s (t.takeFault c e cause) :=
  (h.setCore.ite h.setCore.setReg).upd.kernelEnded

theorem Evolves.faultAt {c e cause} (h : Evolves s t) : Evolves s (t.faultAt c e cause) := h.ite h.takeFault

/-! ## Operands -/

theorem Evolves.go {i f} (h : Evolves s t) (hf : ∀ {u}, Evolves s u → Evolves s (f u)) : Evolves s (t.go i f) := by
  dsimp only [State.go]
  split
  · exact h
  · split
    · exact h.faultAt
    · split
      · exact h
      · split
        · exact h.faultAt
        · split
          · exact h.faultAt
          · split
            · exact h
            · exact hf h

theorem Evolves.nextPc {c e pc} (h : Evolves s t) : Evolves s (t.nextPc c e pc) := (h.setCore.ite h).setEng

theorem Evolves.pass {c e} (h : Evolves s t) : Evolves s (t.pass c e) := h.nextPc

theorem Evolves.branch {c e by_ f} (h : Evolves s t) (hf : ∀ {u}, Evolves s u → Evolves s (f u)) :
    Evolves s (t.branch c e by_ f) := by
  dsimp only [State.branch]
  split
  · exact h.faultAt
  · exact hf h.nextPc

theorem Evolves.setSv {c d v} (h : Evolves s t) : Evolves s (t.setSv c d v) := h.setCore

theorem Evolves.setXv {c e i v} (h : Evolves s t) : Evolves s (t.setXv c e i v) := h.setEng

theorem Evolves.onScratch {c e al off n f} (h : Evolves s t) (hf : ∀ {u}, Evolves s u → Evolves s (f u)) :
    Evolves s (t.onScratch c e al off n f) := by
  dsimp only [State.onScratch]
  split
  · exact h.faultAt
  · exact hf h.askBanks

theorem Evolves.sput {c e off b} (h : Evolves s t) : Evolves s (t.sput c e off b) := h.scratchWrite

/-! ## Scalar -/

theorem Evolves.alu {c op w f} (h : Evolves s t) : Evolves s (t.alu c op w f) := h.go fun k => k.pass.setSv

theorem Evolves.execAddS {core w} (h : Evolves s t) : Continues s (execAddS core w t) := h.alu.next

theorem Evolves.execSubS {core w} (h : Evolves s t) : Continues s (execSubS core w t) := h.alu.next

theorem Evolves.execMulS {core w} (h : Evolves s t) : Continues s (execMulS core w t) := h.alu.next

theorem Evolves.execMulhu {core w} (h : Evolves s t) : Continues s (execMulhu core w t) := h.alu.next

theorem Evolves.execAndS {core w} (h : Evolves s t) : Continues s (execAndS core w t) := h.alu.next

theorem Evolves.execOrS {core w} (h : Evolves s t) : Continues s (execOrS core w t) := h.alu.next

theorem Evolves.execXorS {core w} (h : Evolves s t) : Continues s (execXorS core w t) := h.alu.next

theorem Evolves.execShl {core w} (h : Evolves s t) : Continues s (execShl core w t) := h.alu.next

theorem Evolves.execShr {core w} (h : Evolves s t) : Continues s (execShr core w t) := h.alu.next

theorem Evolves.execSra {core w} (h : Evolves s t) : Continues s (execSra core w t) := h.alu.next

theorem Evolves.execMinS {core w} (h : Evolves s t) : Continues s (execMinS core w t) := h.alu.next

theorem Evolves.execMaxS {core w} (h : Evolves s t) : Continues s (execMaxS core w t) := h.alu.next

theorem Evolves.execMinu {core w} (h : Evolves s t) : Continues s (execMinu core w t) := h.alu.next

theorem Evolves.execMaxu {core w} (h : Evolves s t) : Continues s (execMaxu core w t) := h.alu.next

theorem Evolves.execDivu {core w} (h : Evolves s t) : Continues s (execDivu core w t) := h.alu.next

theorem Evolves.execRemu {core w} (h : Evolves s t) : Continues s (execRemu core w t) := h.alu.next

theorem Evolves.execSeq {core w} (h : Evolves s t) : Continues s (execSeq core w t) := h.alu.next

theorem Evolves.execSlt {core w} (h : Evolves s t) : Continues s (execSlt core w t) := h.alu.next

theorem Evolves.execSltu {core w} (h : Evolves s t) : Continues s (execSltu core w t) := h.alu.next

theorem Evolves.execLi {core w} (h : Evolves s t) : Continues s (execLi core w t) := (h.go fun k => k.pass.setSv).next

theorem Evolves.execLih {core w} (h : Evolves s t) : Continues s (execLih core w t) := (h.go fun k => k.pass.setSv).next

theorem Evolves.brIf {c op w f} (h : Evolves s t) : Evolves s (t.brIf c op w f) :=
  h.go fun k => (k.branch fun k2 => k2).ite k.pass

theorem Evolves.execBeq {core w} (h : Evolves s t) : Continues s (execBeq core w t) := h.brIf.next

theorem Evolves.execBne {core w} (h : Evolves s t) : Continues s (execBne core w t) := h.brIf.next

theorem Evolves.execBlt {core w} (h : Evolves s t) : Continues s (execBlt core w t) := h.brIf.next

theorem Evolves.execBge {core w} (h : Evolves s t) : Continues s (execBge core w t) := h.brIf.next

theorem Evolves.execBltu {core w} (h : Evolves s t) : Continues s (execBltu core w t) := h.brIf.next

theorem Evolves.execBgeu {core w} (h : Evolves s t) : Continues s (execBgeu core w t) := h.brIf.next

theorem Evolves.execJal {core w} (h : Evolves s t) : Continues s (execJal core w t) :=
  (h.go fun k => k.branch fun k2 => k2.setSv).next

theorem Evolves.execJr {core w} (h : Evolves s t) : Continues s (execJr core w t) := (h.go fun k => k.faultAt.ite k.nextPc).next

theorem Evolves.noteSector {c q} (h : Evolves s t) : Evolves s (t.noteSector c q) := h.setCore

theorem Evolves.scratchLoad {c op w acq} (h : Evolves s t) : Evolves s (t.scratchLoad c op w acq) := by
  unfold State.scratchLoad
  refine h.go fun k => k.onScratch fun k => ?_
  have hv := fun a n d v => (k.pass (c := a) (e := n)).setSv (c := a) (d := d) (v := v)
  exact .ite ((hv ..).when fun k => k.noteSector).reachCache ((hv ..).when fun k => k.noteSector)

theorem Evolves.execSld {core w} (h : Evolves s t) : Continues s (execSld core w t) := h.scratchLoad.next

theorem Evolves.execSlda {core w} (h : Evolves s t) : Continues s (execSlda core w t) := h.scratchLoad.next

theorem Evolves.scratchStore {c op w rel} (h : Evolves s t) : Evolves s (t.scratchStore c op w rel) :=
  h.go fun k => k.ite (k.onScratch fun k2 => k2.sput.pass.setLost.countFenceLost.ite k2.sput.pass)

theorem Evolves.execSst {core w} (h : Evolves s t) : Continues s (execSst core w t) := h.scratchStore.next

theorem Evolves.execSstr {core w} (h : Evolves s t) : Continues s (execSstr core w t) := h.scratchStore.next

theorem Evolves.execRdsys {core w} (h : Evolves s t) : Continues s (execRdsys core w t) :=
  (h.go fun k => k.pass.setSv.when fun k2 => k2.freeUsed).next

theorem Evolves.execRdstat {core w} (h : Evolves s t) : Continues s (execRdstat core w t) :=
  (h.go fun k => k.pass.setSv.setEng).next

/-! ## MemReqs -/

theorem Evolves.noteLines {c r} (h : Evolves s t) : Evolves s (t.noteLines c r) := by
  dsimp only [State.noteLines]
  split
  · exact h
  · exact h.setCore

theorem Evolves.sendReq {c d r} (h : Evolves s t) : Evolves s (t.sendReq c d r) := h.presentReq

theorem Evolves.aheadLoad {c d r} (h : Evolves s t) : Evolves s (t.aheadLoad c d r) := h.sendReq.setCore

theorem Evolves.memOp {c op kind hint w} (h : Evolves s t) : Evolves s (t.memOp c op kind hint w) :=
  h.go fun k => (k.pass.noteLines.aheadLoad.ite k).ite k.pass.sendReq

theorem Evolves.execLd {core w} (h : Evolves s t) : Continues s (execLd core w t) := h.memOp.next

theorem Evolves.execLdv {core w} (h : Evolves s t) : Continues s (execLdv core w t) := h.memOp.next

theorem Evolves.execLda {core w} (h : Evolves s t) : Continues s (execLda core w t) := h.memOp.next

theorem Evolves.execSt {core w} (h : Evolves s t) : Continues s (execSt core w t) := h.memOp.next

theorem Evolves.execStr {core w} (h : Evolves s t) : Continues s (execStr core w t) := h.memOp.next

theorem Evolves.execAtm {core w} (h : Evolves s t) : Continues s (execAtm core w t) := h.memOp.next

theorem Evolves.execAtma {core w} (h : Evolves s t) : Continues s (execAtma core w t) := h.memOp.next

theorem Evolves.execAtmr {core w} (h : Evolves s t) : Continues s (execAtmr core w t) := h.memOp.next

theorem Evolves.execInval {core w} (h : Evolves s t) : Continues s (execInval core w t) := h.memOp.next

theorem Evolves.execColl {core w} (h : Evolves s t) : Continues s (execColl core w t) :=
  (h.go fun k => k.ite (k.onScratch fun k2 => k2.pass.collMember)).next

theorem Evolves.execCollx {core w} (h : Evolves s t) : Continues s (execCollx core w t) :=
  (h.go fun k => k.onScratch fun k2 => k2.pass.collAbort).next

/-! ## Vector -/

theorem Evolves.setVv {c i v} (h : Evolves s t) : Evolves s (t.setVv c i v) := h.setCore

theorem Evolves.countSr {c eng sr} (h : Evolves s t) : Evolves s (t.countSr c eng sr) := h.when fun k => k.setEng

theorem Evolves.execVld {core w} (h : Evolves s t) : Continues s (execVld core w t) :=
  (h.go fun k => k.onScratch fun k2 => k2.setVv.pass).next

theorem Evolves.execVldb {core w} (h : Evolves s t) : Continues s (execVldb core w t) :=
  (h.go fun k => k.onScratch fun k2 => k2.setVv.pass).next

theorem Evolves.execVst {core w} (h : Evolves s t) : Continues s (execVst core w t) :=
  (h.go fun k => k.onScratch fun k2 => k2.sput.pass).next

theorem Evolves.laneOp {c op w f} (h : Evolves s t) : Evolves s (t.laneOp c op w f) := by
  unfold State.laneOp
  exact h.go fun k => k.setVv.countSr.pass

theorem Evolves.execVadd {core w} (h : Evolves s t) : Continues s (execVadd core w t) := h.laneOp.next

theorem Evolves.execVsub {core w} (h : Evolves s t) : Continues s (execVsub core w t) := h.laneOp.next

theorem Evolves.execVmul {core w} (h : Evolves s t) : Continues s (execVmul core w t) := h.laneOp.next

theorem Evolves.execVfma {core w} (h : Evolves s t) : Continues s (execVfma core w t) := h.laneOp.next

theorem Evolves.execVmin {core w} (h : Evolves s t) : Continues s (execVmin core w t) := h.laneOp.next

theorem Evolves.execVmax {core w} (h : Evolves s t) : Continues s (execVmax core w t) := h.laneOp.next

theorem Evolves.execVsel {core w} (h : Evolves s t) : Continues s (execVsel core w t) := h.laneOp.next

theorem Evolves.special {c op w f} (h : Evolves s t) : Evolves s (t.special c op w f) := by
  unfold State.special
  exact h.go fun k => k.setVv.pass

theorem Evolves.execVrcp {core w} (h : Evolves s t) : Continues s (execVrcp core w t) := h.special.next

theorem Evolves.execVrsq {core w} (h : Evolves s t) : Continues s (execVrsq core w t) := h.special.next

theorem Evolves.execVexp2 {core w} (h : Evolves s t) : Continues s (execVexp2 core w t) := h.special.next

theorem Evolves.foldLanes {c op w f} (h : Evolves s t) : Evolves s (t.foldLanes c op w f) := h.go fun k => k.setVv.pass

theorem Evolves.execVrsum {core w} (h : Evolves s t) : Continues s (execVrsum core w t) := h.foldLanes.next

theorem Evolves.execVrmax {core w} (h : Evolves s t) : Continues s (execVrmax core w t) := h.foldLanes.next

theorem Evolves.execVcvt {core w} (h : Evolves s t) : Continues s (execVcvt core w t) :=
  (h.go fun k => k.setVv.countSr.pass).next

theorem Evolves.execVsplat {core w} (h : Evolves s t) : Continues s (execVsplat core w t) := (h.go fun k => k.setVv.pass).next

/-! ## Matrix -/

theorem Evolves.setTile {c t' f} (h : Evolves s t) : Evolves s (t.setTile c t' f) := h.setCore

theorem Evolves.addGroup {c x a b} (h : Evolves s t) : Evolves s (t.addGroup c x a b) := h.setTile

theorem Evolves.mmaGoOn {c kg g} (h : Evolves s t) : Evolves s (t.mmaGoOn c kg g) := h.setEng.ite h.pass.setEng

theorem Evolves.execMma {core w} (h : Evolves s t) : Continues s (execMma core w t) :=
  (h.go fun k => k.faultAt.ite (k.onScratch fun k2 => k2.onScratch fun k3 => (k3.forEach fun _ k4 => k4.addGroup).mmaGoOn)).next

theorem Evolves.execMzero {core w} (h : Evolves s t) : Continues s (execMzero core w t) := (h.go fun k => k.setTile.pass).next

theorem Evolves.execMout {core w} (h : Evolves s t) : Continues s (execMout core w t) :=
  (h.go fun k => k.onScratch fun k2 => (k2.sput.countSr.when fun k3 => k3.setTile).pass).next

theorem Evolves.execMload {core w} (h : Evolves s t) : Continues s (execMload core w t) :=
  (h.go fun k => k.onScratch fun k2 => k2.setTile.pass).next

/-! ## Dma -/

theorem Evolves.updXfer {c id f} (h : Evolves s t) : Evolves s (t.updXfer c id f) := h.setCore

theorem Evolves.issuePiece {c x} (h : Evolves s t) : Evolves s (t.issuePiece c x) :=
  (h.updXfer.when fun k => k.askBanks).takeKey.issueAt

theorem Evolves.pumpXfer {c id n} (h : Evolves s t) : Evolves s (t.pumpXfer c id n) := by
  induction n generalizing t with
  | zero => exact h
  | succ n ih =>
    unfold State.pumpXfer
    split
    · split
      · exact h
      · exact ih h.issuePiece
    · exact h

theorem Evolves.dmaPump {c} (h : Evolves s t) : Evolves s (t.dmaPump c) := by
  dsimp only [State.dmaPump]
  split
  · exact h
  · exact h.forEach fun _ k => k.pumpXfer

theorem Evolves.xferDone {c x} (h : Evolves s t) : Evolves s (t.xferDone c x) :=
  Evolves.withSet (Evolves.when (by split; exacts [h.setCore.msAdvance, h.setCore]) fun k => k.setLost)

theorem Evolves.dmaWait {c} (h : Evolves s t) : Evolves s (t.dmaWait c) := h.ite h.setEng

theorem Evolves.dmaMem {c op w} (h : Evolves s t) : Evolves s (t.dmaMem c op w) := by
  unfold State.dmaMem
  refine h.go fun k => .ite k.faultAt (.ite k.faultAt (.ite k.dmaWait ?_))
  extract_lets
  split
  · exact k.pass.markBad.xferDone
  · exact k.pass.markBad.setCore.pumpXfer

theorem Evolves.execDmain {core w} (h : Evolves s t) : Continues s (execDmain core w t) := h.dmaMem.next

theorem Evolves.execDmainv {core w} (h : Evolves s t) : Continues s (execDmainv core w t) := h.dmaMem.next

theorem Evolves.execDmaout {core w} (h : Evolves s t) : Continues s (execDmaout core w t) := h.dmaMem.next

theorem Evolves.execDmaadd {core w} (h : Evolves s t) : Continues s (execDmaadd core w t) := h.dmaMem.next

theorem Evolves.execDmacp {core w} (h : Evolves s t) : Continues s (execDmacp core w t) :=
  (h.go fun k => k.faultAt.ite (k.dmaWait.ite (k.ite (k.askBanks.askBanks.sput.when fun k2 => k2.freeUsed).pass))).next

theorem Evolves.execDmaTransferComplete {core xfer} (h : Evolves s t) : Continues s (execDmaTransferComplete core xfer t) := by
  dsimp only [Machine.execDmaTransferComplete]
  refine Evolves.next ?_
  split
  · exact h
  · split
    · split
      · exact h.dmaPump.xferDone.dmaPump
      · exact h.dmaPump
    · exact h.dmaPump

/-! ## IndexSync -/

theorem Evolves.execXli {core engine w} (h : Evolves s t) : Continues s (execXli core engine w t) :=
  (h.go fun k => k.setXv.pass).next

theorem Evolves.execXadd {core engine w} (h : Evolves s t) : Continues s (execXadd core engine w t) :=
  (h.go fun k => k.setXv.pass).next

theorem Evolves.execXbnz {core engine w} (h : Evolves s t) : Continues s (execXbnz core engine w t) :=
  (h.go fun k => k.pass.ite (k.branch fun k2 => k2)).next

theorem Evolves.execXloop {core engine w} (h : Evolves s t) : Continues s (execXloop core engine w t) :=
  (h.go fun k => k.setXv.pass.ite (k.branch fun k2 => k2.setXv)).next

theorem Evolves.execXjmp {core engine w} (h : Evolves s t) : Continues s (execXjmp core engine w t) :=
  (h.go fun k => k.branch fun k2 => k2).next

theorem Evolves.execXstat {core engine w} (h : Evolves s t) : Continues s (execXstat core engine w t) :=
  (h.go fun k => k.setXv.setEng.pass).next

theorem Evolves.execXlih {core engine w} (h : Evolves s t) : Continues s (execXlih core engine w t) :=
  (h.go fun k => k.setXv.pass).next

theorem Evolves.execFence {core engine w} (h : Evolves s t) : Continues s (execFence core engine w t) :=
  (h.go fun k => k.pass.fenceIssue).next

theorem Evolves.execTsig {core engine w} (h : Evolves s t) : Continues s (execTsig core engine w t) :=
  (h.go fun k => k.ite k.pass.fenceIssue).next

theorem Evolves.execTwait {core engine w} (h : Evolves s t) : Continues s (execTwait core engine w t) :=
  (h.go fun k => (k.when fun k2 => k2.pass).ite ((k.when fun k2 => k2.pass).ite (k.when fun k2 => k2.pass).setEng)).next

theorem Evolves.execMswait {core engine w} (h : Evolves s t) : Continues s (execMswait core engine w t) :=
  (h.go fun k => k.pass.setEng.ite (k.ite (k.pass.reachCache.ite k.pass.setEp.setEng))).next

theorem Evolves.execMsadd {core engine w} (h : Evolves s t) : Continues s (execMsadd core engine w t) :=
  (h.go fun k => k.pass.setEng.ite k.pass.fenceIssue.evalWaits).next

theorem Evolves.execStep {core engine w} (h : Evolves s t) : Continues s (execStep core engine w t) :=
  (h.go fun k => k.pass.setEng).next

theorem Evolves.execEndE {core engine w} (h : Evolves s t) : Continues s (execEndE core engine w t) :=
  (h.go fun k => k.pass.setEng.kernelEnded.ite k.pass.setEng).next

theorem Evolves.execNop {core engine w} (h : Evolves s t) : Continues s (execNop core engine w t) := (h.go fun k => k.pass).next

/-! ## Quanta -/

theorem Evolves.quantumSchedule {c} (h : Evolves s t) : Evolves s (t.quantumSchedule c) :=
  h.fset.fset.setCore.ite h.fset.fset.setCore.fset.fsetb

theorem Evolves.execQuantumSchedule {core} (h : Evolves s t) : Continues s (execQuantumSchedule core t) :=
  (h.ite h.quantumSchedule).next

theorem Evolves.execQuantumOverrun {core} (h : Evolves s t) : Continues s (execQuantumOverrun core t) :=
  (h.finc.almAdd.almAdd.upd.ite h).next

theorem Evolves.squashAhead {c} (h : Evolves s t) : Evolves s (t.squashAhead c) := h.ite h.setCore.finc.almAdd

theorem Evolves.takeStops {c} (h : Evolves s t) : Evolves s (t.takeStops c) := h.setCore.forEach fun _ k => k.kernelEnded.ite k

theorem Evolves.swapSets {c ctx} (h : Evolves s t) : Evolves s (t.swapSets c ctx) := h.setCore.fset.fsetb

theorem Evolves.coreTick {c} (h : Evolves s t) : Evolves s (t.coreTick c) := by
  dsimp only [State.coreTick]
  split
  · exact h.squashAhead.takeStops.fset.finc.almAdd
  · exact ((h.squashAhead.takeStops.fset.ite h.squashAhead.takeStops.fset.swapSets).fset.setCore.finc.almAdd.ite
      (h.squashAhead.takeStops.fset.ite h.squashAhead.takeStops.fset.swapSets).fset.setCore.finc.almAdd).fsat.upd.dmaPump

/-! ## Contexts -/

theorem Evolves.setCtxRec {x c} (h : Evolves s t) : Evolves s (t.setCtxRec x c) := h.upd

theorem Evolves.putEntry {e n w} (h : Evolves s t) : Evolves s (t.putEntry e n w) := h.setReg.setReg.setReg

theorem Evolves.zeroEntry {e n} (h : Evolves s t) : Evolves s (t.zeroEntry e n) := h.resetRegs

theorem Evolves.install {e ws} (h : Evolves s t) : Evolves s (t.install e ws).1 := h.foldl fun _ k => k.putEntry

theorem Evolves.createContext {ctx p} (h : Evolves s t) : Evolves s (t.createContext ctx p) :=
  (h.forEach fun _ k => k.install.forEach fun _ k2 => k2.fset).setReg.setCtxRec

theorem Evolves.execContextCreate {r} (h : Evolves s t) : Continues s (execContextCreate r t) :=
  (h.begin.createContext.ite h.begin).answerSt.next

theorem Evolves.clearWhere {lo hi bit p} (h : Evolves s t) : Evolves s (t.clearWhere lo hi bit p) :=
  h.forEach fun _ k => k.setReg.ite k

theorem Evolves.scrubBegin {ctx} (h : Evolves s t) : Evolves s (t.scrubBegin ctx) :=
  (((((h.fset.forEach fun _ k => k.setCore.ite (k.ite k.setCore)).forEach fun _ k => k.instEnd).forEach fun _ k =>
    k.clearWhere).forEach fun _ k => k.clearWhere).forEach fun _ k => k.fset).forEach fun _ k => k.fsetb

theorem Evolves.execContextScrub {r} (h : Evolves s t) : Continues s (execContextScrub r t) := by
  dsimp only [Machine.execContextScrub]
  refine Evolves.next ?_
  split
  · exact h.begin.answerSt
  · split
    · exact h.begin.answerSt
    · exact h.begin.scrubBegin.pend.setCtxRec

theorem Evolves.releasePart {c ctx} (h : Evolves s t) : Evolves s (t.releasePart c ctx) := h.ite h.setCore.setReg.setReg

theorem Evolves.leaveLoad {c ctx} (h : Evolves s t) : Evolves s (t.leaveLoad c ctx) := by
  dsimp only [State.leaveLoad]
  split
  · exact h
  · split
    · exact (h.forEach fun _ k => k.zeroEntry).upd
    · exact h.upd

theorem Evolves.scrubZero {ctx} (h : Evolves s t) : Evolves s (t.scrubZero ctx) := by
  unfold State.scrubZero
  exact ((h.forEach fun _ k => k.releasePart.leaveLoad).forEach fun _ k =>
    ((k.forEach fun _ k => k.zeroEntry).dropLines.forEach fun _ k => k.setReg.setReg).forEach fun _ k =>
      k.waitEnd).setReg.setReg.setCtxRec

theorem Evolves.execScrubDrainDone {ctx} (h : Evolves s t) : Continues s (execScrubDrainDone ctx t) := by
  dsimp only [Machine.execScrubDrainDone]
  refine Evolves.next ?_
  split
  · split
    · exact h.scrubZero.complete
    · exact h
  · exact h

/-! ## Kernels -/

theorem Evolves.loadCore {ctx l c} (h : Evolves s t) : Evolves s (t.loadCore ctx l c) := by
  dsimp only [State.loadCore]
  split
  · exact h
  · exact h.releasePart.leaveLoad.setCore.setReg.setReg

theorem Evolves.loadKernel {ctx p l} (h : Evolves s t) : Evolves s (t.loadKernel ctx p l) :=
  (h.forEach fun _ k => k.loadCore).install.upd

theorem Evolves.measure {ctx p} (h : Evolves s t) : Evolves s (t.measure ctx p) := h.upd

theorem Evolves.pendDone {r st progress result} (h : Evolves s t) : Evolves s (t.pendDone r st progress result) :=
  h.pend.complete

theorem Evolves.execKernelLoad {r} (h : Evolves s t) : Continues s (execKernelLoad r t) := by
  dsimp only [Machine.execKernelLoad]
  refine Evolves.next ?_
  split
  · exact h.begin.measure.answerSt
  · split
    · exact (h.begin.measure.when fun k => k.freeUsed).pendDone
    · exact (h.begin.measure.when fun k => k.freeUsed).loadKernel.pendDone

theorem Evolves.startCore {ctx p c} (h : Evolves s t) : Evolves s (t.startCore ctx p c) :=
  (h.freeUsed.withSet.forEach fun _ k => k.setLost).setCore.fset

theorem Evolves.markStarted {ctx c} (h : Evolves s t) : Evolves s (t.markStarted ctx c) := h.setCore.fset

theorem Evolves.execKernelStart {r} (h : Evolves s t) : Continues s (execKernelStart r t) := by
  dsimp only [Machine.execKernelStart]
  refine Evolves.next ?_
  split
  · exact h.begin.answerSt
  · split
    · exact h.begin.answerSt
    · exact ((h.begin.ite (h.begin.forEach fun _ k => k.startCore)).forEach fun _ k => k.markStarted).upd.pend

theorem Evolves.execKernelStop {r} (h : Evolves s t) : Continues s (execKernelStop r t) := by
  dsimp only [Machine.execKernelStop]
  refine Evolves.next ?_
  split
  · exact h.begin.answerSt
  · split
    · exact h.begin.answerSt
    · split
      · exact (h.begin.forEach fun _ k => k.setCore).upd.pend
      · exact (h.begin.forEach fun _ k => k.setCore).answerSt

theorem Evolves.execUnloadDone {ctx core} (h : Evolves s t) : Continues s (execUnloadDone ctx core t) := by
  dsimp only [Machine.execUnloadDone]
  refine Evolves.next ?_
  split
  · exact h
  · split
    · exact h
    · split
      · exact h.releasePart.leaveLoad.upd
      · exact h.releasePart.leaveLoad.upd.complete

theorem Evolves.execKernelEnd {ctx core} (h : Evolves s t) : Continues s (execKernelEnd ctx core t) := by
  dsimp only [Machine.execKernelEnd]
  refine Evolves.next ?_
  split
  · exact h
  · exact h.upd.complete

/-! ## StdKernels -/

theorem Evolves.kRead {h' ctx va n} (h : Evolves s t) : Evolves s (t.kRead h' ctx va n).s := by
  dsimp only [State.kRead]
  split
  · exact h
  · split
    · exact h
    · split
      · exact h
      · exact h.freeUsed

theorem Evolves.kWrite {c ctx op n va b} (h : Evolves s t) : Evolves s (t.kWrite c ctx op n va b) := by
  induction n generalizing t va b with
  | zero => exact h
  | succ n ih =>
    unfold State.kWrite
    split
    · exact h
    · exact ih h.issue

theorem Evolves.kPut {c ctx va b} (h : Evolves s t) : Evolves s (t.kPut c ctx va b) := h.kWrite

theorem Evolves.poolRow {x ctx b n i} {a : KRead × Option (List Nat)} (h : Evolves s a.1.s) :
    Evolves s (State.poolRow x ctx b n a i).1.s := by
  dsimp only [State.poolRow]
  split
  · exact h
  · split
    · exact h.kRead
    · split
      · exact h.kRead
      · exact h.kRead.kRead

theorem Evolves.embedPool {c x ctx b rec_} (h : Evolves s t) : Evolves s (t.embedPool c x ctx b rec_).1 := by
  have rows (l : List Nat) (n : Nat) : Evolves s (l.foldl (State.poolRow x ctx b n) ({ s := t }, none)).1.s :=
    List.foldlRecOn (motive := fun a : KRead × Option (List Nat) => Evolves s a.1.s) _ _ h fun _ k _ _ => k.poolRow
  dsimp only [State.embedPool]
  split
  · exact h
  · split
    · exact rows _ _
    · exact (rows _ _).kPut

theorem Evolves.foldlKRead {f : KRead → Nat → KRead} {r : KRead} (h : Evolves s r.s) (hf :
    ∀ a i, Evolves s a.s → Evolves s (f a i).s)
    (l : List Nat) : Evolves s (l.foldl f r).s :=
  List.foldlRecOn (motive := fun a : KRead => Evolves s a.s) _ _ h fun _ k _ _ => hf _ _ k

theorem Evolves.decodeAttn {c x ctx b rec_} (h : Evolves s t) : Evolves s (t.decodeAttn c x ctx b rec_).1 := by
  unfold State.decodeAttn
  extract_lets _ _ _ _ _ pr qr r _
  have hr : Evolves s r.s := by
    dsimp only [r]
    refine Evolves.foldlKRead ?_ (fun _ _ k => ?_) _
    · exact h.kRead.kRead
    · exact k.kRead
  split
  · exact h
  · split
    · exact hr
    · exact hr.forEach fun _ k => k.freeUsed.kPut

theorem Evolves.sample {c x ctx b rec_} (h : Evolves s t) : Evolves s (t.sample c x ctx b rec_).1 := by
  unfold State.sample
  extract_lets
  split
  · exact h
  · split
    · exact h.kRead
    · dsimp only
      exact h.kRead.freeUsed.kPut

theorem Evolves.placeRoute {c x ctx rec_ dest i} {a : KRead × KV Nat} (h : Evolves s a.1.s) :
    Evolves s (State.placeRoute c x ctx rec_ dest a i).1.s := by
  unfold State.placeRoute
  extract_lets _ _ _ _ r _ _ st v
  have hr : Evolves s r.s := h.kRead
  have hv : Evolves s v.s := hr.kRead
  clear_value st
  split
  · exact hr
  · split
    · exact hr
    · split
      · exact hr
      · split
        · dsimp only
          exact hv
        · dsimp only
          exact hv.kPut

theorem Evolves.expertDispatch {c x ctx rec_} (h : Evolves s t) : Evolves s (t.expertDispatch c x ctx rec_).1 := by
  have routes {r : KRead} (hr : Evolves s r.s) (l : List Nat) (dest : List Byte) :
      Evolves s (l.foldl (State.placeRoute c x ctx rec_ dest) (r, [])).1.s :=
    List.foldlRecOn (motive := fun a : KRead × KV Nat => Evolves s a.1.s) _ _ hr fun _ k _ _ => k.placeRoute
  unfold State.expertDispatch
  extract_lets _ _ _ _ d r _
  have hr : Evolves s r.1.s := by
    dsimp only [r]
    exact routes (r := { s := d.s }) h.kRead _ _
  split
  · exact h
  · split
    · exact h.kRead
    · exact hr.kPut

theorem Evolves.ringServe {c ctx std l} (h : Evolves s t) : Evolves s (t.ringServe c ctx std l) := by
  unfold State.ringServe
  extract_lets _ _ _ _ _ _ v y
  have hv : Evolves s v := h.kRead.setCore
  have hy : Evolves s y.1 := by
    dsimp only [y]
    split
    · exact hv.embedPool
    · split
      · exact hv.decodeAttn
      · split
        · exact hv.sample
        · exact hv.expertDispatch
  exact h.ite hy.kWrite

theorem Evolves.execRingRequest {core ctx} (h : Evolves s t) : Continues s (execRingRequest core ctx t) := by
  dsimp only [Machine.execRingRequest]
  refine Evolves.next ?_
  split
  · split
    · exact h.ringServe
    · exact h
  · exact h

theorem Evolves.toBf16 {sr v} (h : Evolves s t) : Evolves s (t.toBf16 sr v).1 := by
  dsimp only [State.toBf16]
  split
  · exact h.freeUsed
  · exact h

theorem Evolves.optElement {c h' ctx b i} (h : Evolves s t) : Evolves s (t.optElement c h' ctx b i) :=
  h.kRead.kRead.kRead.kRead.toBf16.toBf16.toBf16.kPut.kPut.kPut.kPut

theorem Evolves.msBump {c ctx m} (h : Evolves s t) : Evolves s (t.msBump c ctx m) := h.fenceIssue.evalWaits.ite h.withSet

theorem Evolves.setBatch {c ctx n} (h : Evolves s t) : Evolves s (t.setBatch c ctx n) := h.setCore

theorem Evolves.optStep {c ctx l} (h : Evolves s t) : Evolves s (t.optStep c ctx l) := by
  unfold State.optStep
  exact .ite (.ite h (.ite h.msBump.setBatch.kernelEnded h.msBump.setBatch)) (.ite h.kernelEnded (.ite h
    (.ite (h.forEach fun _ k => k.optElement).msBump.setBatch.kernelEnded
      (h.forEach fun _ k => k.optElement).msBump.setBatch)))

theorem Evolves.execOptimizerBatch {core ctx} (h : Evolves s t) : Continues s (execOptimizerBatch core ctx t) := by
  dsimp only [Machine.execOptimizerBatch]
  refine Evolves.next ?_
  split
  · split
    · exact h.optStep
    · exact h
  · exact h

/-! ## Pages -/

theorem Evolves.closePages {cause ps} (h : Evolves s t) : Evolves s (t.closePages cause ps) := h.upd

theorem Evolves.execPageEdge (h : Evolves s t) : Continues s (execPageEdge t) := h.closePages.next

theorem Evolves.execPageWrite {ok} (h : Evolves s t) : Continues s (Machine.execPageWrite ok t) := by
  unfold Machine.execPageWrite
  refine Evolves.next ?_
  split
  · exact h
  · exact .ite h.upd.freeUsed (.ite h.upd h.upd.fsetb.alert)

/-! ## Boot -/

theorem Evolves.setFwSlot {k' v} (h : Evolves s t) : Evolves s (t.setFwSlot k' v) := h.fset.ite h.fset

theorem Evolves.setSlot {n x} (h : Evolves s t) : Evolves s (t.setSlot n x) :=
  h.updLatched (by split <;> rfl)

theorem Evolves.fallback (h : Evolves s t) : Evolves s t.fallback := h.fsetb.alert.almAdd

theorem Evolves.depower {st} (h : Evolves s t) : Evolves s (t.depower st) := by
  unfold State.depower
  extract_lets _ _ _ _ _ _ _ v w x
  have hv : Evolves s v := h.regsFilter.memNone.fset.fset.fset.fset.fset.fset
  have hw : Evolves s w := hv.forEach fun _ k => k.fset.fset
  exact .ite hw.fset.fset.fset.fset.fset hv

theorem Evolves.execPowerOn {volts} (h : Evolves s t) : Continues s (execPowerOn volts t) := (h.fset.fset.updBoot.ite h).next

theorem Evolves.execStrapChange {st} (h : Evolves s t) : Continues s (execStrapChange st t) :=
  (h.updBoot.ite h.updBoot.fsetb.alert).next

theorem Evolves.initSled (h : Evolves s t) : Evolves s t.initSled := by
  unfold State.initSled
  extract_lets _ _ _ _ _ v w
  have hv : Evolves s v := h.updBoot.fsetb.fset.resetRegs.fset.fset
  have hw : Evolves s w := hv.freeUsed.setReg.seedRd.ite hv
  exact hw.upd.holdUnused

theorem Evolves.bootSlot {k' trial} (h : Evolves s t) : Evolves s (t.bootSlot k' trial) :=
  h.setFwSlot.fset.setFwSlot.fset.fset.fsetb.fsetb.initSled.enterState

theorem Evolves.trialFailed {n} (h : Evolves s t) : Evolves s (t.trialFailed n) :=
  h.setFwSlot.updLatched (Evolves.refl t).setFwSlot.latched.symm

theorem Evolves.bootFrom {chk} (h : Evolves s t) : Evolves s (t.bootFrom chk) := by
  dsimp only [State.bootFrom]
  split
  · exact h.bootSlot
  · split
    · split
      · exact (h.when fun k => k.trialFailed).bootSlot.fallback
      · exact (h.when fun k => k.trialFailed).bootSlot.fsetb
    · split
      · exact (h.when fun k => k.trialFailed).initSled.fsetb.enterState.fallback
      · exact (h.when fun k => k.trialFailed).initSled.fsetb.enterState.fsetb

theorem Evolves.bootTime (h : Evolves s t) : Evolves s t.bootTime := h.fset.freeUsed.ite h

/-- The straps do not change the reset value of a register that outlasts the loss of the control rails (R20). -/
theorem regReset_of_keptReg {a : Nat} (h : keptReg false a = true) (l m : Straps) : regReset l a = regReset m a := by
  have hs : ¬ (0x5100000 ≤ a ∧ a < 0x5300000 ∧ a % 0x100000 < 0x2000 ∧ a % 8 = 0) := by
    simp only [keptReg, R.CP_STATE.addr, R.CP_FW.addr, R.PT_LASER.addr, R.SI_DEBUG.addr, R.CP_ALERT.addr,
      R.HE_TIME.addr, Bool.or_eq_true, Bool.and_eq_true, decide_eq_true_eq, beq_iff_eq] at h
    omega
  have h8 : a ≠ 8 := by
    rintro rfl
    exact absurd h (by decide)
  simp only [regReset, if_neg h8, if_neg hs]

/-- A register file of kept registers is canonical under any straps. -/
theorem State.regsWf_latch {m : State} (hr : t.regsWf = true)
    (hm : m.regs = t.regs.filter fun e => keptReg false e.1) : m.regsWf = true := by
  simp only [State.regsWf, hm, Bool.and_eq_true, List.all_eq_true] at hr ⊢
  refine ⟨krising_filter hr.1 _, fun e he => ?_⟩
  obtain ⟨he, hk⟩ := List.mem_filter.1 he
  rw [regReset_of_keptReg hk m.boot.latched t.boot.latched]
  exact hr.2 e he

theorem Keeps.bootBegin {st} : Keeps s (s.bootBegin st) := by
  unfold State.bootBegin
  extract_lets v _ _ w x y
  have hv : Evolves s v := (Evolves.refl s).bootTime
  have hw : Keeps v w := ⟨fun ⟨hm, hr⟩ => ⟨hm, State.regsWf_latch hr rfl⟩, rfl, List.suffix_refl _⟩
  have hy : Evolves w y := (Evolves.refl w).fset.fset.fset.fsetb
  exact (hv.toKeeps.trans hw).trans (hy.when fun k => k.alert).toKeeps

theorem Evolves.railFail (h : Evolves s t) : Evolves s t.railFail := h.updBoot.fset.fset.fsetb.fsetb.ite h.updBoot.fset.fset

theorem Keeps.execBootEntry {st chk} : ∃ t, execBootEntry st chk s = .next t ∧ Keeps s t := by
  refine ⟨_, rfl, ?_⟩
  split
  · exact .refl s
  · split
    · exact Keeps.bootBegin.trans (Evolves.refl _).railFail.toKeeps
    · exact Keeps.bootBegin.trans (Evolves.refl _).bootFrom.toKeeps

theorem Evolves.execBootFailClear (h : Evolves s t) : Continues s (execBootFailClear t) := h.updBoot.fsetb.fsetb.next

theorem Evolves.execInitEnd (h : Evolves s t) : Continues s (execInitEnd t) := by
  dsimp only [Machine.execInitEnd]
  refine Evolves.next ?_
  split
  · exact h
  · split
    · exact h.enterState
    · exact h.enterState.updBoot.setSlot.fset.fsetb.fsetb

theorem Evolves.execFullTrialTimeout (h : Evolves s t) : Continues s (execFullTrialTimeout t) := by
  dsimp only [Machine.execFullTrialTimeout]
  refine Evolves.next ?_
  split
  · split
    · exact h.fset.trialFailed.fallback.depower
    · exact h
  · exact h

theorem Evolves.execMaint (h : Evolves s t) : Continues s (execMaint t) := (h.updBoot.ite h.fsetb).next

theorem Evolves.execResume (h : Evolves s t) : Continues s (execResume t) := (h.updBoot.ite h.fsetb).next

theorem Evolves.enterDrain (h : Evolves s t) : Evolves s t.enterDrain :=
  h.updBoot.fsetb.fset.ite h.updBoot.fsetb.fset.enterState

theorem Evolves.stateTick (h : Evolves s t) : Evolves s t.stateTick := by
  dsimp only [State.stateTick]
  split
  · exact h
  · split
    · exact h.updBoot.enterDrain
    · split
      · exact h.updBoot.enterState
      · exact h.updBoot

theorem Evolves.stopAll (h : Evolves s t) : Evolves s t.stopAll := h.forEach fun _ k => k.kernelEnded

theorem Evolves.loseInstances (h : Evolves s t) : Evolves s t.loseInstances := h.forEach fun _ k => k.instEnd

theorem Evolves.portsDark (h : Evolves s t) : Evolves s t.portsDark := h.forEach fun _ k => k.portDown.setPort.ite k.portDown

theorem Evolves.stopLeaving (h : Evolves s t) : Evolves s t.stopLeaving := h.updBoot.fsetb.fset

theorem Evolves.execDrainEnd (h : Evolves s t) : Continues s (execDrainEnd t) := by
  dsimp only [Machine.execDrainEnd]
  refine Evolves.next ?_
  split
  · exact h
  · split
    · exact h
    · split
      · exact h.stopAll.loseInstances.closePages.stopLeaving.portsDark.depower
      · exact h.stopAll.loseInstances.closePages.stopLeaving.portsDark.enterState

theorem Evolves.loseInput (h : Evolves s t) : Evolves s t.loseInput := by
  dsimp only [State.loseInput]
  split
  · exact h
  · split
    · exact h.updBoot.depower
    · split
      · exact h
      · exact h.updBoot

theorem Evolves.execInputLoss (h : Evolves s t) : Continues s (execInputLoss t) := h.loseInput.next

theorem Evolves.execPresentNRise (h : Evolves s t) : Continues s (execPresentNRise t) := h.updBoot.loseInput.next

theorem Evolves.execInputLossInstanceEnd (h : Evolves s t) : Continues s (execInputLossInstanceEnd t) := by
  dsimp only [Machine.execInputLossInstanceEnd]
  refine Evolves.next ?_
  split
  · split
    · exact h
    · exact h.loseInstances.setRd.closePages
  · exact h

theorem Evolves.execInputLossRailsOff (h : Evolves s t) : Continues s (execInputLossRailsOff t) := by
  dsimp only [Machine.execInputLossRailsOff]
  refine Evolves.next ?_
  split
  · split
    · exact h
    · exact h.depower
  · exact h

theorem Evolves.haltTrip (h : Evolves s t) : Evolves s t.haltTrip := by
  dsimp only [State.haltTrip]
  split
  · exact h.portsDark.stopLeaving.resetRegs.updBoot.almAdd
  · exact h.portsDark.stopLeaving.resetRegs.updBoot.almAdd.enterState

theorem Evolves.execThermalTrip (h : Evolves s t) : Continues s (execThermalTrip t) := (h.ite h.haltTrip).next

theorem Evolves.execBootHold {v} (h : Evolves s t) : Continues s (execBootHold v t) := (h.fsetb.depower.ite h.fsetb).next

/-! ## Resets -/

theorem Evolves.markBusy (h : Evolves s t) : Evolves s t.markBusy := h.fset

theorem Evolves.portReset {p} (h : Evolves s t) : Evolves s (t.portReset p) := by
  dsimp only [State.portReset]
  split
  · exact h.testEnd.portDown.resetRegs.setPort
  · exact h.testEnd.portDown.resetRegs

theorem Evolves.coreReset {c} (h : Evolves s t) : Evolves s (t.coreReset c) :=
  (h.forEach fun _ k => (k.kernelEnded.ite k).leaveLoad).resetRegs.resetRegs.setEp.upd

theorem Evolves.hubReset {h'} (h : Evolves s t) : Evolves s (t.hubReset h') :=
  ((h.dropOutput.leaveUp.forEach fun _ k => k.setEp.requestDone).forEach fun _ k =>
    k.endWith).dropCache.setEp.resetRegs.resetRegs.resetRegs.resetRegs.resetRegs.resetRegs.fset.fset.upd.setHub.forEach fun _
    k => k.setCore

theorem Evolves.controlReset (h : Evolves s t) : Evolves s t.controlReset := (h.forEach fun _ k => k.fset).upd.setEp.resetRegs

theorem Evolves.resetBegin {unit idx} (h : Evolves s t) : Evolves s (t.resetBegin unit idx) :=
  (h.updBoot.portReset.ite (h.updBoot.coreReset.ite (h.updBoot.hubReset.ite (h.updBoot.tgReset.ite
    h.updBoot.controlReset)))).markBusy

theorem Evolves.resetTick (h : Evolves s t) : Evolves s t.resetTick :=
  (h.forEach fun _ k => k.resetBegin.ite k.coreReset).forEach fun _ k => k.resetBegin

theorem Evolves.askReset {u' atOnce} (h : Evolves s t) : Evolves s (t.askReset u' atOnce) := by
  dsimp only [State.askReset]
  split
  · exact h.updBoot.setCore
  · split
    · exact h.updBoot.resetBegin
    · exact h.updBoot

theorem Evolves.execResetPartial {r} (h : Evolves s t) : Continues s (execResetPartial r t) := by
  dsimp only [Machine.execResetPartial]
  refine Evolves.next ?_
  split
  · exact h.begin.answerSt
  · split
    · exact h.begin.answerSt.upd.askReset
    · exact h.begin.askReset.pend

theorem Evolves.execControlReset (h : Evolves s t) : Continues s (execControlReset t) := by
  dsimp only [Machine.execControlReset]
  refine Evolves.next ?_
  split
  · exact h
  · split
    · exact h
    · split
      · exact h.resetBegin
      · exact h.resetBegin.updBoot.fsetb.fsetb

theorem Evolves.relayout {x} (h : Evolves s t) : Evolves s (t.relayout x) := by
  unfold State.relayout
  extract_lets _ _ _ _ v w _ _ _ y
  have hv : Evolves s v := h.forEach fun _ k => k.forEach fun _ k => k.fset.fsetb
  clear_value v
  have hw : Evolves s w := hv.forEach fun _ k => k.fset
  clear_value w
  have hy : Evolves s y := hw.fset.fset.fset.fset.fset.fset
  clear_value y
  exact (hy.memFilter (p := fun e => !(hubAddr x 0 ≤ e.1 && e.1 < hubAddr (x + 1) 0))).setHub

theorem Evolves.hubBack {h' relayout} (h : Evolves s t) : Evolves s (t.hubBack h' relayout) :=
  ((h.relayout.ite h).forEach fun _ k => k.install.forEach fun _ k2 => k2.fset).enterUp

theorem Evolves.resetEnd {u'} (h : Evolves s t) : Evolves s (t.resetEnd u') := by
  dsimp only [State.resetEnd]
  split
  · exact (h.updBoot.hubBack.ite h.updBoot).fset.fset.finc.markBusy.complete
  · exact (h.updBoot.hubBack.ite h.updBoot).fset.fset.finc.markBusy

theorem Evolves.execResetDone {unit index} (h : Evolves s t) : Continues s (execResetDone unit index t) := by
  dsimp only [Machine.execResetDone]
  refine Evolves.next ?_
  split
  · exact h
  · split
    · exact h
    · exact h.resetEnd

theorem Evolves.bufferError {kind n} (h : Evolves s t) : Evolves s (t.bufferError kind n) := by
  dsimp only [State.bufferError]
  split
  · exact h.setSw.finc
  · exact h

theorem Evolves.execEccUncorrectable {unit index} (h : Evolves s t) : Continues s (execEccUncorrectable unit index t) := by
  dsimp only [Machine.execEccUncorrectable]
  refine Evolves.next ?_
  split
  · exact h.bufferError
  · split
    · exact h
    · exact h.finc.fset.alert.askReset

theorem Evolves.execTableEccError {addr} (h : Evolves s t) : Continues s (execTableEccError addr t) := by
  dsimp only [Machine.execTableEccError]
  refine Evolves.next ?_
  split
  · exact h
  · split
    · exact h
    · split
      · exact h.setSwapSt.finc.alert
      · exact h.setSwapSt

/-! ## Firmware -/

theorem Evolves.stagePiece {p} (h : Evolves s t) : Evolves s (t.stagePiece p) := h.setSlot.setFwSlot

theorem Evolves.stageLast (h : Evolves s t) : Evolves s t.stageLast := h.setSlot.setFwSlot.freeUsed

theorem Evolves.execFwStage {r} (h : Evolves s t) : Continues s (execFwStage r t) := by
  dsimp only [Machine.execFwStage]
  refine Evolves.next ?_
  split
  · exact h.begin.answerSt
  · split
    · exact h.begin.stagePiece.stageLast.answer
    · exact h.begin.stagePiece.freeUsed.answer

theorem Evolves.execFwActivate {r} (h : Evolves s t) : Continues s (execFwActivate r t) := by
  dsimp only [Machine.execFwActivate]
  refine Evolves.next ?_
  split
  · exact h.begin.answerSt
  · split
    · exact h.begin.pend.updBoot
    · exact h.begin.pend.updBoot.askReset

theorem Evolves.endActivation (h : Evolves s t) : Evolves s t.endActivation := h.updBoot

theorem Evolves.endControl (h : Evolves s t) : Evolves s t.endControl := by
  dsimp only [State.endControl]
  split
  · exact h.resetEnd
  · exact h

theorem Evolves.execLiveConfirm (h : Evolves s t) : Continues s (execLiveConfirm t) := by
  dsimp only [Machine.execLiveConfirm]
  refine Evolves.next ?_
  split
  · exact h
  · split
    · exact h
    · exact h.setFwSlot.fset.setFwSlot.fset.fset.fset.fsetb.fsetb.endActivation.endControl

theorem Evolves.execLiveTimeout (h : Evolves s t) : Continues s (execLiveTimeout t) := by
  dsimp only [Machine.execLiveTimeout]
  refine Evolves.next ?_
  split
  · exact h
  · split
    · exact h
    · exact h.setFwSlot.fallback.fsetb.fsetb.endActivation.endControl.askReset

/-! ## Liveness -/

theorem Evolves.sendBeat {p kind} (h : Evolves s t) : Evolves s (t.sendBeat p kind) := h.ite h.setPort.upd.portSend

theorem Evolves.execHeartbeatSend {port} (h : Evolves s t) : Continues s (execHeartbeatSend port t) := (h.sendBeat.ite h).next

theorem Evolves.execChangeHeartbeat (h : Evolves s t) : Continues s (execChangeHeartbeat t) := by
  dsimp only [Machine.execChangeHeartbeat]
  refine Evolves.next ?_
  split
  · exact h
  · exact h.upd.forEach fun _ k => k.sendBeat

theorem Evolves.vigilCount (h : Evolves s t) : Evolves s t.vigilCount := h.fset.fset

theorem Evolves.hear {i} (h : Evolves s t) : Evolves s (t.hear i) := h.fset.upd.ite h.fset.upd.fset.fset.vigilCount

theorem Evolves.hearSled {q old b} (h : Evolves s t) : Evolves s (t.hearSled q old b) := h.fset.upd

theorem Evolves.execHeartbeatReceive {port cell} (h : Evolves s t) : Continues s (execHeartbeatReceive port cell t) := by
  dsimp only [Machine.execHeartbeatReceive]
  refine Evolves.next ?_
  split
  · exact h
  · split
    · split <;> exact h.upd
    · split
      · exact h.upd.hear.hearSled
      · exact h.upd.hear

theorem Evolves.execVigilWindowEnd {subject} (h : Evolves s t) : Continues s (Machine.execVigilWindowEnd subject t) := by
  unfold Machine.execVigilWindowEnd
  exact (h.ite (.ite h.upd.fset.fset.fsat.almAdd.vigilCount h.upd.fset)).next

theorem Evolves.verdict {i v} (h : Evolves s t) : Evolves s (t.verdict i v) := by
  dsimp only [State.verdict]
  split
  · exact (h.when fun k => k.finc.almAdd).fset.fset.almAdd.vigilCount.upd
  · split
    · exact (h.when fun k => k.finc.almAdd).fset
    · exact (h.when fun k => k.finc.almAdd).fset.fset.vigilCount.upd

theorem Evolves.verdicts {p n i} (h : Evolves s t) : Evolves s (t.verdicts p n i).1 := by
  induction n generalizing t i with
  | zero => exact h
  | succ n ih =>
    dsimp only [State.verdicts]
    split
    · split
      · exact h
      · exact ih h.verdict
    · exact h

theorem Evolves.execVigilConfirm {r} (h : Evolves s t) : Continues s (execVigilConfirm r t) := by
  dsimp only [Machine.execVigilConfirm]
  refine Evolves.next ?_
  split
  · exact h.begin.answerSt
  · split
    · exact (h.begin.verdicts.ofEq ‹_›).answerSt
    · exact (h.begin.verdicts.ofEq ‹_›).answer

theorem Evolves.confirmTick (h : Evolves s t) : Evolves s t.confirmTick :=
  (h.forEach fun _ k => k.fset.almAdd.ite (k.fset.ite k)).upd

theorem Evolves.pathTick (h : Evolves s t) : Evolves s t.pathTick := h.ite h.upd

theorem Evolves.execGoneDepart {plane} (h : Evolves s t) : Continues s (execGoneDepart plane t) :=
  (h.ite h.upd.fset.almAdd).next

theorem Evolves.execGoneClear {id} (h : Evolves s t) : Continues s (execGoneClear id t) := by
  dsimp only [Machine.execGoneClear]
  refine Evolves.next ?_
  split
  · split
    · exact h.fset
    · exact h
  · split
    · exact h
    · split
      · exact h.upd.fset
      · exact h

theorem Evolves.vigilTick (h : Evolves s t) : Evolves s t.vigilTick := h.upd.confirmTick.pathTick

/-! ## Power -/

theorem Evolves.writeStops (h : Evolves s t) : Evolves s t.writeStops := by
  dsimp only [State.writeStops]
  split
  · exact h
  · exact h.forEach fun _ k => (k.ite k.fsetb).ite (k.ite k.fsetb).fsetb

theorem Evolves.applyLadder (h : Evolves s t) : Evolves s t.applyLadder :=
  (((h.ite h.fset).ite ((h.ite h.fset).forEach fun _ k => k.ite k.fset)).ite (((h.ite h.fset).ite ((h.ite h.fset).forEach fun _
    k => k.ite k.fset)).forEach fun _ k => k.fset)).upd

theorem Evolves.chargeBoost {p} (h : Evolves s t) : Evolves s (t.chargeBoost p) :=
  ((h.upd.fset.fset.ite h.upd.fset.fset.freeUsed).when fun k => k.fsat.almAdd).almMin

theorem Evolves.boostExhaust (h : Evolves s t) : Evolves s t.boostExhaust := h.fsetb.ite h

theorem Evolves.boostRestore (h : Evolves s t) : Evolves s t.boostRestore := h.fsetb.ite h

theorem Evolves.execBoostExhaust (h : Evolves s t) : Continues s (execBoostExhaust t) := h.boostExhaust.next

theorem Evolves.execBoostRestore (h : Evolves s t) : Continues s (execBoostRestore t) := h.boostRestore.next

theorem Evolves.moveLadder {p c} (h : Evolves s t) : Evolves s (t.moveLadder p c) := (h.when fun k => k.fsetb).fset.upd

theorem Evolves.ladderFall (h : Evolves s t) : Evolves s t.ladderFall := h.ite h.upd.fset.writeStops

theorem Evolves.execLadderFall (h : Evolves s t) : Continues s (execLadderFall t) := h.ladderFall.next

theorem Evolves.envelope {c} (h : Evolves s t) : Evolves s (t.envelope c) := (h.fsetb.upd.ite h.fsetb).when fun k => k.alert

theorem Evolves.throttlePeriod (h : Evolves s t) : Evolves s t.throttlePeriod := by
  dsimp only [State.throttlePeriod]
  split
  · exact h
  · split
    · exact h.upd
    · exact h.upd.forEach fun _ k => ((k.fsat.when fun k2 => k2.finc).when fun k2 => k2.finc).when fun k2 => k2.finc

theorem Evolves.execThrottlePeriod (h : Evolves s t) : Continues s (execThrottlePeriod t) := h.throttlePeriod.next

theorem Evolves.execPowerPolicy {r} (h : Evolves s t) : Continues s (execPowerPolicy r t) := by
  dsimp only [Machine.execPowerPolicy]
  refine Evolves.next ?_
  split
  · exact h.begin.answerSt
  · split
    · exact h.begin.answerSt
    · exact h.begin.upd.answerSt

theorem Evolves.policyTick (h : Evolves s t) : Evolves s t.policyTick := by
  dsimp only [State.policyTick]
  split
  · exact h
  · exact h.upd.fset.fsetb.fset

theorem Evolves.bandSample {flow} (h : Evolves s t) : Evolves s (t.bandSample flow) := h.fset.upd

theorem Evolves.coolFlag {f v} (h : Evolves s t) : Evolves s (t.coolFlag f v) := h.fsetb.when fun k => k.alert

theorem Evolves.execCoolantSample {flow inlet outlet} (h : Evolves s t) : Continues s (execCoolantSample flow inlet outlet t) :=
  h.fset.fset.fset.bandSample.coolFlag.coolFlag.coolFlag.almMin.almMax.almMax.next

theorem Evolves.emergTick (h : Evolves s t) : Evolves s t.emergTick := h.ite h.fsetb.upd.alert

theorem Evolves.emergencyEnd (h : Evolves s t) : Evolves s t.emergencyEnd := h.ite h.upd.fsetb.writeStops

theorem Evolves.execEmergencyEnd (h : Evolves s t) : Continues s (execEmergencyEnd t) := h.emergencyEnd.next

theorem Evolves.showTemps {t'} (h : Evolves s t) : Evolves s (t.showTemps t') :=
  (h.setReg.forEach fun _ k => k.almMax).forEach fun _ k => k.fset.fmax.almMax

theorem Evolves.dramTrip (h : Evolves s t) : Evolves s t.dramTrip := by
  unfold State.dramTrip
  extract_lets v w _ x
  have hv : Evolves s v := h.haltTrip.ite h
  have hw : Evolves s w := hv.resetRegs.forEach fun _ k => k.resetRegs
  exact hw.memNone.almAdd

theorem Evolves.controlTrip (h : Evolves s t) : Evolves s t.controlTrip := h.almAdd.depower.fsetb

theorem Evolves.tempActs {x} (h : Evolves s t) : Evolves s (t.tempActs x) := by
  unfold State.tempActs
  extract_lets _ v1 v2 v3
  have h1 : Evolves s v1 := h.upd.writeStops.ite h
  have h2 : Evolves s v2 := h1.haltTrip.ite h1
  have h3 : Evolves s v3 := h2.dramTrip.ite h2
  exact h3.controlTrip.ite h3

theorem Evolves.execDieTempSample {x} (h : Evolves s t) : Continues s (Machine.execDieTempSample x t) := by
  unfold Machine.execDieTempSample
  exact (Evolves.ite (h.showTemps.when fun k => k.alert).upd (h.showTemps.when fun k => k.alert).upd.tempActs).next

theorem Evolves.chipWear {k' temp} (h : Evolves s t) : Evolves s (t.chipWear k' temp) :=
  h.fset.fmax.finc.fsetb.ite h.fset.fmax.finc

theorem Evolves.execLaserWearUpdate {temps} (h : Evolves s t) : Continues s (execLaserWearUpdate temps t) :=
  ((h.forEach fun _ k => k.finc.fsetb.alert.ite k.finc).forEach fun _ k => k.chipWear).next

theorem Evolves.powerPages {p} (h : Evolves s t) : Evolves s (t.powerPages p) := by
  dsimp only [State.powerPages]
  split
  · exact h.almMin.almMax.almAdd.almAdd.almMax
  · exact h.almMin.almMax.almAdd.almAdd.almMax.almAdd.almAdd.forEach fun _ k => k.almAdd

theorem Evolves.powerInput {p} (h : Evolves s t) : Evolves s (t.powerInput p) := h.fset.fset.fset.fmax

theorem Evolves.powerTick {p} (h : Evolves s t) : Evolves s (t.powerTick p) := by
  dsimp only [State.powerTick]
  split
  · exact h
  · exact h.applyLadder.powerInput.throttlePeriod.policyTick.emergTick.emergencyEnd.chargeBoost.boostExhaust.boostRestore.fset
      |>.moveLadder.envelope.ladderFall.writeStops.upd.powerPages

/-! ## Island -/

theorem Evolves.execTableHashUpdate {table} (h : Evolves s t) : Continues s (execTableHashUpdate table t) := (h.upd.ite h).next

theorem Evolves.attPending (h : Evolves s t) : Evolves s t.attPending := h.fset

theorem Evolves.execAttest {r} (h : Evolves s t) : Continues s (Machine.execAttest r t) := by
  unfold Machine.execAttest
  refine (Evolves.ite h.begin.updTag.answerSt (.ite h.begin.updTag.answerSt (.ite h.begin.updTag.answer ?_))).next
  split
  · exact h.begin.updTag.answer
  · exact .ite h.begin.updTag.answerSt h.begin.updTag.upd.attPending.pend

theorem Evolves.holdEvidence {nonce b} (h : Evolves s t) : Evolves s (t.holdEvidence nonce b) := h.upd

theorem Evolves.captureTick (h : Evolves s t) : Evolves s t.captureTick := by
  dsimp only [State.captureTick]
  split
  · exact (h.forEach fun _ k => k.holdEvidence).upd
  · exact h.forEach fun _ k => k.holdEvidence

theorem Evolves.attestDone {owner tag} (h : Evolves s t) (e : t.attestDone owner tag = some u) : Evolves s u := by
  dsimp only [State.attestDone] at e
  split at e
  · cases e
  · split at e
    · cases e
    · split at e
      · cases e
      · cases e
        exact h.upd.attPending.complete

theorem Evolves.execAttGo (h : Evolves s t) : Continues s (execAttGo t) := by
  dsimp only [Machine.execAttGo]
  refine Evolves.next ?_
  split
  · exact h
  · split
    · exact h.fsetb.fsetb.upd.captureTick
    · exact h.fsetb.fsetb.upd

theorem Evolves.execAttEvidenceReady (h : Evolves s t) : Continues s (execAttEvidenceReady t) := (h.ite h.upd.fsetb.fsetb).next

theorem Evolves.execRngHealthFail (h : Evolves s t) : Continues s (execRngHealthFail t) := h.fsetb.next

theorem Evolves.execRngOkReturn (h : Evolves s t) : Continues s (execRngOkReturn t) := h.fsetb.next

theorem Evolves.execDebugSessionStart {source} (h : Evolves s t) : Continues s (execDebugSessionStart source t) :=
  (h.ite h.fsetb.fsetb.fsetb.fset.fsat.finc.upd.alert.almAdd).next

theorem Evolves.execDebugSessionEnd (h : Evolves s t) : Continues s (execDebugSessionEnd t) := (h.ite h.fsetb.fsetb.almMax).next

/-! ## Almanac -/

theorem Evolves.execAlmanacWindow {r} (h : Evolves s t) : Continues s (execAlmanacWindow r t) := by
  dsimp only [Machine.execAlmanacWindow]
  refine Evolves.next ?_
  split
  · exact h.begin.answerSt
  · split
    · exact h.begin.answer
    · split
      · exact h.begin.upd
      · split
        · exact h.begin.freeUsed.answer
        · exact h.begin.answerSt

theorem Evolves.snapOne {w} (h : Evolves s t) : Evolves s (t.snapOne w) := by
  dsimp only [State.snapOne]
  split
  · exact h.upd.freeUsed.answer
  · exact h

theorem Evolves.snapTick (h : Evolves s t) : Evolves s t.snapTick := h.upd.forEach fun _ k => k.snapOne

theorem Evolves.execSnapshotExpiry (h : Evolves s t) : Continues s (execSnapshotExpiry t) := h.upd.next

theorem Evolves.execTmSnapGo (h : Evolves s t) : Continues s (execTmSnapGo t) := (h.ite h.fsetb.upd).next

theorem Evolves.shadowCopy (h : Evolves s t) : Evolves s t.shadowCopy := by
  dsimp only [State.shadowCopy]
  split
  · exact h
  · split
    · exact h
    · exact (h.resetRegs.forEach fun _ k => k.setReg).fset.fsetb.upd

theorem Evolves.execTmShadowCopy (h : Evolves s t) : Continues s (execTmShadowCopy t) := h.shadowCopy.next

/-! ## LinkTest -/

theorem Evolves.addJob {j} (h : Evolves s t) : Evolves s (t.addJob j) := h.upd

theorem Evolves.execLinkTest {r} (h : Evolves s t) : Continues s (execLinkTest r t) := by
  dsimp only [Machine.execLinkTest]
  refine Evolves.next ?_
  split
  · exact h.begin.answer
  · split
    · exact h.begin.answerSt
    · exact h.begin.freeUsed.addJob.pend

theorem Evolves.setJob {j} (h : Evolves s t) : Evolves s (t.setJob j) := h.upd

theorem Evolves.jobDone {j result} (h : Evolves s t) : Evolves s (t.jobDone j result) :=
  h.upd.complete.ite h.upd.fsetb.fsetb.fset

theorem Evolves.downForTest {p} (h : Evolves s t) : Evolves s (t.downForTest p) := h.portDown

theorem Evolves.execLinkTestStart {owner tag} (h : Evolves s t) : Continues s (execLinkTestStart owner tag t) := by
  dsimp only [Machine.execLinkTestStart]
  refine Evolves.next ?_
  split
  · exact h
  · split
    · exact h
    · exact h.setJob.forEach fun _ k => (k.when fun k2 => k2.downForTest).when fun k2 => k2.emit

theorem Evolves.execCheckerLock {port wl locked errors bits} (h : Evolves s t) :
    Continues s (execCheckerLock port wl locked errors bits t) :=
  h.upd.next

theorem Evolves.execLinkTestEnd {owner tag bits} (h : Evolves s t) : Continues s (execLinkTestEnd owner tag bits t) := by
  dsimp only [Machine.execLinkTestEnd]
  refine Evolves.next ?_
  split
  · exact h
  · split
    · exact h
    · exact h.upd.jobDone

theorem Evolves.execBeaconReceive {port b} (h : Evolves s t) : Continues s (execBeaconReceive port b t) :=
  (h.ite h.portDown.setPort.emit).next

theorem Evolves.execBeaconTimeout {port} (h : Evolves s t) : Continues s (execBeaconTimeout port t) := (h.ite h.setPort).next

theorem Evolves.execWiringVerify {r} (h : Evolves s t) : Continues s (execWiringVerify r t) := by
  dsimp only [Machine.execWiringVerify]
  refine Evolves.next ?_
  split
  · exact h.begin.answerSt
  · split
    · exact h.begin.answer
    · exact h.begin.addJob.pend

theorem Evolves.execWiringVerifyStart {owner tag} (h : Evolves s t) : Continues s (execWiringVerifyStart owner tag t) := by
  dsimp only [Machine.execWiringVerifyStart]
  refine Evolves.next ?_
  split
  · exact h
  · split
    · exact h
    · exact h.setJob.forEach fun _ k => k.downForTest.setPort.emit

theorem Evolves.execWiringVerifyEnd {owner tag} (h : Evolves s t) : Continues s (execWiringVerifyEnd owner tag t) := by
  dsimp only [Machine.execWiringVerifyEnd]
  refine Evolves.next ?_
  split
  · exact h
  · split
    · exact h
    · exact h.upd.jobDone

theorem Evolves.execConnectorInspect {r} (h : Evolves s t) : Continues s (execConnectorInspect r t) := by
  dsimp only [Machine.execConnectorInspect]
  refine Evolves.next ?_
  split
  · exact h.begin.answer
  · split
    · exact h.begin.answerSt
    · exact h.begin.addJob.pend

theorem Evolves.execConnectorInspectStart {owner tag rl il} (h : Evolves s t) :
    Continues s (execConnectorInspectStart owner tag rl il t) := by
  dsimp only [Machine.execConnectorInspectStart]
  refine Evolves.next ?_
  split
  · exact h
  · split
    · exact h
    · exact h.setJob.forEach fun _ k => k.downForTest.emit

theorem Evolves.inspectDone {owner tag} (h : Evolves s t) (e : t.inspectDone owner tag = some u) : Evolves s u := by
  unfold State.inspectDone at e
  split at e
  · cases e
  · split at e
    · cases e
    · cases e
      exact h.jobDone

theorem Evolves.chTestGo {kind} (h : Evolves s t) : Evolves s (t.chTestGo kind) := by
  dsimp only [State.chTestGo]
  split
  · exact h
  · split
    · exact h.fset.fsetb.fset
    · exact h.fset.fsetb.freeUsed.addJob.fsetb

theorem Evolves.execChTestGo {kind} (h : Evolves s t) : Continues s (execChTestGo kind t) := h.chTestGo.next

/-! ## Pattern -/

theorem Evolves.patternIngress {x c fclk} (h : Evolves s t) : Evolves s (t.patternIngress x c fclk) := by
  dsimp only [State.patternIngress]
  split
  · exact h.finc
  · split
    · exact h.finc
    · split
      · exact h.goneCell
      · exact h.checkPos

theorem Evolves.execPatternPlace {gen fclk free} (h : Evolves s t) : Continues s (execPatternPlace gen fclk free t) := by
  dsimp only [Machine.execPatternPlace]
  refine Evolves.next ?_
  split
  · exact h
  · split
    · exact h.upd.finc
    · exact h.upd.fset.upd.patternIngress

theorem Evolves.checkSeq {j seq} (h : Evolves s t) : Evolves s (t.checkSeq j seq) :=
  (h.upd.when fun k => k.finc).when fun k => k.finc

theorem Evolves.checkTake {j c fclk} (h : Evolves s t) : Evolves s (t.checkTake j c fclk) :=
  (h.fset.checkSeq.when fun k => k.finc).fmax.finc

theorem Evolves.execPatternCheck {cell fclk} (h : Evolves s t) : Continues s (execPatternCheck cell fclk t) := by
  dsimp only [Machine.execPatternCheck]
  refine Evolves.next ?_
  split
  · exact h
  · exact h.forEach fun _ k => k.checkTake

theorem Evolves.pchkWrite {j v} (h : Evolves s t) : Evolves s (t.pchkWrite j v) :=
  h.fset.fset.fset.ite h.fset.fset.fset.resetRegs.upd

theorem Evolves.execPchkEnable {chk v} (h : Evolves s t) : Continues s (execPchkEnable chk v t) := (h.pchkWrite.ite h).next

theorem Evolves.patternTick (h : Evolves s t) : Evolves s t.patternTick := h.upd

/-! ## Chiplet -/

theorem Evolves.badMessage {rq tag} (h : Evolves s t) : Evolves s (t.badMessage rq tag) := h.emit

theorem Evolves.execRequest {r rsv} (h : Evolves s t) : Continues s (execRequest r rsv t) := by
  dsimp only [Machine.execRequest]
  refine Evolves.next ?_
  split
  · exact h
  · split
    · exact h.badMessage
    · exact h.issue.selfPump.evalWaits

theorem Evolves.execSyncFence {rq tag ctx scope keep rsv} (h : Evolves s t) :
    Continues s (execSyncFence rq tag ctx scope keep rsv t) := by
  dsimp only [Machine.execSyncFence]
  refine Evolves.next ?_
  split
  · exact h
  · split
    · exact h.badMessage
    · exact h.fenceIssue

theorem Evolves.execSyncWait {rq tag ctx scope keep ms target deadline rsv} (h : Evolves s t) :
    Continues s (execSyncWait rq tag ctx scope keep ms target deadline rsv t) := by
  dsimp only [Machine.execSyncWait]
  refine Evolves.next ?_
  split
  · exact h
  · split
    · exact h.badMessage
    · split
      · exact h.emit
      · split
        · exact h.emit
        · split
          · exact h.reachCache.emit
          · exact h.setEp

theorem Evolves.execSyncAdd {rq tag ctx scope ms count rsv} (h : Evolves s t) :
    Continues s (execSyncAdd rq tag ctx scope ms count rsv t) := by
  dsimp only [Machine.execSyncAdd]
  refine Evolves.next ?_
  split
  · exact h
  · split
    · exact h.badMessage
    · split
      · exact h.emit
      · exact h.fenceIssue.evalWaits

theorem Evolves.execCollMember {rq tag ctx ms g block rsv} (h : Evolves s t) :
    Continues s (execCollMember rq tag ctx ms g block rsv t) := by
  dsimp only [Machine.execCollMember]
  refine Evolves.next ?_
  split
  · exact h
  · split
    · exact h.badMessage
    · split
      · exact h
      · exact h.collMember.collPump

theorem Evolves.execCollRootArm {rq tag ctx ms _g block rsv} (h : Evolves s t) :
    Continues s (execCollRootArm rq tag ctx ms _g block rsv t) := by
  dsimp only [Machine.execCollRootArm]
  refine Evolves.next ?_
  split
  · exact h
  · split
    · exact h.badMessage
    · split
      · exact h.emit
      · exact h.setEp.collPump

theorem Evolves.execCollAbort {rq tag ctx ms _g block rsv} (h : Evolves s t) :
    Continues s (execCollAbort rq tag ctx ms _g block rsv t) := by
  dsimp only [Machine.execCollAbort]
  refine Evolves.next ?_
  split
  · exact h
  · split
    · exact h.badMessage
    · exact h.collAbort

theorem Evolves.homePump (h : Evolves s t) : Evolves s t.homePump := h.selfPump.collPump

theorem Evolves.execHomeData {line data uncorr} (h : Evolves s t) : Continues s (execHomeData line data uncorr t) :=
  h.homeData.homePump.next

theorem Evolves.execHomeTimeout {line} (h : Evolves s t) : Continues s (execHomeTimeout line t) := h.homeTimeout.homePump.next

theorem Evolves.execLineStoreAdmit {line} (h : Evolves s t) : Continues s (execLineStoreAdmit line t) :=
  h.lineAdmit.homePump.next

theorem Evolves.chipRegs (h : Evolves s t) : Evolves s t.chipRegs := h.regsFilter.forEach fun _ k => k.fset.fset

theorem Evolves.chipReset (h : Evolves s t) : Evolves s t.chipReset := (h.forEach fun _ k => k.emit).upd.setEp.chipRegs

theorem Evolves.execChipletReset (h : Evolves s t) : Continues s (execChipletReset t) := h.chipReset.next

theorem Evolves.execChipletThermalTrip {junction optical} (h : Evolves s t) :
    Continues s (execChipletThermalTrip junction optical t) := by
  dsimp only [Machine.execChipletThermalTrip]
  refine Evolves.next ?_
  split
  · exact h.chipReset.upd
  · split
    · exact h
    · exact h.fset.fset

theorem Evolves.execChipletThermalRelease {junction optical} (h : Evolves s t) :
    Continues s (execChipletThermalRelease junction optical t) :=
  (h.upd.ite h).next

theorem Evolves.execUcieModuleTrain {m ok} (h : Evolves s t) : Continues s (execUcieModuleTrain m ok t) := by
  dsimp only [Machine.execUcieModuleTrain]
  refine Evolves.next ?_
  split
  · exact h
  · split
    · exact h.fset
    · exact h.fset.upd

theorem Evolves.execPortsEn {v} (h : Evolves s t) : Continues s (execPortsEn v t) := (h.ite h.fsetb).next

theorem Evolves.execSbLock {v} (h : Evolves s t) : Continues s (execSbLock v t) := (h.fsetb.ite h).next

/-! ## HostIf -/

theorem Evolves.execHostPortLinkChange {port up module kind} (h : Evolves s t) :
    Continues s (execHostPortLinkChange port up module kind t) :=
  (h.ite h.fsetb.fsetb.fset).next

theorem Evolves.execEthernetFrame {f} (h : Evolves s t) : Continues s (execEthernetFrame f t) := by
  dsimp only [Machine.execEthernetFrame]
  refine Evolves.next ?_
  split
  · exact h
  · split
    · exact h.fset.upd
    · split
      · exact h.emit
      · exact h

theorem Evolves.execLldpSend (h : Evolves s t) : Continues s (execLldpSend t) := by
  dsimp only [Machine.execLldpSend]
  refine Evolves.next ?_
  split
  · exact h
  · exact h.upd.forEach fun _ k => k.emit

theorem Evolves.steerTime {t'} (h : Evolves s t) : Evolves s (t.steerTime t') := h.upd.ite h.upd

theorem Evolves.execPtpMessage {m} (h : Evolves s t) : Continues s (execPtpMessage m t) := by
  dsimp only [Machine.execPtpMessage]
  refine Evolves.next ?_
  split
  · exact h
  · split
    · exact h.upd.fset.steerTime
    · exact h.upd.fset

theorem Evolves.timeSet {v} (h : Evolves s t) : Evolves s (t.timeSet v) := by
  dsimp only [State.timeSet]
  split
  · exact h
  · split
    · exact h.finc
    · exact h.steerTime

theorem Evolves.execTimeSet {v} (h : Evolves s t) : Continues s (execTimeSet v t) := h.timeSet.next

theorem Evolves.timeEdge (h : Evolves s t) : Evolves s t.timeEdge := h.fset.ite h.upd.fset

theorem Evolves.timeTick (h : Evolves s t) : Evolves s t.timeTick := by
  dsimp only [State.timeTick]
  split
  · exact h.upd.fset.fsetb.closePages
  · split
    · exact h
    · exact h.upd.when fun k => k.timeEdge

theorem Evolves.allowWrite {entry word v} (h : Evolves s t) : Evolves s (t.allowWrite entry word v) :=
  h.ite h.upd.setReg.tableDirty

theorem Evolves.execAllowListWrite {entry word v} (h : Evolves s t) : Continues s (execAllowListWrite entry word v t) :=
  (h.allowWrite.ite h).next

theorem Evolves.updMem {m f} (h : Evolves s t) : Evolves s (t.updMem m f) := h.upd

theorem Evolves.issueMem {m} (h : Evolves s t) : Evolves s (t.issueMem m) := by
  dsimp only [State.issueMem]
  split
  · exact h.updMem
  · exact h.updMem.setEp.enterCells

theorem Evolves.memPump {n} (h : Evolves s t) : Evolves s (t.memPump n) := by
  induction n generalizing t with
  | zero => exact h
  | succ n ih =>
    unfold State.memPump
    split
    · exact ih h.issueMem
    · exact h

theorem Evolves.memGo (h : Evolves s t) : Evolves s t.memGo := h.memPump

theorem Evolves.memDone {owner tag} (h : Evolves s t) (e : t.memDone owner tag = some u) : Evolves s u := by
  obtain ⟨_, -, rfl⟩ := Option.map_eq_some_iff.1 e
  exact h.upd.complete.ite h.upd.complete

theorem Evolves.memStart {r write} (h : Evolves s t) : Evolves s (t.memStart r write) := by
  unfold State.memStart
  extract_lets
  refine .ite h.answerSt ?_
  split
  · exact h.answerSt
  · exact .ite h.answerSt h.upd.pend.memGo

theorem Evolves.execMemRead {r} (h : Evolves s t) : Continues s (execMemRead r t) := h.begin.memStart.next

theorem Evolves.execMemWrite {r} (h : Evolves s t) : Continues s (execMemWrite r t) := h.begin.memStart.next

theorem Evolves.qpError {q psn nak} (h : Evolves s t) : Evolves s (t.qpError q psn nak) := h.upd.fset.finc.emit

theorem Evolves.psnOn {q n} (h : Evolves s t) : Evolves s (t.psnOn q n) := h.fset

theorem Evolves.rdmaGo {p write va size last} (h : Evolves s t) : Evolves s (t.rdmaGo p write va size last) := h.upd.memGo

theorem Evolves.ackAgain {q} (h : Evolves s t) : Evolves s (t.ackAgain q) := h.ite h.emit

theorem Evolves.execRdmaWrite {p} (h : Evolves s t) : Continues s (Machine.execRdmaWrite p t) := by
  unfold Machine.execRdmaWrite
  exact (Evolves.ite h (.ite h.ackAgain (.ite h.emit (.ite h.qpError (.ite h.qpError (.ite h.qpError
    h.upd.psnOn.rdmaGo)))))).next

theorem Evolves.execRdmaRead {p} (h : Evolves s t) : Continues s (execRdmaRead p t) := by
  dsimp only [Machine.execRdmaRead]
  refine Evolves.next ?_
  split
  · exact h
  · split
    · exact h.emit
    · split
      · exact h.qpError
      · split
        · exact h.qpError
        · split
          · exact h
          · exact (h.when fun k => k.psnOn).rdmaGo

theorem Evolves.execRdmaUnsupported {p} (h : Evolves s t) : Continues s (execRdmaUnsupported p t) := (h.qpError.ite h).next

theorem Evolves.readResponse {q psn n b} (h : Evolves s t) : Evolves s (t.readResponse q psn n b) := by
  induction n generalizing t psn b with
  | zero => exact h
  | succ n ih => exact h.emit.fset.ite (ih h.emit)

theorem Evolves.rdmaAnswer {m} (h : Evolves s t) : Evolves s (t.rdmaAnswer m) := by
  dsimp only [State.rdmaAnswer]
  split
  · exact h.upd
  · split
    · exact h.upd.qpError
    · split
      · exact h.upd.readResponse
      · split
        · exact h.upd.emit.fset
        · exact h.upd

theorem Evolves.rdmaPump {n} (h : Evolves s t) : Evolves s (t.rdmaPump n) := by
  induction n generalizing t with
  | zero => exact h
  | succ n ih =>
    dsimp only [State.rdmaPump]
    split
    · exact ih h.rdmaAnswer
    · exact h

theorem Evolves.hostTick (h : Evolves s t) : Evolves s t.hostTick := h.rdmaPump.memGo

theorem Evolves.qpWrite {q v} (h : Evolves s t) : Evolves s (t.qpWrite q v) := h.setReg.ite h.setReg.upd.fset

theorem Evolves.execQpStateWrite {qp v} (h : Evolves s t) : Continues s (execQpStateWrite qp v t) := (h.qpWrite.ite h).next

/-! ## RegAccess -/

theorem Evolves.run {f : State → Res} (h : Evolves s t) (hf : ∀ {u}, Evolves s u → Continues s (f u)) : Evolves s (t.run f) := by
  obtain ⟨u, e, k⟩ := hf h
  rwa [State.run, e]

theorem Evolves.bankRead {c} (h : Evolves s t) : Evolves s (t.bankRead c) := h.setCore

theorem Evolves.regRead {a} (h : Evolves s t) : Evolves s (t.regRead a).1 := by
  dsimp only [State.regRead]
  split
  · exact h
  · exact ((h.when fun k => k.bankRead).when fun k => k.setReg).when fun k => k.freeUsed

theorem Evolves.plainWrite {a v} (h : Evolves s t) : Evolves s (t.plainWrite a v) := h.setReg

theorem Evolves.portCtl {p v} (h : Evolves s t) : Evolves s (t.portCtl p v) :=
  ((((h.run fun k => k.execFwOverride).run fun k => k.execEnable).run fun k => k.execForceDown).run fun k =>
    k.execForceMaint).when fun k => k.run fun k2 => k2.execRetrain

theorem Evolves.mirrorCtl {h' i v} (h : Evolves s t) : Evolves s (t.mirrorCtl h' i v) :=
  (h.fset.fsetb.ite (h.fset.when fun k => k.run fun k2 => k2.execMirrorValidSet)).when fun k => k.run fun k2 =>
    k2.execMirrorResync

theorem Evolves.hubRegWrite {a v} (h : Evolves s t) : Evolves s (t.hubRegWrite a v) := by
  dsimp only [State.hubRegWrite]
  split
  · exact h.plainWrite.when fun k => k.run fun k2 => k2.execRetireGo
  · split
    · exact h.run fun k => k.execMirrorSync
    · split
      · exact h.mirrorCtl
      · split
        · exact h.plainWrite.winWritten
        · exact h.plainWrite

theorem Evolves.epRegWrite {e o a v} (h : Evolves s t) : Evolves s (t.epRegWrite e o a v) := by
  dsimp only [State.epRegWrite]
  split
  · exact h.plainWrite.setVolatile.when fun k => k.demoteClr
  · split
    · exact h.writeCount
    · exact h.plainWrite

theorem Evolves.hostRegWrite {a v} (h : Evolves s t) : Evolves s (t.hostRegWrite a v) := by
  dsimp only [State.hostRegWrite]
  split
  · exact h.plainWrite.forEach fun _ k => k.fsetb
  · split
    · exact h.timeSet
    · split
      · exact h.allowWrite
      · split
        · exact h.qpWrite
        · exact h.plainWrite

theorem Evolves.bootRegWrite {v} (h : Evolves s t) : Evolves s (t.bootRegWrite v) :=
  (h.when fun k => k.run fun k2 => k2.execBootFailClear).run fun k => k.execBootHold

theorem Evolves.chipCtl {v fabric} (h : Evolves s t) : Evolves s (t.chipCtl v fabric) :=
  ((h.ite h.fset).fsetb.when fun k => k.fsetb).when fun k => k.chipReset

theorem Evolves.testPut {o v} (h : Evolves s t) : Evolves s (t.testPut o v) := h.upd

theorem Evolves.chipRegWrite {a v fabric} (h : Evolves s t) : Evolves s (t.chipRegWrite a v fabric) := by
  dsimp only [State.chipRegWrite]
  split
  · exact h
  · split
    · exact h.epRegWrite
    · split
      · exact h.chipCtl
      · split
        · exact h.portCtl
        · split
          · exact h.testPut
          · exact h.plainWrite

theorem Evolves.regWrite {a v fabric} (h : Evolves s t) : Evolves s (t.regWrite a v fabric) := by
  dsimp only [State.regWrite]
  split
  · exact h
  · split
    · split
      · exact (h.plainWrite.when fun k => k.run fun k2 => k2.execMaint).when fun k => k.run fun k2 => k2.execResume
      · exact h.plainWrite
    · split
      · exact h.portCtl
      · exact h.plainWrite
    · split
      · exact h.plainWrite.setCombine
      · exact h.plainWrite
    · split
      · exact h.seedRd
      · exact h.plainWrite
    · exact h.hubRegWrite
    · split
      · exact h.epRegWrite
      · exact h
    · exact h.hostRegWrite
    · split
      · exact h.bootRegWrite
      · exact h.plainWrite
    · split
      · exact h.plainWrite.when fun k => k.run fun k2 => k2.execAttGo
      · exact h.plainWrite
    · split
      · exact h.when fun k => k.run fun k2 => k2.execTmSnapGo
      · split
        · exact h.pchkWrite
        · exact h.plainWrite
    · exact h.chipRegWrite
    · exact h.plainWrite

theorem Evolves.execBmTransaction {write addr v} (h : Evolves s t) : Continues s (execBmTransaction write addr v t) := by
  dsimp only [Machine.execBmTransaction]
  refine Evolves.next ?_
  split
  · exact h
  · split
    · split
      · exact h.regWrite
      · exact h
    · split
      · exact h.regRead.emit
      · exact h.emit

theorem Evolves.execRegisterWrite {via addr v} (h : Evolves s t) : Continues s (execRegisterWrite via addr v t) :=
  (h.regWrite.ite h).next

theorem Evolves.readList {out i l} (h : Evolves s t) : Evolves s (t.readList out i l).1 := by
  induction l generalizing t out i with
  | nil => exact h
  | cons a l ih =>
    dsimp only [State.readList]
    split
    · exact h
    · exact ih h.regRead

theorem Evolves.execRegRead {r} (h : Evolves s t) : Continues s (execRegRead r t) := by
  dsimp only [Machine.execRegRead]
  refine Evolves.next ?_
  split
  · exact h.begin.answerSt
  · split <;> exact (h.begin.readList.ofEq ‹_›).answer

theorem Evolves.writeList {i l} (h : Evolves s t) : Evolves s (t.writeList i l).1 := by
  induction l generalizing t i with
  | nil => exact h
  | cons a l ih =>
    unfold State.writeList
    split
    · exact h
    · exact ih h.regWrite

theorem Evolves.execRegWrite {r} (h : Evolves s t) : Continues s (execRegWrite r t) := by
  dsimp only [Machine.execRegWrite]
  refine Evolves.next ?_
  split
  · exact h.begin.answerSt
  · split <;> exact (h.begin.writeList.ofEq ‹_›).answer

/-! ## Commands -/

theorem Evolves.resultRead {r tag} (h : Evolves s t) : Evolves s (t.resultRead r tag) := by
  dsimp only [State.resultRead]
  split
  · exact h.reply
  · split
    · exact h.reply
    · exact h.updTag.sendReply

theorem Evolves.execResultRead {r} (h : Evolves s t) : Continues s (execResultRead r t) := h.resultRead.next

theorem Evolves.retireTags {owner l} (h : Evolves s t) : Evolves s (t.retireTags owner l).1 := by
  induction l generalizing t with
  | nil => exact h
  | cons a l ih =>
    dsimp only [State.retireTags]
    split
    · exact ih h
    · split
      · exact ih h
      · exact ih h.upd

theorem Evolves.tagRetire {r} (h : Evolves s t) : Evolves s (t.tagRetire r) := by
  dsimp only [State.tagRetire]
  split
  · exact h.reply
  · exact h.retireTags.reply

theorem Evolves.execTagRetire {r} (h : Evolves s t) : Continues s (execTagRetire r t) := h.tagRetire.next

theorem Evolves.execIdentify {r} (h : Evolves s t) : Continues s (execIdentify r t) := by
  dsimp only [Machine.execIdentify]
  refine Evolves.next ?_
  split <;> exact h.reply

theorem Evolves.execCommandComplete {owner tag} (h : Evolves s t) : Continues s (Machine.execCommandComplete owner tag t) :=
  (h.getD fun e => orElse e h.attestDone fun e => orElse e h.inspectDone h.memDone).next

theorem Evolves.startOp {r} (h : Evolves s t) : Continues s (Machine.startOp r t) := by
  obtain ⟨f, hf⟩ : ∃ f, f = Machine.startOp r := ⟨_, rfl⟩
  rw [← hf]
  unfold Machine.startOp at hf
  split at hf <;> subst hf
  · exact h.execIdentify
  · exact h.execRegRead
  · exact h.execRegWrite
  · exact h.execPlanLoad
  · exact h.execPlanAccept
  · exact h.execSignpostLoad
  · exact h.execTimetableLoad
  · exact h.execTimetableSwap
  · exact h.execGroupLoad
  · exact h.execInstanceArm
  · exact h.execContextCreate
  · exact h.execContextScrub
  · exact h.execKernelLoad
  · exact h.execKernelStart
  · exact h.execKernelStop
  · exact h.execMemRead
  · exact h.execMemWrite
  · exact h.execLinkTest
  · exact h.execWiringVerify
  · exact h.execConnectorInspect
  · exact h.execAlmanacWindow
  · exact h.execVigilConfirm
  · exact h.execAttest
  · exact h.execFwStage
  · exact h.execFwActivate
  · exact h.execResetPartial
  · exact h.execPowerPolicy
  · exact h.execResultRead
  · exact h.execTagRetire

theorem Evolves.acceptCmd {owner} (h : Evolves s t) : Evolves s (t.acceptCmd owner) := h.almAdd.almMax.upd.ite h.almAdd

theorem Evolves.measured {r} (h : Evolves s t) : Evolves s (t.measured r) := h.measure.ite h

theorem Evolves.startCmd {r argOk} (h : Evolves s t) : Evolves s (t.startCmd r argOk) := by
  dsimp only [State.startCmd]
  split
  · split
    · exact h.reply
    · split
      · exact h.reply
      · exact h.acceptCmd.run fun k => k.startOp
  · split
    · exact h.measured.reply
    · split
      · exact h.measured.begin.answerSt
      · split
        · exact h.measured.begin.answerSt
        · exact h.acceptCmd.run fun k => k.startOp

theorem Evolves.dropPartial {owner tag seqn} (h : Evolves s t) : Evolves s (t.dropPartial owner tag seqn) := h.upd

theorem Evolves.addFrag {owner h' b route} (h : Evolves s t) : Evolves s (t.addFrag owner h' b route) := by
  dsimp only [State.addFrag]
  split
  · exact h.reply
  · split
    · exact h.dropPartial.reply
    · split
      · exact h
      · split
        · exact h.dropPartial.upd
        · exact h.dropPartial.startCmd

theorem Evolves.takePacket {owner h' b route} (h : Evolves s t) : Evolves s (t.takePacket owner h' b route) := by
  dsimp only [State.takePacket]
  split
  · exact h.reply
  · split
    · split
      · exact h.resultRead
      · exact h.reply
    · split
      · exact h.dropPartial.reply
      · split
        · exact h.startCmd
        · exact h.addFrag

theorem Evolves.discardPacket {f} (h : Evolves s t) : Evolves s (t.discardPacket f) := h.finc.almAdd

theorem Evolves.packet {b route} (h : Evolves s t) : Evolves s (t.packet b route) := by
  dsimp only [State.packet]
  split
  · exact h.discardPacket
  · split
    · exact h.discardPacket
    · split
      · exact h
      · split
        · exact h.reply
        · exact h.takePacket

theorem Evolves.execCommandPacket {port addr udp bytes} (h : Evolves s t) :
    Continues s (execCommandPacket port addr udp bytes t) :=
  (h.packet.ite h).next

theorem Evolves.execPartialCommandExpiry (h : Evolves s t) : Continues s (execPartialCommandExpiry t) := h.upd.next

theorem Evolves.inbandStart {src ctxs b} (h : Evolves s t) : Evolves s (t.inbandStart src ctxs b) := by
  dsimp only [State.inbandStart]
  split
  · exact h.reply
  · split
    · exact h.reply
    · split
      · split
        · exact h.resultRead
        · exact h.reply
      · exact h.startCmd

theorem Evolves.dropInband {src tag} (h : Evolves s t) : Evolves s (t.dropInband src tag) := h.upd

theorem Evolves.inbandPiece {c} (h : Evolves s t) : Evolves s (t.inbandPiece c) := by
  dsimp only [State.inbandPiece]
  split
  · exact h
  · split
    · exact h
    · split
      · exact h.dropInband.upd
      · exact h.dropInband.inbandStart

theorem Evolves.execInbandPieceExpiry (h : Evolves s t) : Continues s (execInbandPieceExpiry t) := h.upd.next

theorem Evolves.execInbandMessage {plane ctx stream} (h : Evolves s t) : Continues s (execInbandMessage plane ctx stream t) :=
  (h.ite h.setEp.enterCells).next

/-! ## Target -/

theorem Evolves.answerFrom {e plane c} (h : Evolves s t) : Evolves s (t.answerFrom e plane c) := by
  dsimp only [State.answerFrom]
  split
  · exact h.hubSend
  · split
    · exact h.ownSend
    · exact h.homeAnswer

theorem Evolves.regCell {e c} (h : Evolves s t) : Evolves s (t.regCell e c).1 := by
  dsimp only [State.regCell]
  split
  · exact h
  · split
    · exact h.regRead
    · exact h.regWrite

theorem Evolves.commandCell {c} (h : Evolves s t) : Evolves s (t.commandCell c) := h.answerFrom.ite h.answerFrom.inbandPiece

theorem Evolves.targetNew {e plane c f} (h : Evolves s t) : Evolves s (t.targetNew e plane c f) := by
  dsimp only [State.targetNew]
  split
  · exact h.invalidate.answerFrom
  · split
    · exact h.commandCell
    · split
      · exact h.hubCell
      · split
        · exact h.homeCell
        · exact h.regCell.answerFrom

theorem Evolves.targetDup {e plane c f} (h : Evolves s t) : Evolves s (t.targetDup e plane c f) := by
  dsimp only [State.targetDup]
  split
  · exact h
  · split
    · exact h.targetNew
    · split <;> exact h.answerFrom

theorem Evolves.targetCell {e plane c f} (h : Evolves s t) : Evolves s (t.targetCell e plane c f) := by
  dsimp only [State.targetCell]
  split
  · split
    · exact ((h.when fun k => k.setEp).when fun k => k.finc).answerFrom
    · exact h.setEp.targetNew
  · exact h.setEp.finc.targetDup

theorem Evolves.echoSend {e plane c} (h : Evolves s t) (k : t.echoSend e plane c = some u) : Evolves s u := by
  unfold State.echoSend at k
  split at k
  · split at k
    · cases k
    · cases k
      exact h.useResv.epSend
  · cases k
    exact h.epSend

theorem Evolves.echoCell {e plane c} (h : Evolves s t) : Evolves s (t.echoCell e plane c) := by
  dsimp only [State.echoCell]
  split
  · exact h
  · split
    · exact (h.echoSend ‹_›)
    · exact h.setEp

theorem Evolves.echoTick {e} (h : Evolves s t) : Evolves s (t.echoTick e) :=
  h.setEp.forEach fun _ k => (by split; exacts [(k.echoSend ‹_›), k.setEp])

theorem Evolves.replyCell {c} (h : Evolves s t) : Evolves s (t.replyCell c) := by
  dsimp only [State.replyCell]
  split
  · exact h
  · split
    · exact h.upd
    · exact h.upd.emit

theorem Evolves.targetReceive {e plane c f} (h : Evolves s t) : Evolves s (t.targetReceive e plane c f) := by
  dsimp only [State.targetReceive]
  split
  · exact h
  · split
    · exact h.targetCell
    · split
      · exact h.echoCell
      · split
        · exact h.replyCell
        · exact h

theorem Evolves.execTargetReceive {ep plane cell fault} (h : Evolves s t) :
    Continues s (execTargetReceive ep plane cell fault t) :=
  (h.ite h.targetReceive).next

theorem Evolves.execInbandCommandPiece {cell} (h : Evolves s t) : Continues s (execInbandCommandPiece cell t) :=
  (h.targetCell.ite h).next

/-! ## Frame -/

theorem Evolves.planTick (h : Evolves s t) : Evolves s t.planTick :=
  h.lossTick.activateRevised.stateTick.dupClear.resetTick.portsTick.when fun k => k.epochRise

theorem Evolves.cellTick (h : Evolves s t) : Evolves s t.cellTick := h.grantCredits.ageAll.mgmtTick.retireTick.tgTick.hubsTick

theorem Evolves.epTick {e} (h : Evolves s t) : Evolves s (t.epTick e) := h.setEp.resendDue.echoTick.lackTick.collPump

theorem Evolves.coresTick (h : Evolves s t) : Evolves s t.coresTick := h.forEach fun _ k => k.coreTick

theorem Evolves.watchTick (h : Evolves s t) : Evolves s t.watchTick := h.timeTick.patternTick.captureTick.snapTick.almMax

theorem Evolves.frameTick {p} (h : Evolves s t) : Evolves s (t.frameTick p) := by
  unfold State.frameTick
  exact (h.tbTick.planTick.sendMarkers.cellTick.vigilTick.powerTick.hostTick.forEach fun _ k => k.epTick).coresTick.watchTick

theorem Evolves.execFrameTick {p} (h : Evolves s t) : Continues s (execFrameTick p t) := by
  dsimp only [Machine.execFrameTick]
  refine Evolves.next ?_
  split
  · exact h.when fun k => k.timeTick
  · exact h.frameTick

/-! ## Every command -/

/-- Every command but BOOT_ENTRY, the one that latches straps, answers a state that evolves from s. -/
theorem Evolves.exec (i : Instr) (s : State) : Continues s (Machine.exec i s) ∨ ∃ st chk, i = .bootEntry st chk := by
  cases i with
  | frameTick => exact .inl (Evolves.refl s).execFrameTick
  | frameMarker => exact .inl (Evolves.refl s).execFrameMarker
  | realignDone => exact .inl (Evolves.refl s).execRealignDone
  | lockAchieved => exact .inl (Evolves.refl s).execLockAchieved
  | lockLost => exact .inl (Evolves.refl s).execLockLost
  | holdoverEntry => exact .inl (Evolves.refl s).execHoldoverEntry
  | holdoverExpiry => exact .inl (Evolves.refl s).execHoldoverExpiry
  | masterDeclare => exact .inl (Evolves.refl s).execMasterDeclare
  | masterTakeover => exact .inl (Evolves.refl s).execMasterTakeover
  | masterHandover => exact .inl (Evolves.refl s).execMasterHandover
  | slipBarEnd => exact .inl (Evolves.refl s).execSlipBarEnd
  | timetableLoad => exact .inl (Evolves.refl s).execTimetableLoad
  | timetableSwap => exact .inl (Evolves.refl s).execTimetableSwap
  | swapCheckDone => exact .inl (Evolves.refl s).execSwapCheckDone
  | bankSwap => exact .inl (Evolves.refl s).execBankSwap
  | bankCopyDone => exact .inl (Evolves.refl s).execBankCopyDone
  | cellReceive => exact .inl (Evolves.refl s).execCellReceive
  | cellIngress => exact .inl (Evolves.refl s).execCellIngress
  | firstStageSend => exact .inl (Evolves.refl s).execFirstStageSend
  | secondStageSend => exact .inl (Evolves.refl s).execSecondStageSend
  | outputSend => exact .inl (Evolves.refl s).execOutputSend
  | entryHandover => exact .inl (Evolves.refl s).execEntryHandover
  | hubPerformed => exact .inl (Evolves.refl s).execHubPerformed
  | combineEn => exact .inl (Evolves.refl s).execCombineEn
  | ageDiscard => exact .inl (Evolves.refl s).execAgeDiscard
  | ringLockTimeout => exact .inl (Evolves.refl s).execRingLockTimeout
  | lightLoss => exact .inl (Evolves.refl s).execLightLoss
  | trainingRetry => exact .inl (Evolves.refl s).execTrainingRetry
  | codedStreamLoss => exact .inl (Evolves.refl s).execCodedStreamLoss
  | trainingStart => exact .inl (Evolves.refl s).execTrainingStart
  | trainingStepTimeout => exact .inl (Evolves.refl s).execTrainingStepTimeout
  | enable => exact .inl (Evolves.refl s).execEnable
  | fwOverride => exact .inl (Evolves.refl s).execFwOverride
  | retrain => exact .inl (Evolves.refl s).execRetrain
  | forceDown => exact .inl (Evolves.refl s).execForceDown
  | forceMaint => exact .inl (Evolves.refl s).execForceMaint
  | berIntervalEnd => exact .inl (Evolves.refl s).execBerIntervalEnd
  | rxReport => exact .inl (Evolves.refl s).execRxReport
  | retire => exact .inl (Evolves.refl s).execRetire
  | retireAck => exact .inl (Evolves.refl s).execRetireAck
  | wavelengthLost => exact .inl (Evolves.refl s).execWavelengthLost
  | widthChange => exact .inl (Evolves.refl s).execWidthChange
  | signpostLoad => exact .inl (Evolves.refl s).execSignpostLoad
  | planLoad => exact .inl (Evolves.refl s).execPlanLoad
  | planAccept => exact .inl (Evolves.refl s).execPlanAccept
  | portSettleTimeout => exact .inl (Evolves.refl s).execPortSettleTimeout
  | planStateChange => exact .inl (Evolves.refl s).execPlanStateChange
  | substitutionRecompute => exact .inl (Evolves.refl s).execSubstitutionRecompute
  | tollgateReceive => exact .inl (Evolves.refl s).execTollgateReceive
  | batchClose => exact .inl (Evolves.refl s).execBatchClose
  | singleRelease => exact .inl (Evolves.refl s).execSingleRelease
  | uplinkDispatch => exact .inl (Evolves.refl s).execUplinkDispatch
  | trainReceive => exact .inl (Evolves.refl s).execTrainReceive
  | farComplete => exact .inl (Evolves.refl s).execFarComplete
  | transferAgeDiscard => exact .inl (Evolves.refl s).execTransferAgeDiscard
  | transferResend => exact .inl (Evolves.refl s).execTransferResend
  | transferGiveUp => exact .inl (Evolves.refl s).execTransferGiveUp
  | transferAnswer => exact .inl (Evolves.refl s).execTransferAnswer
  | requestIssue => exact .inl (Evolves.refl s).execRequestIssue
  | requestTransmit => exact .inl (Evolves.refl s).execRequestTransmit
  | releaseSend => exact .inl (Evolves.refl s).execReleaseSend
  | targetReceive => exact .inl (Evolves.refl s).execTargetReceive
  | answerReceive => exact .inl (Evolves.refl s).execAnswerReceive
  | retransmit => exact .inl (Evolves.refl s).execRetransmit
  | requestLost => exact .inl (Evolves.refl s).execRequestLost
  | replyRecordExpiry => exact .inl (Evolves.refl s).execReplyRecordExpiry
  | seqWindowExpiry => exact .inl (Evolves.refl s).execSeqWindowExpiry
  | startupQuietEnd => exact .inl (Evolves.refl s).execStartupQuietEnd
  | demotionNotice => exact .inl (Evolves.refl s).execDemotionNotice
  | demoteClr => exact .inl (Evolves.refl s).execDemoteClr
  | volatileSet => exact .inl (Evolves.refl s).execVolatileSet
  | msCountWrite => exact .inl (Evolves.refl s).execMsCountWrite
  | milestoneSatisfied => exact .inl (Evolves.refl s).execMilestoneSatisfied
  | waitDeadline => exact .inl (Evolves.refl s).execWaitDeadline
  | fenceComplete => exact .inl (Evolves.refl s).execFenceComplete
  | tokenWaitDone => exact .inl (Evolves.refl s).execTokenWaitDone
  | groupLoad => exact .inl (Evolves.refl s).execGroupLoad
  | instanceArm => exact .inl (Evolves.refl s).execInstanceArm
  | joinReceive => exact .inl (Evolves.refl s).execJoinReceive
  | contribReceive => exact .inl (Evolves.refl s).execContribReceive
  | earlyArrivalExpiry => exact .inl (Evolves.refl s).execEarlyArrivalExpiry
  | entrySpill => exact .inl (Evolves.refl s).execEntrySpill
  | mapAckSend => exact .inl (Evolves.refl s).execMapAckSend
  | resultHandoff => exact .inl (Evolves.refl s).execResultHandoff
  | resultReceive => exact .inl (Evolves.refl s).execResultReceive
  | bcastSend => exact .inl (Evolves.refl s).execBcastSend
  | bcastReceive => exact .inl (Evolves.refl s).execBcastReceive
  | bcastRecovery => exact .inl (Evolves.refl s).execBcastRecovery
  | instanceEnd => exact .inl (Evolves.refl s).execInstanceEnd
  | instanceDeadline => exact .inl (Evolves.refl s).execInstanceDeadline
  | endNoticeRepeat => exact .inl (Evolves.refl s).execEndNoticeRepeat
  | endNoticeReceive => exact .inl (Evolves.refl s).execEndNoticeReceive
  | noticeMissing => exact .inl (Evolves.refl s).execNoticeMissing
  | slotFree => exact .inl (Evolves.refl s).execSlotFree
  | rdSrSeed => exact .inl (Evolves.refl s).execRdSrSeed
  | laneMarginInterval => exact .inl (Evolves.refl s).execLaneMarginInterval
  | laneLost => exact .inl (Evolves.refl s).execLaneLost
  | memoryAccess => exact .inl (Evolves.refl s).execMemoryAccess
  | refreshDue => exact .inl (Evolves.refl s).execRefreshDue
  | patrolScrub => exact .inl (Evolves.refl s).execPatrolScrub
  | tempRead => exact .inl (Evolves.refl s).execTempRead
  | retireMoveStart => exact .inl (Evolves.refl s).execRetireMoveStart
  | retireGo => exact .inl (Evolves.refl s).execRetireGo
  | retireRowCopy => exact .inl (Evolves.refl s).execRetireRowCopy
  | mirrorValidSet => exact .inl (Evolves.refl s).execMirrorValidSet
  | mirrorResync => exact .inl (Evolves.refl s).execMirrorResync
  | mirrorPageSend => exact .inl (Evolves.refl s).execMirrorPageSend
  | mirrorSync => exact .inl (Evolves.refl s).execMirrorSync
  | mirrorSyncComplete => exact .inl (Evolves.refl s).execMirrorSyncComplete
  | quantumSchedule => exact .inl (Evolves.refl s).execQuantumSchedule
  | quantumOverrun => exact .inl (Evolves.refl s).execQuantumOverrun
  | addS => exact .inl (Evolves.refl s).execAddS
  | subS => exact .inl (Evolves.refl s).execSubS
  | mulS => exact .inl (Evolves.refl s).execMulS
  | mulhu => exact .inl (Evolves.refl s).execMulhu
  | andS => exact .inl (Evolves.refl s).execAndS
  | orS => exact .inl (Evolves.refl s).execOrS
  | xorS => exact .inl (Evolves.refl s).execXorS
  | shl => exact .inl (Evolves.refl s).execShl
  | shr => exact .inl (Evolves.refl s).execShr
  | sra => exact .inl (Evolves.refl s).execSra
  | minS => exact .inl (Evolves.refl s).execMinS
  | maxS => exact .inl (Evolves.refl s).execMaxS
  | minu => exact .inl (Evolves.refl s).execMinu
  | maxu => exact .inl (Evolves.refl s).execMaxu
  | divu => exact .inl (Evolves.refl s).execDivu
  | remu => exact .inl (Evolves.refl s).execRemu
  | seq => exact .inl (Evolves.refl s).execSeq
  | slt => exact .inl (Evolves.refl s).execSlt
  | sltu => exact .inl (Evolves.refl s).execSltu
  | li => exact .inl (Evolves.refl s).execLi
  | lih => exact .inl (Evolves.refl s).execLih
  | beq => exact .inl (Evolves.refl s).execBeq
  | bne => exact .inl (Evolves.refl s).execBne
  | blt => exact .inl (Evolves.refl s).execBlt
  | bge => exact .inl (Evolves.refl s).execBge
  | bltu => exact .inl (Evolves.refl s).execBltu
  | bgeu => exact .inl (Evolves.refl s).execBgeu
  | jal => exact .inl (Evolves.refl s).execJal
  | jr => exact .inl (Evolves.refl s).execJr
  | sld => exact .inl (Evolves.refl s).execSld
  | sst => exact .inl (Evolves.refl s).execSst
  | slda => exact .inl (Evolves.refl s).execSlda
  | sstr => exact .inl (Evolves.refl s).execSstr
  | rdsys => exact .inl (Evolves.refl s).execRdsys
  | rdstat => exact .inl (Evolves.refl s).execRdstat
  | ld => exact .inl (Evolves.refl s).execLd
  | ldv => exact .inl (Evolves.refl s).execLdv
  | lda => exact .inl (Evolves.refl s).execLda
  | st => exact .inl (Evolves.refl s).execSt
  | str => exact .inl (Evolves.refl s).execStr
  | atm => exact .inl (Evolves.refl s).execAtm
  | atma => exact .inl (Evolves.refl s).execAtma
  | atmr => exact .inl (Evolves.refl s).execAtmr
  | inval => exact .inl (Evolves.refl s).execInval
  | coll => exact .inl (Evolves.refl s).execColl
  | collx => exact .inl (Evolves.refl s).execCollx
  | dmain => exact .inl (Evolves.refl s).execDmain
  | dmainv => exact .inl (Evolves.refl s).execDmainv
  | dmaout => exact .inl (Evolves.refl s).execDmaout
  | dmaadd => exact .inl (Evolves.refl s).execDmaadd
  | dmacp => exact .inl (Evolves.refl s).execDmacp
  | dmaTransferComplete => exact .inl (Evolves.refl s).execDmaTransferComplete
  | vld => exact .inl (Evolves.refl s).execVld
  | vldb => exact .inl (Evolves.refl s).execVldb
  | vst => exact .inl (Evolves.refl s).execVst
  | vadd => exact .inl (Evolves.refl s).execVadd
  | vsub => exact .inl (Evolves.refl s).execVsub
  | vmul => exact .inl (Evolves.refl s).execVmul
  | vfma => exact .inl (Evolves.refl s).execVfma
  | vmin => exact .inl (Evolves.refl s).execVmin
  | vmax => exact .inl (Evolves.refl s).execVmax
  | vsel => exact .inl (Evolves.refl s).execVsel
  | vrcp => exact .inl (Evolves.refl s).execVrcp
  | vrsq => exact .inl (Evolves.refl s).execVrsq
  | vexp2 => exact .inl (Evolves.refl s).execVexp2
  | vrsum => exact .inl (Evolves.refl s).execVrsum
  | vrmax => exact .inl (Evolves.refl s).execVrmax
  | vcvt => exact .inl (Evolves.refl s).execVcvt
  | vsplat => exact .inl (Evolves.refl s).execVsplat
  | mma => exact .inl (Evolves.refl s).execMma
  | mzero => exact .inl (Evolves.refl s).execMzero
  | mout => exact .inl (Evolves.refl s).execMout
  | mload => exact .inl (Evolves.refl s).execMload
  | xli => exact .inl (Evolves.refl s).execXli
  | xadd => exact .inl (Evolves.refl s).execXadd
  | xbnz => exact .inl (Evolves.refl s).execXbnz
  | xloop => exact .inl (Evolves.refl s).execXloop
  | xjmp => exact .inl (Evolves.refl s).execXjmp
  | xstat => exact .inl (Evolves.refl s).execXstat
  | xlih => exact .inl (Evolves.refl s).execXlih
  | fence => exact .inl (Evolves.refl s).execFence
  | tsig => exact .inl (Evolves.refl s).execTsig
  | twait => exact .inl (Evolves.refl s).execTwait
  | mswait => exact .inl (Evolves.refl s).execMswait
  | msadd => exact .inl (Evolves.refl s).execMsadd
  | step => exact .inl (Evolves.refl s).execStep
  | endE => exact .inl (Evolves.refl s).execEndE
  | nop => exact .inl (Evolves.refl s).execNop
  | contextCreate => exact .inl (Evolves.refl s).execContextCreate
  | contextScrub => exact .inl (Evolves.refl s).execContextScrub
  | scrubDrainDone => exact .inl (Evolves.refl s).execScrubDrainDone
  | kernelLoad => exact .inl (Evolves.refl s).execKernelLoad
  | kernelStart => exact .inl (Evolves.refl s).execKernelStart
  | kernelStop => exact .inl (Evolves.refl s).execKernelStop
  | unloadDone => exact .inl (Evolves.refl s).execUnloadDone
  | kernelEnd => exact .inl (Evolves.refl s).execKernelEnd
  | ringRequest => exact .inl (Evolves.refl s).execRingRequest
  | optimizerBatch => exact .inl (Evolves.refl s).execOptimizerBatch
  | ethernetFrame => exact .inl (Evolves.refl s).execEthernetFrame
  | lldpSend => exact .inl (Evolves.refl s).execLldpSend
  | commandPacket => exact .inl (Evolves.refl s).execCommandPacket
  | partialCommandExpiry => exact .inl (Evolves.refl s).execPartialCommandExpiry
  | commandComplete => exact .inl (Evolves.refl s).execCommandComplete
  | identify => exact .inl (Evolves.refl s).execIdentify
  | regRead => exact .inl (Evolves.refl s).execRegRead
  | regWrite => exact .inl (Evolves.refl s).execRegWrite
  | memRead => exact .inl (Evolves.refl s).execMemRead
  | memWrite => exact .inl (Evolves.refl s).execMemWrite
  | resultRead => exact .inl (Evolves.refl s).execResultRead
  | tagRetire => exact .inl (Evolves.refl s).execTagRetire
  | inbandCommandPiece => exact .inl (Evolves.refl s).execInbandCommandPiece
  | inbandPieceExpiry => exact .inl (Evolves.refl s).execInbandPieceExpiry
  | rdmaWrite => exact .inl (Evolves.refl s).execRdmaWrite
  | rdmaRead => exact .inl (Evolves.refl s).execRdmaRead
  | rdmaUnsupported => exact .inl (Evolves.refl s).execRdmaUnsupported
  | qpStateWrite => exact .inl (Evolves.refl s).execQpStateWrite
  | ptpMessage => exact .inl (Evolves.refl s).execPtpMessage
  | timeSet => exact .inl (Evolves.refl s).execTimeSet
  | allowListWrite => exact .inl (Evolves.refl s).execAllowListWrite
  | powerOn => exact .inl (Evolves.refl s).execPowerOn
  | strapChange => exact .inl (Evolves.refl s).execStrapChange
  | bootEntry st chk => exact .inr ⟨st, chk, rfl⟩
  | initEnd => exact .inl (Evolves.refl s).execInitEnd
  | maint => exact .inl (Evolves.refl s).execMaint
  | resume => exact .inl (Evolves.refl s).execResume
  | drainEnd => exact .inl (Evolves.refl s).execDrainEnd
  | thermalTrip => exact .inl (Evolves.refl s).execThermalTrip
  | bootHold => exact .inl (Evolves.refl s).execBootHold
  | bootFailClear => exact .inl (Evolves.refl s).execBootFailClear
  | resetPartial => exact .inl (Evolves.refl s).execResetPartial
  | controlReset => exact .inl (Evolves.refl s).execControlReset
  | resetDone => exact .inl (Evolves.refl s).execResetDone
  | fwStage => exact .inl (Evolves.refl s).execFwStage
  | fwActivate => exact .inl (Evolves.refl s).execFwActivate
  | liveConfirm => exact .inl (Evolves.refl s).execLiveConfirm
  | liveTimeout => exact .inl (Evolves.refl s).execLiveTimeout
  | fullTrialTimeout => exact .inl (Evolves.refl s).execFullTrialTimeout
  | eccUncorrectable => exact .inl (Evolves.refl s).execEccUncorrectable
  | tableEccError => exact .inl (Evolves.refl s).execTableEccError
  | heartbeatSend => exact .inl (Evolves.refl s).execHeartbeatSend
  | changeHeartbeat => exact .inl (Evolves.refl s).execChangeHeartbeat
  | heartbeatReceive => exact .inl (Evolves.refl s).execHeartbeatReceive
  | vigilWindowEnd => exact .inl (Evolves.refl s).execVigilWindowEnd
  | vigilConfirm => exact .inl (Evolves.refl s).execVigilConfirm
  | goneDepart => exact .inl (Evolves.refl s).execGoneDepart
  | goneClear => exact .inl (Evolves.refl s).execGoneClear
  | inputLoss => exact .inl (Evolves.refl s).execInputLoss
  | inputLossInstanceEnd => exact .inl (Evolves.refl s).execInputLossInstanceEnd
  | inputLossRailsOff => exact .inl (Evolves.refl s).execInputLossRailsOff
  | presentNRise => exact .inl (Evolves.refl s).execPresentNRise
  | coolantSample => exact .inl (Evolves.refl s).execCoolantSample
  | dieTempSample => exact .inl (Evolves.refl s).execDieTempSample
  | emergencyEnd => exact .inl (Evolves.refl s).execEmergencyEnd
  | ladderFall => exact .inl (Evolves.refl s).execLadderFall
  | boostExhaust => exact .inl (Evolves.refl s).execBoostExhaust
  | boostRestore => exact .inl (Evolves.refl s).execBoostRestore
  | powerPolicy => exact .inl (Evolves.refl s).execPowerPolicy
  | laserWearUpdate => exact .inl (Evolves.refl s).execLaserWearUpdate
  | throttlePeriod => exact .inl (Evolves.refl s).execThrottlePeriod
  | attest => exact .inl (Evolves.refl s).execAttest
  | attGo => exact .inl (Evolves.refl s).execAttGo
  | rngHealthFail => exact .inl (Evolves.refl s).execRngHealthFail
  | tableHashUpdate => exact .inl (Evolves.refl s).execTableHashUpdate
  | debugSessionStart => exact .inl (Evolves.refl s).execDebugSessionStart
  | debugSessionEnd => exact .inl (Evolves.refl s).execDebugSessionEnd
  | pageEdge => exact .inl (Evolves.refl s).execPageEdge
  | pageWrite => exact .inl (Evolves.refl s).execPageWrite
  | almanacWindow => exact .inl (Evolves.refl s).execAlmanacWindow
  | snapshotExpiry => exact .inl (Evolves.refl s).execSnapshotExpiry
  | tmSnapGo => exact .inl (Evolves.refl s).execTmSnapGo
  | tmShadowCopy => exact .inl (Evolves.refl s).execTmShadowCopy
  | linkTest => exact .inl (Evolves.refl s).execLinkTest
  | linkTestStart => exact .inl (Evolves.refl s).execLinkTestStart
  | checkerLock => exact .inl (Evolves.refl s).execCheckerLock
  | linkTestEnd => exact .inl (Evolves.refl s).execLinkTestEnd
  | patternPlace => exact .inl (Evolves.refl s).execPatternPlace
  | patternCheck => exact .inl (Evolves.refl s).execPatternCheck
  | pchkEnable => exact .inl (Evolves.refl s).execPchkEnable
  | wiringVerify => exact .inl (Evolves.refl s).execWiringVerify
  | wiringVerifyStart => exact .inl (Evolves.refl s).execWiringVerifyStart
  | beaconReceive => exact .inl (Evolves.refl s).execBeaconReceive
  | beaconTimeout => exact .inl (Evolves.refl s).execBeaconTimeout
  | connectorInspect => exact .inl (Evolves.refl s).execConnectorInspect
  | connectorInspectStart => exact .inl (Evolves.refl s).execConnectorInspectStart
  | ucieModuleTrain => exact .inl (Evolves.refl s).execUcieModuleTrain
  | request => exact .inl (Evolves.refl s).execRequest
  | syncFence => exact .inl (Evolves.refl s).execSyncFence
  | syncWait => exact .inl (Evolves.refl s).execSyncWait
  | syncAdd => exact .inl (Evolves.refl s).execSyncAdd
  | collMember => exact .inl (Evolves.refl s).execCollMember
  | collRootArm _ _ _ _ g => exact .inl ((Evolves.refl s).execCollRootArm (_g := g))
  | collAbort _ _ _ _ g => exact .inl ((Evolves.refl s).execCollAbort (_g := g))
  | inbandMessage => exact .inl (Evolves.refl s).execInbandMessage
  | homeData => exact .inl (Evolves.refl s).execHomeData
  | homeDone => exact .inl (Evolves.refl s).execHomeDone
  | homeTimeout => exact .inl (Evolves.refl s).execHomeTimeout
  | lineStoreAdmit => exact .inl (Evolves.refl s).execLineStoreAdmit
  | portsEn => exact .inl (Evolves.refl s).execPortsEn
  | sbLock => exact .inl (Evolves.refl s).execSbLock
  | chipletReset => exact .inl (Evolves.refl s).execChipletReset
  | chTestGo => exact .inl (Evolves.refl s).execChTestGo
  | chipletThermalTrip => exact .inl (Evolves.refl s).execChipletThermalTrip
  | bmTransaction => exact .inl (Evolves.refl s).execBmTransaction
  | registerWrite => exact .inl (Evolves.refl s).execRegisterWrite
  | rngOkReturn => exact .inl (Evolves.refl s).execRngOkReturn
  | chipletThermalRelease => exact .inl (Evolves.refl s).execChipletThermalRelease
  | hostPortLinkChange => exact .inl (Evolves.refl s).execHostPortLinkChange
  | wiringVerifyEnd => exact .inl (Evolves.refl s).execWiringVerifyEnd
  | attEvidenceReady => exact .inl (Evolves.refl s).execAttEvidenceReady

/-- Every command answers a next state that keeps soundness, the queue and the outputs. -/
theorem Keeps.exec (i : Instr) (s : State) : ∃ t, Machine.exec i s = .next t ∧ Keeps s t := by
  obtain ⟨t, e, k⟩ | ⟨st, chk, rfl⟩ := Evolves.exec i s
  · exact ⟨t, e, k.toKeeps⟩
  · exact Keeps.execBootEntry

/-- Settles O53: soundness is kept by every command, and taking a command from the queue touches neither memory nor registers. -/
theorem stepsStaySound : Obligations.StepsStaySound := by
  intro s hs
  unfold SafeStep step
  split
  · exact ⟨s, rfl, hs⟩
  · obtain ⟨t, e, k⟩ := Keeps.exec _ _
    exact ⟨t, e, k.sound hs⟩

end Sys2Proof.Machine
end

/-! # What the memories and the register file read back -/
section
namespace Sys2Proof.Machine

/-- A byte among the bytes stored reads as the one stored there. -/
theorem Memory.get_write_mem {m : Memory} (h : Memory.wf m = true) (a : Nat) (b : List Byte) {c : Nat} (hc : a ≤ c)
    (hb : c < a + b.length) : Memory.get (Memory.write m a b) c = b.getD (c - a) 0 := by
  induction b generalizing m a with
  | nil => simp only [List.length_nil] at hb; omega
  | cons x l ih =>
    simp only [List.length_cons] at hb
    unfold Memory.write
    obtain rfl | hne := Nat.eq_or_lt_of_le hc
    · rw [Memory.get_write_apart _ _ _ (by omega), Memory.get_put (by simp_all [Memory.wf]), Nat.sub_self, List.getD_cons_zero]
    · rw [ih (Memory.wf_put h a x) (a + 1) hne (by omega), show c - a = c - (a + 1) + 1 by omega, List.getD_cons_succ]

/-- A canonical register file lists its addresses in rising order. -/
theorem State.krising_of_regsWf {s : State} (h : s.regsWf = true) : krising (α := W64) s.regs = true :=
  (Bool.and_eq_true_iff.1 h).1

/-- Storing a field leaves every field apart from it as it was. -/
theorem State.fget_fset_of_apart {s : State} (h : s.regsWf = true) {f g : Fld} (hl : f.lo ≤ f.hi + 1) (hh : f.hi < 64)
    (d : Apart f g) (v : Nat) : (s.fset f v).fget g = s.fget g := by
  by_cases n : g.addr = f.addr
  · exact s.fget_fset_apart (State.krising_of_regsWf h) n v hl hh (d.resolve_left (not_not_intro n))
  · exact s.fget_fset_ne n v

/-- Storing a value that fits a field sets that field alone. -/
theorem State.sets_fset {s : State} (h : s.regsWf = true) {f : Fld} {v : Nat} (hl : f.lo ≤ f.hi) (hh : f.hi < 64)
    (hv : v < 2 ^ (f.hi + 1 - f.lo)) : Sets s (s.fset f v) [(f, v)] := by
  have hr := State.krising_of_regsWf h
  refine ⟨fun e he => ?_, fun g hg => ?_⟩
  · obtain rfl := List.mem_singleton.1 he
    rw [s.fget_fset hr f v (by omega) hh, Nat.mod_eq_of_lt hv]
  · exact State.fget_fset_of_apart h (by omega) hh (hg _ (List.mem_singleton_self _)) v

/-- Settles O56: a written byte, register or field reads back, and the others read as before. -/
theorem storesReadBack : Obligations.StoresReadBack := by
  refine ⟨fun m a x b h => ⟨Memory.wf_write h a b, ?_⟩, fun s a b v h => ⟨s.regsWf_setReg h a v, ?_⟩,
    fun s f v h hl hh hv => State.sets_fset h hl hh hv⟩
  · split
    · rename_i hx
      exact Memory.get_write_mem h a b hx.1 hx.2
    · exact Memory.get_write_apart m a b (by omega)
  · split
    · rename_i hb
      exact hb ▸ s.reg_setReg (State.krising_of_regsWf h) a v
    · rename_i hb
      exact s.reg_setReg_ne hb v

end Sys2Proof.Machine
end

/-! # Fields of byte strings -/
section
namespace Sys2Proof.Machine

@[simp] theorem length_leBytes (v n : Nat) : (leBytes v n).length = n := by
  induction n generalizing v with
  | zero => rfl
  | succ n ih => simp only [leBytes, List.length_cons, ih]

theorem leNat_take (l : List Byte) (k : Nat) : leNat (l.take k) = leNat l % 256 ^ k := by
  induction k generalizing l with
  | zero => simp [leNat, Nat.mod_one]
  | succ k ih =>
    cases l with
    | nil => simp [leNat]
    | cons b l =>
      have hb : b.toNat < 256 := b.isLt
      rw [List.take_succ_cons, leNat, leNat, ih, pow_succ', Nat.mod_mul, Nat.add_mul_mod_self_left, Nat.mod_eq_of_lt hb,
        Nat.add_mul_div_left _ _ (by decide), Nat.div_eq_of_lt hb, Nat.zero_add]

theorem leNat_leBytes (v n : Nat) : leNat (leBytes v n) = v % 256 ^ n := by
  induction n generalizing v with
  | zero => simp [leBytes, leNat, Nat.mod_one]
  | succ n ih => rw [leBytes, leNat, ih, pow_succ', Nat.mod_mul, BitVec.toNat_ofNat]

theorem leBytes_zero (n : Nat) : leBytes 0 n = List.replicate n 0 := by
  induction n with
  | zero => rfl
  | succ n ih => rw [leBytes, Nat.zero_div, ih, List.replicate_succ]; rfl

@[simp] theorem length_bytesAt (l : List Byte) (o n : Nat) : (bytesAt l o n).length = n := by
  simp only [bytesAt, List.length_append, List.length_take, List.length_drop, List.length_replicate]
  omega

/-- Bytes that lie within a string are the string's own. -/
theorem bytesAt_of_le {l : List Byte} {o n : Nat} (h : o + n ≤ l.length) : bytesAt l o n = (l.drop o).take n := by
  have hl : ((l.drop o).take n).length = n := by
    rw [List.length_take, List.length_drop]
    omega
  simp only [bytesAt, hl, Nat.sub_self, List.replicate_zero, List.append_nil]

/-- A shorter field at the same place holds the low bits of a longer one. -/
theorem field_mod {l : List Byte} {o n k : Nat} (hk : k ≤ n) : field l o k = field l o n % 256 ^ k := by
  have : bytesAt l o k = (bytesAt l o n).take k := by
    simp only [bytesAt, List.take_append, List.take_take, List.take_replicate, List.length_take, List.length_drop]
    congr 2 <;> omega
  rw [field, this, leNat_take, field]

/-- The first field of a string that begins with a number's bytes is the number. -/
theorem field_leBytes_append (v n : Nat) (l : List Byte) : field (leBytes v n ++ l) 0 n = v % 256 ^ n := by
  rw [field, bytesAt_of_le (by simp), List.drop_zero, List.take_left' (length_leBytes v n), leNat_leBytes]

theorem field_leBytes (v n : Nat) : field (leBytes v n) 0 n = v % 256 ^ n := by
  simpa using field_leBytes_append v n []

end Sys2Proof.Machine
end

/-! # Replies and tags -/
section
namespace Sys2Proof.Machine

open Sys2Proof.Laws

variable {s t u : State}

/-! ## What a reply leaves unchanged -/

/-- Only the control processor's tags, the outputs and what waits at core input 128 + s differ between two states (R17, R404). -/
structure State.Replies (s t : State) : Prop where
  frame : t = { s with host := t.host, out := t.out, sw := t.sw }
  feeds : s.Feeds t

theorem State.Replies.rfl_ (s : State) : s.Replies s := ⟨rfl, .rfl_ s⟩

theorem State.Replies.trans (h : s.Replies t) (k : t.Replies u) : s.Replies u :=
  ⟨k.frame.trans (by rw [h.frame]), h.feeds.trans k.feeds⟩

/-- The clause that the obligations end a reply's frame with. -/
theorem State.Replies.eq (h : s.Replies t) : t = { s with host := t.host, out := t.out, sw := s.fed t } := by
  rw [← h.feeds.sw_eq]
  exact h.frame

theorem State.Replies.regs_eq (h : s.Replies t) : t.regs = s.regs := by rw [h.frame]

theorem State.Replies.boot_eq (h : s.Replies t) : t.boot = s.boot := by rw [h.frame]

theorem State.Replies.reg_eq (h : s.Replies t) (a : Nat) : t.reg a = s.reg a := by
  rw [State.reg, State.reg, h.regs_eq, h.boot_eq]

theorem State.Replies.fget_eq (h : s.Replies t) (f : Fld) : t.fget f = s.fget f := by
  rw [State.fget, State.fget, h.reg_eq]

/-- A change of the tags alone. -/
theorem State.Replies.of_host (s : State) (x : HostIf) : s.Replies { s with host := x } := ⟨rfl, .of_eq rfl rfl rfl⟩

theorem State.Replies.begin (s : State) (r : CmdReq) : s.Replies (s.begin r) := by
  unfold State.begin
  split
  · exact .rfl_ s
  · exact .of_host s _

theorem State.Replies.updTag (s : State) (owner tag : Nat) (f : TagSt → TagSt) : s.Replies (s.updTag owner tag f) := .of_host s _

/-- A reply changes neither registers nor tags. -/
theorem State.sendReply_frame (s : State) (r : CmdReq) (st pr : Nat) (b : List Byte) (rep : Bool) :
    s.sendReply r st pr b rep = { s with out := (s.sendReply r st pr b rep).out, sw := (s.sendReply r st pr b rep).sw } := by
  unfold State.sendReply
  split
  · exact State.forEach_keeps (P := fun t => t = { s with out := t.out, sw := t.sw }) (fun t _ h => by rw [h]; rfl) _ s rfl
  · exact State.forEach_keeps (P := fun t => t = { s with out := t.out, sw := t.sw }) (fun t _ h => by rw [h]; rfl) _ s rfl

theorem State.sendReply_host (s : State) (r : CmdReq) (st pr : Nat) (b : List Byte) (rep : Bool) :
    (s.sendReply r st pr b rep).host = s.host := by rw [s.sendReply_frame]

theorem State.Replies.sendReply (s : State) (r : CmdReq) (st pr : Nat) (b : List Byte) (rep : Bool) :
    s.Replies (s.sendReply r st pr b rep) :=
  ⟨(s.sendReply_frame r st pr b rep).trans (by rw [s.sendReply_host]), s.sendReply_feeds r st pr b rep⟩

theorem State.Replies.answer (s : State) (r : CmdReq) (st pr : Nat) (b : List Byte) : s.Replies (s.answer r st pr b) :=
  (State.Replies.updTag s _ _ _).trans (.sendReply _ r st pr b false)

theorem State.Replies.pend (s : State) (r : CmdReq) (n : Nat) : s.Replies (s.pend r n) :=
  (State.Replies.updTag s _ _ _).trans (.sendReply _ r ST.PENDING (n - s.now) [] false)

/-! ## What a reply sends -/

/-- Each output of a list of outputs stands among the outputs once all have left. -/
theorem State.mem_out_forEach_emit {α : Type} (g : α → Out) (l : List α) (s : State) :
    ∀ x ∈ l, g x ∈ (s.forEach l fun s x => s.emit (g x)).out := by
  have old (l : List α) (s : State) : ∀ o ∈ s.out, o ∈ (s.forEach l fun s x => s.emit (g x)).out := fun o ho =>
    State.forEach_keeps (P := fun t => o ∈ t.out) (fun _ _ h => List.mem_cons_of_mem _ h) l s ho
  induction l generalizing s with
  | nil => exact fun x hx => absurd hx List.not_mem_nil
  | cons y l ih =>
    intro x hx
    obtain rfl | hx := List.mem_cons.1 hx
    · exact old l _ _ List.mem_cons_self
    · exact ih _ x hx

/-- A host's reply leaves in packets (R403, R404). -/
theorem State.packetsOut_sendReply {r : CmdReq} (ho : r.owner < 64) (s : State) (st pr : Nat) (b : List Byte) (rep : Bool) :
    PacketsOut (s.sendReply r st pr b rep) r st pr b rep := by
  rw [State.sendReply, if_pos ho]
  extract_lets p up _ w
  obtain ⟨k, hk⟩ : ∃ k, w = { r.route with port := k } := by
    dsimp only [w]
    split
    · exact ⟨_, rfl⟩
    · exact ⟨_, rfl⟩
  rw [hk]
  exact ⟨k, State.mem_out_forEach_emit _ _ s⟩

theorem State.replied_sendReply (s : State) (r : CmdReq) (st pr : Nat) (b : List Byte) :
    Replied (s.sendReply r st pr b false) r st pr b := fun ho => State.packetsOut_sendReply ho s st pr b false

/-! ## Tags -/

/-- Changing the first element that satisfies a predicate, so that it still does, changes what a search finds. -/
theorem find?_replaceFirst {α : Type} {p : α → Bool} {f : α → α} (hf : ∀ x, p x = true → p (f x) = true) (l : List α) :
    (replaceFirst p f l).find? p = (l.find? p).map f := by
  induction l with
  | nil => rfl
  | cons x l ih =>
    unfold replaceFirst
    by_cases hx : p x = true
    · simp [hx, hf x hx]
    · simp [hx, ih]

theorem State.findTag_updTag {owner tag : Nat} {x : TagSt} {f : TagSt → TagSt} (hx : s.findTag owner tag = some x)
    (hf : ∀ x, (f x).owner = x.owner ∧ (f x).tag = x.tag) : (s.updTag owner tag f).findTag owner tag = some (f x) :=
  (find?_replaceFirst (fun y hy => by rw [(hf y).1, (hf y).2]; exact hy) _).trans (congrArg (Option.map f) hx)

theorem State.findTag_sendReply (s : State) (r : CmdReq) (st pr : Nat) (b : List Byte) (rep : Bool) (owner tag : Nat) :
    (s.sendReply r st pr b rep).findTag owner tag = s.findTag owner tag := by
  rw [State.findTag, s.sendReply_host, State.findTag]

/-- A command that begins has a live tag (R406). -/
theorem State.findTag_begin (s : State) (r : CmdReq) : ∃ x, (s.begin r).findTag r.owner r.tag = some x := by
  unfold State.begin
  split
  · rename_i h
    exact Option.isSome_iff_exists.1 h
  · rename_i h
    have h : s.host.tags.find? (fun t => t.owner == r.owner && t.tag == r.tag) = none := by
      simpa [State.findTag] using h
    simp [State.findTag, List.find?_append, h]

/-- A fresh command that begins is not done. -/
theorem State.done_begin {r : CmdReq} (hf : Fresh s r) {x : TagSt} (h : (s.begin r).findTag r.owner r.tag = some x) :
    x.done = false := by
  unfold State.begin at h
  split at h
  · exact hf x h
  · rename_i hn
    have hn : s.host.tags.find? (fun t => t.owner == r.owner && t.tag == r.tag) = none := by
      simpa [State.findTag] using hn
    simp only [State.findTag, List.find?_append, hn, Option.none_or, List.find?_cons, beq_self_eq_true, Bool.and_self,
      Option.some.injEq] at h
    rw [← h]

/-- An answered command is done, and its reply left the block (R405, R409). -/
theorem State.done_answer {r : CmdReq} (h : ∃ x, s.findTag r.owner r.tag = some x) (st pr : Nat) (b : List Byte) :
    Done (s.answer r st pr b) r st pr b := by
  obtain ⟨x, hx⟩ := h
  refine ⟨⟨{ x with done := true, status := st, progress := pr, result := b, delivered := true }, ?_, rfl, rfl, rfl, rfl⟩,
    State.replied_sendReply _ r st pr b⟩
  rw [State.answer, State.reply, State.findTag_sendReply]
  exact State.findTag_updTag hx (by exact fun _ => ⟨rfl, rfl⟩)

/-- A command that pends waits for its frame, and ST_PENDING left the block (R405, R411). -/
theorem State.pends_pend {r : CmdReq} (h : ∃ x, s.findTag r.owner r.tag = some x ∧ x.done = false) (n : Nat) (hn : u.now = s.now) :
    Pends u (s.pend r n) r n := by
  obtain ⟨x, hx, hd⟩ := h
  refine ⟨⟨{ x with n := n }, ?_, hd, rfl⟩, ?_⟩
  · rw [State.pend, State.reply, State.findTag_sendReply]
    exact State.findTag_updTag hx (by exact fun _ => ⟨rfl, rfl⟩)
  · rw [hn]
    exact State.replied_sendReply _ r _ _ _

end Sys2Proof.Machine
end

/-! # Addresses without a register -/
section
namespace Sys2Proof.Machine

variable {s : State} {a : Nat}

/-- An unassigned address reads as zero and its read clears nothing (R8). -/
theorem State.regRead_of_unassigned (h : unassigned a = true) (s : State) : s.regRead a = (s, 0) := by
  simp [State.regRead, State.regValue, h]

/-- A write of an unassigned address has no effect (R8). -/
theorem State.regWrite_of_unassigned (h : unassigned a = true) (s : State) (v : W64) (f : Bool) : s.regWrite a v f = s := by
  simp [State.regWrite, h]

theorem regAddr_iff : regAddr a = true ↔ a % 8 = 0 ∧ a < 2 ^ 32 := by simp [regAddr]

/-! ## The commands that read and write registers -/

/-- REG_READ of a payload that is one address. -/
theorem execRegRead_one {r : CmdReq} (hp : r.payload = leBytes a 4) (ha : a < 2 ^ 32) (s : State) :
    execRegRead r s = .next (if a % 8 = 0 then
      ((s.begin r).regRead a).1.answer r ST.OK 0 (leBytes ((s.begin r).regRead a).2.toNat 8)
    else (s.begin r).answer r ST.BAD_PARAM 0 []) := by
  have hf : field r.payload 0 4 = a := by
    rw [hp, field_leBytes]
    exact Nat.mod_eq_of_lt ha
  have hn : r.payload.length = 4 := by rw [hp, length_leBytes]
  have hl : (List.range (4 / 4)).map (fun i => field r.payload (4 * i) 4) = [a] := by
    rw [← hf]
    rfl
  simp only [execRegRead, hn, hl]
  by_cases h8 : a % 8 = 0
  · simp [State.readList, h8]
  · simp [State.readList, h8]

/-- REG_WRITE of a payload that is one address and one value. -/
theorem execRegWrite_one {r : CmdReq} (hp : r.payload.length = 16) (hf : field r.payload 0 8 = a) (ha : a < 2 ^ 32) (s : State) :
    execRegWrite r s = .next (if a % 8 = 0 then
      ((s.begin r).regWrite a (BitVec.ofNat 64 (field r.payload 8 8)) false).answer r ST.OK 0 []
    else (s.begin r).answer r ST.BAD_PARAM 0 []) := by
  have h4 : field r.payload 0 4 = a := by
    rw [field_mod (n := 8) (by decide), hf]
    exact Nat.mod_eq_of_lt ha
  have hl : (List.range (16 / 16)).map (fun i => (field r.payload (16 * i) 4, BitVec.ofNat 64 (field r.payload (16 * i + 8) 8))) =
      [(a, BitVec.ofNat 64 (field r.payload 8 8))] := by
    rw [← h4]
    rfl
  simp only [execRegWrite, hp, hl]
  by_cases h8 : a % 8 = 0
  · simp [State.writeList, h8]
  · simp [State.writeList, h8]

/-- Settles O59: the read and the write of an unassigned address leave the state as it is on every path. -/
theorem unassignedAddresses : Obligations.UnassignedAddresses := by
  intro s a v hu h8 ha
  have hr := State.regRead_of_unassigned hu
  have hw := State.regWrite_of_unassigned hu
  refine ⟨hr s, hw s v, fun hs => ⟨⟨_, rfl, ?_⟩, ⟨_, rfl, ?_⟩⟩, fun k _ => ⟨_, rfl, ?_⟩, fun r hf hp => ?_, fun r hf hp => ?_⟩
  · simp [regAddr_iff.2 ⟨h8, ha⟩, hs, hr, State.emit]
  · simp [hw]
  · simp [hw]
  · refine ⟨_, execRegRead_one hp ha s, ?_⟩
    rw [if_pos h8, hr]
    exact ⟨leBytes_zero 8 ▸ State.done_answer (s.findTag_begin r) ST.OK 0 (leBytes 0 8),
      ((State.Replies.begin s r).trans (.answer _ r _ _ _)).eq⟩
  · have hl : r.payload.length = 16 := by simp [hp]
    have hf : field r.payload 0 8 = a := by
      rw [hp, field_leBytes_append, Nat.mod_eq_of_lt (ha.trans (by decide))]
    refine ⟨_, execRegWrite_one hl hf ha s, ?_⟩
    rw [if_pos h8, hw]
    exact ⟨State.done_answer (s.findTag_begin r) _ _ _, ((State.Replies.begin s r).trans (.answer _ r _ _ _)).eq⟩

end Sys2Proof.Machine
end

/-! # A register read that changes more than registers -/
section
namespace Sys2Proof.Machine

/-- A sled in SERVICE whose core 0 asked for one sector of its scratch since its BANK_WAIT was read. -/
def askedOnce : State := { regs := [(R.CP_STATE.addr, BitVec.ofNat 64 SS.SERVICE)], cores := [(0, { asked := 1 })] }

/-- A read of CO_STATS2 starts BANK_WAIT again at zero: the core's count of the sectors asked for changes with it (R322). -/
theorem asked_bmTransaction : ∃ t, exec (.bmTransaction false (R.CO_STATS2.addr 0) 0) askedOnce = .next t ∧
    t.cores = [(0, {})] := ⟨_, rfl, by decide +kernel⟩

/-- Refutes O36: a read of CO_STATS2 is a read of BANK_WAIT too, which starts again at zero, so it changes the cores, which the
clause of BM_TRANSACTION says stand. -/
theorem not_registersReadAndWritten : ¬ Obligations.RegistersReadAndWritten := by
  intro h
  obtain ⟨-, hread, -⟩ := h askedOnce (R.CO_STATS2.addr 0) 0 (by decide +kernel) (by decide +kernel)
  obtain ⟨⟨t, e, -, -, -, ht⟩, -⟩ := hread (by decide) (by decide) (by decide +kernel) (by decide +kernel) (by decide +kernel)
    (by decide +kernel)
  obtain ⟨u, eu, hu⟩ := asked_bmTransaction
  obtain rfl : u = t := by simpa using eu.symm.trans e
  have hc : u.cores = askedOnce.cores := by rw [ht]
  exact absurd (hu.symm.trans hc) (by decide +kernel)

end Sys2Proof.Machine
end

/-! # Banks of tables: loads, clears and copies -/
section
namespace Sys2Proof.Machine

open Sys2Proof.Laws

variable {s t u : State} {p q : Nat → Prop}

/-! ## What an update of registers leaves unchanged -/

/-- Leaving entries out by their keys. -/
theorem kget_filter_key {α : Type} (m : KV α) (q : Nat → Bool) (k : Nat) :
    kget (m.filter fun e => q e.1) k = if q k = true then kget m k else none := by
  induction m with
  | nil => simp [kget]
  | cons e m ih =>
    obtain ⟨a, v⟩ := e
    by_cases ha : a = k
    · by_cases hk : q k = true
      · simp [kget, ha, hk]
      · simp [ha, hk, ih]
    · by_cases hq : q a = true
      · simp [kget, hq, ha, ih]
      · simp [kget, hq, ha, ih]

theorem State.regsWf_resetRegs (h : s.regsWf = true) (lo hi : Nat) : (s.resetRegs lo hi).regsWf = true :=
  State.regsWf_filter h _

/-- A register of a range that was reset reads its reset value. -/
theorem State.reg_resetRegs {lo hi a : Nat} (h : lo ≤ a) (k : a < hi) (s : State) :
    (s.resetRegs lo hi).reg a = regReset s.boot.latched a := by
  rw [State.reg, State.resetRegs, kget_filter_key s.regs fun a => !(lo ≤ a && a < hi)]
  simp [h, k]

/-- A register outside a range that was reset reads as before. -/
theorem State.reg_resetRegs_ne {lo hi a : Nat} (h : a < lo ∨ hi ≤ a) (s : State) : (s.resetRegs lo hi).reg a = s.reg a := by
  rw [State.reg, State.resetRegs, kget_filter_key s.regs fun a => !(lo ≤ a && a < hi), if_pos (by simp; omega), State.reg]

/-- Nothing is listed in a range that was reset. -/
theorem State.regsIn_resetRegs {lo hi a b : Nat} (h : lo ≤ a) (k : b ≤ hi) (s : State) :
    (s.resetRegs lo hi).regsIn a b = [] := by
  simp only [State.regsIn, State.resetRegs, List.filter_filter, List.filter_eq_nil_iff]
  intro e _
  simp
  omega

/-- Only registers whose addresses satisfy p differ between two states, and a canonical register file stays canonical. -/
structure State.Stores (s t : State) (p : Nat → Prop) : Prop where
  frame : t = { s with regs := t.regs }
  apart : ∀ a, ¬p a → t.reg a = s.reg a
  wf : s.regsWf = true → t.regsWf = true

theorem State.Stores.rfl_ (s : State) (p : Nat → Prop) : s.Stores s p := ⟨rfl, fun _ _ => rfl, id⟩

theorem State.Stores.trans (h : s.Stores t p) (k : t.Stores u p) : s.Stores u p :=
  ⟨k.frame.trans (by rw [h.frame]), fun a ha => (k.apart a ha).trans (h.apart a ha), k.wf ∘ h.wf⟩

theorem State.Stores.setReg {a : Nat} (ha : p a) (s : State) (v : W64) : s.Stores (s.setReg a v) p :=
  ⟨rfl, fun b hb => s.reg_setReg_ne (by rintro rfl; exact hb ha) v, fun h => s.regsWf_setReg h a v⟩

theorem State.Stores.resetRegs {lo hi : Nat} (h : ∀ a, lo ≤ a → a < hi → p a) (s : State) : s.Stores (s.resetRegs lo hi) p :=
  ⟨rfl, fun a ha => s.reg_resetRegs_ne (by by_contra hc; exact ha (h a (by omega) (by omega))),
    fun hw => State.regsWf_resetRegs hw lo hi⟩

theorem State.Stores.forEach {α : Type} {f : State → α → State} {l : List α}
    (hf : ∀ x ∈ l, ∀ s : State, s.Stores (f s x) p) (s : State) : s.Stores (s.forEach l f) p := by
  induction l generalizing s with
  | nil => exact .rfl_ s p
  | cons x l ih => exact (hf x List.mem_cons_self s).trans (ih (fun y hy => hf y (List.mem_cons_of_mem _ hy)) _)

/-- Stores at addresses that differ from each other each read back. -/
theorem State.reg_forEach_setReg {α : Type} {g : α → Nat} {f : α → W64} {l : List α} (hl : l.Pairwise fun x y => g x ≠ g y)
    (h : s.regsWf = true) {x : α} (hx : x ∈ l) : (s.forEach l fun s y => s.setReg (g y) (f y)).reg (g x) = f x := by
  induction l generalizing s with
  | nil => exact absurd hx List.not_mem_nil
  | cons y l ih =>
    obtain ⟨hy, hl⟩ := List.pairwise_cons.1 hl
    obtain rfl | hx := List.mem_cons.1 hx
    · have k : (s.setReg (g x) (f x)).Stores ((s.setReg (g x) (f x)).forEach l fun s y => s.setReg (g y) (f y)) (· ≠ g x) :=
        .forEach (fun z hz s => .setReg (p := (· ≠ g x)) (hy z hz).symm s _) _
      exact (k.apart _ (not_not_intro rfl)).trans (s.reg_setReg (State.krising_of_regsWf h) _ _)
    · exact ih hl (s.regsWf_setReg h _ _) hx

/-! ## Loads (R414) -/

/-- The addresses of a bank. -/
def inBank (fam b a : Nat) : Prop := bankBase fam b ≤ a ∧ a < bankBase fam b + bankSize fam

theorem State.Stores.clearBank (s : State) (fam b : Nat) : s.Stores (s.clearBank fam b) (inBank fam b) := by
  refine (State.Stores.resetRegs (fun _ h k => ⟨h, k⟩) s).trans (.forEach (fun w hw s => .setReg ?_ s _) _)
  rcases fam with _ | _ | fam
  · exact absurd hw List.not_mem_nil
  · obtain ⟨i, hi, rfl⟩ := List.mem_map.1 hw
    have := List.mem_range.1 hi
    simp only [inBank, bankBase, bankSize, R.PORT_TABLE.addr]
    omega
  · exact absurd hw List.not_mem_nil

/-- A cell record stores the defined bits of its two words. -/
theorem State.putRec_cell {rc : List Byte} (h : field rc 2 1 = 0) (s : State) (b : Nat) :
    s.putRec 0 b rc =
      (s.setReg (R.CELL0.addr b (field rc 0 2))
          (BitVec.ofNat 64 (definedBits (R.CELL0.addr b (field rc 0 2)) (field rc 8 8)))).setReg
        (R.CELL0.addr b (field rc 0 2) + 8)
        (BitVec.ofNat 64 (definedBits (R.CELL0.addr b (field rc 0 2) + 8) (field rc 16 8))) := if_pos h

/-- A core record stores the defined bits of its word. -/
theorem State.putRec_core {rc : List Byte} (h : field rc 2 1 ≠ 0) (s : State) (b : Nat) :
    s.putRec 0 b rc =
      s.setReg (R.CORE_ENTRY.addr b (field rc 0 2))
        (BitVec.ofNat 64 (definedBits (R.CORE_ENTRY.addr b (field rc 0 2)) (field rc 8 8))) := if_neg h

/-- A window record stores the defined bits of its word. -/
theorem State.putRec_window {rc : List Byte} (h : field rc 2 1 = 1) (s : State) (b : Nat) :
    s.putRec 1 b rc =
      s.setReg (R.FAR_WINDOW.addr b (field rc 0 2))
        (BitVec.ofNat 64 (definedBits (R.FAR_WINDOW.addr b (field rc 0 2)) (field rc 8 8))) := by
  simp [State.putRec, h]

/-- A group record stores its first word, with the members counted, and its member words. -/
theorem State.putRec_group (s : State) (b : Nat) (rc : List Byte) :
    s.putRec 2 b rc =
      (s.setReg (R.GROUP0.addr b (field rc 0 2)) (BitVec.ofNat 64 (splice (field rc 8 8) 18 11
        ((List.range 6).foldl (fun n k => n + popCount (field rc (8 + 8 * (k + 1)) 8) 64) 0)))).forEach (List.range 6) fun s k =>
          s.setReg (R.GROUP0.addr b (field rc 0 2) + 8 * (k + 1)) (BitVec.ofNat 64 (field rc (8 + 8 * (k + 1)) 8)) := rfl

/-- A record that lies in range goes into its bank. -/
theorem State.Stores.putRec {fam : Nat} {rc : List Byte} (h : recOk fam rc = true) (s : State) (b : Nat) :
    s.Stores (s.putRec fam b rc) (inBank fam b) := by
  rcases fam with _ | _ | fam
  · simp only [recOk, Bool.or_eq_true, Bool.and_eq_true, beq_iff_eq, decide_eq_true_eq] at h
    by_cases ht : field rc 2 1 = 0
    · rw [State.putRec_cell ht]
      refine (State.Stores.setReg ?_ s _).trans (.setReg ?_ _ _) <;>
        (simp only [inBank, bankBase, bankSize, R.CELL0.addr]; omega)
    · rw [State.putRec_core ht]
      refine .setReg ?_ s _
      simp only [inBank, bankBase, bankSize, R.CORE_ENTRY.addr]
      omega
  · simp only [recOk, Bool.or_eq_true, Bool.and_eq_true, beq_iff_eq, decide_eq_true_eq] at h
    refine State.Stores.setReg ?_ s _
    simp only [inBank, bankBase, bankSize, R.PORT_TABLE.addr, R.FAR_WINDOW.addr]
    split <;> omega
  · have h : field rc 0 2 < 4096 := by simpa [recOk] using h
    refine (State.Stores.setReg ?_ s _).trans (.forEach (fun k hk s => .setReg ?_ s _) _)
    · simp only [inBank, bankBase, bankSize, R.GROUP0.addr]
      omega
    · have := List.mem_range.1 hk
      simp only [inBank, bankBase, bankSize, R.GROUP0.addr]
      omega

/-- A load that is well formed changes the inactive bank alone. -/
theorem State.Stores.doLoad {fam : Nat} {b : List Byte} (h : loadOk fam b = true) (s : State) :
    s.Stores (s.doLoad fam b) (inBank fam (s.inactiveBank fam)) := by
  have hr : ∀ rc ∈ recsOf fam b, recOk fam rc = true := List.all_eq_true.1 (Bool.and_eq_true_iff.1 h).2
  have hc : s.Stores (s.when (bitAt (field b 4 1) 0) (·.clearBank fam (s.inactiveBank fam))) (inBank fam (s.inactiveBank fam)) := by
    unfold State.when
    split
    · exact .clearBank s fam _
    · exact .rfl_ s _
  exact hc.trans (.forEach (fun rc hrc s => .putRec (hr rc hrc) s _) _)

theorem State.doLoad_one {fam : Nat} {b rc : List Byte} (h : recsOf fam b = [rc]) (hc : bitAt (field b 4 1) 0 = false) (s : State) :
    s.doLoad fam b = s.putRec fam (s.inactiveBank fam) rc := by
  simp [State.doLoad, State.when, State.forEach, h, hc]

theorem State.doLoad_clear {fam : Nat} {b : List Byte} (h : recsOf fam b = []) (hc : bitAt (field b 4 1) 0 = true) (s : State) :
    s.doLoad fam b = s.clearBank fam (s.inactiveBank fam) := by
  simp [State.doLoad, State.when, State.forEach, h, hc]

/-- A group record stores its member words. -/
theorem State.reg_putRec_group (h : s.regsWf = true) (rc : List Byte) (b : Nat) {k : Nat} (hk : k < 6) :
    (s.putRec 2 b rc).reg (R.GROUP0.addr b (field rc 0 2) + 8 * (k + 1)) = BitVec.ofNat 64 (field rc (8 + 8 * (k + 1)) 8) :=
  State.reg_forEach_setReg (g := fun k => R.GROUP0.addr b (field rc 0 2) + 8 * (k + 1))
    (f := fun k => BitVec.ofNat 64 (field rc (8 + 8 * (k + 1)) 8))
    (List.nodup_range.imp fun hne => by omega) (s.regsWf_setReg h _ _) (List.mem_range.2 hk)

theorem leNat_lt (l : List Byte) : leNat l < 256 ^ l.length := by
  induction l with
  | nil => simp [leNat]
  | cons b l ih =>
    have hb : b.toNat < 256 := b.isLt
    rw [leNat, List.length_cons, pow_succ']
    omega

theorem field_lt (l : List Byte) (o n : Nat) : field l o n < 256 ^ n := by
  simpa [field] using leNat_lt (bytesAt l o n)

/-- The sled counts the members of a group record. -/
theorem State.members_putRec_group (h : s.regsWf = true) (rc : List Byte) (b : Nat) :
    bitsOf ((s.putRec 2 b rc).reg (R.GROUP0.addr b (field rc 0 2))).toNat 18 11 =
      ((List.range 6).map fun k => popCount (field rc (8 + 8 * (k + 1)) 8) 64).sum % 256 := by
  have hw : field rc 8 8 < 2 ^ 64 := field_lt rc _ 8
  have k (v : W64) : (s.setReg (R.GROUP0.addr b (field rc 0 2)) v).Stores
      ((s.setReg (R.GROUP0.addr b (field rc 0 2)) v).forEach (List.range 6) fun s k =>
        s.setReg (R.GROUP0.addr b (field rc 0 2) + 8 * (k + 1)) (BitVec.ofNat 64 (field rc (8 + 8 * (k + 1)) 8)))
      (· ≠ R.GROUP0.addr b (field rc 0 2)) :=
    .forEach (fun j _ s => .setReg (by omega) s _) _
  rw [State.putRec_group, (k _).apart _ (not_not_intro rfl), s.reg_setReg (State.krising_of_regsWf h), BitVec.toNat_ofNat,
    Nat.mod_eq_of_lt (splice_lt (by decide) hw (by decide)), bitsOf_splice_self _ _ _ _ (by decide), List.sum_eq_foldl,
    List.foldl_map]
  rfl

/-- A cleared timetable bank has no valid entry. -/
theorem State.entries_clearBank (s : State) (b : Nat) {t : State} (h : t.regs = (s.clearBank 0 b).regs) :
    t.cellEntries b = [] ∧ t.coreEntries b = [] := by
  have e {lo hi : Nat} (hlo : bankBase 0 b ≤ lo) (hhi : hi ≤ bankBase 0 b + 0x48000) : t.regsIn lo hi = [] := by
    rw [State.regsIn, h]
    exact State.regsIn_resetRegs hlo hhi s
  constructor
  · simp [State.cellEntries, e (lo := bankBase 0 b) (hi := bankBase 0 b + 0x40000) le_rfl (by omega)]
  · simp [State.coreEntries, e (lo := bankBase 0 b + 0x40000) (hi := bankBase 0 b + 0x40000 + 0x8000) (by omega) (by omega)]

/-! ## Copies (R60) -/

/-- A copy changes the bank it goes to alone. -/
theorem State.Stores.copyBank (s : State) (fam src : Nat) : s.Stores (s.copyBank fam src) (inBank fam (1 - src)) := by
  refine (State.Stores.resetRegs (fun _ h k => ⟨h, k⟩) s).trans (.forEach (fun e he s => .setReg ?_ s _) _)
  have := (List.mem_filter.1 he).2
  simp only [Bool.and_eq_true, decide_eq_true_eq] at this
  exact ⟨by omega, by omega⟩

/-- A value that a table lists under a key is the value of an entry. -/
theorem mem_of_kget {α : Type} {m : KV α} {k : Nat} {v : α} (h : kget m k = some v) : (k, v) ∈ m := by
  induction m with
  | nil => exact absurd h (by simp [kget])
  | cons e m ih =>
    obtain ⟨a, w⟩ := e
    by_cases ha : a = k
    · obtain rfl : w = v := by simpa [kget, ha] using h
      exact ha ▸ List.mem_cons_self
    · exact List.mem_cons_of_mem _ (ih (by simpa [kget, ha] using h))

/-- A key under which a table has an entry reads some value. -/
theorem exists_kget_of_mem {α : Type} {m : KV α} {e : Nat × α} (h : e ∈ m) : ∃ v, kget m e.1 = some v := by
  induction m with
  | nil => exact absurd h List.not_mem_nil
  | cons f m ih =>
    obtain ⟨a, w⟩ := f
    by_cases ha : a = e.1
    · exact ⟨w, by simp [kget, ha]⟩
    · obtain rfl | h := List.mem_cons.1 h
      · exact absurd rfl ha
      · simpa [kget, ha] using ih h

/-- A register that the source bank lists reads back from the copy. -/
theorem State.reg_copyBank (h : s.regsWf = true) {fam src o : Nat} {v : W64} (ho : o < bankSize fam)
    (hv : kget s.regs (bankBase fam src + o) = some v) : (s.copyBank fam src).reg (bankBase fam (1 - src) + o) = v := by
  have hl : (s.regsIn (bankBase fam src) (bankBase fam src + bankSize fam)).Pairwise fun x y =>
      bankBase fam (1 - src) + (x.1 - bankBase fam src) ≠ bankBase fam (1 - src) + (y.1 - bankBase fam src) := by
    refine (((krising_iff _).1 (State.krising_of_regsWf h)).filter _).imp_of_mem fun hx hy hlt => ?_
    have hx := (List.mem_filter.1 hx).2
    simp only [Bool.and_eq_true, decide_eq_true_eq] at hx
    omega
  have hm : (bankBase fam src + o, v) ∈ s.regsIn (bankBase fam src) (bankBase fam src + bankSize fam) :=
    List.mem_filter.2 ⟨mem_of_kget hv, by simpa using ho⟩
  have := State.reg_forEach_setReg (f := fun e : Nat × W64 => e.2) hl
    (State.regsWf_resetRegs h (bankBase fam (1 - src)) (bankBase fam (1 - src) + bankSize fam)) hm
  rwa [Nat.add_sub_cancel_left] at this

/-- A register that the source bank does not list reads its reset value in the copy. -/
theorem State.reg_copyBank_none {fam src o : Nat} (ho : o < bankSize fam) (hv : kget s.regs (bankBase fam src + o) = none) :
    (s.copyBank fam src).reg (bankBase fam (1 - src) + o) = regReset s.boot.latched (bankBase fam (1 - src) + o) := by
  have hn : ∀ e ∈ s.regsIn (bankBase fam src) (bankBase fam src + bankSize fam),
      bankBase fam (1 - src) + (e.1 - bankBase fam src) ≠ bankBase fam (1 - src) + o := by
    intro e he hc
    obtain ⟨he, hr⟩ := List.mem_filter.1 he
    simp only [Bool.and_eq_true, decide_eq_true_eq] at hr
    obtain ⟨w, hw⟩ := exists_kget_of_mem he
    rw [show e.1 = bankBase fam src + o by omega, hv] at hw
    cases hw
  have k : (s.resetRegs (bankBase fam (1 - src)) (bankBase fam (1 - src) + bankSize fam)).Stores (s.copyBank fam src)
      (· ≠ bankBase fam (1 - src) + o) := .forEach (fun e he s => .setReg (p := (· ≠ bankBase fam (1 - src) + o)) (hn e he) s _) _
  rw [k.apart _ (not_not_intro rfl), State.reg_resetRegs (by omega) (by omega)]

end Sys2Proof.Machine
end

/-! # Swaps of banks -/
section
namespace Sys2Proof.Machine

open Sys2Proof.Laws

variable {s t u : State}

/-! ## The swap of a family and its fields -/

@[simp] theorem State.swapSt_setSwapSt (s : State) (fam : Nat) (x : SwapSt) : (s.setSwapSt fam x).swapSt fam = x := by
  rcases fam with _ | _ | fam <;> rfl

@[simp] theorem State.setSwapSt_setSwapSt (s : State) (fam : Nat) (x y : SwapSt) :
    (s.setSwapSt fam x).setSwapSt fam y = s.setSwapSt fam y := by rcases fam with _ | _ | fam <;> rfl

/-- Storing a swap changes the tables' own records alone. -/
theorem State.setSwapSt_frame (s : State) (fam : Nat) (x : SwapSt) :
    s.setSwapSt fam x = { s with tt := (s.setSwapSt fam x).tt, sg := (s.setSwapSt fam x).sg, rd := (s.setSwapSt fam x).rd } := by
  rcases fam with _ | _ | fam <;> rfl

/-- Only registers and the tables' own records differ between two states. -/
def State.TablesOnly (s t : State) : Prop := t = { s with regs := t.regs, tt := t.tt, sg := t.sg, rd := t.rd }

theorem State.TablesOnly.trans (h : s.TablesOnly t) (k : t.TablesOnly u) : s.TablesOnly u := by
  unfold State.TablesOnly at *
  exact k.trans (by rw [h])

theorem State.setSwapSt_tablesOnly (s : State) (fam : Nat) (x : SwapSt) : s.TablesOnly (s.setSwapSt fam x) := by
  rcases fam with _ | _ | fam <;> rfl

theorem State.fset_tablesOnly (s : State) (f : Fld) (v : Nat) : s.TablesOnly (s.fset f v) := rfl

@[simp] theorem State.setSwapSt_regs (s : State) (fam : Nat) (x : SwapSt) : (s.setSwapSt fam x).regs = s.regs := by
  rw [s.setSwapSt_frame]

@[simp] theorem State.setSwapSt_mem (s : State) (fam : Nat) (x : SwapSt) : (s.setSwapSt fam x).mem = s.mem := by
  rw [s.setSwapSt_frame]

@[simp] theorem State.setSwapSt_host (s : State) (fam : Nat) (x : SwapSt) : (s.setSwapSt fam x).host = s.host := by
  rw [s.setSwapSt_frame]

@[simp] theorem State.fget_setSwapSt (s : State) (fam : Nat) (x : SwapSt) (f : Fld) : (s.setSwapSt fam x).fget f = s.fget f := by
  rw [s.setSwapSt_frame]
  rfl

@[simp] theorem State.reg_setSwapSt (s : State) (fam : Nat) (x : SwapSt) (a : Nat) : (s.setSwapSt fam x).reg a = s.reg a := by
  rw [s.setSwapSt_frame]
  rfl

@[simp] theorem State.regsWf_setSwapSt (s : State) (fam : Nat) (x : SwapSt) : (s.setSwapSt fam x).regsWf = s.regsWf := by
  rw [s.setSwapSt_frame]
  rfl

theorem State.swapSt_congr (fam : Nat) (ht : t.tt = s.tt) (hs : t.sg = s.sg) (hr : t.rd = s.rd) : t.swapSt fam = s.swapSt fam := by
  unfold State.swapSt
  rw [ht, hs, hr]

@[simp] theorem State.swapSt_fset (s : State) (f : Fld) (v fam : Nat) : (s.fset f v).swapSt fam = s.swapSt fam :=
  State.swapSt_congr fam rfl rfl rfl

@[simp] theorem State.swapSt_tableDirty (s : State) (x fam : Nat) : (s.tableDirty x).swapSt fam = s.swapSt fam :=
  State.swapSt_congr fam rfl rfl rfl

theorem State.Replies.swapSt_eq (h : s.Replies t) (fam : Nat) : t.swapSt fam = s.swapSt fam :=
  State.swapSt_congr fam (by rw [h.frame]) (by rw [h.frame]) (by rw [h.frame])

theorem State.Replies.mem_eq (h : s.Replies t) : t.mem = s.mem := by rw [h.frame]

theorem State.Replies.tt_eq (h : s.Replies t) : t.tt = s.tt := by rw [h.frame]

/-- The fields of a family's banks lie in the bits of their register. -/
theorem bankFlds_fit (fam : Nat) : (bankActiveFld fam).lo ≤ (bankActiveFld fam).hi + 1 ∧ (bankActiveFld fam).hi < 64 ∧
    (bankStateFld fam).lo ≤ (bankStateFld fam).hi + 1 ∧ (bankStateFld fam).hi < 64 := by
  rcases fam with _ | _ | fam <;> simp [bankActiveFld, bankStateFld]

theorem activeFld_apart (fam : Nat) : Apart (bankStateFld fam) (bankActiveFld fam) := by
  rcases fam with _ | _ | fam <;> simp [Apart, bankActiveFld, bankStateFld]

/-- Storing the state of a family's inactive bank. -/
theorem State.bankState_fset (h : s.regsWf = true) (fam : Nat) {v : Nat} (hv : v < 4) :
    (s.fset (bankStateFld fam) v).bankState fam = v := by
  obtain ⟨-, -, hl, hh⟩ := bankFlds_fit fam
  rw [State.bankState, s.fget_fset (State.krising_of_regsWf h) _ _ hl hh]
  rcases fam with _ | _ | fam <;> exact Nat.mod_eq_of_lt hv

/-- Storing the state of a family's inactive bank leaves the active bank as it was. -/
theorem State.activeBank_fset_state (h : s.regsWf = true) (fam v : Nat) :
    (s.fset (bankStateFld fam) v).activeBank fam = s.activeBank fam := by
  obtain ⟨-, -, hl, hh⟩ := bankFlds_fit fam
  exact State.fget_fset_of_apart h hl hh (activeFld_apart fam) v

/-- The frame of a swap is a register of its own. -/
theorem swapFrame_addr_ne (fam : Nat) :
    (bankActiveFld fam).addr ≠ R.TB_SWAP_FRAME.addr ∧ (bankStateFld fam).addr ≠ R.TB_SWAP_FRAME.addr := by
  rcases fam with _ | _ | fam <;> simp [bankActiveFld, bankStateFld]

/-! ## Completion -/

/-- Completing a command changes its tag, and sends a notice where one was asked for (R408). -/
theorem State.Replies.complete (s : State) (owner tag st pr : Nat) (b : List Byte) : s.Replies (s.complete owner tag st pr b) := by
  unfold State.complete
  split
  · exact .rfl_ s
  · split
    · exact .rfl_ s
    · dsimp only
      split
      · exact (State.Replies.updTag s _ _ _).trans (.sendReply _ _ _ _ _ _)
      · exact .updTag s _ _ _

/-- A command that waited is done once it completes (R408). -/
theorem State.completed_complete (h : u.host = s.host) (owner tag st pr : Nat) (b : List Byte) :
    Completed s (u.complete owner tag st pr b) owner tag st pr b := by
  rintro ⟨x, hx, hd⟩
  have hx : u.findTag owner tag = some x := by rwa [State.findTag, h]
  have hu := State.findTag_updTag hx
    (f := fun x => { x with done := true, status := st, progress := pr, result := b, delivered := x.notify })
    (by exact fun _ => ⟨rfl, rfl⟩)
  refine ⟨{ x with done := true, status := st, progress := pr, result := b, delivered := x.notify }, ?_, rfl, rfl, rfl, rfl⟩
  simp only [State.complete, hx, hd, Bool.false_eq_true, if_false]
  split
  · rw [State.reply, State.findTag_sendReply]
    exact hu
  · exact hu

/-! ## The request of a swap (step 2 of R60) -/

/-- The timetable's swap is held while it is checked. -/
def State.checkingSwap (s : State) (r : CmdReq) : State :=
  { s with tt := { s.tt with swap := { s.tt.swap with
    checking := some { n := r.arg, owner := r.owner, tag := r.tag, got := s.now } } } }

theorem State.swapRequest_checks {r : CmdReq} (hd : s.drainRefusal true = none) (hb : s.bankBusy 0 = false)
    (hn : s.now + 16 ≤ r.arg) : s.swapRequest 0 r = (s.checkingSwap r).pend r r.arg := by
  simp only [State.swapRequest, beq_self_eq_true, hd, hb, Bool.false_eq_true, if_false]
  exact if_neg (by omega)

/-- A command that begins changes the control processor's tags alone. -/
theorem State.begin_frame (s : State) (r : CmdReq) : ∃ x, s.begin r = { s with host := x } :=
  ⟨(s.begin r).host, by unfold State.begin; split <;> rfl⟩

/-! ## The check of a swap (step 2 of R60) -/

theorem State.swapCheckDone_refused {bank st pr : Nat} {q : SwapReq} (hc : (s.swapSt bank).checking = some q)
    (hk : s.checkBank bank q.n = some (st, pr)) :
    s.swapCheckDone bank = (s.setSwapSt bank { s.swapSt bank with checking := none }).complete q.owner q.tag st pr [] := by
  simp only [State.swapCheckDone, hc, hk]

theorem State.swapCheckDone_armed {bank : Nat} {q : SwapReq} (hc : (s.swapSt bank).checking = some q)
    (hk : s.checkBank bank q.n = none) :
    s.swapCheckDone bank =
      ((s.setSwapSt bank { s.swapSt bank with checking := none, armed := some q }).fset (bankStateFld bank) 1).when (bank == 0)
        (·.fset R.TB_SWAP_FRAME.FRAME q.n) := by
  simp only [State.swapCheckDone, hc, hk, State.swapSt_setSwapSt, State.setSwapSt_setSwapSt]

/-! ## The exchange of the banks (step 4 of R60) -/

/-- The banks of a family have exchanged roles; what a family does beside that follows. -/
def State.exchanged (s : State) (fam : Nat) : State :=
  let t := (s.fset (bankActiveFld fam) (1 - s.activeBank fam)).fset (bankStateFld fam) 2
  (t.setSwapSt fam { t.swapSt fam with armed := none, copyUntil := t.now + 4 }).tableDirty fam

theorem State.exchange_timetable (s : State) :
    s.exchange 0 = (((s.exchanged 0).fset R.TB_SWAP_FRAME.FRAME 0).grantCredits).bankFigures := rfl

theorem State.exchange_signpost (s : State) : s.exchange 1 = (s.exchanged 1).epochRise := rfl

theorem State.exchange_groups (s : State) : s.exchange 2 = s.exchanged 2 := rfl

/-- What every family's exchange does: the active bank, the inactive bank's state, the swap; hub memory and tags stand. -/
structure State.Exchanged (s t : State) (fam : Nat) : Prop where
  wf : t.regsWf = true
  active : t.activeBank fam = 1 - s.activeBank fam
  state : t.bankState fam = 2
  swap : t.swapSt fam = { s.swapSt fam with armed := none, copyUntil := s.now + 4 }
  mem : t.mem = s.mem
  host : t.host = s.host

theorem State.Exchanged.exchanged (h : s.regsWf = true) (fam : Nat) : s.Exchanged (s.exchanged fam) fam := by
  obtain ⟨hl, hh, -, -⟩ := bankFlds_fit fam
  have h1 := s.regsWf_fset h (bankActiveFld fam) (1 - s.activeBank fam)
  have ha : (s.fset (bankActiveFld fam) (1 - s.activeBank fam)).activeBank fam = 1 - s.activeBank fam := by
    rw [State.activeBank, s.fget_fset (State.krising_of_regsWf h) _ _ hl hh]
    rcases fam with _ | _ | fam <;> exact Nat.mod_eq_of_lt (Nat.lt_succ_of_le (Nat.sub_le _ _))
  unfold State.exchanged
  extract_lets v
  have hw : v.regsWf = true := State.regsWf_fset _ h1 _ _
  have hv : v.activeBank fam = 1 - s.activeBank fam := (State.activeBank_fset_state h1 fam 2).trans ha
  have hs : v.bankState fam = 2 := State.bankState_fset h1 fam (by decide)
  have hx : v.swapSt fam = s.swapSt fam := by simp only [v, State.swapSt_fset]
  have hn : v.now = s.now := rfl
  have hm : v.mem = s.mem := rfl
  have ho : v.host = s.host := rfl
  clear_value v
  exact ⟨(v.regsWf_setSwapSt fam _).trans hw, (v.fget_setSwapSt fam _ _).trans hv, (v.fget_setSwapSt fam _ _).trans hs,
    by rw [State.swapSt_tableDirty, State.swapSt_setSwapSt, hn, ← hx], (v.setSwapSt_mem fam _).trans hm,
    (v.setSwapSt_host fam _).trans ho⟩

theorem State.Exchanged.trans_regs {fam : Nat} (h : s.Exchanged t fam) (hw : u.regsWf = true)
    (ha : u.fget (bankActiveFld fam) = t.fget (bankActiveFld fam)) (hs : u.fget (bankStateFld fam) = t.fget (bankStateFld fam))
    (hx : u.swapSt fam = t.swapSt fam) (hm : u.mem = t.mem) (ho : u.host = t.host) : s.Exchanged u fam :=
  ⟨hw, ha.trans h.active, hs.trans h.state, hx.trans h.swap, hm.trans h.mem, ho.trans h.host⟩

/-- Storing a field apart from those of the banks. -/
theorem State.Exchanged.fset {fam : Nat} (h : s.Exchanged t fam) {f : Fld} (hl : f.lo ≤ f.hi + 1) (hh : f.hi < 64)
    (ha : Apart f (bankActiveFld fam)) (hs : Apart f (bankStateFld fam)) (v : Nat) : s.Exchanged (t.fset f v) fam :=
  h.trans_regs (t.regsWf_fset h.wf f v) (State.fget_fset_of_apart h.wf hl hh ha v) (State.fget_fset_of_apart h.wf hl hh hs v)
    (t.swapSt_fset f v fam) rfl rfl

theorem State.Exchanged.grantCredits (h : s.Exchanged t 0) : s.Exchanged t.grantCredits 0 :=
  h.trans_regs h.wf rfl rfl rfl rfl rfl

theorem State.Exchanged.bankFigures (h : s.Exchanged t 0) : s.Exchanged t.bankFigures 0 := by
  unfold State.bankFigures
  extract_lets
  exact ((h.fset (by decide) (by decide) (.inr (.inl (by decide))) (.inr (.inl (by decide))) _).fset (by decide) (by decide)
    (.inr (.inl (by decide))) (.inr (.inl (by decide))) _).fset (by decide) (by decide) (.inl (by decide)) (.inl (by decide)) _

theorem State.Exchanged.almAdd {fam : Nat} (h : s.Exchanged t fam) (a b c n : Nat) : s.Exchanged (t.almAdd a b c n) fam :=
  h.trans_regs h.wf rfl rfl (State.swapSt_congr fam rfl rfl rfl) rfl rfl

/-- Recording when the route epoch rose. -/
theorem State.Exchanged.epochAt (h : s.Exchanged t 1) (due : Bool) (n : Option Nat) :
    s.Exchanged { t with sg := { t.sg with epochDue := due, epochAt := n } } 1 :=
  h.trans_regs h.wf rfl rfl rfl rfl rfl

theorem State.Exchanged.epochRise (h : s.Exchanged t 1) : s.Exchanged t.epochRise 1 := by
  unfold State.epochRise
  split
  · exact h.epochAt false t.sg.epochAt
  · extract_lets v
    have k : s.Exchanged v 1 :=
      h.fset (f := R.SG_STATUS.EPOCH) (by decide) (by decide) (.inr (.inr (by decide))) (.inr (.inr (by decide))) _
    clear_value v
    exact (k.epochAt false (some v.now)).almAdd 2 0 60 1

/-- The banks of each family exchange their roles. -/
theorem State.Exchanged.exchange (h : s.regsWf = true) {fam : Nat} (hf : fam < 3) : s.Exchanged (s.exchange fam) fam := by
  have k := State.Exchanged.exchanged h fam
  interval_cases fam
  · rw [State.exchange_timetable]
    exact (k.fset (by decide) (by decide) (.inl (by decide)) (.inl (by decide)) 0).grantCredits.bankFigures
  · rw [State.exchange_signpost]
    exact k.epochRise
  · rw [State.exchange_groups]
    exact k

end Sys2Proof.Machine
end

/-! # What loads and swaps of tables do -/
section
namespace Sys2Proof.Machine

open Sys2Proof.Laws

variable {s t u : State}

/-! ## The entries of the timetable -/

/-- Setting a key outside a part of a table leaves that part as it was. -/
theorem filter_kset {α : Type} {p : Nat × α → Bool} {k : Nat} (hp : ∀ v, p (k, v) = false) (m : KV α) (v : α) :
    (kset m k v).filter p = m.filter p := by
  induction m with
  | nil => simp [kset, hp]
  | cons e m ih =>
    obtain ⟨a, w⟩ := e
    unfold kset
    split
    · simp [hp]
    · split
      · rename_i hk
        simp [← hk, hp]
      · simp [List.filter_cons, ih]

/-- Removing a key outside a part of a table leaves that part as it was. -/
theorem filter_kdel {α : Type} {p : Nat × α → Bool} {k : Nat} (hp : ∀ v, p (k, v) = false) (m : KV α) :
    (kdel m k).filter p = m.filter p := by
  induction m with
  | nil => rfl
  | cons e m ih =>
    obtain ⟨a, w⟩ := e
    unfold kdel
    split
    · rename_i hk
      simp [hk, hp]
    · simp [List.filter_cons, ih]

theorem State.regsIn_setReg {a lo hi : Nat} (h : a < lo ∨ hi ≤ a) (s : State) (v : W64) :
    (s.setReg a v).regsIn lo hi = s.regsIn lo hi := by
  have hp : ∀ v : W64, (decide (lo ≤ (a, v).1) && decide ((a, v).1 < hi)) = false := fun _ => by
    simp
    omega
  unfold State.setReg State.regsIn
  split
  · exact filter_kdel hp s.regs
  · exact filter_kset hp s.regs v

/-- The valid cell entries of a bank depend on the bank's registers, on which bank is active and on its bad words. -/
theorem State.cellEntries_congr {b : Nat} (hi : t.regsIn (bankBase 0 b) (bankBase 0 b + 0x40000) =
      s.regsIn (bankBase 0 b) (bankBase 0 b + 0x40000)) (hr : ∀ a, bankBase 0 b ≤ a → t.reg a = s.reg a)
    (ha : t.activeBank 0 = s.activeBank 0) (hx : t.swapSt 0 = s.swapSt 0) : t.cellEntries b = s.cellEntries b := by
  simp only [State.cellEntries, State.eccBad, hi, ha, hx]
  refine List.map_congr_left fun e he => ?_
  have he := (List.mem_filter.1 (List.mem_filter.1 he).1).2
  simp only [Bool.and_eq_true, decide_eq_true_eq] at he
  rw [hr _ (by omega)]

/-- A field below the banks, apart from the one that names the active bank, has no part in the entries. -/
theorem State.cellEntries_fset (h : s.regsWf = true) {f : Fld} (hl : f.lo ≤ f.hi + 1) (hh : f.hi < 64) (hf : f.addr < 0x4100000)
    (ha : Apart f (bankActiveFld 0)) (v b : Nat) : (s.fset f v).cellEntries b = s.cellEntries b := by
  have hb : 0x4100000 ≤ bankBase 0 b := Nat.le_add_right _ _
  exact State.cellEntries_congr (State.regsIn_setReg (.inl (hf.trans_le hb)) s _) (fun a k => s.reg_setReg_ne (by omega) _)
    (State.fget_fset_of_apart h hl hh ha v) (s.swapSt_fset f v 0)

theorem State.Replies.cellEntries_eq (h : s.Replies t) (b : Nat) : t.cellEntries b = s.cellEntries b :=
  State.cellEntries_congr (by rw [State.regsIn, State.regsIn, h.regs_eq]) (fun a _ => h.reg_eq a) (h.fget_eq _) (h.swapSt_eq 0)

theorem State.cellEntries_bankFigures (h : s.Exchanged t 0) (b : Nat) : t.bankFigures.cellEntries b = t.cellEntries b := by
  unfold State.bankFigures
  extract_lets
  have h1 := h.fset (f := R.TB_BANK.CELL_ENTRIES) (by decide) (by decide) (.inr (.inl (by decide))) (.inr (.inl (by decide)))
  have h2 := fun v => (h1 v).fset (f := R.TB_BANK.CORE_ENTRIES) (by decide) (by decide) (.inr (.inl (by decide)))
    (.inr (.inl (by decide)))
  rw [State.cellEntries_fset (h2 _ _).wf (by decide) (by decide) (by decide) (.inl (by decide)),
    State.cellEntries_fset (h1 _).wf (by decide) (by decide) (by decide) (.inr (.inl (by decide))),
    State.cellEntries_fset h.wf (by decide) (by decide) (by decide) (.inr (.inl (by decide)))]

theorem State.bankFigures_tt (s : State) : s.bankFigures.tt = s.tt := by
  unfold State.bankFigures
  extract_lets
  rw [State.fset_tt, State.fset_tt, State.fset_tt]

theorem State.grantCredits_credits (s : State) :
    s.grantCredits.tt.credits = (s.cellEntries (s.activeBank 0)).map fun e => (e.idx, e.cells) := rfl

/-- Credits have no part in the entries. -/
theorem State.cellEntries_credits (s : State) (l : KV Nat) (b : Nat) :
    ({ s with tt := { s.tt with credits := l } } : State).cellEntries b = s.cellEntries b :=
  State.cellEntries_congr rfl (fun _ _ => rfl) rfl rfl

theorem State.cellEntries_grantCredits (s : State) (b : Nat) : s.grantCredits.cellEntries b = s.cellEntries b :=
  s.cellEntries_credits _ b

/-- The credits of a timetable that becomes active are those of its entries (R56). -/
theorem State.credits_exchange (h : s.regsWf = true) : (s.exchange 0).tt.credits =
    ((s.exchange 0).cellEntries (1 - s.activeBank 0)).map fun e => (e.idx, e.cells) := by
  have k : s.Exchanged ((s.exchanged 0).fset R.TB_SWAP_FRAME.FRAME 0) 0 :=
    (State.Exchanged.exchanged h 0).fset (by decide) (by decide) (.inl (by decide)) (.inl (by decide)) 0
  rw [State.exchange_timetable, State.cellEntries_bankFigures k.grantCredits, State.bankFigures_tt, State.grantCredits_credits,
    State.cellEntries_grantCredits, ← k.active]

/-! ## Loads -/

/-- A load that is admitted, without COMMIT or of the timetable, stores its records and is answered. -/
theorem State.tableLoad_loads {fam : Nat} {r : CmdReq} (hb : s.bankBusy fam = false) (hc : fam = 0 ∨ r.commit = false)
    (hl : loadOk fam r.payload = true) : s.tableLoad fam r = (s.doLoad fam r.payload).answer r ST.OK 0 [] := by
  obtain rfl | hc := hc
  · simp [State.tableLoad, hb, hl, State.answerSt]
  · simp [State.tableLoad, hb, hl, hc, State.answerSt]

/-- A reply after a change of registers: the clause that the obligations end its frame with. -/
theorem State.Replies.eq_regs {g : RegFile} (h : ({ s with regs := g } : State).Replies t) :
    t = { s with regs := t.regs, host := t.host, out := t.out, sw := s.fed t } := by
  have hr : t.regs = g := h.regs_eq
  rw [hr]
  exact h.eq

/-- What a load that is admitted leaves: its tag is done, and beside replies it changes what doLoad changes. -/
theorem State.tableLoad_done {fam : Nat} {r : CmdReq} (hw : s.regsWf = true) (hb : s.bankBusy fam = false)
    (hc : fam = 0 ∨ r.commit = false) (hl : loadOk fam r.payload = true) :
    ∃ u t : State, (s.begin r).tableLoad fam r = t ∧ Done t r ST.OK 0 [] ∧
      t = { s with regs := t.regs, host := t.host, out := t.out, sw := s.fed t } ∧
      u.regsWf = true ∧ (∀ a, u.reg a = s.reg a) ∧ u.inactiveBank fam = s.inactiveBank fam ∧
      (u.doLoad fam r.payload).Replies t := by
  obtain ⟨x, hx⟩ := s.begin_frame r
  have htag := hx ▸ s.findTag_begin r
  rw [hx]
  have k := State.Stores.doLoad hl { s with host := x }
  refine ⟨{ s with host := x }, _, State.tableLoad_loads hb hc hl, State.done_answer ?_ _ _ _, ?_, hw, fun _ => rfl, rfl,
    .answer _ _ _ _ _⟩
  · rw [k.frame]
    exact htag
  · refine State.Replies.eq_regs (g := (({ s with host := x } : State).doLoad fam r.payload).regs) (.trans ?_ (.answer _ _ _ _ _))
    rw [k.frame]
    exact .of_host _ x

theorem timetableLoad_done {r : CmdReq} (hw : s.regsWf = true) (hb : s.bankBusy 0 = false) (hl : loadOk 0 r.payload = true) :
    Answers (.timetableLoad r) s fun t =>
      Done t r ST.OK 0 [] ∧ t = { s with regs := t.regs, host := t.host, out := t.out, sw := s.fed t } ∧
      (∀ a, (a < bankBase 0 (s.inactiveBank 0) ∨ bankBase 0 (s.inactiveBank 0) + bankSize 0 ≤ a) → t.reg a = s.reg a) ∧
      (∀ rc, recsOf 0 r.payload = [rc] → bitAt (field r.payload 4 1) 0 = false → field rc 2 1 = 0 →
        t.reg (R.CELL0.addr (s.inactiveBank 0) (field rc 0 2)) =
          BitVec.ofNat 64 (definedBits (R.CELL0.addr (s.inactiveBank 0) (field rc 0 2)) (field rc 8 8)) ∧
        t.reg (R.CELL0.addr (s.inactiveBank 0) (field rc 0 2) + 8) =
          BitVec.ofNat 64 (definedBits (R.CELL0.addr (s.inactiveBank 0) (field rc 0 2) + 8) (field rc 16 8)) ∧
        ∀ a, a ≠ R.CELL0.addr (s.inactiveBank 0) (field rc 0 2) →
          a ≠ R.CELL0.addr (s.inactiveBank 0) (field rc 0 2) + 8 → t.reg a = s.reg a) ∧
      (recsOf 0 r.payload = [] → bitAt (field r.payload 4 1) 0 = true →
        t.cellEntries (s.inactiveBank 0) = [] ∧ t.coreEntries (s.inactiveBank 0) = []) := by
  obtain ⟨u, t, e, hd, hf, hu, hr, hi, k⟩ := State.tableLoad_done hw hb (.inl rfl) hl
  refine ⟨t, congrArg Host.Outcome.next e, hd, hf, fun a ha => ?_, fun rc h1 hc ht => ?_, fun h1 hc => ?_⟩
  · rw [k.reg_eq, (State.Stores.doLoad hl u).apart a, hr]
    rw [hi]
    exact fun ⟨h1, h2⟩ => ha.elim (Nat.not_lt.2 h1) (Nat.not_le.2 h2)
  · rw [State.doLoad_one h1 hc, State.putRec_cell ht, hi] at k
    refine ⟨?_, ?_, fun a h1 h2 => ?_⟩
    · rw [k.reg_eq, State.reg_setReg_ne _ (by omega), u.reg_setReg (State.krising_of_regsWf hu)]
    · rw [k.reg_eq, State.reg_setReg _ (State.krising_of_regsWf (u.regsWf_setReg hu _ _))]
    · rw [k.reg_eq, State.reg_setReg_ne _ h2, State.reg_setReg_ne _ h1, hr]
  · rw [State.doLoad_clear h1 hc, hi] at k
    exact u.entries_clearBank _ k.regs_eq

theorem signpostLoad_done {r : CmdReq} (hw : s.regsWf = true) (hb : s.bankBusy 1 = false) (hm : r.commit = false)
    (hl : loadOk 1 r.payload = true) :
    Answers (.signpostLoad r) s fun t =>
      Done t r ST.OK 0 [] ∧ t = { s with regs := t.regs, host := t.host, out := t.out, sw := s.fed t } ∧
      (∀ rc, recsOf 1 r.payload = [rc] → bitAt (field r.payload 4 1) 0 = false → field rc 2 1 = 1 →
        t.reg (R.FAR_WINDOW.addr (s.inactiveBank 1) (field rc 0 2)) =
          BitVec.ofNat 64 (definedBits (R.FAR_WINDOW.addr (s.inactiveBank 1) (field rc 0 2)) (field rc 8 8)) ∧
        ∀ a, a ≠ R.FAR_WINDOW.addr (s.inactiveBank 1) (field rc 0 2) → t.reg a = s.reg a) := by
  obtain ⟨u, t, e, hd, hf, hu, hr, hi, k⟩ := State.tableLoad_done hw hb (.inr hm) hl
  refine ⟨t, congrArg Host.Outcome.next e, hd, hf, fun rc h1 hc ht => ?_⟩
  rw [State.doLoad_one h1 hc, State.putRec_window ht, hi] at k
  refine ⟨?_, fun a h1 => ?_⟩
  · rw [k.reg_eq, u.reg_setReg (State.krising_of_regsWf hu)]
  · rw [k.reg_eq, State.reg_setReg_ne _ h1, hr]

theorem groupLoad_done {r : CmdReq} (hw : s.regsWf = true) (hb : s.bankBusy 2 = false) (hm : r.commit = false)
    (hl : loadOk 2 r.payload = true) :
    Answers (.groupLoad r) s fun t =>
      Done t r ST.OK 0 [] ∧ t = { s with regs := t.regs, host := t.host, out := t.out, sw := s.fed t } ∧
      (∀ rc, recsOf 2 r.payload = [rc] → bitAt (field r.payload 4 1) 0 = false →
        (∀ k, k < 6 → t.reg (R.GROUP0.addr (s.inactiveBank 2) (field rc 0 2) + 8 * (k + 1)) =
          BitVec.ofNat 64 (field rc (8 + 8 * (k + 1)) 8)) ∧
        bitsOf (t.reg (R.GROUP0.addr (s.inactiveBank 2) (field rc 0 2))).toNat 18 11 =
          ((List.range 6).map fun k => popCount (field rc (8 + 8 * (k + 1)) 8) 64).sum % 256) := by
  obtain ⟨u, t, e, hd, hf, hu, hr, hi, k⟩ := State.tableLoad_done hw hb (.inr hm) hl
  refine ⟨t, congrArg Host.Outcome.next e, hd, hf, fun rc h1 hc => ?_⟩
  rw [State.doLoad_one h1 hc, hi] at k
  refine ⟨fun j hj => ?_, ?_⟩
  · rw [k.reg_eq, State.reg_putRec_group hu rc _ hj]
  · rw [k.reg_eq, State.members_putRec_group hu]

/-! ## Swaps -/

theorem timetableSwap_pends {r : CmdReq} (hf : Fresh s r) (hd : s.drainRefusal true = none) (hb : s.bankBusy 0 = false)
    (hn : s.now + 16 ≤ r.arg) :
    Answers (.timetableSwap r) s fun t => Pends s t r r.arg ∧
      t.tt.swap.checking = some { n := r.arg, owner := r.owner, tag := r.tag, got := s.now } ∧
      t = { s with tt := { s.tt with swap := { s.tt.swap with checking := t.tt.swap.checking } }
                   host := t.host, out := t.out, sw := s.fed t } := by
  obtain ⟨x, hx⟩ := s.begin_frame r
  obtain ⟨y, hy⟩ := s.findTag_begin r
  have hdone := State.done_begin hf hy
  rw [hx] at hy
  have e : exec (.timetableSwap r) s = .next (({ s with host := x } : State).swapRequest 0 r) := hx ▸ rfl
  rw [State.swapRequest_checks (s := { s with host := x }) hd hb hn] at e
  obtain ⟨t, e, hp, k⟩ : ∃ t, exec (.timetableSwap r) s = .next t ∧ Pends s t r r.arg ∧ (s.checkingSwap r).Replies t :=
    ⟨_, e, State.pends_pend (s := ({ s with host := x } : State).checkingSwap r) ⟨y, hy, hdone⟩ r.arg rfl,
      (State.Replies.of_host (s.checkingSwap r) x).trans (.pend _ r r.arg)⟩
  have hc : t.tt.swap.checking = some { n := r.arg, owner := r.owner, tag := r.tag, got := s.now } := by rw [k.tt_eq]; rfl
  refine ⟨t, e, hp, hc, ?_⟩
  rw [hc]
  exact k.eq

theorem swapCheckDone_arms {bank : Nat} {q : SwapReq} (hw : s.regsWf = true) (hb : bank < 3)
    (hc : (s.swapSt bank).checking = some q) (hk : s.checkBank bank q.n = none) :
    Answers (.swapCheckDone bank) s fun t =>
      t.bankState bank = 1 ∧ t.swapSt bank = { s.swapSt bank with checking := none, armed := some q } ∧
      t.activeBank bank = s.activeBank bank ∧
      (bank = 0 → t.fget R.TB_SWAP_FRAME.FRAME = q.n % 2 ^ 64) ∧
      t = { s with regs := t.regs, tt := t.tt, sg := t.sg, rd := t.rd } := by
  have e := State.swapCheckDone_armed hc hk
  obtain ⟨v, hv, hvw, hva, hvx, hvf⟩ : ∃ v, v = s.setSwapSt bank { s.swapSt bank with checking := none, armed := some q } ∧
      v.regsWf = true ∧ v.activeBank bank = s.activeBank bank ∧
      v.swapSt bank = { s.swapSt bank with checking := none, armed := some q } ∧ s.TablesOnly v :=
    ⟨_, rfl, (s.regsWf_setSwapSt _ _).trans hw, s.fget_setSwapSt _ _ _, s.swapSt_setSwapSt _ _, s.setSwapSt_tablesOnly _ _⟩
  rw [← hv] at e
  have hs1 := State.bankState_fset hvw bank (v := 1) (by decide)
  have ha1 := (State.activeBank_fset_state hvw bank 1).trans hva
  have hx1 := (v.swapSt_fset (bankStateFld bank) 1 bank).trans hvx
  have hf1 := hvf.trans (v.fset_tablesOnly (bankStateFld bank) 1)
  have hw1 := v.regsWf_fset hvw (bankStateFld bank) 1
  obtain ⟨ha, hs⟩ := swapFrame_addr_ne bank
  refine ⟨_, congrArg Host.Outcome.next ((if_pos hb).trans e), ?_⟩
  generalize v.fset (bankStateFld bank) 1 = w at *
  by_cases h0 : bank = 0
  · subst h0
    refine ⟨(w.fget_fset_ne hs _).trans hs1, (w.swapSt_fset _ _ 0).trans hx1, (w.fget_fset_ne ha _).trans ha1, fun _ =>
      w.fget_fset (State.krising_of_regsWf hw1) _ _ (by decide) (by decide), hf1.trans (w.fset_tablesOnly _ _)⟩
  · rw [show (bank == 0) = false by simpa using h0]
    exact ⟨hs1, hx1, ha1, fun h => absurd h h0, hf1⟩

theorem swapCheckDone_refuses {bank st pr : Nat} {q : SwapReq} (hb : bank < 3) (hc : (s.swapSt bank).checking = some q)
    (hk : s.checkBank bank q.n = some (st, pr)) :
    Answers (.swapCheckDone bank) s fun t =>
      t.swapSt bank = { s.swapSt bank with checking := none } ∧ Completed s t q.owner q.tag st pr [] ∧ t.regs = s.regs := by
  have k := State.Replies.complete (s.setSwapSt bank { s.swapSt bank with checking := none }) q.owner q.tag st pr []
  refine ⟨_, congrArg Host.Outcome.next ((if_pos hb).trans (State.swapCheckDone_refused hc hk)), ?_,
    State.completed_complete ?_ _ _ _ _ _, ?_⟩
  · rw [k.swapSt_eq, State.swapSt_setSwapSt]
  · exact s.setSwapSt_host bank _
  · rw [k.regs_eq, State.setSwapSt_regs]

theorem bankSwap_exchanges {bank : Nat} {q : SwapReq} (hw : s.regsWf = true) (hb : bank < 3) (hq : (s.swapSt bank).armed = some q)
    (hn : q.n ≤ s.now) (hd : bank = 2 → s.busySlots.any (fun n => s.groupDiffers (s.fget (R.RD_INST0.GROUP n))) = false) :
    Answers (.bankSwap bank) s fun t => t.activeBank bank = 1 - s.activeBank bank ∧ t.bankState bank = 2 ∧
      (t.swapSt bank).armed = none ∧ (t.swapSt bank).copyUntil = s.now + 4 ∧ Completed s t q.owner q.tag ST.OK 0 [] ∧
      (bank = 0 → t.tt.credits = (t.cellEntries (1 - s.activeBank 0)).map fun e => (e.idx, e.cells)) ∧ t.mem = s.mem := by
  have e : s.bankSwap bank = (s.exchange bank).complete q.owner q.tag ST.OK 0 [] := by
    simp only [State.bankSwap, hq]
    rw [if_neg (Nat.not_lt.2 hn), if_neg]
    rintro ⟨rfl, ha⟩
    exact absurd ha (by simp [hd rfl])
  have x := State.Exchanged.exchange hw hb
  have k := State.Replies.complete (s.exchange bank) q.owner q.tag ST.OK 0 []
  refine ⟨_, congrArg Host.Outcome.next ((if_pos hb).trans e), (k.fget_eq _).trans x.active, (k.fget_eq _).trans x.state, ?_, ?_,
    State.completed_complete x.host _ _ _ _ _, ?_, k.mem_eq.trans x.mem⟩
  · rw [k.swapSt_eq, x.swap]
  · rw [k.swapSt_eq, x.swap]
  · rintro rfl
    rw [k.tt_eq, k.cellEntries_eq, State.credits_exchange hw]

/-- The registers that say which bank is active lie outside the banks. -/
theorem bankFld_not_inBank (fam b : Nat) : ¬inBank fam b (bankActiveFld fam).addr ∧ ¬inBank fam b (bankStateFld fam).addr := by
  rcases fam with _ | _ | fam <;> simp [inBank, bankBase, bankActiveFld, bankStateFld, R.TB_BANK.addr, R.SG_STATUS.addr,
    R.RD_STATUS.addr] <;> omega

theorem bankCopyDone_copies {bank : Nat} (hw : s.regsWf = true) (hb : bank < 3) (hs : s.bankState bank = 2)
    (hu : (s.swapSt bank).copyUntil < s.now) :
    Answers (.bankCopyDone bank) s fun t => t.bankState bank = 0 ∧ t.activeBank bank = s.activeBank bank ∧
      (∀ o, o < bankSize bank →
        (∀ v, kget s.regs (bankBase bank (s.activeBank bank) + o) = some v →
          t.reg (bankBase bank (s.inactiveBank bank) + o) = v) ∧
        (kget s.regs (bankBase bank (s.activeBank bank) + o) = none →
          t.reg (bankBase bank (s.inactiveBank bank) + o) =
            regReset s.boot.latched (bankBase bank (s.inactiveBank bank) + o))) ∧ t.mem = s.mem := by
  have e : s.bankCopyDone bank = ((s.copyBank bank (s.activeBank bank)).setSwapSt bank { s.swapSt bank with
      eccBad := (s.swapSt bank).eccBad.filter fun a =>
        !(bankBase bank (s.inactiveBank bank) ≤ a && a < bankBase bank (s.inactiveBank bank) + bankSize bank) }).fset
      (bankStateFld bank) 0 := if_pos ⟨hs, hu⟩
  have k := State.Stores.copyBank s bank (s.activeBank bank)
  have hkw (x : SwapSt) := (State.regsWf_setSwapSt _ bank x).trans (k.wf hw)
  have hka : (s.copyBank bank (s.activeBank bank)).activeBank bank = s.activeBank bank := by
    rw [State.activeBank, State.fget, k.apart _ (bankFld_not_inBank bank _).1]
    rfl
  have hkm : (s.copyBank bank (s.activeBank bank)).mem = s.mem := by rw [k.frame]
  refine ⟨_, congrArg Host.Outcome.next ((if_pos hb).trans e), State.bankState_fset (hkw _) bank (by decide),
    (State.activeBank_fset_state (hkw _) bank 0).trans ((State.fget_setSwapSt _ _ _ _).trans hka),
    fun o ho => ?_, (State.setSwapSt_mem _ _ _).trans hkm⟩
  have hr (x : SwapSt) : (((s.copyBank bank (s.activeBank bank)).setSwapSt bank x).fset (bankStateFld bank) 0).reg
      (bankBase bank (s.inactiveBank bank) + o) =
        (s.copyBank bank (s.activeBank bank)).reg (bankBase bank (s.inactiveBank bank) + o) := by
    have hne : bankBase bank (s.inactiveBank bank) + o ≠ (bankStateFld bank).addr := fun h =>
      (bankFld_not_inBank bank (s.inactiveBank bank)).2 (h ▸ ⟨Nat.le_add_right _ _, Nat.add_lt_add_left ho _⟩)
    exact (State.reg_setReg_ne _ hne _).trans (State.reg_setSwapSt _ _ _ _)
  exact ⟨fun v hv => (hr _).trans (State.reg_copyBank hw ho hv), fun hv => (hr _).trans (State.reg_copyBank_none ho hv)⟩

/-- Settles O3: loads store what their records say in the inactive bank; a swap is held, armed, exchanged and copied. -/
theorem tablesChange : Obligations.TablesChange :=
  ⟨fun _ _ hw _ => ⟨timetableLoad_done hw, signpostLoad_done hw, groupLoad_done hw⟩, fun _ _ => timetableSwap_pends,
    fun _ _ _ => swapCheckDone_arms, fun _ _ _ _ _ => swapCheckDone_refuses, fun _ _ _ => bankSwap_exchanges,
    fun _ _ => bankCopyDone_copies⟩

end Sys2Proof.Machine
end

/-! # The latched straps -/
section
namespace Sys2Proof.Machine

variable {s t : State} {st : Straps} {chk : BootCheck}

theorem State.sled_of_bootReady (h : s.bootReady = true) : s.sled = SS.STANDBY := by
  simp only [State.bootReady, Bool.and_eq_true, beq_iff_eq] at h
  obtain ⟨⟨⟨⟨⟨⟨⟨hs, -⟩, -⟩, -⟩, -⟩, -⟩, -⟩, -⟩ := h
  exact hs

theorem State.latched_bootBegin (s : State) (st : Straps) : (s.bootBegin st).boot.latched = st := by
  unfold State.bootBegin
  extract_lets
  exact ((Evolves.refl _).when fun k => k.alert).latched

/-- BOOT_ENTRY changes nothing, or latches its operand as the sled leaves STANDBY (R20, R429). -/
theorem latched_execBootEntry (h : execBootEntry st chk s = .next t) :
    t = s ∨ s.sled = SS.STANDBY ∧ t.boot.latched = st := by
  obtain rfl := Host.Outcome.next.inj h
  by_cases hr : s.bootReady = true
  · refine .inr ⟨State.sled_of_bootReady hr, ?_⟩
    simp only [hr, Bool.not_true, Bool.false_eq_true, if_false]
    split
    · exact (Evolves.refl _).railFail.latched.trans (s.latched_bootBegin st)
    · exact (Evolves.refl _).bootFrom.latched.trans (s.latched_bootBegin st)
  · simp [hr]

/-- Settles O55: every command but BOOT_ENTRY keeps the latched straps, and BOOT_ENTRY latches in STANDBY alone. -/
theorem strapsStayLatched : Obligations.StrapsStayLatched := by
  intro i s t e hne
  obtain ⟨u, eu, k⟩ | ⟨st, chk, rfl⟩ := Evolves.exec i s
  · obtain rfl := Host.Outcome.next.inj (eu.symm.trans e)
    exact absurd k.latched hne
  · obtain rfl | ⟨hs, hl⟩ := latched_execBootEntry e
    · exact absurd rfl hne
    · exact ⟨hs, st, chk, rfl, hl⟩

end Sys2Proof.Machine
end

/-! # What fields hold over a chain of updates -/
section
namespace Sys2Proof.Machine

open Sys2Proof.Laws

variable {s t u : State} {f g : Fld} {v : Nat}

/-- f is a field of a register that can hold v. -/
abbrev Fld.Fits (f : Fld) (v : Nat) : Prop := f.lo ≤ f.hi ∧ f.hi < 64 ∧ v < 2 ^ (f.hi + 1 - f.lo)

/-- f is a field of a register and shares no bit with g; unlike Apart it is decided for given fields. -/
abbrev Fld.Beside (f g : Fld) : Prop := f.lo ≤ f.hi ∧ f.hi < 64 ∧ (g.addr ≠ f.addr ∨ g.hi < f.lo ∨ f.hi < g.lo)

/-- Storing a further field apart from those set before. -/
theorem Sets.fset {l : List (Fld × Nat)} (h : Sets s t l) (hw : t.regsWf = true) (hf : f.Fits v)
    (hd : ∀ e ∈ l, Apart f e.1) : Sets s (t.fset f v) ((f, v) :: l) := by
  obtain ⟨hl, hh, hv⟩ := hf
  obtain ⟨hset, hframe⟩ := State.sets_fset hw hl hh hv
  obtain ⟨kset, kframe⟩ := h
  refine ⟨fun e he => ?_, fun g hg => ?_⟩
  · obtain rfl | he := List.mem_cons.1 he
    · exact hset _ (List.mem_singleton_self _)
    · exact (hframe _ fun _ h1 => List.mem_singleton.1 h1 ▸ hd e he).trans (kset e he)
  · obtain ⟨hf, hg⟩ := List.forall_mem_cons.1 hg
    exact (hframe g fun _ h1 => List.mem_singleton.1 h1 ▸ hf).trans (kframe g hg)

theorem Sets.swap {a b : Fld × Nat} (h : Sets s t [a, b]) : Sets s t [b, a] := by
  obtain ⟨hset, hframe⟩ := h
  exact ⟨fun e he => hset e (by simpa [or_comm] using he), fun g hg => hframe g fun e he => hg e (by simpa [or_comm] using he)⟩

/-- A state whose register file is canonical and whose field g holds v. -/
structure State.Reads (t : State) (g : Fld) (v : Nat) : Prop where
  wf : t.regsWf = true
  eq : t.fget g = v

/-- A field that was stored holds what was stored. -/
theorem State.Reads.stored (h : t.regsWf = true) (g : Fld) (hg : g.Fits v) : (t.fset g v).Reads g v := by
  obtain ⟨hl, hh, hv⟩ := hg
  exact ⟨t.regsWf_fset h g v, (t.fget_fset (State.krising_of_regsWf h) g v (by omega) hh).trans (Nat.mod_eq_of_lt hv)⟩

/-- Storing a field apart from g. -/
theorem State.Reads.fset (h : t.Reads g v) {n : Nat} (hf : f.Beside g) : (t.fset f n).Reads g v := by
  obtain ⟨hl, hh, hd⟩ := hf
  exact ⟨t.regsWf_fset h.wf f n, (State.fget_fset_of_apart h.wf (by omega) hh hd n).trans h.eq⟩

/-- Storing a flag apart from g. -/
theorem State.Reads.fsetb (h : t.Reads g v) {b : Bool} (hf : f.Beside g) : (t.fsetb f b).Reads g v := h.fset hf

/-- An alert touches CP_ALERT alone. -/
theorem State.Reads.alert (h : t.Reads g v) {b : Nat} (hd : g.addr ≠ R.CP_ALERT.addr) : (t.alert b).Reads g v :=
  ⟨t.regsWf_setReg h.wf _ _, (congrArg (fun r : W64 => bitsOf r.toNat g.hi g.lo) (t.reg_setReg_ne hd _)).trans h.eq⟩

/-- An update that leaves the registers and the latched straps as they are. -/
theorem State.Reads.congr (h : t.Reads g v) (hr : u.regs = t.regs) (hb : u.boot.latched = t.boot.latched) : u.Reads g v := by
  obtain ⟨hw, he⟩ := h
  refine ⟨by rw [← hw, State.regsWf, State.regsWf, hr, hb], ?_⟩
  rw [← he, State.fget, State.fget, State.reg, State.reg, hr, hb]

theorem State.Reads.ite (h : t.Reads g v) (k : u.Reads g v) {c : Prop} [Decidable c] : (if c then t else u).Reads g v := by
  split
  · exact h
  · exact k

theorem State.Reads.forEach {α : Type} {l : List α} {f : State → α → State} (h : t.Reads g v)
    (hf : ∀ {u} a, u.Reads g v → (f u a).Reads g v) : (t.forEach l f).Reads g v :=
  State.forEach_keeps (P := fun u => u.Reads g v) (fun _ a => hf a) l t h

/-- What every turn of a loop keeps, and what the turn of an element brings about, hold of its elements at the end. -/
theorem State.forEach_reaches {α : Type} {I : State → Prop} {P : α → State → Prop} {f : State → α → State} {l : List α}
    (hI : ∀ s, ∀ x ∈ l, I s → I (f s x)) (hP : ∀ s, ∀ x ∈ l, I s → P x (f s x))
    (hk : ∀ s, ∀ x ∈ l, ∀ y, I s → P y s → P y (f s x)) (h : I s) :
    I (s.forEach l f) ∧ ∀ x, x ∈ l ∨ P x s → P x (s.forEach l f) := by
  induction l generalizing s with
  | nil => exact ⟨h, fun x hx => hx.resolve_left List.not_mem_nil⟩
  | cons y l ih =>
    have hy := List.mem_cons_self (a := y) (l := l)
    have hl {x} (hx : x ∈ l) : x ∈ y :: l := List.mem_cons_of_mem y hx
    obtain ⟨h1, h2⟩ := ih (fun s x hx => hI s x (hl hx)) (fun s x hx => hP s x (hl hx)) (fun s x hx => hk s x (hl hx)) (hI s y hy h)
    refine ⟨h1, fun x hx => h2 x ?_⟩
    obtain hx | hx := hx
    · obtain rfl | hx := List.mem_cons.1 hx
      · exact .inr (hP s x hy h)
      · exact .inl hx
    · exact .inr (hk s y hy x h hx)

end Sys2Proof.Machine
end

/-! # Updates that spare hub memory, the boot record and most registers -/
section
namespace Sys2Proof.Machine

open Sys2Proof.Laws

variable {s t u : State} {p q : Nat → Prop}

/-- Hub memory, the frame number, the boot record, the island's record and the instances stand from s to t, and so does every
register whose address does not satisfy p. -/
structure State.Spares (s t : State) (p : Nat → Prop) : Prop where
  apart : ∀ a, ¬p a → t.reg a = s.reg a
  wf : s.regsWf = true → t.regsWf = true
  mem : t.mem = s.mem
  frame : t.tb.frame = s.tb.frame
  boot : t.boot = s.boot
  si : t.si = s.si
  insts : t.rd.insts = s.rd.insts

theorem State.Spares.rfl_ (s : State) (p : Nat → Prop) : s.Spares s p := ⟨fun _ _ => rfl, id, rfl, rfl, rfl, rfl, rfl⟩

theorem State.Spares.trans (h : s.Spares t p) (k : t.Spares u p) : s.Spares u p :=
  ⟨fun a ha => (k.apart a ha).trans (h.apart a ha), k.wf ∘ h.wf, k.mem.trans h.mem, k.frame.trans h.frame, k.boot.trans h.boot,
    k.si.trans h.si, k.insts.trans h.insts⟩

theorem State.Spares.mono (h : s.Spares t p) (hp : ∀ a, p a → q a) : s.Spares t q :=
  { h with apart := fun a ha => h.apart a (ha ∘ hp a) }

theorem State.Spares.fget_eq (h : s.Spares t p) {f : Fld} (hf : ¬p f.addr) : t.fget f = s.fget f := by
  rw [State.fget, State.fget, h.apart _ hf]

theorem State.Spares.now_eq (h : s.Spares t p) : t.now = s.now := congrArg BitVec.toNat h.frame

theorem State.Spares.reads {g : Fld} {v : Nat} (h : s.Spares t p) (k : s.Reads g v) (hg : ¬p g.addr) : t.Reads g v :=
  ⟨h.wf k.wf, (h.fget_eq hg).trans k.eq⟩

/-- An update of the records that keeps what is spared of them. -/
theorem State.Spares.updRecords (h : s.Spares t p)
    {out pending tb tt ports sw sg tg eps rd hubs cores kern host vigil power al pat chip free}
    (hf : tb.frame = t.tb.frame) (hi : rd.insts = t.rd.insts) :
    s.Spares
      { regs := t.regs, mem := t.mem, out := out, pending := pending, tb := tb, tt := tt, ports := ports, sw := sw, sg := sg
        tg := tg, eps := eps, rd := rd, hubs := hubs, cores := cores, kern := kern, host := host, boot := t.boot, vigil := vigil
        power := power, si := t.si, al := al, pat := pat, chip := chip, free := free } p :=
  ⟨h.apart, h.wf, h.mem, hf.trans h.frame, h.boot, h.si, hi.trans h.insts⟩

/-- An update of other records. -/
theorem State.Spares.upd (h : s.Spares t p)
    {out pending tt ports sw sg tg eps hubs cores kern host vigil power al pat chip free} :
    s.Spares
      { regs := t.regs, mem := t.mem, out := out, pending := pending, tb := t.tb, tt := tt, ports := ports, sw := sw, sg := sg
        tg := tg, eps := eps, rd := t.rd, hubs := hubs, cores := cores, kern := kern, host := host, boot := t.boot, vigil := vigil
        power := power, si := t.si, al := al, pat := pat, chip := chip, free := free } p := h.updRecords rfl rfl

theorem State.Spares.setReg {a : Nat} {v : W64} (h : s.Spares t p) (ha : p a) : s.Spares (t.setReg a v) p :=
  ⟨fun b hb => (t.reg_setReg_ne (by rintro rfl; exact hb ha) v).trans (h.apart b hb), fun hw => t.regsWf_setReg (h.wf hw) a v,
    h.mem, h.frame, h.boot, h.si, h.insts⟩

theorem State.Spares.fset {f : Fld} {v : Nat} (h : s.Spares t p) (hf : p f.addr) : s.Spares (t.fset f v) p := h.setReg hf

theorem State.Spares.fsetb {f : Fld} {v : Bool} (h : s.Spares t p) (hf : p f.addr) : s.Spares (t.fsetb f v) p := h.fset hf

theorem State.Spares.fsat {f : Fld} {n : Nat} (h : s.Spares t p) (hf : p f.addr) : s.Spares (t.fsat f n) p := h.fset hf

theorem State.Spares.ite {c : Prop} [Decidable c] (h : s.Spares t p) (k : s.Spares u p) : s.Spares (if c then t else u) p := by
  split
  · exact h
  · exact k

theorem State.Spares.when {c : Bool} {f : State → State} (h : s.Spares t p) (hf : ∀ {u}, s.Spares u p → s.Spares (f u) p) :
    s.Spares (t.when c f) p := .ite (hf h) h

theorem State.Spares.forEach {α : Type} {l : List α} {f : State → α → State} (h : s.Spares t p)
    (hf : ∀ {u}, ∀ a ∈ l, s.Spares u p → s.Spares (f u a) p) : s.Spares (t.forEach l f) p := by
  induction l generalizing t with
  | nil => exact h
  | cons x l ih => exact ih (hf x List.mem_cons_self h) fun a ha => hf a (List.mem_cons_of_mem x ha)

theorem State.Spares.finc {f : Fld} {n : Nat} (h : s.Spares t p) (hf : p f.addr) : s.Spares (t.finc f n) p :=
  (h.fset hf).ite (h.fset hf).upd

theorem State.Spares.alert {b : Nat} (h : s.Spares t p) (hf : p R.CP_ALERT.addr) : s.Spares (t.alert b) p := (h.setReg hf).upd

theorem State.Spares.almAdd {a b c n : Nat} (h : s.Spares t p) : s.Spares (t.almAdd a b c n) p := h.upd

theorem State.Spares.almLow {a b c n : Nat} (h : s.Spares t p) : s.Spares (t.almLow a b c n) p := h.upd

theorem State.Spares.setPort {x : Nat} {y : PortSt} (h : s.Spares t p) : s.Spares (t.setPort x y) p := h.upd

/-! ## Sled states -/

theorem State.Spares.dropCache {e : Nat} (h : s.Spares t p) : s.Spares (t.dropCache e) p := h.upd

theorem State.Spares.recount (h : s.Spares t p) (hg : p R.SG_STATUS.addr) : s.Spares t.recount p :=
  h.ite ((h.fset hg).finc hg).upd

/-- The registers beside CP_STATE that entering a state may change. -/
def entryReg (a : Nat) : Prop := a = R.CP_ALERT.addr ∨ a = R.SG_STATUS.addr

/-- The state is entered in CP_STATE; what follows touches CP_ALERT and SG_STATUS alone (R428, R144). -/
theorem State.enterState_spares (s : State) (st : Nat) :
    ((s.fset R.CP_STATE.PREV_STATE s.sled).fset R.CP_STATE.STATE st).Spares (s.enterState st) entryReg := by
  refine .recount ?_ (.inr rfl)
  have h := State.Spares.rfl_ ((s.fset R.CP_STATE.PREV_STATE s.sled).fset R.CP_STATE.STATE st) entryReg
  dsimp only [State.takeState]
  split
  · exact ((h.when fun k => k.alert (.inl rfl)).almAdd.upd.when fun k => k.forEach fun _ _ k => k.dropCache).updRecords
      (by rfl) (by rfl)
  · exact (h.when fun k => k.alert (.inl rfl)).almAdd.upd.when fun k => k.forEach fun _ _ k => k.dropCache

theorem State.enterState_mem (s : State) (st : Nat) : (s.enterState st).mem = s.mem := (s.enterState_spares st).mem

theorem State.enterState_boot (s : State) (st : Nat) : (s.enterState st).boot = s.boot := (s.enterState_spares st).boot

theorem State.enterState_si (s : State) (st : Nat) : (s.enterState st).si = s.si := (s.enterState_spares st).si

theorem State.enterState_now (s : State) (st : Nat) : (s.enterState st).now = s.now := (s.enterState_spares st).now_eq

/-- CP_STATE is none of the registers that follow. -/
theorem not_entryReg_state : ¬entryReg R.CP_STATE.addr := by simp [entryReg]

/-- The state entered stands in STATE. -/
theorem State.reads_enterState (h : s.regsWf = true) {st : Nat} (hs : st < 16) :
    (s.enterState st).Reads R.CP_STATE.STATE st :=
  (s.enterState_spares st).reads (.stored (s.regsWf_fset h _ _) _ ⟨by decide, by decide, hs⟩) not_entryReg_state

/-- The state left stands in PREV_STATE. -/
theorem State.reads_enterState_prev (h : s.regsWf = true) (st : Nat) :
    (s.enterState st).Reads R.CP_STATE.PREV_STATE s.sled := by
  have h0 : (s.fset R.CP_STATE.PREV_STATE s.sled).Reads R.CP_STATE.PREV_STATE s.sled :=
    .stored h _ ⟨by decide, by decide, bitsOf_lt _ 3 0⟩
  exact (s.enterState_spares st).reads (h0.fset (by decide)) not_entryReg_state

/-- Every other field that neither an alert nor the count of differences touches stands. -/
theorem State.Reads.enterState {g : Fld} {v st : Nat} (h : s.Reads g v) (hg : ¬entryReg g.addr)
    (h1 : R.CP_STATE.PREV_STATE.Beside g) (h2 : R.CP_STATE.STATE.Beside g) :
    (s.enterState st).Reads g v :=
  (s.enterState_spares st).reads ((h.fset h1).fset h2) hg

/-! ## Ports that go DOWN -/

theorem State.Spares.leaveUp {x w : Nat} (h : s.Spares t p) (hx : p (R.SW_DROP_OUT.addr x)) : s.Spares (t.leaveUp x w) p :=
  (State.Spares.finc h.upd hx).almAdd

theorem State.Spares.setOutcome {x o : Nat} (h : s.Spares t p) (hx : p (R.SG_FOUND.addr x)) (hg : p R.SG_STATUS.addr) :
    s.Spares (t.setOutcome x o) p := by
  dsimp only [State.setOutcome]
  split
  · exact h
  · exact ((h.fset hx).when fun k => k.fsetb hg).upd

/-- Beside a port's STATE a change of its link state touches a count of the switch alone (R119). -/
theorem State.setLink_spares (s : State) (x st : Nat) (hx : x < 144 → p (R.SW_DROP_OUT.addr x)) :
    (s.fset (R.OP_PORT_STATUS.STATE x) st).Spares (s.setLink x st) p := by
  have h := State.Spares.rfl_ (s.fset (R.OP_PORT_STATUS.STATE x) st) p
  dsimp only [State.setLink]
  split
  · exact h
  · split
    · split
      · exact h.leaveUp (hx ‹_›)
      · exact h.upd
    · exact h.upd

theorem State.Spares.clearRuns {x : Nat} (h : s.Spares t p) (hx : ∀ k, k < 8 → p (R.OP_WL_BER.addr x k)) :
    s.Spares (t.clearRuns x) p :=
  h.forEach fun k hk u => u.ite ((u.fset (hx k (List.mem_range.1 hk))).fset (hx k (List.mem_range.1 hk)))

/-- A port's link is DOWN, and the fields of its status that tell of a link are cleared. -/
def State.unlinked (s : State) (x : Nat) : State :=
  ((((s.setLink x PS.DOWN).fset (R.OP_PORT_STATUS.WIDTH x) 0).fset (R.OP_PORT_STATUS.WL_WORKING x) 0).fset
    (R.OP_PORT_STATUS.PROTO_HOLD x) 0).fset (R.OP_PORT_STATUS.VERSION_HOLD x) 0

/-- What the records of a link held is forgotten: its far end, the runs of its wavelengths, its markers, its width changes. -/
def State.forgetLink (s : State) (x : Nat) : State :=
  let s := (s.setPort x { s.port x with far := none, forced := false, dueMaint := false, duePlace := false, sendQ := [],
                                        farErrors := [], prevRun := [], noLock := 0 }).clearRuns x
  { s with tb := { s.tb with realign := kdel s.tb.realign x, markers := kdel s.tb.markers x }
           tt := { s.tt with changes := s.tt.changes.filter (·.pos != chgPos x) } }

/-- A port of the sled loses its link: its status, its records, its place in the discovered map. -/
theorem State.unlink_eq (s : State) {x : Nat} (hx : x < 160) : s.unlink x =
    if ((s.unlinked x).forgetLink x).outcome x = OC.ACCEPTED_ABSENT then (s.unlinked x).forgetLink x
    else (((s.unlinked x).forgetLink x).setOutcome x OC.NOT_TRAINED).recount := if_neg (Nat.not_le.2 hx)

theorem State.Spares.forgetLink {x : Nat} (h : s.Spares t p) (hx : ∀ k, k < 8 → p (R.OP_WL_BER.addr x k)) :
    s.Spares (t.forgetLink x) p := (h.setPort.clearRuns hx).updRecords (by rfl) (by rfl)

/-- Beside its status that touches the runs of its wavelengths and its place in the discovered map. -/
theorem State.unlink_spares (s : State) {x : Nat} (hx : x < 160) (hw : ∀ k, k < 8 → p (R.OP_WL_BER.addr x k))
    (hf : p (R.SG_FOUND.addr x)) (hg : p R.SG_STATUS.addr) : (s.unlinked x).Spares (s.unlink x) p := by
  have h := (State.Spares.rfl_ (s.unlinked x) p).forgetLink hw
  rw [s.unlink_eq hx]
  exact h.ite ((h.setOutcome hf hg).recount hg)

theorem State.Spares.portDown {x : Nat} (h : s.Spares (t.unlink x) p) (k : s.Spares t p) : s.Spares (t.portDown x false) p := by
  dsimp only [State.portDown]
  split
  · exact k
  · exact h.almAdd.almLow

/-- The registers of links and of the discovered map, but for the states of other ports than x. -/
def linkReg (x a : Nat) : Prop := 0x1000000 ≤ a ∧ a < 0x6000000 ∧ ∀ y, y < 160 → y ≠ x → a ≠ R.OP_PORT_STATUS.addr y

theorem opBase_sled {x : Nat} (hx : x < 160) : opBase x = 0x1000000 + 0x1000 * x := if_pos hx

/-- The registers of a port of the sled are among those. -/
theorem linkReg_port {x o : Nat} (hx : x < 160) (ho : o < 0x1000) : linkReg x (opBase x + o) := by
  rw [opBase_sled hx]
  refine ⟨by omega, by omega, fun y hy hn => ?_⟩
  rw [R.OP_PORT_STATUS.addr, opBase_sled hy]
  omega

/-- So are those beyond the ports. -/
theorem linkReg_beyond {x a : Nat} (h : 0x1100000 ≤ a) (k : a < 0x6000000) : linkReg x a := by
  refine ⟨by omega, k, fun y hy _ => ?_⟩
  rw [R.OP_PORT_STATUS.addr, opBase_sled hy]
  omega

theorem linkReg_dropOut {x : Nat} (y : Nat) (hx : x < 160) : linkReg y (R.SW_DROP_OUT.addr x) :=
  linkReg_beyond (by simp only [R.SW_DROP_OUT.addr]; omega) (by simp only [R.SW_DROP_OUT.addr]; omega)

theorem linkReg_found {x : Nat} (y : Nat) (hx : x < 160) : linkReg y (R.SG_FOUND.addr x) :=
  linkReg_beyond (by simp only [R.SG_FOUND.addr]; omega) (by simp only [R.SG_FOUND.addr]; omega)

theorem linkReg_status (y : Nat) : linkReg y R.SG_STATUS.addr := linkReg_beyond (by decide) (by decide)

theorem linkReg_ber {x k : Nat} (hx : x < 160) (hk : k < 8) : linkReg x (R.OP_WL_BER.addr x k) := by
  rw [R.OP_WL_BER.addr, Nat.add_assoc]
  exact linkReg_port hx (by omega)

theorem State.Spares.setLink {x st : Nat} (h : s.Spares t (linkReg x)) (hx : x < 160) : s.Spares (t.setLink x st) (linkReg x) :=
  (h.fset (linkReg_port hx (by decide))).trans (t.setLink_spares x st fun _ => linkReg_dropOut x hx)

theorem State.Spares.unlink {x : Nat} (h : s.Spares t (linkReg x)) (hx : x < 160) : s.Spares (t.unlink x) (linkReg x) := by
  have hs : linkReg x (R.OP_PORT_STATUS.addr x) := linkReg_port hx (by decide)
  exact (((((h.setLink hx).fset hs).fset hs).fset hs).fset hs).trans
    (t.unlink_spares hx (fun _ => linkReg_ber hx) (linkReg_found x hx) (linkReg_status x))

/-- A port of the sled that went DOWN is DOWN. -/
theorem State.portState_portDown (h : s.regsWf = true) {x : Nat} (hx : x < 160) : (s.portDown x false).portState x = PS.DOWN := by
  by_cases hd : s.portState x = PS.DOWN
  · rw [State.portDown, if_pos hd, hd]
  · have h0 : (s.fset (R.OP_PORT_STATUS.STATE x) PS.DOWN).Reads (R.OP_PORT_STATUS.STATE x) PS.DOWN :=
      .stored h _ ⟨by simp, by simp, by simp [PS.DOWN]⟩
    have h1 : (s.setLink x PS.DOWN).Reads (R.OP_PORT_STATUS.STATE x) PS.DOWN :=
      (s.setLink_spares (p := (· ≠ R.OP_PORT_STATUS.addr x)) x PS.DOWN fun _ => by
        simp only [R.SW_DROP_OUT.addr, R.OP_PORT_STATUS.addr, opBase_sled hx]; omega).reads h0 (not_not_intro rfl)
    have h2 : (s.unlinked x).Reads (R.OP_PORT_STATUS.STATE x) PS.DOWN :=
      (((h1.fset (by simp [Fld.Beside])).fset (by simp [Fld.Beside])).fset (by simp [Fld.Beside])).fset (by simp [Fld.Beside])
    have h3 := (s.unlink_spares (p := (· ≠ R.OP_PORT_STATUS.addr x)) hx
      (fun k _ => by simp only [R.OP_WL_BER.addr, R.OP_PORT_STATUS.addr]; omega)
      (by simp only [R.SG_FOUND.addr, R.OP_PORT_STATUS.addr, opBase_sled hx]; omega)
      (by simp only [R.SG_STATUS.addr, R.OP_PORT_STATUS.addr, opBase_sled hx]; omega)).reads h2 (not_not_intro rfl)
    have e : s.portDown x false = ((s.unlink x).almAdd 4 x 21 1).almLow 4 x 20 0 := if_neg hd
    rw [e]
    exact h3.eq

/-- The registers of links and of the discovered map. -/
def linkBlock (a : Nat) : Prop := 0x1000000 ≤ a ∧ a < 0x6000000

theorem not_linkBlock {a : Nat} (h : a < 0x1000000 ∨ 0x6000000 ≤ a) : ¬linkBlock a := by
  unfold linkBlock
  omega

theorem linkBlock_of_linkReg {x a : Nat} (h : linkReg x a) : linkBlock a := ⟨h.1, h.2.1⟩

/-- One port of the sled goes dark. -/
def State.portDark (s : State) (x : Nat) : State :=
  let s := s.portDown x false
  if s.ports.any (·.1 == x) then s.setPort x { s.port x with retryAt := none, failed := 0 } else s

theorem State.portDark_spares (s : State) {x : Nat} (hx : x < 160) : s.Spares (s.portDark x) (linkReg x) := by
  have h := State.Spares.rfl_ s (linkReg x)
  have k := (h.unlink hx).portDown h
  exact k.setPort.ite k

theorem State.portState_portDark (h : s.regsWf = true) {x : Nat} (hx : x < 160) : (s.portDark x).portState x = PS.DOWN := by
  rw [← s.portState_portDown h hx, State.portDark]
  split <;> rfl

theorem State.portsDark_eq (s : State) : s.portsDark = s.forEach ((List.range 160).filter s.isPort) State.portDark := rfl

theorem State.portsDark_spares (s : State) : s.Spares s.portsDark linkBlock := by
  rw [s.portsDark_eq]
  refine (State.Spares.rfl_ s _).forEach fun x hx h => h.trans ?_
  exact (State.portDark_spares _ (List.mem_range.1 (List.mem_of_mem_filter hx))).mono fun _ => linkBlock_of_linkReg

/-- Every optical port of the sled is DOWN once all are dark (R437). -/
theorem State.portState_portsDark (h : s.regsWf = true) {x : Nat} (hx : x < 160) (hp : s.isPort x = true) :
    s.portsDark.portState x = PS.DOWN := by
  have hl : ∀ y ∈ (List.range 160).filter s.isPort, y < 160 := fun y hy => List.mem_range.1 (List.mem_of_mem_filter hy)
  rw [s.portsDark_eq]
  refine (State.forEach_reaches (I := fun s => s.regsWf = true) (P := fun y s => y < 160 → s.portState y = PS.DOWN)
    (fun s y hy h => (s.portDark_spares (hl _ hy)).wf h) (fun s y hy h _ => s.portState_portDark h (hl _ hy))
    (fun s z hz y h hd hy => ?_) h).2 x (.inl (List.mem_filter.2 ⟨List.mem_range.2 hx, hp⟩)) hx
  obtain rfl | e := eq_or_ne y z
  · exact s.portState_portDark h hy
  · exact ((s.portDark_spares (hl _ hz)).fget_eq fun hc => hc.2.2 y hy e rfl).trans (hd hy)

/-- The uplinks that a plan leaves unused are held dark (R149). -/
theorem State.Spares.holdUnused (h : s.Spares t p) (hp : ∀ a, linkBlock a → p a) : s.Spares t.holdUnused p := by
  refine h.forEach fun x hx k => k.trans ?_
  have hx : 144 + x < 160 := Nat.add_lt_add_left (List.mem_range.1 (List.mem_of_mem_filter hx)) 144
  have hc : linkReg (144 + x) (R.OP_PORT_CTL.addr (144 + x)) := linkReg_port hx (by decide)
  have hs : linkReg (144 + x) (R.OP_PORT_STATUS.addr (144 + x)) := linkReg_port hx (by decide)
  exact ((((((State.Spares.rfl_ _ _).fset hc).fset hs).fset hs).setPort.setLink hx).setOutcome (linkReg_found _ hx)
    (linkReg_status _)).mono fun a h => hp a (linkBlock_of_linkReg h)

end Sys2Proof.Machine
end

/-! # Power-on, BOOT and the end of INIT -/
section
namespace Sys2Proof.Machine

open Sys2Proof.Laws

variable {s t u : State} {g : Fld} {v : Nat}

/-! ## The loss of the control rails (R427) -/

/-- A field of a register that outlasts the loss of the control rails. -/
theorem State.fget_kept {off : Bool} (hr : t.regs = s.regs.filter fun e => keptReg off e.1)
    (hb : t.boot.latched = s.boot.latched) (hg : keptReg off g.addr = true) : t.fget g = s.fget g := by
  rw [State.fget, State.fget, State.reg, State.reg, hr, hb, kget_filter_key s.regs (keptReg off) g.addr, if_pos hg]

theorem State.regsWf_kept {off : Bool} (hr : t.regs = s.regs.filter fun e => keptReg off e.1)
    (hb : t.boot.latched = s.boot.latched) (h : s.regsWf = true) : t.regsWf = true := by
  have k := State.regsWf_filter h fun e => keptReg off e.1
  rw [← k, State.regsWf, State.regsWf, hr, hb]

/-- STATE, PREV_STATE and the fields of PT_BOOT: what the loss of the control rails settles first, or leaves as it is. -/
def railFld (g : Fld) : Prop := g.addr = R.CP_STATE.addr ∧ g.hi < 8 ∨ g.addr = R.PT_BOOT.addr

theorem beside_of_railFld {f : Fld} (hg : railFld g)
    (hf : f.lo ≤ f.hi ∧ f.hi < 64 ∧
      (f.addr = R.CP_STATE.addr ∧ 8 ≤ f.lo ∨ f.addr ≠ R.CP_STATE.addr ∧ f.addr ≠ R.PT_BOOT.addr)) : f.Beside g := by
  obtain ⟨hl, hh, hf⟩ := hf
  refine ⟨hl, hh, ?_⟩
  obtain ⟨ha, hh⟩ | ha := hg
  · rw [ha]
    omega
  · rw [ha]
    simp only [R.CP_STATE.addr, R.PT_BOOT.addr] at hf ⊢
    omega

/-- Of the registers that outlast the loss of the control rails, STATE and PREV_STATE are set; the rest spares the rail fields. -/
theorem State.depower_reads (s : State) (st : Nat) : ∃ w : State,
    w.regs = s.regs.filter (fun e => keptReg (st == SS.OFF) e.1) ∧ w.boot.latched = s.boot.latched ∧
    ∀ g v, railFld g → ((w.fset R.CP_STATE.PREV_STATE s.sled).fset R.CP_STATE.STATE st).Reads g v → (s.depower st).Reads g v := by
  unfold State.depower
  extract_lets off old jobs slots _ w x y z a
  refine ⟨w, rfl, rfl, fun g v hg h => ?_⟩
  have hd {f : Fld} := beside_of_railFld (f := f) hg
  have hx : x.Reads g v := (h.fset (hd (by decide))).fset (hd (by decide))
  have hy : y.Reads g v := (hx.fset (hd (by decide))).fset (hd (by decide))
  have hc (k : Nat) : R.PT_LASER.addr k ≠ R.CP_STATE.addr ∧ R.PT_LASER.addr k ≠ R.PT_BOOT.addr := by
    simp only [R.PT_LASER.addr, R.CP_STATE.addr, R.PT_BOOT.addr]
    omega
  have hz : z.Reads g v := hy.forEach fun k h =>
    (h.fset (hd ⟨by simp, by simp, .inr (hc k)⟩)).fset (hd ⟨by simp, by simp, .inr (hc k)⟩)
  have ha : a.Reads g v := (hz.fset (hd (by decide))).fset (hd (by decide))
  exact .ite (((ha.fset (hd (by decide))).fset (hd (by decide))).fset (hd (by decide))) hy

/-- The state that the loss of the control rails leads to stands in STATE. -/
theorem State.reads_depower (h : s.regsWf = true) {st : Nat} (hs : st < 16) : (s.depower st).Reads R.CP_STATE.STATE st := by
  obtain ⟨w, hr, hb, hw⟩ := s.depower_reads st
  exact hw _ _ (.inl (by decide)) (.stored (w.regsWf_fset (State.regsWf_kept hr hb h) _ _) _ ⟨by decide, by decide, hs⟩)

/-- The state that it leaves stands in PREV_STATE. -/
theorem State.reads_depower_prev (h : s.regsWf = true) (st : Nat) : (s.depower st).Reads R.CP_STATE.PREV_STATE s.sled := by
  obtain ⟨w, hr, hb, hw⟩ := s.depower_reads st
  have hp : (w.fset R.CP_STATE.PREV_STATE s.sled).Reads R.CP_STATE.PREV_STATE s.sled :=
    .stored (State.regsWf_kept hr hb h) _ ⟨by decide, by decide, bitsOf_lt _ 3 0⟩
  exact hw _ _ (.inl (by decide)) (hp.fset (by decide))

/-- PT_BOOT outlasts the way to STANDBY (R440). -/
theorem State.Reads.depower_ptBoot (h : s.Reads g v) (hg : g.addr = R.PT_BOOT.addr) : (s.depower SS.STANDBY).Reads g v := by
  obtain ⟨w, hr, hb, hw⟩ := s.depower_reads SS.STANDBY
  have k : w.Reads g v := ⟨State.regsWf_kept hr hb h.wf, (State.fget_kept hr hb (by rw [hg]; decide)).trans h.eq⟩
  have hn : g.addr ≠ R.CP_STATE.addr := by rw [hg]; decide
  exact hw _ _ (.inr hg) ((k.fset ⟨by decide, by decide, .inl hn⟩).fset ⟨by decide, by decide, .inl hn⟩)

/-- The boot record after the loss of the control rails. -/
theorem State.depower_boot (s : State) (st : Nat) : ∃ x y z, (s.depower st).boot =
    { s.boot with drain := none, resets := [], stateDue := none, lossAt := none, railsCore := false, railsDram := false
                  slotA := x, slotB := y, act := z } := by
  unfold State.depower
  extract_lets off old jobs slots _ w x y z a
  have hy : w.Spares y fun _ => True := ((((((State.Spares.rfl_ w _).fset trivial).fset trivial).fset trivial).fset trivial).fset
    trivial).fset trivial
  have hz : w.Spares z fun _ => True := hy.forEach fun _ _ k => (k.fset trivial).fset trivial
  have hs : w.Spares (if off = true then ((a.fset R.SI_DEBUG.SESSIONS_BOOT 0).fset R.SI_DEBUG.ACTIVE 0).fset R.SI_DEBUG.SOURCE 0
      else y) fun _ => True :=
    (((((hz.fset trivial).fset trivial).fset trivial).fset trivial).fset trivial).ite hy
  exact ⟨slots s.boot.slotA, slots s.boot.slotB, if off then none else s.boot.act, hs.boot⟩

/-! ## BOOT begins (R20, R429) -/

theorem State.bootTime_spares (s : State) : s.Spares s.bootTime (· = R.HE_TIME.addr) := by
  have h := State.Spares.rfl_ s (· = R.HE_TIME.addr)
  exact (h.fset rfl).upd.ite h

/-- The registers that the beginning of BOOT changes beside CP_STATE. -/
def bootReg (a : Nat) : Prop := a = R.SI_DEBUG.addr ∨ a = R.SI_STATUS.addr ∨ a = R.CP_ALERT.addr

/-- BOOT begins from the latched straps and the registers that outlast the loss of the control rails, CP_FW among them. -/
theorem State.bootBegin_spares (h : s.regsWf = true) (st : Straps) : ∃ w : State, w.regsWf = true ∧
    w.boot = { s.boot with straps := st, latched := st } ∧ w.mem = s.mem ∧ (∀ g : Fld, g.addr = R.CP_FW.addr → w.fget g = s.fget g) ∧
    ((w.fset R.CP_STATE.PREV_STATE SS.STANDBY).fset R.CP_STATE.STATE SS.BOOT).Spares (s.bootBegin st) bootReg := by
  unfold State.bootBegin
  extract_lets _ v _ _ w x y
  have hv : s.Spares v _ := s.bootTime_spares
  refine ⟨w, State.regsWf_latch (hv.wf h) rfl, congrArg (fun b : Boot => { b with straps := st, latched := st }) hv.boot,
    hv.mem, fun g hg => ?_, ?_⟩
  · have hk : keptReg false g.addr = true := by rw [hg]; decide
    have hr : w.reg g.addr = v.reg g.addr := by
      rw [State.reg, State.reg, kget_filter_key v.regs (keptReg false) g.addr, if_pos hk, regReset_of_keptReg hk]
    rw [← hv.fget_eq (f := g) (by rw [hg]; decide), State.fget, State.fget, hr]
  · have hy : x.Spares y bootReg := ((State.Spares.rfl_ x _).fset (.inl rfl)).fsetb (.inr (.inl rfl))
    exact hy.when fun k => k.alert (.inr (.inr rfl))

theorem not_bootReg_state : ¬bootReg R.CP_STATE.addr := by simp [bootReg]

theorem not_bootReg_fw : ¬bootReg R.CP_FW.addr := by simp [bootReg]

theorem State.reads_bootBegin (h : s.regsWf = true) (st : Straps) : (s.bootBegin st).Reads R.CP_STATE.STATE SS.BOOT := by
  obtain ⟨w, hw, -, -, -, k⟩ := s.bootBegin_spares h st
  exact k.reads (.stored (w.regsWf_fset hw _ _) _ (by decide)) not_bootReg_state

theorem State.mem_bootBegin (h : s.regsWf = true) (st : Straps) : (s.bootBegin st).mem = s.mem := by
  obtain ⟨w, -, -, hm, -, k⟩ := s.bootBegin_spares h st
  exact k.mem.trans hm

theorem State.boot_bootBegin (h : s.regsWf = true) (st : Straps) :
    (s.bootBegin st).boot = { s.boot with straps := st, latched := st } := by
  obtain ⟨w, -, hb, -, -, k⟩ := s.bootBegin_spares h st
  exact k.boot.trans hb

/-- What CP_FW says of the slots outlasts STANDBY (R451). -/
theorem State.fget_bootBegin_fw (h : s.regsWf = true) (st : Straps) (hg : g.addr = R.CP_FW.addr) :
    (s.bootBegin st).fget g = s.fget g := by
  obtain ⟨w, -, -, -, hf, k⟩ := s.bootBegin_spares h st
  have h1 : g.addr ≠ R.CP_STATE.addr := by rw [hg]; decide
  rw [k.fget_eq (hg ▸ not_bootReg_fw), State.fget_fset_ne _ h1, State.fget_fset_ne _ h1, hf g hg]

theorem State.bootOk_bootBegin (h : s.regsWf = true) (st : Straps) (chk : BootCheck) (k : Nat) :
    (s.bootBegin st).bootOk chk k = s.bootOk chk k := by
  simp only [State.bootOk, State.fwSlot, State.fget_bootBegin_fw h st]

/-! ## INIT begins (R432) -/

/-- The records that INIT begins with. -/
def State.initRecords (s : State) : State :=
  { s with
    tb := { s.tb with frame := 0 }
    boot := { s.boot with railFails := 0, railsCore := true, railsDram := true, bootAt := 0 }
    power := {}
    si := { s.si with kernelLog := 0, kernelCount := 0, hashes := [], dirty := [0, 1, 2, 3, 4] } }

/-- The registers that INIT sets beside MEMKEYS_LOADED. -/
def initReg (a : Nat) : Prop := linkBlock a ∨ R.PT_LADDER.addr ≤ a ∧ a ≤ R.PT_BOOST.addr

theorem State.Spares.resetRegs {p : Nat → Prop} {lo hi : Nat} (h : s.Spares t p) (hp : ∀ a, lo ≤ a → a < hi → p a) :
    s.Spares (t.resetRegs lo hi) p :=
  have k := State.Stores.resetRegs hp t
  { h with apart := fun a ha => (k.apart a ha).trans (h.apart a ha), wf := k.wf ∘ h.wf }

theorem State.Spares.freeUsed {p : Nat → Prop} (h : s.Spares t p) : s.Spares t.freeUsed p := h.upd

theorem State.Spares.seedRd {p : Nat → Prop} {w : W64} (h : s.Spares t p) : s.Spares (t.seedRd w) p := h.updRecords rfl rfl

theorem State.initSled_spares (s : State) :
    (s.initRecords.fsetb R.SI_STATUS.MEMKEYS_LOADED true).Spares s.initSled initReg := by
  unfold State.initSled
  extract_lets _ _ _ a b v w
  have hv : (s.initRecords.fsetb R.SI_STATUS.MEMKEYS_LOADED true).Spares v initReg := by
    have hp : initReg R.PT_BOOST.addr := .inr (by decide)
    have h : (a.fsetb R.SI_STATUS.MEMKEYS_LOADED true).Spares b initReg := (State.Spares.rfl_ _ _).fset (.inl ⟨by decide, by decide⟩)
    exact ((h.resetRegs fun a h k => .inr ⟨h, k.le⟩).fset hp).fset hp
  have hw : (s.initRecords.fsetb R.SI_STATUS.MEMKEYS_LOADED true).Spares w initReg :=
    (hv.freeUsed.setReg (.inl ⟨by decide, by decide⟩)).seedRd.ite hv
  exact (State.Spares.upd hw).holdUnused fun a h => .inl h

theorem State.Reads.initSled (h : s.Reads g v) (hs : g.addr ≠ R.SI_STATUS.addr) (hg : ¬initReg g.addr) : s.initSled.Reads g v :=
  s.initSled_spares.reads (State.Reads.fsetb (h.congr rfl rfl : s.initRecords.Reads g v) ⟨by decide, by decide, .inl hs⟩) hg

/-- The control processor's and the island's registers are none of those. -/
theorem not_initReg {a : Nat} (h : a < 0x1000000 ∨ 0xC000000 ≤ a) : ¬initReg a := by
  unfold initReg linkBlock R.PT_LADDER.addr R.PT_BOOST.addr
  omega

/-- The memory keys are loaded as INIT begins. -/
theorem State.reads_initSled_keys (h : s.regsWf = true) : s.initSled.Reads R.SI_STATUS.MEMKEYS_LOADED 1 :=
  s.initSled_spares.reads (.stored (t := s.initRecords) h _ (by decide)) (not_initReg (.inr (by decide)))

theorem State.initSled_now (s : State) : s.initSled.now = 0 := s.initSled_spares.now_eq

theorem State.initSled_kernelCount (s : State) : s.initSled.si.kernelCount = 0 := congrArg Island.kernelCount s.initSled_spares.si

theorem State.initSled_mem (s : State) : s.initSled.mem = s.mem := s.initSled_spares.mem

/-! ## A slot runs (R431) -/

theorem State.Spares.setFwSlot {p : Nat → Prop} {k n : Nat} (h : s.Spares t p) (hp : p R.CP_FW.addr) :
    s.Spares (t.setFwSlot k n) p := (h.fset hp).ite (h.fset hp)

theorem State.Reads.setFwSlot {k n : Nat} (h : s.Reads g v) (hg : g.hi < 18 ∨ 21 < g.lo) : (s.setFwSlot k n).Reads g v :=
  .ite (h.fset ⟨by decide, by decide, .inr (by simp; omega)⟩) (h.fset ⟨by decide, by decide, .inr (by simp; omega)⟩)

/-- CP_FW says which slot runs, its version, and whether it is on trial. -/
def State.slotRuns (s : State) (k : Nat) (trial : Bool) : State :=
  let s := (s.setFwSlot (s.fget R.CP_FW.RUN_SLOT) (s.fwSlot (s.fget R.CP_FW.RUN_SLOT))).fset R.CP_FW.RUN_SLOT k
  let x := s.slotOf k
  ((((s.setFwSlot k 2).fset R.CP_FW.RUN_MAJOR x.major).fset R.CP_FW.RUN_MINOR x.minor).fsetb R.CP_FW.TRIAL
    trial).fsetb R.CP_FW.CONFIRMED (!trial)

theorem State.bootSlot_eq (s : State) (k : Nat) (trial : Bool) :
    s.bootSlot k trial = (s.slotRuns k trial).initSled.enterState SS.INIT := rfl

theorem State.slotRuns_spares (s : State) (k : Nat) (trial : Bool) : s.Spares (s.slotRuns k trial) (· = R.CP_FW.addr) := by
  have h := State.Spares.rfl_ s (· = R.CP_FW.addr)
  exact ((((((h.setFwSlot rfl).fset rfl).setFwSlot rfl).fset rfl).fset rfl).fsetb rfl).fsetb rfl

theorem State.reads_slotRuns (h : s.regsWf = true) {k : Nat} (hk : k < 2) :
    (s.slotRuns k false).Reads R.CP_FW.RUN_SLOT k ∧ (s.slotRuns k false).Reads R.CP_FW.TRIAL 0 ∧
      (s.slotRuns k false).Reads R.CP_FW.CONFIRMED 1 := by
  have h0 := State.Spares.rfl_ s (· = R.CP_FW.addr)
  unfold State.slotRuns
  extract_lets u x
  have h1 : u.regsWf = true := ((h0.setFwSlot rfl).fset rfl).wf h
  have h2 : s.Spares (((u.setFwSlot k 2).fset R.CP_FW.RUN_MAJOR x.major).fset R.CP_FW.RUN_MINOR x.minor) (· = R.CP_FW.addr) :=
    ((((h0.setFwSlot rfl).fset rfl).setFwSlot rfl).fset rfl).fset rfl
  have hr : u.Reads R.CP_FW.RUN_SLOT k := .stored ((h0.setFwSlot rfl).wf h) _ ⟨by decide, by decide, hk⟩
  refine ⟨((((hr.setFwSlot (.inl (by decide))).fset (by decide)).fset (by decide)).fsetb (by decide)).fsetb (by decide), ?_, ?_⟩
  · exact (State.Reads.stored (h2.wf h) R.CP_FW.TRIAL (by decide)).fsetb (by decide)
  · exact .stored ((h2.fsetb rfl).wf h) R.CP_FW.CONFIRMED (by decide)

theorem State.bootFrom_preferred {chk : BootCheck} (ha : s.boot.act = none) (hk : s.bootOk chk (s.fget R.CP_FW.PREFERRED) = true) :
    s.bootFrom chk = s.bootSlot (s.fget R.CP_FW.PREFERRED) false := by
  simp [State.bootFrom, ha, hk]

theorem State.bootFrom_recovery {chk : BootCheck} (ha : s.boot.act = none) (h0 : s.bootOk chk 0 = false)
    (h1 : s.bootOk chk 1 = false) :
    s.bootFrom chk = ((s.initSled.fsetb R.CP_STATE.RECOVERY true).enterState SS.MAINTENANCE).fsetb R.CP_FW.FALLBACK true := by
  have hk (k : Nat) (h : k < 2) : s.bootOk chk k = false := by
    interval_cases k
    · exact h0
    · exact h1
  have hp : s.fget R.CP_FW.PREFERRED < 2 := bitsOf_lt _ 17 17
  simp [State.bootFrom, ha, hk _ hp, hk (1 - s.fget R.CP_FW.PREFERRED) (by omega), State.when]

/-! ## The commands -/

theorem powerOn_standby (hw : s.regsWf = true) {n : Nat} (hs : s.sled = SS.OFF) (hl : 4600 ≤ n) (hh : n ≤ 5800) :
    Answers (.powerOn n) s fun t =>
      Sets s t [(R.CP_STATE.STATE, SS.STANDBY), (R.CP_STATE.PREV_STATE, SS.OFF)] ∧ t.boot.inputOk = true ∧
      t.boot.presentLow = true ∧ t = { s with regs := t.regs, boot := t.boot } := by
  have k : Sets s ((s.fset R.CP_STATE.PREV_STATE SS.OFF).fset R.CP_STATE.STATE SS.STANDBY)
      [(R.CP_STATE.STATE, SS.STANDBY), (R.CP_STATE.PREV_STATE, SS.OFF)] :=
    Sets.fset (State.sets_fset hw (by decide) (by decide) (by decide)) (s.regsWf_fset hw _ _) (by decide) (by simp [Apart])
  exact ⟨_, congrArg Host.Outcome.next (if_pos ⟨hs, hl, hh⟩), k, rfl, rfl, rfl⟩

theorem State.fget_alert_strap (h : s.regsWf = true) : (s.alert 0).fget R.CP_ALERT.STRAP = 1 := by
  have e : (s.alert 0).reg R.CP_ALERT.addr = s.reg R.CP_ALERT.addr ||| 1 := s.reg_setReg (State.krising_of_regsWf h) _ _
  rw [State.fget, e, BitVec.toNat_or]
  simp [bitsOf]

/-- Straps, a flag and an alert change the boot record, the registers and the output alone. -/
theorem State.alert_fsetb_eq (s : State) (b : Boot) (f : Fld) (v : Bool) (n : Nat) :
    (State.fsetb { s with boot := b } f v).alert n = { s with
      regs := ((State.fsetb { s with boot := b } f v).alert n).regs
      boot := ((State.fsetb { s with boot := b } f v).alert n).boot
      out := ((State.fsetb { s with boot := b } f v).alert n).out } := rfl

theorem strapChange_alerts (hw : s.regsWf = true) {st : Straps} (h0 : s.sled ≠ SS.OFF) (h1 : s.sled ≠ SS.STANDBY)
    (hst : st ≠ s.boot.straps) :
    Answers (.strapChange st) s fun t =>
      t.fget R.CP_LOCATION.STRAP_CHANGED = 1 ∧ t.fget R.CP_ALERT.STRAP = 1 ∧ t.out = .alert 0 :: s.out ∧
      t.boot = { s.boot with straps := st } ∧ t = { s with regs := t.regs, boot := t.boot, out := t.out } := by
  have e : exec (.strapChange st) s =
      .next ((State.fsetb { s with boot := { s.boot with straps := st } } R.CP_LOCATION.STRAP_CHANGED true).alert 0) :=
    congrArg Host.Outcome.next (if_neg (by rintro (h | h | h) <;> contradiction))
  have k : (State.fsetb { s with boot := { s.boot with straps := st } } R.CP_LOCATION.STRAP_CHANGED true).Reads
      R.CP_LOCATION.STRAP_CHANGED 1 := .stored (t := { s with boot := { s.boot with straps := st } }) hw _ (by decide)
  refine ⟨_, e, (k.alert (by decide)).eq, State.fget_alert_strap k.wf, ?_, ?_, State.alert_fsetb_eq _ _ _ _ _⟩
  · rw [State.alert_out, State.fsetb_out]
  · rw [State.alert_boot, State.fsetb_boot]

variable {st : Straps} {chk : BootCheck}

/-- A rail outside its window: STANDBY again, and BOOT_FAIL after the third failure in a row (R430). -/
theorem State.railFail_reads (h : s.regsWf = true) : s.railFail.Reads R.CP_STATE.STATE SS.STANDBY ∧
    s.railFail.Reads R.CP_STATE.PREV_STATE SS.BOOT ∧ s.railFail.boot = { s.boot with railFails := s.boot.railFails + 1 } ∧
    s.railFail.mem = s.mem ∧
    (2 ≤ s.boot.railFails → s.railFail.fget R.CP_STATE.BOOT_FAIL = 1 ∧ s.railFail.fget R.PT_BOOT.BOOT_FAIL = 1) := by
  unfold State.railFail
  extract_lets n _ v x
  have hv : v.regsWf = true := h
  have hs : x.Reads R.CP_STATE.STATE SS.STANDBY := .stored (v.regsWf_fset hv _ _) _ (by decide)
  have hp : (v.fset R.CP_STATE.PREV_STATE SS.BOOT).Reads R.CP_STATE.PREV_STATE SS.BOOT := .stored hv _ (by decide)
  have hp' : x.Reads R.CP_STATE.PREV_STATE SS.BOOT := hp.fset (by decide)
  have hf : (x.fsetb R.CP_STATE.BOOT_FAIL true).Reads R.CP_STATE.BOOT_FAIL 1 := .stored hs.wf _ (by decide)
  refine ⟨.ite ((hs.fsetb (by decide)).fsetb (by decide)) hs,
    .ite ((hp'.fsetb (by decide)).fsetb (by decide)) hp', ?_, ?_, fun h2 => ?_⟩
  · split <;> simp [x, v, n]
  · split <;> simp [x, v]
  · rw [if_pos (Nat.succ_le_succ h2)]
    exact ⟨(hf.fsetb (by decide)).eq, (State.Reads.stored hf.wf R.PT_BOOT.BOOT_FAIL (by decide)).eq⟩

theorem bootEntry_railFail (hw : s.regsWf = true) (hr : s.bootReady = true) (hf : chk.railFail = true) :
    Answers (.bootEntry st chk) s fun t =>
      t.sled = SS.STANDBY ∧ t.fget R.CP_STATE.PREV_STATE = SS.BOOT ∧ t.boot.railFails = s.boot.railFails + 1 ∧
      t.boot.latched = st ∧ (2 ≤ s.boot.railFails → t.fget R.CP_STATE.BOOT_FAIL = 1 ∧ t.fget R.PT_BOOT.BOOT_FAIL = 1) ∧
      t.mem = s.mem := by
  have e : exec (.bootEntry st chk) s = .next (s.bootBegin st).railFail :=
    congrArg Host.Outcome.next (by simp only [hr, hf, Bool.not_true, Bool.false_eq_true, if_false, if_true])
  obtain ⟨hs, hp, hb, hm, h3⟩ := State.railFail_reads (s.reads_bootBegin hw st).wf
  rw [State.boot_bootBegin hw] at hb h3
  exact ⟨_, e, hs.eq, hp.eq, congrArg Boot.railFails hb, congrArg Boot.latched hb, h3, hm.trans (State.mem_bootBegin hw st)⟩

theorem execBootEntry_boots (hr : s.bootReady = true) (hf : chk.railFail = false) :
    exec (.bootEntry st chk) s = .next ((s.bootBegin st).bootFrom chk) :=
  congrArg Host.Outcome.next (by simp only [hr, hf, Bool.not_true, Bool.false_eq_true, if_false])

/-- INIT begins with the slot that runs: frame 0, the memory keys loaded, no kernel in the log (R431, R432). -/
theorem State.bootSlot_init (hs : s.Reads R.CP_STATE.STATE SS.BOOT) {k : Nat} (hk : k < 2) :
    (s.bootSlot k false).sled = SS.INIT ∧ (s.bootSlot k false).fget R.CP_STATE.PREV_STATE = SS.BOOT ∧
      (s.bootSlot k false).now = 0 ∧ (s.bootSlot k false).fget R.CP_FW.RUN_SLOT = k ∧
      (s.bootSlot k false).fget R.CP_FW.TRIAL = 0 ∧ (s.bootSlot k false).fget R.CP_FW.CONFIRMED = 1 ∧
      (s.bootSlot k false).fget R.SI_STATUS.MEMKEYS_LOADED = 1 ∧ (s.bootSlot k false).si.kernelCount = 0 ∧
      (s.bootSlot k false).mem = s.mem := by
  have hr := s.slotRuns_spares k false
  obtain ⟨hrun, htrial, hconf⟩ := State.reads_slotRuns hs.wf hk
  have hb : (s.slotRuns k false).initSled.Reads R.CP_STATE.STATE SS.BOOT :=
    (hr.reads hs (by decide)).initSled (by decide) (not_initReg (.inl (by decide)))
  rw [s.bootSlot_eq]
  generalize s.slotRuns k false = v at *
  have hfw : ¬entryReg R.CP_FW.addr := by simp [entryReg]
  have hsi : ¬entryReg R.SI_STATUS.addr := by simp [entryReg]
  have keep {g : Fld} {n : Nat} (h : v.Reads g n) (hg : g.addr = R.CP_FW.addr) : (v.initSled.enterState SS.INIT).fget g = n :=
    ((h.initSled (by rw [hg]; decide) (not_initReg (.inl (by rw [hg]; decide)))).enterState (hg ▸ hfw)
      ⟨by decide, by decide, .inl (by rw [hg]; decide)⟩ ⟨by decide, by decide, .inl (by rw [hg]; decide)⟩).eq
  refine ⟨(State.reads_enterState hb.wf (by decide)).eq, (State.reads_enterState_prev hb.wf _).eq.trans hb.eq, ?_,
    keep hrun rfl, keep htrial rfl, keep hconf rfl, ((State.reads_initSled_keys ?_).enterState hsi (by decide) (by decide)).eq, ?_, ?_⟩
  · rw [State.enterState_now, State.initSled_now]
  · exact htrial.wf
  · rw [State.enterState_si, State.initSled_kernelCount]
  · rw [State.enterState_mem, State.initSled_mem, hr.mem]

theorem bootEntry_init (hw : s.regsWf = true) {k : Nat} (hr : s.bootReady = true) (hf : chk.railFail = false)
    (ha : s.boot.act = none) (hk : k = s.fget R.CP_FW.PREFERRED) (ho : s.bootOk chk k = true) :
    Answers (.bootEntry st chk) s fun t => t.sled = SS.INIT ∧
      t.fget R.CP_STATE.PREV_STATE = SS.BOOT ∧ t.now = 0 ∧ t.boot.latched = st ∧ t.fget R.CP_FW.RUN_SLOT = k ∧
      t.fget R.CP_FW.TRIAL = 0 ∧ t.fget R.CP_FW.CONFIRMED = 1 ∧ t.fget R.SI_STATUS.MEMKEYS_LOADED = 1 ∧
      t.si.kernelCount = 0 ∧ t.mem = s.mem := by
  have hkb : (s.bootBegin st).fget R.CP_FW.PREFERRED = k := hk ▸ State.fget_bootBegin_fw hw st rfl
  have e := execBootEntry_boots (st := st) hr hf
  rw [State.bootFrom_preferred (by rw [State.boot_bootBegin hw]; exact ha)
    (by rw [hkb, State.bootOk_bootBegin hw]; exact ho), hkb] at e
  have hk2 : s.fget R.CP_FW.PREFERRED < 2 := bitsOf_lt _ 17 17
  obtain ⟨hs, hp, hn, hrun, htrial, hconf, hkeys, hlog, hm⟩ := State.bootSlot_init (s.reads_bootBegin hw st) (hk.trans_lt hk2)
  have hl := (Evolves.refl (s.bootBegin st)).bootSlot (k' := k) (trial := false) |>.latched
  exact ⟨_, e, hs, hp, hn, hl.trans (s.latched_bootBegin st), hrun, htrial, hconf, hkeys, hlog, hm.trans (State.mem_bootBegin hw st)⟩

theorem bootEntry_recovery (hw : s.regsWf = true) (hr : s.bootReady = true) (hf : chk.railFail = false)
    (ha : s.boot.act = none) (h0 : s.bootOk chk 0 = false) (h1 : s.bootOk chk 1 = false) :
    Answers (.bootEntry st chk) s fun t => t.sled = SS.MAINTENANCE ∧
      t.fget R.CP_STATE.RECOVERY = 1 ∧ t.fget R.CP_FW.FALLBACK = 1 ∧ t.mem = s.mem := by
  have e := execBootEntry_boots (st := st) hr hf
  rw [State.bootFrom_recovery (by rw [State.boot_bootBegin hw]; exact ha) ((State.bootOk_bootBegin hw st chk 0).trans h0)
    ((State.bootOk_bootBegin hw st chk 1).trans h1)] at e
  have hb := (s.reads_bootBegin hw st).initSled (by decide) (not_initReg (.inl (by decide)))
  have hr : ((s.bootBegin st).initSled.fsetb R.CP_STATE.RECOVERY true).Reads R.CP_STATE.RECOVERY 1 := .stored hb.wf _ (by decide)
  have hs := State.reads_enterState (st := SS.MAINTENANCE) hr.wf (by decide)
  refine ⟨_, e, (hs.fsetb (by decide)).eq, ((hr.enterState not_entryReg_state (by decide) (by decide)).fsetb (by decide)).eq,
    (State.Reads.stored hs.wf R.CP_FW.FALLBACK (by decide)).eq, ?_⟩
  rw [State.fsetb_mem, State.enterState_mem, State.fsetb_mem, State.initSled_mem, State.mem_bootBegin hw]

theorem bootFailClear_clears (hw : s.regsWf = true) :
    Answers .bootFailClear s fun t => Sets s t [(R.CP_STATE.BOOT_FAIL, 0), (R.PT_BOOT.BOOT_FAIL, 0)] ∧
      t.boot = { s.boot with railFails := 0 } ∧ t = { s with regs := t.regs, boot := t.boot } := by
  have h : Sets s (s.fsetb R.CP_STATE.BOOT_FAIL false) [(R.CP_STATE.BOOT_FAIL, 0)] :=
    State.sets_fset hw (by decide) (by decide) (by decide)
  have k : Sets s ((s.fsetb R.CP_STATE.BOOT_FAIL false).fsetb R.PT_BOOT.BOOT_FAIL false)
      [(R.PT_BOOT.BOOT_FAIL, 0), (R.CP_STATE.BOOT_FAIL, 0)] :=
    Sets.fset h (s.regsWf_fset hw _ _) (by decide) (by simp [Apart])
  exact ⟨_, rfl, Sets.swap k, rfl, rfl⟩

theorem bootHold_stores (hw : s.regsWf = true) {b : Bool} (h : b = true ∨ s.sled ≠ SS.HALT) :
    Answers (.bootHold b) s fun t => Sets s t [(R.PT_BOOT.BOOT_HOLD, if b then 1 else 0)] ∧ t = { s with regs := t.regs } := by
  have hs : (s.fsetb R.PT_BOOT.BOOT_HOLD b).sled = s.sled := s.fget_fset_ne (by decide) _
  have e : exec (.bootHold b) s = .next (s.fsetb R.PT_BOOT.BOOT_HOLD b) := by
    refine congrArg Host.Outcome.next (if_neg ?_)
    rw [hs]
    rintro ⟨hb, hh, -⟩
    simp [hh] at h
    simp [h] at hb
  refine ⟨_, e, State.sets_fset hw (by decide) (by decide) ?_, rfl⟩
  cases b <;> decide

theorem bootHold_releases (hw : s.regsWf = true) (h : s.sled = SS.HALT) (hc : s.power.cool = true) :
    Answers (.bootHold false) s fun t => t.sled = SS.STANDBY ∧ t.fget R.CP_STATE.PREV_STATE = SS.HALT ∧
      t.fget R.PT_BOOT.BOOT_HOLD = 0 := by
  have hs : (s.fsetb R.PT_BOOT.BOOT_HOLD false).sled = SS.HALT := (s.fget_fset_ne (by decide) _).trans h
  have hb : (s.fsetb R.PT_BOOT.BOOT_HOLD false).Reads R.PT_BOOT.BOOT_HOLD 0 := .stored hw _ (by decide)
  exact ⟨_, congrArg Host.Outcome.next (if_pos ⟨rfl, hs, hc⟩), (State.reads_depower hb.wf (by decide)).eq,
    (State.reads_depower_prev hb.wf _).eq.trans hs, (hb.depower_ptBoot rfl).eq⟩

theorem initEnd_leaves (hw : s.regsWf = true) (hs : s.sled = SS.INIT) (ha : s.boot.act = none) :
    Answers .initEnd s fun t => t.sled = (if s.strapConflict = true then SS.MAINTENANCE else SS.DISCOVERY) ∧
      t.fget R.CP_STATE.PREV_STATE = SS.INIT ∧ t.mem = s.mem := by
  have hb : (s.enterState (if s.strapConflict = true then SS.MAINTENANCE else SS.DISCOVERY)).boot.act = none :=
    (congrArg Boot.act (s.enterState_boot _)).trans ha
  have e : exec .initEnd s = .next (s.enterState (if s.strapConflict = true then SS.MAINTENANCE else SS.DISCOVERY)) := by
    refine congrArg Host.Outcome.next ((if_neg (not_not_intro hs)).trans ?_)
    simp only [hb, Option.filter_none]
  exact ⟨_, e, (State.reads_enterState hw (by split <;> decide)).eq, (State.reads_enterState_prev hw _).eq.trans hs,
    s.enterState_mem _⟩

end Sys2Proof.Machine
end

/-! # The end of a drain, HALT and the loss of the input -/
section
namespace Sys2Proof.Machine

open Sys2Proof.Laws

variable {s t u : State} {g : Fld} {v : Nat} {p : Nat → Prop}

/-- Entering a state leaves every field of another register than CP_STATE, CP_ALERT and SG_STATUS as it was. -/
theorem State.fget_enterState (s : State) (st : Nat) (h : g.addr ≠ R.CP_STATE.addr) (hg : ¬entryReg g.addr) :
    (s.enterState st).fget g = s.fget g := by
  rw [(s.enterState_spares st).fget_eq hg, State.fget_fset_ne _ h, State.fget_fset_ne _ h]

/-! ## Requests for a change of state (R436) -/

theorem maint_drains (h : s.sled = SS.PLAN_CHECK ∨ s.sled = SS.SERVICE ∨ s.sled = SS.DEGRADED) :
    Answers .maint s fun t => t = { s with boot := { s.boot with stateDue := some SS.DRAIN } } :=
  ⟨_, congrArg Host.Outcome.next (if_pos h), rfl⟩

theorem sets_ctlIgnored (hw : s.regsWf = true) : Sets s (s.fsetb R.CP_STATE.CTL_IGNORED true) [(R.CP_STATE.CTL_IGNORED, 1)] :=
  State.sets_fset hw (by decide) (by decide) (by decide)

theorem maint_ignored (hw : s.regsWf = true) (h5 : s.sled ≠ SS.PLAN_CHECK) (h6 : s.sled ≠ SS.SERVICE)
    (h7 : s.sled ≠ SS.DEGRADED) :
    Answers .maint s fun t => Sets s t [(R.CP_STATE.CTL_IGNORED, 1)] ∧ t = { s with regs := t.regs } :=
  ⟨_, congrArg Host.Outcome.next (if_neg (by rintro (h | h | h) <;> contradiction)), sets_ctlIgnored hw, rfl⟩

theorem resume_discovers (hs : s.sled = SS.MAINTENANCE) (hc : s.strapConflict = false) (hd : s.fget R.SG_STATUS.DUP_PLANE = 0)
    (hr : s.fget R.CP_STATE.RECOVERY = 0) :
    Answers .resume s fun t => t = { s with boot := { s.boot with stateDue := some SS.DISCOVERY } } :=
  ⟨_, congrArg Host.Outcome.next (if_pos (by simp [hs, hc, State.fbit, hd, hr])), rfl⟩

theorem resume_ignored (hw : s.regsWf = true) (h : s.sled ≠ SS.MAINTENANCE ∨ s.strapConflict = true) :
    Answers .resume s fun t => Sets s t [(R.CP_STATE.CTL_IGNORED, 1)] ∧ t = { s with regs := t.regs } := by
  refine ⟨_, congrArg Host.Outcome.next (if_neg ?_), sets_ctlIgnored hw, rfl⟩
  rintro ⟨hs, hc, -⟩
  obtain h | h := h
  · exact h hs
  · simp [h] at hc

/-! ## Kernels that stop -/

/-- A kernel's state resets to 0. -/
theorem kstate_reset (l : Straps) {c x : Nat} (hc : c < 256) (hx : x < 64) :
    bitsOf (regReset l (R.CO_KSTATE.addr c x)).toNat 2 0 = 0 := by
  have hz : ∀ d ∈ regRows8, resetValue d.fields % 8 = 0 := by decide
  have hr : regRows (R.CO_KSTATE.addr c x) = regRows8 := by
    rw [regRows, show R.CO_KSTATE.addr c x / 0x1000000 = 8 by simp only [R.CO_KSTATE.addr]; omega]
    rfl
  have hf : resetValue (regFields (R.CO_KSTATE.addr c x)) % 8 = 0 := by
    simp only [regFields]
    rw [if_neg (by simp only [R.CO_KSTATE.addr]; omega), if_neg (by simp only [R.CO_KSTATE.addr]; omega),
      if_neg (by simp only [R.CO_KSTATE.addr]; omega), hr]
    cases hd : regRows8.find? (·.covers (R.CO_KSTATE.addr c x)) with
    | none => rfl
    | some d => exact hz d (List.mem_of_find?_eq_some hd)
  simp only [regReset]
  rw [if_neg (by simp only [R.CO_KSTATE.addr]; omega), if_neg (by simp only [R.CO_KSTATE.addr]; omega), BitVec.toNat_ofNat, bitsOf]
  omega

/-- A kernel that is STARTED is among those that kstates lists. -/
theorem State.mem_kstates {c x : Nat} (hc : c < 256) (hx : x < 64) (h : s.fget (R.CO_KSTATE.STATE c x) = KS.STARTED) :
    (c, x) ∈ s.kstates := by
  cases hk : kget s.regs (R.CO_KSTATE.addr c x) with
  | none =>
    rw [State.fget, State.reg, hk, Option.getD_none, kstate_reset _ hc hx] at h
    exact absurd h (by decide)
  | some w =>
    refine List.mem_filterMap.2 ⟨_, List.mem_filter.2 ⟨mem_of_kget hk, ?_⟩, ?_⟩
    · simp only [R.CO_KSTATE.addr, Bool.and_eq_true, decide_eq_true_eq]
      omega
    · simp only [R.CO_KSTATE.addr]
      rw [if_pos (by omega)]
      congr 2 <;> omega

theorem State.kernelEnded_spares (s : State) (c x how : Nat) : s.Spares (s.kernelEnded c x how) (· = R.CO_KSTATE.addr c x) := by
  have h := State.Spares.rfl_ s (· = R.CO_KSTATE.addr c x)
  exact (h.upd.fset rfl).upd

theorem State.reads_kernelEnded_stopped (h : s.regsWf = true) (c x : Nat) :
    (s.kernelEnded c x 2).Reads (R.CO_KSTATE.STATE c x) KS.STOPPED := by
  have k : ((s.setCore c { s.core c with stops := (s.core c).stops.filter (·.1 != x), fresh := kdel (s.core c).fresh x }).fset
      (R.CO_KSTATE.STATE c x) KS.STOPPED).Reads (R.CO_KSTATE.STATE c x) KS.STOPPED :=
    .stored (t := s.setCore c _) h _ ⟨by simp, by simp, by simp [KS.STOPPED]⟩
  exact k.congr rfl rfl

theorem State.stopAll_spares (s : State) : s.Spares s.stopAll (R.CO_KSTATE.addr 0 0 ≤ ·) :=
  (State.Spares.rfl_ s _).forEach fun k _ h => h.trans ((State.kernelEnded_spares _ k.1 k.2 2).mono fun a ha => by
    simp only [ha, R.CO_KSTATE.addr]
    omega)

/-- No kernel is STARTED once every one is stopped (R385). -/
theorem State.fget_stopAll (h : s.regsWf = true) {c x : Nat} (hc : c < 256) (hx : x < 64) :
    s.stopAll.fget (R.CO_KSTATE.STATE c x) ≠ KS.STARTED := by
  refine (State.forEach_reaches (I := fun s => s.regsWf = true)
    (P := fun y s => s.fget (R.CO_KSTATE.STATE y.1 y.2) ≠ KS.STARTED) (fun s y _ h => (s.kernelEnded_spares y.1 y.2 2).wf h)
    (fun s y _ h => ?_) (fun s z _ y h hd => ?_) h).2 (c, x) ?_
  · rw [(State.reads_kernelEnded_stopped h y.1 y.2).eq]
    decide
  · by_cases e : R.CO_KSTATE.addr y.1 y.2 = R.CO_KSTATE.addr z.1 z.2
    · have e : R.CO_KSTATE.STATE y.1 y.2 = R.CO_KSTATE.STATE z.1 z.2 := congrArg (Fld.mk · 2 0) e
      rw [e, (State.reads_kernelEnded_stopped h z.1 z.2).eq]
      decide
    · rwa [(s.kernelEnded_spares z.1 z.2 2).fget_eq e]
  · by_cases hs : s.fget (R.CO_KSTATE.STATE c x) = KS.STARTED
    · exact .inl (List.mem_filter.2 ⟨State.mem_kstates hc hx hs, by simp [hs]⟩)
    · exact .inr hs

/-! ## The end of a drain (R439) -/

theorem State.loseInstances_of_none (h : s.rd.insts = []) : s.loseInstances = s := by
  simp [State.loseInstances, h, State.forEach]

theorem State.Spares.closePages {c : Nat} {l : List Nat} (h : s.Spares t p) : s.Spares (t.closePages c l) p := h.upd

theorem State.Reads.stopLeaving (h : s.Reads g v) (hg : g.addr ≠ R.VG_PLANES.addr) : s.stopLeaving.Reads g v :=
  State.Reads.fset (State.Reads.fsetb (h.congr rfl rfl : ({ s with boot := { s.boot with drain := none } } : State).Reads g v)
    ⟨by decide, by decide, .inl hg⟩) ⟨by decide, by decide, .inl hg⟩

theorem State.reads_stopLeaving (h : s.regsWf = true) : s.stopLeaving.Reads R.VG_PLANES.OWN_LEAVING 0 :=
  State.Reads.fset (.stored (t := { s with boot := { s.boot with drain := none } }) h R.VG_PLANES.OWN_LEAVING (by decide)) (by decide)

theorem State.stopLeaving_boot (s : State) : s.stopLeaving.boot = { s.boot with drain := none } := by
  rw [State.stopLeaving, State.fset_boot, State.fsetb_boot]

theorem State.stopLeaving_mem (s : State) : s.stopLeaving.mem = s.mem := by
  rw [State.stopLeaving, State.fset_mem, State.fsetb_mem]

/-- The sled at the end of a drain: kernels stopped, pages closed, no leaving announced, every port dark (R439). -/
def State.drained (s : State) : State := (s.stopAll.closePages 2 [0, 1, 2]).stopLeaving.portsDark

theorem execDrainEnd_drained {d : Drain} (hd : s.boot.drain = some d) (hs : s.sled = SS.DRAIN) (hc : d.cause ≠ 3)
    (he : d.endAt ≤ s.now) (hi : s.rd.insts = []) :
    exec .drainEnd s = .next (if d.cause = 2 then s.drained.depower SS.STANDBY else s.drained.enterState SS.MAINTENANCE) := by
  have h0 : s.stopAll.loseInstances = s.stopAll := State.loseInstances_of_none (s.stopAll_spares.insts.trans hi)
  refine congrArg Host.Outcome.next ?_
  simp only [hd, State.drained]
  rw [if_neg (by rintro (h | h | h); exacts [h hs, hc h, absurd he (Nat.not_le.2 h)]), h0]

theorem State.stopped_spares (s : State) : s.Spares (s.stopAll.closePages 2 [0, 1, 2]) (R.CO_KSTATE.addr 0 0 ≤ ·) :=
  s.stopAll_spares.closePages

theorem State.reads_drained_sled (h : s.regsWf = true) : s.drained.Reads R.CP_STATE.STATE s.sled :=
  (State.portsDark_spares _).reads ((s.stopped_spares.reads (g := R.CP_STATE.STATE) ⟨h, rfl⟩ (by decide)).stopLeaving (by decide))
    (not_linkBlock (.inl (by decide)))

theorem State.drained_boot (s : State) : s.drained.boot = { s.boot with drain := none } := by
  rw [State.drained, (State.portsDark_spares _).boot, State.stopLeaving_boot, s.stopped_spares.boot]

theorem State.drained_mem (s : State) : s.drained.mem = s.mem := by
  rw [State.drained, (State.portsDark_spares _).mem, State.stopLeaving_mem, s.stopped_spares.mem]

theorem State.reads_drained_leaving (h : s.regsWf = true) : s.drained.Reads R.VG_PLANES.OWN_LEAVING 0 :=
  (State.portsDark_spares _).reads (State.reads_stopLeaving (s.stopped_spares.wf h)) (not_linkBlock (.inr (by decide)))

theorem State.fget_drained_kstate (h : s.regsWf = true) {c x : Nat} (hc : c < 256) (hx : x < 64) :
    s.drained.fget (R.CO_KSTATE.STATE c x) ≠ KS.STARTED := by
  have k : (s.stopAll.closePages 2 [0, 1, 2]).Reads (R.CO_KSTATE.STATE c x) (s.stopAll.fget (R.CO_KSTATE.STATE c x)) :=
    ⟨s.stopped_spares.wf h, rfl⟩
  have hv : R.CO_KSTATE.addr c x ≠ R.VG_PLANES.addr := by
    simp only [R.CO_KSTATE.addr, R.VG_PLANES.addr]
    omega
  have hl : 0x6000000 ≤ R.CO_KSTATE.addr c x := by
    simp only [R.CO_KSTATE.addr]
    omega
  rw [State.drained, ((State.portsDark_spares _).reads (k.stopLeaving hv) (not_linkBlock (.inr hl))).eq]
  exact State.fget_stopAll h hc hx

theorem State.portState_drained (h : s.regsWf = true) {x : Nat} (hx : x < 160) (hp : s.isPort x = true) :
    s.drained.portState x = PS.DOWN := by
  have hw : (s.stopAll.closePages 2 [0, 1, 2]).stopLeaving.regsWf = true :=
    (State.reads_stopLeaving (s.stopped_spares.wf h)).wf
  refine State.portState_portsDark hw hx ?_
  have hb : (s.stopAll.closePages 2 [0, 1, 2]).stopLeaving.boot.latched = s.boot.latched := by
    rw [State.stopLeaving_boot, s.stopped_spares.boot]
  rw [← hp, State.isPort, State.isPort, State.ownPos, State.ownPos, State.plane, State.plane, hb]

theorem drainEnd_maintenance (hw : s.regsWf = true) {d : Drain} (hd : s.boot.drain = some d) (hs : s.sled = SS.DRAIN)
    (he : d.endAt ≤ s.now) (hi : s.rd.insts = []) (hc : d.cause = 1) :
    Answers .drainEnd s fun t => t.sled = SS.MAINTENANCE ∧ t.fget R.CP_STATE.PREV_STATE = SS.DRAIN ∧
      t.boot.drain = none ∧ t.fget R.VG_PLANES.OWN_LEAVING = 0 ∧
      (∀ c x, c < 256 → x < 64 → t.fget (R.CO_KSTATE.STATE c x) ≠ KS.STARTED) ∧
      (∀ p, p < 160 → s.isPort p = true → t.portState p = PS.DOWN) ∧ t.mem = s.mem := by
  have e := execDrainEnd_drained hd hs (by omega) he hi
  rw [if_neg (by omega)] at e
  have h := State.reads_drained_sled hw
  refine ⟨_, e, (State.reads_enterState h.wf (by decide)).eq, (State.reads_enterState_prev h.wf _).eq.trans (h.eq.trans hs), ?_,
    ((State.reads_drained_leaving hw).enterState (by simp [entryReg]) (by decide) (by decide)).eq, fun c x hc hx => ?_,
    fun x hx hp => ?_, ?_⟩
  · rw [State.enterState_boot, State.drained_boot]
  · rw [State.fget_enterState _ _ (by simp only [R.CO_KSTATE.addr, R.CP_STATE.addr]; omega)
      (by simp only [entryReg, R.CO_KSTATE.addr, R.CP_ALERT.addr, R.SG_STATUS.addr]; omega)]
    exact State.fget_drained_kstate hw hc hx
  · have ha : R.OP_PORT_STATUS.addr x = 0x1000000 + 0x1000 * x := opBase_sled hx
    rw [State.portState, State.fget_enterState _ _ (by simp only [ha, R.CP_STATE.addr]; omega)
      (by simp only [entryReg, ha, R.CP_ALERT.addr, R.SG_STATUS.addr]; omega)]
    exact State.portState_drained hw hx hp
  · rw [State.enterState_mem, State.drained_mem]

theorem drainEnd_standby (hw : s.regsWf = true) {d : Drain} (hd : s.boot.drain = some d) (hs : s.sled = SS.DRAIN)
    (he : d.endAt ≤ s.now) (hi : s.rd.insts = []) (hc : d.cause = 2) :
    Answers .drainEnd s fun t => t.sled = SS.STANDBY ∧ t.boot.drain = none ∧ t.boot.railsCore = false := by
  have e := execDrainEnd_drained hd hs (by omega) he hi
  rw [if_pos hc] at e
  obtain ⟨x, y, z, hb⟩ := s.drained.depower_boot SS.STANDBY
  exact ⟨_, e, (State.reads_depower (State.reads_drained_sled hw).wf (by decide)).eq, congrArg Boot.drain hb,
    congrArg Boot.railsCore hb⟩

/-! ## HALT (R440, R468) -/

/-- The cores, the switch and the Tollgate hold nothing. -/
structure State.Emptied (s : State) : Prop where
  cores : s.cores = []
  sw : s.sw = {}
  tg : s.tg = {}

/-- An update of none of these. -/
theorem State.Emptied.upd (h : s.Emptied)
    {regs mem out pending tb tt ports sg eps rd hubs kern host boot vigil power si al pat chip free} :
    State.Emptied
      { regs := regs, mem := mem, out := out, pending := pending, tb := tb, tt := tt, ports := ports, sw := s.sw, sg := sg
        tg := s.tg, eps := eps, rd := rd, hubs := hubs, cores := s.cores, kern := kern, host := host, boot := boot, vigil := vigil
        power := power, si := si, al := al, pat := pat, chip := chip, free := free } := ⟨h.cores, h.sw, h.tg⟩

theorem State.Emptied.fset (h : s.Emptied) (f : Fld) (n : Nat) : (s.fset f n).Emptied := h.upd

theorem State.Emptied.alert (h : s.Emptied) (b : Nat) : (s.alert b).Emptied := h.upd

theorem State.Emptied.finc (h : s.Emptied) (f : Fld) (n : Nat) : (s.finc f n).Emptied := by
  unfold State.finc
  split
  · exact h.fset f _
  · exact (h.fset f _).upd

theorem State.Emptied.dropCache (h : s.Emptied) (e : Nat) : (s.dropCache e).Emptied :=
  ⟨by simp [State.dropCache, State.dropLines, h.cores], h.sw, h.tg⟩

theorem State.Emptied.when {c : Bool} {f : State → State} (h : s.Emptied) (hf : ∀ {u : State}, u.Emptied → (f u).Emptied) :
    (s.when c f).Emptied := by
  unfold State.when
  split
  · exact hf h
  · exact h

theorem State.Emptied.forEach {α : Type} {l : List α} {f : State → α → State} (h : s.Emptied)
    (hf : ∀ {u : State} a, u.Emptied → (f u a).Emptied) : (s.forEach l f).Emptied :=
  State.forEach_keeps (fun _ a => hf a) l s h

theorem State.Emptied.takeState (h : s.Emptied) (st : Nat) : (s.takeState st).Emptied := by
  dsimp only [State.takeState]
  have k := ((h.fset R.CP_STATE.PREV_STATE s.sled).fset R.CP_STATE.STATE st).when
    (c := st == SS.DEGRADED || st == SS.MAINTENANCE || st == SS.DRAIN || st == SS.HALT) fun k => k.alert 3
  split
  · exact (k.upd.when fun k => k.forEach fun e k => k.dropCache e).upd
  · exact k.upd.when fun k => k.forEach fun e k => k.dropCache e

theorem State.Emptied.recount (h : s.Emptied) : s.recount.Emptied := by
  unfold State.recount
  extract_lets ds new u
  split
  · exact h
  · have hu : u.Emptied := (h.fset R.SG_STATUS.DIFFS ds.length).finc R.SG_STATUS.DIFF_GEN 1
    exact hu.upd

/-- What holds nothing holds nothing when the sled enters a state. -/
theorem State.Emptied.enterState (h : s.Emptied) (st : Nat) : (s.enterState st).Emptied := (h.takeState st).recount

/-- The core, switch and optical rails are gone, and with them what the cores, the switch and the Tollgate held (R468). -/
def State.coresOff (s : State) : State :=
  let s := s.resetRegs 0x8000000 0x9000000
  { s with sw := {}, tg := {}, cores := [], boot := { s.boot with railsCore := false, stateDue := none } }.almAdd 1 0 134 1

theorem State.coresOff_emptied (s : State) : s.coresOff.Emptied := ⟨rfl, rfl, rfl⟩

theorem State.coresOff_mem (s : State) : s.coresOff.mem = s.mem := rfl

theorem State.coresOff_railsCore (s : State) : s.coresOff.boot.railsCore = false := rfl

theorem State.regsWf_coresOff (h : s.regsWf = true) : s.coresOff.regsWf = true := State.regsWf_resetRegs h 0x8000000 0x9000000

/-- The links are dark too. -/
def State.railless (s : State) : State := s.portsDark.stopLeaving.coresOff

theorem State.haltTrip_eq (s : State) :
    s.haltTrip = if s.railless.sled = SS.HALT then s.railless else s.railless.enterState SS.HALT := rfl

theorem State.railless_mem (s : State) : s.railless.mem = s.mem := by
  rw [State.railless, State.coresOff_mem, State.stopLeaving_mem, s.portsDark_spares.mem]

theorem State.regsWf_railless (h : s.regsWf = true) : s.railless.regsWf = true :=
  State.regsWf_coresOff (State.reads_stopLeaving (s.portsDark_spares.wf h)).wf

theorem thermalTrip_halts (hw : s.regsWf = true) (hs : SS.INIT ≤ s.sled) (hr : s.boot.railsCore = true) :
    Answers .thermalTrip s fun t => t.sled = SS.HALT ∧ t.cores = [] ∧ t.sw = {} ∧ t.tg = {} ∧ t.boot.railsCore = false ∧
      t.mem = s.mem := by
  have e : exec .thermalTrip s = .next s.haltTrip := by
    refine congrArg Host.Outcome.next (if_neg ?_)
    rw [hr]
    rintro (h | h)
    · exact Nat.not_lt.2 hs h
    · exact absurd h (by decide)
  have hk : s.railless.Emptied := State.coresOff_emptied _
  have hb : s.railless.boot.railsCore = false := State.coresOff_railsCore _
  rw [State.haltTrip_eq] at e
  split at e
  · exact ⟨_, e, ‹_›, hk.cores, hk.sw, hk.tg, hb, s.railless_mem⟩
  · have hh := hk.enterState SS.HALT
    refine ⟨_, e, (State.reads_enterState (State.regsWf_railless hw) (by decide)).eq, hh.cores, hh.sw, hh.tg, ?_, ?_⟩
    · rw [State.enterState_boot, hb]
    · rw [State.enterState_mem, State.railless_mem]

/-! ## The loss of the input (R467, R551) -/

/-- A sled that runs keeps running to the next boundary, where the drain begins. -/
theorem State.loseInput_running (hs : SS.BOOT < s.sled) (hl : s.boot.lossAt = none) : s.loseInput =
    { s with boot := { s.boot with lossAt := some s.now, stateDue := some SS.DRAIN, inputOk := false }
             power := { s.power with inputLoss := true } } := by
  unfold State.loseInput
  rw [if_neg (fun h => by rw [h] at hs; exact absurd hs (by decide)), if_neg (Nat.not_le.2 hs), if_neg (by simp [hl])]

/-- A sled in STANDBY or BOOT goes OFF at once. -/
theorem State.loseInput_standby (h0 : 0 < s.sled) (hs : s.sled ≤ SS.BOOT) :
    s.loseInput = { s with boot := { s.boot with inputOk := false } }.depower SS.OFF := by
  unfold State.loseInput
  exact (if_neg (Nat.ne_of_gt h0)).trans (if_pos hs)

/-- A sled that loses the input in STANDBY or BOOT is OFF. -/
theorem State.loseInput_off (hw : s.regsWf = true) (h0 : 0 < s.sled) (hs : s.sled ≤ SS.BOOT) :
    s.loseInput.sled = SS.OFF ∧ s.loseInput.boot.inputOk = false := by
  rw [State.loseInput_standby h0 hs]
  obtain ⟨x, y, z, hb⟩ := ({ s with boot := { s.boot with inputOk := false } } : State).depower_boot SS.OFF
  exact ⟨(State.reads_depower (s := { s with boot := { s.boot with inputOk := false } }) hw (by decide)).eq,
    congrArg Boot.inputOk hb⟩

theorem inputLost {i : Instr} (hi : i = .inputLoss ∨ i = .presentNRise) (hw : s.regsWf = true) :
    (SS.BOOT < s.sled → s.boot.lossAt = none → Answers i s fun t => t.boot.lossAt = some s.now ∧
      t.boot.stateDue = some SS.DRAIN ∧ t.power.inputLoss = true ∧ t = { s with boot := t.boot, power := t.power }) ∧
    (0 < s.sled → s.sled ≤ SS.BOOT → Answers i s fun t => t.sled = SS.OFF ∧ t.boot.inputOk = false) := by
  obtain rfl | rfl := hi
  · refine ⟨fun hs hl => ⟨_, congrArg Host.Outcome.next (State.loseInput_running hs hl), rfl, rfl, rfl, rfl⟩, fun h0 hs => ?_⟩
    exact ⟨_, rfl, State.loseInput_off hw h0 hs⟩
  · refine ⟨fun hs hl => ⟨_, congrArg Host.Outcome.next
      (State.loseInput_running (s := { s with boot := { s.boot with presentLow := false } }) hs hl), rfl, rfl, rfl, rfl⟩,
      fun h0 hs => ?_⟩
    exact ⟨_, rfl, State.loseInput_off (s := { s with boot := { s.boot with presentLow := false } }) hw h0 hs⟩

theorem inputLossRailsOff_off (hw : s.regsWf = true) {l : Nat} (hl : s.boot.lossAt = some l) (hn : l + 4000 ≤ s.now) :
    Answers .inputLossRailsOff s fun t => t.sled = SS.OFF ∧ t.boot.lossAt = none ∧ t.boot.railsDram = false := by
  have e : exec .inputLossRailsOff s = .next (s.depower SS.OFF) := by
    refine congrArg Host.Outcome.next ?_
    simp only [hl]
    rw [if_neg (Nat.not_lt.2 hn)]
  obtain ⟨x, y, z, hb⟩ := s.depower_boot SS.OFF
  exact ⟨_, e, (State.reads_depower hw (by decide)).eq, congrArg Boot.lossAt hb, congrArg Boot.railsDram hb⟩

end Sys2Proof.Machine
end

/-! # The end of instances at an input loss -/
section
namespace Sys2Proof.Machine

open Sys2Proof.Laws

variable {s t u : State} {p : Nat → Prop}

theorem State.Spares.setRd {x : Reduction} (h : s.Spares t p) (hi : x.insts = t.rd.insts) : s.Spares (t.setRd x) p :=
  h.updRecords rfl hi

theorem State.Spares.ownSend {c : Cell} (h : s.Spares t p) : s.Spares (t.ownSend c) p := h.upd

theorem State.Spares.cpSeq {dst sp : Nat} (h : s.Spares t p) : s.Spares (t.cpSeq dst sp).1 p := h.upd

theorem State.Spares.sendNotices {slot ctx : Nat} {l : List Nat} {b : BitVec 512} (h : s.Spares t p) :
    s.Spares (t.sendNotices slot ctx l b) p :=
  h.forEach fun _ _ k => (k.cpSeq.setRd (by rfl)).ownSend

theorem State.Spares.discardSlot {slot : Nat} (h : s.Spares t p) : s.Spares (t.discardSlot slot) p := h.setRd rfl

/-- Storing a collective's record on both sides. -/
theorem State.Spares.setInst (h : s.Spares t p) (slot : Nat) (i : Inst) : (s.setInst slot i).Spares (t.setInst slot i) p :=
  ⟨h.apart, h.wf, h.mem, h.frame, h.boot, h.si, congrArg (kset · slot i) h.insts⟩

/-- Members of a group are end-points of the rack (R235). -/
theorem State.lt_of_mem_members {g id : Nat} (h : id ∈ s.members g) : id < 384 := by
  obtain ⟨k, hk, h⟩ := List.mem_flatMap.1 h
  obtain ⟨b, hb, rfl⟩ := List.mem_map.1 h
  have hk := List.mem_range.1 hk
  have hb := List.mem_range.1 (List.mem_of_mem_filter hb)
  omega

theorem State.lt_of_mem_waited {i : Inst} {id : Nat} (h : id ∈ s.waited i) : id < 384 := by
  unfold State.waited at h
  split at h
  · exact State.lt_of_mem_members (List.mem_of_mem_filter h)
  · exact State.lt_of_mem_members h

theorem lateFld_addr (id n : Nat) (d : Bool) : (lateFld id n d).addr = R.RD_LATE.addr id := by
  unfold lateFld
  split_ifs <;> rfl

theorem State.Spares.fileLate {i : Inst} (h : s.Spares t p) (hp : ∀ id, id < 384 → p (R.RD_LATE.addr id)) :
    s.Spares (t.fileLate i) p :=
  h.forEach fun id hid k => k.fsat (by rw [lateFld_addr]; exact hp id (State.lt_of_mem_waited hid))

/-- The registers of the reduction complex that the end of a collective may change beside its slot's. -/
def lateReg (a : Nat) : Prop := 0x3000000 ≤ a ∧ a < 0x3002000

theorem lateReg_late {id : Nat} (h : id < 384) : lateReg (R.RD_LATE.addr id) := by
  unfold lateReg R.RD_LATE.addr
  omega

/-- The slot of a collective that ended is CLOSING, with its status (R261). -/
def State.slotClosed (s : State) (slot st : Nat) : State :=
  ((s.fset (R.RD_INST0.STATE slot) 2).fset (R.RD_INST0.STATUS slot) st).fsetb (R.RD_INST0.POISONED slot) false

theorem State.slotClosed_spares (s : State) (slot st : Nat) : s.Spares (s.slotClosed slot st) (· = R.RD_INST0.addr slot) := by
  have h := State.Spares.rfl_ s (· = R.RD_INST0.addr slot)
  exact ((h.fset rfl).fset rfl).fsetb rfl

theorem State.reads_slotClosed (h : s.regsWf = true) (slot st : Nat) : (s.slotClosed slot st).Reads (R.RD_INST0.STATE slot) 2 :=
  have k : (s.fset (R.RD_INST0.STATE slot) 2).Reads (R.RD_INST0.STATE slot) 2 := .stored h _ (by simp [Fld.Fits])
  (k.fset (by simp [Fld.Beside])).fsetb (by simp [Fld.Beside])

/-- An armed collective that is lost ends: its slot is CLOSING, its notices are sent, its lateness is filed (R261, R262, R264). -/
theorem State.instEnd_spares {slot : Nat} {i : Inst} (h : s.armed slot = some i) :
    ∃ j, ((s.slotClosed slot ST.LOST).setInst slot j).Spares (s.instEnd slot ST.LOST) lateReg := by
  have hb : (ST.LOST == ST.MISMATCH || ST.LOST == ST.POISON) = false := by decide
  have hl : (ST.LOST == ST.LOST) = true := by decide
  have ho : (ST.LOST != ST.OK) = true := by decide
  simp only [State.instEnd, h, hb, hl, ho, State.when, Bool.false_eq_true, if_false, if_true]
  have k : (s.slotClosed slot ST.LOST).Spares _ lateReg :=
    (((State.Spares.rfl_ (s.slotClosed slot ST.LOST) lateReg).finc (f := R.RD_STATS2.RESULT_LOST) (n := 1)
      ⟨by decide, by decide⟩).almAdd (a := 2) (b := 0) (c := 100) (n := 1)).fileLate (i := i) fun _ => lateReg_late
  exact ⟨_, (k.discardSlot.setInst slot _).sendNotices⟩

theorem State.instEnd_of_not_armed {slot st : Nat} (h : s.armed slot = none) : s.instEnd slot st = s := by
  simp only [State.instEnd, h]

/-- What the loss of the collective of slot x makes of a state. -/
structure State.Loses (s t : State) (x : Nat) : Prop where
  wf : t.regsWf = true
  mem : t.mem = s.mem
  now : t.now = s.now
  slot : (s.armed x).isSome = true → t.slotState x = 2
  others : ∀ y, y < 8192 → y ≠ x → t.slotState y = s.slotState y ∧ kget t.rd.insts y = kget s.rd.insts y
  same : s.armed x = none → t = s

/-- An end that closes the slot, stores its record and touches neither a slot's register nor another record loses the collective. -/
theorem State.Spares.loses {v : State} {x : Nat} {i j : Inst} (ha : s.armed x = some i)
    (hc : s.Spares v (· = R.RD_INST0.addr x)) (hr : v.Reads (R.RD_INST0.STATE x) 2)
    (k : (v.setInst x j).Spares t lateReg) : s.Loses t x := by
  have hl : ∀ y, ¬lateReg (R.RD_INST0.addr y) := fun y => by
    unfold lateReg R.RD_INST0.addr
    omega
  have hf : ∀ f, (v.setInst x j).fget f = v.fget f := fun _ => rfl
  have hm : (v.setInst x j).mem = v.mem := rfl
  have hn : (v.setInst x j).now = v.now := rfl
  have hi : (v.setInst x j).rd.insts = kset v.rd.insts x j := rfl
  refine ⟨k.wf hr.wf, by rw [k.mem, hm, hc.mem], by rw [k.now_eq, hn, hc.now_eq], fun _ => ?_, fun y hy hne => ⟨?_, ?_⟩,
    fun h => by rw [h] at ha; cases ha⟩
  · rw [State.slotState, k.fget_eq (hl x), hf, hr.eq]
  · rw [State.slotState, k.fget_eq (hl y), hf, hc.fget_eq fun e => hne (by simp only [R.RD_INST0.addr] at e; omega), State.slotState]
  · rw [k.insts, hi, ← hc.insts]
    exact kget_kset_ne hne _ _

theorem State.instEnd_loses (h : s.regsWf = true) {x : Nat} : s.Loses (s.instEnd x ST.LOST) x := by
  cases ha : s.armed x with
  | none =>
    rw [State.instEnd_of_not_armed ha]
    exact ⟨h, rfl, rfl, fun k => by simp [ha] at k, fun _ _ _ => ⟨rfl, rfl⟩, fun _ => rfl⟩
  | some i =>
    obtain ⟨j, k⟩ := State.instEnd_spares ha
    exact (s.slotClosed_spares x ST.LOST).loses ha (State.reads_slotClosed h x ST.LOST) k

theorem State.armed_congr {y : Nat} (hs : t.slotState y = s.slotState y) (hi : kget t.rd.insts y = kget s.rd.insts y) :
    t.armed y = s.armed y := by rw [State.armed, State.armed, hs, hi]

/-- A slot that is CLOSING holds no armed collective. -/
theorem State.armed_of_closing {y : Nat} (h : s.slotState y = 2) : s.armed y = none := if_neg (by rw [h]; decide)

/-- What the loss of a collective keeps: slots that are CLOSING, and that others are CLOSING or armed. -/
theorem State.Loses.closing {x y : Nat} (h : s.Loses t x) (hy : y < 8192) (hs : s.slotState y = 2) : t.slotState y = 2 := by
  obtain rfl | hn := eq_or_ne y x
  · rw [h.same (State.armed_of_closing hs), hs]
  · rw [(h.others y hy hn).1, hs]

theorem State.Loses.closing_or_armed {x y : Nat} (h : s.Loses t x) (hy : y < 8192)
    (hs : s.slotState y = 2 ∨ (s.armed y).isSome = true) : t.slotState y = 2 ∨ (t.armed y).isSome = true := by
  obtain hs | hs := hs
  · exact .inl (h.closing hy hs)
  · obtain rfl | hn := eq_or_ne y x
    · exact .inl (h.slot hs)
    · obtain ⟨h1, h2⟩ := h.others y hy hn
      exact .inr (by rwa [State.armed_congr h1 h2])

/-- Every armed collective is lost: its slot is CLOSING, and hub memory and the frame stand (R467). -/
theorem State.loseInstances_closes (h : s.regsWf = true) (hx : ∀ x ∈ s.rd.insts, x.1 < 8192) :
    s.loseInstances.mem = s.mem ∧ s.loseInstances.now = s.now ∧
      ∀ x ∈ s.rd.insts, s.armed x.1 ≠ none → s.loseInstances.slotState x.1 = 2 := by
  have hl : ∀ y ∈ (s.rd.insts.map (·.1)).filter fun t => (s.armed t).isSome, y < 8192 ∧ (s.armed y).isSome = true := by
    intro y hy
    obtain ⟨hm, ha⟩ := List.mem_filter.1 hy
    obtain ⟨x, hxm, rfl⟩ := List.mem_map.1 hm
    exact ⟨hx x hxm, ha⟩
  obtain ⟨⟨-, hm, hn, -⟩, hs⟩ := State.forEach_reaches (s := s)
    (l := (s.rd.insts.map (·.1)).filter fun t => (s.armed t).isSome) (f := fun s x => s.instEnd x ST.LOST)
    (I := fun u => u.regsWf = true ∧ u.mem = s.mem ∧ u.now = s.now ∧
      ∀ y, y < 8192 → (s.armed y).isSome = true → u.slotState y = 2 ∨ (u.armed y).isSome = true)
    (P := fun y u => y < 8192 → u.slotState y = 2)
    (fun u x hx ⟨hw, hm, hn, ha⟩ => by
      have k := State.instEnd_loses (x := x) hw
      exact ⟨k.wf, k.mem.trans hm, k.now.trans hn, fun y hy hs => k.closing_or_armed hy (ha y hy hs)⟩)
    (fun u x hx ⟨hw, _, _, ha⟩ hy => by
      have k := State.instEnd_loses (x := x) hw
      obtain hs | hs := ha x hy (hl x hx).2
      · exact k.closing hy hs
      · exact k.slot hs)
    (fun u x hx y ⟨hw, _, _, _⟩ hs hy => (State.instEnd_loses (x := x) hw).closing hy (hs hy))
    ⟨h, rfl, rfl, fun y _ hs => .inr hs⟩
  exact ⟨hm, hn, fun x hm ha => hs x.1
    (.inl (List.mem_filter.2 ⟨List.mem_map_of_mem hm, Option.isSome_iff_ne_none.2 ha⟩)) (hx x hm)⟩

/-- What is left of a sled two frames after the loss of its input: notices are sent once, and the pages of before close (R467). -/
def State.recordsClosed (s : State) (n : Nat) : State :=
  (s.setRd { s.rd with notices := s.rd.notices.map fun a => { a with sends := 3 } }).closePages 3
    ((s.al.pages.filter (·.frame < n)).map (·.period))

theorem State.recordsClosed_slotState (s : State) (n x : Nat) : (s.recordsClosed n).slotState x = s.slotState x := rfl

theorem State.recordsClosed_mem (s : State) (n : Nat) : (s.recordsClosed n).mem = s.mem := rfl

theorem State.sends_of_recordsClosed {n : Nat} {a : Notice} (h : a ∈ (s.recordsClosed n).rd.notices) : a.sends = 3 := by
  obtain ⟨b, -, rfl⟩ := List.mem_map.1 h
  rfl

/-- Every open page opened at frame n or later. -/
theorem State.frame_of_recordsClosed {n : Nat} (hn : n ≤ s.now) {a : Page} (h : a ∈ (s.recordsClosed n).al.pages) :
    n ≤ a.frame := by
  obtain ⟨b, hb, rfl⟩ := List.mem_map.1 h
  split
  · exact hn
  · rename_i hc
    by_contra hl
    refine hc ?_
    have hl : b.frame < n := Nat.not_le.1 hl
    have hp : b.period ∈ (s.al.pages.filter (·.frame < n)).map (·.period) :=
      List.mem_map_of_mem (List.mem_filter.2 ⟨hb, by simpa using hl⟩)
    have hf : b.frame ≠ s.now := by omega
    simp only [Bool.and_eq_true, List.contains_iff_mem, bne_iff_ne]
    exact ⟨hp, hf⟩

theorem inputLossInstanceEnd_closes (hw : s.regsWf = true) {l : Nat} (hl : s.boot.lossAt = some l) (hn : l + 2 ≤ s.now)
    (hx : ∀ x ∈ s.rd.insts, x.1 < 8192 ∧ x.2.group < 4096) :
    Answers .inputLossInstanceEnd s fun t =>
      (∀ x ∈ s.rd.insts, s.armed x.1 ≠ none → t.slotState x.1 = 2) ∧ (∀ n ∈ t.rd.notices, n.sends = 3) ∧
      (∀ p ∈ t.al.pages, l + 2 ≤ p.frame) ∧ t.mem = s.mem := by
  have e : exec .inputLossInstanceEnd s = .next (s.loseInstances.recordsClosed (l + 2)) := by
    refine congrArg Host.Outcome.next ?_
    simp only [hl]
    exact if_neg (Nat.not_lt.2 hn)
  obtain ⟨hm, ht, hs⟩ := State.loseInstances_closes hw fun x h => (hx x h).1
  refine ⟨_, e, fun x h ha => ?_, fun a => State.sends_of_recordsClosed, fun a => State.frame_of_recordsClosed (ht ▸ hn), ?_⟩
  · rw [State.recordsClosed_slotState, hs x h ha]
  · rw [State.recordsClosed_mem, hm]

/-- Settles O39: the commands of power-on, BOOT, INIT, drain, HALT and input loss, each by what it answers. -/
theorem sledStates : Obligations.SledStates :=
  ⟨fun _ hw => ⟨fun _ => powerOn_standby hw, fun _ => strapChange_alerts hw, fun _ _ => bootEntry_railFail hw,
      fun _ _ _ => bootEntry_init hw, fun _ _ => bootEntry_recovery hw, bootFailClear_clears hw, fun _ => bootHold_stores hw,
      bootHold_releases hw, initEnd_leaves hw⟩,
    fun _ hw => ⟨maint_drains, maint_ignored hw, resume_discovers, resume_ignored hw,
      fun _ hd hs he hi => ⟨drainEnd_maintenance hw hd hs he hi, drainEnd_standby hw hd hs he hi⟩, thermalTrip_halts hw,
      fun _ hi => inputLost hi hw, fun _ hl => inputLossInstanceEnd_closes hw hl, fun _ => inputLossRailsOff_off hw⟩⟩

end Sys2Proof.Machine
end

/-! # Lock states and mastership -/
section
namespace Sys2Proof.Machine

open Sys2Proof.Laws

variable {s t : State}

/-! ## Fields that are set together -/

/-- Fields stored one after the other. -/
def State.fsetAll (s : State) (l : List (Fld × Nat)) : State := l.foldl (fun s e => s.fset e.1 e.2) s

/-- Fields that fit and share no bit hold what was stored in them, in whatever order. -/
theorem sets_fsetAll {l : List (Fld × Nat)} (hw : s.regsWf = true) (hf : ∀ e ∈ l, e.1.Fits e.2)
    (hd : l.Pairwise fun a b => Apart b.1 a.1) : Sets s (s.fsetAll l) l := by
  induction l generalizing s with
  | nil => exact ⟨by simp, fun _ _ => rfl⟩
  | cons a l ih =>
    obtain ⟨⟨hl, hh, hv⟩, hf⟩ := List.forall_mem_cons.1 hf
    obtain ⟨ha, hd⟩ := List.pairwise_cons.1 hd
    obtain ⟨hset, hframe⟩ := State.sets_fset hw hl hh hv
    obtain ⟨kset, kframe⟩ := ih (s.regsWf_fset hw a.1 a.2) hf hd
    refine ⟨List.forall_mem_cons.2 ⟨(kframe a.1 ha).trans (hset a (List.mem_singleton_self _)), kset⟩, fun g hg => ?_⟩
    obtain ⟨hga, hgl⟩ := List.forall_mem_cons.1 hg
    exact (kframe g hgl).trans (hframe g fun _ he => List.mem_singleton.1 he ▸ hga)

/-- What fields hold depends on the registers and the latched straps alone. -/
theorem Sets.congr {l : List (Fld × Nat)} {u : State} (h : Sets s t l) (hr : u.regs = t.regs)
    (hb : u.boot.latched = t.boot.latched) : Sets s u l := by
  have e (f : Fld) : u.fget f = t.fget f := by rw [State.fget, State.fget, State.reg, State.reg, hr, hb]
  simpa only [Sets, e] using h

/-! ## The timed moves (R39) -/

theorem sets_lock (hw : s.regsWf = true) {v : Nat} (hv : v < 4) (hr : t.regs = (s.fset R.TB_STATUS.LOCK v).regs)
    (hb : t.boot = s.boot) : Sets s t [(R.TB_STATUS.LOCK, v)] :=
  Sets.congr (State.sets_fset hw (by decide) (by decide) hv) hr (congrArg Boot.latched hb)

theorem lockAchieved_locks (hw : s.regsWf = true) (hl : s.lock = LK.ACQUIRE) (hn : 64 ≤ s.tb.okRun) :
    Answers .lockAchieved s fun t => Sets s t [(R.TB_STATUS.LOCK, LK.LOCKED)] ∧
      t = { s with regs := t.regs, tb := { s.tb with lockedFor := 0, badRun := 0, silent := 0 } } :=
  ⟨_, congrArg Host.Outcome.next (if_pos ⟨hl, hn⟩), sets_lock hw (by decide) rfl rfl, rfl⟩

theorem lockLost_acquires (hw : s.regsWf = true) (hl : s.lock = LK.LOCKED) (hm : s.isMaster = false) (hn : 4 ≤ s.tb.badRun) :
    Answers .lockLost s fun t => Sets s t [(R.TB_STATUS.LOCK, LK.ACQUIRE)] ∧
      t = { s with regs := t.regs, tb := { s.tb with okRun := 0, badRun := 0 } } :=
  ⟨_, congrArg Host.Outcome.next (if_pos ⟨hl, by simp [hm], hn⟩), sets_lock hw (by decide) rfl rfl, rfl⟩

theorem holdoverEntry_holds (hw : s.regsWf = true) (hl : s.lock = LK.LOCKED) (hm : s.isMaster = false) (hn : 4 ≤ s.tb.silent) :
    Answers .holdoverEntry s fun t => Sets s t [(R.TB_STATUS.LOCK, LK.HOLDOVER)] ∧
      t = { s with regs := t.regs, tb := { s.tb with holdFor := 0 }, al := t.al } :=
  ⟨_, congrArg Host.Outcome.next (if_pos ⟨hl, by simp [hm], hn⟩), sets_lock hw (by decide) rfl rfl, rfl⟩

theorem holdoverExpiry_frees (hw : s.regsWf = true) (hl : s.lock = LK.HOLDOVER) (hm : s.isMaster = false)
    (hn : 64 ≤ s.tb.holdFor) :
    Answers .holdoverExpiry s fun t => Sets s t [(R.TB_STATUS.LOCK, LK.FREE)] ∧
      t = { s with regs := t.regs, tb := { s.tb with holdFor := 0 } } :=
  ⟨_, congrArg Host.Outcome.next (if_pos ⟨hl, by simp [hm], hn⟩), sets_lock hw (by decide) rfl rfl, rfl⟩

/-! ## The frame master (R44 to R47) -/

/-- The latched plane fits the fields that name a plane. -/
theorem State.plane_lt (s : State) : s.plane < 16 := Nat.mod_lt _ (by decide)

theorem becameMaster (hw : s.regsWf = true) : BecameMaster s s.becomeMaster := by
  have hp := s.plane_lt
  have h : Sets s (s.fsetAll _) [(R.TB_STATUS.LOCK, LK.LOCKED), (R.TB_STATUS.MASTER, 1), (R.TB_STATUS.MASTER_PLANE, s.plane),
      (R.TB_STATUS.RELAYED, 0)] := sets_fsetAll hw (by simp [Fld.Fits, LK.LOCKED, hp]) (by simp [Apart])
  exact ⟨Sets.congr h rfl rfl, rfl⟩

theorem masterDeclare_masters (hw : s.regsWf = true) (hp : s.present = true) (hs : SS.DISCOVERY ≤ s.sled)
    (hl : s.lock = LK.FREE) (hn : 64 ≤ s.tb.discFor) (hh : s.hearsLower 64 = false) (hc : s.chooseFollow = none) :
    Answers .masterDeclare s (BecameMaster s) :=
  ⟨_, congrArg Host.Outcome.next (if_pos ⟨hp, hs, hl, hn, by simp [hh], by simp [hc]⟩), becameMaster hw⟩

theorem masterTakeover_masters (hw : s.regsWf = true) (hp : s.present = true) (hl : s.lock = LK.HOLDOVER)
    (hn : 16 ≤ s.tb.holdFor) (hh : s.hearsLower 4 = false) : Answers .masterTakeover s (BecameMaster s) :=
  ⟨_, congrArg Host.Outcome.next (if_pos ⟨hp, hl, hn, by simp [hh]⟩), becameMaster hw⟩

theorem masterHandover_masters (hw : s.regsWf = true) (hn : s.now % 4096 = 0) (hm : s.isMaster = false)
    (hl : s.lock = LK.LOCKED) (hk : 4096 ≤ s.tb.lockedFor) (hp : s.plane < s.fget R.TB_STATUS.MASTER_PLANE) :
    Answers (.masterHandover s.plane) s (BecameMaster s) :=
  ⟨_, congrArg Host.Outcome.next (((if_neg (not_not_intro hn)).trans (if_pos rfl)).trans
    (if_pos ⟨by simp [hm], hl, hk, hp⟩)), becameMaster hw⟩

/-- The master plane becomes q, which is followed directly, and the sled is no master. -/
def State.handOver (s : State) (q : Nat) : State :=
  s.fsetAll [(R.TB_STATUS.MASTER_PLANE, q), (R.TB_STATUS.FOLLOW_PLANE, q), (R.TB_STATUS.RELAYED, 0), (R.TB_STATUS.MASTER, 0)]

/-- Markers count as those of sled q only while the mesh port to it is UP. -/
theorem State.meshUp_of_markerOf {q : Nat} {m : MarkerSt} (h : s.markerOf q = some m) : s.meshUp q = true := by
  by_contra hc
  simp [State.markerOf, hc] at h

/-- A port's state is no field of TB_STATUS. -/
theorem State.meshUp_fset_masterPlane (s : State) (q v : Nat) : (s.fset R.TB_STATUS.MASTER_PLANE v).meshUp q = s.meshUp q := by
  have ha : R.OP_PORT_STATUS.addr (128 + q) ≠ R.TB_STATUS.addr := by
    simp only [R.OP_PORT_STATUS.addr, opBase, R.TB_STATUS.addr]
    split <;> omega
  have h : (s.fset R.TB_STATUS.MASTER_PLANE v).portState (128 + q) = s.portState (128 + q) := s.fget_fset_ne ha v
  simp only [State.meshUp, h]
  rfl

theorem execMasterHandover_handOver {q : Nat} {m : MarkerSt} (hn : s.now % 4096 = 0) (hq : q ≠ s.plane)
    (hm : s.markerOf q = some m) (hk : 4096 ≤ m.lockedFor) (hp : q < s.fget R.TB_STATUS.MASTER_PLANE) :
    exec (.masterHandover q) s = .next (s.handOver q) := by
  have hu : (s.fset R.TB_STATUS.MASTER_PLANE q).meshUp q = true :=
    (s.meshUp_fset_masterPlane q q).trans (State.meshUp_of_markerOf hm)
  have hany : (s.markerOf q).any (4096 ≤ ·.lockedFor) = true := by simp [hm, hk]
  have e : (if (s.fset R.TB_STATUS.MASTER_PLANE q).isMaster = true ∨ (s.fset R.TB_STATUS.MASTER_PLANE q).meshUp q = true then
      ((s.fset R.TB_STATUS.MASTER_PLANE q).fset R.TB_STATUS.FOLLOW_PLANE q).fsetb R.TB_STATUS.RELAYED false
      else s.fset R.TB_STATUS.MASTER_PLANE q).fsetb R.TB_STATUS.MASTER false = s.handOver q := by rw [if_pos (.inr hu)]; rfl
  exact congrArg Host.Outcome.next (((if_neg (not_not_intro hn)).trans (if_neg hq)).trans ((if_pos ⟨hany, hp⟩).trans e))

theorem sets_handOver (hw : s.regsWf = true) {q : Nat} (hq : q < 16) : Sets s (s.handOver q)
    [(R.TB_STATUS.MASTER_PLANE, q), (R.TB_STATUS.FOLLOW_PLANE, q), (R.TB_STATUS.RELAYED, 0), (R.TB_STATUS.MASTER, 0)] :=
  sets_fsetAll hw (by simp [Fld.Fits, hq]) (by simp [Apart])

theorem masterHandover_yields (hw : s.regsWf = true) (q : Nat) (m : MarkerSt) (hn : s.now % 4096 = 0) (hq : q ≠ s.plane)
    (hm : s.markerOf q = some m) (hk : 4096 ≤ m.lockedFor) (hp : q < s.fget R.TB_STATUS.MASTER_PLANE) :
    Answers (.masterHandover q) s fun t =>
      Sets s t [(R.TB_STATUS.MASTER_PLANE, q), (R.TB_STATUS.FOLLOW_PLANE, q), (R.TB_STATUS.RELAYED, 0),
        (R.TB_STATUS.MASTER, 0)] ∧ t = { s with regs := t.regs } :=
  ⟨_, execMasterHandover_handOver hn hq hm hk hp, sets_handOver hw (hp.trans (bitsOf_lt _ 7 4)), rfl⟩

/-! ## The bar of a slip (R48) -/

theorem slipBarEnd_ends (h : s.tb.slipUntil ≤ s.now) :
    Answers .slipBarEnd s fun t => t.slipBarred = false ∧ t = { s with tb := { s.tb with slipUntil := 0 } } :=
  ⟨_, congrArg Host.Outcome.next (if_pos h), decide_eq_false (Nat.not_lt_zero _), rfl⟩

/-- Settles O1: the timed moves of the lock state, the three ways to mastership and its handover, and the end of a slip's bar. -/
theorem timebaseMoves : Obligations.TimebaseMoves :=
  ⟨fun _ hw => ⟨lockAchieved_locks hw, lockLost_acquires hw, holdoverEntry_holds hw, holdoverExpiry_frees hw⟩,
    fun _ hw => ⟨masterDeclare_masters hw, masterTakeover_masters hw, masterHandover_masters hw, masterHandover_yields hw,
      slipBarEnd_ends⟩⟩

end Sys2Proof.Machine
end

/-! # Frame markers and alignment -/
section
namespace Sys2Proof.Machine

open Sys2Proof.Laws

variable {s t : State} {port : Nat} {m : Marker}

/-! ## Whole numbers in fields -/

theorem unsigned_lt (v : Int) (n : Nat) : unsigned v n < 2 ^ n := by
  have h : 0 < ((2 ^ n : Nat) : Int) := Int.natCast_pos.2 (Nat.two_pow_pos n)
  have hl := Int.emod_lt_of_pos v h
  have hn := Int.emod_nonneg v h.ne'
  rw [unsigned]
  omega

/-- Half of an even number of units needs no free choice. -/
theorem State.halfOf_even (s : State) {d : Int} (h : d % 2 = 0) : s.halfOf d = d / 2 := by
  rw [State.halfOf, if_neg (by omega), Int.add_zero]

/-! ## What a marker that is taken leaves as it is -/

/-- Beside the registers and the runs: the markers recorded, the frame number, hub memory and the ports stand from s to t. -/
structure State.Follows (s t : State) : Prop where
  markers : t.tb.markers = s.tb.markers
  frame : t.tb.frame = s.tb.frame
  mem : t.mem = s.mem
  ports : t.ports = s.ports
  wf : s.regsWf = true → t.regsWf = true

theorem State.Follows.rfl_ (s : State) : s.Follows s := ⟨rfl, rfl, rfl, rfl, id⟩

theorem State.Follows.fset {f : Fld} {v : Nat} (h : s.Follows t) : s.Follows (t.fset f v) :=
  { h with wf := fun hw => t.regsWf_fset (h.wf hw) f v }

theorem State.Follows.fsetb {f : Fld} {v : Bool} (h : s.Follows t) : s.Follows (t.fsetb f v) := h.fset

/-- An update of the timebase's runs, of the Almanac, the chiplet or the free values. -/
theorem State.Follows.upd (h : s.Follows t) {tb al chip free} (hm : tb.markers = t.tb.markers) (hf : tb.frame = t.tb.frame) :
    s.Follows { t with tb := tb, al := al, chip := chip, free := free } :=
  { h with markers := hm.trans h.markers, frame := hf.trans h.frame }

theorem State.Follows.follow (h : s.Follows t) : s.Follows t.follow := by
  dsimp only [State.follow]
  split
  · exact h
  · split
    · split
      · exact h.fset
      · exact h
    · split
      · exact h.fset.fset.fsetb.fset.upd rfl rfl
      · exact h.fset.fset.fsetb

theorem State.Follows.noteNumber (h : s.Follows t) : s.Follows (t.noteNumber port m) := by
  dsimp only [State.noteNumber]
  split
  · exact h.upd rfl rfl
  · split
    · split
      · exact h.fsetb.upd rfl rfl
      · exact h
    · split
      · exact h.upd rfl rfl
      · exact h

theorem State.Follows.estimate {t1 t2 : Int} (h : s.Follows t) : s.Follows (t.estimate t1 t2) := h.fset.fset.upd rfl rfl

theorem State.Follows.chipMarker {k : Nat} (h : s.Follows t) : s.Follows (t.chipMarker k m) := by
  dsimp only [State.chipMarker]
  split
  · exact h.upd rfl rfl
  · exact h.upd rfl rfl

/-- The marker is recorded with its ARRIVAL, before anyone follows it. -/
def State.recorded (s : State) (port : Nat) (m : Marker) : State := (s.noteArrival port m).noteMarker port m

/-- A marker that is not ignored: what follows from it once it is recorded. -/
theorem State.frameMarker_eq (ht : s.trained port = true) (hd : m.damaged = false)
    (hp : s.fget (R.OP_PORT_STATUS.FAR_PROTO port) ≠ 4) : s.frameMarker port m =
      if 160 ≤ port then (s.recorded port m).chipMarker (port - 160) m
      else if port < 128 ∨ 144 ≤ port then s.recorded port m
      else if (s.recorded port m).follow.isMaster then (s.recorded port m).follow
      else if (s.recorded port m).follow.chooseFollow.any (·.1 == port - 128) ∧ (s.recorded port m).follow.lock ≠ LK.FREE then
        ((s.recorded port m).follow.noteNumber port m).estimate m.t1 ((s.recorded port m).follow.port port).arrivalExt
      else (s.recorded port m).follow :=
  if_neg (by simp [ht, hd, hp])

theorem State.frameMarker_follows (ht : s.trained port = true) (hd : m.damaged = false)
    (hp : s.fget (R.OP_PORT_STATUS.FAR_PROTO port) ≠ 4) : (s.recorded port m).Follows (s.frameMarker port m) := by
  have h := State.Follows.rfl_ (s.recorded port m)
  rw [State.frameMarker_eq ht hd hp]
  split
  · exact h.chipMarker
  · split
    · exact h
    · split
      · exact h.follow
      · split
        · exact h.follow.noteNumber.estimate
        · exact h.follow

/-! ## The record (R37, R83) -/

/-- The extended value ends in ARRIVAL. -/
theorem extendArrival_mod (prev : Int) (a : Nat) (up : Bool) : (extendArrival prev a up - a) % 512 = 0 := by
  rw [extendArrival]
  split <;> omega

/-- No value that ends in ARRIVAL lies nearer the previous one. -/
theorem extendArrival_near (prev : Int) (a : Nat) (up : Bool) : (extendArrival prev a up - prev).natAbs ≤ 256 := by
  rw [extendArrival]
  split <;> omega

/-- Which of the free values are used up matters to the next one alone. -/
theorem State.noteArrival_eq (s : State) (port : Nat) (m : Marker) : ∃ up n, s.noteArrival port m =
    { s.setPort port { s.port port with arrivalExt := extendArrival (s.port port).arrivalExt m.arrival up } with free := n } := by
  dsimp only [State.noteArrival, State.when]
  split
  · exact ⟨_, _, rfl⟩
  · exact ⟨_, _, rfl⟩

theorem State.recorded_marker (s : State) (port : Nat) (m : Marker) :
    ∃ k, kget (s.recorded port m).tb.markers port = some k ∧ k.frame = m.frame ∧ k.lock = m.lock ∧
      k.masterPlane = m.masterPlane ∧ k.relayed = m.relayed ∧ k.age = 0 ∧ k.arrival = m.t1 :=
  ⟨_, kget_kset_self _ _ _, rfl, rfl, rfl, rfl, rfl, rfl⟩

theorem State.recorded_marker_ne (s : State) (m : Marker) {q : Nat} (h : q ≠ port) :
    kget (s.recorded port m).tb.markers q = kget s.tb.markers q := by
  obtain ⟨up, n, e⟩ := s.noteArrival_eq port m
  rw [State.recorded, e]
  exact kget_kset_ne h _ _

theorem State.recorded_arrival (s : State) (port : Nat) (m : Marker) : ∃ up,
    ((s.recorded port m).port port).arrivalExt = extendArrival (s.port port).arrivalExt m.arrival up := by
  obtain ⟨up, n, e⟩ := s.noteArrival_eq port m
  refine ⟨up, ?_⟩
  rw [State.recorded, e]
  exact congrArg PortSt.arrivalExt (s.port_setPort port _)

theorem State.recorded_frame (s : State) (port : Nat) (m : Marker) : (s.recorded port m).tb.frame = s.tb.frame := by
  obtain ⟨up, n, e⟩ := s.noteArrival_eq port m
  rw [State.recorded, e]
  rfl

theorem State.recorded_mem (s : State) (port : Nat) (m : Marker) : (s.recorded port m).mem = s.mem := by
  obtain ⟨up, n, e⟩ := s.noteArrival_eq port m
  rw [State.recorded, e]
  rfl

theorem State.regsWf_recorded (h : s.regsWf = true) (port : Nat) (m : Marker) : (s.recorded port m).regsWf = true := by
  obtain ⟨up, n, e⟩ := s.noteArrival_eq port m
  rw [State.recorded, e]
  exact h

theorem frameMarker_records (s : State) (port : Nat) (m : Marker) (ht : s.trained port = true) (hd : m.damaged = false)
    (hp : s.fget (R.OP_PORT_STATUS.FAR_PROTO port) ≠ 4) :
    Answers (.frameMarker port m) s fun t =>
      (∃ k, kget t.tb.markers port = some k ∧ k.frame = m.frame ∧ k.lock = m.lock ∧
        k.masterPlane = m.masterPlane ∧ k.relayed = m.relayed ∧ k.age = 0 ∧ k.arrival = m.t1) ∧
      (∀ q, q ≠ port → kget t.tb.markers q = kget s.tb.markers q) ∧ t.tb.frame = s.tb.frame ∧ t.mem = s.mem ∧
      ((t.port port).arrivalExt - m.arrival) % 512 = 0 ∧
      ((t.port port).arrivalExt - (s.port port).arrivalExt).natAbs ≤ 256 := by
  have h := State.frameMarker_follows ht hd hp
  obtain ⟨up, ha⟩ := s.recorded_arrival port m
  have he : ((s.frameMarker port m).port port).arrivalExt = extendArrival (s.port port).arrivalExt m.arrival up := by
    rw [← ha, State.port, h.ports]
    rfl
  refine ⟨_, rfl, ?_, fun q hq => ?_, h.frame.trans (s.recorded_frame port m), h.mem.trans (s.recorded_mem port m), ?_, ?_⟩
  · rw [h.markers]
    exact s.recorded_marker port m
  · rw [h.markers]
    exact s.recorded_marker_ne m hq
  · rw [he]
    exact extendArrival_mod _ _ _
  · rw [he]
    exact extendArrival_near _ _ _

/-! ## The estimates (R38) -/

/-- The runs and the free values are no registers. -/
theorem State.Reads.updRuns {g : Fld} {v : Nat} {tb : Timebase} {free : Nat} (h : t.Reads g v) :
    ({ t with tb := tb, free := free } : State).Reads g v := h.congr rfl rfl

/-- Both fields hold a half of their whole number of units. -/
theorem State.estimate_reads (h : s.regsWf = true) (t1 t2 : Int) :
    (s.estimate t1 t2).Reads R.TB_STATUS.OFFSET (unsigned (s.halfOf (t1 - t2)) 16) ∧
      (s.estimate t1 t2).Reads R.TB_STATUS.DELAY (unsigned (s.halfOf (t1 + t2)) 16) := by
  have ho : (s.fset R.TB_STATUS.OFFSET (unsigned (s.halfOf (t1 - t2)) 16)).Reads R.TB_STATUS.OFFSET _ :=
    .stored h _ ⟨by decide, by decide, unsigned_lt _ 16⟩
  have hy := State.Reads.stored ho.wf R.TB_STATUS.DELAY (v := unsigned (s.halfOf (t1 + t2)) 16)
    ⟨by decide, by decide, unsigned_lt _ 16⟩
  exact ⟨(ho.fset (by decide)).updRuns, hy.updRuns⟩

theorem frameMarker_estimates (s u : State) (port : Nat) (m : Marker) (t2 : Int) (hw : s.regsWf = true)
    (ht : s.trained port = true) (hd : m.damaged = false) (hp : s.fget (R.OP_PORT_STATUS.FAR_PROTO port) ≠ 4)
    (hl : 128 ≤ port) (hh : port < 144) (hu : u = ((s.noteArrival port m).noteMarker port m).follow)
    (h2 : t2 = (u.port port).arrivalExt) (hm : u.isMaster = false)
    (hc : (u.chooseFollow.any fun q => q.1 == port - 128) = true) (hf : u.lock ≠ LK.FREE)
    (ho : (m.t1 - t2) % 2 = 0) (hs : (m.t1 + t2) % 2 = 0) :
    Answers (.frameMarker port m) s fun t => t.fget R.TB_STATUS.OFFSET = unsigned ((m.t1 - t2) / 2) 16 ∧
      t.fget R.TB_STATUS.DELAY = unsigned ((m.t1 + t2) / 2) 16 := by
  have e : s.frameMarker port m = (u.noteNumber port m).estimate m.t1 t2 := by
    subst hu h2
    rw [State.frameMarker_eq ht hd hp, if_neg (by omega), if_neg (by omega)]
    exact (if_neg (Bool.eq_false_iff.1 hm)).trans (if_pos ⟨hc, hf⟩)
  have hv : (u.noteNumber port m).regsWf = true := by
    subst hu
    exact ((State.Follows.rfl_ (s.recorded port m)).follow.noteNumber).wf (State.regsWf_recorded hw port m)
  obtain ⟨ro, rd⟩ := State.estimate_reads hv m.t1 t2
  rw [State.halfOf_even _ ho] at ro
  rw [State.halfOf_even _ hs] at rd
  exact ⟨_, congrArg Host.Outcome.next e, ro.eq, rd.eq⟩

/-! ## Alignment (R79, R83, R93) -/

theorem realignDone_carries (s : State) (port far : Nat) (t1 : Int) (hw : s.regsWf = true) (hr : krising s.tb.realign = true)
    (_ : krising s.ports = true) (_ : port < 176) (hk : kget s.tb.realign port ≠ none) (he : (t1 + far) % 2 = 0) :
    Answers (.realignDone ⟨port, t1, far⟩) s fun t =>
      kget t.tb.realign port = none ∧ (∀ q, q ≠ port → kget t.tb.realign q = kget s.tb.realign q) ∧
      (t.port port).arrivalExt = far ∧ Sets s t [(R.OP_DELAY.ONE_WAY port, unsigned ((t1 + far) / 2) 16)] ∧
      t = { s with tb := { s.tb with realign := t.tb.realign }, ports := t.ports, regs := t.regs, free := t.free } := by
  have e : exec (.realignDone ⟨port, t1, far⟩) s = .next { s.aligned port t1 far with
      tb := { s.tb with realign := kdel s.tb.realign port } } :=
    congrArg Host.Outcome.next (if_neg (by simpa using hk))
  have hset : Sets s (s.fset (R.OP_DELAY.ONE_WAY port) (unsigned (s.halfOf (t1 + far)) 16)) _ :=
    State.sets_fset hw (by simp) (by simp) (unsigned_lt _ 16)
  rw [s.halfOf_even he] at hset
  refine ⟨_, e, kget_kdel_self hr port, fun q hq => kget_kdel_ne hq _, congrArg PortSt.arrivalExt (s.port_setPort port _),
    Sets.congr hset ?_ rfl, rfl⟩
  rw [← s.halfOf_even he]
  rfl

end Sys2Proof.Machine
end

/-! # The frame number over a tick -/
section
namespace Sys2Proof.Machine

variable {s t u : State} {α : Type}

/-- The frame number stands from s to t. -/
def State.SameFrame (s t : State) : Prop := t.tb.frame = s.tb.frame

theorem State.SameFrame.rfl_ (s : State) : s.SameFrame s := rfl

/-! ## The ways updates are put together -/

/-- An update that spares the frame number among others. -/
theorem State.SameFrame.spared {p : Nat → Prop} (h : s.SameFrame t) (k : t.Spares u p) : s.SameFrame u := k.frame.trans h

/-- An update of anything but the timebase, and of its marks: the ports that realign, the markers recorded. -/
theorem State.SameFrame.updMarks (h : s.SameFrame t)
    {realign markers regs mem out pending tt ports sw sg tg eps rd hubs cores kern host boot vigil power si al pat chip free} :
    s.SameFrame
      { regs := regs, mem := mem, out := out, pending := pending, tb := { t.tb with realign := realign, markers := markers }
        tt := tt, ports := ports, sw := sw, sg := sg, tg := tg, eps := eps, rd := rd, hubs := hubs, cores := cores, kern := kern
        host := host, boot := boot, vigil := vigil, power := power, si := si, al := al, pat := pat, chip := chip, free := free } :=
  h

/-- An update of anything but the timebase. -/
theorem State.SameFrame.upd (h : s.SameFrame t)
    {regs mem out pending tt ports sw sg tg eps rd hubs cores kern host boot vigil power si al pat chip free} :
    s.SameFrame
      { regs := regs, mem := mem, out := out, pending := pending, tb := t.tb, tt := tt, ports := ports, sw := sw, sg := sg
        tg := tg, eps := eps, rd := rd, hubs := hubs, cores := cores, kern := kern, host := host, boot := boot, vigil := vigil
        power := power, si := si, al := al, pat := pat, chip := chip, free := free } := h

theorem State.SameFrame.ite {c : Prop} [Decidable c] (h : s.SameFrame t) (k : s.SameFrame u) :
    s.SameFrame (if c then t else u) := by
  split
  · exact h
  · exact k

/-! ## Named updates -/

theorem State.SameFrame.setReg {a v} (h : s.SameFrame t) : s.SameFrame (t.setReg a v) := h.upd
theorem State.SameFrame.hubWrite {x off b} (h : s.SameFrame t) : s.SameFrame (t.hubWrite x off b) := h.upd
theorem State.SameFrame.emit {o} (h : s.SameFrame t) : s.SameFrame (t.emit o) := h.upd
theorem State.SameFrame.ownSend {c} (h : s.SameFrame t) : s.SameFrame (t.ownSend c) := h.upd

theorem State.SameFrame.when {c} {f : State → State} (h : s.SameFrame t) (hf : ∀ {u}, s.SameFrame u → s.SameFrame (f u)) :
    s.SameFrame (t.when c f) := .ite (hf h) h

theorem State.SameFrame.forEach {l : List α} {f : State → α → State} (h : s.SameFrame t)
    (hf : ∀ {u} a, s.SameFrame u → s.SameFrame (f u a)) : s.SameFrame (t.forEach l f) :=
  State.forEach_keeps (fun _ a => hf a) l t h

theorem State.SameFrame.fset {f v} (h : s.SameFrame t) : s.SameFrame (t.fset f v) := h.setReg
theorem State.SameFrame.fsetb {f v} (h : s.SameFrame t) : s.SameFrame (t.fsetb f v) := h.fset
theorem State.SameFrame.fsat {f n} (h : s.SameFrame t) : s.SameFrame (t.fsat f n) := h.fset
theorem State.SameFrame.freeUsed (h : s.SameFrame t) : s.SameFrame t.freeUsed := h.upd
theorem State.SameFrame.finc {f n} (h : s.SameFrame t) : s.SameFrame (t.finc f n) := h.fset.ite h.fset.freeUsed
theorem State.SameFrame.fmax {f v} (h : s.SameFrame t) : s.SameFrame (t.fmax f v) := h.fset.ite h
theorem State.SameFrame.alert {bit} (h : s.SameFrame t) : s.SameFrame (t.alert bit) := h.setReg.emit
theorem State.SameFrame.setPort {p x} (h : s.SameFrame t) : s.SameFrame (t.setPort p x) := h.upd
theorem State.SameFrame.setEp {e x} (h : s.SameFrame t) : s.SameFrame (t.setEp e x) := h.upd
theorem State.SameFrame.setHub {h' x} (h : s.SameFrame t) : s.SameFrame (t.setHub h' x) := h.upd
theorem State.SameFrame.setCore {c x} (h : s.SameFrame t) : s.SameFrame (t.setCore c x) := h.upd

theorem State.SameFrame.answer {r status progress result} (h : s.SameFrame t) :
    s.SameFrame (t.answer r status progress result) := by
  rw [(State.Replies.answer t r status progress result).frame]
  exact h.upd

theorem State.SameFrame.almUpd {k' f} (h : s.SameFrame t) : s.SameFrame (t.almUpd k' f) := h.upd
theorem State.SameFrame.almAdd {kind entry off n} (h : s.SameFrame t) : s.SameFrame (t.almAdd kind entry off n) := h.almUpd
theorem State.SameFrame.almMax {kind entry off v} (h : s.SameFrame t) : s.SameFrame (t.almMax kind entry off v) := h.almUpd
theorem State.SameFrame.almMin {kind entry off v} (h : s.SameFrame t) : s.SameFrame (t.almMin kind entry off v) := h.almUpd
theorem State.SameFrame.almLow {kind entry off v} (h : s.SameFrame t) : s.SameFrame (t.almLow kind entry off v) := h.almUpd
theorem State.SameFrame.almOr {kind entry off v} (h : s.SameFrame t) : s.SameFrame (t.almOr kind entry off v) := h.almUpd

/-! ## Markers sent -/

theorem State.SameFrame.chipFollow (h : s.SameFrame t) : s.SameFrame t.chipFollow := h.upd
theorem State.SameFrame.sendMarkers (h : s.SameFrame t) : s.SameFrame t.sendMarkers := h.forEach fun _ k => k.setPort.emit

/-! ## Registers and bank swaps -/

theorem State.SameFrame.setSwapSt {fam x} (h : s.SameFrame t) : s.SameFrame (t.setSwapSt fam x) := by
  dsimp only [State.setSwapSt]
  split <;> exact h.upd

theorem State.SameFrame.resetRegs {lo hi} (h : s.SameFrame t) : s.SameFrame (t.resetRegs lo hi) := h.upd

theorem State.SameFrame.portPump {p} (h : s.SameFrame t) : s.SameFrame (t.portPump p) := by
  rw [(t.portPump_only p).1]
  exact h.upd

theorem State.SameFrame.portSend {p c} (h : s.SameFrame t) : s.SameFrame (t.portSend p c) := h.setPort.portPump

/-! ## Timetable -/

theorem State.SameFrame.grantCredits (h : s.SameFrame t) : s.SameFrame t.grantCredits := h.upd
theorem State.SameFrame.bankFigures (h : s.SameFrame t) : s.SameFrame t.bankFigures := h.fset.fset.fset
theorem State.SameFrame.tableDirty {t'} (h : s.SameFrame t) : s.SameFrame (t.tableDirty t') := h.upd
theorem State.SameFrame.epochRise (h : s.SameFrame t) : s.SameFrame t.epochRise := h.upd.ite h.fset.upd.almAdd

theorem State.SameFrame.exchange {fam} (h : s.SameFrame t) : s.SameFrame (t.exchange fam) := by
  dsimp only [State.exchange]
  split
  · exact h.fset.fset.setSwapSt.tableDirty.fset.grantCredits.bankFigures
  · exact h.fset.fset.setSwapSt.tableDirty.epochRise
  · exact h.fset.fset.setSwapSt.tableDirty

theorem State.SameFrame.demote {frame e} (h : s.SameFrame t) : s.SameFrame (t.demote frame e) := by
  refine .almAdd (.alert ?_)
  split
  · exact h.fset.fset.fset.fset.fset.finc
  · exact h.fset.fset.fset.fset.fset.finc.ownSend

theorem State.SameFrame.activateRevised (h : s.SameFrame t) : s.SameFrame t.activateRevised := by
  dsimp only [State.activateRevised]
  split
  · exact h
  · split
    · exact h.upd.exchange.forEach fun _ k => k.demote
    · exact h

/-! ## Switch core -/

theorem State.SameFrame.setSw {x} (h : s.SameFrame t) : s.SameFrame (t.setSw x) := h.upd

theorem State.SameFrame.leaveUp {x w} (h : s.SameFrame t) : s.SameFrame (t.leaveUp x w) :=
  h.spared (.leaveUp (.rfl_ t fun _ => True) trivial)

theorem State.SameFrame.dropOutput {x} (h : s.SameFrame t) : s.SameFrame (t.dropOutput x) := h.setSw
theorem State.SameFrame.ageAll (h : s.SameFrame t) : s.SameFrame t.ageAll := h.setSw

/-! ## Sled states and placement -/

theorem State.SameFrame.dropLines {e p} (h : s.SameFrame t) : s.SameFrame (t.dropLines e p) := h.setEp.upd
theorem State.SameFrame.dropCache {e} (h : s.SameFrame t) : s.SameFrame (t.dropCache e) := h.dropLines

theorem State.SameFrame.recount (h : s.SameFrame t) : s.SameFrame t.recount :=
  h.spared (.recount (.rfl_ t fun _ => True) trivial)

theorem State.SameFrame.enterState {st} (h : s.SameFrame t) : s.SameFrame (t.enterState st) :=
  h.fset.fset.spared (t.enterState_spares st)

theorem State.SameFrame.setOutcome {p o} (h : s.SameFrame t) : s.SameFrame (t.setOutcome p o) :=
  h.spared (.setOutcome (.rfl_ t fun _ => True) trivial trivial)

theorem State.SameFrame.recordFound {p f} (h : s.SameFrame t) : s.SameFrame (t.recordFound p f) := h.fset.fset.fset.fset.fset

theorem State.SameFrame.setLink {p st} (h : s.SameFrame t) : s.SameFrame (t.setLink p st) :=
  h.fset.spared (t.setLink_spares (p := fun _ => True) p st fun _ => trivial)

theorem State.SameFrame.placePort {p f} (h : s.SameFrame t) : s.SameFrame (t.placePort p f) :=
  h.setLink.ite h.recordFound.setOutcome.setLink

theorem State.SameFrame.dupClear (h : s.SameFrame t) : s.SameFrame t.dupClear := h.fsetb.ite h

/-! ## Ports -/

theorem State.SameFrame.sendMgmt {p kind wl cause n errors} (h : s.SameFrame t) :
    s.SameFrame (t.sendMgmt p kind wl cause n errors) :=
  h.ite h.portSend

theorem State.SameFrame.mgmtTick (h : s.SameFrame t) : s.SameFrame t.mgmtTick := h.forEach fun _ k => k.setPort.portPump
theorem State.SameFrame.testEnd {p} (h : s.SameFrame t) : s.SameFrame (t.testEnd p) := h.upd

theorem State.SameFrame.clearRuns {p} (h : s.SameFrame t) : s.SameFrame (t.clearRuns p) :=
  h.spared (.clearRuns (.rfl_ t fun _ => True) fun _ _ => trivial)

theorem State.SameFrame.unlink {p} (h : s.SameFrame t) : s.SameFrame (t.unlink p) := by
  unfold State.unlink
  extract_lets _ _ _ _ v _ _ w
  have hv : s.SameFrame v := h.setLink.fset.fset.fset.fset.setPort.clearRuns
  clear_value v
  have hw : s.SameFrame w := hv.updMarks
  exact .ite hw.upd.chipFollow (.ite hw hw.setOutcome.recount)

theorem State.SameFrame.portDown {p light} (h : s.SameFrame t) : s.SameFrame (t.portDown p light) :=
  h.ite ((h.unlink.almAdd.almLow.when fun k => k.fset.almAdd).setPort.ite
    (h.unlink.almAdd.almLow.when fun k => k.fset.almAdd))

theorem State.SameFrame.portTick {p} (h : s.SameFrame t) : s.SameFrame (t.portTick p) := by
  dsimp only [State.portTick]
  split
  · split
    · exact h.setPort
    · exact h.setPort.setPort.setLink
  · split
    · split
      · split
        · exact h.setPort.setPort.placePort.recount
        · exact h.setPort.setPort.placePort
      · exact h.setPort
    · exact h.setPort

theorem State.SameFrame.portsTick (h : s.SameFrame t) : s.SameFrame t.portsTick := h.forEach fun _ k => k.portTick

theorem State.SameFrame.wlOut {p k'} (h : s.SameFrame t) : s.SameFrame (t.wlOut p k') :=
  h.ite (h.fset.fset.fset.fset.ite h.fset.fset.fset.fset.almAdd.almOr.alert)

theorem State.SameFrame.fitWidth {p} (h : s.SameFrame t) : s.SameFrame (t.fitWidth p) := h.portDown.ite h.fset.almLow
theorem State.SameFrame.retireTick (h : s.SameFrame t) : s.SameFrame t.retireTick := h.forEach fun _ k => k.sendMgmt
theorem State.SameFrame.laneOut {h' k'} (h : s.SameFrame t) : s.SameFrame (t.laneOut h' k') := h.ite h.fset.fset.alert.almAdd
theorem State.SameFrame.fitLanes {h'} (h : s.SameFrame t) : s.SameFrame (t.fitLanes h') := h.fset.upd.leaveUp.ite h.fset

theorem State.SameFrame.lossTick (h : s.SameFrame t) : s.SameFrame t.lossTick :=
  h.forEach fun _ k => (k.laneOut.fitLanes.ite k).ite (k.wlOut.fitWidth.ite k)

/-! ## Tollgate -/

theorem State.SameFrame.setTg {x} (h : s.SameFrame t) : s.SameFrame (t.setTg x) := h.upd
theorem State.SameFrame.tgSend {c} (h : s.SameFrame t) : s.SameFrame (t.tgSend c) := h.ownSend
theorem State.SameFrame.tgTick (h : s.SameFrame t) : s.SameFrame t.tgTick := h.setTg
theorem State.SameFrame.tgReset (h : s.SameFrame t) : s.SameFrame t.tgReset := (h.forEach fun _ k => k.tgSend).setTg.setReg

/-! ## Memory hubs -/

theorem State.SameFrame.retireChannel {h' ch} (h : s.SameFrame t) : s.SameFrame (t.retireChannel h' ch) :=
  h.ite ((h.fset.fset.fset.forEach fun _ k => k.fset.fsetb).setHub.alert.almAdd.ite h.fsetb.fset.alert)

theorem State.SameFrame.uncorrEvent {h' ch d} (h : s.SameFrame t) : s.SameFrame (t.uncorrEvent h' ch d) :=
  h.setHub.fset.when fun k => k.retireChannel

theorem State.SameFrame.errorTick {h'} (h : s.SameFrame t) : s.SameFrame (t.errorTick h') :=
  h.ite (h.setHub.forEach fun _ k => k.fset.fset)

theorem State.SameFrame.corrected {h' ch} (h : s.SameFrame t) : s.SameFrame (t.corrected h' ch) :=
  h.setHub.finc.fset.almAdd.when fun k => k.retireChannel

theorem State.SameFrame.setPoison {h' off} (h : s.SameFrame t) : s.SameFrame (t.setPoison h' off) :=
  h.ite h.setHub.finc.almAdd.almAdd

theorem State.SameFrame.clearPoison {h' off} (h : s.SameFrame t) : s.SameFrame (t.clearPoison h' off) := h.setHub

theorem State.SameFrame.poisonPhys {h' ch i} (h : s.SameFrame t) : s.SameFrame (t.poisonPhys h' ch i) :=
  State.SameFrame.fset (by split; exacts [h.setPoison, h.finc.almAdd.almAdd])

theorem State.SameFrame.physRead {h' ch i f} (h : s.SameFrame t) : s.SameFrame (t.physRead h' ch i f) := by
  dsimp only [State.physRead]
  split
  · exact h
  · exact h.corrected
  · exact h.finc.almAdd.almAdd
  · exact h.poisonPhys.uncorrEvent
  · exact (h.forEach fun _ k => k.poisonPhys).uncorrEvent

theorem State.SameFrame.lineRead {h' off f} (h : s.SameFrame t) : s.SameFrame (t.lineRead h' off f) := h.physRead
theorem State.SameFrame.setDirty {h' i p v} (h : s.SameFrame t) : s.SameFrame (t.setDirty h' i p v) := h.hubWrite

theorem State.SameFrame.markDirty {h' off} (h : s.SameFrame t) : s.SameFrame (t.markDirty h' off) :=
  h.forEach fun _ k => k.setDirty.ite k

theorem State.SameFrame.lineWrite {h' off data mask f} (h : s.SameFrame t) : s.SameFrame (t.lineWrite h' off data mask f) :=
  h.clearPoison.hubWrite.markDirty.ite h.lineRead.hubWrite.markDirty

theorem State.SameFrame.performLine {h' c f} (h : s.SameFrame t) : s.SameFrame (t.performLine h' c f).s := by
  dsimp only [State.performLine]
  split
  · exact (h.ite h.almAdd).lineWrite.almAdd
  · split
    · exact h.lineRead.almAdd
    · split
      · exact h.lineRead.almAdd
      · exact h.lineRead.almAdd.hubWrite.markDirty.almAdd

theorem State.SameFrame.line {d : Direct} {x addr f c n} (h : s.SameFrame d.s) : s.SameFrame (d.line x addr f c n).s := by
  unfold Direct.line
  split
  · exact h.lineWrite
  · exact h.performLine

theorem State.SameFrame.directPerform {x r f} (h : s.SameFrame t) : s.SameFrame (t.directPerform x r f).s := by
  unfold State.directPerform
  split
  · exact h
  · exact List.foldlRecOn (motive := fun d : Direct => s.SameFrame d.s) _ _ h fun _ k _ _ => k.line

theorem State.SameFrame.addReply {e cap r} (h : s.SameFrame t) : s.SameFrame (t.addReply e cap r) := h.setEp.ite h.setEp.finc
theorem State.SameFrame.copyTick {h'} (h : s.SameFrame t) : s.SameFrame (t.copyTick h') := h.ite h.setHub
theorem State.SameFrame.hubsTick (h : s.SameFrame t) : s.SameFrame t.hubsTick := h.forEach fun _ k => k.copyTick.errorTick

/-! ## Home of remote lines -/

theorem State.SameFrame.homeAnswer {k' c} (h : s.SameFrame t) : s.SameFrame (t.homeAnswer k' c) :=
  h.upd.ite ((h.upd.ite h).ite (h.portSend.ite h))

theorem State.SameFrame.useLine {x} (h : s.SameFrame t) : s.SameFrame (t.useLine x) := h.upd
theorem State.SameFrame.putLine {x data mask} (h : s.SameFrame t) : s.SameFrame (t.putLine x data mask) := h.useLine.emit

theorem State.SameFrame.performHome {x k' c} (h : s.SameFrame t) : s.SameFrame (t.performHome x k' c) := by
  dsimp only [State.performHome]
  split
  · exact h.putLine.homeAnswer
  · split
    · exact h.useLine.homeAnswer
    · exact ((h.useLine.ite h.putLine).addReply.ite (h.useLine.ite h.putLine)).homeAnswer

theorem State.SameFrame.homeRoom (h : s.SameFrame t) (e : t.homeRoom = some u) : s.SameFrame u := by
  unfold State.homeRoom at e
  split at e
  · cases e
    exact h
  · obtain ⟨_, -, rfl⟩ := Option.map_eq_some_iff.1 e
    exact h.upd

theorem State.SameFrame.homePlace {k' c} (h : s.SameFrame t) : s.SameFrame (t.homePlace k' c) := by
  dsimp only [State.homePlace]
  split
  · split
    · exact h.performHome
    · exact h.useLine
  · split
    · exact h.upd
    · split
      · exact (h.homeRoom ‹_›).performHome
      · exact (h.homeRoom ‹_›).useLine.emit

theorem State.SameFrame.homeTake {k' c} (h : s.SameFrame t) : s.SameFrame (t.homeTake k' c) := h.upd.ite h.homePlace

theorem State.SameFrame.homeCell {k' c} (h : s.SameFrame t) : s.SameFrame (t.homeCell k' c) := by
  dsimp only [State.homeCell]
  split
  · exact (h.when fun k => k.finc).homeAnswer
  · exact h.homeTake

theorem State.SameFrame.homePut {off b} (h : s.SameFrame t) : s.SameFrame (t.homePut off b) := by
  dsimp only [State.homePut]
  split
  · split
    · exact h.putLine
    · exact h.emit
  · split
    · exact h.putLine
    · exact h.emit

/-! ## End-points -/

theorem State.SameFrame.epSend {e q c} (h : s.SameFrame t) : s.SameFrame (t.epSend e q c) :=
  h.emit.ite (h.ownSend.ite h.portSend)

theorem State.SameFrame.msAdvance {e m n st} (h : s.SameFrame t) : s.SameFrame (t.msAdvance e m n st) :=
  h.fset.ite (h.fset.finc.fset.ite h.fset.finc)

theorem State.SameFrame.setLost {e obs ctx v} (h : s.SameFrame t) : s.SameFrame (t.setLost e obs ctx v) := h.setEp

theorem State.SameFrame.countFenceLost {e obs} (h : s.SameFrame t) : s.SameFrame (t.countFenceLost e obs) :=
  h.finc.ite (h.finc.ite h)

theorem State.SameFrame.reachCache {e obs ctx sc keep} (h : s.SameFrame t) : s.SameFrame (t.reachCache e obs ctx sc keep) :=
  h.ite (h.dropLines.finc.ite h.dropLines)

theorem State.SameFrame.withSet {c ctx f} (h : s.SameFrame t) : s.SameFrame (t.withSet c ctx f) := by
  dsimp only [State.withSet]
  split
  · exact h
  · split
    · exact h.setCore
    · split
      · split <;> exact h.setCore
      · exact h.setCore

theorem State.SameFrame.wake {c ctx eng ok} (h : s.SameFrame t) : s.SameFrame (t.wake c ctx eng ok) :=
  (h.when fun k => k.finc.almAdd).withSet

theorem State.SameFrame.askBanks {c off n} (h : s.SameFrame t) : s.SameFrame (t.askBanks c off n) := h.setCore

theorem State.SameFrame.scratchWrite {c ctx eng off b} (h : s.SameFrame t) : s.SameFrame (t.scratchWrite c ctx eng off b) :=
  h.setCore

theorem State.SameFrame.mirrorAck {h' win page st} (h : s.SameFrame t) : s.SameFrame (t.mirrorAck h' win page st) :=
  h.setHub.ite (h.setHub.setDirty.fsetb.setHub.forEach fun _ k => k.msAdvance)

theorem State.SameFrame.ownPut {e off b} (h : s.SameFrame t) : s.SameFrame (t.ownPut e off b) :=
  h.lineWrite.ite (h.homePut.ite h)

theorem State.SameFrame.bcastLine {e slot chunk off st data} (h : s.SameFrame t) :
    s.SameFrame (t.bcastLine e slot chunk off st data) :=
  ((h.when fun k => k.ownPut).when fun k => k.ownPut).setEp

theorem State.SameFrame.deliver {e q st data} (h : s.SameFrame t) : s.SameFrame (t.deliver e q st data) := by
  dsimp only [State.deliver]
  split
  · exact h
  · exact (h.wake.ite (h.withSet.ite h)).withSet
  · exact ((h.askBanks.forEach fun _ k => k.scratchWrite).ite h).setCore
  · exact h.emit
  · exact h.upd
  · exact h.upd
  · exact h.mirrorAck
  · exact h.bcastLine

theorem State.SameFrame.coverLost {e id} (h : s.SameFrame t) : s.SameFrame (t.coverLost e id) := h.setEp

theorem State.SameFrame.requestDone {e q st data} (h : s.SameFrame t) : s.SameFrame (t.requestDone e q st data) := by
  unfold State.requestDone
  extract_lets _ _ v1 _ v2 v3 v4
  have h1 : s.SameFrame v1 := h.setLost.countFenceLost.ite h
  have h2 : s.SameFrame v2 := h1.setLost.finc.coverLost.ite h1
  have h3 : s.SameFrame v3 := h2.reachCache.ite h2
  have h4 : s.SameFrame v4 := by
    dsimp only [v4]
    split
    · split
      · exact h3
      · exact h3.msAdvance
    · exact h3
  exact h4.deliver

theorem State.SameFrame.cacheFill {e l} (h : s.SameFrame t) : s.SameFrame (t.cacheFill e l) := by
  dsimp only [State.cacheFill]
  split
  · exact h
  · exact State.SameFrame.setEp (by split; exacts [h.dropLines, h])

theorem State.SameFrame.cacheTouch {e ls} (h : s.SameFrame t) : s.SameFrame (t.cacheTouch e ls) := h.setEp
theorem State.SameFrame.fillAll {e q} (h : s.SameFrame t) : s.SameFrame (t.fillAll e q) := h.forEach fun _ k => k.cacheFill

theorem State.SameFrame.finish {e q} (h : s.SameFrame t) : s.SameFrame (t.finish e q) :=
  (h.setEp.fillAll.ite h.setEp).requestDone

theorem State.SameFrame.cellDone {e key req st unanswered line} (h : s.SameFrame t) :
    s.SameFrame (t.cellDone e key req st unanswered line) := by
  dsimp only [State.cellDone]
  split
  · split
    · exact h.setEp.setEp
    · exact h.setEp
  · split
    · exact h.setEp.finish
    · exact h.setEp.setEp

theorem State.SameFrame.useResv {e i} (h : s.SameFrame t) : s.SameFrame (t.useResv e i) := by
  dsimp only [State.useResv]
  split
  · exact h
  · exact h.setEp

theorem State.SameFrame.stallOrt {e key} (h : s.SameFrame t) : s.SameFrame (t.stallOrt e key) := h.setEp

theorem State.SameFrame.transmit {e key} (h : s.SameFrame t) : s.SameFrame (t.transmit e key) := by
  dsimp only [State.transmit]
  split
  · exact h
  · split
    · exact h
    · split
      · exact h.cellDone
      · split
        · exact h
        · split
          · exact h.stallOrt
          · split
            · exact h.setEp
            · exact h.setEp.useResv.epSend

theorem State.SameFrame.enterCells {e q cs inter far} (h : s.SameFrame t) : s.SameFrame (t.enterCells e q cs inter far) :=
  h.setEp.ite (h.setEp.forEach fun _ k => k.transmit)

theorem State.SameFrame.directGo {h' q f} (h : s.SameFrame t) : s.SameFrame (t.directGo h' q f) :=
  h.setHub.ite h.directPerform.setEp.requestDone

theorem State.SameFrame.refuseReq {e q st} (h : s.SameFrame t) : s.SameFrame (t.refuseReq e q st) := h.requestDone

theorem State.SameFrame.issueAt {e q x f} (h : s.SameFrame t) : s.SameFrame (t.issueAt e q x f) := by
  unfold State.issueAt
  extract_lets r id rack sp off inter q' a b v _ _ _ _ cached hit
  clear_value hit
  have hv : s.SameFrame v := .ite h.dropLines h
  refine .ite h.refuseReq (.ite hv.enterCells (.ite ?_ (.ite ?_ ?_)))
  · exact .ite hv.setEp.directGo hv.setEp
  · exact .ite (hv.setEp.forEach fun _ k => k.homeCell) hv.setEp
  · split
    · exact hv.cacheTouch.finc.requestDone
    · exact hv.enterCells

theorem State.SameFrame.takeKey {e} (h : s.SameFrame t) : s.SameFrame (t.takeKey e) := h.setEp
theorem State.SameFrame.putOut {e o} (h : s.SameFrame t) : s.SameFrame (t.putOut e o) := h.setEp

theorem State.SameFrame.resendOn {e o plane} (h : s.SameFrame t) : s.SameFrame (t.resendOn e o plane) := by
  dsimp only [State.resendOn]
  split
  · exact h.putOut
  · exact h.putOut.finc.useResv.epSend

theorem State.SameFrame.resendMoved {e o p} (h : s.SameFrame t) : s.SameFrame (t.resendMoved e o p) :=
  h.putOut.ite (h.putOut.ite h.setEp.resendOn)

theorem State.SameFrame.resend {e o} (h : s.SameFrame t) : s.SameFrame (t.resend e o) := by
  dsimp only [State.resend]
  split
  · exact h.resendOn
  · split
    · exact h
    · split
      · exact h.cellDone
      · split
        · exact h.putOut
        · split
          · exact h.resendMoved
          · exact h.resendOn

theorem State.SameFrame.retransmit {e key} (h : s.SameFrame t) : s.SameFrame (t.retransmit e key) := by
  dsimp only [State.retransmit]
  split
  · split
    · exact h.resend
    · exact h
  · exact h

theorem State.SameFrame.resendDue {e} (h : s.SameFrame t) : s.SameFrame (t.resendDue e) := h.forEach fun _ k => k.retransmit

/-! ## Chunks -/

theorem State.SameFrame.getBytes {e slot off n} (h : s.SameFrame t) : s.SameFrame (t.getBytes e slot off n).1 := by
  dsimp only [State.getBytes]
  split
  · exact h
  · split
    · split
      · exact h
      · split <;> exact h
    · split
      · exact h
      · split
        · exact h
        · exact h.forEach fun _ k => k.ite k.homeTake

/-! ## Reduction -/

theorem State.SameFrame.setRd {x} (h : s.SameFrame t) : s.SameFrame (t.setRd x) := h.upd
theorem State.SameFrame.setInst {slot i} (h : s.SameFrame t) : s.SameFrame (t.setInst slot i) := h.setRd
theorem State.SameFrame.discardSlot {slot} (h : s.SameFrame t) : s.SameFrame (t.discardSlot slot) := h.setRd

theorem State.SameFrame.endWith {slot st} (h : s.SameFrame t) : s.SameFrame (t.endWith slot st) := by
  dsimp only [State.endWith]
  split
  · exact h
  · split
    · exact h.setInst.when fun k => k.discardSlot
    · exact h

/-! ## Members of collectives -/

theorem State.SameFrame.enterColl {e p c} (h : s.SameFrame t) : s.SameFrame (t.enterColl e p c) := h.setEp.transmit
theorem State.SameFrame.sendJoin {e m kind p} (h : s.SameFrame t) : s.SameFrame (t.sendJoin e m kind p) := h.enterColl

theorem State.SameFrame.sendJoins {e m kind} (h : s.SameFrame t) : s.SameFrame (t.sendJoins e m kind) :=
  h.forEach fun _ k => k.sendJoin

theorem State.SameFrame.setMember {e m} (h : s.SameFrame t) : s.SameFrame (t.setMember e m) := h.setEp
theorem State.SameFrame.setRoot {e r} (h : s.SameFrame t) : s.SameFrame (t.setRoot e r) := h.setEp
theorem State.SameFrame.memberAbort {e m} (h : s.SameFrame t) : s.SameFrame (t.memberAbort e m) := h.setMember.sendJoins

theorem State.SameFrame.readChunk {e slot d base t' n i} (h : s.SameFrame t) :
    s.SameFrame (t.readChunk e slot d base t' n i).1 := by
  dsimp only [State.readChunk]
  split <;> exact h.getBytes.getBytes

theorem State.SameFrame.contribPump {e slot n} (h : s.SameFrame t) : s.SameFrame (t.contribPump e slot n) := by
  induction n generalizing t with
  | zero => exact h
  | succ n ih =>
    dsimp only [State.contribPump]
    split
    · exact h
    · split
      · exact h
      · split
        · exact ih h.setMember
        · split
          · exact ih h.setMember
          · split
            · exact h
            · split
              · exact h.readChunk
              · exact h.readChunk.memberAbort
              · exact ih h.readChunk.setMember.enterColl

theorem State.SameFrame.residualPump {e slot n} (h : s.SameFrame t) : s.SameFrame (t.residualPump e slot n) := by
  induction n generalizing t with
  | zero => exact h
  | succ n ih =>
    unfold State.residualPump
    split
    · exact h
    · extract_lets
      refine .ite h ?_
      split
      · exact h.getBytes
      · exact h.getBytes.setRoot
      · exact ih h.getBytes.setRoot.enterColl

theorem State.SameFrame.collPump {e} (h : s.SameFrame t) : s.SameFrame (t.collPump e) :=
  (h.forEach fun _ k => k.contribPump).forEach fun _ k => k.residualPump

theorem State.SameFrame.lackTick {e} (h : s.SameFrame t) : s.SameFrame (t.lackTick e) := h.setEp

/-! ## Flags -/

theorem State.SameFrame.kernelEnded {c ctx how} (h : s.SameFrame t) : s.SameFrame (t.kernelEnded c ctx how) :=
  h.spared (t.kernelEnded_spares c ctx how)

/-! ## DMA -/

theorem State.SameFrame.updXfer {c id f} (h : s.SameFrame t) : s.SameFrame (t.updXfer c id f) := h.setCore

theorem State.SameFrame.issuePiece {c x} (h : s.SameFrame t) : s.SameFrame (t.issuePiece c x) :=
  (h.updXfer.when fun k => k.askBanks).takeKey.issueAt

theorem State.SameFrame.pumpXfer {c id n} (h : s.SameFrame t) : s.SameFrame (t.pumpXfer c id n) := by
  induction n generalizing t with
  | zero => exact h
  | succ n ih =>
    unfold State.pumpXfer
    split
    · split
      · exact h
      · exact ih h.issuePiece
    · exact h

theorem State.SameFrame.dmaPump {c} (h : s.SameFrame t) : s.SameFrame (t.dmaPump c) := h.ite (h.forEach fun _ k => k.pumpXfer)

/-! ## Quanta -/

theorem State.SameFrame.squashAhead {c} (h : s.SameFrame t) : s.SameFrame (t.squashAhead c) := h.ite h.setCore.finc.almAdd

theorem State.SameFrame.takeStops {c} (h : s.SameFrame t) : s.SameFrame (t.takeStops c) :=
  h.setCore.forEach fun _ k => k.kernelEnded.ite k

theorem State.SameFrame.swapSets {c ctx} (h : s.SameFrame t) : s.SameFrame (t.swapSets c ctx) := h.setCore.fset.fsetb

theorem State.SameFrame.coreTick {c} (h : s.SameFrame t) : s.SameFrame (t.coreTick c) := by
  unfold State.coreTick
  extract_lets v _ _ w x y
  have hw : s.SameFrame w := h.squashAhead.takeStops.fset
  have hx : s.SameFrame x := hw.ite hw.swapSets
  have hy : s.SameFrame y := hx.fset
  exact hw.finc.almAdd.ite (hy.setCore.finc.almAdd.ite hy.setCore.finc.almAdd).fsat.upd.dmaPump

/-! ## Contexts -/

theorem State.SameFrame.zeroEntry {e n} (h : s.SameFrame t) : s.SameFrame (t.zeroEntry e n) := h.resetRegs

theorem State.SameFrame.leaveLoad {c ctx} (h : s.SameFrame t) : s.SameFrame (t.leaveLoad c ctx) := by
  dsimp only [State.leaveLoad]
  split
  · exact h
  · split
    · exact (h.forEach fun _ k => k.zeroEntry).upd
    · exact h.upd

/-! ## Pages closed -/

theorem State.SameFrame.closePages {cause ps} (h : s.SameFrame t) : s.SameFrame (t.closePages cause ps) := h.upd

/-! ## Drain -/

theorem State.SameFrame.enterDrain (h : s.SameFrame t) : s.SameFrame t.enterDrain :=
  h.upd.fsetb.fset.ite h.upd.fsetb.fset.enterState

theorem State.SameFrame.stateTick (h : s.SameFrame t) : s.SameFrame t.stateTick := by
  dsimp only [State.stateTick]
  split
  · exact h
  · split
    · exact h.upd.enterDrain
    · split
      · exact h.upd.enterState
      · exact h.upd

/-! ## Resets -/

theorem State.SameFrame.markBusy (h : s.SameFrame t) : s.SameFrame t.markBusy := h.fset

theorem State.SameFrame.portReset {p} (h : s.SameFrame t) : s.SameFrame (t.portReset p) :=
  h.testEnd.portDown.resetRegs.setPort.ite h.testEnd.portDown.resetRegs

theorem State.SameFrame.coreReset {c} (h : s.SameFrame t) : s.SameFrame (t.coreReset c) :=
  (h.forEach fun _ k => (k.kernelEnded.ite k).leaveLoad).resetRegs.resetRegs.setEp.upd

theorem State.SameFrame.hubReset {h'} (h : s.SameFrame t) : s.SameFrame (t.hubReset h') := by
  unfold State.hubReset
  extract_lets _ v w x
  have hv : s.SameFrame v := h.dropOutput.leaveUp
  have hw : s.SameFrame w := hv.forEach fun _ k => k.setEp.requestDone
  have hx : s.SameFrame x := hw.forEach fun _ k => k.endWith
  exact (hx.dropCache.setEp.resetRegs.resetRegs.resetRegs.resetRegs.resetRegs.resetRegs.fset.fset.upd.setHub).forEach
    fun _ k => k.setCore

theorem State.SameFrame.controlReset (h : s.SameFrame t) : s.SameFrame t.controlReset :=
  (h.forEach fun _ k => k.fset).upd.setEp.resetRegs

theorem State.SameFrame.resetBegin {unit idx} (h : s.SameFrame t) : s.SameFrame (t.resetBegin unit idx) :=
  (h.upd.portReset.ite (h.upd.coreReset.ite (h.upd.hubReset.ite (h.upd.tgReset.ite
    h.upd.controlReset)))).markBusy

theorem State.SameFrame.resetTick (h : s.SameFrame t) : s.SameFrame t.resetTick :=
  (h.forEach fun _ k => k.resetBegin.ite k.coreReset).forEach fun _ k => k.resetBegin

/-! ## Liveness -/

theorem State.SameFrame.confirmTick (h : s.SameFrame t) : s.SameFrame t.confirmTick :=
  (h.forEach fun _ k => k.fset.almAdd.ite (k.fset.ite k)).upd

theorem State.SameFrame.pathTick (h : s.SameFrame t) : s.SameFrame t.pathTick := h.ite h.upd
theorem State.SameFrame.vigilTick (h : s.SameFrame t) : s.SameFrame t.vigilTick := h.upd.confirmTick.pathTick

/-! ## Power -/

theorem State.SameFrame.writeStops (h : s.SameFrame t) : s.SameFrame t.writeStops :=
  h.ite (h.forEach fun _ k => (k.ite k.fsetb).ite (k.ite k.fsetb).fsetb)

theorem State.SameFrame.applyLadder (h : s.SameFrame t) : s.SameFrame t.applyLadder := by
  unfold State.applyLadder
  extract_lets _ _ v w x
  have hv : s.SameFrame v := h.ite h.fset
  have hw : s.SameFrame w := hv.ite (hv.forEach fun _ k => k.ite k.fset)
  have hx : s.SameFrame x := hw.ite (hw.forEach fun _ k => k.fset)
  exact hx.upd

theorem State.SameFrame.chargeBoost {p} (h : s.SameFrame t) : s.SameFrame (t.chargeBoost p) :=
  ((h.upd.fset.fset.ite h.upd.fset.fset.freeUsed).when fun k => k.fsat.almAdd).almMin

theorem State.SameFrame.boostExhaust (h : s.SameFrame t) : s.SameFrame t.boostExhaust := h.fsetb.ite h
theorem State.SameFrame.boostRestore (h : s.SameFrame t) : s.SameFrame t.boostRestore := h.fsetb.ite h

theorem State.SameFrame.moveLadder {p c} (h : s.SameFrame t) : s.SameFrame (t.moveLadder p c) :=
  (h.when fun k => k.fsetb).fset.upd

theorem State.SameFrame.ladderFall (h : s.SameFrame t) : s.SameFrame t.ladderFall := h.ite h.upd.fset.writeStops

theorem State.SameFrame.envelope {c} (h : s.SameFrame t) : s.SameFrame (t.envelope c) :=
  (h.fsetb.upd.ite h.fsetb).when fun k => k.alert

theorem State.SameFrame.throttlePeriod (h : s.SameFrame t) : s.SameFrame t.throttlePeriod :=
  h.ite (h.upd.ite (h.upd.forEach fun _ k =>
    ((k.fsat.when fun k => k.finc).when fun k => k.finc).when fun k => k.finc))

theorem State.SameFrame.policyTick (h : s.SameFrame t) : s.SameFrame t.policyTick := by
  dsimp only [State.policyTick]
  split
  · exact h
  · exact h.upd.fset.fsetb.fset

theorem State.SameFrame.emergTick (h : s.SameFrame t) : s.SameFrame t.emergTick := h.ite h.fsetb.upd.alert
theorem State.SameFrame.emergencyEnd (h : s.SameFrame t) : s.SameFrame t.emergencyEnd := h.ite h.upd.fsetb.writeStops

theorem State.SameFrame.powerPages {p} (h : s.SameFrame t) : s.SameFrame (t.powerPages p) :=
  h.almMin.almMax.almAdd.almAdd.almMax.ite
    (h.almMin.almMax.almAdd.almAdd.almMax.almAdd.almAdd.forEach fun _ k => k.almAdd)

theorem State.SameFrame.powerInput {p} (h : s.SameFrame t) : s.SameFrame (t.powerInput p) := h.fset.fset.fset.fmax

theorem State.SameFrame.powerTick {p} (h : s.SameFrame t) : s.SameFrame (t.powerTick p) := h.ite
    (h.applyLadder.powerInput.throttlePeriod.policyTick.emergTick.emergencyEnd.chargeBoost.boostExhaust.boostRestore.fset
      |>.moveLadder.envelope.ladderFall.writeStops.upd.powerPages)

/-! ## Security island -/

theorem State.SameFrame.holdEvidence {nonce b} (h : s.SameFrame t) : s.SameFrame (t.holdEvidence nonce b) := h.upd

theorem State.SameFrame.captureTick (h : s.SameFrame t) : s.SameFrame t.captureTick := by
  dsimp only [State.captureTick]
  split
  · exact (h.forEach fun _ k => k.holdEvidence).upd
  · exact h.forEach fun _ k => k.holdEvidence

/-! ## Almanac snapshots -/

theorem State.SameFrame.snapOne {w} (h : s.SameFrame t) : s.SameFrame (t.snapOne w) := by
  dsimp only [State.snapOne]
  split
  · exact h.upd.freeUsed.answer
  · exact h

theorem State.SameFrame.snapTick (h : s.SameFrame t) : s.SameFrame t.snapTick := h.upd.forEach fun _ k => k.snapOne

/-! ## Pattern -/

theorem State.SameFrame.patternTick (h : s.SameFrame t) : s.SameFrame t.patternTick := h.upd

/-! ## Host ports -/

theorem State.SameFrame.timeEdge (h : s.SameFrame t) : s.SameFrame t.timeEdge := h.fset.ite h.upd.fset

theorem State.SameFrame.timeTick (h : s.SameFrame t) : s.SameFrame t.timeTick := by
  dsimp only [State.timeTick]
  split
  · exact h.upd.fset.fsetb.closePages
  · split
    · exact h
    · exact h.upd.when fun k => k.timeEdge

theorem State.SameFrame.updMem {m f} (h : s.SameFrame t) : s.SameFrame (t.updMem m f) := h.upd

theorem State.SameFrame.issueMem {m} (h : s.SameFrame t) : s.SameFrame (t.issueMem m) := by
  dsimp only [State.issueMem]
  split
  · exact h.updMem
  · exact h.updMem.setEp.enterCells

theorem State.SameFrame.memPump {n} (h : s.SameFrame t) : s.SameFrame (t.memPump n) := by
  induction n generalizing t with
  | zero => exact h
  | succ n ih =>
    unfold State.memPump
    split
    · exact ih h.issueMem
    · exact h

theorem State.SameFrame.memGo (h : s.SameFrame t) : s.SameFrame t.memGo := h.memPump
theorem State.SameFrame.qpError {q psn nak} (h : s.SameFrame t) : s.SameFrame (t.qpError q psn nak) := h.upd.fset.finc.emit

theorem State.SameFrame.readResponse {q psn n b} (h : s.SameFrame t) : s.SameFrame (t.readResponse q psn n b) := by
  induction n generalizing t psn b with
  | zero => exact h
  | succ n ih => exact h.emit.fset.ite (ih h.emit)

theorem State.SameFrame.rdmaAnswer {m} (h : s.SameFrame t) : s.SameFrame (t.rdmaAnswer m) :=
  h.upd.ite (h.upd.qpError.ite (h.upd.readResponse.ite (h.upd.emit.fset.ite h.upd)))

theorem State.SameFrame.rdmaPump {n} (h : s.SameFrame t) : s.SameFrame (t.rdmaPump n) := by
  induction n generalizing t with
  | zero => exact h
  | succ n ih =>
    dsimp only [State.rdmaPump]
    split
    · exact ih h.rdmaAnswer
    · exact h

theorem State.SameFrame.hostTick (h : s.SameFrame t) : s.SameFrame t.hostTick := h.rdmaPump.memGo

/-! ## Target -/

theorem State.SameFrame.echoSend {e plane c} (h : s.SameFrame t) (k : t.echoSend e plane c = some u) : s.SameFrame u := by
  unfold State.echoSend at k
  split at k
  · split at k
    · cases k
    · cases k
      exact h.useResv.epSend
  · cases k
    exact h.epSend

theorem State.SameFrame.echoTick {e} (h : s.SameFrame t) : s.SameFrame (t.echoTick e) :=
  h.setEp.forEach fun _ k => (by split; exacts [(k.echoSend ‹_›), k.setEp])

/-! ## Frame -/

theorem State.SameFrame.planTick (h : s.SameFrame t) : s.SameFrame t.planTick :=
  h.lossTick.activateRevised.stateTick.dupClear.resetTick.portsTick.when fun k => k.epochRise

theorem State.SameFrame.cellTick (h : s.SameFrame t) : s.SameFrame t.cellTick :=
  h.grantCredits.ageAll.mgmtTick.retireTick.tgTick.hubsTick

theorem State.SameFrame.epTick {e} (h : s.SameFrame t) : s.SameFrame (t.epTick e) :=
  h.setEp.resendDue.echoTick.lackTick.collPump

theorem State.SameFrame.coresTick (h : s.SameFrame t) : s.SameFrame t.coresTick := h.forEach fun _ k => k.coreTick

theorem State.SameFrame.watchTick (h : s.SameFrame t) : s.SameFrame t.watchTick :=
  h.timeTick.patternTick.captureTick.snapTick.almMax

/-! ## The tick -/

theorem State.SameFrame.frameTick (s : State) (p : PowerSample) : s.tbTick.SameFrame (s.frameTick p) := by
  unfold State.frameTick
  exact ((State.SameFrame.rfl_ s.tbTick).planTick.sendMarkers.cellTick.vigilTick.powerTick.hostTick.forEach
    fun _ k => k.epTick).coresTick.watchTick

theorem State.tbTick_frame (s : State) : s.tbTick.tb.frame = BitVec.ofNat 64 s.tb.nextFrame :=
  (State.Follows.rfl_ s.chipCount.tbCount).follow.frame

theorem Timebase.nextFrame_of_none {tb : Timebase} (h : tb.adopt = none) :
    BitVec.ofNat 64 tb.nextFrame = tb.frame + 1 := by
  unfold Timebase.nextFrame
  rw [h, Option.getD_none, BitVec.ofNat_add, BitVec.ofNat_toNat, BitVec.setWidth_eq]
  rfl

theorem Timebase.nextFrame_of_some {tb : Timebase} {n : Nat} (h : tb.adopt = some n) : tb.nextFrame = n := by
  unfold Timebase.nextFrame
  rw [h, Option.getD_some]

/-- The number over a tick is what the timebase counts at its boundary: nothing that the tick does after that writes it. -/
theorem State.frameTick_frame (s : State) (p : PowerSample) : (s.frameTick p).tb.frame = BitVec.ofNat 64 s.tb.nextFrame :=
  (State.SameFrame.frameTick s p).trans s.tbTick_frame

theorem frameTick_counts (s : State) (p : PowerSample) (hs : SS.INIT ≤ s.sled) : Answers (.frameTick p) s fun t =>
    (s.tb.adopt = none → t.tb.frame = s.tb.frame + 1) ∧ (∀ n, s.tb.adopt = some n → t.tb.frame = BitVec.ofNat 64 n) ∧
      t.pending = s.pending := by
  have e : exec (.frameTick p) s = .next (s.frameTick p) := congrArg Host.Outcome.next (if_neg (Nat.not_lt.2 hs))
  refine ⟨_, e, fun hn => ?_, fun n hn => ?_, (Evolves.refl s).frameTick.pending⟩
  · rw [s.frameTick_frame p, Timebase.nextFrame_of_none hn]
  · rw [s.frameTick_frame p, Timebase.nextFrame_of_some hn]

/-- Settles O2: a marker's record and arrival, the offset and delay taken from the sled that is followed, and a realignment
each in one lemma over the marker's or the alignment's own step; the tick by carrying the number through all that the tick does
after the timebase has counted. -/
theorem markersAndTicks : Obligations.MarkersAndTicks :=
  ⟨⟨frameMarker_records, frameMarker_estimates, realignDone_carries⟩, frameTick_counts⟩

end Sys2Proof.Machine
end

/-! # Cells that enter -/
section
namespace Sys2Proof.Machine

open Sys2Proof.Laws

variable {s t : State} {p x k : Nat} {c : Cell}

/-! ## At a port (R79, R88) -/

/-- A counter that does not run over goes up by what is added. -/
theorem State.finc_of_lt {f : Fld} {n : Nat} (h : s.fget f + n < 2 ^ (f.hi + 1 - f.lo)) :
    s.finc f n = s.fset f (s.fget f + n) := if_pos h

/-- A discard at a port is counted in one of its counters and in the Almanac, and nowhere else. -/
theorem sets_discard (hw : s.regsWf = true) {f : Fld} (hl : f.lo ≤ f.hi) (hh : f.hi < 64)
    (hn : s.fget f + 1 < 2 ^ (f.hi + 1 - f.lo)) (a b o n : Nat) :
    Sets s ((s.finc f 1).almAdd a b o n) [(f, s.fget f + 1)] ∧
      (s.finc f 1).almAdd a b o n =
        { s with regs := ((s.finc f 1).almAdd a b o n).regs, al := ((s.finc f 1).almAdd a b o n).al } := by
  rw [State.finc_of_lt hn]
  exact ⟨Sets.congr (State.sets_fset hw hl hh hn) rfl rfl, rfl⟩

/-- A trained port whose alignment does not repeat takes what comes. -/
theorem State.cellReceive_taken (ht : s.trained p = true) (hs : s.steady p = true) (u o : Bool) : s.cellReceive p c u o =
    if u then (s.finc (R.OP_PORT_STATS.DISCARD_FEC p) 1).almAdd 2 0 64 1
    else if c.malformed then (s.finc (R.OP_PORT_STATS.DISCARD_FORMAT p) 1).almAdd 2 0 68 1
    else if o && (s.lockOf p == LK.FREE || s.lockOf p == LK.ACQUIRE) then s.finc (R.OP_PORT_STATS.DISCARD_ALIGN p) 1
    else if c.typ = T.IDLE ∨ c.typ = T.HEARTBEAT ∨ (c.typ = T.STATUS ∧ c.dst = 1023) then s
    else if s.portState p = PS.UP then s.emit (.inject (nextStop p) c)
    else s := if_neg (by simp [ht, hs])

theorem cellReceive_unsteady (hs : s.steady p = false) (u o : Bool) : Answers (.cellReceive p c u o) s fun t => t = s :=
  ⟨_, congrArg Host.Outcome.next (if_pos (by simp [hs])), rfl⟩

theorem cellReceive_uncorrectable (hw : s.regsWf = true) (ht : s.trained p = true) (o : Bool) (hs : s.steady p = true)
    (hn : s.fget (R.OP_PORT_STATS.DISCARD_FEC p) + 1 <
      2 ^ ((R.OP_PORT_STATS.DISCARD_FEC p).hi + 1 - (R.OP_PORT_STATS.DISCARD_FEC p).lo)) :
    Answers (.cellReceive p c true o) s fun t =>
      Sets s t [(R.OP_PORT_STATS.DISCARD_FEC p, s.fget (R.OP_PORT_STATS.DISCARD_FEC p) + 1)] ∧
      t = { s with regs := t.regs, al := t.al } :=
  ⟨_, congrArg Host.Outcome.next ((State.cellReceive_taken ht hs true o).trans (if_pos rfl)),
    sets_discard hw (by simp) (by simp) hn _ _ _ _⟩

theorem cellReceive_malformed (hw : s.regsWf = true) (ht : s.trained p = true) (o : Bool) (hs : s.steady p = true)
    (hm : c.malformed = true) (hn : s.fget (R.OP_PORT_STATS.DISCARD_FORMAT p) + 1 <
      2 ^ ((R.OP_PORT_STATS.DISCARD_FORMAT p).hi + 1 - (R.OP_PORT_STATS.DISCARD_FORMAT p).lo)) :
    Answers (.cellReceive p c false o) s fun t =>
      Sets s t [(R.OP_PORT_STATS.DISCARD_FORMAT p, s.fget (R.OP_PORT_STATS.DISCARD_FORMAT p) + 1)] ∧
      t = { s with regs := t.regs, al := t.al } := by
  have e : s.cellReceive p c false o = _ :=
    (State.cellReceive_taken ht hs false o).trans ((if_neg Bool.false_ne_true).trans (if_pos hm))
  exact ⟨_, congrArg Host.Outcome.next e, sets_discard hw (by simp) (by simp) hn _ _ _ _⟩

theorem cellReceive_passes (ht : s.trained p = true) (hm : c.malformed = false) (hi : c.typ ≠ T.IDLE)
    (hb : c.typ ≠ T.HEARTBEAT) (hl : ¬(c.typ = T.STATUS ∧ c.dst = 1023)) (hp : s.portState p = PS.UP) (hs : s.steady p = true) :
    Answers (.cellReceive p c false false) s fun t => t = { s with out := .inject (nextStop p) c :: s.out } := by
  have e : s.cellReceive p c false false = s.emit (.inject (nextStop p) c) := by
    simp [State.cellReceive_taken ht hs, hm, hi, hb, hl, hp]
  exact ⟨_, congrArg Host.Outcome.next e, rfl⟩

/-! ## What only counts -/

/-- Only registers and the Almanac differ. -/
def State.Counts (s t : State) : Prop := ∃ regs al, t = { s with regs := regs, al := al }

theorem State.Counts.rfl_ (s : State) : s.Counts s := ⟨_, _, rfl⟩

theorem State.Counts.fset {f : Fld} {v : Nat} (h : s.Counts t) : s.Counts (t.fset f v) := by
  obtain ⟨regs, al, rfl⟩ := h
  exact ⟨_, _, rfl⟩

theorem State.Counts.almUpd {n : Nat} {f : Option Nat → Nat} (h : s.Counts t) : s.Counts (t.almUpd n f) := by
  obtain ⟨regs, al, rfl⟩ := h
  exact ⟨_, _, rfl⟩

theorem State.Counts.almAdd {a b o n : Nat} (h : s.Counts t) : s.Counts (t.almAdd a b o n) := h.almUpd

theorem State.Counts.almMax {a b o n : Nat} (h : s.Counts t) : s.Counts (t.almMax a b o n) := h.almUpd

theorem State.Counts.tmCount {n : Nat} (h : s.Counts t) : s.Counts (t.tmCount x n) := h.fset

theorem State.Counts.fmax {f : Fld} {v : Nat} (h : s.Counts t) : s.Counts (t.fmax f v) := by
  dsimp only [State.fmax]
  split
  · exact h.fset
  · exact h

theorem State.Counts.noteDepth (h : s.Counts t) : s.Counts (t.noteDepth x) :=
  (State.forEach_keeps (P := s.Counts) (f := fun u f => u.fmax f (bitsOf (t.swDepth x).toNat f.hi f.lo))
    (fun _ _ h => h.fmax) _ t h).almMax.almMax

/-- What is counted before and after a change of the switch. -/
theorem State.Counts.setSw (h : s.Counts t) (f : Switch → Switch) :
    ∃ regs al, (t.setSw (f t.sw)).noteDepth x = { s with regs := regs, al := al, sw := f s.sw } := by
  obtain ⟨regs, al, rfl⟩ := h
  obtain ⟨regs', al', e⟩ := State.Counts.noteDepth (x := x) (.rfl_ (State.setSw { s with regs := regs, al := al } (f s.sw)))
  exact ⟨regs', al', e⟩

/-! ## The pools (R112) -/

/-- What waits in a pool: the cell, bound for output p, three FCLK after it came. -/
def State.queued (s : State) (c : Cell) (p k : Nat) : Queued := { cell := c, outPos := p, at_ := s.fclk k + 3 }

theorem State.Counts.queued_eq (h : s.Counts t) (c : Cell) (p k : Nat) : t.queued c p k = s.queued c p k := by
  obtain ⟨regs, al, rfl⟩ := h
  rfl

theorem State.Counts.sw_eq (h : s.Counts t) : t.sw = s.sw := by
  obtain ⟨regs, al, rfl⟩ := h
  rfl

theorem State.joinPool_be {q : Queued} (hc : q.cell.cls = clsBE) (hl : (kgetD s.sw.inBe x []).length < 512) :
    s.joinPool x q = (s.setSw { s.sw with inBe := kupd s.sw.inBe x [] (· ++ [q]) }).noteDepth x :=
  congrArg (State.noteDepth · x) ((if_neg (by rw [hc]; decide)).trans ((if_neg (by rw [hc]; decide)).trans (if_pos hl)))

theorem State.joinPool_g {q : Queued} (hc : q.cell.cls = clsG) (hl : (kgetD s.sw.inG x []).length < 384) :
    s.joinPool x q = (s.setSw { s.sw with inG := kupd s.sw.inG x [] (· ++ [q]) }).noteDepth x :=
  congrArg (State.noteDepth · x) ((if_pos hc).trans (if_pos hl))

/-- A cell bound for an output is admitted as d, counted, and joins a pool of the switch. -/
theorem State.enterPool_joins {u : State} {d : Cell} {f : Switch → Switch} (ha : s.admitCell x c (.out p) = (u, d))
    (hj : ∀ v : State, v.sw = u.sw → v.joinPool x (u.queued d p k) = (v.setSw (f v.sw)).noteDepth x) :
    ∃ regs al, s.enterPool x c (.out p) k = { u with regs := regs, al := al, sw := f u.sw } := by
  have hv : u.Counts (((u.tmCount x (d.cls % 3)).almAdd 2 0 32 1).almAdd 4 x 0 1) :=
    (State.Counts.rfl_ u).tmCount.almAdd.almAdd
  have e : s.enterPool x c (.out p) k =
      (((u.tmCount x (d.cls % 3)).almAdd 2 0 32 1).almAdd 4 x 0 1).joinPool x (u.queued d p k) := by
    rw [← hv.queued_eq, State.enterPool, ha]
    rfl
  rw [e, hj _ hv.sw_eq]
  exact hv.setSw f

/-- A cell admitted as one of the best-effort class waits in the best-effort pool. -/
theorem State.enterPool_be {u : State} {d : Cell} (ha : s.admitCell x c (.out p) = (u, d)) (hc : d.cls = clsBE)
    (hl : (kgetD u.sw.inBe x []).length < 512) :
    ∃ regs al, s.enterPool x c (.out p) k = { u with
      regs := regs, al := al, sw := { u.sw with inBe := kupd u.sw.inBe x [] (· ++ [u.queued d p k]) } } :=
  State.enterPool_joins (f := fun y => { y with inBe := kupd y.inBe x [] (· ++ [u.queued d p k]) }) ha
    fun v hv => State.joinPool_be hc (by rw [hv]; exact hl)

/-- A cell admitted as a guaranteed one waits in the guaranteed pool. -/
theorem State.enterPool_g {u : State} {d : Cell} (ha : s.admitCell x c (.out p) = (u, d)) (hc : d.cls = clsG)
    (hl : (kgetD u.sw.inG x []).length < 384) :
    ∃ regs al, s.enterPool x c (.out p) k = { u with
      regs := regs, al := al, sw := { u.sw with inG := kupd u.sw.inG x [] (· ++ [u.queued d p k]) } } :=
  State.enterPool_joins (f := fun y => { y with inG := kupd y.inG x [] (· ++ [u.queued d p k]) }) ha
    fun v hv => State.joinPool_g hc (by rw [hv]; exact hl)

/-! ## Admission (R55, R57, R58) -/

theorem State.admitCell_be {b : Bound} (h : c.cls = clsBE) : s.admitCell x c b = (s, c) := if_pos (by rw [h]; decide)

/-- The first matching entry that holds a credit admits a guaranteed cell and gives one up. -/
theorem State.admitCell_credit {b : Bound} {e : CellEntry} (hc : c.cls = clsG) (ha : s.admitsG = true)
    (hr : s.relayed x b = false)
    (he : ((s.cellEntries (s.activeBank 0)).find? fun e => s.matchEntry x c b e && decide (0 < kgetD s.tt.credits e.idx 0)) = some e) :
    s.admitCell x c b =
      ({ s with tt := { s.tt with credits := kset s.tt.credits e.idx (kgetD s.tt.credits e.idx 0 - 1) } }, c) := by
  have h : s.creditFor x c b = some e := (if_pos (by simp [ha, hr])).trans he
  rw [State.admitCell, if_neg (not_not_intro hc), h]

theorem State.finc_frame (s : State) (f : Fld) (n : Nat) : ∃ regs free, s.finc f n = { s with regs := regs, free := free } := by
  dsimp only [State.finc]
  split
  · exact ⟨_, _, rfl⟩
  · exact ⟨_, _, rfl⟩

/-- While admission is closed a guaranteed cell is rewritten to a best-effort one of age 0, and counted. -/
theorem State.admitCell_closed {b : Bound} (hc : c.cls = clsG) (ha : s.admitsG = false) : ∃ regs free,
    s.admitCell x c b = ({ s with regs := regs, free := free }, { c with cls := clsBE, age := 0 }) := by
  have h : s.creditFor x c b = none := if_neg (by simp [ha])
  obtain ⟨regs, free, e⟩ := s.finc_frame (R.TB_CTX_OVER.COUNT (c.ctx % 64)) 1
  exact ⟨regs, free, by rw [State.admitCell, if_neg (not_not_intro hc), h, e]⟩

/-! ## The checks (R111, R112, R129 to R132, R137) -/

/-- A cell of the memory layout that may enter x at FCLK k and passes the checks of step 2 for output p. -/
structure State.Passes (s : State) (x p k : Nat) (c : Cell) : Prop where
  typ : c.typ ≠ T.IDLE
  memory : c.collective = false
  bound : s.boundFor x c = .out p
  routed : s.unrouted c = false
  src : s.srcOk x c = true
  part : s.partOk c = true
  here : s.gone c.dst = false
  up : s.posUp p = true
  free : s.canEnter x k = true
  turn : s.takes x c = true

/-- The switch once the cell waits outside no more and its slot is used. -/
def State.taken (s : State) (x k : Nat) (c : Cell) : Switch :=
  { (s.takeFeed x c).sw with usedIn := kupd s.sw.usedIn x 0 (bitSet · k) }

theorem State.useIn_takeFeed (s : State) (x k : Nat) (c : Cell) :
    (s.takeFeed x c).useIn x k = { s with sw := s.taken x k c } := by
  rw [State.taken, State.takeFeed]
  split
  · rfl
  · rfl

theorem State.takeFeed_pools (s : State) (x : Nat) (c : Cell) :
    (s.takeFeed x c).sw.inBe = s.sw.inBe ∧ (s.takeFeed x c).sw.inG = s.sw.inG := by
  rw [State.takeFeed]
  split
  · exact ⟨rfl, rfl⟩
  · exact ⟨rfl, rfl⟩

/-- The checks read nothing of the switch. -/
theorem State.Passes.ingress_eq (h : s.Passes x p k c) (y : Switch) :
    ({ s with sw := y } : State).ingress x c k = ({ s with sw := y } : State).enterPool x c (.out p) k := by
  have hb : ({ s with sw := y } : State).boundFor x c = .out p := h.bound
  have hr : ({ s with sw := y } : State).unrouted c = false := h.routed
  have hs : ({ s with sw := y } : State).srcOk x c = true := h.src
  have hp : ({ s with sw := y } : State).partOk c = true := h.part
  have hg : ({ s with sw := y } : State).gone c.dst = false := h.here
  have hu : ({ s with sw := y } : State).posUp p = true := h.up
  simp [State.ingress, State.checkPos, hb, hr, hs, hp, hg, hu]

theorem State.Passes.exec_eq (h : s.Passes x p k c) :
    exec (.cellIngress x c k) s = .next (({ s with sw := s.taken x k c } : State).enterPool x c (.out p) k) := by
  have e : exec (.cellIngress x c k) s = .next (((s.takeFeed x c).useIn x k).ingress x c k) :=
    congrArg Host.Outcome.next (if_pos ⟨h.free, h.typ, h.turn⟩)
  rw [e, s.useIn_takeFeed, h.ingress_eq]

/-- A cell admitted as the best-effort cell d waits in the best-effort pool. -/
theorem State.Passes.exec_be (h : s.Passes x p k c) {regs : RegFile} {free : Nat} {d : Cell}
    (ha : ({ s with sw := s.taken x k c } : State).admitCell x c (.out p) =
      ({ s with sw := s.taken x k c, regs := regs, free := free }, d))
    (hd : d.cls = clsBE) (hl : (kgetD s.sw.inBe x []).length < 512) :
    ∃ regs al, exec (.cellIngress x c k) s = .next { s with
      regs := regs, al := al, free := free
      sw := { s.taken x k c with inBe := kset s.sw.inBe x (kgetD s.sw.inBe x [] ++ [s.queued d p k]) } } := by
  have hi : (s.taken x k c).inBe = s.sw.inBe := (s.takeFeed_pools x c).1
  obtain ⟨regs', al, e⟩ := State.enterPool_be (k := k) ha hd (by rw [hi]; exact hl)
  refine ⟨regs', al, h.exec_eq.trans (congrArg Host.Outcome.next (e.trans ?_))⟩
  rw [kupd, hi]
  rfl

theorem State.Passes.enters_be (h : s.Passes x p k c) (hc : c.cls = clsBE) (hl : (kgetD s.sw.inBe x []).length < 512) :
    Answers (.cellIngress x c k) s fun t =>
      kgetD t.sw.inBe x [] = kgetD s.sw.inBe x [] ++ [{ cell := c, outPos := p, at_ := s.now * 1600 + k + 3 }] ∧
      t = { s with regs := t.regs, al := t.al
                   sw := { (s.takeFeed x c).sw with inBe := t.sw.inBe, usedIn := t.sw.usedIn } } := by
  obtain ⟨regs, al, e⟩ := h.exec_be (State.admitCell_be hc) hc hl
  exact ⟨_, e, kgetD_kset_self _ _ _ _, rfl⟩

theorem State.Passes.enters_g (h : s.Passes x p k c) (e : CellEntry) (hc : c.cls = clsG) (ha : s.admitsG = true)
    (hr : s.relayed x (.out p) = false)
    (he : ((s.cellEntries (s.activeBank 0)).find? fun e =>
      s.matchEntry x c (.out p) e && decide (0 < kgetD s.tt.credits e.idx 0)) = some e)
    (hl : (kgetD s.sw.inG x []).length < 384) :
    Answers (.cellIngress x c k) s fun t =>
      kgetD t.tt.credits e.idx 0 = kgetD s.tt.credits e.idx 0 - 1 ∧
      kgetD t.sw.inG x [] = kgetD s.sw.inG x [] ++ [{ cell := c, outPos := p, at_ := s.now * 1600 + k + 3 }] ∧
      t = { s with regs := t.regs, al := t.al, tt := { s.tt with credits := t.tt.credits }
                   sw := { (s.takeFeed x c).sw with inG := t.sw.inG, usedIn := t.sw.usedIn } } := by
  have hi : (s.taken x k c).inG = s.sw.inG := (s.takeFeed_pools x c).2
  obtain ⟨regs, al, ee⟩ := State.enterPool_g (s := { s with sw := s.taken x k c }) (x := x) (p := p) (k := k)
    (State.admitCell_credit (s := { s with sw := s.taken x k c }) hc ha hr he) hc (by rw [hi]; exact hl)
  refine ⟨_, h.exec_eq.trans (congrArg Host.Outcome.next ee), kgetD_kset_self _ _ _ _, ?_, rfl⟩
  rw [kupd, kgetD_kset_self, hi]
  rfl

theorem State.Passes.enters_rewritten (h : s.Passes x p k c) (hc : c.cls = clsG) (ha : s.admitsG = false)
    (hl : (kgetD s.sw.inBe x []).length < 512) :
    Answers (.cellIngress x c k) s fun t =>
      kgetD t.sw.inBe x [] = kgetD s.sw.inBe x [] ++
        [{ cell := { c with cls := clsBE, age := 0 }, outPos := p, at_ := s.now * 1600 + k + 3 }] ∧
      t = { s with regs := t.regs, al := t.al, free := t.free
                   sw := { (s.takeFeed x c).sw with inBe := t.sw.inBe, usedIn := t.sw.usedIn } } := by
  obtain ⟨regs₀, free, e₀⟩ := State.admitCell_closed (s := { s with sw := s.taken x k c }) (x := x) (b := .out p) hc ha
  obtain ⟨regs, al, e⟩ := h.exec_be e₀ rfl hl
  exact ⟨_, e, kgetD_kset_self _ _ _ _, rfl⟩

/-! ## Core input 128 + s (R17) -/

/-- The cells that wait there and are not aged. -/
def State.waiting (s : State) : List Cell := s.sw.feed.filter fun c => !aged c

theorem State.mem_waiting : c ∈ s.waiting ↔ c ∈ s.sw.feed ∧ aged c = false := by simp [State.waiting]

/-- Whose turn a cell has there: the control processor's control cell, the Tollgate's where only such ones wait; and where no
control cell waits a reserved cell, and where none is reserved the one of the other end-point than last time, or of the
same where only its cells wait. -/
inductive State.Turn (s : State) (c : Cell) : Prop where
  | ownControl (hc : c.cls = clsCtl) (ht : s.fromTg c = false)
  | tollgateControl (hc : c.cls = clsCtl) (hd : ∀ d ∈ s.waiting, d.cls = clsCtl → s.fromTg d = true)
  | reserved (hn : ∀ d ∈ s.waiting, d.cls ≠ clsCtl) (hr : s.reserved c = true)
  | other (hn : ∀ d ∈ s.waiting, d.cls ≠ clsCtl) (hr : ∀ d ∈ s.waiting, s.reserved d = false) (ht : s.fromTg c ≠ s.sw.feedTg)
  | same (hn : ∀ d ∈ s.waiting, d.cls ≠ clsCtl) (hr : ∀ d ∈ s.waiting, s.reserved d = false)
    (hd : ∀ d ∈ s.waiting, s.fromTg d = s.sw.feedTg)

theorem State.feedNext_eq (s : State) : s.feedNext =
    ((s.waiting.filter (·.cls == clsCtl)).find? fun c => !s.fromTg c).or ((s.waiting.filter (·.cls == clsCtl)).head?.or
      (((s.waiting.filter (·.cls != clsCtl)).find? s.reserved).or
        (((s.waiting.filter (·.cls != clsCtl)).find? fun c => s.fromTg c != s.sw.feedTg).or
          (s.waiting.filter (·.cls != clsCtl)).head?))) := by
  simp only [State.feedNext, Option.orElse_eq_orElse, Option.orElse_eq_or]
  rfl

/-- The cell taken next is one that waits and has its turn. -/
theorem State.turn_of_feedNext (h : s.feedNext = some c) : c ∈ s.waiting ∧ s.Turn c := by
  rw [s.feedNext_eq, Option.or_eq_some_iff] at h
  obtain h | ⟨h1, h⟩ := h
  · obtain ⟨hm, hc⟩ := List.mem_filter.1 (List.mem_of_find?_eq_some h)
    exact ⟨hm, .ownControl (by simpa using hc) (by simpa using List.find?_some h)⟩
  obtain h | ⟨h2, h⟩ := Option.or_eq_some_iff.1 h
  · obtain ⟨hm, hc⟩ := List.mem_filter.1 (List.mem_of_head? h)
    exact ⟨hm, .tollgateControl (by simpa using hc) fun d hd he => by
      simpa using List.find?_eq_none.1 h1 d (List.mem_filter.2 ⟨hd, by simpa using he⟩)⟩
  have hn : ∀ d ∈ s.waiting, d.cls ≠ clsCtl := by simpa using List.head?_eq_none_iff.1 h2
  have hrest {d : Cell} (hd : d ∈ s.waiting) : d ∈ s.waiting.filter (·.cls != clsCtl) :=
    List.mem_filter.2 ⟨hd, by simpa using hn d hd⟩
  obtain h | ⟨h3, h⟩ := Option.or_eq_some_iff.1 h
  · exact ⟨List.mem_of_mem_filter (List.mem_of_find?_eq_some h), .reserved hn (List.find?_some h)⟩
  have hr : ∀ d ∈ s.waiting, s.reserved d = false := fun d hd => by simpa using List.find?_eq_none.1 h3 d (hrest hd)
  obtain h | ⟨h4, h⟩ := Option.or_eq_some_iff.1 h
  · exact ⟨List.mem_of_mem_filter (List.mem_of_find?_eq_some h), .other hn hr (by simpa using List.find?_some h)⟩
  · exact ⟨List.mem_of_mem_filter (List.mem_of_head? h), .same hn hr fun d hd => by
      simpa using List.find?_eq_none.1 h4 d (hrest hd)⟩

theorem State.feedNext_order (h : s.feedNext = some c) : c ∈ s.sw.feed ∧ aged c = false ∧
    ∀ d ∈ s.sw.feed, aged d = false →
      (c.cls ≠ clsCtl → d.cls ≠ clsCtl) ∧
      (s.fromTg c = true → c.cls = clsCtl → d.cls = clsCtl → s.fromTg d = true) ∧
      (c.cls ≠ clsCtl → s.reserved c = false → s.reserved d = false ∧ (s.fromTg c = s.sw.feedTg → s.fromTg d = s.sw.feedTg)) := by
  obtain ⟨hm, ht⟩ := State.turn_of_feedNext h
  obtain ⟨hf, ha⟩ := State.mem_waiting.1 hm
  refine ⟨hf, ha, fun d hd hda => ?_⟩
  have hw := State.mem_waiting.2 ⟨hd, hda⟩
  cases ht with
  | ownControl hc ht => exact ⟨fun h => absurd hc h, fun h => by simp [ht] at h, fun h => absurd hc h⟩
  | tollgateControl hc hd => exact ⟨fun h => absurd hc h, fun _ _ => hd d hw, fun h => absurd hc h⟩
  | reserved hn hr => exact ⟨fun _ => hn d hw, fun _ h => absurd h (hn c hm), fun _ h => by simp [hr] at h⟩
  | other hn hr ht => exact ⟨fun _ => hn d hw, fun _ h => absurd h (hn c hm), fun _ _ => ⟨hr d hw, fun h => absurd h ht⟩⟩
  | same hn hr hd => exact ⟨fun _ => hn d hw, fun _ h => absurd h (hn c hm), fun _ _ => ⟨hr d hw, fun _ => hd d hw⟩⟩

theorem cellIngress_waits (s : State) (c : Cell) (k : Nat) (h : s.feedNext ≠ some c) :
    Answers (.cellIngress s.ownPos c k) s fun t => t = s :=
  ⟨_, congrArg Host.Outcome.next (if_neg (by simp [State.takes, h])), rfl⟩

/-- Settles O4: at a port each branch of the reception is one lemma; a cell that passes the checks enters the pool that its
admission chooses; the cell taken next at 128 + s is the one that has its turn. -/
theorem cellsEnter : Obligations.CellsEnter :=
  ⟨fun _ _ _ hw ht => ⟨fun u o hs => cellReceive_unsteady hs u o, cellReceive_uncorrectable hw ht, cellReceive_malformed hw ht,
      cellReceive_passes ht⟩,
    fun _ _ _ _ _ _ ht hm hb hu hs hp hg hup hf hk =>
      have h : State.Passes .. := ⟨ht, hm, hb, hu, hs, hp, hg, hup, hf, hk⟩
      ⟨h.enters_be, h.enters_g, h.enters_rewritten⟩,
    fun _ _ => State.feedNext_order, cellIngress_waits⟩

end Sys2Proof.Machine
end

/-! # Ports that lose their link -/
section
namespace Sys2Proof.Machine

open Sys2Proof.Laws

variable {s t u : State} {x k : Nat} {g : Fld} {v : Nat} {p : Nat → Prop}

/-! ## Bits of maps -/

theorem bitAt_bitSet (v i : Nat) : bitAt (bitSet v i) i = true := by
  by_cases h : bitAt v i = true
  · rw [bitSet, if_pos h, h]
  · rw [bitSet, if_neg h]
    simp only [bitAt, beq_iff_eq, Nat.add_div_right _ (Nat.two_pow_pos i)] at h ⊢
    omega

/-- Setting a bit of a map of n bits leaves it one of n bits. -/
theorem bitSet_lt {v i n : Nat} (hv : v < 2 ^ n) (hi : i < n) : bitSet v i < 2 ^ n := by
  by_cases h : bitAt v i = true
  · rwa [bitSet, if_pos h]
  · rw [bitSet, if_neg h]
    simp only [bitAt, beq_iff_eq] at h
    obtain ⟨m, rfl⟩ : ∃ m, n = m + 1 + i := ⟨n - 1 - i, by omega⟩
    rw [pow_add] at hv ⊢
    have hq : v / 2 ^ i < 2 ^ (m + 1) := (Nat.div_lt_iff_lt_mul (Nat.two_pow_pos i)).2 hv
    rw [← Nat.div_lt_iff_lt_mul (Nat.two_pow_pos i), Nat.add_div_right _ (Nat.two_pow_pos i)]
    rw [pow_succ] at hq ⊢
    omega

/-! ## What the loss of a link changes -/

/-- The registers beside its own status that the loss of a port's link touches: the runs of its wavelengths, and of a port of the
sled its count of cells lost and its place in the discovered map. -/
def lostReg (x a : Nat) : Prop :=
  (∃ k, k < 8 ∧ a = R.OP_WL_BER.addr x k) ∨
    x < 160 ∧ (a = R.SW_DROP_OUT.addr x ∨ a = R.SG_FOUND.addr x ∨ a = R.SG_STATUS.addr)

/-- Its first registers, of status and control, are none of those. -/
theorem not_lostReg_port {o : Nat} (ho : o < 0x100) : ¬lostReg x (opBase x + o) := by
  rintro (⟨k, -, h⟩ | ⟨hx, h⟩)
  · simp only [R.OP_WL_BER.addr] at h
    omega
  · simp only [R.SW_DROP_OUT.addr, R.SG_FOUND.addr, R.SG_STATUS.addr, opBase_sled hx] at h
    omega

/-- Nor are the marks of ports whose light was lost. -/
theorem not_lostReg_light (hk : k < 2) : ¬lostReg x (R.VG_GONE_LIGHT.addr k) := by
  rintro (⟨j, hj, h⟩ | ⟨hx, h⟩)
  · simp only [R.OP_WL_BER.addr, R.VG_GONE_LIGHT.addr, opBase] at h
    split at h <;> omega
  · simp only [R.VG_GONE_LIGHT.addr, R.SW_DROP_OUT.addr, R.SG_FOUND.addr, R.SG_STATUS.addr] at h
    omega

/-- A port's status is no mark of ports whose light was lost. -/
theorem status_ne_light (x k : Nat) (hk : k < 2) : R.OP_PORT_STATUS.addr x ≠ R.VG_GONE_LIGHT.addr k := by
  simp only [R.OP_PORT_STATUS.addr, R.VG_GONE_LIGHT.addr, opBase]
  split <;> omega

theorem State.Spares.chipFollow (h : s.Spares t p) : s.Spares t.chipFollow p := h.upd

/-- A port of the chiplet loses its link: its status and records, and whom the chiplet follows. -/
theorem State.unlink_eq_chip (s : State) (hx : 160 ≤ x) : s.unlink x =
    { (s.unlinked x).forgetLink x with chip := { ((s.unlinked x).forgetLink x).chip with
        leaving := ((s.unlinked x).forgetLink x).chip.leaving.filter (· != x - 160) } }.chipFollow := if_pos hx

theorem State.unlinked_unlink_spares (s : State) (x : Nat) : (s.unlinked x).Spares (s.unlink x) (lostReg x) := by
  have hw : ∀ k, k < 8 → lostReg x (R.OP_WL_BER.addr x k) := fun k hk => .inl ⟨k, hk, rfl⟩
  obtain hx | hx := Nat.lt_or_ge x 160
  · exact s.unlink_spares hx hw (.inr ⟨hx, .inr (.inl rfl)⟩) (.inr ⟨hx, .inr (.inr rfl)⟩)
  · rw [s.unlink_eq_chip hx]
    exact ((State.Spares.rfl_ _ _).forgetLink hw).upd.chipFollow

/-- Its own status is touched too. -/
def downReg (x a : Nat) : Prop := a = R.OP_PORT_STATUS.addr x ∨ lostReg x a

theorem State.unlink_downs (s : State) (x : Nat) : s.Spares (s.unlink x) (downReg x) := by
  have hs : downReg x (R.OP_PORT_STATUS.addr x) := .inl rfl
  have h : s.Spares (s.setLink x PS.DOWN) (downReg x) := ((State.Spares.rfl_ s _).fset hs).trans
    (s.setLink_spares x PS.DOWN fun hx => .inr (.inr ⟨by omega, .inl rfl⟩))
  have hu : s.Spares (s.unlinked x) (downReg x) := (((h.fset hs).fset hs).fset hs).fset hs
  exact hu.trans ((s.unlinked_unlink_spares x).mono fun _ => .inr)

/-- The fields of a port's status that tell of a link: its state, its width, the wavelengths that work. -/
def linkFld (x : Nat) (g : Fld) : Prop :=
  g = R.OP_PORT_STATUS.STATE x ∨ g = R.OP_PORT_STATUS.WIDTH x ∨ g = R.OP_PORT_STATUS.WL_WORKING x

theorem linkFld_addr (h : linkFld x g) : g.addr = R.OP_PORT_STATUS.addr x := by
  obtain rfl | rfl | rfl := h <;> rfl

theorem State.reads_unlinked (hw : s.regsWf = true) (hg : linkFld x g) : (s.unlinked x).Reads g 0 := by
  have h : (s.setLink x PS.DOWN).Reads (R.OP_PORT_STATUS.STATE x) PS.DOWN :=
    (s.setLink_spares (p := lostReg x) x PS.DOWN fun hx => .inr ⟨by omega, .inl rfl⟩).reads
      (.stored hw _ ⟨by simp, by simp, by simp [PS.DOWN]⟩) (not_lostReg_port (by decide))
  have hwd : ((s.setLink x PS.DOWN).fset (R.OP_PORT_STATUS.WIDTH x) 0).Reads (R.OP_PORT_STATUS.WIDTH x) 0 :=
    .stored h.wf _ ⟨by simp, by simp, by simp⟩
  obtain rfl | rfl | rfl := hg
  · exact (((h.fset (by simp [Fld.Beside])).fset (by simp [Fld.Beside])).fset (by simp [Fld.Beside])).fset (by simp [Fld.Beside])
  · exact ((hwd.fset (by simp [Fld.Beside])).fset (by simp [Fld.Beside])).fset (by simp [Fld.Beside])
  · exact ((State.Reads.stored hwd.wf _ ⟨by simp, by simp, by simp⟩).fset (by simp [Fld.Beside])).fset (by simp [Fld.Beside])

theorem State.reads_unlink (hw : s.regsWf = true) (hg : linkFld x g) : (s.unlink x).Reads g 0 :=
  (s.unlinked_unlink_spares x).reads (State.reads_unlinked hw hg) (by rw [linkFld_addr hg]; exact not_lostReg_port (by decide))

/-! ## The port's record -/

/-- The ports' records stand from s to t. -/
def State.SamePorts (s t : State) : Prop := t.ports = s.ports

theorem State.SamePorts.upd (h : s.SamePorts t) {tb tt sw sg al chip free} :
    s.SamePorts { t with tb := tb, tt := tt, sw := sw, sg := sg, al := al, chip := chip, free := free } := h

theorem State.SamePorts.fset {f : Fld} {n : Nat} (h : s.SamePorts t) : s.SamePorts (t.fset f n) := h

theorem State.SamePorts.fsetb {f : Fld} {b : Bool} (h : s.SamePorts t) : s.SamePorts (t.fsetb f b) := h.fset

theorem State.SamePorts.almAdd {a b o n : Nat} (h : s.SamePorts t) : s.SamePorts (t.almAdd a b o n) := h

theorem State.SamePorts.ite {c : Prop} [Decidable c] (h : s.SamePorts t) (k : s.SamePorts u) : s.SamePorts (if c then t else u) := by
  split
  · exact h
  · exact k

theorem State.SamePorts.finc {f : Fld} {n : Nat} (h : s.SamePorts t) : s.SamePorts (t.finc f n) := h.fset.ite h.fset.upd

theorem State.SamePorts.setLink {st : Nat} (h : s.SamePorts t) : s.SamePorts (t.setLink x st) := by
  dsimp only [State.setLink]
  split
  · exact h.fset
  · exact .ite (.ite (State.SamePorts.finc h.fset.upd).almAdd h.fset.upd) h.fset.upd

theorem State.SamePorts.clearRuns (h : s.SamePorts t) : s.SamePorts (t.clearRuns x) :=
  State.forEach_keeps (P := s.SamePorts) (fun _ _ k => k.ite k.fset.fset) _ t h

theorem State.SamePorts.setOutcome {o : Nat} (h : s.SamePorts t) : s.SamePorts (t.setOutcome x o) := by
  dsimp only [State.setOutcome]
  exact h.ite (State.SamePorts.ite h.fset.fsetb h.fset).upd

theorem State.SamePorts.recount (h : s.SamePorts t) : s.SamePorts t.recount := h.ite h.fset.finc.upd

theorem State.SamePorts.chipFollow (h : s.SamePorts t) : s.SamePorts t.chipFollow := h.upd

/-- The record of a port without a link. -/
def PortSt.unlinked (y : PortSt) : PortSt :=
  { y with far := none, forced := false, dueMaint := false, duePlace := false, sendQ := [], farErrors := [], prevRun := []
           noLock := 0 }

theorem State.unlink_ports (s : State) (x : Nat) : (s.unlink x).ports = kset s.ports x (s.port x).unlinked := by
  have h0 : s.SamePorts (s.unlinked x) := State.SamePorts.setLink rfl |>.fset.fset.fset.fset
  have h1 : ((s.unlinked x).forgetLink x).ports = kset s.ports x (s.port x).unlinked := by
    have h : ((s.unlinked x).setPort x ((s.unlinked x).port x).unlinked).SamePorts ((s.unlinked x).forgetLink x) :=
      State.SamePorts.clearRuns rfl |>.upd
    rw [h, State.setPort, State.port, h0]
    rfl
  obtain hx | hx := Nat.lt_or_ge x 160
  · rw [s.unlink_eq hx]
    split
    · exact h1
    · exact (State.SamePorts.setOutcome rfl).recount.trans h1
  · rw [s.unlink_eq_chip hx]
    exact (State.SamePorts.chipFollow (State.SamePorts.upd rfl)).trans h1

theorem State.port_unlink (s : State) (x : Nat) : (s.unlink x).port x = (s.port x).unlinked := by
  rw [State.port, s.unlink_ports, kgetD_kset_self]

/-! ## Going DOWN (R92, R554) -/

/-- The port's link is lost, and the Almanac tells of it. -/
def State.linkLost (s : State) (x : Nat) : State := ((s.unlink x).almAdd 4 x 21 1).almLow 4 x 20 0

/-- The LIGHT mark of an accelerator port is set. -/
def State.lightMarked (s : State) (x : Nat) : State :=
  s.when (x < 128) fun s =>
    (s.fset (R.VG_GONE_LIGHT.MAP (x / 64)) (bitSet (s.fget (R.VG_GONE_LIGHT.MAP (x / 64))) (x % 64))).almAdd 3 0 38 1

theorem State.portDown_down (h : s.portState x = PS.DOWN) (light : Bool) : s.portDown x light = s := if_pos h

theorem State.portDown_quiet (h : s.portState x ≠ PS.DOWN) : s.portDown x false = s.linkLost x := if_neg h

theorem State.portDown_light (h : s.portState x ≠ PS.DOWN) : s.portDown x true =
    ((s.linkLost x).lightMarked x).setPort x
      { ((s.linkLost x).lightMarked x).port x with retryAt := some (((s.linkLost x).lightMarked x).now + 1000) } := if_neg h

theorem State.linkLost_spares (s : State) (x : Nat) : s.Spares (s.linkLost x) (downReg x) :=
  (s.unlink_downs x).almAdd.almLow

theorem State.reads_linkLost (hw : s.regsWf = true) (hg : linkFld x g) : (s.linkLost x).Reads g 0 :=
  (State.reads_unlink hw hg).congr rfl rfl

theorem State.lightMarked_spares (s : State) (x : Nat) : s.Spares (s.lightMarked x) fun a => x < 128 ∧ a = R.VG_GONE_LIGHT.addr (x / 64) := by
  dsimp only [State.lightMarked, State.when]
  split
  next h => exact ((State.Spares.rfl_ s _).fset ⟨of_decide_eq_true h, rfl⟩).almAdd
  next => exact .rfl_ s _

theorem State.bitAt_lightMarked (hw : s.regsWf = true) (hx : x < 128) :
    bitAt ((s.lightMarked x).fget (R.VG_GONE_LIGHT.MAP (x / 64))) (x % 64) = true := by
  have hv : s.fget (R.VG_GONE_LIGHT.MAP (x / 64)) < 2 ^ 64 := bitsOf_lt _ 63 0
  have h := State.Reads.stored hw (R.VG_GONE_LIGHT.MAP (x / 64))
    (v := bitSet (s.fget (R.VG_GONE_LIGHT.MAP (x / 64))) (x % 64))
    ⟨by simp, by simp, bitSet_lt hv (Nat.mod_lt x (by omega))⟩
  rw [State.lightMarked, State.when, if_pos (decide_eq_true hx), State.fget_almAdd, h.eq]
  exact bitAt_bitSet _ _

/-- A port told to go DOWN without a loss of light touches what the loss of its link touches. -/
theorem State.portDown_spares (s : State) (x : Nat) : s.Spares (s.portDown x false) (downReg x) := by
  by_cases h : s.portState x = PS.DOWN
  · rw [State.portDown_down h]
    exact .rfl_ s _
  · rw [State.portDown_quiet h]
    exact s.linkLost_spares x

theorem State.reads_portDown (hw : s.regsWf = true) (x : Nat) : (s.portDown x false).Reads (R.OP_PORT_STATUS.STATE x) PS.DOWN := by
  by_cases h : s.portState x = PS.DOWN
  · rw [State.portDown_down h]
    exact ⟨hw, h⟩
  · rw [State.portDown_quiet h]
    exact State.reads_linkLost hw (.inl rfl)

theorem State.failed_portDown (s : State) (x : Nat) : ((s.portDown x false).port x).failed = (s.port x).failed := by
  by_cases h : s.portState x = PS.DOWN
  · rw [State.portDown_down h]
  · rw [State.portDown_quiet h]
    have h : (s.linkLost x).port x = (s.port x).unlinked := s.port_unlink x
    rw [h]
    rfl

theorem lightLoss_downs (hw : s.regsWf = true) (x : Nat) (hp : s.isPort x = true) (hd : s.portState x ≠ PS.DOWN) :
    Answers (.lightLoss x) s fun t => t.portState x = PS.DOWN ∧ t.fget (R.OP_PORT_STATUS.WIDTH x) = 0 ∧
      t.fget (R.OP_PORT_STATUS.WL_WORKING x) = 0 ∧ (t.port x).retryAt = some (s.now + 1000) ∧
      (x < 128 → bitAt (t.fget (R.VG_GONE_LIGHT.MAP (x / 64))) (x % 64) = true) ∧ t.mem = s.mem := by
  have hm := (s.linkLost x).lightMarked_spares x
  have hl := s.linkLost_spares x
  have hr {g : Fld} (hg : linkFld x g) : ((s.linkLost x).lightMarked x).Reads g 0 :=
    hm.reads (State.reads_linkLost hw hg) (by
      rintro ⟨hx, h⟩
      exact status_ne_light x (x / 64) (by omega) ((linkFld_addr hg).symm.trans h))
  have hn : ((s.linkLost x).lightMarked x).now = s.now := hm.now_eq.trans hl.now_eq
  refine ⟨_, congrArg Host.Outcome.next ((if_pos hp).trans (State.portDown_light hd)), (hr (.inl rfl)).eq, (hr (.inr (.inl rfl))).eq,
    (hr (.inr (.inr rfl))).eq, ?_, State.bitAt_lightMarked (hl.wf hw), hm.mem.trans hl.mem⟩
  rw [State.port_setPort, hn]

theorem State.portState_of_trained (h : s.trained x = true) : s.portState x ≠ PS.DOWN := by
  simp only [State.trained, Bool.and_eq_true, decide_eq_true_eq] at h
  obtain ⟨⟨-, h⟩, -⟩ := h
  intro hd
  rw [hd] at h
  exact absurd h (by decide)

theorem codedStreamLoss_downs (hw : s.regsWf = true) (x : Nat) (ht : s.trained x = true) :
    Answers (.codedStreamLoss x) s fun t => t.portState x = PS.DOWN ∧ t.fget (R.OP_PORT_STATUS.WIDTH x) = 0 ∧
      t.fget (R.OP_PORT_STATUS.WL_WORKING x) = 0 ∧
      (∀ k, k < 2 → t.reg (R.VG_GONE_LIGHT.MAP k).addr = s.reg (R.VG_GONE_LIGHT.MAP k).addr) ∧ t.mem = s.mem := by
  have hl := s.linkLost_spares x
  have hr {g : Fld} (hg : linkFld x g) : (s.linkLost x).Reads g 0 := State.reads_linkLost hw hg
  refine ⟨_, congrArg Host.Outcome.next ((if_pos ht).trans (State.portDown_quiet (State.portState_of_trained ht))),
    (hr (.inl rfl)).eq, (hr (.inr (.inl rfl))).eq, (hr (.inr (.inr rfl))).eq, fun k hk => hl.apart _ ?_, hl.mem⟩
  rintro (h | h)
  · exact status_ne_light x k hk h.symm
  · exact not_lostReg_light hk h

theorem State.Reads.setPort {y : PortSt} (h : t.Reads g v) : (t.setPort x y).Reads g v := h.congr rfl rfl

theorem State.Reads.emit {o : Out} (h : t.Reads g v) : (t.emit o).Reads g v := h.congr rfl rfl

/-! ## OP_PORT_CTL (R91 to R93, R97, R149, R555) -/

theorem sets_fsetb (hw : s.regsWf = true) {f : Fld} (hl : f.lo ≤ f.hi) (hh : f.hi < 64) (b : Bool) :
    Sets s (s.fsetb f b) [(f, if b then 1 else 0)] :=
  State.sets_fset hw hl hh (by
    have : 2 ≤ 2 ^ (f.hi + 1 - f.lo) := Nat.le_self_pow (by omega) 2
    split <;> omega)

/-- A field of OP_PORT_CTL stands while the port goes DOWN. -/
theorem State.Reads.portDown_ctl (h : s.Reads g v) (hg : g.addr = R.OP_PORT_CTL.addr x) : (s.portDown x false).Reads g v :=
  (s.portDown_spares x).reads h (by
    rw [hg]
    rintro (h | h)
    · simp [R.OP_PORT_CTL.addr, R.OP_PORT_STATUS.addr] at h
    · exact not_lostReg_port (by decide) h)

theorem State.reads_fsetb (hw : s.regsWf = true) {f : Fld} (hl : f.lo ≤ f.hi) (hh : f.hi < 64) (b : Bool) :
    (s.fsetb f b).Reads f (if b then 1 else 0) :=
  ⟨s.regsWf_fset hw _ _, (sets_fsetb hw hl hh b).1 _ (List.mem_singleton_self _)⟩

theorem enable_enables (hw : s.regsWf = true) (hp : s.isPort x = true) (h : x < 144 ∨ 160 ≤ x ∨ s.planned x = true) :
    Answers (.enable x true) s fun t => Sets s t [(R.OP_PORT_CTL.ENABLE x, 1)] ∧ t = { s with regs := t.regs } := by
  have e : exec (.enable x true) s = .next (s.fsetb (R.OP_PORT_CTL.ENABLE x) true) := by
    have hv : (true && (decide (x < 144) || decide (160 ≤ x) || s.planned x)) = true := by simpa [or_assoc] using h
    change Host.Outcome.next _ = _
    simp only [hp, hv, Bool.not_true, Bool.false_eq_true, if_false, if_true]
  exact ⟨_, e, sets_fsetb hw (by simp) (by simp) true, rfl⟩

/-- ENABLE stored as 0, whether written so or held so, makes the port dark. -/
theorem enable_darkens (hw : s.regsWf = true) (hp : s.isPort x = true) {b : Bool}
    (h : (b && (decide (x < 144) || decide (160 ≤ x) || s.planned x)) = false) :
    Answers (.enable x b) s fun t => t.fget (R.OP_PORT_CTL.ENABLE x) = 0 ∧ t.portState x = PS.DOWN ∧
      (t.port x).failed = 0 ∧ (t.port x).retryAt = none ∧ t.mem = s.mem := by
  have e : exec (.enable x b) s = .next (((s.fsetb (R.OP_PORT_CTL.ENABLE x) false).portDown x false).setPort x
      { ((s.fsetb (R.OP_PORT_CTL.ENABLE x) false).portDown x false).port x with failed := 0, retryAt := none }) := by
    change Host.Outcome.next _ = _
    simp only [hp, h, Bool.not_true, Bool.false_eq_true, if_false]
  have hr := State.reads_fsetb hw (f := R.OP_PORT_CTL.ENABLE x) (by simp) (by simp) false
  refine ⟨_, e, (hr.portDown_ctl rfl).eq, (State.reads_portDown hr.wf x).eq, ?_, ?_,
    (State.portDown_spares (s.fsetb (R.OP_PORT_CTL.ENABLE x) false) x).mem⟩
  · rw [State.port_setPort]
  · rw [State.port_setPort]

theorem enable_held (hw : s.regsWf = true) (hp : s.isPort x = true) (h1 : 144 ≤ x) (h2 : x < 160) (hn : s.planned x = false) :
    Answers (.enable x true) s fun t =>
      t.fget (R.OP_PORT_CTL.ENABLE x) = 0 ∧ t.portState x = PS.DOWN ∧ t.mem = s.mem := by
  obtain ⟨t, e, he, hd, -, -, hm⟩ := enable_darkens (b := true) hw hp (by simp [hn, h1, h2])
  exact ⟨t, e, he, hd, hm⟩

theorem fwOverride_sets (hw : s.regsWf = true) (hp : s.isPort x = true) (b : Bool) : Answers (.fwOverride x b) s fun t =>
    Sets s t [(R.OP_PORT_CTL.FW_OVERRIDE x, if b then 1 else 0)] ∧ t = { s with regs := t.regs } :=
  ⟨_, congrArg Host.Outcome.next (if_pos hp), sets_fsetb hw (by simp) (by simp) b, rfl⟩

theorem State.setLink_of_not_up {st : Nat} (h : s.portState x ≠ PS.UP) (k : st ≠ PS.UP) :
    s.setLink x st = s.fset (R.OP_PORT_STATUS.STATE x) st := if_pos (.inr (.inl ⟨h, k⟩))

theorem State.fsetAll_regs_only (s : State) (l : List (Fld × Nat)) : ∃ regs, s.fsetAll l = { s with regs := regs } := by
  induction l generalizing s with
  | nil => exact ⟨_, rfl⟩
  | cons e l ih =>
    obtain ⟨regs, h⟩ := ih (s.fset e.1 e.2)
    exact ⟨regs, h⟩

theorem State.fsetAll_spares (s : State) {l : List (Fld × Nat)} (hl : ∀ e ∈ l, p e.1.addr) : s.Spares (s.fsetAll l) p := by
  induction l generalizing s with
  | nil => exact .rfl_ s _
  | cons e l ih =>
    obtain ⟨he, hl⟩ := List.forall_mem_cons.1 hl
    exact ((State.Spares.rfl_ s _).fset he).trans (ih _ hl)

/-- The fields of a port's status that the start of its training stores. -/
def State.startStored (s : State) (x : Nat) : State :=
  s.fsetAll [(R.OP_PORT_STATUS.STATE x, PS.TRAINING), (R.OP_PORT_STATUS.WL_RETIRED x, 0)]

theorem State.startStored_spares (s : State) (x : Nat) : s.Spares (s.startStored x) (· = R.OP_PORT_STATUS.addr x) :=
  s.fsetAll_spares (by simp)

theorem State.port_startStored (s : State) (x : Nat) : (s.startStored x).port x = s.port x := by
  obtain ⟨regs, e⟩ := s.fsetAll_regs_only _
  rw [State.startStored, e]
  rfl

/-- A port that is not UP starts its training: its status, its record and its light. -/
theorem State.trainBegin_eq (h : s.portState x ≠ PS.UP) : s.trainBegin x = ((s.startStored x).setPort x
    { (s.startStored x).port x with
        retryAt := none, noLock := 0, linkFrame := 0
        fwOver := (s.startStored x).fbit (R.OP_PORT_CTL.FW_OVERRIDE x) }).emit (.light x 0xFF 0) := by
  rw [State.trainBegin, State.setLink_of_not_up h (by decide)]
  rfl

theorem State.trainBegin_spares (h : s.portState x ≠ PS.UP) : s.Spares (s.trainBegin x) (· = R.OP_PORT_STATUS.addr x) := by
  rw [State.trainBegin_eq h]
  exact (s.startStored_spares x).setPort.upd

theorem State.port_trainBegin (h : s.portState x ≠ PS.UP) : (s.trainBegin x).port x =
    { s.port x with retryAt := none, noLock := 0, linkFrame := 0, fwOver := (s.startStored x).fbit (R.OP_PORT_CTL.FW_OVERRIDE x) } := by
  rw [State.trainBegin_eq h, State.port_emit, State.port_setPort, State.port_startStored]

theorem State.out_trainBegin (h : s.portState x ≠ PS.UP) : (s.trainBegin x).out = .light x 0xFF 0 :: s.out := by
  rw [State.trainBegin_eq h]
  obtain ⟨regs, e⟩ := s.fsetAll_regs_only _
  rw [State.startStored, e]
  rfl

theorem State.reads_trainBegin (hw : s.regsWf = true) (h : s.portState x ≠ PS.UP) :
    (s.trainBegin x).Reads (R.OP_PORT_STATUS.STATE x) PS.TRAINING ∧ (s.trainBegin x).Reads (R.OP_PORT_STATUS.WL_RETIRED x) 0 := by
  have hs := State.Reads.stored hw (R.OP_PORT_STATUS.STATE x) (v := PS.TRAINING) ⟨by simp, by simp, by simp [PS.TRAINING]⟩
  have hr := State.Reads.stored hs.wf (R.OP_PORT_STATUS.WL_RETIRED x) (v := 0) ⟨by simp, by simp, by simp⟩
  rw [State.trainBegin_eq h]
  exact ⟨(State.Reads.setPort (hs.fset (by simp [Fld.Beside]))).emit, hr.setPort.emit⟩

theorem retrain_trains (hw : s.regsWf = true) (hl : s.lit x = true) : Answers (.retrain x) s fun t =>
    t.portState x = PS.TRAINING ∧ Out.light x 0xFF 0 ∈ t.out ∧ (t.port x).far = none ∧ t.mem = s.mem := by
  have hd := State.reads_unlink (x := x) hw (.inl rfl)
  have hu : (s.unlink x).portState x ≠ PS.UP := fun h => absurd (hd.eq.symm.trans h) (by decide)
  refine ⟨_, congrArg Host.Outcome.next (if_pos hl), (State.reads_trainBegin hd.wf hu).1.eq, ?_, ?_,
    (State.trainBegin_spares hu).mem.trans (s.unlink_downs x).mem⟩
  · rw [State.out_trainBegin hu]
    exact List.mem_cons_self
  · rw [State.port_trainBegin hu, s.port_unlink]
    rfl

theorem forceDown_downs (hw : s.regsWf = true) (hp : s.isPort x = true) : Answers (.forceDown x true) s fun t =>
    t.fget (R.OP_PORT_CTL.FORCE_DOWN x) = 1 ∧ t.portState x = PS.DOWN := by
  have e : exec (.forceDown x true) s = .next ((s.fsetb (R.OP_PORT_CTL.FORCE_DOWN x) true).portDown x false) :=
    congrArg Host.Outcome.next (if_neg (by simp [hp]))
  have hr := State.reads_fsetb hw (f := R.OP_PORT_CTL.FORCE_DOWN x) (by simp) (by simp) true
  exact ⟨_, e, (hr.portDown_ctl rfl).eq, (State.reads_portDown hr.wf x).eq⟩

theorem forceDown_releases (hw : s.regsWf = true) (hp : s.isPort x = true) : Answers (.forceDown x false) s fun t =>
    Sets s t [(R.OP_PORT_CTL.FORCE_DOWN x, 0)] ∧ t = { s with regs := t.regs, pat := t.pat } := by
  have e : exec (.forceDown x false) s = .next ((s.fsetb (R.OP_PORT_CTL.FORCE_DOWN x) false).when
      (s.fbit (R.OP_PORT_CTL.FORCE_DOWN x)) (·.testEnd x)) := congrArg Host.Outcome.next (if_neg (by simp [hp]))
  have hs : Sets s (s.fsetb (R.OP_PORT_CTL.FORCE_DOWN x) false) _ := sets_fsetb hw (by simp) (by simp) false
  refine ⟨_, e, ?_⟩
  dsimp only [State.when]
  split
  · exact ⟨Sets.congr hs rfl rfl, rfl⟩
  · exact ⟨hs, rfl⟩

/-- A port is trained or not whatever its control says. -/
theorem State.trained_fsetb_ctl {f : Fld} (hf : f.addr = R.OP_PORT_CTL.addr x) (s : State) (b : Bool) :
    (s.fsetb f b).trained x = s.trained x := by
  have h : (s.fsetb f b).portState x = s.portState x :=
    s.fget_fset_ne (by rw [hf]; simp [R.OP_PORT_CTL.addr, R.OP_PORT_STATUS.addr]) _
  simp only [State.trained, h]
  rfl

theorem forceMaint_falls_due (hw : s.regsWf = true) (hp : s.isPort x = true) (b : Bool) : Answers (.forceMaint x b) s fun t =>
    Sets s t [(R.OP_PORT_CTL.FORCE_MAINT x, if b then 1 else 0)] ∧ (t.port x).dueMaint = (b && s.trained x) ∧
      (b = false → s.fbit (R.OP_PORT_CTL.FORCE_MAINT x) = true → (t.port x).duePlace = true) ∧
      t = { s with regs := t.regs, ports := t.ports } := by
  have e : exec (.forceMaint x b) s = .next ((s.fsetb (R.OP_PORT_CTL.FORCE_MAINT x) b).setPort x { s.port x with
      dueMaint := b && (s.fsetb (R.OP_PORT_CTL.FORCE_MAINT x) b).trained x
      duePlace := !b && (s.fbit (R.OP_PORT_CTL.FORCE_MAINT x) || (s.port x).duePlace) }) :=
    congrArg Host.Outcome.next (if_neg (by simp [hp]))
  refine ⟨_, e, Sets.congr (sets_fsetb hw (by simp) (by simp) b) rfl rfl, ?_, fun hb hf => ?_, rfl⟩
  · rw [State.port_setPort, State.trained_fsetb_ctl rfl]
  · rw [State.port_setPort, hb, hf]
    rfl

/-- Settles O7: what a port loses with its link is told once, for ports of the sled and of the chiplet; loss of light, of the
coded stream, and the fields of OP_PORT_CTL each use it. -/
theorem portsAreControlled : Obligations.PortsAreControlled :=
  ⟨fun _ p hw => ⟨lightLoss_downs hw p, codedStreamLoss_downs hw p⟩,
    fun _ _ hw hp => ⟨enable_enables hw hp, enable_held hw hp, enable_darkens hw hp (Bool.false_and _), fwOverride_sets hw hp,
      retrain_trains hw, forceDown_downs hw hp, forceDown_releases hw hp, forceMaint_falls_due hw hp⟩⟩

end Sys2Proof.Machine
end

/-! # Training -/
section
namespace Sys2Proof.Machine

open Sys2Proof.Laws

variable {s t u : State} {p k v : Nat} {g : Fld} {i : TrainInfo}

/-! ## Its start, its failures and its retries (R75, R92, R93) -/

/-- Only registers, ports, outputs and the count of free values differ. -/
def State.LinkOnly (s t : State) : Prop :=
  t = { s with regs := t.regs, ports := t.ports, out := t.out, free := t.free }

theorem State.LinkOnly.rfl_ (s : State) : s.LinkOnly s := rfl

theorem State.LinkOnly.upd (h : s.LinkOnly t) {regs ports out free} :
    s.LinkOnly { t with regs := regs, ports := ports, out := out, free := free } := by
  rw [h]
  rfl

theorem State.LinkOnly.fset {f : Fld} {n : Nat} (h : s.LinkOnly t) : s.LinkOnly (t.fset f n) := h.upd

theorem State.LinkOnly.fsetb {f : Fld} {b : Bool} (h : s.LinkOnly t) : s.LinkOnly (t.fsetb f b) := h.fset

theorem State.LinkOnly.setPort {y : PortSt} (h : s.LinkOnly t) : s.LinkOnly (t.setPort p y) := h.upd

theorem State.LinkOnly.emit {o : Out} (h : s.LinkOnly t) : s.LinkOnly (t.emit o) := h.upd

theorem State.LinkOnly.freeUsed (h : s.LinkOnly t) : s.LinkOnly t.freeUsed := h.upd

theorem trainingStart_begins (hw : s.regsWf = true) (hl : s.lit p = true) (hd : s.portState p = PS.DOWN)
    (hr : (s.port p).retryAt = none) : Answers (.trainingStart p none) s fun t => t.portState p = PS.TRAINING ∧
      t.fget (R.OP_PORT_STATUS.WL_RETIRED p) = 0 ∧ t.out = .light p 0xFF 0 :: s.out ∧ (t.port p).noLock = 0 ∧
      (t.port p).linkFrame = 0 ∧ t = { s with regs := t.regs, ports := t.ports, out := t.out } := by
  have hu : s.portState p ≠ PS.UP := by rw [hd]; decide
  obtain ⟨hs, hz⟩ := State.reads_trainBegin hw hu
  refine ⟨_, congrArg Host.Outcome.next (if_pos (by simp [hl, hd, hr])), hs.eq, hz.eq, State.out_trainBegin hu, ?_, ?_, ?_⟩
  · rw [State.port_trainBegin hu]
  · rw [State.port_trainBegin hu]
  · obtain ⟨regs, e⟩ := s.fsetAll_regs_only _
    rw [State.trainBegin_eq hu, State.startStored, e]
    rfl

theorem State.trainFail_spares (s : State) (p k : Nat) : s.Spares (s.trainFail p k) (downReg p) := by
  rw [State.trainFail]
  exact ((s.portDown_spares p).fset (.inl rfl)).setPort

theorem State.reads_trainFail (hw : s.regsWf = true) (p : Nat) (hk : k < 8) :
    (s.trainFail p k).Reads (R.OP_PORT_STATUS.STATE p) PS.DOWN ∧ (s.trainFail p k).Reads (R.OP_PORT_STATUS.FAIL_STEP p) k := by
  have hd := State.reads_portDown hw p
  rw [State.trainFail]
  exact ⟨State.Reads.setPort (hd.fset (by simp [Fld.Beside])), State.Reads.setPort (.stored hd.wf _ ⟨by simp, by simp, hk⟩)⟩

theorem State.port_trainFail (s : State) (p k : Nat) : (s.trainFail p k).port p = { (s.portDown p false).port p with
    failed := (s.port p).failed + 1
    firstTry := true
    retryAt := some (s.now + if 8 ≤ (s.port p).failed + 1 then 60000000 else 1000) } := by
  rw [State.trainFail, State.port_setPort, State.port_fset, s.failed_portDown, State.now_fset, (s.portDown_spares p).now_eq]

theorem trainingStepTimeout_fails (hw : s.regsWf = true) (k : Nat) (hp : s.isPort p = true) (hs : s.portState p = PS.TRAINING)
    (h1 : 1 ≤ k) (h5 : k ≤ 5) : Answers (.trainingStepTimeout p k) s fun t =>
      t.portState p = PS.DOWN ∧ t.fget (R.OP_PORT_STATUS.FAIL_STEP p) = k ∧ (t.port p).failed = (s.port p).failed + 1 ∧
      (t.port p).retryAt = some (s.now + if 8 ≤ (s.port p).failed + 1 then 60000000 else 1000) ∧ t.mem = s.mem := by
  obtain ⟨hd, hk⟩ := State.reads_trainFail hw p (k := k) (by omega)
  refine ⟨_, congrArg Host.Outcome.next (if_pos ⟨hp, hs, h1, h5⟩), hd.eq, hk.eq, ?_, ?_, (s.trainFail_spares p k).mem⟩
  · rw [s.port_trainFail]
  · rw [s.port_trainFail]

theorem trainingRetry_lights (k : Nat) (hl : s.lit p = true) (hd : s.portState p = PS.DOWN)
    (hr : (s.port p).retryAt = some k) (hk : k ≤ s.now) : Answers (.trainingRetry p) s fun t =>
      (t.port p).retryAt = none ∧ t.out = .light p 0xFF 0 :: s.out ∧ t = { s with ports := t.ports, out := t.out } := by
  refine ⟨_, congrArg Host.Outcome.next (if_pos (by simp [hl, hd, hr, hk])), ?_, rfl, rfl⟩
  rw [State.port_emit, State.port_setPort]

theorem ringLockTimeout_leaves_out (k : Nat) (hp : s.isPort p = true) (hs : s.portState p = PS.TRAINING) (hk : k < 8) :
    Answers (.ringLockTimeout p k) s fun t =>
      bitAt (t.port p).noLock k = true ∧ (∀ q, q ≠ p → t.port q = s.port q) ∧ t = { s with ports := t.ports } := by
  refine ⟨_, congrArg Host.Outcome.next (if_pos ⟨hp, hs, hk⟩), ?_, fun q hq => s.port_setPort_ne hq _, rfl⟩
  rw [State.port_setPort]
  exact bitAt_bitSet _ _

/-! ## A far end of another firmware major (R97) -/

/-- The wavelengths that work once a training has met every limit. -/
def State.workingWl (s : State) (p : Nat) (i : TrainInfo) : List Nat :=
  (bitList (i.wlOwn &&& i.far.wlGood &&& s.gridOf p i.far) 8).filter fun k => !bitAt (s.port p).noLock k

/-- A core port may use every wavelength (R96, R149). -/
theorem State.workingWl_core (hp : p < 144) (s : State) (i : TrainInfo) : s.workingWl p i =
    (bitList (i.wlOwn &&& i.far.wlGood &&& 0xFF) 8).filter fun k => !bitAt (s.port p).noLock k := by
  have h : s.gridOf p i.far = 0xFF := if_neg (by omega)
  rw [State.workingWl, h]

theorem widthOf_lt (n : Nat) : widthOf n < 16 := by
  unfold widthOf
  split
  · omega
  · split <;> omega

/-- Steps 3 and 4: the link's count of frames runs, the identity goes out, the width is known. -/
def State.linkCounted (s : State) (p : Nat) (i : TrainInfo) : State :=
  (((s.setPort p { s.port p with linkFrame := i.frames }).emit (.identity p (s.ownIdentity p i.wlOwn))).fset
    (R.OP_PORT_STATUS.WL_WORKING p) (bitMap (s.workingWl p i))).fset
    (R.OP_PORT_STATUS.WIDTH p) (widthOf (s.workingWl p i).length)

/-- Step 5: the far end is known and both ends' arrival times give the delay. -/
def State.farMet (s : State) (p : Nat) (i : TrainInfo) : State :=
  let s := (s.recordFar p i.far).aligned p i.arrival i.far.arrivalFull
  s.setPort p { s.port p with far := some i.far, failed := 0, retryAt := none }

/-- The state before step 6. -/
def State.linkMet (s : State) (p : Nat) (i : TrainInfo) : State := (s.linkCounted p i).farMet p i

theorem State.trainEnd_held (hp : p < 144) (hw : widthOf (s.workingWl p i).length ≠ 0) (hc : 3 ≤ i.copies) {b : Bool}
    (hh : (s.linkMet p i).holds p i.far = (b, true)) : s.trainEnd p i =
      (((s.linkMet p i).fsetb (R.OP_PORT_STATUS.PROTO_HOLD p) b).fsetb (R.OP_PORT_STATUS.VERSION_HOLD p) true).setLink p
        PS.MAINTENANCE := by
  have hn : p ≠ 160 := by omega
  unfold State.trainEnd
  extract_lets _ _ _ width _ v _ _ y _ z h
  have hv : v = s.linkCounted p i := rfl
  have hy : y = s.linkMet p i := congrArg (State.farMet · p i) hv
  have hz : z = s.linkMet p i := (if_neg hn).trans hy
  have e : h = (b, true) := by rw [← hh, ← hz]
  have hd : width ≠ 0 := hw
  rw [if_neg hd, if_neg (Nat.not_lt.2 hc), e, hz, if_pos (Bool.or_true b)]

/-! ### What the link's status then says -/

/-- A field of a port's status below those of the far end. -/
theorem beside_far {f : Fld} (hf : f.addr = R.OP_PORT_STATUS.addr p) (h : 24 ≤ f.lo) (hl : f.lo ≤ f.hi) (hh : f.hi < 64)
    (hg : g.addr ≠ R.OP_PORT_STATUS.addr p ∨ g.hi < 24) : f.Beside g :=
  ⟨hl, hh, hg.imp (fun k => hf ▸ k) fun k => .inl (by omega)⟩

theorem State.Reads.freeUsed (h : t.Reads g v) : t.freeUsed.Reads g v := h.congr rfl rfl

theorem State.Reads.aligned {a : Int} {n : Nat} (h : t.Reads g v) (hd : g.addr ≠ R.OP_DELAY.addr p) :
    (t.aligned p a n).Reads g v := (State.Reads.fset h.setPort ⟨by simp, by simp, .inl hd⟩).freeUsed

/-- What is met of the far end leaves the fields below its own, and other registers than the delay, as they are. -/
theorem State.Reads.farMet (h : t.Reads g v) (hg : g.addr ≠ R.OP_PORT_STATUS.addr p ∨ g.hi < 24)
    (hd : g.addr ≠ R.OP_DELAY.addr p) : (t.farMet p i).Reads g v := by
  have hb {f : Fld} (hf : f.addr = R.OP_PORT_STATUS.addr p) (h : 24 ≤ f.lo) (hl : f.lo ≤ f.hi) (hh : f.hi < 64) : f.Beside g :=
    beside_far hf h hl hh hg
  have hr : (t.recordFar p i.far).Reads g v :=
    ((((h.fset (hb rfl (by simp) (by simp) (by simp))).fset (hb rfl (by simp) (by simp) (by simp))).fset
      (hb rfl (by simp) (by simp) (by simp))).fset (hb rfl (by simp) (by simp) (by simp))).fset
      (hb rfl (by simp) (by simp) (by simp))
  exact (hr.aligned hd).setPort

theorem State.Reads.linkCounted (h : s.Reads g v) (hl : (R.OP_PORT_STATUS.WL_WORKING p).Beside g)
    (hw : (R.OP_PORT_STATUS.WIDTH p).Beside g) : (s.linkCounted p i).Reads g v :=
  ((State.Reads.emit h.setPort).fset hl).fset hw

theorem State.reads_linkMet_state (hw : s.regsWf = true) (hs : s.portState p = v) :
    (s.linkMet p i).Reads (R.OP_PORT_STATUS.STATE p) v := by
  have h : s.Reads (R.OP_PORT_STATUS.STATE p) v := ⟨hw, hs⟩
  exact (h.linkCounted (by simp [Fld.Beside]) (by simp [Fld.Beside])).farMet (.inr (by simp)) (by simp [R.OP_DELAY.addr])

theorem State.reads_linkMet_width (hw : s.regsWf = true) (p : Nat) (i : TrainInfo) :
    (s.linkMet p i).Reads (R.OP_PORT_STATUS.WIDTH p) (widthOf (s.workingWl p i).length) := by
  have h0 : s.Reads (R.OP_PORT_STATUS.STATE p) (s.portState p) := ⟨hw, rfl⟩
  have h : (s.linkCounted p i).Reads (R.OP_PORT_STATUS.WIDTH p) (widthOf (s.workingWl p i).length) :=
    .stored (State.regsWf_fset _ (State.Reads.emit h0.setPort).wf _ _) _ ⟨by simp, by simp, widthOf_lt _⟩
  exact h.farMet (.inr (by simp)) (by simp [R.OP_DELAY.addr])

/-- The firmware of the sled is told by none of the port's registers. -/
theorem State.reads_linkMet_major (hw : s.regsWf = true) (hp : p < 144) (i : TrainInfo) :
    (s.linkMet p i).Reads R.CP_FW.RUN_MAJOR (s.fget R.CP_FW.RUN_MAJOR) := by
  have ha (o : Nat) : R.CP_FW.RUN_MAJOR.addr ≠ opBase p + o := by
    rw [opBase_sled (by omega)]
    simp only [R.CP_FW.addr]
    omega
  have h : s.Reads R.CP_FW.RUN_MAJOR (s.fget R.CP_FW.RUN_MAJOR) := ⟨hw, rfl⟩
  exact (h.linkCounted ⟨by simp, by simp, .inl (ha 0)⟩ ⟨by simp, by simp, .inl (ha 0)⟩).farMet (.inl (ha 0)) (ha _)

theorem State.port_linkCounted (s : State) (p : Nat) (i : TrainInfo) :
    (s.linkCounted p i).port p = { s.port p with linkFrame := i.frames } := by
  rw [State.linkCounted, State.port_fset, State.port_fset, State.port_emit, State.port_setPort]

theorem State.port_farMet (s : State) (p : Nat) (i : TrainInfo) : (s.farMet p i).port p =
    { s.port p with arrivalExt := i.far.arrivalFull, far := some i.far, failed := 0, retryAt := none } := by
  rw [State.farMet, State.port_setPort, State.aligned, State.port_freeUsed, State.port_fset, State.port_setPort,
    State.recordFar, State.port_fset, State.port_fset, State.port_fset, State.port_fset, State.port_fset]

theorem State.port_linkMet (s : State) (p : Nat) (i : TrainInfo) : (s.linkMet p i).port p =
    { s.port p with linkFrame := i.frames, arrivalExt := i.far.arrivalFull, far := some i.far, failed := 0, retryAt := none } := by
  rw [State.linkMet, State.port_farMet, State.port_linkCounted]

theorem State.out_linkCounted (s : State) (p : Nat) (i : TrainInfo) :
    (s.linkCounted p i).out = .identity p (s.ownIdentity p i.wlOwn) :: s.out := by
  rw [State.linkCounted, State.fset_out, State.fset_out, State.emit_out, State.setPort_out]

theorem State.out_farMet (s : State) (p : Nat) (i : TrainInfo) : (s.farMet p i).out = s.out := by
  rw [State.farMet, State.setPort_out, State.aligned, State.freeUsed_out, State.fset_out, State.setPort_out,
    State.recordFar, State.fset_out, State.fset_out, State.fset_out, State.fset_out, State.fset_out]

theorem State.linkMet_only (s : State) (p : Nat) (i : TrainInfo) : s.LinkOnly (s.linkMet p i) := by
  have hc : s.LinkOnly (s.linkCounted p i) := (State.LinkOnly.rfl_ s).setPort.emit.fset.fset
  have hr : s.LinkOnly ((s.linkCounted p i).recordFar p i.far) := hc.fset.fset.fset.fset.fset
  exact (State.LinkOnly.freeUsed (State.LinkOnly.fset hr.setPort)).setPort

/-! ### The hold -/

/-- A sled of another firmware major is held where neither end overrides (R97). -/
theorem State.holds_linkMet (hw : s.regsWf = true) (hp : p < 144) (h5 : i.far.proto = 5) (hm : i.far.fwMajor ≠ s.ownMajor p)
    (ho : (s.port p).fwOver = false) (hf : i.far.fwOverride = false) : (s.linkMet p i).holds p i.far = (false, true) := by
  have e (u : State) : u.ownMajor p = u.fget R.CP_FW.RUN_MAJOR := if_pos (by omega)
  have hv : (i.far.fwMajor != (s.linkMet p i).ownMajor p) = true := by
    rw [e, (State.reads_linkMet_major hw hp i).eq, ← e]
    simpa using hm
  simp [State.holds, h5, hv, s.port_linkMet, ho, hf]

/-- The state in which such a link is held. -/
def State.versionHeld (s : State) (p : Nat) (i : TrainInfo) : State :=
  (((s.linkMet p i).fsetb (R.OP_PORT_STATUS.PROTO_HOLD p) false).fsetb (R.OP_PORT_STATUS.VERSION_HOLD p) true).fset
    (R.OP_PORT_STATUS.STATE p) PS.MAINTENANCE

theorem State.trainEnd_versionHeld (hw : s.regsWf = true) (hp : p < 144) (hs : s.portState p = PS.TRAINING) (hc : 3 ≤ i.copies)
    (hn : widthOf (s.workingWl p i).length ≠ 0) (hh : (s.linkMet p i).holds p i.far = (false, true)) :
    s.trainEnd p i = s.versionHeld p i := by
  have h := State.reads_linkMet_state (i := i) hw hs
  have hv := (h.fsetb (f := R.OP_PORT_STATUS.PROTO_HOLD p) (b := false) (by simp [Fld.Beside])).fsetb
    (f := R.OP_PORT_STATUS.VERSION_HOLD p) (b := true) (by simp [Fld.Beside])
  rw [State.trainEnd_held hp hn hc hh, State.setLink_of_not_up (fun hu => absurd (hv.eq.symm.trans hu) (by decide)) (by decide)]
  rfl

theorem State.reads_versionHeld (hw : s.regsWf = true) (p : Nat) (i : TrainInfo) :
    (s.versionHeld p i).Reads (R.OP_PORT_STATUS.STATE p) PS.MAINTENANCE ∧
      (s.versionHeld p i).Reads (R.OP_PORT_STATUS.VERSION_HOLD p) 1 ∧
      (s.versionHeld p i).Reads (R.OP_PORT_STATUS.PROTO_HOLD p) 0 ∧
      (s.versionHeld p i).Reads (R.OP_PORT_STATUS.WIDTH p) (widthOf (s.workingWl p i).length) := by
  have hd := State.reads_linkMet_width hw p i
  have hp := State.reads_fsetb hd.wf (f := R.OP_PORT_STATUS.PROTO_HOLD p) (by simp) (by simp) false
  have hv := State.reads_fsetb hp.wf (f := R.OP_PORT_STATUS.VERSION_HOLD p) (by simp) (by simp) true
  exact ⟨.stored hv.wf _ ⟨by simp, by simp, by simp [PS.MAINTENANCE]⟩, hv.fset (by simp [Fld.Beside]),
    (hp.fsetb (by simp [Fld.Beside])).fset (by simp [Fld.Beside]),
    ((hd.fsetb (by simp [Fld.Beside])).fsetb (by simp [Fld.Beside])).fset (by simp [Fld.Beside])⟩

theorem State.versionHeld_only (s : State) (p : Nat) (i : TrainInfo) : s.LinkOnly (s.versionHeld p i) :=
  (s.linkMet_only p i).fsetb.fsetb.fset

theorem State.port_versionHeld (s : State) (p : Nat) (i : TrainInfo) : (s.versionHeld p i).port p = (s.linkMet p i).port p := by
  rw [State.versionHeld, State.port_fset, State.port_fsetb, State.port_fsetb]

theorem State.out_versionHeld (s : State) (p : Nat) (i : TrainInfo) :
    (s.versionHeld p i).out = .identity p (s.ownIdentity p i.wlOwn) :: s.out := by
  rw [State.versionHeld, State.fset_out, State.fsetb_out, State.fsetb_out, State.linkMet, State.out_farMet, State.out_linkCounted]

theorem trainingStart_holds_version (hw : s.regsWf = true) (i : TrainInfo) (hi : s.isPort p = true) (hp : p < 144)
    (hs : s.portState p = PS.TRAINING) (h5 : i.far.proto = 5) (hc : 3 ≤ i.copies)
    (hn : widthOf ((bitList (i.wlOwn &&& i.far.wlGood &&& 0xFF) 8).filter fun k => !bitAt (s.port p).noLock k).length ≠ 0)
    (hm : i.far.fwMajor ≠ s.ownMajor p) (ho : (s.port p).fwOver = false) (hf : i.far.fwOverride = false) :
    Answers (.trainingStart p (some i)) s fun t => t.portState p = PS.MAINTENANCE ∧
      t.fget (R.OP_PORT_STATUS.VERSION_HOLD p) = 1 ∧ t.fget (R.OP_PORT_STATUS.PROTO_HOLD p) = 0 ∧
      t.fget (R.OP_PORT_STATUS.WIDTH p) = widthOf ((bitList (i.wlOwn &&& i.far.wlGood &&& 0xFF) 8).filter fun k =>
        !bitAt (s.port p).noLock k).length ∧
      (t.port p).far = some i.far ∧ (t.port p).linkFrame = i.frames ∧ (t.port p).arrivalExt = i.far.arrivalFull ∧
      t.out = .identity p (s.ownIdentity p i.wlOwn) :: s.out ∧
      t = { s with regs := t.regs, ports := t.ports, out := t.out, free := t.free } := by
  have hl := State.workingWl_core hp s i
  have e : exec (.trainingStart p (some i)) s = .next (s.versionHeld p i) :=
    congrArg Host.Outcome.next ((if_pos (by simp [hi, hs])).trans
      (State.trainEnd_versionHeld hw hp hs hc (by rw [hl]; exact hn) (State.holds_linkMet hw hp h5 hm ho hf)))
  obtain ⟨rs, rv, rp, rd⟩ := State.reads_versionHeld hw p i
  rw [hl] at rd
  refine ⟨_, e, rs.eq, rv.eq, rp.eq, rd.eq, ?_, ?_, ?_, s.out_versionHeld p i, s.versionHeld_only p i⟩
  · rw [s.port_versionHeld, s.port_linkMet]
  · rw [s.port_versionHeld, s.port_linkMet]
  · rw [s.port_versionHeld, s.port_linkMet]

/-- Settles O8: the start, the failure of a step, the retry and the ring that does not lock by one update each; the end that is
held by carrying the port's status through the steps that store it. -/
theorem trainingSteps : Obligations.TrainingSteps :=
  fun _ _ hw => ⟨trainingStart_begins hw, trainingStart_holds_version hw, trainingStepTimeout_fails hw, trainingRetry_lights,
    ringLockTimeout_leaves_out⟩

end Sys2Proof.Machine
end

/-! # Cells that cross the core -/
section
namespace Sys2Proof.Machine

open Sys2Proof.Laws

variable {s : State} {x m k p : Nat} {c : Cell}

/-! ## The first stage (R105, R111) -/

/-- Of a pool that holds no steered cell none is steered to m. -/
theorem steeredHead_none {l : List Queued} (hs : ∀ y ∈ l, y.steer = none) (m : Nat) : steeredHead m l = none := by
  have h : l.filter (fun y => y.steer == some m) = [] := List.filter_eq_nil_iff.2 fun y hy => by simp [hs y hy]
  rw [steeredHead, steeredQueue, h]
  rfl

/-- A guaranteed cell may leave its pool for an intermediate with room once it was admitted in an earlier FCLK. -/
theorem State.canGo_g {q : Queued} {now : Nat} (hc : q.cell.cls = clsG) (ha : q.at_ < now) (hr : s.midRoom m q = true) :
    s.canGo m now q = true := by
  simp [State.canGo, hc, ha, hr]

/-- The head of a guaranteed pool without steered cells goes when no control cell waits. -/
theorem State.pickFirst_head {q : Queued} {l : List Queued} {now : Nat} (hc : kgetD s.sw.inCtl x [] = [])
    (hg : kgetD s.sw.inG x [] = q :: l) (hs : ∀ y ∈ q :: l, y.steer = none) (hq : s.canGo m now q = true) :
    s.pickFirst x m now = some (0, q) := by
  have hh := steeredHead_none hs m
  have hf : (q :: l).find? (fun y => y.steer.isNone && s.canGo m now y) = some q := by
    simp [hs q List.mem_cons_self, hq]
  simp [State.pickFirst, hc, hg, hh, hf]

/-- A guaranteed unicast cell waits at the intermediate for its output. -/
theorem State.arriveMid_g {q : Queued} {n : Nat} (hs : q.steer = none) (ht : q.cell.typ ≠ T.BCAST) (hc : q.cell.cls = clsG)
    (hu : s.posUp q.outPos = true) : s.arriveMid m x q n =
      s.setSw { s.sw with midG := kupd s.sw.midG m [] (· ++ [{ cell := q.cell, outPos := q.outPos, at_ := n }]) } := by
  simp [State.arriveMid, hs, ht, hu, hc, clsG, clsBE]

/-- The head of a guaranteed pool goes to the intermediate that the slot connects. -/
theorem firstStageSend_head {q : Queued} {l : List Queued} (hx : x < 160) (hk : k < 1600) (hc : kgetD s.sw.inCtl x [] = [])
    (hg : kgetD s.sw.inG x [] = q :: l) (hs : ∀ y ∈ q :: l, y.steer = none) (ht : q.cell.typ ≠ T.BCAST) (hG : q.cell.cls = clsG)
    (ha : q.at_ < s.now * 1600 + k) (hr : s.midRoom ((x + k) % 160) q = true) (hu : s.posUp q.outPos = true) :
    Answers (.firstStageSend x k) s fun t => kgetD t.sw.inG x [] = l ∧
      kgetD t.sw.midG ((x + k) % 160) [] = kgetD s.sw.midG ((x + k) % 160) [] ++
        [{ cell := q.cell, outPos := q.outPos, at_ := s.now * 1600 + k + 2 }] ∧
      t = { s with sw := { s.sw with inG := t.sw.inG, midG := t.sw.midG } } := by
  let u := s.setSw { s.sw with inG := kupd s.sw.inG x [] (removeQ q) }
  have hp : s.pickFirst x ((x + k) % 160) (s.fclk k) = some (0, q) := State.pickFirst_head hc hg hs (State.canGo_g hG ha hr)
  have e : s.firstStage x k = u.arriveMid ((x + k) % 160) x q (s.fclk k + 2) := by
    simp only [State.firstStage, hp]
    rfl
  have eu : u.arriveMid ((x + k) % 160) x q (s.fclk k + 2) = _ :=
    State.arriveMid_g (hs q List.mem_cons_self) ht hG (show u.posUp q.outPos = true from hu)
  refine ⟨_, congrArg Host.Outcome.next ((if_pos ⟨hx, hk⟩).trans (e.trans eu)), ?_, kgetD_kset_self _ _ _ _, rfl⟩
  exact (kgetD_kset_self _ _ _ _).trans (by simp [hg, removeQ])

/-! ## The second stage (R114) -/

/-- The head of a guaranteed unicast queue is the candidate for its output when no copy waits. -/
theorem oldestCand_head {c : MidCell} {l : List MidCell} {o now : Nat} (ho : c.outPos = o) (ha : c.at_ ≤ now)
    (hc : c.cell.cls = clsG) : oldestCand (c :: l) [] o now = some (.uni c) := by
  simp [oldestCand, findIdx, Option.filter, ho, ha, hc]

theorem State.backsOff_port (hp : p < 144) (s : State) (c : Cell) : s.backsOff p c = false := by
  have h : ¬144 ≤ p := by omega
  simp [State.backsOff, h]

theorem State.outRoom_g {cls : Nat} (hc : cls = clsG) (h : (kgetD s.sw.outG p []).length < 128) : s.outRoom p cls = true := by
  simp [State.outRoom, hc, clsG, clsBE, h]

/-- An item of one guaranteed cell joins an output's queue and is counted. -/
theorem State.queueItem_g (hc : c.cls = clsG) (s : State) (p n : Nat) : ∃ regs al, s.queueItem p c false n =
    { s with regs := regs, al := al, sw := { s.sw with
        outG := kupd s.sw.outG p [] (· ++ [{ id := s.sw.nextItem, cells := [c], at_ := n }]), nextItem := s.sw.nextItem + 1 } } := by
  obtain ⟨regs, al, e⟩ := State.Counts.setSw (x := p) (.rfl_ s) fun y => { y with
    outG := kupd y.outG p [] (· ++ [{ id := y.nextItem, cells := [c], at_ := n }]), nextItem := y.nextItem + 1 }
  refine ⟨regs, al, Eq.trans ?_ e⟩
  simp [State.queueItem, hc, clsG, clsBE]

/-- A unicast cell that leaves for a port is queued there. -/
theorem State.sendCand_port {c : MidCell} (hp : p < 144) : s.sendCand m p false (.uni c) k =
    (s.takeCand m p false (.uni c)).queueItem p c.cell false (s.fclk k + 2) := by
  have hn : ¬144 ≤ p := by omega
  simp [State.sendCand, State.copyDropped, Cand.cell, State.backsOff_port hp, State.arriveOut, hn]

/-- The head of a guaranteed queue goes to the output that the slot connects. -/
theorem secondStageSend_head {c : MidCell} {l : List MidCell} (hm : m < 160) (hk : k < 1600) (ho : (m + k) % 160 < 144)
    (hq : kgetD s.sw.midG m [] = c :: l) (hmc : kgetD s.sw.mcG m [] = []) (hp : c.outPos = (m + k) % 160)
    (ha : c.at_ ≤ s.now * 1600 + k) (hG : c.cell.cls = clsG) (hr : (kgetD s.sw.outG c.outPos []).length < 128) :
    Answers (.secondStageSend m k) s fun t => kgetD t.sw.midG m [] = l ∧
      kgetD t.sw.outG c.outPos [] = kgetD s.sw.outG c.outPos [] ++
        [{ id := s.sw.nextItem, cells := [c.cell], at_ := s.now * 1600 + k + 2 }] ∧
      t = { s with regs := t.regs, al := t.al
                   sw := { s.sw with midG := t.sw.midG, outG := t.sw.outG, nextItem := s.sw.nextItem + 1 } } := by
  rw [← hp] at ho
  have hc : oldestCand (c :: l) [] c.outPos (s.fclk k) = some (.uni c) := oldestCand_head rfl ha hG
  have hgo : s.candGoes c.outPos (.uni c) = true := by
    simp [State.candGoes, Cand.cell, State.outRoom_g hG hr]
  obtain ⟨regs, al, e⟩ := State.queueItem_g hG (s.takeCand m c.outPos false (.uni c)) c.outPos (s.fclk k + 2)
  have hs : s.secondStage m k = s.sendCand m c.outPos false (.uni c) k := by
    simp [State.secondStage, ← hp, hq, hmc, hc, hgo, Option.filter]
  refine ⟨_, congrArg Host.Outcome.next ((if_pos ⟨hm, hk⟩).trans (hs.trans ((State.sendCand_port ho).trans e))), ?_,
    kgetD_kset_self _ _ _ _, rfl⟩
  exact (kgetD_kset_self _ _ _ _).trans (by simp [hq, removeM])

/-! ## Leaving the outputs (R118, R125) -/

/-- Dropping an item from a queue in which no other has its id. -/
theorem dropItem_of_ne {n : Nat} {l : List OutItem} (h : ∀ j ∈ l, j.id ≠ n) : dropItem n l = l :=
  List.filter_eq_self.2 fun j hj => by simp [h j hj]

theorem dropItem_head {i : OutItem} {l : List OutItem} (h : ∀ j ∈ l, j.id ≠ i.id) : dropItem i.id (i :: l) = l := by
  rw [dropItem, List.filter_cons_of_neg (by simp)]
  exact dropItem_of_ne h

/-- The cells that leave are counted, and nothing else changes. -/
theorem State.countOut_counts (s : State) (p : Nat) (i : OutItem) : s.Counts (s.countOut p i) :=
  State.forEach_keeps (P := s.Counts) (fun _ _ h => h.tmCount.almAdd) _ s (.rfl_ s)

/-- An output without answers of the sled's own, whose slot is free, sends what it holds. -/
theorem State.outSend_items (ha : kgetD s.sw.answers p [] = []) (hs : s.sent p k = false) (ho : slotOpen (s.mapWidth p) k = true)
    (hy : p < 144 → s.steady p = true) (hc : s.carries p = true) {i : OutItem} (hi : s.nextItem p = some i)
    (hb : i.cells.all (·.cls == clsBE) = false) : s.outSend p k = s.sendItem p k i := by
  have hd : s.drainAnswers p k = s := by simp [State.drainAnswers, ha]
  have hn : (s.sent p k || !slotOpen (s.mapWidth p) k || (decide (p < 144) && !s.steady p)) = false := by
    by_cases h : p < 144
    · simp [hs, ho, hy h]
    · simp [hs, ho, h]
  rw [State.outSend, hd, hn, hc, hi]
  cases s.linkCell p with
  | none => rfl
  | some c => simp [hb]

/-- The head of a port's guaranteed queue is what it sends next. -/
theorem State.nextItem_port (hp : p < 144) {i : OutItem} {l : List OutItem} (hq : kgetD s.sw.outG p [] = i :: l)
    (hi : i.cells = [c]) (hc : c.cls = clsG) : s.nextItem p = some i := by
  simp [State.nextItem, Option.filter, hp, hq, hi, hc]

/-- The head of a hub's guaranteed queue is what it sends next, when R125 lets it leave. -/
theorem State.nextItem_hub {h : Nat} {i : OutItem} {l : List OutItem} (hq : kgetD s.sw.outG (144 + h) [] = i :: l)
    (hi : i.cells = [c]) (hc : c.cls = clsG) (hl : s.mayLeave h i = true) : s.nextItem (144 + h) = some i := by
  simp [State.nextItem, hq, hi, hc, hl]

/-- A slot that was used has carried a cell. -/
theorem State.sent_useOut (s : State) (p k : Nat) : (s.useOut p k).sent p k = true := by
  rw [State.sent, State.useOut_sw, kupd, kgetD_kset_self]
  exact bitAt_bitSet _ _

/-- A guaranteed cell at the head of a port's queue leaves in a free slot. -/
theorem outputSend_port {i : OutItem} {l : List OutItem} (hp : p < 144) (hk : k < 1600) (hc : s.carries p = true)
    (hy : s.steady p = true) (hs : s.sent p k = false) (ho : slotOpen (s.mapWidth p) k = true)
    (ha : kgetD s.sw.answers p [] = []) (hq : kgetD s.sw.outG p [] = i :: l) (hi : i.cells = [c]) (hG : c.cls = clsG)
    (hl : ∀ j ∈ l, j.id ≠ i.id) (hb : ∀ j ∈ kgetD s.sw.outBe p [], j.id ≠ i.id) :
    Answers (.outputSend p k) s fun t => kgetD t.sw.outG p [] = l ∧ kgetD t.sw.outBe p [] = kgetD s.sw.outBe p [] ∧
      t.out = .cell p k c :: s.out ∧ t.sent p k = true ∧
      t = { s with regs := t.regs, al := t.al, out := t.out
                   sw := { s.sw with outG := t.sw.outG, outBe := t.sw.outBe, usedOut := t.sw.usedOut } } := by
  have hp' : ¬144 ≤ p := by omega
  have e : s.outSend p k = s.sendItem p k i :=
    State.outSend_items ha hs ho (fun _ => hy) hc (State.nextItem_port hp hq hi hG) (by simp [hi, hG, clsG, clsBE])
  obtain ⟨regs, al, ec⟩ := State.countOut_counts ((s.useOut p k).unqueue p i.id) p i
  have es : s.sendItem p k i = (((s.useOut p k).unqueue p i.id).countOut p i).emit (.cell p k c) := by
    simp [State.sendItem, hp', hi, State.forEach]
  rw [ec] at es
  refine ⟨_, congrArg Host.Outcome.next ((if_pos ⟨by omega, hk⟩).trans (e.trans es)), ?_, ?_, rfl, s.sent_useOut p k, rfl⟩
  · exact (kgetD_kset_self _ _ _ _).trans (by simp [hq, dropItem_head hl])
  · exact (kgetD_kset_self _ _ _ _).trans (by simp [dropItem_of_ne hb])

/-- A single item of a READ, WRITE or ATOMIC belongs to the cell's line. -/
theorem itemLine_single {i : OutItem} (hi : i.cells = [c]) (ht : c.typ = T.READ ∨ c.typ = T.WRITE ∨ c.typ = T.ATOMIC) :
    itemLine i = some c.line := by
  simp [itemLine, hi, ht]

/-- A single item of a READ, WRITE or ATOMIC leaves its queue for the hub end-point, where its line is busy. -/
theorem State.handItem_single {i : OutItem} (hi : i.cells = [c]) (he : i.entry = false)
    (ht : c.typ = T.READ ∨ c.typ = T.WRITE ∨ c.typ = T.ATOMIC) (s : State) (h k : Nat) : ∃ regs al, s.handItem h k i =
    { s with regs := regs, al := al, out := .cell (144 + h) k c :: s.out
             sw := { (s.unqueue (144 + h) i.id).sw with handed := kupd s.sw.handed h [] (· ++ [i]) } } := by
  obtain ⟨regs, al, e⟩ := State.countOut_counts (s.unqueue (144 + h) i.id) (144 + h) i
  refine ⟨regs, al, ?_⟩
  simp only [State.handItem, he, e, hi, itemLine_single hi ht, Option.isSome_some]
  rfl

/-- A guaranteed cell at the head of a hub's queue is handed over, and its line is busy. -/
theorem entryHandover_hub {h : Nat} {i : OutItem} {l : List OutItem} (hh : h < 16) (hk : k < 1600)
    (hc : s.carries (144 + h) = true) (hs : s.sent (144 + h) k = false) (ho : slotOpen (s.mapWidth (144 + h)) k = true)
    (ha : kgetD s.sw.answers (144 + h) [] = []) (hq : kgetD s.sw.outG (144 + h) [] = i :: l) (hi : i.cells = [c])
    (he : i.entry = false) (hG : c.cls = clsG) (ht : c.typ = T.READ ∨ c.typ = T.WRITE ∨ c.typ = T.ATOMIC)
    (hm : s.mayLeave h i = true) (hl : ∀ j ∈ l, j.id ≠ i.id) :
    Answers (.entryHandover h k) s fun t => kgetD t.sw.outG (144 + h) [] = l ∧ t.out = .cell (144 + h) k c :: s.out ∧
      kgetD t.sw.handed h [] = kgetD s.sw.handed h [] ++ [i] ∧ t.mem = s.mem := by
  have e : s.outSend (144 + h) k = s.sendItem (144 + h) k i :=
    State.outSend_items ha hs ho (fun h' => by omega) hc (State.nextItem_hub hq hi hG hm) (by simp [hi, hG, clsG, clsBE])
  obtain ⟨regs, al, es⟩ := State.handItem_single hi he ht (s.useOut (144 + h) k) h k
  have eh : s.sendItem (144 + h) k i = (s.useOut (144 + h) k).handItem h k i := by simp [State.sendItem]
  refine ⟨_, congrArg Host.Outcome.next ((if_pos ⟨hh, hk⟩).trans (e.trans (eh.trans es))), ?_, rfl,
    kgetD_kset_self _ _ _ _, rfl⟩
  exact (kgetD_kset_self _ _ _ _).trans (by simp [hq, dropItem_head hl])

/-- Settles O5: a guaranteed unicast cell goes from its input to an intermediate, from there to its output, and from the output
to the port or the hub. -/
theorem cellsCrossTheCore : Obligations.CellsCrossTheCore := by
  refine ⟨fun s x k q l hx hk hc hg hs hl ht hG ha hr hu => ?_, fun s m k c l hm hk ho hq hmc hp ha hG hr => ?_,
    fun s p k i c l hp hk hc hy hs ho ha hq hi hG hl hb => ?_,
    fun s h k i c l hh hk hc hs ho ha hq hi he hG ht hm hl => ?_⟩
  · exact firstStageSend_head hx hk hc hg (List.forall_mem_cons.2 ⟨hs, hl⟩) ht hG ha hr hu
  · exact secondStageSend_head hm hk ho hq hmc hp ha hG hr
  · exact outputSend_port hp hk hc hy hs ho ha hq hi hG hl hb
  · exact entryHandover_hub hh hk hc hs ho ha hq hi he hG ht hm hl

end Sys2Proof.Machine
end

/-! # Lines and bytes of a hub's memory -/
section
namespace Sys2Proof.Machine

open Sys2Proof.Laws

variable {s t u : State} {h : Nat}

/-! ## Bytes of a line -/

theorem leBytes_mod (v n : Nat) : leBytes (v % 256 ^ n) n = leBytes v n := by
  induction n generalizing v with
  | zero => rfl
  | succ n ih =>
    have hb : BitVec.ofNat 8 (v % 256 ^ (n + 1)) = BitVec.ofNat 8 v := by
      apply BitVec.eq_of_toNat_eq
      rw [BitVec.toNat_ofNat, BitVec.toNat_ofNat, pow_succ']
      exact Nat.mod_mul_right_mod v 256 (256 ^ n)
    rw [leBytes, leBytes, hb, pow_succ', Nat.mod_mul_right_div_self, ih]

theorem leBytes_leNat (l : List Byte) (n : Nat) : leBytes (leNat l) n = bytesAt l 0 n := by
  induction n generalizing l with
  | zero => simp [leBytes, bytesAt]
  | succ n ih =>
    cases l with
    | nil => rw [leNat, leBytes_zero]; simp [bytesAt]
    | cons b l =>
      have hb : BitVec.ofNat 8 (b.toNat + 256 * leNat l) = b := by
        apply BitVec.eq_of_toNat_eq
        rw [BitVec.toNat_ofNat, Nat.add_mul_mod_self_left, Nat.mod_eq_of_lt b.isLt]
      have hl : (b.toNat + 256 * leNat l) / 256 = leNat l := by
        rw [Nat.add_mul_div_left _ _ (by decide), Nat.div_eq_of_lt b.isLt, Nat.zero_add]
      rw [leNat, leBytes, hb, hl, ih]
      simp [bytesAt]

theorem leBytes_ofNat {w n : Nat} (hw : w = 8 * n) (v : Nat) : leBytes (BitVec.ofNat w v).toNat n = leBytes v n := by
  subst hw
  rw [BitVec.toNat_ofNat, pow_mul]
  exact leBytes_mod v n

theorem ofNat_leNat_leBytes {w n : Nat} (hw : w = 8 * n) (d : BitVec w) : BitVec.ofNat w (leNat (leBytes d.toNat n)) = d := by
  subst hw
  have hd : d.toNat < 256 ^ n := by simpa [pow_mul] using d.isLt
  rw [leNat_leBytes, Nat.mod_eq_of_lt hd, BitVec.ofNat_toNat, BitVec.setWidth_eq]

/-- A line made of bytes holds the first 64 of them. -/
theorem lineBytes_lineOf (l : List Byte) : lineBytes (lineOf l) = bytesAt l 0 64 :=
  (leBytes_ofNat (w := 512) (n := 64) (by decide) (leNat l)).trans (leBytes_leNat l 64)

theorem lineOf_lineBytes (d : BitVec 512) : lineOf (lineBytes d) = d := ofNat_leNat_leBytes (n := 64) (by decide) d

@[simp] theorem length_lineBytes (d : BitVec 512) : (lineBytes d).length = 64 := length_leBytes _ _

theorem getD_leBytes {i n : Nat} (hi : i < n) (v : Nat) : (leBytes v n).getD i 0 = BitVec.ofNat 8 (v / 256 ^ i) := by
  induction n generalizing v i with
  | zero => omega
  | succ n ih =>
    cases i with
    | zero => simp [leBytes]
    | succ i => rw [leBytes, List.getD_cons_succ, ih (by omega), Nat.div_div_eq_div_mul, pow_succ']

theorem getD_lineBytes (d : BitVec 512) {i : Nat} (hi : i < 64) : (lineBytes d).getD i 0 = lineByte d i := by
  rw [lineBytes, getD_leBytes hi, lineByte, pow_mul]
  rfl

theorem getD_bytesAt (l : List Byte) (o : Nat) {i n : Nat} (hi : i < n) : (bytesAt l o n).getD i 0 = l.getD (o + i) 0 := by
  by_cases hl : o + i < l.length
  · have ht : i < ((l.drop o).take n).length := by
      rw [List.length_take, List.length_drop]
      omega
    rw [bytesAt, List.getD_eq_getElem?_getD, List.getElem?_append_left ht, List.getElem?_take_of_lt hi, List.getElem?_drop,
      List.getD_eq_getElem?_getD]
  · have ht : ((l.drop o).take n).length ≤ i := by
      rw [List.length_take, List.length_drop]
      omega
    simp only [bytesAt, List.getD_eq_getElem?_getD, List.getElem?_append_right ht, List.getElem?_replicate,
      List.getElem?_eq_none (not_lt.1 hl)]
    split <;> rfl

theorem lineByte_lineOf (l : List Byte) {i : Nat} (hi : i < 64) : lineByte (lineOf l) i = l.getD i 0 := by
  rw [← getD_lineBytes _ hi, lineBytes_lineOf, getD_bytesAt _ _ hi, Nat.zero_add]

/-- A byte of a merged line is the new one where the mask has its bit. -/
theorem lineByte_mergeLine (old new : BitVec 512) (mask : Nat) {i : Nat} (hi : i < 64) :
    lineByte (mergeLine old new mask) i = if bitAt mask i then lineByte new i else lineByte old i := by
  rw [mergeLine, lineByte_lineOf _ hi]
  simp [hi]

theorem bitAt_lineMask (o n i : Nat) : bitAt (lineMask o n) i = decide (o ≤ i ∧ i < o + n) := by
  have hb (v : Nat) : bitAt v i = v.testBit i := by rw [Nat.testBit_eq_decide_div_mod_eq, bitAt, Bool.beq_eq_decide_eq]
  rw [hb, lineMask, Nat.testBit_mul_two_pow, Nat.testBit_two_pow_sub_one]
  by_cases ho : o ≤ i
  · simp [ho]
    omega
  · simp [ho]

/-! ## Memory -/

@[simp] theorem Memory.length_read (m : Memory) (a n : Nat) : (Memory.read m a n).length = n := by
  induction n generalizing a with
  | zero => rfl
  | succ n ih => rw [Memory.read, List.length_cons, ih]

theorem Memory.getD_read (m : Memory) (a : Nat) {i n : Nat} (hi : i < n) : (Memory.read m a n).getD i 0 = Memory.get m (a + i) := by
  induction n generalizing a i with
  | zero => omega
  | succ n ih =>
    cases i with
    | zero => rfl
    | succ i => rw [Memory.read, List.getD_cons_succ, ih _ (by omega), Nat.add_right_comm, Nat.add_assoc]

/-- A memory that holds bytes at their addresses reads as they are. -/
theorem Memory.read_eq {m : Memory} {a : Nat} {b : List Byte} (hb : ∀ i, i < b.length → Memory.get m (a + i) = b.getD i 0) :
    Memory.read m a b.length = b := by
  induction b generalizing a with
  | nil => rfl
  | cons x b ih =>
    have h0 : Memory.get m a = x := hb 0 (Nat.succ_pos _)
    rw [List.length_cons, Memory.read, h0, ih fun i hi => ?_]
    rw [Nat.add_right_comm, Nat.add_assoc, hb (i + 1) (Nat.succ_lt_succ hi), List.getD_cons_succ]

/-- Memory n is m with bytes stored from address a on, in its canonical form. -/
structure Memory.Puts (m n : Memory) (a : Nat) (b : List Byte) : Prop where
  wf : Memory.wf n = true
  get : ∀ c, Memory.get n c = if a ≤ c ∧ c < a + b.length then b.getD (c - a) 0 else Memory.get m c

theorem Memory.Puts.write {m : Memory} (hw : Memory.wf m = true) (a : Nat) (b : List Byte) : m.Puts (Memory.write m a b) a b where
  wf := Memory.wf_write hw a b
  get c := by
    split
    · rename_i hc
      exact Memory.get_write_mem hw a b hc.1 hc.2
    · exact Memory.get_write_apart m a b (by omega)

variable {m n : Memory} {a c k : Nat} {b : List Byte}

/-- The bytes that were stored are read. -/
theorem Memory.Puts.read (hp : m.Puts n a b) : Memory.read n a b.length = b :=
  Memory.read_eq fun i hi => by rw [hp.get, if_pos (by omega), Nat.add_sub_cancel_left]

theorem Memory.Puts.get_apart (hp : m.Puts n a b) (hc : c < a ∨ a + b.length ≤ c) : Memory.get n c = Memory.get m c := by
  rw [hp.get, if_neg (by omega)]

/-- Bytes apart from those stored read as before. -/
theorem Memory.Puts.read_apart (hp : m.Puts n a b) (hc : c + k ≤ a ∨ a + b.length ≤ c) :
    Memory.read n c k = Memory.read m c k := by
  have e : Memory.read n c (Memory.read m c k).length = Memory.read m c k := Memory.read_eq fun i hi => by
    rw [Memory.length_read] at hi
    rw [Memory.getD_read m c hi, hp.get_apart (by omega)]
  rwa [Memory.length_read] at e

/-! ## Lines written (R303, R311) -/

/-- From s to t only hub memory and poison marks changed: no mirror window of hub h came into use or left it. -/
structure State.HubOnly (s t : State) (h : Nat) : Prop where
  frame : t = { s with mem := t.mem, hubs := t.hubs }
  live : ∀ w, t.winLive h w = s.winLive h w

theorem State.HubOnly.rfl_ (s : State) (h : Nat) : s.HubOnly s h := ⟨rfl, fun _ => rfl⟩

theorem State.HubOnly.trans (k : s.HubOnly t h) (l : t.HubOnly u h) : s.HubOnly u h :=
  ⟨l.frame.trans (by rw [k.frame]), fun w => (l.live w).trans (k.live w)⟩

theorem State.HubOnly.hubWrite (s : State) (h o : Nat) (b : List Byte) : s.HubOnly (s.hubWrite h o b) h :=
  ⟨rfl, fun _ => rfl⟩

theorem State.HubOnly.clearPoison (s : State) (h o : Nat) : s.HubOnly (s.clearPoison h o) h :=
  ⟨rfl, fun w => by
    have hc : ((s.clearPoison h o).hub h).cutWins = (s.hub h).cutWins := by simp [State.clearPoison]
    rw [State.winLive, hc]
    rfl⟩

theorem State.HubOnly.forEach {α : Type} {f : State → α → State} (hf : ∀ (s : State) a, s.HubOnly (f s a) h) (l : List α)
    (s : State) : s.HubOnly (s.forEach l f) h :=
  State.forEach_keeps (P := fun t => s.HubOnly t h) (fun t a k => k.trans (hf t a)) l s (.rfl_ s h)

theorem State.HubOnly.markDirty (s : State) (h o : Nat) : s.HubOnly (s.markDirty h o) h :=
  .forEach (fun s i => by
    dsimp only
    split
    · exact .hubWrite s h _ _
    · exact .rfl_ s h) _ s

/-- A line written without a fault found. -/
theorem State.HubOnly.lineWrite (s : State) (h o : Nat) (d : BitVec 512) (mask : Nat) :
    s.HubOnly (s.lineWrite h o d mask .clean) h := by
  dsimp only [State.lineWrite]
  split
  · exact ((State.HubOnly.clearPoison s h _).trans (.hubWrite _ h _ _)).trans (.markDirty _ h _)
  · exact (State.HubOnly.hubWrite s h _ _).trans (.markDirty _ h _)

/-- No mirror window of hub h is in use. -/
def State.unmirrored (s : State) (h : Nat) : Prop := ∀ w, w < 16 → s.winLive h w = false

theorem State.HubOnly.unmirrored (k : s.HubOnly t h) (hi : s.unmirrored h) : t.unmirrored h :=
  fun w hw => (k.live w).trans (hi w hw)

theorem State.markDirty_unmirrored (hi : s.unmirrored h) (o : Nat) : s.markDirty h o = s := by
  have e : (List.range 16).filter (fun i => s.winLive h i) = [] :=
    List.filter_eq_nil_iff.2 fun i hi' => by simp [hi i (List.mem_range.1 hi')]
  rw [State.markDirty, e]
  rfl

/-- The line at an offset once the masked bytes are written. -/
def State.written (s : State) (h o : Nat) (d : BitVec 512) (mask : Nat) : BitVec 512 :=
  if mask = 2 ^ 64 - 1 then d else mergeLine (s.hubLine h o) d mask

/-- Without mirror windows a write changes the bytes of its line alone. -/
theorem State.puts_lineWrite (hw : Memory.wf s.mem = true) (hi : s.unmirrored h) (o : Nat) (d : BitVec 512) (mask : Nat) :
    s.mem.Puts (s.lineWrite h o d mask .clean).mem (hubAddr h (o / 64 * 64)) (lineBytes (s.written h o d mask)) := by
  have hl : s.hubLine h (o / 64 * 64) = s.hubLine h o := by rw [State.hubLine, State.hubLine, Nat.mul_div_cancel _ (by decide)]
  dsimp only [State.lineWrite, State.written]
  split
  · have k := (State.HubOnly.clearPoison s h (o / 64 * 64)).trans (.hubWrite _ h (o / 64 * 64) (lineBytes d))
    rw [State.markDirty_unmirrored (k.unmirrored hi)]
    exact .write hw _ _
  · have k := State.HubOnly.hubWrite s h (o / 64 * 64) (lineBytes (mergeLine (s.hubLine h (o / 64 * 64)) d mask))
    rw [← hl]
    exact (congrArg (fun u : State => s.mem.Puts u.mem _ _) (State.markDirty_unmirrored (k.unmirrored hi) _)).mpr (.write hw _ _)

/-- Each byte of the line that was written is the new one where the mask has its bit. -/
theorem State.lineByte_written (s : State) (h o : Nat) (d : BitVec 512) {p q i : Nat} (hi : i < 64) :
    lineByte (s.written h o d (lineMask p q)) i =
      if p ≤ i ∧ i < p + q then lineByte d i else Memory.get s.mem (hubAddr h (o / 64 * 64) + i) := by
  have ho : lineByte (s.hubLine h o) i = Memory.get s.mem (hubAddr h (o / 64 * 64) + i) := by
    rw [State.hubLine, lineByte_lineOf _ hi, State.hubRead, Memory.getD_read _ _ hi]
  have hb : lineByte (mergeLine (s.hubLine h o) d (lineMask p q)) i = _ := lineByte_mergeLine _ _ _ hi
  rw [bitAt_lineMask, ho] at hb
  by_cases hm : lineMask p q = 2 ^ 64 - 1
  · have hin : p ≤ i ∧ i < p + q := by
      have := bitAt_lineMask p q i
      rw [hm, show (2 ^ 64 - 1 : Nat) = lineMask 0 64 by decide, bitAt_lineMask] at this
      simpa [hi] using this.symm
    rw [State.written, if_pos hm, if_pos hin]
  · rw [State.written, if_neg hm, hb]
    simp

/-! ## Bytes written to an end-point's own memory -/

/-- A full piece's mask is that of its 64 bytes. -/
theorem ownPut_mask {p q : Nat} (hp : p + q ≤ 64) : (if q = 64 then 2 ^ 64 - 1 else lineMask p q) = lineMask p q := by
  split
  · obtain ⟨rfl, rfl⟩ : p = 0 ∧ q = 64 := by omega
    decide
  · rfl

theorem State.ownPut_hub (hh : h < 16) (s : State) {o : Nat} {b : List Byte} (hb : o % 64 + b.length ≤ 64) : s.ownPut h o b =
    s.lineWrite h o (lineOf (List.replicate (o % 64) 0 ++ b)) (lineMask (o % 64) b.length) .clean := by
  rw [State.ownPut, if_pos hh, ownPut_mask hb]

theorem State.HubOnly.ownPut (hh : h < 16) (s : State) (o : Nat) (b : List Byte) : s.HubOnly (s.ownPut h o b) h := by
  rw [State.ownPut, if_pos hh]
  exact .lineWrite s h o _ _

theorem State.HubOnly.putBytes (hh : h < 16) (s : State) (o : Nat) (b : List Byte) : s.HubOnly (s.putBytes h o b) h :=
  State.HubOnly.forEach (f := fun s (p : Nat × Nat × Nat) => s.ownPut h p.1 ((b.drop p.2.1).take p.2.2))
    (fun s p => .ownPut hh s p.1 _) _ s

/-- Without mirror windows a hub's write within a line changes the bytes it covers. -/
theorem State.puts_ownPut (hh : h < 16) (hw : Memory.wf s.mem = true) (hi : s.unmirrored h) {o : Nat} {b : List Byte}
    (hb : o % 64 + b.length ≤ 64) : s.mem.Puts (s.ownPut h o b).mem (hubAddr h o) b := by
  have k := State.puts_lineWrite hw hi o (lineOf (List.replicate (o % 64) 0 ++ b)) (lineMask (o % 64) b.length)
  rw [← State.ownPut_hub hh s hb] at k
  refine ⟨k.wf, fun c => ?_⟩
  have ha : hubAddr h o = hubAddr h (o / 64 * 64) + o % 64 := by
    simp only [hubAddr]
    omega
  rw [k.get, length_lineBytes, ha]
  generalize hl : hubAddr h (o / 64 * 64) = l
  by_cases hc : l ≤ c ∧ c < l + 64
  · obtain ⟨i, rfl⟩ := Nat.exists_eq_add_of_le hc.1
    have hi : i < 64 := by omega
    rw [if_pos hc, Nat.add_sub_cancel_left, getD_lineBytes _ hi]
    rw [State.lineByte_written _ _ _ _ hi, lineByte_lineOf _ hi, hl]
    by_cases hin : o % 64 ≤ i ∧ i < o % 64 + b.length
    · rw [if_pos hin, if_pos (by omega), List.getD_append_right _ _ _ _ (by simpa using hin.1), List.length_replicate,
        Nat.add_sub_add_left]
    · rw [if_neg hin, if_neg (by omega)]
  · rw [if_neg hc, if_neg (by omega)]

/-- The pieces of a range lie in it, each within a line. -/
theorem of_mem_linePieces {o n : Nat} {p : Nat × Nat × Nat} (hp : p ∈ linePieces o n) :
    p.1 = o + p.2.1 ∧ p.2.1 + p.2.2 ≤ n ∧ p.1 % 64 + p.2.2 ≤ 64 ∧ 0 < p.2.2 := by
  by_cases hn : n = 0
  · simp [linePieces, hn] at hp
  · simp only [linePieces, hn, if_false, List.mem_map, List.mem_range] at hp
    obtain ⟨k, hk, rfl⟩ := hp
    dsimp only
    omega

/-- Every place of a range lies in a piece of it. -/
theorem linePieces_cover {o n x : Nat} (hx : o ≤ x) (hn : x < o + n) : ∃ p ∈ linePieces o n, p.1 ≤ x ∧ x < p.1 + p.2.2 := by
  refine ⟨_, List.mem_map.2 ⟨x / 64 - o / 64, List.mem_range.2 ?_, rfl⟩, ?_⟩
  · rw [if_neg (by omega)]
    omega
  · dsimp only
    omega

/-- One piece of a range of bytes is stored. -/
theorem State.puts_piece (hh : h < 16) (hw : Memory.wf s.mem = true) (hi : s.unmirrored h) {o : Nat} {b : List Byte}
    {p : Nat × Nat × Nat} (hp : p ∈ linePieces o b.length) :
    s.mem.Puts (s.ownPut h p.1 ((b.drop p.2.1).take p.2.2)).mem (hubAddr h o + p.2.1) ((b.drop p.2.1).take p.2.2) := by
  obtain ⟨h1, h2, h3, -⟩ := of_mem_linePieces hp
  have ha : hubAddr h p.1 = hubAddr h o + p.2.1 := by rw [h1, hubAddr, hubAddr, Nat.add_assoc]
  rw [← ha]
  exact State.puts_ownPut hh hw hi (le_trans (by simp) h3)

/-- A byte of a piece of b. -/
theorem getD_piece {p q c : Nat} (hp : p ≤ c) (hc : c < p + q) : ((b.drop p).take q).getD (c - p) 0 = b.getD c 0 := by
  rw [List.getD_eq_getElem?_getD, List.getElem?_take_of_lt (by omega), List.getElem?_drop, Nat.add_sub_cancel' hp,
    List.getD_eq_getElem?_getD]

/-- From s to t bytes of hub h's memory alone changed, those at offset o among as many as b has. -/
structure State.PutsWithin (s t : State) (h o : Nat) (b : List Byte) : Prop where
  only : s.HubOnly t h
  wf : Memory.wf t.mem = true
  apart : ∀ c, c < hubAddr h o ∨ hubAddr h o + b.length ≤ c → Memory.get t.mem c = Memory.get s.mem c

/-- A piece stored gives the bytes it covers and keeps the others. -/
theorem State.PutsWithin.get_piece {o : Nat} (hh : h < 16) (hi : s.unmirrored h) (k : s.PutsWithin t h o b)
    {p : Nat × Nat × Nat} (hp : p ∈ linePieces o b.length) (c : Nat) :
    Memory.get (t.ownPut h p.1 ((b.drop p.2.1).take p.2.2)).mem (hubAddr h o + c) =
      if p.2.1 ≤ c ∧ c < p.2.1 + p.2.2 then b.getD c 0 else Memory.get t.mem (hubAddr h o + c) := by
  obtain ⟨-, h2, -, -⟩ := of_mem_linePieces hp
  rw [(State.puts_piece hh k.wf (k.only.unmirrored hi) hp).get, List.length_take, List.length_drop]
  by_cases hc : p.2.1 ≤ c ∧ c < p.2.1 + p.2.2
  · rw [if_pos hc, if_pos (by omega), Nat.add_sub_add_left, getD_piece hc.1 hc.2]
  · rw [if_neg hc, if_neg (by omega)]

theorem State.PutsWithin.piece {o : Nat} (hh : h < 16) (hi : s.unmirrored h) (k : s.PutsWithin t h o b)
    {p : Nat × Nat × Nat} (hp : p ∈ linePieces o b.length) :
    s.PutsWithin (t.ownPut h p.1 ((b.drop p.2.1).take p.2.2)) h o b := by
  obtain ⟨-, h2, -, -⟩ := of_mem_linePieces hp
  have w := State.puts_piece hh k.wf (k.only.unmirrored hi) hp
  refine ⟨k.only.trans (.ownPut hh t p.1 _), w.wf, fun c hc => ?_⟩
  rw [w.get_apart (by rw [List.length_take, List.length_drop]; omega), k.apart c hc]

/-- Without mirror windows a hub's write changes the bytes it covers. -/
theorem State.puts_putBytes (hh : h < 16) (hw : Memory.wf s.mem = true) (hi : s.unmirrored h) (o : Nat) (b : List Byte) :
    s.mem.Puts (s.putBytes h o b).mem (hubAddr h o) b := by
  obtain ⟨k, hk⟩ := State.forEach_reaches (I := fun t => s.PutsWithin t h o b) (l := linePieces o b.length)
    (P := fun p t => ∀ i, p.2.1 ≤ i → i < p.2.1 + p.2.2 → Memory.get t.mem (hubAddr h o + i) = b.getD i 0)
    (f := fun s p => s.ownPut h p.1 ((b.drop p.2.1).take p.2.2)) (s := s)
    (fun t p hp k => k.piece hh hi hp) (fun t p hp k i h1 h2 => by rw [k.get_piece hh hi hp, if_pos ⟨h1, h2⟩])
    (fun t p hp q k hq i h1 h2 => by rw [k.get_piece hh hi hp, hq i h1 h2, ite_self]) ⟨.rfl_ s h, hw, fun _ _ => rfl⟩
  refine ⟨k.wf, fun c => ?_⟩
  split
  · rename_i hc
    obtain ⟨i, rfl⟩ := Nat.exists_eq_add_of_le hc.1
    obtain ⟨p, hp, h1, h2⟩ := linePieces_cover (o := o) (n := b.length) (x := o + i) (by omega) (by omega)
    obtain ⟨e, -⟩ := of_mem_linePieces hp
    rw [Nat.add_sub_cancel_left]
    exact hk p (.inl hp) i (by omega) (by omega)
  · exact k.apart c (by omega)

end Sys2Proof.Machine
end

/-! # Open entries and old cells -/
section
namespace Sys2Proof.Machine

open Sys2Proof.Laws

variable {α : Type} {s t u : State} {p q : Nat}

/-! ## COMBINE_EN (R127) -/

theorem State.outItems_mapItems (s : State) (p : Nat) (f : OutItem → OutItem) :
    (s.mapItems p f).outItems p = (s.outItems p).map f := by
  simp [State.outItems, State.mapItems, State.setSw]

/-- The items of another output stand. -/
theorem State.outItems_mapItems_ne (h : q ≠ p) (s : State) (f : OutItem → OutItem) :
    (s.mapItems p f).outItems q = s.outItems q := by
  simp [State.outItems, State.mapItems, State.setSw, kgetD_kset_ne h]

/-- No entry is open at an output. -/
def State.closedAt (s : State) (p : Nat) : Prop := ∀ i ∈ s.outItems p, i.isOpen = false

theorem State.closedAt_mapItems (s : State) (p : Nat) : (s.mapItems p fun i => { i with isOpen := false }).closedAt p := by
  intro i hi
  rw [State.outItems_mapItems] at hi
  obtain ⟨j, -, rfl⟩ := List.mem_map.1 hi
  rfl

/-- Closing the entries of one output opens none at another. -/
theorem State.closedAt.mapItems (h : s.closedAt q) : (s.mapItems p fun i => { i with isOpen := false }).closedAt q := by
  by_cases hq : q = p
  · exact hq ▸ s.closedAt_mapItems p
  · rwa [State.closedAt, State.outItems_mapItems_ne hq]

/-- Only the switch differs. -/
def State.SwitchOnly (s t : State) : Prop := ∃ sw, t = { s with sw := sw }

theorem State.SwitchOnly.setSw {y : Switch} (h : s.SwitchOnly t) : s.SwitchOnly (t.setSw y) := by
  obtain ⟨sw, rfl⟩ := h
  exact ⟨y, rfl⟩

/-- Closing the entries of a list of hubs changes the switch alone. -/
theorem State.closeHubs (s : State) (l : List Nat) :
    s.SwitchOnly (s.forEach l fun s h => s.mapItems (144 + h) fun i => { i with isOpen := false }) ∧
      ∀ h ∈ l, (s.forEach l fun s h => s.mapItems (144 + h) fun i => { i with isOpen := false }).closedAt (144 + h) := by
  obtain ⟨ho, hc⟩ := State.forEach_reaches (I := s.SwitchOnly) (P := fun h t => t.closedAt (144 + h)) (l := l)
    (f := fun s h => s.mapItems (144 + h) fun i => { i with isOpen := false })
    (fun t _ _ h => h.setSw) (fun t h _ _ => t.closedAt_mapItems (144 + h))
    (fun t _ _ _ _ h => h.mapItems) (s := s) ⟨_, rfl⟩
  exact ⟨ho, fun h hl => hc h (.inl hl)⟩

theorem combineEn_sets (hw : s.regsWf = true) (v : Bool) : Answers (.combineEn v) s fun t =>
    Sets s t [(R.SW_CTL.COMBINE_EN, if v then 1 else 0)] ∧
    (v = false → ∀ h, h < 16 → ∀ i ∈ t.outItems (144 + h), i.isOpen = false) ∧
    (v = true → t.sw = s.sw) ∧ t = { s with regs := t.regs, sw := t.sw } := by
  have hs : Sets s (s.fsetb R.SW_CTL.COMBINE_EN v) [(R.SW_CTL.COMBINE_EN, if v then 1 else 0)] :=
    sets_fsetb hw (by decide) (by decide) v
  cases v with
  | true => exact ⟨_, rfl, hs, fun h => absurd h (by decide), fun _ => rfl, rfl⟩
  | false =>
    obtain ⟨ho, hc⟩ := State.closeHubs (s.fsetb R.SW_CTL.COMBINE_EN false) (List.range 16)
    obtain ⟨sw, e⟩ := ho
    rw [e] at hc
    exact ⟨_, congrArg Host.Outcome.next e, Sets.congr hs rfl rfl, fun _ h hh => hc h (List.mem_range.2 hh),
      fun h => absurd h (by decide), rfl⟩

/-! ## Ageing (R128) -/

/-- Only registers, the Almanac and the count of free values differ. -/
def State.Tallies (s t : State) : Prop := ∃ regs al free, t = { s with regs := regs, al := al, free := free }

theorem State.Tallies.rfl_ (s : State) : s.Tallies s := ⟨_, _, _, rfl⟩

theorem State.Tallies.almAdd {a b o n : Nat} (h : s.Tallies t) : s.Tallies (t.almAdd a b o n) := by
  obtain ⟨regs, al, free, rfl⟩ := h
  exact ⟨_, _, _, rfl⟩

theorem State.Tallies.finc {f : Fld} {n : Nat} (h : s.Tallies t) : s.Tallies (t.finc f n) := by
  obtain ⟨regs, al, free, rfl⟩ := h
  obtain ⟨regs', free', e⟩ := State.finc_frame { s with regs := regs, al := al, free := free } f n
  exact ⟨regs', al, free', e⟩

theorem State.Tallies.countAged {x : Nat} {c : Cell} (h : s.Tallies t) : s.Tallies (t.countAged x c) := by
  dsimp only [State.countAged]
  split
  · exact h.finc.almAdd.almAdd
  · exact h.finc.almAdd.almAdd

theorem State.Tallies.forEach {l : List α} {f : State → α → State} (h : s.Tallies t)
    (hf : ∀ {u} a, s.Tallies u → s.Tallies (f u a)) : s.Tallies (t.forEach l f) :=
  State.forEach_keeps (P := s.Tallies) (fun _ a => hf a) l t h

/-- The queues of a table without the elements that satisfy p. -/
def without (p : α → Bool) (m : KV (List α)) : KV (List α) := m.map fun e => (e.1, e.2.filter fun x => !p x)

theorem of_mem_without {p : α → Bool} {m : KV (List α)} {e : Nat × List α} (he : e ∈ without p m) {x : α} (hx : x ∈ e.2) :
    p x = false := by
  obtain ⟨f, -, rfl⟩ := List.mem_map.1 he
  simpa using List.of_mem_filter hx

/-- The switch without the best-effort and control cells whose age has reached 64, and the items that hold one (R128). -/
def Switch.unaged (sw : Switch) : Switch :=
  { sw with
    inBe := without (aged ·.cell) sw.inBe, inCtl := without (aged ·.cell) sw.inCtl
    midG := without (aged ·.cell) sw.midG, midBe := without (aged ·.cell) sw.midBe
    mcG := without (aged ·.cell) sw.mcG, mcBe := without (aged ·.cell) sw.mcBe
    outG := without agedItem sw.outG, outBe := without agedItem sw.outBe
    answers := without aged sw.answers, feed := sw.feed.filter fun c => !aged c }

/-- What is counted before a change of the switch. -/
theorem State.Tallies.setSw (h : s.Tallies t) (f : Switch → Switch) :
    ∃ regs al free, t.setSw (f t.sw) = { s with regs := regs, al := al, free := free, sw := f s.sw } := by
  obtain ⟨regs, al, free, rfl⟩ := h
  exact ⟨_, _, _, rfl⟩

/-- Old cells are counted and leave the switch. -/
theorem State.ageDiscard_eq (s : State) : ∃ regs al free,
    s.ageDiscard = { s with regs := regs, al := al, free := free, sw := s.sw.unaged } :=
  State.Tallies.setSw
    ((((((State.Tallies.rfl_ s).forEach fun _ h => h.forEach fun _ h => h.countAged).forEach
      fun _ h => h.forEach fun _ h => h.countAged).forEach
        fun _ h => h.forEach fun _ h => h.forEach fun _ h => h.countAged).forEach
          fun _ h => h.forEach fun _ h => h.forEach fun _ h => h.countAged).forEach fun _ h => h.countAged)
    fun y => { y with
      inBe := s.sw.unaged.inBe, inCtl := s.sw.unaged.inCtl, midG := s.sw.unaged.midG, midBe := s.sw.unaged.midBe
      mcG := s.sw.unaged.mcG, mcBe := s.sw.unaged.mcBe, outG := s.sw.unaged.outG, outBe := s.sw.unaged.outBe
      answers := s.sw.unaged.answers, feed := s.sw.unaged.feed }

/-- Two tables of queues without the elements that satisfy p. -/
theorem of_mem_without_append {p : α → Bool} {m n : KV (List α)} {e : Nat × List α} (he : e ∈ without p m ++ without p n)
    {x : α} (hx : x ∈ e.2) : p x = false := (List.mem_append.1 he).elim (of_mem_without · hx) (of_mem_without · hx)

theorem aged_of_agedItem {i : OutItem} (h : agedItem i = false) {c : Cell} (hc : c ∈ i.cells) : aged c = false := by
  simpa using List.any_eq_false.1 h c hc

/-- Ageing discards every best-effort and control cell whose age has reached 64, and leaves the guaranteed inputs. -/
theorem ageDiscard_discards (s : State) : Answers .ageDiscard s fun t =>
    (∀ e ∈ t.sw.inBe ++ t.sw.inCtl, ∀ q ∈ e.2, aged q.cell = false) ∧
    (∀ e ∈ t.sw.midG ++ t.sw.midBe, ∀ q ∈ e.2, aged q.cell = false) ∧
    (∀ e ∈ t.sw.mcG ++ t.sw.mcBe, ∀ q ∈ e.2, aged q.cell = false) ∧
    (∀ e ∈ t.sw.outG ++ t.sw.outBe, ∀ i ∈ e.2, ∀ c ∈ i.cells, aged c = false) ∧
    t.sw.inG = s.sw.inG ∧ t = { s with regs := t.regs, al := t.al, free := t.free, sw := t.sw } := by
  obtain ⟨regs, al, free, e⟩ := s.ageDiscard_eq
  exact ⟨_, congrArg Host.Outcome.next e, fun _ he _ hq => of_mem_without_append he hq, fun _ he _ hq => of_mem_without_append he hq,
    fun _ he _ hq => of_mem_without_append he hq, fun _ he _ hi _ hc => aged_of_agedItem (of_mem_without_append he hi) hc, rfl, rfl⟩

/-! ## Work handed to a hub (R122, R126) -/

variable {h n : Nat} {i : OutItem} {c : Cell} {l : List Cell}

theorem State.handed_freeItem (s : State) (h n : Nat) : ∀ j ∈ kgetD (s.freeItem h n).sw.handed h [], j.id ≠ n := by
  intro j hj
  rw [State.freeItem, kgetD_kset_self] at hj
  simpa using List.of_mem_filter hj

/-- A single item frees its line alone. -/
theorem hubPerformed_single {f : LineFault} (hf : (kgetD s.sw.handed h []).find? (·.id == n) = some i) (he : i.entry = false) :
    Answers (.hubPerformed h n f) s fun t =>
      (∀ j ∈ kgetD t.sw.handed h [], j.id ≠ n) ∧ t = { s with sw := { s.sw with handed := t.sw.handed } } := by
  refine ⟨s.freeItem h n, congrArg Host.Outcome.next ?_, s.handed_freeItem h n, rfl⟩
  simp only [hf, he]
  rfl

theorem cellAnswer_write (hc : c.typ = T.WRITE) (old : BitVec 512) : cellAnswer c ST.OK old = ackOf c := by
  simp [cellAnswer, hc, T.WRITE, T.READ, T.ATOMIC]

/-- An ACK for each of some cells leaves a hub's position. -/
def State.ackAll (s : State) (h : Nat) (l : List Cell) : State := s.forEach l fun s c => s.emit (.inject (144 + h) (ackOf c))

theorem State.mem_ackAll (s : State) (h : Nat) (l : List Cell) : (s.ackAll h l).mem = s.mem :=
  State.forEach_keeps (P := fun t => t.mem = s.mem) (f := fun s c => s.emit (.inject (144 + h) (ackOf c))) (fun _ _ e => e) l s rfl

theorem State.ackAll_append (s : State) (h : Nat) (k l : List Cell) : s.ackAll h (k ++ l) = (s.ackAll h k).ackAll h l :=
  List.foldl_append

/-- An entry of writes is one write of the line, and an ACK for each original and each duplicate. -/
theorem State.entryPerform_writes (hc : i.cells = c :: l) (ht : ∀ d ∈ i.cells, d.typ = T.WRITE)
    (hp : c.offset / 64 * 64 + 64 ≤ s.populated h) (f : LineFault) : s.entryPerform h i f =
      (s.lineWrite h (c.offset / 64 * 64) (mergedOf i.cells).data (mergedOf i.cells).mask f).ackAll h (i.cells ++ i.dups) := by
  have ha (u : State) : u.forEach i.cells (fun s d => s.hubSend h (cellAnswer d ST.OK 0)) = u.ackAll h i.cells := by
    refine List.foldl_ext _ _ u fun u d hd => ?_
    rw [cellAnswer_write (ht d hd)]
    rfl
  have hw : c.typ = T.WRITE := ht c (hc ▸ List.mem_cons_self)
  rw [State.ackAll_append, ← ha]
  unfold State.entryPerform
  rw [hc]
  simp only [if_neg (not_lt.2 hp), if_pos hw]
  rfl

theorem hubPerformed_entry (hw : Memory.wf s.mem = true) (hf : (kgetD s.sw.handed h []).find? (·.id == n) = some i)
    (he : i.entry = true) (hc : i.cells = c :: l) (ht : ∀ d ∈ i.cells, d.typ = T.WRITE) (hh : s.heldAt h c.offset = false)
    (hp : c.offset / 64 * 64 + 64 ≤ s.populated h) (hi : s.unmirrored h) : Answers (.hubPerformed h n .clean) s fun t =>
      (∀ j ∈ kgetD t.sw.handed h [], j.id ≠ n) ∧ (∀ d ∈ i.cells ++ i.dups, Out.inject (144 + h) (ackOf d) ∈ t.out) ∧
      t.hubLine h c.offset = s.written h c.offset (mergedOf i.cells).data (mergedOf i.cells).mask ∧
      ∀ a, (a < hubAddr h (c.offset / 64 * 64) ∨ hubAddr h (c.offset / 64 * 64) + 64 ≤ a) →
        Memory.get t.mem a = Memory.get s.mem a := by
  have e := State.entryPerform_writes hc ht hp .clean
  have hl : c.offset / 64 * 64 / 64 = c.offset / 64 := Nat.mul_div_cancel _ (by decide)
  have hm : ((s.entryPerform h i .clean).freeItem h n).mem =
      (s.lineWrite h (c.offset / 64 * 64) (mergedOf i.cells).data (mergedOf i.cells).mask .clean).mem := by
    rw [State.freeItem, e, State.mem_ackAll]
  have k := State.puts_lineWrite hw hi (c.offset / 64 * 64) (mergedOf i.cells).data (mergedOf i.cells).mask
  rw [← hm, hl] at k
  have hd : s.written h (c.offset / 64 * 64) (mergedOf i.cells).data (mergedOf i.cells).mask =
      s.written h c.offset (mergedOf i.cells).data (mergedOf i.cells).mask := by
    rw [State.written, State.written, State.hubLine, State.hubLine, hl]
  rw [hd] at k
  refine ⟨(s.entryPerform h i .clean).freeItem h n, congrArg Host.Outcome.next ?_, State.handed_freeItem _ h n, ?_, ?_, ?_⟩
  · simp only [hf, he, hc, List.cons_append, hh]
    rfl
  · rw [State.freeItem, e]
    exact State.mem_out_forEach_emit (fun d => .inject (144 + h) (ackOf d)) _ _
  · have r := k.read
    rw [length_lineBytes] at r
    rw [State.hubLine, State.hubRead, r, lineOf_lineBytes]
  · intro a ha
    exact k.get_apart (by rwa [length_lineBytes])

/-- Settles O6: an entry of writes is one line written and one ACK for each of its cells and their duplicates; closing maps
over each hub's output, and what ageing counts changes only registers and the Almanac. -/
theorem combiningAndAgeing : Obligations.CombiningAndAgeing :=
  ⟨⟨fun _ _ _ _ _ hf he => hubPerformed_single hf he,
    fun _ _ _ _ _ _ hw hf he hc ht hh hp hi => hubPerformed_entry hw hf he hc ht hh hp hi⟩,
    fun _ v hw => combineEn_sets hw v, ageDiscard_discards⟩

end Sys2Proof.Machine
end

/-! # Results on their way to the root -/
section
namespace Sys2Proof.Machine
open Sys2Proof.Laws

variable {s t : State} {h : Nat} {c : Cell}

/-! ## Chunks of a region -/

/-- A region's data end before its scales begin. -/
theorem Desc.dataAt_apart (d : Desc) (base ty : Nat) {i n : Nat} (hi : i < n) :
    d.dataAt base ty i + d.bytes ty ≤ d.scaleAt base ty n i := by
  have := Nat.mul_le_mul_right (d.bytes ty) (Nat.succ_le_of_lt hi)
  rw [Nat.succ_mul] at this
  simp only [Desc.dataAt, Desc.scaleAt]
  omega

/-- A chunk of this plane has its place in the region. -/
theorem Desc.index_lt_count (d : Desc) {c p : Nat} (hc : c < d.n) (hp : d.planeHub = true → c % 16 = p) :
    d.index c < d.count p := by
  unfold Desc.index Desc.count
  by_cases hd : d.planeHub = true
  · have := hp hd
    rw [if_pos hd, if_pos hd, Desc.nOf, if_neg (by omega), ceilDiv]
    omega
  · rwa [if_neg hd, if_neg hd]

/-- A cell's data and scales written to a region's chunk. -/
def State.putChunk (s : State) (e : Nat) (d : Desc) (base ty n i : Nat) (c : Cell) : State :=
  (s.putBytes e (d.dataAt base ty i) (bytesAt (lineBytes c.payload) 0 (d.bytes ty))).putBytes e (d.scaleAt base ty n i)
    (leBytes c.scales (d.scaleBytes ty))

theorem State.HubOnly.putChunk (hh : h < 16) (s : State) (d : Desc) (base ty n i : Nat) (c : Cell) :
    s.HubOnly (s.putChunk h d base ty n i c) h := (State.HubOnly.putBytes hh s _ _).trans (.putBytes hh _ _ _)

/-- The data of a chunk that was written are read. -/
theorem State.hubRead_putChunk (hh : h < 16) (hw : Memory.wf s.mem = true) (hu : s.unmirrored h) (d : Desc) (base ty : Nat)
    {n i : Nat} (hi : i < n) (c : Cell) : (s.putChunk h d base ty n i c).hubRead h (d.dataAt base ty i) (d.bytes ty) =
      bytesAt (lineBytes c.payload) 0 (d.bytes ty) := by
  have k := State.puts_putBytes hh hw hu (d.dataAt base ty i) (bytesAt (lineBytes c.payload) 0 (d.bytes ty))
  have l := State.puts_putBytes hh k.wf ((State.HubOnly.putBytes hh s _ _).unmirrored hu) (d.scaleAt base ty n i)
    (leBytes c.scales (d.scaleBytes ty))
  have ha := d.dataAt_apart base ty hi
  have r := k.read
  rw [length_bytesAt] at r
  rw [State.hubRead, State.putChunk, l.read_apart (.inl (by simp only [hubAddr]; omega)), r]

/-! ## Participants by slot -/

theorem find?_key {α : Type} {key : α → Nat} {l : List α} {k : Nat} {x : α} (h : l.find? (key · == k) = some x) :
    key x = k := by simpa using List.find?_some h

/-- An element in place of that of its key is found. -/
theorem find?_map_put {α : Type} (key : α → Nat) {y x : α} {l : List α} (h : l.find? (key · == key y) = some x) :
    (l.map fun a => if key a = key y then y else a).find? (key · == key y) = some y := by
  induction l with
  | nil => simp at h
  | cons a l ih =>
    by_cases ha : key a = key y
    · simp [ha]
    · simp only [List.map_cons, if_neg ha, List.find?_cons, beq_eq_false_iff_ne.2 ha] at h ⊢
      exact ih h

theorem State.slot_of_root {e slot : Nat} {r : RootArm} (hr : s.root e slot = some r) : r.slot = slot := find?_key hr

theorem State.root_setRoot {e : Nat} {r q : RootArm} (hr : s.root e q.slot = some r) : (s.setRoot e q).root e q.slot = some q := by
  rw [State.root, State.setRoot, State.ep_setEp]
  exact find?_map_put RootArm.slot hr

/-! ## A result leaves the complex (R115, R254) -/

variable {r : RdResult} {p m f k : Nat}

/-- A RESULT of the complex as it leaves best-effort. -/
def RdResult.leaves (r : RdResult) (s : State) : RdResult :=
  { r with
    cell := { r.cell with seq := (s.cpSeq r.root r.seqPlane).2, cls := clsBE }
    sent := some s.now, lastSent := s.now }

/-- A cell at the tail of an intermediate's best-effort queue. -/
def State.queueBe (s : State) (m : Nat) (x : MidCell) : State :=
  s.setSw { s.sw with midBe := kset s.sw.midBe m (kgetD s.sw.midBe m [] ++ [x]) }

/-- A best-effort cell of the complex enters its queue when that has room. -/
theorem State.toQueue_be {c : Cell} {root : Nat} (hp : s.posOf root = some p) (hu : s.posUp p = true) (hc : c.cls = clsBE)
    (hb : c.typ ≠ T.BCAST) (hq : (kgetD s.sw.midBe m []).length < 256)
    (ho : ((kgetD s.sw.midBe m []).filter (·.outPos == p)).length < 4) :
    s.toQueue m c root f = some (s.queueBe m { cell := c, outPos := p, at_ := s.fclk f }) := by
  have hr : s.midRoom m { cell := c, outPos := p } = true := by simp [State.midRoom, hb, hc, hq, ho]
  simp [State.toQueue, hp, hu, hr, hc, State.queueBe, kupd]

/-- A spilled result takes the complex's next SEQ and its place in the queue. -/
theorem State.sendResult_spilled (hs : r.sent = none) (ht : r.cell.typ = T.RESULT) (hl : r.spilled = true)
    (hf : s.rdSeqFits r.root r.seqPlane = true) (hp : s.posOf r.root = some p) (hu : s.posUp p = true)
    (hq : (kgetD s.sw.midBe (steerOf r.slot r.chunk) []).length < 256)
    (ho : ((kgetD s.sw.midBe (steerOf r.slot r.chunk) []).filter (·.outPos == p)).length < 4) : s.sendResult r f =
      ((s.cpSeq r.root r.seqPlane).1.queueBe (steerOf r.slot r.chunk)
        { cell := (r.leaves s).cell, outPos := p, at_ := s.fclk f }).putResult (r.leaves s) := by
  have hb : (r.leaves s).cell.typ ≠ T.BCAST := ne_of_eq_of_ne ht (by decide)
  have e := State.toQueue_be (s := (s.cpSeq r.root r.seqPlane).1) (f := f) (c := (r.leaves s).cell) hp hu rfl hb hq ho
  cases r
  cases hs
  cases hl
  dsimp only [RdResult.leaves] at e ht hf ⊢
  simp only [State.sendResult, hf, if_pos ht, Option.isSome_none, Bool.not_true, Bool.or_self, Bool.false_and,
    Bool.false_eq_true, if_false]
  rw [e]
  rfl

/-- A held result that is one the complex has leaves it. -/
theorem execResultHandoff_one (he : s.rd.entries = []) (hr : s.rd.results = [r]) (hs : r.sent = none)
    (ht : r.cell.typ = T.RESULT) (hf : f < 1600) : execResultHandoff r.slot ⟨r.chunk, f⟩ s = .next (s.sendResult r f) := by
  have hd : s.heldDone r.slot r.chunk = s := by
    rw [State.heldDone, he]
    cases s.inst r.slot <;> rfl
  have hh : s.resultHeld r.slot r.chunk = false := by
    rw [State.resultHeld, hr]
    simp [ht, T.RESULT, T.WRITE]
  simp only [execResultHandoff, hd, hh, hr, if_neg (not_le.2 hf)]
  simp [hs, State.forEach]

theorem resultHandoff_leaves (hf : f < 1600) (he : s.rd.entries = []) (hr : s.rd.results = [r]) (hs : r.sent = none)
    (ht : r.cell.typ = T.RESULT) (hl : r.spilled = true) (hq : s.rdSeqFits r.root r.seqPlane = true)
    (hp : s.posOf r.root = some p) (hu : s.posUp p = true) (hm : m = steerOf r.slot r.chunk)
    (hn : (kgetD s.sw.midBe m []).length < 256) (ho : ((kgetD s.sw.midBe m []).filter (·.outPos == p)).length < 4) :
    Answers (.resultHandoff r.slot ⟨r.chunk, f⟩) s fun t => ∃ c, c = { r.cell with
        seq := kgetD (s.ep 16).seqs (r.root * 16 + r.seqPlane) 0, cls := clsBE } ∧
      (∃ q, kgetD t.sw.midBe m [] = kgetD s.sw.midBe m [] ++ [q] ∧ q.cell = c ∧ q.outPos = p ∧ q.at_ = s.fclk f) ∧
      (∃ r', t.rd.results = [r'] ∧ r'.sent = some s.now ∧ r'.cell = c) ∧
      t = { s with rd := t.rd, sw := t.sw, eps := t.eps } := by
  subst hm
  have e := State.sendResult_spilled (f := f) hs ht hl hq hp hu hn ho
  refine ⟨_, (execResultHandoff_one he hr hs ht hf).trans (congrArg Host.Outcome.next e), _, rfl,
    ⟨_, kgetD_kset_self _ _ _ _, rfl, rfl, rfl⟩, ⟨r.leaves s, ?_, rfl, rfl⟩, rfl⟩
  have hr' : ((s.cpSeq r.root r.seqPlane).1.queueBe (steerOf r.slot r.chunk)
      { cell := (r.leaves s).cell, outPos := p, at_ := s.fclk f }).rd.results = [r] := hr
  rw [State.putResult, hr']
  simp [State.setRd, RdResult.leaves]

/-! ## A result reaches its root (R255) -/

variable {a : RootArm} {d : Desc}

/-- A new SEQ is taken into the source's window. -/
def State.accepts (s : State) (e : Nat) (c : Cell) : State :=
  let k := c.src * 16 + planeOfId c.src
  s.setEp e { s.ep e with wins := kset (s.ep e).wins k (winAccept (kget (s.ep e).wins k) c.seq s.now) }

/-- A root's record when its next chunk is written and none waits beyond it. -/
def RootArm.grown (a : RootArm) : RootArm := { a with prefix_ := a.prefix_ + 1, written := [] }

/-- A root's next chunk is counted. -/
def State.rootNext (s : State) (e : Nat) (a : RootArm) : State :=
  (s.setRoot e a.grown).fset (R.MS_COUNT.COUNT e a.rootMs)
    (s.fget (R.MS_COUNT.COUNT e a.rootMs) + 1)

/-- The count of chunks written without a gap grows by the chunk that comes next when none waits beyond it. -/
theorem growPrefix_next (p : Nat) : growPrefix p (addNew [] p) 1 = (p + 1, []) := by simp [growPrefix, addNew]

/-- The next chunk of a root is written, counted and answered. -/
theorem State.resultReceive_next (hr : s.root h c.slot = some a) (hd : d = descOf a.desc) (hb : d.bcast = false)
    (hp : d.planeHub = true → c.chunk % 16 = s.plane) (hn : c.chunk < d.n)
    (hw : winNew (kget (s.ep h).wins (c.src * 16 + planeOfId c.src)) c.seq = true) (hi : d.index c.chunk = a.prefix_)
    (ha : a.written = []) : s.resultReceive h c =
      (((s.accepts h c).putChunk h d a.resultBase d.outT (d.count (((s.accepts h c).putBytes h (d.dataAt a.resultBase d.outT a.prefix_)
        (bytesAt (lineBytes c.payload) 0 (d.bytes d.outT))).plane)) a.prefix_ c).rootNext h a).rootAnswer h c
          (mapAck c.src 0 c.seq 1 c.ctx) := by
  subst hd
  have hh : ((descOf a.desc).planeHub && c.chunk % 16 != s.plane) = false := by
    cases hx : (descOf a.desc).planeHub
    · rfl
    · simp [hp hx]
  simp only [State.resultReceive, hr, Option.filter_some, hb, Bool.not_false, if_true, hh, Bool.false_or, decide_eq_true_eq,
    if_neg (not_le.2 hn), hw, Bool.not_true, Bool.false_eq_true, if_false, hi, ha, le_refl, growPrefix_next,
    List.length_nil, Nat.zero_add, Nat.add_sub_cancel_left, if_neg (show ¬ a.prefix_ + 262144 ≤ a.prefix_ by omega)]
  rfl

/-- What writes to hub memory alone leave of the end-points, the registers and the outputs. -/
theorem State.HubOnly.regs (k : s.HubOnly t h) : t.regs = s.regs := by rw [k.frame]
theorem State.HubOnly.out (k : s.HubOnly t h) : t.out = s.out := by rw [k.frame]
theorem State.HubOnly.fget (k : s.HubOnly t h) (f : Fld) : t.fget f = s.fget f := by rw [k.frame]; rfl
theorem State.HubOnly.regsWf (k : s.HubOnly t h) : t.regsWf = s.regsWf := by rw [k.frame]; rfl
theorem State.HubOnly.root (k : s.HubOnly t h) (e slot : Nat) : t.root e slot = s.root e slot := by rw [k.frame]; rfl
theorem State.HubOnly.plane (k : s.HubOnly t h) : t.plane = s.plane := by rw [k.frame]; rfl

theorem execResultReceive_hub (hh : h < 16) (ht : c.typ = T.RESULT) : execResultReceive h c s = .next (s.resultReceive h c) :=
  congrArg Host.Outcome.next (if_pos ⟨by omega, by omega, ht⟩)

/-- An answer of a hub's root leaves from the hub's position. -/
theorem State.rootAnswer_hub (hh : h < 16) (s : State) (c : Cell) {x : Cell} (hx : x.collective = false) :
    s.rootAnswer h c x = s.emit (.inject (144 + h) { x with src := s.epId h, dst := c.src }) := by
  have hy : Cell.collective { x with src := s.epId h, dst := c.src } = false := hx
  rw [State.rootAnswer, State.epSend, if_pos hh, hy]
  rfl

theorem State.root_accepts (s : State) (e : Nat) (c : Cell) (slot : Nat) : (s.accepts e c).root e slot = s.root e slot := by
  rw [State.accepts, State.root, State.ep_setEp]
  rfl

theorem State.root_rootNext {e : Nat} (hr : s.root e a.slot = some a) :
    (s.rootNext e a).root e a.slot = some a.grown := by
  rw [State.rootNext, State.root, State.ep_fset]
  exact State.root_setRoot (q := a.grown) hr

theorem State.fset_frame (s : State) (f : Fld) (v : Nat) : s.fset f v = { s with regs := (s.fset f v).regs } := rfl

/-- Counting a root's chunk changes registers and the root's record. -/
theorem State.rootNext_frame (s : State) (e : Nat) (a : RootArm) :
    ∃ regs eps, s.rootNext e a = { s with regs := regs, eps := eps } := ⟨_, _, State.fset_frame _ _ _⟩

@[simp] theorem State.plane_rootNext (s : State) (e : Nat) (a : RootArm) : (s.rootNext e a).plane = s.plane := by
  obtain ⟨_, _, k⟩ := s.rootNext_frame e a
  rw [k]
  rfl

@[simp] theorem State.out_rootNext (s : State) (e : Nat) (a : RootArm) : (s.rootNext e a).out = s.out := by
  obtain ⟨_, _, k⟩ := s.rootNext_frame e a
  rw [k]

@[simp] theorem State.mem_rootNext (s : State) (e : Nat) (a : RootArm) : (s.rootNext e a).mem = s.mem := by
  obtain ⟨_, _, k⟩ := s.rootNext_frame e a
  rw [k]

@[simp] theorem State.plane_accepts (s : State) (e : Nat) (c : Cell) : (s.accepts e c).plane = s.plane := rfl
@[simp] theorem State.regsWf_accepts (s : State) (e : Nat) (c : Cell) : (s.accepts e c).regsWf = s.regsWf := rfl
@[simp] theorem State.out_accepts (s : State) (e : Nat) (c : Cell) : (s.accepts e c).out = s.out := rfl
@[simp] theorem State.fget_accepts (s : State) (e : Nat) (c : Cell) (f : Fld) : (s.accepts e c).fget f = s.fget f := rfl

theorem State.fget_rootNext (hs : s.regsWf = true) (e : Nat) (a : RootArm) : (s.rootNext e a).fget (R.MS_COUNT.COUNT e a.rootMs) =
    (s.fget (R.MS_COUNT.COUNT e a.rootMs) + 1) % 2 ^ 64 :=
  State.fget_fset _ (State.krising_of_regsWf hs) _ _ (Nat.zero_le _) (Nat.lt_succ_self 63)

theorem resultReceive_next (hs : s.regsWf = true) (hh : h < 16) (ht : c.typ = T.RESULT) (hr : s.root h c.slot = some a)
    (hd : d = descOf a.desc) (hb : d.bcast = false) (hp : d.planeHub = true → c.chunk % 16 = s.plane) (hn : c.chunk < d.n)
    (hw : winNew (kget (s.ep h).wins (c.src * 16 + planeOfId c.src)) c.seq = true) (hi : d.index c.chunk = a.prefix_)
    (hx : a.written = []) (hm : Memory.wf s.mem = true) (hu : s.unmirrored h) : Answers (.resultReceive h c) s fun t =>
      (∃ r', t.root h c.slot = some r' ∧ r'.prefix_ = a.prefix_ + 1) ∧
      t.fget (R.MS_COUNT.COUNT h a.rootMs) = (s.fget (R.MS_COUNT.COUNT h a.rootMs) + 1) % 2 ^ 64 ∧
      t.hubRead h (d.dataAt a.resultBase d.outT a.prefix_) (d.bytes d.outT) =
        bytesAt (lineBytes c.payload) 0 (d.bytes d.outT) ∧
      t.out = .inject (144 + h) { mapAck c.src 0 c.seq 1 c.ctx with src := s.epId h } :: s.out := by
  have e := State.resultReceive_next hr hd hb hp hn hw hi hx
  have hk : ((s.accepts h c).putBytes h (d.dataAt a.resultBase d.outT a.prefix_)
      (bytesAt (lineBytes c.payload) 0 (d.bytes d.outT))).plane = s.plane := (State.HubOnly.putBytes hh _ _ _).plane
  have hc : a.prefix_ < d.count s.plane := hi ▸ d.index_lt_count hn hp
  rw [hk] at e
  have k := State.HubOnly.putChunk hh (s.accepts h c) d a.resultBase d.outT (d.count s.plane) a.prefix_ c
  have hread := State.hubRead_putChunk (s := s.accepts h c) hh hm hu d a.resultBase d.outT hc c
  generalize (s.accepts h c).putChunk h d a.resultBase d.outT (d.count s.plane) a.prefix_ c = u at e k hread
  have hslot := State.slot_of_root hr
  have hroot : u.root h a.slot = some a := by rw [k.root, State.root_accepts, hslot, hr]
  rw [State.rootAnswer_hub hh _ _ rfl, State.epId, if_pos hh, State.plane_rootNext, k.plane, State.plane_accepts] at e
  refine ⟨_, (execResultReceive_hub hh ht).trans (congrArg Host.Outcome.next e), ⟨a.grown, ?_, rfl⟩, ?_, ?_, ?_⟩
  · rw [← hslot]
    exact State.root_rootNext hroot
  · have hf := State.fget_rootNext (by rw [k.regsWf, State.regsWf_accepts, hs]) h a
    rw [k.fget, State.fget_accepts] at hf
    exact hf
  · exact (congrArg (fun m => Memory.read m _ _) (State.mem_rootNext u h a)).trans hread
  · rw [State.emit, State.out_rootNext, k.out, State.out_accepts, State.epId, if_pos hh]
    rfl

/-- A result for a slot without a root arm is answered ST_NOT_ARMED. -/
theorem resultReceive_unarmed (hh : h < 16) (ht : c.typ = T.RESULT) (hr : s.root h c.slot = none) :
    Answers (.resultReceive h c) s fun t =>
      t = { s with out := .inject (144 + h) { nackOf c ST.NOT_ARMED false 0 with src := s.epId h, dst := c.src } :: s.out } := by
  have e : s.resultReceive h c = s.rootAnswer h c (nackOf c ST.NOT_ARMED false 0) := by
    rw [State.resultReceive, hr]
    rfl
  rw [State.rootAnswer_hub hh _ _ rfl] at e
  exact ⟨_, (execResultReceive_hub hh ht).trans (congrArg Host.Outcome.next e), rfl⟩

/-- Settles O19: the held result takes its SEQ and queue place in one sending, and the root's writes touch only its hub's
memory, so its record, milestone and answer follow from what it held. -/
theorem resultsReachTheRoot : Obligations.ResultsReachTheRoot := fun _ =>
  ⟨fun _ _ _ _ hf he hr hs ht hl hq hp hu hm hn ho => resultHandoff_leaves hf he hr hs ht hl hq hp hu hm hn ho,
    fun _ _ _ _ hs hh ht hr hd hb hp hn hw hi hx _ hm hu => resultReceive_next hs hh ht hr hd hb hp hn hw hi hx hm hu,
    fun _ _ hh ht hr => resultReceive_unarmed hh ht hr⟩

end Sys2Proof.Machine
end

/-! # Broadcasts -/
section
namespace Sys2Proof.Machine
open Sys2Proof.Laws

variable {s t u : State} {e slot : Nat} {c : Cell}

/-! ## A root sends (R116, R258) -/

variable {r : RootArm} {d : Desc}

/-- The cell of a broadcast root's next chunk. -/
def State.bcastCell (s : State) (e slot : Nat) (r : RootArm) (c : Nat) (v : BitVec 512 × Nat) : Cell :=
  { typ := T.BCAST, cls := clsBE, src := s.epId e, ctx := r.ctx, slot := slot, chunk := c, payload := v.1, scales := v.2 }

/-- The root's record when a chunk has gone. -/
def RootArm.sent (r : RootArm) : RootArm := { r with next := r.next + 1, ownStatus := worst r.ownStatus ST.OK }

/-- A hub's root whose gate is open sends its next chunk best-effort where no reservation is its own. -/
theorem State.bcastSend_next {c : Nat} {w : BitVec 512 × Nat} (he : e < 16) (hr : s.root e slot = some r) (hd : d = descOf r.desc)
    (hb : d.bcast = true) (hn : r.next < d.count s.plane) (hg : s.gateOpen e r r.next = true)
    (hc : c = if d.planeHub then 16 * r.next + s.plane else r.next)
    (hv : s.resvFor e s.plane { typ := T.BCAST, src := s.epId e, ctx := r.ctx, slot := slot, chunk := c } = none)
    (hw : s.readChunk e slot d r.resultBase d.inT (d.count s.plane) r.next = (s, some (some w))) : s.bcastSend e slot =
      (s.setRoot e r.sent).emit (.inject (144 + e) (s.bcastCell e slot r c (clipChunk d d.inT c w))) := by
  subst hd
  have hp : s.planeUsable e s.plane = true := by simp [State.planeUsable, he.le]
  have h17 : e ≠ 17 := by omega
  have hpace : s.paceG e s.plane { typ := T.BCAST, src := s.epId e, ctx := r.ctx, slot := slot, chunk := c } = some none := by
    rw [State.paceG, hv]
  simp only [State.bcastSend, hr, Option.filter_some, hb, if_true, hg, Bool.not_true, Bool.or_false, decide_eq_true_eq,
    if_neg (not_le.2 hn), if_neg h17, hp, Bool.false_eq_true, if_false, ← hc, hpace, hw]
  exact if_pos he

/-- What leaves from a hub's position feeds nothing to the core input of the sled itself. -/
theorem State.emit_hub_feeds (s : State) (e : Nat) (c : Cell) : s.Feeds (s.emit (.inject (144 + e) c)) := by
  have hp : 144 + e ≠ s.ownPos := by
    have := s.plane_lt
    rw [State.ownPos]
    omega
  exact ⟨rfl, [.inject (144 + e) c], rfl, by simp [ownCells, hp]⟩

theorem bcastSend_next {c : Nat} {w : BitVec 512 × Nat} (he : e < 16) (hr : s.root e slot = some r) (hd : d = descOf r.desc)
    (hb : d.bcast = true) (hn : r.next < d.count s.plane) (hg : s.gateOpen e r r.next = true)
    (hc : c = if d.planeHub then 16 * r.next + s.plane else r.next)
    (hv : s.resvFor e s.plane { typ := T.BCAST, src := s.epId e, ctx := r.ctx, slot := slot, chunk := c } = none)
    (hw : s.readChunk e slot d r.resultBase d.inT (d.count s.plane) r.next = (s, some (some w))) :
    Answers (.bcastSend e slot) s fun t =>
      t.out = .inject (144 + e) { typ := T.BCAST, cls := clsBE, src := s.epId e, ctx := r.ctx, slot := slot, chunk := c
                                  payload := (clipChunk d d.inT c w).1, scales := (clipChunk d d.inT c w).2 } :: s.out ∧
      (∃ r', t.root e slot = some r' ∧ r'.next = r.next + 1) ∧ t = { s with eps := t.eps, out := t.out, sw := s.fed t } := by
  have k := State.bcastSend_next he hr hd hb hn hg hc hv hw
  have hs := State.slot_of_root hr
  have hroot : (s.setRoot e r.sent).root e slot = some r.sent := hs ▸ State.root_setRoot (q := r.sent) (hs.symm ▸ hr)
  have hf : s.Feeds ((s.setRoot e r.sent).emit (.inject (144 + e) (s.bcastCell e slot r c (clipChunk d d.inT c w)))) :=
    (State.Feeds.of_eq rfl rfl rfl).trans ((s.setRoot e r.sent).emit_hub_feeds e _)
  refine ⟨_, (congrArg Host.Outcome.next ((if_pos ⟨by omega, by omega⟩).trans k) : execBcastSend e slot s = _), rfl,
    ⟨r.sent, hroot, rfl⟩, ?_⟩
  rw [← hf.sw_eq]
  rfl

/-! ## A member receives (R259) -/

variable {m : Member}

theorem State.slot_of_member (hm : s.member e slot = some m) : m.slot = slot := find?_key hm

theorem State.member_setMember {q : Member} (hm : s.member e q.slot = some m) : (s.setMember e q).member e q.slot = some q := by
  rw [State.member, State.setMember, State.ep_setEp]
  exact find?_map_put Member.slot hm

@[simp] theorem State.now_setMember (s : State) (e : Nat) (q : Member) : (s.setMember e q).now = s.now := rfl

@[simp] theorem State.ort_setMember (s : State) (e : Nat) (q : Member) : ((s.setMember e q).ep e).ort = (s.ep e).ort := by
  simp [State.setMember]

@[simp] theorem State.quietUntil_setMember (s : State) (e : Nat) (q : Member) :
    ((s.setMember e q).ep e).quietUntil = (s.ep e).quietUntil := by simp [State.setMember]

theorem State.HubOnly.now {h : Nat} (k : s.HubOnly t h) : t.now = s.now := by rw [k.frame]; rfl
theorem State.HubOnly.ep {h : Nat} (k : s.HubOnly t h) (e : Nat) : t.ep e = s.ep e := by rw [k.frame]; rfl
theorem State.HubOnly.member {h : Nat} (k : s.HubOnly t h) (e slot : Nat) : t.member e slot = s.member e slot := by rw [k.frame]; rfl

/-- The member's record when a chunk of the broadcast has come. -/
def Member.gets (m : Member) (now c : Nat) : Member := { m with lastBcast := now, have_ := addNew m.have_ c }

/-- The state when a chunk of the broadcast has come and is written. -/
def State.takesChunk (s : State) (e : Nat) (m : Member) (c : Cell) : State :=
  (s.setMember e (m.gets s.now c.chunk)).putChunk e (descOf m.desc) m.region (descOf m.desc).inT (descOf m.desc).n c.chunk c

theorem execBcastReceive_member (he : e < 16) (ht : c.typ = T.BCAST) (hm : s.member e c.slot = some m) (hd : d = descOf m.desc)
    (hb : d.bcast = true) (hx : m.ctx = c.ctx) (hn : c.chunk < d.n) :
    execBcastReceive e c s = .next ((s.takesChunk e m c).doneCheck e c.slot) := by
  subst hd
  have h : (s.member e c.slot).filter (fun m => (descOf m.desc).bcast && m.ctx == c.ctx) = some m := by
    simp [hm, hb, hx]
  refine congrArg Host.Outcome.next ((if_pos ⟨by omega, by omega, ht⟩).trans ?_)
  rw [State.bcastReceive, h]
  exact if_neg (not_le.2 hn)

/-- What a chunk that came leaves: its data in memory, its number among those the member holds. -/
theorem State.takesChunk_holds (he : e < 16) (hm : s.member e c.slot = some m) :
    (s.setMember e (m.gets s.now c.chunk)).HubOnly (s.takesChunk e m c) e ∧
      (s.takesChunk e m c).member e c.slot = some (m.gets s.now c.chunk) := by
  have k := State.HubOnly.putChunk he (s.setMember e (m.gets s.now c.chunk)) (descOf m.desc) m.region (descOf m.desc).inT
    (descOf m.desc).n c.chunk c
  have hs := State.slot_of_member hm
  refine ⟨k, (k.member e c.slot).trans ?_⟩
  rw [← hs]
  exact State.member_setMember (q := m.gets s.now c.chunk) (hs.symm ▸ hm)

theorem mem_addNew (l : List Nat) (x : Nat) : x ∈ addNew l x := by
  unfold addNew
  split
  · rename_i h
    exact List.contains_iff_mem.1 h
  · simp

/-- A member that lacks chunks sends no DONE. -/
theorem State.doneCheck_lacking (hm : s.member e slot = some m) (hn : m.have_.length < (descOf m.desc).n) :
    s.doneCheck e slot = s := by
  simp [State.doneCheck, hm, not_le.2 hn]

theorem bcastReceive_keeps (he : e < 16) (ht : c.typ = T.BCAST) (hm : s.member e c.slot = some m) (hd : d = descOf m.desc)
    (hb : d.bcast = true) (hx : m.ctx = c.ctx) (hn : c.chunk < d.n) (hl : (addNew m.have_ c.chunk).length < d.n)
    (hw : Memory.wf s.mem = true) (hu : s.unmirrored e) : Answers (.bcastReceive e c) s fun t =>
      (∃ m', t.member e c.slot = some m' ∧ c.chunk ∈ m'.have_ ∧ m'.lastBcast = s.now ∧ m'.doneSent = m.doneSent) ∧
      t.hubRead e (d.dataAt m.region d.inT c.chunk) (d.bytes d.inT) = bytesAt (lineBytes c.payload) 0 (d.bytes d.inT) ∧
      t.out = s.out ∧ t.regs = s.regs := by
  have k := execBcastReceive_member he ht hm hd hb hx hn
  subst hd
  obtain ⟨ho, hmem⟩ := State.takesChunk_holds he hm
  rw [State.doneCheck_lacking hmem hl] at k
  exact ⟨_, k, ⟨_, hmem, mem_addNew _ _, rfl, rfl⟩,
    State.hubRead_putChunk (s := s.setMember e (m.gets s.now c.chunk)) he hw hu _ _ _ hn c, ho.out, ho.regs⟩

/-! ## Cells entered while the end-point is quiet (R176) -/

variable {P : Outst → Prop} {n k : Nat}

/-- From s to t end-point e entered n cells that satisfy P, and sent none. -/
structure State.Enters (s t : State) (e : Nat) (P : Outst → Prop) (n : Nat) : Prop where
  frame : t = { s with eps := t.eps }
  quiet : (t.ep e).quietUntil = (s.ep e).quietUntil
  members : (t.ep e).members = (s.ep e).members
  ort : ∃ os, (t.ep e).ort = (s.ep e).ort ++ os ∧ os.length = n ∧ ∀ o ∈ os, P o

theorem State.Enters.now (h : s.Enters t e P n) : t.now = s.now := by rw [h.frame]; rfl

theorem State.Enters.isQuiet (h : s.Enters t e P n) (hq : s.now < (s.ep e).quietUntil) : t.now < (t.ep e).quietUntil := by
  rwa [h.now, h.quiet]

theorem State.Enters.member (h : s.Enters t e P n) (slot : Nat) : t.member e slot = s.member e slot := by
  rw [State.member, State.member, h.members]

theorem State.Enters.rfl_ (s : State) (e : Nat) (P : Outst → Prop) : s.Enters s e P 0 := ⟨rfl, rfl, rfl, [], by simp⟩

theorem State.Enters.trans (h : s.Enters t e P n) (l : t.Enters u e P k) : s.Enters u e P (n + k) where
  frame := l.frame.trans (by rw [h.frame])
  quiet := l.quiet.trans h.quiet
  members := l.members.trans h.members
  ort := by
    obtain ⟨os, ho, hn, hp⟩ := h.ort
    obtain ⟨ps, lo, ln, lp⟩ := l.ort
    exact ⟨os ++ ps, by rw [lo, ho, List.append_assoc], by rw [List.length_append, hn, ln],
      fun o hm => (List.mem_append.1 hm).elim (hp o) (lp o)⟩

/-- A loop whose every turn enters one cell. -/
theorem State.Enters.forEach {α : Type} {f : State → α → State} {l : List α}
    (hf : ∀ s : State, s.now < (s.ep e).quietUntil → ∀ a ∈ l, s.Enters (f s a) e P 1) (hq : s.now < (s.ep e).quietUntil) :
    s.Enters (s.forEach l f) e P l.length := by
  induction l generalizing s with
  | nil => exact .rfl_ s e P
  | cons a l ih =>
    have h := hf s hq a List.mem_cons_self
    have k := h.trans (ih (fun s hs a ha => hf s hs a (List.mem_cons_of_mem _ ha)) (h.isQuiet hq))
    rwa [Nat.add_comm] at k

/-- A quiet end-point transmits nothing. -/
theorem State.transmit_quiet (hq : s.now < (s.ep e).quietUntil) (key : Nat) : s.transmit e key = s := by
  dsimp only [State.transmit]
  split
  · rfl
  · simp [hq]

theorem State.forEach_transmit_quiet (hq : s.now < (s.ep e).quietUntil) (l : List Outst) :
    s.forEach l (fun s o => s.transmit e o.key) = s :=
  State.forEach_keeps (P := (· = s)) (fun _ o h => h ▸ State.transmit_quiet hq o.key) l s rfl

/-- New cells at the tail of a quiet end-point's table. -/
theorem State.Enters.append (s : State) (e : Nat) {os : List Outst} (hp : ∀ o ∈ os, P o) (reqs : List Request) (next : Nat) :
    s.Enters (s.setEp e { s.ep e with reqs := reqs, ort := (s.ep e).ort ++ os, nextKey := next }) e P os.length :=
  ⟨rfl, by simp, by simp, os, by simp, rfl, hp⟩

/-! ## DONE to every plane (R245, R259) -/

/-- A DONE of a member. -/
def Outst.isDone (m : Member) (o : Outst) : Prop :=
  o.cell.typ = T.JOIN ∧ o.cell.slot = m.slot ∧ field (lineBytes o.cell.payload) 14 1 = 1

theorem field_one (l : List Byte) (o : Nat) : field l o 1 = (l.getD o 0).toNat := by
  have h := getD_bytesAt l o (i := 0) (n := 1) (by decide)
  have hl := length_bytesAt l o 1
  rw [Nat.add_zero] at h
  rw [field, ← h]
  obtain ⟨b, hb⟩ := List.length_eq_one_iff.1 hl
  simp [hb, leNat]

/-- The kind of a JOIN is byte 14 of its payload. -/
theorem kind_joinPayload (a b c n : Nat) :
    field (lineBytes (lineOf (leBytes a 8 ++ leBytes b 4 ++ leBytes c 2 ++ leBytes n 1))) 14 1 = n % 256 := by
  rw [field_one, getD_lineBytes _ (by decide), lineByte_lineOf _ (by decide),
    List.getD_append_right _ _ _ _ (by simp)]
  simp [leBytes]

theorem State.sendJoin_enters (hq : s.now < (s.ep e).quietUntil) (m : Member) (p : Nat) :
    s.Enters (s.sendJoin e m 1 p) e (Outst.isDone m) 1 := by
  have k := State.Enters.append (P := Outst.isDone m) s e
    (os := [{ key := (s.ep e).nextKey, req := 2 ^ 64, plane := if e < 16 then s.plane else p
              cell := { typ := T.JOIN, cls := clsBE, ctx := m.ctx, slot := m.slot, chunk := p, dst := 384 + p, src := s.epId e
                        payload := lineOf (leBytes (descHash m.desc) 8 ++ leBytes m.iseq 4 ++ leBytes m.group 2 ++ leBytes 1 1) } }])
    (fun o ho => by
      obtain rfl := List.mem_singleton.1 ho
      exact ⟨rfl, rfl, kind_joinPayload _ _ _ _⟩) (s.ep e).reqs ((s.ep e).nextKey + 1)
  rw [State.sendJoin, State.enterColl, State.transmit_quiet (k.isQuiet hq)]
  exact k

theorem State.sendJoins_enters (hq : s.now < (s.ep e).quietUntil) (m : Member) :
    s.Enters (s.sendJoins e m 1) e (Outst.isDone m) (descOf m.desc).planes.length :=
  State.Enters.forEach (fun _ h p _ => State.sendJoin_enters h m p) hq

theorem State.doneCheck_complete (hm : s.member e slot = some m) (hb : (descOf m.desc).bcast = true)
    (hn : (descOf m.desc).n ≤ m.have_.length) (hd : m.doneSent = false) (ha : m.aborted = false) :
    s.doneCheck e slot = (s.setMember e { m with doneSent := true }).sendJoins e m 1 := by
  simp [State.doneCheck, hm, hb, hn, hd, ha]

theorem bcastReceive_completes (he : e < 16) (ht : c.typ = T.BCAST) (hm : s.member e c.slot = some m) (hd : d = descOf m.desc)
    (hb : d.bcast = true) (hx : m.ctx = c.ctx) (hn : c.chunk < d.n) (hl : d.n ≤ (addNew m.have_ c.chunk).length)
    (hs : m.doneSent = false) (ha : m.aborted = false) (hq : s.now < (s.ep e).quietUntil) :
    Answers (.bcastReceive e c) s fun t =>
      (∃ m', t.member e c.slot = some m' ∧ m'.doneSent = true) ∧
      (∃ os, (t.ep e).ort = (s.ep e).ort ++ os ∧ os.length = d.planes.length ∧
        ∀ o ∈ os, o.cell.typ = T.JOIN ∧ o.cell.slot = m.slot ∧ field (lineBytes o.cell.payload) 14 1 = 1) := by
  have k := execBcastReceive_member he ht hm hd hb hx hn
  subst hd
  obtain ⟨ho, hmem⟩ := State.takesChunk_holds he hm
  rw [State.doneCheck_complete hmem hb hl hs ha] at k
  have hq' : ((s.takesChunk e m c).setMember e { m.gets s.now c.chunk with doneSent := true }).now <
      (((s.takesChunk e m c).setMember e { m.gets s.now c.chunk with doneSent := true }).ep e).quietUntil := by
    rwa [State.now_setMember, State.quietUntil_setMember, ho.now, ho.ep, State.now_setMember, State.quietUntil_setMember]
  have j := State.sendJoins_enters hq' (m.gets s.now c.chunk)
  have hort := j.ort
  rw [State.ort_setMember, ho.ep, State.ort_setMember] at hort
  refine ⟨_, k, ⟨{ m.gets s.now c.chunk with doneSent := true }, ?_, rfl⟩, hort⟩
  have hslot := State.slot_of_member hm
  rw [← hslot] at hmem ⊢
  exact (j.member m.slot).trans (State.member_setMember (q := { m.gets s.now c.chunk with doneSent := true }) hmem)

/-! ## Recovery (R259) -/

/-- A READ of a member from a root that has not gone yet. -/
def Outst.isRead (root ctx : Nat) (o : Outst) : Prop :=
  o.cell.typ = T.READ ∧ o.cell.dst = root ∧ o.cell.ctx = ctx ∧ o.sent = none

/-- A range that a translation entry lets the member read can be read in part. -/
theorem State.mayRead_part {ctx a b : Nat} (h : s.mayRead e ctx a n = true) (ha : a ≤ b) (hb : b + k ≤ a + n) :
    s.mayRead e ctx b k = true := by
  simp only [State.mayRead, List.any_eq_true, Bool.and_eq_true, decide_eq_true_eq] at h ⊢
  obtain ⟨w, hw, ⟨hx, hl⟩, hr⟩ := h
  exact ⟨w, hw, ⟨hx, hl.trans ha⟩, hb.trans hr⟩

/-- Bytes within a line are read with one cell. -/
theorem cellsOf_line {r : MemReq} {src dst o : Nat} (hr : r.op = 1) (hn : 0 < r.len) (ho : o % 64 + r.len ≤ 64) :
    ∃ x, cellsOf r src dst o 0 1 true = [x] ∧ x.typ = T.READ ∧ x.dst = dst ∧ x.ctx = r.ctx := by
  have hl : (o + r.len + 63) / 64 - o / 64 = 1 := by omega
  simp [cellsOf, hl, hr]

/-- Taking a key enters no cell. -/
theorem State.Enters.nextKey (s : State) (e : Nat) (P : Outst → Prop) (v : Nat) :
    s.Enters (s.setEp e { s.ep e with nextKey := v }) e P 0 := ⟨rfl, by simp, by simp, [], by simp⟩

/-- A quiet end-point's request enters its cells. -/
theorem State.enterCells_enters (hq : s.now < (s.ep e).quietUntil) {q : Request} (hc : q.covered = []) (l : List Cell) (i : Bool)
    (far : Nat) (hp : ∀ x ∈ l, ∀ o : Outst, o.cell = x → o.sent = none → P o) :
    s.Enters (s.enterCells e q l i far) e P l.length := by
  have k := State.Enters.append (P := P) s e
    (os := l.mapIdx fun j x =>
      { key := (s.ep e).nextKey + j, req := q.id, cell := x, interRack := i, held := !q.covered.isEmpty, orBe := q.dest.mirrors
        plane := (s.choosePlane e far (q.ga % 2 ^ 44)).getD 0 })
    (fun o ho => by
      obtain ⟨j, hj, rfl⟩ := List.mem_mapIdx.1 ho
      exact hp _ (List.getElem_mem hj) _ rfl rfl)
    ((s.ep e).reqs ++ [{ q with cells := l.length }]) ((s.ep e).nextKey + l.length)
  rw [List.length_mapIdx] at k
  have hh : (!q.covered.isEmpty) = false := by rw [hc]; rfl
  rw [State.enterCells]
  simp only [hh, Bool.false_eq_true, if_false] at k ⊢
  rwa [State.forEach_transmit_quiet (k.isQuiet hq)]

/-- A piece within a line enters one READ. -/
theorem State.recoverPiece_enters (hq : s.now < (s.ep e).quietUntil) (m : Member) (chunk root dst : Nat) {src : Nat} (hn : 0 < n)
    (ho : src % 64 + n ≤ 64) : s.Enters (s.recoverPiece e m chunk root src dst n) e (Outst.isRead root m.ctx) 1 := by
  obtain ⟨x, hx, ht, hd, hc⟩ := cellsOf_line (r := { observer := m.observer, ctx := m.ctx, op := 1, len := n })
    (src := s.epId e) (dst := root) (o := src) rfl hn ho
  have j := State.Enters.nextKey s e (Outst.isRead root m.ctx) ((s.ep e).nextKey + 1)
  have k := j.trans (State.enterCells_enters (j.isQuiet hq)
    (q := { id := (s.ep e).nextKey, r := { observer := m.observer, ctx := m.ctx, op := 1, len := n }
            ga := s.epRack e * 2 ^ 56 + root * 2 ^ 44 + src, base := src, dest := .bcast m.slot chunk dst, core := m.core
            at_ := s.now }) rfl [x] false root fun y hy o ho hs => by
      obtain rfl := List.mem_singleton.1 hy
      exact ⟨ho ▸ ht, ho ▸ hd, ho ▸ hc, hs⟩)
  rw [State.recoverPiece, hx]
  exact k

/-- The reads of a missing chunk: place in the root's memory, place in the member's, length. -/
def Desc.reads (d : Desc) (m : Member) (c : Nat) : List (Nat × Nat × Nat) :=
  (linePieces (d.dataAt m.sourceBase d.inT (d.index c)) (d.bytes d.inT)).map
      (fun a => (a.1, d.dataAt m.region d.inT c + a.2.1, a.2.2)) ++
    (linePieces (d.scaleAt m.sourceBase d.inT (d.count (c % 16)) (d.index c)) (d.scaleBytes d.inT)).map
      fun a => (a.1, d.scaleAt m.region d.inT d.n c + a.2.1, a.2.2)

theorem Desc.of_mem_reads {p : Nat × Nat × Nat} (hp : p ∈ d.reads m n) : 0 < p.2.2 ∧ p.1 % 64 + p.2.2 ≤ 64 := by
  simp only [Desc.reads, List.mem_append, List.mem_map] at hp
  obtain ⟨q, hq, rfl⟩ | ⟨q, hq, rfl⟩ := hp
  · obtain ⟨-, -, h, hn⟩ := of_mem_linePieces hq
    exact ⟨hn, h⟩
  · obtain ⟨-, -, h, hn⟩ := of_mem_linePieces hq
    exact ⟨hn, h⟩

/-- A chunk has data. -/
theorem Desc.bytes_pos (d : Desc) : 0 < d.bytes d.inT := by
  have hc (t : Nat) : 8 ≤ typeCount t := by
    unfold typeCount
    split_ifs <;> decide
  have hw : 4 ≤ typeWidth d.inT := by
    unfold typeWidth
    split_ifs <;> decide
  have hk : 8 ≤ d.k := le_min (hc _) (hc _)
  have := Nat.mul_le_mul hk hw
  rw [Desc.bytes]
  omega

theorem Desc.reads_ne_nil (d : Desc) (m : Member) (c : Nat) : d.reads m c ≠ [] := by
  obtain ⟨p, hp, -⟩ := linePieces_cover (Nat.le_refl (d.dataAt m.sourceBase d.inT (d.index c)))
    (Nat.lt_add_of_pos_right d.bytes_pos)
  exact List.append_ne_nil_of_left_ne_nil (List.ne_nil_of_mem (List.mem_map_of_mem hp)) _

/-- A member that may read the chunk's data and scales may read each line of them. -/
theorem State.mayRead_reads {ctx g : Nat} (hd : s.mayRead e ctx (g + d.dataAt m.sourceBase d.inT (d.index n)) (d.bytes d.inT) = true)
    (hs : 0 < d.scaleBytes d.inT →
      s.mayRead e ctx (g + d.scaleAt m.sourceBase d.inT (d.count (n % 16)) (d.index n)) (d.scaleBytes d.inT) = true)
    {p : Nat × Nat × Nat} (hp : p ∈ d.reads m n) : s.mayRead e ctx (g + p.1) p.2.2 = true := by
  simp only [Desc.reads, List.mem_append, List.mem_map] at hp
  obtain ⟨q, hq, rfl⟩ | ⟨q, hq, rfl⟩ := hp
  · obtain ⟨ho, hn, -, -⟩ := of_mem_linePieces hq
    exact State.mayRead_part hd (by dsimp only; omega) (by dsimp only; omega)
  · obtain ⟨ho, hn, -, hl⟩ := of_mem_linePieces hq
    exact State.mayRead_part (hs (by omega)) (by dsimp only; omega) (by dsimp only; omega)

/-- The member's record while it waits for the reads of a chunk. -/
def Member.recovers (m : Member) (c : Nat) : Member :=
  { m with recovering := kset m.recovering c ((descOf m.desc).reads m c).length }

/-- A chunk whose every line the member may read is read whole. -/
theorem State.recoverChunk_allowed (hm : s.member e slot = some m) (hd : d = descOf m.desc)
    (hp : s.choosePlane e (d.rootOn (n % 16)) (d.dataAt m.sourceBase d.inT (d.index n)) ≠ none)
    (hr : ∀ p ∈ d.reads m n,
      s.mayRead e m.ctx (s.epRack e * 2 ^ 56 + d.rootOn (n % 16) * 2 ^ 44 + p.1) p.2.2 = true) :
    s.recoverChunk e slot n = (s.setMember e (m.recovers n)).forEach (d.reads m n) fun s a =>
      s.recoverPiece e (m.recovers n) n (d.rootOn (n % 16)) a.1 a.2.1 a.2.2 := by
  subst hd
  have hf := List.filter_eq_self.2 hr
  rw [Desc.reads] at hf
  unfold State.recoverChunk
  rw [hm]
  simp only [Option.isNone_iff_eq_none, if_neg hp, hf, lt_irrefl, decide_false, Bool.false_eq_true, if_false]
  rfl

theorem State.recoverChunk_enters (hq : s.now < (s.ep e).quietUntil) (m : Member) (n root : Nat) :
    (s.setMember e (m.recovers n)).Enters ((s.setMember e (m.recovers n)).forEach ((descOf m.desc).reads m n) fun s a =>
      s.recoverPiece e (m.recovers n) n root a.1 a.2.1 a.2.2) e (Outst.isRead root m.ctx) ((descOf m.desc).reads m n).length :=
  State.Enters.forEach (fun _ hs a ha => State.recoverPiece_enters hs (m.recovers n) n root a.2.1 (Desc.of_mem_reads ha).1
    (Desc.of_mem_reads ha).2) (by rwa [State.now_setMember, State.quietUntil_setMember])

/-- The member of a broadcast of one chunk that has not come for 4 frames recovers it. -/
theorem execBcastRecovery_one (he : e < 18) (h16 : e ≠ 16) (hm : s.member e slot = some m) (hb : (descOf m.desc).bcast = true)
    (hn : (descOf m.desc).n = 1) (ha : m.aborted = false) (hh : m.have_ = []) (hr : m.recovering = [])
    (hl : m.lastBcast + 4 ≤ s.now) : execBcastRecovery e slot s = .next (s.recoverChunk e slot 0) := by
  have hf : (s.member e slot).filter (fun m => (descOf m.desc).bcast && !m.aborted) = some m := by simp [hm, hb, ha]
  have hd : s.doneCheck e slot = s := State.doneCheck_lacking hm (by rw [hh, hn]; decide)
  refine congrArg Host.Outcome.next ((if_neg (by omega)).trans ?_)
  simp only [hf, hd, if_neg (not_lt.2 hl), hh, hr, hn]
  rfl

theorem bcastRecovery_reads {g : Nat} (he : e < 18) (h16 : e ≠ 16) (hm : s.member e slot = some m) (hd : d = descOf m.desc)
    (hb : d.bcast = true) (hn : d.n = 1) (ha : m.aborted = false) (hh : m.have_ = []) (hr : m.recovering = [])
    (hl : m.lastBcast + 4 ≤ s.now) (hg : g = s.epRack e * 2 ^ 56 + d.rootOn 0 * 2 ^ 44) (hq : s.now < (s.ep e).quietUntil)
    (hx : s.mayRead e m.ctx (g + d.dataAt m.sourceBase d.inT 0) (d.bytes d.inT) = true)
    (hy : 0 < d.scaleBytes d.inT → s.mayRead e m.ctx (g + d.scaleAt m.sourceBase d.inT (d.count 0) 0) (d.scaleBytes d.inT) = true)
    (hp : s.choosePlane e (d.rootOn 0) (d.dataAt m.sourceBase d.inT 0) ≠ none) : Answers (.bcastRecovery e slot) s fun t =>
      (∃ os, (t.ep e).ort = (s.ep e).ort ++ os ∧ os ≠ [] ∧
        (∀ o ∈ os, o.cell.typ = T.READ ∧ o.cell.dst = d.rootOn 0 ∧ o.cell.ctx = m.ctx ∧ o.sent = none) ∧
        ∃ m', t.member e slot = some m' ∧ m'.recovering = [(0, os.length)]) ∧ t = { s with eps := t.eps } := by
  subst hd hg
  have hi : (descOf m.desc).index 0 = 0 := ite_self 0
  have k := execBcastRecovery_one he h16 hm hb hn ha hh hr hl
  rw [State.recoverChunk_allowed hm rfl (by rwa [hi]) (fun p => State.mayRead_reads (by rwa [hi]) (by rwa [hi]))] at k
  have j := State.recoverChunk_enters hq m 0 ((descOf m.desc).rootOn 0)
  obtain ⟨os, ho, hs, hos⟩ := j.ort
  rw [State.ort_setMember] at ho
  refine ⟨_, k, ⟨os, ho, ?_, hos, m.recovers 0, ?_, ?_⟩, j.frame⟩
  · exact List.ne_nil_of_length_pos (hs ▸ List.length_pos_of_ne_nil ((descOf m.desc).reads_ne_nil m 0))
  · have hslot := State.slot_of_member hm
    rw [← hslot] at hm ⊢
    exact (j.member m.slot).trans (State.member_setMember (q := m.recovers 0) hm)
  · rw [Member.recovers, hr, hs]
    rfl

/-- Settles O20: a root's cell leaves by its hub's position; a member's writes touch only its hub's memory, so its record says
whether DONE is due; while the end-point is quiet, DONEs and recovery reads are entries at the tail of its table. -/
theorem broadcastRuns : Obligations.BroadcastRuns := fun _ _ =>
  ⟨fun _ _ _ _ _ he hr hd hb hn hg hc hv hw => bcastSend_next he hr hd hb hn hg hc hv hw,
    fun _ _ _ he ht hm hd hb hx hn hl hw hu => bcastReceive_keeps he ht hm hd hb hx hn hl hw hu,
    fun _ _ _ he ht hm hd hb hx hn hl hs ha hq => bcastReceive_completes he ht hm hd hb hx hn hl hs ha hq,
    fun _ _ _ _ he h16 hm hd hb hn ha hh hr hl hg hq hx hy hp =>
      bcastRecovery_reads he h16 hm hd hb hn ha hh hr hl hg hq hx hy hp⟩

end Sys2Proof.Machine
end

/-! # Differences counted past their counter -/
section
namespace Sys2Proof.Machine

/-- A sled in DISCOVERY for 150 ms whose DIFF_GEN holds 65,535, and whose differences, ports that have not trained, no count has
taken in yet. -/
def uncounted : State :=
  { regs := [(R.CP_STATE.addr, BitVec.ofNat 64 SS.DISCOVERY), (R.SG_STATUS.addr, BitVec.ofNat 64 (65535 * 2 ^ 37))]
    tb := { discFor := 150000 } }

/-- The count that settles port 3 raises DIFF_GEN past its width: a free value takes its place and is used up (assumption 9). -/
theorem uncounted_portSettleTimeout : ∃ t, exec (.portSettleTimeout 3) uncounted = .next t ∧ t.free = 1 :=
  ⟨_, rfl, by decide +kernel⟩

/-- Refutes O10: the recount after PORT_SETTLE_TIMEOUT uses up a free value when DIFF_GEN holds 65,535, and the clause of
PORT_SETTLE_TIMEOUT says that the free values stand. -/
theorem not_planIsFollowed : ¬ Obligations.PlanIsFollowed := by
  intro h
  obtain ⟨hplan, -⟩ := h
  obtain ⟨-, -, hsettle, -⟩ := hplan uncounted (by decide +kernel)
  obtain ⟨t, e, -, -, -, -, ht⟩ := hsettle 3 (by decide) (by decide +kernel) (by decide +kernel) (by decide) (by decide +kernel)
  obtain ⟨u, eu, hu⟩ := uncounted_portSettleTimeout
  obtain rfl : u = t := by simpa using eu.symm.trans e
  have hf : u.free = uncounted.free := by rw [ht]
  exact absurd (hu.symm.trans hf) (by decide)

end Sys2Proof.Machine
end

/-! # Accesses gathered into transfers -/
section
namespace Sys2Proof.Machine

variable {s t : State} {b : Batch} {c : Cell} {o : Origin}

/-! ## An access reaches the Tollgate (R156) -/

/-- The far window that an access names, in the active bank. -/
def State.farWindow (s : State) (c : Cell) : Nat := R.FAR_WINDOW.addr (s.activeBank 1) (c.offset / 2 ^ 32 % 4096)

/-- A cell that asks for memory. -/
def IsAccess (c : Cell) : Prop := c.typ = T.READ ∨ c.typ = T.WRITE ∨ c.typ = T.ATOMIC

/-- An access that reaches the Tollgate is checked against its window. -/
theorem State.tollgateReceive_access (hd : c.dst = s.tgId) (hr : s.unitInReset 3 0 = false) (hc : IsAccess c) :
    s.tollgateReceive c =
      if !bitAt (s.reg (s.farWindow c)).toNat 36 ∨ s.eccBad 1 (s.farWindow c) then s.tgSend (nackOf c ST.BAD_PARAM false 0)
      else if !s.allPart c.src ∧ s.partOf c.src ≠ bitsOf (s.reg (s.farWindow c)).toNat 35 32 then
        if s.fbit R.SW_CTL.DENY_NACK then s.tgSend (nackOf c ST.DENIED false 0) else s
      else if c.retx && s.heldOriginal c then s
      else s.tgAccess c (bitsOf (s.reg (s.farWindow c)).toNat 7 0) (bitsOf (s.reg (s.farWindow c)).toNat 9 8)
        (bitsOf (s.reg (s.farWindow c)).toNat 19 10) (bitsOf (s.reg (s.farWindow c)).toNat 31 20) := by
  have answers : ¬(c.typ = T.ACK ∨ c.typ = T.NACK ∨ c.typ = T.RESPONSE) := by
    obtain h | h | h := hc <;> rw [h] <;> decide
  have others : ¬(c.typ ≠ T.READ ∧ c.typ ≠ T.WRITE ∧ c.typ ≠ T.ATOMIC) := by
    rw [← not_or, ← not_or]
    exact not_not_intro hc
  exact (if_neg (by simp [hd, hr])).trans ((if_neg answers).trans (if_neg others))

theorem tollgateReceive_denies (hd : c.dst = s.tgId) (hr : s.unitInReset 3 0 = false) (hc : IsAccess c)
    (hv : bitAt (s.reg (s.farWindow c)).toNat 36 = false) : Answers (.tollgateReceive c) s fun t =>
      t = { s with out := .inject s.ownPos (nackOf c ST.BAD_PARAM false 0) :: s.out
                   sw := { s.sw with feed := s.sw.feed ++ [nackOf c ST.BAD_PARAM false 0] } } :=
  ⟨_, rfl, (State.tollgateReceive_access hd hr hc).trans (if_pos (by simp [hv]))⟩

/-! ## Batches (R157) -/

/-- Gathering an access changes a batch's lines, data, masks and originals alone. -/
theorem gatherInto_eq (b : Batch) (c : Cell) (line : Nat) : ∃ lines data masks,
    gatherInto b c line = { b with lines := lines, data := data, masks := masks, originals := b.originals ++ [c] } := by
  unfold gatherInto
  split
  · exact ⟨_, _, _, rfl⟩
  · exact ⟨_, _, _, rfl⟩

/-- One access does not fill a page. -/
theorem batchFull_gatherInto (hl : b.lines = 0) (hm : b.masks = []) {line : Nat} (h : line < 64) :
    batchFull (gatherInto b c line) = false := by
  by_cases hk : b.kind = 3
  · have hp : 2 ^ line ≤ 2 ^ 63 := Nat.pow_le_pow_right (by decide) (by omega)
    have hb : bitSet 0 line ≠ 2 ^ 64 - 1 := by
      simp only [bitSet, bitAt, Nat.zero_div, Nat.zero_mod]
      change 0 + 2 ^ line ≠ _
      omega
    simpa [batchFull, gatherInto, hk, hl] using hb
  · simp [batchFull, gatherInto, hk, hm, kset]

/-- An empty batch for the far page that an access falls in. -/
def State.emptyBatch (s : State) (c : Cell) (rack space epId base : Nat) : Batch :=
  { id := s.tg.nextKey, kind := batchKind c, rack := rack, space := space, epId := epId
    page := (base * 2 ^ 32 + c.offset % 2 ^ 32) / 4096, ctx := c.ctx, opmod := c.opmod, subtype := c.subtype
    openedAt := s.now, gather := s.gather }

/-- The batch that an access through a window to a far page opens. -/
def State.opened (s : State) (c : Cell) (rack space epId base : Nat) : Batch :=
  gatherInto (s.emptyBatch c rack space epId base) c ((base * 2 ^ 32 + c.offset % 2 ^ 32) % 4096 / 64)

/-- With no batch open an access that gathers opens one, which stays open. -/
theorem State.tgAccess_opens {rack space epId base : Nat} (hs : isSingle c space = false) (hb : s.tg.batches = []) :
    s.tgAccess c rack space epId base =
      s.setTg { s.tg with nextKey := s.tg.nextKey + 1, batches := [s.opened c rack space epId base] } := by
  have hf : batchFull (s.opened c rack space epId base) = false := batchFull_gatherInto rfl rfl (by omega)
  rw [State.opened, State.emptyBatch] at hf ⊢
  simp only [State.tgAccess, hs, hb, List.find?_nil, List.filter_nil, List.length_nil, List.nil_append, hf]
  rfl

theorem tollgateReceive_opens {v : Nat} (hv : v = (s.reg (s.farWindow c)).toNat) (hd : c.dst = s.tgId)
    (hr : s.unitInReset 3 0 = false) (hc : IsAccess c) (hb : bitAt v 36 = true) (he : s.eccBad 1 (s.farWindow c) = false)
    (hp : s.partOf c.src = bitsOf v 35 32) (hx : c.retx = false) (hs : isSingle c (bitsOf v 9 8) = false)
    (hn : s.tg.batches = []) : Answers (.tollgateReceive c) s fun t =>
      (∃ b, t.tg.batches = [b] ∧ b.kind = batchKind c ∧ b.rack = bitsOf v 7 0 ∧ b.epId = bitsOf v 19 10 ∧
        b.page = (bitsOf v 31 20 * 2 ^ 32 + c.offset % 2 ^ 32) / 4096 ∧ b.ctx = c.ctx ∧ b.openedAt = s.now ∧
        b.originals = [c] ∧ b.closing = false) ∧
      t = { s with tg := { s.tg with batches := t.tg.batches, nextKey := s.tg.nextKey + 1 } } := by
  have e : s.tollgateReceive c = s.tgAccess c (bitsOf v 7 0) (bitsOf v 9 8) (bitsOf v 19 10) (bitsOf v 31 20) := by
    rw [State.tollgateReceive_access hd hr hc, ← hv, if_neg (by simp [hb, he]), if_neg (by simp [hp]), hx]
    rfl
  refine ⟨_, congrArg Host.Outcome.next (e.trans (State.tgAccess_opens hs hn)), ⟨_, rfl, ?_⟩, rfl⟩
  obtain ⟨lines, data, masks, ho⟩ := gatherInto_eq (s.emptyBatch c (bitsOf v 7 0) (bitsOf v 9 8) (bitsOf v 19 10) (bitsOf v 31 20))
    c ((bitsOf v 31 20 * 2 ^ 32 + c.offset % 2 ^ 32) % 4096 / 64)
  rw [State.opened, ho]
  exact ⟨rfl, rfl, rfl, rfl, rfl, rfl, rfl, rfl⟩

/-! ## Transfers (R152, R157, R158) -/

/-- What the transfer of a batch waits for: a SINGLE for the earlier transfers of its page and context. -/
def State.waitsOf (s : State) (b : Batch) : List Nat := if b.kind = 4 then s.earlier b else []

/-- The transfer of a batch, as its Tollgate answers for it. -/
def State.originOf (s : State) (b : Batch) : Origin :=
  { tid := s.tg.nextTid, t := s.transferOf b s.tg.nextTid, originals := b.originals, waitsFor := s.waitsOf b
    released := (s.waitsOf b).isEmpty, detourMax := s.tg.detourMax, detourWait := s.tg.detourWait }

/-- The transfer of a batch, as it waits for an uplink. -/
def State.heldOf (s : State) (b : Batch) : HeldTransfer :=
  { key := s.tg.nextKey, t := s.transferOf b s.tg.nextTid, since := s.now, detourMax := s.tg.detourMax
    detourWait := s.tg.detourWait, blocked := !(s.waitsOf b).isEmpty }

/-- A batch is no more, and its transfer stands among the origins. -/
def State.batchTaken (s : State) (b : Batch) : State :=
  s.setTg { s.tg with nextTid := (s.tg.nextTid + 1) % 2 ^ 32, batches := s.tg.batches.filter (·.id != b.id)
                      origins := s.tg.origins ++ [s.originOf b] }

/-- Forming a transfer moves its batch to the origins and the held transfers; the count of it touches registers and the
Almanac. -/
theorem State.formTransfer_eq (s : State) (b : Batch) : ∃ regs al free, s.formTransfer b =
    { s with
      regs := regs, al := al, free := free
      tg := { s.tg with nextTid := (s.tg.nextTid + 1) % 2 ^ 32, batches := s.tg.batches.filter (·.id != b.id)
                        origins := s.tg.origins ++ [s.originOf b], held := s.tg.held ++ [s.heldOf b]
                        nextKey := s.tg.nextKey + 1 } } := by
  obtain ⟨regs, al, free, e⟩ := (State.Tallies.rfl_ (s.batchTaken b)).finc (f := R.TG_STATS.TRANSFERS) (n := 1) |>.almAdd
    (a := 2) (b := 0) (o := 80) (n := 1)
  refine ⟨regs, al, free, ?_⟩
  change (((s.batchTaken b).finc R.TG_STATS.TRANSFERS 1).almAdd 2 0 80 1).holdAs _ _ _ _ = _
  rw [e]
  rfl

/-- The only batch, once buffers allow, becomes a transfer. -/
theorem State.tryClose_only (hb : s.tg.batches = [b]) (hm : s.mayForm = true) : s.tryClose b.id = s.formTransfer b := by
  simp [State.tryClose, hb, hm]

theorem batchClose_forms (hb : s.tg.batches = [b]) (hc : b.closing = true ∨ b.openedAt + b.gather ≤ s.now)
    (hm : s.mayForm = true) : Answers (.batchClose b.id) s fun t => t.tg.batches = [] ∧
      t.tg.nextTid = (s.tg.nextTid + 1) % 2 ^ 32 ∧ t.tg.origins = s.tg.origins ++ [s.originOf b] ∧
      t.tg.held = s.tg.held ++ [s.heldOf b] ∧ t = { s with regs := t.regs, free := t.free, al := t.al, tg := t.tg } := by
  have e : exec (.batchClose b.id) s = .next (s.formTransfer b) := by
    rw [← State.tryClose_only hb hm]
    change Host.Outcome.next _ = _
    simp [hb, hc]
  obtain ⟨regs, al, free, f⟩ := s.formTransfer_eq b
  rw [f] at e
  exact ⟨_, e, by simp [hb], rfl, rfl, rfl, rfl⟩

/-- A SINGLE is released: its origin waits for nothing, and its held transfer may take an uplink. -/
def State.released (s : State) (tid : Nat) : State :=
  s.setTg { s.tg with
    origins := s.tg.origins.map fun x => if x.tid = tid then { x with released := true, waitsFor := [] } else x
    held := s.tg.held.map fun h => if s.ownHeld h tid then { h with blocked := false } else h }

theorem singleRelease_releases (ho : s.tg.origins.find? (·.tid == o.tid) = some o) (hr : o.released = false)
    (hw : ∀ w ∈ o.waitsFor, ∀ x ∈ s.tg.origins, x.tid ≠ w) : Answers (.singleRelease o.tid) s fun t =>
      t.tg.held = s.tg.held.map (fun h => if s.ownHeld h o.tid then { h with blocked := false } else h) ∧
      (∀ x ∈ t.tg.origins, x.tid = o.tid → x.released = true) ∧
      t = { s with tg := { s.tg with origins := t.tg.origins, held := t.tg.held } } := by
  have hn : (o.released || o.waitsFor.any fun w => s.tg.origins.any (·.tid == w)) = false := by
    simpa [hr] using hw
  have e : exec (.singleRelease o.tid) s = .next (s.released o.tid) := by
    change Host.Outcome.next _ = _
    simp only [ho, hn]
    rfl
  refine ⟨_, e, rfl, fun x hx hi => ?_, rfl⟩
  obtain ⟨y, -, rfl⟩ := List.mem_map.1 hx
  split at hi
  next h => rw [if_pos h]
  next h => exact absurd hi h

/-- Settles O11: an access is checked against its window; one access does not fill a page, so its batch stays open; the only
batch has none before it, so it becomes a transfer, which a SINGLE's origin and held transfer name alike. -/
theorem tollgateGathers : Obligations.TollgateGathers := fun _ =>
  ⟨fun _ hd hr hc hv => tollgateReceive_denies hd hr hc hv,
    fun _ _ hv hd hr hc hb he hp hx hs hn => tollgateReceive_opens hv hd hr hc hb he hp hx hs hn,
    fun _ _ hb hc hm hw => hw ▸ batchClose_forms hb hc hm,
    fun _ ho hr hw => singleRelease_releases ho hr hw⟩

end Sys2Proof.Machine
end

/-! # Cells presented and cells sent on uplinks -/
section
namespace Sys2Proof.Machine

variable {s t u : State} {p : Nat}

/-! ## At core input 128 + s (R17) -/

/-- Cells that the Tollgate presents wait at its core input and stand among the outputs, and nothing else changes. -/
theorem State.forEach_tgSend (g : Cell → Cell) (l : List Cell) (s : State) : (s.forEach l fun s c => s.tgSend (g c)) =
    { s with out := (l.map fun c => .inject s.ownPos (g c)).reverse ++ s.out
             sw := { s.sw with feed := s.sw.feed ++ l.map g } } := by
  induction l generalizing s with
  | nil => simp [State.forEach]
  | cons a l ih =>
    refine (ih (s.tgSend (g a))).trans ?_
    simp only [State.tgSend, State.ownSend, List.map_cons, List.reverse_cons, List.append_assoc, List.singleton_append]
    rfl

theorem State.mem_out_forEach_tgSend (g : Cell → Cell) {l : List Cell} (s : State) {c : Cell} (hc : c ∈ l) :
    Out.inject s.ownPos (g c) ∈ (s.forEach l fun s c => s.tgSend (g c)).out := by
  rw [State.forEach_tgSend]
  exact List.mem_append_left _ (List.mem_reverse.2 (List.mem_map.2 ⟨c, hc, rfl⟩))

/-- The frame of the cells that the Tollgate presents after a change of its own record. -/
theorem State.forEach_tgSend_frame (g : Cell → Cell) (l : List Cell) (s : State) (x : Tollgate)
    (h : (s.setTg x).forEach l (fun s c => s.tgSend (g c)) = t) : t = { s with out := t.out, sw := s.fed t, tg := x } := by
  have hf : (s.setTg x).Feeds t := h ▸ State.forEach_feeds (fun s c => s.ownSend_feeds (g c)) l _
  have hs : t.sw = s.fed t := hf.sw_eq
  rw [← hs, ← h, State.forEach_tgSend]
  rfl

/-! ## On ports (R84, R98) -/

/-- A cell waits for a slot of a port, or has left it. -/
def State.Goes (t : State) (p : Nat) (c : Cell) : Prop := c ∈ (t.port p).sendQ ∨ ∃ k, Out.cell p k c ∈ t.out

theorem State.Goes.sendQueued {c : Cell} (h : t.Goes p c) (k : Nat) (d : Cell) : (t.sendQueued p k d).Goes p c := by
  by_cases e : c = d
  · exact .inr ⟨k, e ▸ List.mem_cons_self⟩
  · obtain hq | ⟨j, ho⟩ := h
    · refine .inl ?_
      change c ∈ (State.port (State.setPort t p _) p).sendQ
      rw [State.port_setPort]
      exact (List.mem_erase_of_ne e).2 hq
    · exact .inr ⟨j, List.mem_cons_of_mem _ ho⟩

theorem State.Goes.portPump {c : Cell} (h : t.Goes p c) : (t.portPump p).Goes p c := by
  unfold State.portPump
  split
  · exact h
  · refine State.forEach_keeps (P := fun t => t.Goes p c) (fun u _ h => ?_) _ t h
    split
    · exact h.sendQueued _ _
    · exact h

/-- A cell that is sent goes, and so do the cells sent before it. -/
theorem State.goes_portSend {c d : Cell} (h : c = d ∨ t.Goes p c) : (t.portSend p d).Goes p c := by
  refine State.Goes.portPump ?_
  obtain rfl | hq | ho := h
  · exact .inl (by simp)
  · exact .inl (by simp [hq])
  · exact .inr ho

/-- Every cell of a train goes once the train is sent. -/
theorem State.cellsGo_forEach_portSend (t : State) (p : Nat) (l : List Cell) :
    CellsGo (t.forEach l fun s c => s.portSend p c) p l := fun c hc =>
  (State.forEach_reaches (I := fun _ => True) (P := fun c s => s.Goes p c) (f := fun s c => s.portSend p c) (l := l)
    (fun _ _ _ _ => trivial) (fun _ _ _ _ => State.goes_portSend (.inl rfl))
    (fun _ _ _ _ _ h => State.goes_portSend (.inr h)) trivial).2 c (.inl hc)

theorem State.forEach_portSend_only (t : State) (p : Nat) (l : List Cell) :
    t.PortsOnly (t.forEach l fun s c => s.portSend p c) :=
  State.forEach_keeps (P := t.PortsOnly) (fun u c h => h.trans (u.portSend_only p c)) l t (.rfl_ t)

end Sys2Proof.Machine
end

/-! # Transfers under way -/
section
namespace Sys2Proof.Machine

variable {s t : State} {u k : Nat} {h : HeldTransfer} {l : List HeldTransfer} {x : Transfer} {c : Option Cell}
  {cs : List (Option Cell)} {j : FarJob} {o : Origin}

/-! ## A held transfer leaves (R151, R159) -/

/-- The origins once a held transfer is sent: one of this rack's own counts one more send. -/
def State.markSent (s : State) (h : HeldTransfer) : List Origin :=
  s.tg.origins.map fun o =>
    if h.t.srcRack = s.rack ∧ h.t.kind ≤ 4 ∧ o.tid = h.t.tid then
      { o with firstSent := some (o.firstSent.getD s.now), sends := o.sends + 1 }
    else o

/-- The Tollgate once it has begun the train of a held transfer on an uplink. -/
def State.begun (s : State) (u : Nat) (h : HeldTransfer) : State :=
  (s.setTg { s.tg with
    held := s.tg.held.filter (·.key != h.key), busy := addNew s.tg.busy u, origins := s.markSent h
    trainSeq := (s.tg.trainSeq + 1) % 65536 }).emit (.train u h.t)

/-- The first usable idle productive uplink is the one that a transfer takes. -/
theorem State.chooseUplink_first (hu : u < 16) (ha : s.usable u = true) (hb : u ∉ s.tg.busy)
    (hp : s.productive s.rack h.t.dstRack (s.roleOf u) = true)
    (hf : ∀ v, v < u → (s.usable v && s.productive s.rack h.t.dstRack (s.roleOf v)) = false) :
    s.chooseUplink h = some (u, false) := by
  have e : ((List.range 16).find? fun u =>
      s.usable u && !s.tg.busy.contains u && s.productive s.rack h.t.dstRack (s.roleOf u)) = some u := by
    refine List.find?_range_eq_some.2 ⟨by simp [ha, hb, hp], List.mem_range.2 hu, fun v hv => ?_⟩
    obtain k | k := Bool.and_eq_false_iff.1 (hf v hv)
    · simp [k]
    · simp [k]
  unfold State.chooseUplink
  simp only [e]

/-- The Tollgate once the train before has left an uplink. -/
def State.uplinkFree (s : State) (u : Nat) : State := s.setTg { s.tg with busy := s.tg.busy.filter (· != u) }

/-- The head of the transfers held, when it takes the uplink without a detour, is sent as the cells of its train. -/
theorem State.exec_uplinkDispatch_head (hu : u < 16) (ha : s.usable u = true) (hs : s.steady (144 + u) = true)
    (hi : s.sending u = false) (hh : s.tg.held = h :: l) (hb : h.blocked = false) (hg : h.t.age < 1024)
    (hc : (s.uplinkFree u).chooseUplink h = some (u, false)) :
    exec (.uplinkDispatch u) s = .next (((s.uplinkFree u).begun u h).forEach (trainCells h.t s.tgId s.tg.trainSeq)
      fun s c => s.portSend (144 + u) c) := by
  have hf : (s.uplinkFree u).tg.held.find? (fun h => !h.blocked && decide (h.t.age < 1024) &&
      ((s.uplinkFree u).chooseUplink h).any (·.1 == u)) = some h := by
    rw [show (s.uplinkFree u).tg.held = h :: l from hh, List.find?_cons_of_pos (by simp [hb, hg, hc])]
  refine congrArg Host.Outcome.next ((if_neg (by simp [hu, ha, hs, hi])).trans ?_)
  dsimp only [State.uplinkFree] at hf hc ⊢
  rw [hf]
  simp only [hc]
  rfl

theorem uplinkDispatch_sends (hu : u < 16) (ha : s.usable u = true) (hs : s.steady (144 + u) = true) (hi : s.sending u = false)
    (hh : s.tg.held = h :: l) (hb : h.blocked = false) (hg : h.t.age < 1024)
    (hp : s.productive s.rack h.t.dstRack (s.roleOf u) = true)
    (hf : ∀ v, v < u → (s.usable v && s.productive s.rack h.t.dstRack (s.roleOf v)) = false)
    (hk : ∀ x ∈ l, x.key ≠ h.key) : Answers (.uplinkDispatch u) s fun t => t.tg.held = l ∧ u ∈ t.tg.busy ∧ .train u h.t ∈ t.out ∧
      CellsGo t (144 + u) (trainCells h.t s.tgId s.tg.trainSeq) ∧ t.tg.trainSeq = (s.tg.trainSeq + 1) % 65536 ∧
      t = { s with out := t.out, ports := t.ports, sw := { s.sw with usedOut := t.sw.usedOut }
                   tg := { s.tg with held := l, busy := t.tg.busy, origins := t.tg.origins, trainSeq := t.tg.trainSeq } } := by
  have hc : (s.uplinkFree u).chooseUplink h = some (u, false) :=
    State.chooseUplink_first hu ha (by simp [State.uplinkFree, State.setTg]) hp hf
  have e := State.exec_uplinkDispatch_head hu ha hs hi hh hb hg hc
  have hl : ((s.uplinkFree u).begun u h).tg.held = l := by
    change s.tg.held.filter _ = l
    rw [hh, List.filter_cons_of_neg (by simp), List.filter_eq_self]
    exact fun y hy => by simp [hk y hy]
  obtain ⟨ht, new, ho⟩ := ((s.uplinkFree u).begun u h).forEach_portSend_only (144 + u) (trainCells h.t s.tgId s.tg.trainSeq)
  have hg := ((s.uplinkFree u).begun u h).cellsGo_forEach_portSend (144 + u) (trainCells h.t s.tgId s.tg.trainSeq)
  generalize State.forEach _ (trainCells h.t s.tgId s.tg.trainSeq) _ = w at e ht ho hg
  have htg : w.tg = ((s.uplinkFree u).begun u h).tg := by rw [ht]
  refine ⟨w, e, by rw [htg, hl], ?_, ?_, hg, by rw [htg]; rfl, ?_⟩
  · rw [htg]
    exact mem_addNew _ u
  · rw [ho]
    exact List.mem_append_right _ List.mem_cons_self
  · rw [htg, ← hl]
    exact ht

/-! ## A train arrives (R152, R153, R159, R160) -/

/-- A transfer one hop and one frame older. -/
def hopped (x : Transfer) : Transfer := { x with hops := x.hops + 1, age := x.age + 1 }

theorem trainReceive_broken (ht : trainOf (c :: cs) = none) : exec (.trainReceive u c cs) s = .next s := by
  change Host.Outcome.next _ = _
  rw [ht]

/-- A whole train reaches the Tollgate from a usable steady uplink. -/
theorem exec_trainReceive (ht : trainOf (c :: cs) = some x) (hu : u < 16) (ha : s.usable u = true) (hs : s.steady (144 + u) = true)
    (hr : s.unitInReset 3 0 = false) : exec (.trainReceive u c cs) s = .next (s.trainReceive x) := by
  change Host.Outcome.next _ = _
  rw [ht]
  simp [hu, ha, hs, hr]

/-- A transfer within its budget and its age, for which a buffer is free. -/
def State.Welcomes (s : State) (x : Transfer) : Prop := x.hops + 1 ≤ x.budget ∧ x.age + 1 < 1024 ∧ s.buffersUsed < 512

theorem State.trainReceive_welcome (hx : s.Welcomes x) :
    s.trainReceive x = if x.dstRack = s.rack then s.farArrive (hopped x) else s.hold (hopped x) := by
  obtain ⟨hb, hg, hu⟩ := hx
  exact (if_neg (Nat.not_lt.2 hb)).trans ((if_neg (Nat.not_le.2 hg)).trans (if_neg (Nat.not_le.2 hu)))

/-- A transfer as it is held under the settings in force. -/
def State.heldNow (s : State) (x : Transfer) : HeldTransfer :=
  { key := s.tg.nextKey, t := x, since := s.now, detourMax := s.tg.detourMax, detourWait := s.tg.detourWait }

theorem State.trainReceive_holds (hx : s.Welcomes x) (hd : x.dstRack ≠ s.rack) : s.trainReceive x =
    { s with tg := { s.tg with held := s.tg.held ++ [s.heldNow (hopped x)], nextKey := s.tg.nextKey + 1 } } :=
  (State.trainReceive_welcome hx).trans (if_neg hd)

theorem State.trainReceive_overBudget (hw : s.regsWf = true) (hb : x.budget < x.hops + 1) :
    Sets s (s.trainReceive x) [(R.TG_STATS.BUDGET, min (s.fget R.TG_STATS.BUDGET + 1)
      (2 ^ (R.TG_STATS.BUDGET.hi + 1 - R.TG_STATS.BUDGET.lo) - 1))] ∧
      s.trainReceive x = { s with regs := (s.trainReceive x).regs } := by
  have e : s.trainReceive x = s.fsat R.TG_STATS.BUDGET 1 := if_pos hb
  rw [e]
  exact ⟨State.sets_fset hw (by decide) (by decide) (Nat.lt_of_le_of_lt (Nat.min_le_right _ _) (by decide)), rfl⟩

/-- The cells of a transfer, numbered, and the next SEQ of each destination. -/
def State.numbered (s : State) (x : Transfer) : KV Nat × List Cell :=
  (s.farCells x).foldl (fun (a : KV Nat × List Cell) c =>
    (kset a.1 (c.dst * 16 + s.seqPlaneOf c.dst) ((kgetD a.1 (c.dst * 16 + s.seqPlaneOf c.dst) 0 + 1) % 65536),
      a.2 ++ [{ c with seq := kgetD a.1 (c.dst * 16 + s.seqPlaneOf c.dst) 0 }])) (s.tg.seqs, [])

/-- A fold that appends one element a turn appends as many as there are turns. -/
theorem length_foldl_snd {α β γ : Type} {f : γ × List β → α → γ × List β} (hf : ∀ a c, (f a c).2.length = a.2.length + 1)
    (l : List α) (a : γ × List β) : (l.foldl f a).2.length = a.2.length + l.length := by
  induction l generalizing a with
  | nil => rfl
  | cons c l ih => rw [List.foldl_cons, ih, hf, List.length_cons, Nat.add_assoc, Nat.add_comm 1]

theorem State.length_numbered (s : State) (x : Transfer) : (s.numbered x).2.length = (s.farCells x).length :=
  (length_foldl_snd (fun _ _ => by simp) _ _).trans (Nat.zero_add _)

/-- The work that a transfer for this rack becomes. -/
def State.farJobOf (s : State) (x : Transfer) : FarJob := { key := s.tg.nextKey, t := x, waiting := (s.numbered x).2 }

/-- A transfer neither performed before nor under way becomes work whose cells are presented. -/
theorem State.farArrive_new (hk : x.kind < 5) (hr : ∀ r ∈ s.tg.records, ¬(r.srcRack = x.srcRack ∧ r.tid = x.tid))
    (hj : ∀ j ∈ s.tg.jobs, ¬(j.t.srcRack = x.srcRack ∧ j.t.tid = x.tid))
    (hf : s.tg.records.length + s.tg.jobs.length < 16384) : s.farArrive x =
      (s.setTg { s.tg with seqs := (s.numbered x).1, nextKey := s.tg.nextKey + 1, jobs := s.tg.jobs ++ [s.farJobOf x] }).forEach
        (s.numbered x).2 fun s c => s.tgSend c := by
  have er : (s.tg.records.find? fun r => r.srcRack == x.srcRack && r.tid == x.tid) = none := by simpa using hr
  have ej : (s.tg.jobs.find? fun j => j.t.srcRack == x.srcRack && j.t.tid == x.tid) = none := by simpa using hj
  have hn : ¬16384 ≤ (s.tg.records.filter fun r => decide (s.now < r.at_ + 4096)).length + s.tg.jobs.length := by
    have := List.length_filter_le (fun r : FarRecord => decide (s.now < r.at_ + 4096)) s.tg.records
    omega
  unfold State.farArrive
  rw [if_neg (by omega), er, ej]
  exact if_neg hn

theorem trainReceive_performs (ht : trainOf (c :: cs) = some x) (hu : u < 16) (ha : s.usable u = true)
    (hs : s.steady (144 + u) = true) (hr : s.unitInReset 3 0 = false) (hx : s.Welcomes x) (hd : x.dstRack = s.rack)
    (hk : x.kind < 5) (hn : ∀ r ∈ s.tg.records, ¬(r.srcRack = x.srcRack ∧ r.tid = x.tid))
    (hj : ∀ j ∈ s.tg.jobs, ¬(j.t.srcRack = x.srcRack ∧ j.t.tid = x.tid))
    (hf : s.tg.records.length + s.tg.jobs.length < 16384) : Answers (.trainReceive u c cs) s fun t =>
      (∃ j, t.tg.jobs = s.tg.jobs ++ [j] ∧ j.t = hopped x ∧ j.waiting.length = (s.farCells j.t).length ∧
        ∀ c ∈ j.waiting, Out.inject s.ownPos c ∈ t.out) ∧
      t = { s with out := t.out, sw := s.fed t
                   tg := { s.tg with seqs := t.tg.seqs, nextKey := s.tg.nextKey + 1, jobs := t.tg.jobs } } := by
  have e := (State.trainReceive_welcome hx).trans ((if_pos hd).trans (State.farArrive_new (x := hopped x) hk hn hj hf))
  have k := State.forEach_tgSend_frame id (s.numbered (hopped x)).2 s _ e.symm
  have htg : (s.trainReceive x).tg =
      { s.tg with seqs := (s.numbered (hopped x)).1, nextKey := s.tg.nextKey + 1
                  jobs := s.tg.jobs ++ [s.farJobOf (hopped x)] } := by
    rw [k]
  refine ⟨_, exec_trainReceive ht hu ha hs hr, ⟨s.farJobOf (hopped x), ?_, rfl, s.length_numbered _, fun c hc => ?_⟩, ?_⟩
  · rw [htg]
  · rw [e]
    exact State.mem_out_forEach_tgSend id _ hc
  · rw [htg]
    exact k

/-! ## Work is done (R160, R161) -/

theorem State.kind_answerOf (s : State) (j : FarJob) : (s.answerOf j).kind = 7 ↔ j.status ≠ 0 := by
  unfold State.answerOf
  dsimp only
  split
  · simp_all
  · split <;> simp_all

/-- The record that work leaves. -/
def State.recordOf (s : State) (j : FarJob) : FarRecord :=
  { srcRack := j.t.srcRack, tid := j.t.tid, answer := s.answerOf j, at_ := s.now }

/-- A record is added at the end while there is room. -/
theorem State.addRecord_room {r : FarRecord} (hl : s.tg.records.length < 16384) :
    s.addRecord r = s.setTg { s.tg with records := s.tg.records ++ [r] } := by
  simp [State.addRecord, if_neg (Nat.not_le.2 hl)]

theorem farComplete_answers (hj : (s.tg.jobs.find? fun j => j.key == k && j.waiting.isEmpty) = some j)
    (hl : s.tg.records.length < 16384) : Answers (.farComplete k) s fun t => (∀ x ∈ t.tg.jobs, x.key ≠ k) ∧
      t.tg.records = s.tg.records ++ [s.recordOf j] ∧ t.tg.held = s.tg.held ++ [s.heldNow (s.answerOf j)] ∧
      ((s.answerOf j).kind = 7 ↔ j.status ≠ 0) ∧ t = { s with tg := t.tg } := by
  have e : exec (.farComplete k) s = .next
      (((s.setTg { s.tg with jobs := s.tg.jobs.filter (·.key != k) }).addRecord (s.recordOf j)).hold (s.answerOf j)) := by
    change Host.Outcome.next _ = _
    rw [hj]
    rfl
  rw [State.addRecord_room (by exact hl)] at e
  exact ⟨_, e, fun x hx => by simpa using (List.mem_filter.1 hx).2, rfl, rfl, s.kind_answerOf j, rfl⟩

/-! ## Marks of the origin (R153, R162) -/

/-- The held transfer of a key is dropped, with its origin when it was never sent. -/
def State.dropHeld (s : State) (k : Nat) (h : HeldTransfer) : State :=
  s.setTg { s.tg with
    held := s.tg.held.filter (·.key != k)
    origins := s.tg.origins.filter fun o =>
      !(h.t.srcRack == s.rack && decide (h.t.kind ≤ 4) && o.tid == h.t.tid && o.firstSent.isNone) }

theorem transferAgeDiscard_drops (hh : (s.tg.held.find? fun h => h.key == k && decide (1024 ≤ h.t.age)) = some h) :
    Answers (.transferAgeDiscard k) s fun t => (∀ x ∈ t.tg.held, x.key ≠ k) ∧
      t = { s with regs := t.regs, free := t.free, al := t.al
                   tg := { s.tg with held := t.tg.held, origins := t.tg.origins } } := by
  have e : exec (.transferAgeDiscard k) s = .next (((s.dropHeld k h).finc R.TG_STATS.AGED 1).almAdd 2 0 76 1) := by
    change Host.Outcome.next _ = _
    rw [hh]
    rfl
  obtain ⟨regs, al, free, f⟩ := (State.Tallies.rfl_ (s.dropHeld k h)).finc (f := R.TG_STATS.AGED) (n := 1)
    |>.almAdd (a := 2) (b := 0) (o := 76) (n := 1)
  rw [f] at e
  exact ⟨_, e, fun x hx => by simpa using (List.mem_filter.1 hx).2, rfl⟩

theorem transferResend_holds {f : Nat} (ho : s.tg.origins.find? (·.tid == o.tid) = some o) (hf : o.firstSent = some f)
    (h1 : 1 ≤ o.sends) (h3 : o.sends ≤ 3) (hl : f + 256 * o.sends ≤ s.now) (hn : s.now < f + 1024)
    (hh : ∀ h ∈ s.tg.held, ¬(h.t.srcRack = s.rack ∧ h.t.kind ≤ 4 ∧ h.t.tid = o.tid)) :
    Answers (.transferResend o.tid) s fun t => t = { s with tg := { s.tg with
      held := s.tg.held ++ [{ key := s.tg.nextKey, t := o.t, since := s.now, detourMax := o.detourMax
                              detourWait := o.detourWait }], nextKey := s.tg.nextKey + 1 } } := by
  have hd : s.tg.held.any (s.ownHeld · o.tid) = false := by
    simpa [State.ownHeld, and_assoc] using hh
  refine ⟨s.holdAs o.t o.detourMax o.detourWait false, congrArg Host.Outcome.next ?_, rfl⟩
  simp [ho, hf, h1, h3, hl, hn, hd]

/-- A transfer is forgotten and each of its originals is answered. -/
def State.settle (s : State) (o : Origin) (tid : Nat) (g : Cell → Cell) : State :=
  (s.forget tid).forEach o.originals fun s c => s.tgSend (g c)

theorem State.settle_settles (s : State) (o : Origin) (tid : Nat) (g : Cell → Cell) :
    (∀ y ∈ (s.settle o tid g).tg.origins, y.tid ≠ tid) ∧
      (∀ c ∈ o.originals, Out.inject s.ownPos (g c) ∈ (s.settle o tid g).out) ∧
      s.settle o tid g = { s with out := (s.settle o tid g).out, sw := s.fed (s.settle o tid g)
                                  tg := { s.tg with origins := (s.settle o tid g).tg.origins
                                                    held := (s.settle o tid g).tg.held } } := by
  have k : s.settle o tid g = _ := State.forEach_tgSend_frame g o.originals s (s.forget tid).tg rfl
  have htg : (s.settle o tid g).tg = (s.forget tid).tg := by rw [k]
  refine ⟨fun y hy => ?_, fun c hc => State.mem_out_forEach_tgSend g (s.forget tid) hc, ?_⟩
  · rw [htg] at hy
    simpa using (List.mem_filter.1 hy).2
  · rw [htg]
    exact k

theorem exec_transferGiveUp {f : Nat} (ho : s.tg.origins.find? (·.tid == o.tid) = some o) (hf : o.firstSent = some f)
    (hn : f + 1024 ≤ s.now) :
    exec (.transferGiveUp o.tid) s = .next (s.settle o o.tid fun c => nackOf c ST.LOST true 0) := by
  change Host.Outcome.next _ = _
  simp [ho, hf, hn, State.settle]

theorem exec_transferAnswer (ho : (s.tg.origins.find? fun o => o.tid == x.tid && o.t.dstRack == x.srcRack) = some o)
    (h5 : 5 ≤ x.kind) (h7 : x.kind ≤ 7) (hd : x.dstRack = s.rack) :
    exec (.transferAnswer x) s = .next (s.settle o x.tid (originAnswer x)) := by
  refine congrArg Host.Outcome.next ?_
  rw [ho]
  exact if_neg (by omega)

/-- A TRANSFER_ACK is answered to each original with an ACK. -/
theorem originAnswer_ack (hx : x.kind = 6) (d : Cell) : originAnswer x d = ackOf d := by
  simp [originAnswer, hx]

/-- Settles O12: the transfer at the head leaves on the first productive uplink; a whole train is held or becomes work; a transfer
that is given up or answered is forgotten and each of its originals gets a cell. -/
theorem transfersRun : Obligations.TransfersRun :=
  ⟨fun s => ⟨fun _ _ _ hu ha hs hi hh hb hg hp hf hk => uplinkDispatch_sends hu ha hs hi hh hb hg hp hf hk,
      fun _ _ _ ht => trainReceive_broken ht,
      fun _ _ _ _ ht hu ha hs hr hb hg hm hd =>
        ⟨_, exec_trainReceive ht hu ha hs hr, State.trainReceive_holds ⟨hb, hg, hm⟩ hd⟩,
      fun _ _ _ _ ht hw hu ha hs hr hb => ⟨_, exec_trainReceive ht hu ha hs hr, State.trainReceive_overBudget hw hb⟩,
      fun _ _ _ _ ht hu ha hs hr hb hg hm hd hk hn hj hf =>
        trainReceive_performs ht hu ha hs hr ⟨hb, hg, hm⟩ hd hk hn hj hf,
      fun _ _ hj hl => farComplete_answers hj hl⟩,
    fun s => ⟨fun _ _ hh => transferAgeDiscard_drops hh,
      fun _ _ ho hf h1 h3 hl hn hh => transferResend_holds ho hf h1 h3 hl hn hh,
      fun o _ ho hf hn => ⟨_, exec_transferGiveUp ho hf hn, s.settle_settles o o.tid _⟩,
      fun x o ho h5 h7 hd => by
        obtain ⟨hy, hc, hs⟩ := s.settle_settles o x.tid (originAnswer x)
        exact ⟨_, exec_transferAnswer ho h5 h7 hd, hy, hc, fun h6 d _ => originAnswer_ack h6 d, hs⟩⟩⟩

end Sys2Proof.Machine
end

/-! # Requests that complete and cells that leave an end-point -/
section
namespace Sys2Proof.Machine
open Sys2Proof.Laws

variable {s t u : State} {e : Nat}

/-! ## Counters -/

@[simp] theorem State.ep_finc (s : State) (f : Fld) (n k : Nat) : (s.finc f n).ep k = s.ep k := by
  unfold State.finc
  split <;> rfl

@[simp] theorem State.out_finc (s : State) (f : Fld) (n : Nat) : (s.finc f n).out = s.out := by
  unfold State.finc
  split <;> rfl

@[simp] theorem State.mem_finc (s : State) (f : Fld) (n : Nat) : (s.finc f n).mem = s.mem := by
  unfold State.finc
  split <;> rfl

@[simp] theorem State.ownPos_finc (s : State) (f : Fld) (n : Nat) : (s.finc f n).ownPos = s.ownPos := by
  unfold State.finc
  split <;> rfl

/-! ## What has nothing to do -/

/-- No answer of the chiplet's own atomic unit waits. -/
theorem State.selfPump_idle (h : s.chip.selfAns = []) : s.selfPump = s := by
  have hc : ({ s.chip with selfAns := [] } : Chiplet) = s.chip := by rw [← h]
  rw [State.selfPump, h, hc]
  rfl

/-- An end-point without members and roots sends nothing for them and ends none. -/
theorem State.collPump_idle (hm : (s.ep e).members = []) (hr : (s.ep e).roots = []) : s.collPump e = s := by
  simp [State.collPump, State.forEach, hm, hr]

theorem State.partCheckAll_idle (hm : (s.ep e).members = []) (hr : (s.ep e).roots = []) : s.partCheckAll e = s := by
  simp [State.partCheckAll, State.forEach, hm, hr]

theorem State.collectives_idle (hm : (s.ep e).members = []) (hr : (s.ep e).roots = []) :
    (s.collPump e).partCheckAll e = s := by rw [State.collPump_idle hm hr, State.partCheckAll_idle hm hr]

theorem State.evalWaits_idle (hw : (s.ep e).waits = []) : s.evalWaits e = s := by
  simp [State.evalWaits, State.forEach, hw]

/-! ## A request completes (R164, R184, R208) -/

variable {q : Request} {st : Nat} {d : List (Nat × Byte)}

/-- A request that is neither release nor acquire and advances no milestone hands over its status and its bytes. -/
theorem State.requestDone_plain (hr : q.isRelease = false) (ha : q.isAcquire = false) (hm : q.r.ms = none) (hs : st ≠ ST.LOST)
    (s : State) (e : Nat) : s.requestDone e q st d = s.deliver e q st d := by
  simp [State.requestDone, hr, ha, hm, hs]

/-- The end-point once a request of an observer is lost: LOST_PENDING is set and what waits for the request knows of it. -/
def State.marksLost (s : State) (e : Nat) (q : Request) : State :=
  ((s.setLost e q.r.observer q.r.ctx true).finc (R.EP_STATS.LOST e) 1).coverLost e q.id

theorem State.requestDone_lost (hr : q.isRelease = false) (ha : q.isAcquire = false) (hm : q.r.ms = none) (s : State) (e : Nat) :
    s.requestDone e q ST.LOST d = (s.marksLost e q).deliver e q ST.LOST d := by
  simp [State.requestDone, State.marksLost, hr, ha, hm]

/-- A release that covers a lost request completes with ST_FENCE_LOST and clears LOST_PENDING (R208, R219). -/
theorem State.requestDone_late (hr : q.isRelease = true) (hl : q.lostCov = true) (ha : q.isAcquire = false) (hm : q.r.ms = none)
    (s : State) (e : Nat) : s.requestDone e q st d =
      ((s.setLost e q.r.observer q.r.ctx false).countFenceLost e q.r.observer).deliver e q ST.FENCE_LOST d := by
  simp [State.requestDone, hr, hl, ha, hm, show ST.FENCE_LOST ≠ ST.LOST by decide]

theorem State.deliver_complete {rq tag : Nat} (hd : q.dest = .complete rq tag) (s : State) (e : Nat) :
    s.deliver e q st d = s.emit (.complete rq tag st (d.map (·.2))) := by
  simp [State.deliver, hd]

theorem State.lostPending_setLost (s : State) (e o c : Nat) (v : Bool) : (s.setLost e o c v).lostPending e o c = v := by
  cases v with
  | true => simpa [State.lostPending, State.setLost] using mem_addNew (s.ep e).lost (lostKey e o c)
  | false => simp [State.lostPending, State.setLost]

theorem State.lostPending_marksLost (s : State) (e : Nat) (q : Request) :
    (s.marksLost e q).lostPending e q.r.observer q.r.ctx = true := by
  have h : ((s.marksLost e q).ep e).lost = ((s.setLost e q.r.observer q.r.ctx true).ep e).lost := by
    simp [State.marksLost, State.coverLost]
  rw [State.lostPending, h]
  exact s.lostPending_setLost e q.r.observer q.r.ctx true

theorem State.ort_marksLost (s : State) (e : Nat) (q : Request) : ((s.marksLost e q).ep e).ort = (s.ep e).ort := by
  simp [State.marksLost, State.coverLost, State.setLost]

/-- Marking a loss changes no request's id. -/
theorem State.ids_marksLost (s : State) (e : Nat) (q : Request) :
    ((s.marksLost e q).ep e).reqs.map (·.id) = (s.ep e).reqs.map (·.id) := by
  simp only [State.marksLost, State.coverLost, State.setLost, State.ep_setEp, State.ep_finc, List.map_map]
  refine List.map_congr_left fun a _ => ?_
  dsimp only [Function.comp]
  split <;> rfl

theorem State.members_marksLost (s : State) (e : Nat) (q : Request) :
    ((s.marksLost e q).ep e).members = (s.ep e).members ∧ ((s.marksLost e q).ep e).roots = (s.ep e).roots := by
  simp [State.marksLost, State.coverLost, State.setLost]

/-! ## A cell is answered or lost (R168, R184) -/

variable {key : Nat}

/-- The end-point without the entry of a cell, then without the request it was the last of. -/
def State.freed (s : State) (e key id : Nat) : State :=
  let u := s.setEp e { s.ep e with ort := (s.ep e).ort.filter (·.key != key) }
  u.setEp e { u.ep e with reqs := (u.ep e).reqs.filter (·.id != id) }

theorem State.key_freed (s : State) (e key id : Nat) : ∀ x ∈ ((s.freed e key id).ep e).ort, x.key ≠ key := by
  simp [State.freed]

theorem State.id_freed (s : State) (e key id : Nat) : ∀ x ∈ ((s.freed e key id).ep e).reqs, x.id ≠ id := by
  simp [State.freed]

theorem State.members_freed (s : State) (e key id : Nat) :
    ((s.freed e key id).ep e).members = (s.ep e).members ∧ ((s.freed e key id).ep e).roots = (s.ep e).roots := by
  simp [State.freed]

/-- A request once its last cell has a status. -/
def Request.ended (q : Request) (st : Nat) (unanswered : Bool) : Request :=
  { q with answered := q.answered + 1, status := q.statusAfter st unanswered }

/-- The last cell of a request that fills no cache line and returns nothing ends the request. -/
theorem State.cellDone_last {un : Bool} {req : Nat} (hq : (s.ep e).reqs.find? (·.id == req) = some q)
    (hn : q.cells = q.answered + 1) (hc : q.cacheable = false ∨ q.statusAfter st un ≠ ST.OK)
    (hd : q.statusAfter st un ≠ ST.OK ∨ reqReturns q.r = false) : s.cellDone e key req st un none =
      (s.freed e key q.id).requestDone e (q.ended st un) (q.statusAfter st un) [] := by
  have h1 : (q.cacheable && q.statusAfter st un == ST.OK) = false := by
    obtain h | h := hc <;> simp [h]
  have h2 : ¬(q.statusAfter st un = ST.OK ∧ reqReturns q.r = true) := fun h => hd.elim (absurd h.1) (by simp [h.2])
  simp only [State.cellDone, hq, hn, le_refl, if_true, State.finish, h1, if_neg h2]
  rfl

/-! ## A cell leaves an end-point (R84, R174) -/

variable {c : Cell} {p x : Nat}

/-- From s to t nothing leaves but cells on ports. -/
def State.PortCells (s t : State) : Prop := ∃ l, t.out = l ++ s.out ∧ ∀ o ∈ l, ∃ p k c, o = .cell p k c

theorem State.PortCells.rfl_ (s : State) : s.PortCells s := ⟨[], rfl, by simp⟩

theorem State.PortCells.sendQueued (h : s.PortCells t) (k : Nat) (c : Cell) : s.PortCells (t.sendQueued p k c) := by
  obtain ⟨l, hl, hc⟩ := h
  refine ⟨.cell p k c :: l, congrArg (Out.cell p k c :: ·) hl, fun o ho => ?_⟩
  obtain rfl | ho := List.mem_cons.1 ho
  · exact ⟨p, k, c, rfl⟩
  · exact hc o ho

theorem State.portCells_portSend (s : State) (p : Nat) (c : Cell) : s.PortCells (s.portSend p c) := by
  unfold State.portSend State.portPump
  split
  · exact .rfl_ s
  · refine State.forEach_keeps (P := s.PortCells) (fun u _ h => ?_) _ _ (.rfl_ s)
    split
    · exact h.sendQueued _ _
    · exact h

/-- Cells on ports present nothing at core input 128 + s. -/
theorem State.PortCells.fed (h : s.PortCells t) : s.fed t = s.sw := by
  obtain ⟨l, hl, hc⟩ := h
  have hp : s.presented t = [] := by
    rw [State.presented, hl, List.length_append, Nat.add_sub_cancel, List.take_left, List.filterMap_eq_nil_iff]
    intro o ho
    obtain ⟨p, k, c, rfl⟩ := hc o (List.mem_reverse.1 ho)
    rfl
  rw [State.fed, hp, List.append_nil]

/-- From s to t end-point e sent a cell on plane x: a hub and the control processor present it to the core, the chiplet
queues it at its port. -/
structure State.Sends (s t : State) (e x : Nat) (c : Cell) : Prop where
  hub : e < 16 → t.out = .inject (144 + e) c :: s.out
  own : e = 16 → t.out = .inject s.ownPos c :: s.out
  chip : e = 17 → CellsGo t (160 + x) [c]
  still : e ≠ 17 → t.ports = s.ports ∧ t.sw.usedOut = s.sw.usedOut
  frame : t = { s with out := t.out, ports := t.ports, sw := { s.fed t with usedOut := t.sw.usedOut } }

theorem State.epSend_sends (he : e < 18) (hc : c.collective = false) (s : State) (x : Nat) : s.Sends (s.epSend e x c) e x c := by
  have e0 : s.epSend e x c =
      if e < 16 then s.emit (.inject (144 + e) c) else if e = 16 then s.ownSend c else s.portSend (160 + x) c := by
    simp [State.epSend, hc]
  rw [e0]
  obtain h | rfl | rfl : e < 16 ∨ e = 16 ∨ e = 17 := by omega
  · rw [if_pos h]
    refine ⟨fun _ => rfl, fun _ => by omega, fun _ => by omega, fun _ => ⟨rfl, rfl⟩, ?_⟩
    rw [← (s.emit_hub_feeds e c).sw_eq]
    rfl
  · rw [if_neg (by decide), if_pos rfl]
    refine ⟨fun _ => by omega, fun _ => rfl, fun _ => by omega, fun _ => ⟨rfl, rfl⟩, ?_⟩
    rw [← (s.ownSend_feeds c).sw_eq]
    rfl
  · rw [if_neg (by decide), if_neg (by decide)]
    refine ⟨fun _ => by omega, fun _ => by omega, fun _ => ?_, fun h => absurd rfl h, ?_⟩
    · exact s.cellsGo_forEach_portSend (160 + x) [c]
    · rw [(s.portCells_portSend (160 + x) c).fed]
      exact (s.portSend_only (160 + x) c).1

theorem State.Sends.eps_eq (h : s.Sends t e x c) : t.eps = s.eps := by rw [h.frame]

theorem State.Sends.ep_eq (h : s.Sends t e x c) (k : Nat) : t.ep k = s.ep k := by rw [State.ep, State.ep, h.eps_eq]

theorem State.Sends.mem_eq (h : s.Sends t e x c) : t.mem = s.mem := by rw [h.frame]

end Sys2Proof.Machine
end

/-! # Requests and releases of an end-point -/
section
namespace Sys2Proof.Machine
open Sys2Proof.Laws

variable {s t : State} {e : Nat} {r : MemReq} {q : Request} {x : Xlat}

/-! ## Cells entered at a quiet end-point (R163, R164) -/

/-- A quiet end-point keeps the cells of a request that waits for no other: none is sent. -/
theorem State.enterCells_quiet (hq : s.now < (s.ep e).quietUntil) (hc : q.covered = []) (cs : List Cell) (i : Bool) (far : Nat) :
    ∃ os : List Outst, os.length = cs.length ∧ (∀ o ∈ os, o.sent = none ∧ o.held = false ∧ o.cell ∈ cs) ∧
      s.enterCells e q cs i far = s.setEp e { s.ep e with
        reqs := (s.ep e).reqs ++ [{ q with cells := cs.length }], ort := (s.ep e).ort ++ os
        nextKey := (s.ep e).nextKey + cs.length } := by
  have hh : (!q.covered.isEmpty) = false := by rw [hc]; rfl
  refine ⟨cs.mapIdx fun j c =>
    { key := (s.ep e).nextKey + j, req := q.id, cell := c, interRack := i, held := false, orBe := q.dest.mirrors
      plane := (s.choosePlane e far (q.ga % 2 ^ 44)).getD 0 }, List.length_mapIdx, fun o ho => ?_, ?_⟩
  · obtain ⟨j, hj, rfl⟩ := List.mem_mapIdx.1 ho
    exact ⟨rfl, rfl, List.getElem_mem hj⟩
  · rw [State.enterCells]
    simp only [hh, Bool.false_eq_true, if_false]
    exact State.forEach_transmit_quiet (by simpa [State.now] using hq) _

/-! ## Issue (R172, R173) -/

theorem State.permitted_of_check (h : s.check e r = (ST.OK, some x)) : s.permitted e r = some x ∧ s.checkAt e r x = ST.OK := by
  unfold State.check at h
  split at h
  · cases h
  · next t ht =>
    split at h
    · next hc =>
      cases h
      exact ⟨ht, hc⟩
    · exact absurd (congrArg Prod.snd h) (by simp)

/-- A request that names no milestone is kept as it came. -/
theorem State.r_newReq (hm : r.ms = none) (s : State) (e core : Nat) (d : Dest) : (s.newReq e r core d).r = r := by
  have h : r.ms.map (· % 4096) = r.ms := by rw [hm]; rfl
  rw [State.newReq, h]

theorem State.markBad_none (hb : ∀ w ∈ s.transEntries e, s.badEntry e w = false) : s.markBad e = s := by
  have h : (s.transEntries e).any (s.badEntry e) = false := List.any_eq_false.2 fun w hw => by simp [hb w hw]
  rw [State.markBad, h]
  rfl

/-- The cells of a READ whose lines need not be whole. -/
theorem cellsOf_read (ho : r.op = 1) (src dst base sp v : Nat) : (cellsOf r src dst base sp v false).length =
    lenCells ((lenCode r.len).getD 0) ∧ ∀ c ∈ cellsOf r src dst base sp v false,
      c.typ = T.READ ∧ c.opmod = 1 ∧ c.ctx = r.ctx ∧ c.src = src ∧ c.dst = dst := by
  refine ⟨(List.length_map _).trans List.length_range, fun c hc => ?_⟩
  obtain ⟨p, -, rfl⟩ := List.mem_map.1 hc
  exact ⟨if_pos (by omega), (if_pos (by omega)).trans (if_neg (by omega)), rfl, rfl, rfl⟩

/-- The cells of a READ from a place other than the end-point's own. -/
theorem State.issueAt_read (ho : q.r.op = 1) (hr : q.isRelease = false) (hc : s.checkAt e q.r x = ST.OK)
    (hid : x.ga / 2 ^ 44 % 1024 ≠ s.epId e) (f : LineFault) : ∃ (q' : Request) (cs : List Cell) (i : Bool) (far : Nat),
      s.issueAt e q x f = s.enterCells e q' cs i far ∧ q'.r = q.r ∧ q'.covered = [] ∧
      cs.length = lenCells ((lenCode q.r.len).getD 0) ∧
      ∀ c ∈ cs, c.typ = T.READ ∧ c.opmod = 1 ∧ c.ctx = q.r.ctx ∧ c.src = s.epId e ∧
        (x.ga / 2 ^ 56 = s.epRack e → c.dst = x.ga / 2 ^ 44 % 1024) := by
  have hid' : (x.ga / 2 ^ 44 % 1024 == s.epId e) = false := beq_false_of_ne hid
  simp only [State.issueAt, hc, ne_eq, not_true_eq_false, if_false, hr, hid', ho, Bool.false_eq_true, Bool.and_false,
    Bool.false_and, Nat.reduceLeDiff, false_and, Nat.reduceEqDiff, Nat.reduceBEq]
  obtain ⟨hn, hcs⟩ := cellsOf_read ho (s.epId e)
    (if (x.ga / 2 ^ 56 != s.epRack e) = true then 400 + (s.choosePlane e (x.ga / 2 ^ 44 % 1024) (x.ga % 2 ^ 44)).getD 0
      else x.ga / 2 ^ 44 % 1024)
    (if (x.ga / 2 ^ 56 != s.epRack e) = true then x.window * 2 ^ 32 + x.ga % 2 ^ 44 % 2 ^ 32 else x.ga % 2 ^ 44)
    (if (x.ga / 2 ^ 56 != s.epRack e) = true then 0 else x.ga / 2 ^ 54 % 4) (if s.volatileOn e = true then 1 else 0)
  refine ⟨_, _, _, _, rfl, rfl, rfl, hn, fun c hc => ?_⟩
  obtain ⟨ht, hv, hx, hs, hd⟩ := hcs c hc
  exact ⟨ht, hv, hx, hs, fun hrack => hd.trans (if_neg (by rw [bne_iff_ne, not_not]; exact hrack))⟩

/-- From s to t a READ entered the end-point: its cells wait, and so does it. -/
structure State.Requests (s t : State) (e : Nat) (r : MemReq) (x : Xlat) : Prop where
  ort : ∃ os, (t.ep e).ort = (s.ep e).ort ++ os ∧ os.length = lenCells ((lenCode r.len).getD 0) ∧
    ∀ o ∈ os, o.sent = none ∧ o.held = false ∧ o.cell.typ = T.READ ∧ o.cell.opmod = 1 ∧ o.cell.ctx = r.ctx ∧
      o.cell.src = s.epId e ∧ (x.ga / 2 ^ 56 = s.epRack e → o.cell.dst = x.ga / 2 ^ 44 % 1024)
  reqs : ∃ q, (t.ep e).reqs = (s.ep e).reqs ++ [q] ∧ q.r = r ∧ q.cells = lenCells ((lenCode r.len).getD 0)

/-- An end-point that is quiet enters a volatile READ that passes every check. -/
theorem State.issue_read (ho : r.op = 1) (hm : r.ms = none) (hb : ∀ w ∈ s.transEntries e, s.badEntry e w = false)
    (hc : s.check e r = (ST.OK, some x)) (hid : x.ga / 2 ^ 44 % 1024 ≠ s.epId e) (hq : s.now < (s.ep e).quietUntil)
    (core : Nat) (d : Dest) (f : LineFault) :
    s.Requests (s.issue e r core d f) e r x ∧ s.issue e r core d f = { s with eps := (s.issue e r core d f).eps } := by
  obtain ⟨hp, hk⟩ := State.permitted_of_check hc
  have hr := State.r_newReq hm s e core d
  have hrel : (s.newReq e r core d).isRelease = false := by simp [State.newReq, reqRelease, ho]
  have hp' : (s.takeKey e).permitted e r = some x := hp
  obtain ⟨q', cs, i, far, hi, hqr, hcov, hn, hcs⟩ := State.issueAt_read (s := s.takeKey e) (q := s.newReq e r core d)
    (by rw [hr, ho]) hrel (by rw [hr]; exact hk) hid f
  have hquiet : (s.takeKey e).now < ((s.takeKey e).ep e).quietUntil := by simpa [State.takeKey] using hq
  obtain ⟨os, hos, hout, hen⟩ := State.enterCells_quiet hquiet hcov cs i far
  have h : s.issue e r core d f = (s.takeKey e).enterCells e q' cs i far := by
    simp only [State.issue, State.markBad_none hb, hr, hp', hi]
  rw [h, hen]
  rw [hr] at hn hcs
  refine ⟨⟨⟨os, by simp [State.takeKey], hos.trans hn, fun o ho => ?_⟩,
    { q' with cells := cs.length }, by simp [State.takeKey], hqr.trans hr, hn⟩, rfl⟩
  obtain ⟨hs, hh, hmem⟩ := hout o ho
  exact ⟨hs, hh, hcs o.cell hmem⟩

theorem State.withSet_frame (s : State) (c ctx : Nat) (f : RegSet → RegSet) :
    s.withSet c ctx f = { s with cores := (s.withSet c ctx f).cores } := by
  simp only [State.withSet]
  split
  · rfl
  · split
    · rfl
    · split
      · split <;> rfl
      · rfl

theorem State.holdEngine_frame (s : State) (e id core ctx d : Nat) (r : MemReq) :
    s.holdEngine e id core ctx d r = { s with cores := (s.holdEngine e id core ctx d r).cores } := by
  simp only [State.holdEngine]
  split
  · rfl
  · exact s.withSet_frame _ _ _

theorem requestIssue_enters (he : e < 18) (ho : r.op = 1) (hm : r.ms = none) (ha : s.chip.selfAns = [])
    (hh : s.observerHeld e r.observer r.ctx = false) (hb : ∀ w ∈ s.transEntries e, s.badEntry e w = false)
    (hc : s.check e r = (ST.OK, some x)) (hid : x.ga / 2 ^ 44 % 1024 ≠ s.epId e) (hq : s.now < (s.ep e).quietUntil) :
    ∃ t, exec (.requestIssue e r) s = .next t ∧ s.Requests t e r x ∧ (16 ≤ e → t.cores = s.cores) ∧
      t = { s with eps := t.eps, chip := t.chip, cores := t.cores } := by
  have hn : ¬(18 ≤ e ∨ s.observerHeld e r.observer r.ctx = true) := by simp [hh, he]
  have k (core : Nat) (d : Dest) := State.issue_read ho hm hb hc hid hq core d .clean
  by_cases h16 : e < 16
  · have h : exec (.requestIssue e r) s = .next (s.presentReq e (16 * e + r.observer / 4) r.ctx (r.tag % 32) r) :=
      congrArg Host.Outcome.next ((if_neg hn).trans (if_pos h16))
    obtain ⟨kr, kf⟩ := k (16 * e + r.observer / 4) (.sreg (16 * e + r.observer / 4) r.ctx (r.tag % 32))
    rw [State.presentReq] at h
    generalize s.issue e r (16 * e + r.observer / 4) (.sreg (16 * e + r.observer / 4) r.ctx (r.tag % 32)) .clean = u at h kr kf
    have j := u.holdEngine_frame e (s.ep e).nextKey (16 * e + r.observer / 4) r.ctx (r.tag % 32) r
    refine ⟨_, h, ?_, fun h => by omega, ?_⟩
    · rw [j]
      exact ⟨kr.ort, kr.reqs⟩
    · rw [j, kf]
  · have h : exec (.requestIssue e r) s = .next (s.issue e r (16 * e + r.observer / 4)
        (if e = 17 then .complete r.observer r.tag else .none_) .clean).selfPump :=
      congrArg Host.Outcome.next ((if_neg hn).trans (if_neg h16))
    obtain ⟨kr, kf⟩ := k (16 * e + r.observer / 4) (if e = 17 then .complete r.observer r.tag else .none_)
    generalize s.issue e r (16 * e + r.observer / 4) (if e = 17 then .complete r.observer r.tag else .none_) .clean = u
      at h kr kf
    rw [State.selfPump_idle (by rw [kf]; exact ha)] at h
    refine ⟨u, h, kr, fun _ => by rw [kf], ?_⟩
    rw [kf]

/-- Without a translation a request of the chiplet completes with ST_DENIED (R172). -/
theorem requestIssue_denied (ho : r.op ≤ 1) (hm : r.ms = none) (ha : s.chip.selfAns = [])
    (hh : s.observerHeld 17 r.observer r.ctx = false) (hb : ∀ w ∈ s.transEntries 17, s.badEntry 17 w = false)
    (hl : s.lookup 17 r.ctx r.addr = none) : Answers (.requestIssue 17 r) s fun t =>
      t.out = .complete r.observer r.tag ST.DENIED [] :: s.out ∧ (t.ep 17).ort = (s.ep 17).ort ∧
        (t.ep 17).reqs = (s.ep 17).reqs ∧ t.mem = s.mem := by
  have hr := State.r_newReq hm s 17 (16 * 17 + r.observer / 4) (.complete r.observer r.tag)
  have hp : (s.takeKey 17).permitted 17 r = none := by
    have h : (s.takeKey 17).lookup 17 r.ctx r.addr = none := hl
    rw [State.permitted, h]
    rfl
  have hrel : reqRelease r = false := by simp [reqRelease]; omega
  have hacq : reqAcquire r = false := by simp [reqAcquire]; omega
  have k : s.issue 17 r (16 * 17 + r.observer / 4) (.complete r.observer r.tag) .clean =
      (s.takeKey 17).emit (.complete r.observer r.tag ST.DENIED []) := by
    simp only [State.issue, State.markBad_none hb, hr, hp, State.refuseReq]
    rw [State.requestDone_plain (by exact hrel) (by exact hacq) (by simp [hm]) (by decide)]
    rfl
  have hn : ¬(18 ≤ 17 ∨ s.observerHeld 17 r.observer r.ctx = true) := by rw [hh]; decide
  refine ⟨_, congrArg Host.Outcome.next ((if_neg hn).trans ((if_neg (by decide)).trans
    ((congrArg State.selfPump k).trans (State.selfPump_idle ha)))), rfl, ?_, ?_, rfl⟩
  · simp [State.takeKey]
  · simp [State.takeKey]

/-! ## Transmission (R174, R176) -/

/-- An entry as its cell leaves with a SEQ. -/
def Outst.sending (o : Outst) (n now : Nat) : Outst :=
  { o with cell := { o.cell with seq := n }, seqPlane := seqPlaneFor o.cell.dst o.plane, sent := some now, lastSent := now
           stall := false }

/-- The end-point as the cell of an entry leaves with the next SEQ of its destination. -/
def State.numbers (s : State) (e : Nat) (o : Outst) (n : Nat) : State :=
  s.setEp e { s.ep e with seqs := kset (s.ep e).seqs (o.cell.dst * 16 + seqPlaneFor o.cell.dst o.plane) ((n + 1) % 65536)
                          ort := (s.ep e).ort.map fun a => if a.key = o.key then o.sending n s.now else a }

/-- A best-effort cell that may go leaves. -/
theorem State.transmit_be {key : Nat} {o : Outst} (hf : (s.ep e).ort.find? (·.key == key) = some o) (hs : o.sent = none)
    (hh : o.held = false) (hq : (s.ep e).quietUntil ≤ s.now) (hc : o.cell.collective = false)
    (hp : s.planeUsable e o.plane = true) (hu : ortUsed (s.ep e) < ortCap e)
    (hw : seqFits (s.ep e) o.cell.dst (seqPlaneFor o.cell.dst o.plane) = true) (hb : o.cell.cls = clsBE) {n : Nat}
    (hseq : kgetD (s.ep e).seqs (o.cell.dst * 16 + seqPlaneFor o.cell.dst o.plane) 0 = n) :
    s.transmit e key = (s.numbers e o n).epSend e o.plane { o.cell with seq := n } := by
  have hg : ¬o.cell.cls = clsG := by rw [hb]; decide
  have hn : ¬s.now < (s.ep e).quietUntil := by omega
  have hcap : ¬ortCap e ≤ ortUsed (s.ep e) := by omega
  have hk : o.key = key := find?_key hf
  have hcell (n : Nat) : ({ o.cell with seq := n, cls := clsBE } : Cell) = { o.cell with seq := n } := by rw [← hb]
  simp only [State.transmit, hf, hs, hh, hn, hc, hp, hcap, hw, hg, Option.isSome_none, Bool.or_self, decide_false,
    Bool.false_eq_true, if_false, Bool.false_and, if_true, Bool.not_true, State.useResv, hcell,
    State.numbers, Outst.sending, hk, hseq]

theorem requestTransmit_sends {key : Nat} {o : Outst} (he : e < 18) (hf : (s.ep e).ort.find? (·.key == key) = some o)
    (hs : o.sent = none) (hh : o.held = false) (hq : (s.ep e).quietUntil ≤ s.now) (hc : o.cell.collective = false)
    (hp : s.planeUsable e o.plane = true) (hu : ortUsed (s.ep e) < ortCap e)
    (hw : seqFits (s.ep e) o.cell.dst (seqPlaneFor o.cell.dst o.plane) = true) (hb : o.cell.cls = clsBE) :
    Answers (.requestTransmit e key) s fun t => ∃ n c, c = { o.cell with seq := n } ∧
      n = kgetD (s.ep e).seqs (o.cell.dst * 16 + seqPlaneFor o.cell.dst o.plane) 0 ∧
      kgetD (t.ep e).seqs (o.cell.dst * 16 + seqPlaneFor o.cell.dst o.plane) 0 = (n + 1) % 65536 ∧
      (∃ o', (t.ep e).ort.find? (·.key == key) = some o' ∧ o'.cell = c ∧ o'.sent = some s.now) ∧
      (e < 16 → t.out = .inject (144 + e) c :: s.out) ∧ (e = 16 → t.out = .inject s.ownPos c :: s.out) ∧
      (e = 17 → CellsGo t (160 + o.plane) [c]) ∧ (e ≠ 17 → t.ports = s.ports ∧ t.sw.usedOut = s.sw.usedOut) ∧
      t = { s with eps := t.eps, out := t.out, ports := t.ports, sw := { s.fed t with usedOut := t.sw.usedOut } } := by
  have k : exec (.requestTransmit e key) s = .next (s.transmit e key) := congrArg Host.Outcome.next (if_neg (by omega))
  obtain ⟨n, hn⟩ : ∃ n, n = kgetD (s.ep e).seqs (o.cell.dst * 16 + seqPlaneFor o.cell.dst o.plane) 0 := ⟨_, rfl⟩
  rw [State.transmit_be hf hs hh hq hc hp hu hw hb hn.symm] at k
  have h := (s.numbers e o n).epSend_sends (c := { o.cell with seq := n }) he hc o.plane
  have hk : o.key = key := find?_key hf
  refine ⟨_, k, n, _, rfl, hn, ?_, ⟨o.sending n s.now, ?_, rfl, rfl⟩, h.hub, h.own, h.chip, h.still,
    h.frame.trans (by rw [h.eps_eq]; rfl)⟩
  · rw [h.ep_eq, State.numbers, State.ep_setEp, kgetD_kset_self]
  · rw [h.ep_eq, State.numbers, State.ep_setEp, ← hk]
    exact find?_map_put Outst.key (y := o.sending n s.now) (by rwa [← hk] at hf)

/-! ## Releases (R178, R180, R208) -/

/-- The end-point as a release's cells may go. -/
def State.unheld (s : State) (e req : Nat) (q : Request) : State :=
  s.setEp e { s.ep e with
    reqs := (s.ep e).reqs.map fun a => if a.id = req then { q with covered := [] } else a
    ort := (s.ep e).ort.map fun o => if o.req = req then { o with held := false } else o }

variable {req : Nat}

theorem releaseSend_releases (he : e < 18) (ha : s.chip.selfAns = []) (hf : (s.ep e).reqs.find? (·.id == req) = some q)
    (hc : q.covered ≠ []) (hd : s.allDone e q.covered = true) (hl : q.lostCov = false) (hx : q.direct = false)
    (hq : s.now < (s.ep e).quietUntil) : Answers (.releaseSend e req) s fun t =>
      (∀ o ∈ (t.ep e).ort, o.req = req → o.held = false) ∧ (∃ q' ∈ (t.ep e).reqs, q'.id = req ∧ q'.covered = []) ∧
        (t.ep e).ort.length = (s.ep e).ort.length ∧ t = { s with eps := t.eps, chip := t.chip } := by
  have he' : q.covered.isEmpty = false := by simpa using hc
  have hquiet : (s.unheld e req q).now < ((s.unheld e req q).ep e).quietUntil := by simpa [State.unheld] using hq
  have k : s.releaseSend e req = s.unheld e req q := by
    have hw : ¬(q.covered.isEmpty || !s.allDone e q.covered) = true := by simp [he', hd]
    have hl' : ¬q.lostCov = true := by simp [hl]
    have hx' : ¬q.direct = true := by simp [hx]
    have hx2 : ¬(q.direct = true ∧ e < 16) := fun h => hx' h.1
    simp only [State.releaseSend, hf, if_neg hw, if_neg hl', if_neg hx', if_neg hx2]
    exact State.forEach_transmit_quiet hquiet _
  have hid : q.id = req := find?_key hf
  refine ⟨_, congrArg Host.Outcome.next ((if_neg (by omega)).trans ((congrArg State.selfPump k).trans
    (State.selfPump_idle ha))), ?_, ⟨{ q with covered := [] }, ?_, hid, rfl⟩, ?_, rfl⟩
  · intro o ho hreq
    rw [State.unheld, State.ep_setEp] at ho
    obtain ⟨a, -, rfl⟩ := List.mem_map.1 ho
    by_cases h : a.req = req
    · rw [if_pos h]
    · rw [if_neg h] at hreq
      exact absurd hreq h
  · rw [State.unheld, State.ep_setEp]
    exact List.mem_map.2 ⟨q, List.mem_of_find?_eq_some hf, if_pos hid⟩
  · simp [State.unheld]

/-- A release that covers a loss is not performed (R208). -/
theorem releaseSend_lost {rq tag : Nat} (ha : s.chip.selfAns = []) (hf : (s.ep 17).reqs.find? (·.id == req) = some q)
    (hc : q.covered ≠ []) (hd : s.allDone 17 q.covered = true) (hl : q.lostCov = true) (hrel : q.isRelease = true)
    (hacq : q.isAcquire = false) (hm : q.r.ms = none) (hdst : q.dest = .complete rq tag) :
    Answers (.releaseSend 17 req) s fun t => (∀ x ∈ (t.ep 17).reqs, x.id ≠ req) ∧ (∀ o ∈ (t.ep 17).ort, o.req ≠ req) ∧
      t.lostPending 17 q.r.observer q.r.ctx = false ∧ t.out = .complete rq tag ST.FENCE_LOST [] :: s.out ∧ t.mem = s.mem := by
  have he' : q.covered.isEmpty = false := by simpa using hc
  obtain ⟨u, hu⟩ : ∃ u, u = s.setEp 17 { s.ep 17 with
    reqs := (s.ep 17).reqs.filter (·.id != req), ort := (s.ep 17).ort.filter (·.req != req) } := ⟨_, rfl⟩
  have k : s.releaseSend 17 req =
      ((u.setLost 17 q.r.observer q.r.ctx false).finc (R.CH_ORDER.FENCE_LOST q.r.observer) 1).emit
        (.complete rq tag ST.FENCE_LOST []) := by
    simp only [State.releaseSend, hf, he', hd, hl, Bool.not_true, Bool.or_self, Bool.false_eq_true, if_false, if_true, ← hu]
    rw [State.requestDone_late hrel hl hacq hm, State.deliver_complete hdst]
    rfl
  have hp := u.lostPending_setLost 17 q.r.observer q.r.ctx false
  refine ⟨_, congrArg Host.Outcome.next ((if_neg (by decide)).trans ((congrArg State.selfPump k).trans
    (State.selfPump_idle ?_))), ?_, ?_, ?_, ?_, ?_⟩
  · obtain ⟨regs, free, hfr⟩ :=
      (u.setLost 17 q.r.observer q.r.ctx false).finc_frame (R.CH_ORDER.FENCE_LOST q.r.observer) 1
    rw [hfr, hu]
    exact ha
  · simp [State.setLost, hu]
  · simp [State.setLost, hu]
  · rw [State.lostPending] at hp ⊢
    rwa [State.ep_emit, State.ep_finc]
  · simp [State.setLost, hu]
  · simp [State.setLost, hu]

/-- Settles O13: a request that passes its checks waits as cells of a quiet end-point, one that does not completes at once; a cell
leaves with the next SEQ of its destination; a release goes, or completes without going. -/
theorem requestsAndReleases : Obligations.RequestsAndReleases :=
  ⟨fun _ => ⟨fun _ _ h => congrArg Host.Outcome.next (if_pos (.inr h)),
      fun _ _ _ he ho hm ha hh hb hc hid hq => by
        obtain ⟨t, k, ⟨hort, hreqs⟩, hcores, hfr⟩ := requestIssue_enters he ho hm ha hh hb hc hid hq
        exact ⟨t, k, hort, hreqs, hcores, hfr⟩,
      fun _ => requestIssue_denied, fun _ _ _ => requestTransmit_sends⟩,
    fun _ _ _ _ ha hf hc hd => ⟨fun he hl hx hq => releaseSend_releases he ha hf hc hd hl hx hq,
      fun _ _ he hl hrel hacq hm hdst => by
        subst he
        exact releaseSend_lost ha hf hc hd hl hrel hacq hm hdst⟩⟩

end Sys2Proof.Machine
end

/-! # The home performs a cell once -/
section
namespace Sys2Proof.Machine
open Sys2Proof.Laws

variable {s : State} {h plane : Nat} {c : Cell} {f : LineFault}

/-! ## Bytes of a line (R166) -/

/-- Bytes put in a line behind zeros read back. -/
theorem bytesAt_lineOf_append {o : Nat} {l : List Byte} (hl : o + l.length ≤ 64) :
    bytesAt (lineBytes (lineOf (List.replicate o 0 ++ l))) o l.length = l := by
  have h : bytesAt (List.replicate o 0 ++ l) 0 64 =
      List.replicate o 0 ++ (l ++ List.replicate (64 - (o + l.length)) 0) := by
    have ht : (List.replicate o (0 : Byte) ++ l).length ≤ 64 := by simpa using hl
    rw [bytesAt, List.drop_zero, List.take_of_length_le ht]
    simp
  rw [lineBytes_lineOf, h]
  simp [bytesAt]

/-- Bytes of a line of hub memory are the hub's bytes from their offset on. -/
theorem State.bytesAt_hubLine (s : State) (h : Nat) {off n : Nat} (hn : off % 64 + n ≤ 64) :
    bytesAt (lineBytes (s.hubLine h off)) (off % 64) n = s.hubRead h off n := by
  have hb : lineBytes (s.hubLine h off) = s.hubRead h (off / 64 * 64) 64 := by
    rw [State.hubLine, lineBytes_lineOf, bytesAt, List.drop_zero, List.take_of_length_le (by simp [State.hubRead])]
    simp [State.hubRead]
  have hr : ∀ i, i < (bytesAt (s.hubRead h (off / 64 * 64) 64) (off % 64) n).length →
      Memory.get s.mem (hubAddr h off + i) = (bytesAt (s.hubRead h (off / 64 * 64) 64) (off % 64) n).getD i 0 := by
    intro i hi
    rw [length_bytesAt] at hi
    rw [getD_bytesAt _ _ hi, State.hubRead, Memory.getD_read _ _ (by omega)]
    congr 1
    simp only [hubAddr]
    omega
  rw [hb, ← Memory.read_eq hr, length_bytesAt]
  rfl

/-- The bytes of a cell with a possible LEN lie in its line (R85). -/
theorem Cell.place_le (hp : c.placeOk = true) : c.offset % 64 + c.bytes ≤ 64 := by
  unfold Cell.placeOk at hp
  split at hp
  · obtain ⟨h, -⟩ := Bool.and_eq_true_iff.1 hp
    have := of_decide_eq_true h
    simp only [Cell.bytes]
    omega
  · simp only [Bool.and_eq_true, decide_eq_true_eq, beq_iff_eq] at hp
    obtain ⟨⟨h8, -⟩, ho⟩ := hp
    have hl : c.len = 7 ∨ c.len = 8 := by omega
    simp only [Cell.bytes]
    obtain h | h := hl
    · rw [h, show lenBytes 7 = 128 by decide] at ho
      omega
    · rw [h, show lenBytes 8 = 256 by decide] at ho
      omega

/-! ## Cells at a hub (R178, R179) -/

/-- A cell for a hub that takes cells reaches its window. -/
theorem execTargetReceive_hub (hh : h < 16) (hd : c.dst = s.epId h) (ht : s.targetDown h = false)
    (hc : c.typ = T.READ ∨ c.typ = T.WRITE) : exec (.targetReceive h plane c f) s = .next (s.targetCell h (plane % 16) c f) := by
  refine congrArg Host.Outcome.next ((if_neg (by omega)).trans ?_)
  rw [State.targetReceive, if_neg (by simp [hd, ht]), if_pos (by tauto)]

/-- The window of a cell's source, as an end-point with the cell's arrival noted. -/
def State.windowed (s : State) (e plane : Nat) (c : Cell) (w : SeqWin) : State :=
  s.setEp e { s.ep e with wins := kset (s.ep e).wins (c.src * 16 + s.seqPlaneAt e plane) w }

theorem State.kget_windowed (s : State) (e plane : Nat) (c : Cell) (w : SeqWin) :
    kget ((s.windowed e plane c w).ep e).wins (c.src * 16 + s.seqPlaneAt e plane) = some w := by
  simp [State.windowed]

/-- A duplicate is counted and its arrival noted (R179). -/
theorem State.targetCell_duplicate {e : Nat} {w : Option SeqWin} (hg : kget (s.ep e).wins (c.src * 16 + s.seqPlaneAt e plane) = w)
    (hw : winNew w c.seq = false) : s.targetCell e plane c f =
      ((s.windowed e plane c (winTouch (w.getD {}) s.now)).finc (R.EP_STATS.DUP e) 1).targetDup e plane c f := by
  simp only [State.targetCell, hg, hw, Bool.false_eq_true, if_false]
  rfl

/-- A new cell that is not refused is accepted and performed (R178). -/
theorem State.targetCell_new {e : Nat} {w : Option SeqWin} (hg : kget (s.ep e).wins (c.src * 16 + s.seqPlaneAt e plane) = w)
    (hw : winNew w c.seq = true) (hr : s.refusal e c = none) : s.targetCell e plane c f =
      (s.windowed e plane c (winAccept w c.seq s.now)).targetNew e plane c f := by
  simp only [State.targetCell, hg, hw, hr, if_true]
  rfl

@[simp] theorem State.hub_finc (s : State) (f : Fld) (n k : Nat) : (s.finc f n).hub k = s.hub k := by
  unfold State.finc
  split <;> rfl

@[simp] theorem State.pending_finc (s : State) (f : Fld) (n : Nat) : (s.finc f n).pending = s.pending := by
  unfold State.finc
  split <;> rfl

theorem targetReceive_duplicate (hh : h < 16) (hd : c.dst = s.epId h) (ht : s.targetDown h = false) (hc : c.typ = T.WRITE)
    (hw : winNew (kget (s.ep h).wins (c.src * 16 + s.seqPlaneAt h (plane % 16))) c.seq = false)
    (hp : s.inProgress h (plane % 16) c = false) : Answers (.targetReceive h plane c .clean) s fun t => t.mem = s.mem ∧
      (∃ w, kget (t.ep h).wins (c.src * 16 + s.seqPlaneAt h (plane % 16)) = some w ∧ w.last = s.now) ∧
      t.out = .inject (144 + h) (ackOf c) :: s.out ∧ t.pending = s.pending := by
  have hdup (w : SeqWin) : ((s.windowed h (plane % 16) c w).finc (R.EP_STATS.DUP h) 1).targetDup h (plane % 16) c .clean =
      ((s.windowed h (plane % 16) c w).finc (R.EP_STATS.DUP h) 1).hubSend h (ackOf c) := by
    have hi : ((s.windowed h (plane % 16) c w).finc (R.EP_STATS.DUP h) 1).inProgress h (plane % 16) c = false := by
      rw [← hp]
      simp only [State.inProgress, if_pos hh, State.hub_finc]
      rfl
    rw [State.targetDup, hi, if_neg Bool.false_ne_true, if_neg (by rw [hc]; decide),
      if_neg (fun k => absurd (hc.symm.trans k.1) (by decide)), State.answerFrom, if_pos hh]
  have k := (execTargetReceive_hub (f := .clean) (plane := plane) hh hd ht (.inr hc)).trans
    (congrArg Host.Outcome.next ((State.targetCell_duplicate rfl hw).trans (hdup _)))
  refine ⟨_, k, ?_, ?_, ?_, ?_⟩
  · simp [State.hubSend, State.windowed]
  · rw [State.hubSend, State.ep_emit, State.ep_finc]
    exact ⟨_, s.kget_windowed h (plane % 16) c _, rfl⟩
  · simp [State.hubSend, State.windowed]
  · simp [State.hubSend, State.windowed]

/-- A hub's answer to a READ that it serves (R166). -/
def State.readAnswer (s : State) (h : Nat) (c : Cell) : Cell :=
  respOf c (bytesAt (lineBytes (s.hubLine h c.offset)) (c.offset % 64) c.bytes)

/-- The answer carries the bytes of hub memory in their place. -/
theorem State.bytesAt_readAnswer (s : State) (h : Nat) (hp : c.placeOk = true) :
    bytesAt (lineBytes (s.readAnswer h c).payload) (c.offset % 64) c.bytes = s.hubRead h c.offset c.bytes := by
  have hl := Cell.place_le hp
  rw [← s.bytesAt_hubLine h hl]
  have k := bytesAt_lineOf_append (o := c.offset % 64)
    (l := bytesAt (lineBytes (s.hubLine h c.offset)) (c.offset % 64) c.bytes) (by rwa [length_bytesAt])
  rwa [length_bytesAt] at k

/-- A hub serves a READ whose line it holds clean. -/
theorem State.hubCell_read (hc : c.typ = T.READ) (ha : c.allowed = true) (hs : c.offset + c.bytes ≤ s.populated h)
    (hh : s.heldAt h c.offset = false) (hp : s.poisoned h c.offset = false) :
    s.hubCell h c .clean = (s.almAdd 5 h 0 64).hubSend h (s.readAnswer h c) := by
  have hw : ¬T.READ = T.WRITE := by decide
  have hat : ¬T.READ = T.ATOMIC := by decide
  have hl : s.performLine h c .clean = { s := s.almAdd 5 h 0 64, old := s.hubLine h c.offset } := by
    have hp' : ((s.lineRead h c.offset .clean).almAdd 5 h 0 64).poisoned h c.offset = false := hp
    simp only [State.performLine, hc, if_neg hw, hp', Bool.false_eq_true, if_false, if_true]
    rfl
  have hn : ¬s.populated h < c.offset + c.bytes := by omega
  simp only [State.hubCell, ha, Bool.not_true, Bool.false_eq_true, if_false, if_neg hn, hh, hl, hc, hat, false_and]
  simp [cellAnswer, hc, State.readAnswer]

theorem targetReceive_reads (hh : h < 16) (hd : c.dst = s.epId h) (ht : s.targetDown h = false) (hc : c.typ = T.READ)
    (hw : winNew (kget (s.ep h).wins (c.src * 16 + s.seqPlaneAt h (plane % 16))) c.seq = true) (ha : c.allowed = true)
    (hs : c.offset + c.bytes ≤ s.populated h) (hq : s.heldAt h c.offset = false) (hp : s.poisoned h c.offset = false) :
    Answers (.targetReceive h plane c .clean) s fun t => t.mem = s.mem ∧
      kget (t.ep h).wins (c.src * 16 + s.seqPlaneAt h (plane % 16)) =
        some (winAccept (kget (s.ep h).wins (c.src * 16 + s.seqPlaneAt h (plane % 16))) c.seq s.now) ∧
      ∃ a, Out.inject (144 + h) a ∈ t.out ∧ a.typ = T.RESPONSE ∧ a.dst = c.src ∧ a.seq = c.seq ∧
        bytesAt (lineBytes a.payload) (c.offset % 64) c.bytes = s.hubRead h c.offset c.bytes := by
  have hi : ¬c.typ = T.INVALIDATE := by rw [hc]; decide
  have ho : ¬c.typ = T.COMMAND := by rw [hc]; decide
  have hr : s.refusal h c = none := by
    rw [State.refusal, if_neg hi, if_neg ho, if_pos hh, if_neg (by simp [ha, hs])]
  have hnew (w : SeqWin) : (s.windowed h (plane % 16) c w).targetNew h (plane % 16) c .clean =
      ((s.windowed h (plane % 16) c w).almAdd 5 h 0 64).hubSend h (s.readAnswer h c) := by
    rw [State.targetNew, if_neg hi, if_neg ho, if_pos hh]
    exact State.hubCell_read (s := s.windowed h (plane % 16) c w) hc ha hs hq hp
  have k := (execTargetReceive_hub (f := .clean) (plane := plane) hh hd ht (.inl hc)).trans
    (congrArg Host.Outcome.next ((State.targetCell_new rfl hw hr).trans (hnew _)))
  have hpl : c.placeOk = true := by
    rw [Cell.allowed, if_pos hc] at ha
    exact (Bool.and_eq_true_iff.1 ha).1
  refine ⟨_, k, rfl, ?_, s.readAnswer h c, List.mem_cons_self, rfl, rfl, rfl, s.bytesAt_readAnswer h hpl⟩
  exact s.kget_windowed h (plane % 16) c _

/-! ## Commands in cells (R418, R419) -/

theorem execInbandCommandPiece_own (hc : c.typ = T.COMMAND) (hd : c.dst = s.epId 16) (ht : s.targetDown 16 = false) :
    exec (.inbandCommandPiece c) s = .next (s.targetCell 16 0 c .clean) :=
  congrArg Host.Outcome.next (if_pos ⟨hc, hd, by rw [ht]; rfl⟩)

/-- A first piece that cannot be collected is refused, and not accepted. -/
theorem inbandCommandPiece_full (hc : c.typ = T.COMMAND) (hd : c.dst = s.epId 16) (ht : s.targetDown 16 = false)
    (hw : winNew (kget (s.ep 16).wins (c.src * 16 + s.plane)) c.seq = true) (hf : s.inbandFull c = true) :
    Answers (.inbandCommandPiece c) s fun t => Out.inject s.ownPos (nackOf c ST.BUSY false 0) ∈ t.out ∧
      t.host = s.host ∧ t.mem = s.mem := by
  have hr : s.refusal 16 c = some (ST.BUSY, 0) := by
    rw [State.refusal, if_neg (by rw [hc]; decide), if_pos hc, if_pos hf]
  have k : ∃ u : State, s.targetCell 16 0 c .clean = u.ownSend (nackOf c ST.BUSY false 0) ∧ u.ownPos = s.ownPos ∧
      u.host = s.host ∧ u.mem = s.mem := by
    simp only [State.targetCell, State.seqPlaneAt, show ¬16 = 17 by decide, if_false, hw, if_true, hr, State.when,
      show (ST.BUSY == ST.BACKOFF) = false by decide, Bool.false_eq_true]
    split
    · exact ⟨_, rfl, rfl, rfl, rfl⟩
    · exact ⟨s, rfl, rfl, rfl, rfl⟩
  obtain ⟨u, hu, hpos, hhost, hmem⟩ := k
  refine ⟨_, execInbandCommandPiece_own hc hd ht, ?_⟩
  rw [hu]
  exact ⟨hpos ▸ List.mem_cons_self, hhost, hmem⟩

/-- What a first piece leaves of its command. -/
def firstPiece (c : Cell) (now : Nat) : PartialCmd :=
  { owner := c.src, tag := field (lineBytes c.payload) 2 2, total := field (lineBytes c.payload) 6 2
    frags := [(field (lineBytes c.payload) 4 2, (lineBytes c.payload).drop 8)], ctxs := [c.ctx], last := now }

/-- The first piece of a command of more pieces is kept. -/
theorem State.inbandPiece_first (h0 : field (lineBytes c.payload) 0 1 = 1) (h1 : field (lineBytes c.payload) 1 1 = 0)
    (h2 : 2 ≤ field (lineBytes c.payload) 6 2) (h19 : field (lineBytes c.payload) 6 2 ≤ 19)
    (hi : field (lineBytes c.payload) 4 2 < field (lineBytes c.payload) 6 2)
    (hn : ∀ p ∈ s.host.inband, ¬(p.owner = c.src ∧ p.tag = field (lineBytes c.payload) 2 2)) :
    s.inbandPiece c = { s with host := { s.host with inband := s.host.inband ++ [firstPiece c s.now] } } := by
  have hnone : s.host.inband.find? (fun p => p.owner == c.src && p.tag == field (lineBytes c.payload) 2 2) = none :=
    List.find?_eq_none.2 fun p hp => by simpa using hn p hp
  have hdrop : s.dropInband c.src (field (lineBytes c.payload) 2 2) = s := by
    have hk : s.host.inband.filter (fun p => !(p.owner == c.src && p.tag == field (lineBytes c.payload) 2 2)) = s.host.inband :=
      List.filter_eq_self.2 fun p hp => by simpa [imp_iff_not_or] using hn p hp
    rw [State.dropInband, hk]
  have hok : ¬(field (lineBytes c.payload) 0 1 ≠ 1 ∨ field (lineBytes c.payload) 1 1 ≠ 0 ∨
      field (lineBytes c.payload) 6 2 = 0 ∨ 19 < field (lineBytes c.payload) 6 2 ∨
      field (lineBytes c.payload) 6 2 ≤ field (lineBytes c.payload) 4 2) := by omega
  simp only [State.inbandPiece, if_neg hok, hnone, Option.getD_none, hdrop]
  simp [firstPiece, kget, kset, addNew, show 1 < field (lineBytes c.payload) 6 2 by omega]

theorem inbandCommandPiece_collects (hc : c.typ = T.COMMAND) (hd : c.dst = s.epId 16) (ht : s.targetDown 16 = false)
    (hw : winNew (kget (s.ep 16).wins (c.src * 16 + s.plane)) c.seq = true) (hl : s.host.inband.length < 64)
    (h0 : field (lineBytes c.payload) 0 1 = 1) (h1 : field (lineBytes c.payload) 1 1 = 0)
    (h2 : 2 ≤ field (lineBytes c.payload) 6 2) (h19 : field (lineBytes c.payload) 6 2 ≤ 19)
    (hi : field (lineBytes c.payload) 4 2 < field (lineBytes c.payload) 6 2)
    (hn : ∀ p ∈ s.host.inband, ¬(p.owner = c.src ∧ p.tag = field (lineBytes c.payload) 2 2)) :
    Answers (.inbandCommandPiece c) s fun t => t.out = .inject s.ownPos (ackOf c) :: s.out ∧
      t.host.inband = s.host.inband ++ [firstPiece c s.now] ∧
      t = { s with eps := t.eps, host := { s.host with inband := t.host.inband }, out := t.out, sw := s.fed t } := by
  have hi' : ¬c.typ = T.INVALIDATE := by rw [hc]; decide
  have hf (u : State) (hu : u.host = s.host) : u.inbandFull c = false := by
    rw [State.inbandFull, hu, Bool.and_eq_false_iff]
    exact .inl (decide_eq_false (by omega))
  have hr : s.refusal 16 c = none := by
    rw [State.refusal, if_neg hi', if_pos hc, hf s rfl, if_neg Bool.false_ne_true]
  have hp : s.seqPlaneAt 16 0 = s.plane := rfl
  have hnew (w : SeqWin) : (s.windowed 16 0 c w).targetNew 16 0 c .clean =
      ((s.windowed 16 0 c w).ownSend (ackOf c)).inbandPiece c := by
    rw [State.targetNew, if_neg hi', if_pos hc, State.commandCell, hf (s.windowed 16 0 c w) rfl, if_neg Bool.false_ne_true]
    rfl
  have k := (execInbandCommandPiece_own hc hd ht).trans
    (congrArg Host.Outcome.next ((State.targetCell_new rfl (by rwa [hp]) hr).trans (hnew _)))
  rw [State.inbandPiece_first (s := (s.windowed 16 0 c _).ownSend (ackOf c)) h0 h1 h2 h19 hi hn] at k
  refine ⟨_, k, rfl, rfl, ?_⟩
  rw [← State.Feeds.sw_eq (s := s) ?_]
  · rfl
  · exact ⟨rfl, [.inject s.ownPos (ackOf c)], rfl, by simp [ownCells, State.windowed]⟩

/-- Settles O14: a duplicate is answered again and not performed, a new cell passes its window and is performed once. -/
theorem targetPerforms : Obligations.TargetPerforms := fun _ =>
  ⟨fun _ _ _ hh hd ht hc hw hp => targetReceive_duplicate hh hd ht hc hw hp,
    fun _ _ _ hh hd ht hc _ hw ha hs hq hp => targetReceive_reads hh hd ht hc hw ha hs hq hp,
    fun _ => inbandCommandPiece_full,
    fun _ => inbandCommandPiece_collects⟩

end Sys2Proof.Machine
end

/-! # Answers, retransmissions and losses -/
section
namespace Sys2Proof.Machine
open Sys2Proof.Laws

variable {s : State} {e plane key f rq tag : Nat} {c : Cell} {o : Outst} {q : Request}

/-! ## Answers (R182) -/

/-- An ACK that is no map acknowledgement reaches an end-point that has no part in a collective. -/
theorem execAnswerReceive_ack (he : e < 18) (h16 : e ≠ 16) (hc : c.typ = T.ACK) (ho : c.opmod ≠ 1) :
    exec (.answerReceive e plane c) s =
      .next (((s.answerReceive e plane c).collPump e).partCheckAll e) := by
  refine congrArg Host.Outcome.next ((if_neg (by omega)).trans ?_)
  simp [State.answerAt, h16, ho, State.memAnswer, hc]

theorem State.answerReceive_ack (hc : c.typ = T.ACK)
    (hf : ((s.ep e).ort.find? fun o => o.sent.isSome && o.cell.dst == c.src && o.cell.seq == c.seq &&
      o.seqPlane == seqPlaneFor c.src plane) = some o) :
    s.answerReceive e plane c = s.cellDone e o.key o.req ST.OK false none := by
  simp [State.answerReceive, hf, hc, T.ACK, T.NACK, T.RESPONSE]

theorem answerReceive_completes (he : e < 18) (hm : (s.ep e).members = []) (hr : (s.ep e).roots = []) (h16 : e ≠ 16)
    (hc : c.typ = T.ACK) (ho : c.opmod ≠ 1)
    (hf : ((s.ep e).ort.find? fun o => o.sent.isSome && o.cell.dst == c.src && o.cell.seq == c.seq &&
      o.seqPlane == seqPlaneFor c.src plane) = some o)
    (hq : (s.ep e).reqs.find? (·.id == o.req) = some q) (hn : q.cells = q.answered + 1) (hs : q.status = ST.OK)
    (hx : q.cacheable = false) (hrel : q.isRelease = false) (hacq : q.isAcquire = false) (hms : q.r.ms = none)
    (h3 : q.r.op = 3) (hd : q.dest = .complete rq tag) : Answers (.answerReceive e plane c) s fun t =>
      t.out = .complete rq tag ST.OK [] :: s.out ∧ (∀ x ∈ (t.ep e).ort, x.key ≠ o.key) ∧
      (∀ x ∈ (t.ep e).reqs, x.id ≠ q.id) ∧ t = { s with eps := t.eps, out := t.out } := by
  have hst : q.statusAfter ST.OK false = ST.OK := by simp [Request.statusAfter, h3, hs]
  have k : s.answerReceive e plane c = (s.freed e o.key q.id).emit (.complete rq tag ST.OK []) := by
    rw [State.answerReceive_ack hc hf, State.cellDone_last hq hn (.inl hx) (.inr (by simp [reqReturns, h3])), hst,
      State.requestDone_plain (q := q.ended ST.OK false) hrel hacq hms (by decide),
      State.deliver_complete (q := q.ended ST.OK false) hd]
    rfl
  have hi := s.members_freed e o.key q.id
  refine ⟨(s.freed e o.key q.id).emit (.complete rq tag ST.OK []), ?_, rfl, s.key_freed e o.key q.id,
    s.id_freed e o.key q.id, rfl⟩
  rw [execAnswerReceive_ack he h16 hc ho, k]
  exact congrArg Host.Outcome.next (State.collectives_idle (hi.1.trans hm) (hi.2.trans hr))

/-- An answer that no entry waits for is counted. -/
theorem answerReceive_counts (he : e < 18) (hm : (s.ep e).members = []) (hr : (s.ep e).roots = []) (hw : s.regsWf = true)
    (h16 : e ≠ 16) (hc : c.typ = T.ACK) (ho : c.opmod ≠ 1) (hort : (s.ep e).ort = [])
    (hl : s.fget (R.EP_STATS.DUP e) + 1 < 2 ^ ((R.EP_STATS.DUP e).hi + 1 - (R.EP_STATS.DUP e).lo)) :
    Answers (.answerReceive e plane c) s fun t =>
      Sets s t [(R.EP_STATS.DUP e, s.fget (R.EP_STATS.DUP e) + 1)] ∧ t = { s with regs := t.regs } := by
  have k : s.answerReceive e plane c = s.finc (R.EP_STATS.DUP e) 1 := by simp [State.answerReceive, hort]
  have hv : Sets s (s.finc (R.EP_STATS.DUP e) 1) [(R.EP_STATS.DUP e, s.fget (R.EP_STATS.DUP e) + 1)] := by
    rw [State.finc_of_lt hl]
    exact State.sets_fset hw (by simp) (by simp) hl
  have hr1 : ∀ f v, s.fset f v = { s with regs := (s.fset f v).regs } := fun _ _ => rfl
  refine ⟨s.finc (R.EP_STATS.DUP e) 1, ?_, hv, by rw [State.finc_of_lt hl]; exact hr1 _ _⟩
  rw [execAnswerReceive_ack he h16 hc ho, k, State.collectives_idle (by rwa [State.ep_finc]) (by rwa [State.ep_finc])]

/-! ## Marks (R65, R66, R183, R184) -/

/-- An entry as its cell leaves again on its plane. -/
def Outst.resent (o : Outst) (now : Nat) : Outst :=
  { o with cell := { o.cell with retx := true }, lastSent := now, retries := o.retries + 1, again := false }

/-- A best-effort cell leaves again on its usable plane. -/
theorem State.resend_be (hu : s.planeUsable e o.plane = true) (hc : o.cell.cls = clsBE) : s.resend e o =
    ((s.putOut e (o.resent s.now)).finc (R.EP_STATS.RETX_BE e) 1).epSend e o.plane (o.resent s.now).cell := by
  have hg : o.cell.cls ≠ clsG := by rw [hc]; decide
  simp only [State.resend, hu, if_true, State.resendOn, if_neg hg]
  rfl

/-- A mark of a best-effort cell in its rack has come. -/
theorem State.dueAgain_be (hc : o.cell.cls = clsBE) (hi : o.interRack = false) (hs : o.sent = some f) (hl : f + 64 ≤ s.now)
    (hh : s.now < f + 128) (hp : o.lastSent < f + 64) : s.dueAgain o = true := by
  have hg : ¬clsBE = clsG := by decide
  have hn : ¬f + 256 ≤ s.now := by omega
  simp [State.dueAgain, hs, finalMark, marksOf, hi, hc, hg, hn, hl, hp]

theorem State.find?_putOut {o' : Outst} (hf : (s.ep e).ort.find? (·.key == key) = some o) (hk : o'.key = o.key) :
    ((s.putOut e o').ep e).ort.find? (·.key == key) = some o' := by
  have ho : o.key = key := find?_key hf
  rw [State.putOut, State.ep_setEp, ← ho, ← hk]
  exact find?_map_put Outst.key (by rwa [hk, ho])

theorem retransmit_resends (he : e < 18) (hf : (s.ep e).ort.find? (·.key == key) = some o) (hc : o.cell.cls = clsBE)
    (hi : o.interRack = false) (hn : o.cell.collective = false) (hs : o.sent = some f) (hl : f + 64 ≤ s.now)
    (hh : s.now < f + 128) (hp : o.lastSent < f + 64) (hu : s.planeUsable e o.plane = true) :
    Answers (.retransmit e key) s fun t =>
      (e < 16 → t.out = .inject (144 + e) { o.cell with retx := true } :: s.out) ∧
      (e = 16 → t.out = .inject s.ownPos { o.cell with retx := true } :: s.out) ∧
      (e = 17 → CellsGo t (160 + o.plane) [{ o.cell with retx := true }]) ∧
      (∃ o', (t.ep e).ort.find? (·.key == key) = some o' ∧ o'.retries = o.retries + 1 ∧ o'.lastSent = s.now ∧
        o'.sent = some f) ∧ (t.ep e).reqs = (s.ep e).reqs ∧ t.mem = s.mem := by
  have k : exec (.retransmit e key) s = .next (s.resend e o) := by
    refine congrArg Host.Outcome.next ((if_pos he).trans ?_)
    simp only [State.retransmit, hf, State.dueAgain_be hc hi hs hl hh hp, if_true]
  rw [State.resend_be hu hc] at k
  have h := ((s.putOut e (o.resent s.now)).finc (R.EP_STATS.RETX_BE e) 1).epSend_sends (c := (o.resent s.now).cell) he hn o.plane
  refine ⟨_, k, fun h16 => (h.hub h16).trans (by rw [State.out_finc]; rfl),
    fun h16 => (h.own h16).trans (by rw [State.out_finc, State.ownPos_finc]; rfl), h.chip,
    ⟨o.resent s.now, ?_, rfl, rfl, hs⟩, ?_, ?_⟩
  · rw [h.ep_eq, State.ep_finc]
    exact State.find?_putOut hf rfl
  · rw [h.ep_eq, State.ep_finc]
    simp [State.putOut]
  · rw [h.mem_eq, State.mem_finc]
    rfl

theorem requestLost_loses (he : e < 18) (hm : (s.ep e).members = []) (hr : (s.ep e).roots = [])
    (hf : (s.ep e).ort.find? (·.key == key) = some o) (hs : o.sent = some f) (hl : f + finalMark o ≤ s.now)
    (hq : (s.ep e).reqs.find? (·.id == o.req) = some q) (hn : q.cells = q.answered + 1) (hrel : q.isRelease = false)
    (hacq : q.isAcquire = false) (hms : q.r.ms = none) (hd : q.dest = .complete rq tag)
    (hp : q.r.op ≤ 2 → q.status ≠ ST.POISON) : Answers (.requestLost e key) s fun t =>
      t.out = .complete rq tag ST.LOST [] :: s.out ∧ t.lostPending e q.r.observer q.r.ctx = true ∧
      (∀ x ∈ (t.ep e).ort, x.key ≠ key) ∧ (∀ x ∈ (t.ep e).reqs, x.id ≠ q.id) ∧ t.mem = s.mem := by
  have hst : q.statusAfter ST.LOST true = ST.LOST := by
    have h : ¬(q.r.op ≤ 2 ∧ (ST.LOST = ST.POISON ∨ q.status = ST.POISON)) := fun h => h.2.elim (by decide) (hp h.1)
    rw [Request.statusAfter, if_neg h, if_pos (.inl rfl)]
  have hlost : ST.LOST ≠ ST.OK := by decide
  have k : s.lose e key =
      ((s.freed e key q.id).marksLost e (q.ended ST.LOST true)).emit (.complete rq tag ST.LOST []) := by
    have h1 : s.lose e key = s.cellDone e key o.req ST.LOST true none := by simp [State.lose, hf, hs, hl]
    rw [h1, State.cellDone_last hq hn (.inr (by rw [hst]; exact hlost)) (.inl (by rw [hst]; exact hlost)), hst,
      State.requestDone_lost (q := q.ended ST.LOST true) hrel hacq hms,
      State.deliver_complete (q := q.ended ST.LOST true) hd]
    rfl
  have hi := s.members_freed e key q.id
  have hj := (s.freed e key q.id).members_marksLost e (q.ended ST.LOST true)
  have hx : exec (.requestLost e key) s = .next ((s.lose e key).partCheckAll e) := congrArg Host.Outcome.next (if_pos he)
  rw [k, State.partCheckAll_idle (by rw [State.ep_emit, hj.1, hi.1, hm]) (by rw [State.ep_emit, hj.2, hi.2, hr])] at hx
  refine ⟨_, hx, ?_, ?_, ?_, ?_, ?_⟩
  · simp [State.marksLost, State.coverLost, State.setLost, State.freed]
  · rw [State.lostPending, State.ep_emit]
    exact (s.freed e key q.id).lostPending_marksLost e (q.ended ST.LOST true)
  · rw [State.ep_emit, State.ort_marksLost]
    exact s.key_freed e key q.id
  · intro x hx
    rw [State.ep_emit] at hx
    have h := List.mem_map_of_mem (f := fun x : Request => x.id) hx
    rw [State.ids_marksLost] at h
    obtain ⟨y, hy, hxy⟩ := List.mem_map.1 h
    exact hxy ▸ s.id_freed e key q.id y hy
  · simp [State.marksLost, State.coverLost, State.setLost, State.freed]

/-- Settles O15: an answer or a final mark ends the request of the cell it was the last of, with or without the marks of a loss; a
cell sent again leaves as every cell of its end-point does. -/
theorem answersAndLosses : Obligations.AnswersAndLosses := fun _ _ he hm hr =>
  ⟨fun _ _ _ _ _ _ h16 hc ho hf hq hn hs hx hrel hacq hms h3 hd =>
      answerReceive_completes he hm hr h16 hc ho hf hq hn hs hx hrel hacq hms h3 hd,
    fun _ _ hw h16 hc ho hort hl => answerReceive_counts he hm hr hw h16 hc ho hort hl,
    fun _ _ _ hf hc hi hn hs hl hh hp hu => retransmit_resends he hf hc hi hn hs hl hh hp hu,
    fun _ _ _ _ _ _ hf hs hl hq hn hrel hacq hms hd hp => requestLost_loses he hm hr hf hs hl hq hn hrel hacq hms hd hp⟩

end Sys2Proof.Machine
end

/-! # Records, milestones, fences and tokens of an end-point -/
section
namespace Sys2Proof.Machine
open Sys2Proof.Laws

variable {s : State} {e i : Nat}

/-! ## What an end-point forgets with time (R180, R181, R165) -/

theorem replyRecordExpiry_forgets (he : e < 18) : Answers (.replyRecordExpiry e) s fun t =>
    (∀ r, r ∈ (t.ep e).replies ↔ r ∈ (s.ep e).replies ∧ s.now < r.at_ + 256) ∧ t = { s with eps := t.eps } := by
  refine ⟨_, congrArg Host.Outcome.next (if_neg (by omega)), fun r => ?_, rfl⟩
  rw [State.ep_setEp, List.mem_filter, decide_eq_true_eq]

theorem seqWindowExpiry_forgets (he : e < 18) {key : Nat} {w : SeqWin} (hk : krising (s.ep e).wins = true)
    (hw : kget (s.ep e).wins key = some w) (hl : w.last + 1024 ≤ s.now) : Answers (.seqWindowExpiry e key) s fun t =>
      kget (t.ep e).wins key = none ∧ (∀ k, k ≠ key → kget (t.ep e).wins k = kget (s.ep e).wins k) ∧
        t = { s with eps := t.eps } := by
  have k : exec (.seqWindowExpiry e key) s = .next (s.setEp e { s.ep e with wins := kdel (s.ep e).wins key }) := by
    refine congrArg Host.Outcome.next ?_
    rw [hw]
    exact if_pos ⟨he, hl⟩
  refine ⟨_, k, ?_, fun j hj => ?_, rfl⟩
  · rw [State.ep_setEp]
    exact kget_kdel_self hk key
  · rw [State.ep_setEp]
    exact kget_kdel_ne hj _

theorem startupQuietEnd_ends (he : e < 18) (h : (s.ep e).quietUntil ≤ s.now) : Answers (.startupQuietEnd e) s fun t =>
    (t.ep e).quietUntil = 0 ∧ (t.ep e).ort = (s.ep e).ort ∧ t = { s with eps := t.eps } :=
  ⟨_, congrArg Host.Outcome.next (if_pos ⟨he, h⟩), by rw [State.ep_setEp], by rw [State.ep_setEp], rfl⟩

/-! ## Demotion (R187) -/

/-- A rising table gives under a key what it lists under it. -/
theorem kget_of_mem {α : Type} {m : KV α} {a : Nat × α} (h : krising m = true) (ha : a ∈ m) : kget m a.1 = some a.2 := by
  rw [krising_iff] at h
  induction m with
  | nil => exact absurd ha List.not_mem_nil
  | cons f m ih =>
    obtain ⟨hf, hm⟩ := List.pairwise_cons.1 h
    obtain rfl | ha := List.mem_cons.1 ha
    · simp [kget]
    · have hlt := hf a ha
      rw [kget, if_neg (by omega)]
      exact ih hm ha

/-- A register that a range lists reads the value listed. -/
theorem State.reg_of_regsIn (h : s.regsWf = true) {a : Nat × W64} {lo hi : Nat} (ha : a ∈ s.regsIn lo hi) : s.reg a.1 = a.2 := by
  rw [State.reg, kget_of_mem (State.krising_of_regsWf h) (List.mem_filter.1 ha).1, Option.getD_some]

/-- To set bit 36 is to store 1 in the field DEMOTED. -/
theorem bitSet_demoted (v : Nat) : bitSet v 36 = splice v 36 36 1 := by
  simp only [bitSet, bitAt, splice, beq_iff_eq]
  split <;> omega

theorem bitsOf_bitClr_demoted (v : Nat) : bitsOf (bitClr v 36) 36 36 = 0 := by
  simp only [bitClr, bitAt, bitsOf, beq_iff_eq]
  split <;> omega

theorem bitsOf_bitClr_cells (v : Nat) : bitsOf (bitClr v 36) 35 25 = bitsOf v 35 25 := by
  simp only [bitClr, bitAt, bitsOf, beq_iff_eq]
  split <;> omega

theorem bitClr_lt {v n : Nat} (h : v < n) : bitClr v 36 < n := by
  unfold bitClr
  split <;> omega

/-- A demotion notice that names the one entry of an end-point sets its DEMOTED. -/
theorem demotionNotice_demotes (he : e < 18) {plane : Nat} {c : Cell} {v : W64} (hw : s.regsWf = true) (hc : c.typ = T.STATUS)
    (h10 : field (lineBytes c.payload) 0 1 = 0x10)
    (hr : s.regsIn (epBase e + 0x1000) (epBase e + 0x1000 + 2048) = [(epBase e + 0x1000 + 8 * i, v)])
    (hv : bitAt v.toNat 0 = true) (hp : bitsOf v.toNat 4 1 = plane)
    (hx : bitsOf v.toNat 12 7 = field (lineBytes c.payload) 3 1 % 64) (hk : bitsOf v.toNat 6 5 = 0)
    (h1 : field (lineBytes c.payload) 1 1 = 0)
    (ht : posOn plane (bitsOf v.toNat 24 13 % 1024) = field (lineBytes c.payload) 2 1) :
    Answers (.demotionNotice e plane c) s fun t => Sets s t [(R.EP_RESV.DEMOTED e i, 1)] ∧ t = { s with regs := t.regs } := by
  have hs : s.reg (R.EP_RESV.addr e i) = v := State.reg_of_regsIn hw (hr ▸ List.mem_singleton_self _)
  have k : exec (.demotionNotice e plane c) s = .next (s.fset (R.EP_RESV.DEMOTED e i) 1) := by
    refine congrArg Host.Outcome.next ((if_neg (by omega)).trans ?_)
    rw [State.demotionNotice, if_neg (by simp [hc, h10])]
    dsimp only
    rw [hr]
    simp only [State.forEach, List.foldl_cons, List.foldl_nil, hv, hp, hx, hk, h1, ht, beq_self_eq_true, Bool.and_self, if_true]
    rw [bitSet_demoted, State.fset, hs]
  exact ⟨_, k, State.sets_fset hw (by simp) (by simp) (by simp), rfl⟩

/-- DEMOTED of every entry resets to 0. -/
theorem resv_reset (l : Straps) (he : e < 18) (hi : i < 256) : bitsOf (regReset l (R.EP_RESV.addr e i)).toNat 36 36 = 0 := by
  have h9 : ∀ d ∈ regRows9, resetValue d.fields / 2 ^ 36 % 2 = 0 ∨ 0x100002000 ≤ d.base := by decide
  have h100 : ∀ d ∈ regRows100, resetValue d.fields / 2 ^ 36 % 2 = 0 ∨ 0x100002000 ≤ d.base := by decide
  have hb : R.EP_RESV.addr e i / 0x1000000 = 9 ∧ R.EP_RESV.addr e i < 0x100002000 ∨
      R.EP_RESV.addr e i / 0x1000000 = 256 ∧ R.EP_RESV.addr e i < 0x100002000 := by
    simp only [R.EP_RESV.addr, epBase]
    split <;> omega
  have hd : ∀ d ∈ regRows (R.EP_RESV.addr e i), resetValue d.fields / 2 ^ 36 % 2 = 0 ∨ 0x100002000 ≤ d.base := by
    obtain ⟨h, -⟩ | ⟨h, -⟩ := hb
    · rw [regRows, h]
      exact h9
    · rw [regRows, h]
      exact h100
  generalize R.EP_RESV.addr e i = a at hb hd
  have hf : resetValue (regFields a) / 2 ^ 36 % 2 = 0 := by
    simp only [regFields]
    rw [if_neg (by omega), if_neg (by omega), if_neg (by omega)]
    cases hg : (regRows a).find? (·.covers a) with
    | none => rfl
    | some d =>
      have hc := List.find?_some hg
      simp only [RDesc.covers, Bool.and_eq_true, decide_eq_true_eq] at hc
      exact (hd d (List.mem_of_find?_eq_some hg)).resolve_right (by omega)
  simp only [regReset]
  rw [if_neg (by omega), if_neg (by omega), BitVec.toNat_ofNat, bitsOf]
  omega

/-- DEMOTE_CLR clears DEMOTED of every entry and leaves its CELLS. -/
theorem State.fget_demoteClr (he : e < 18) (hw : s.regsWf = true) (hi : i < 256) :
    (s.demoteClr e).fget (R.EP_RESV.DEMOTED e i) = 0 ∧
      (s.demoteClr e).fget (R.EP_RESV.CELLS e i) = s.fget (R.EP_RESV.CELLS e i) := by
  simp only [State.fget]
  cases hk : kget s.regs (R.EP_RESV.addr e i) with
  | some v =>
    have hm : (R.EP_RESV.addr e i, v) ∈ s.regsIn (epBase e + 0x1000) (epBase e + 0x1000 + 2048) :=
      List.mem_filter.2 ⟨mem_of_kget hk, by simp only [R.EP_RESV.addr, Bool.and_eq_true, decide_eq_true_eq]; omega⟩
    have hl : (s.regsIn (epBase e + 0x1000) (epBase e + 0x1000 + 2048)).Pairwise fun a b => a.1 ≠ b.1 :=
      (((krising_iff _).1 (State.krising_of_regsWf hw)).filter _).imp Nat.ne_of_lt
    have hs : (s.demoteClr e).reg (R.EP_RESV.addr e i) = BitVec.ofNat 64 (bitClr v.toNat 36) :=
      State.reg_forEach_setReg (g := fun a : Nat × W64 => a.1) (f := fun a => BitVec.ofNat 64 (bitClr a.2.toNat 36)) hl hw hm
    rw [hs, State.reg_of_regsIn hw hm, BitVec.toNat_ofNat, Nat.mod_eq_of_lt (bitClr_lt v.isLt)]
    exact ⟨bitsOf_bitClr_demoted _, bitsOf_bitClr_cells _⟩
  | none =>
    have hn : ∀ a ∈ s.regsIn (epBase e + 0x1000) (epBase e + 0x1000 + 2048), R.EP_RESV.addr e i ≠ a.1 := by
      intro a ha h
      obtain ⟨w, hw⟩ := exists_kget_of_mem (List.mem_filter.1 ha).1
      rw [← h, hk] at hw
      cases hw
    have ks : s.Stores (s.demoteClr e) (· ≠ R.EP_RESV.addr e i) :=
      .forEach (fun a ha s => .setReg (p := (· ≠ R.EP_RESV.addr e i)) (hn a ha).symm s _) _
    rw [ks.apart _ (not_not_intro rfl)]
    refine ⟨?_, rfl⟩
    rw [State.reg, hk, Option.getD_none]
    exact resv_reset _ he hi

theorem demoteClr_clears (he : e < 18) (hw : s.regsWf = true) (hi : i < 256) : Answers (.demoteClr e) s fun t =>
    t.fget (R.EP_RESV.DEMOTED e i) = 0 ∧ t.fget (R.EP_RESV.CELLS e i) = s.fget (R.EP_RESV.CELLS e i) ∧
      t = { s with regs := t.regs } := by
  have hf := State.fget_demoteClr he hw hi
  refine ⟨s.demoteClr e, congrArg Host.Outcome.next (if_neg (by omega)), hf.1, hf.2, ?_⟩
  exact State.forEach_keeps (P := fun t => t = { s with regs := t.regs }) (fun u _ h => by rw [h]; rfl) _ _ rfl

/-! ## Volatile mode (R195) -/

/-- VOLATILE and the lines it drops leave the other fields. -/
theorem State.fget_setVolatile (s : State) (e : Nat) (v : Bool) (f : Fld) :
    (s.setVolatile e v).fget f = (s.fsetb (R.EP_CTL.VOLATILE e) v).fget f := by
  generalize hu : s.fsetb (R.EP_CTL.VOLATILE e) v = u
  rw [State.setVolatile, hu]
  cases v <;> rfl

theorem volatileSet_sets (he : e < 18) (v : Bool) (hw : s.regsWf = true) : Answers (.volatileSet e v) s fun t =>
    t.fbit (R.EP_CTL.VOLATILE e) = v ∧ (v = true → (t.ep e).cache = []) ∧ (v = false → t = { s with regs := t.regs }) ∧
      t.mem = s.mem := by
  have k : exec (.volatileSet e v) s = .next (s.setVolatile e v) := congrArg Host.Outcome.next (if_neg (by omega))
  have hf : (s.fsetb (R.EP_CTL.VOLATILE e) v).fget (R.EP_CTL.VOLATILE e) = if v then 1 else 0 :=
    (sets_fsetb (f := R.EP_CTL.VOLATILE e) hw (by simp) (by simp) v).1 (_, _) (List.mem_singleton_self _)
  refine ⟨_, k, ?_, ?_, ?_, ?_⟩
  · rw [State.fbit, State.fget_setVolatile, hf]
    cases v <;> rfl
  · rintro rfl
    simp [State.setVolatile, State.when, State.dropCache, State.dropLines, State.ep]
  · rintro rfl
    rfl
  · simp only [State.setVolatile, State.when]
    split <;> rfl

/-! ## Milestones (R188, R189) -/

theorem msCountWrite_writes {m : Nat} (v : W64) (hw : s.regsWf = true) (he : e < 18) (hm : m < 4096) (h : (s.ep e).waits = []) :
    Answers (.msCountWrite e m v) s fun t => t.fget (R.MS_COUNT.COUNT e m) = v.toNat ∧
      (∀ a, a ≠ R.MS_COUNT.addr e m → t.reg a = s.reg a) ∧ t = { s with regs := t.regs } := by
  have k : exec (.msCountWrite e m v) s = .next (s.setReg (R.MS_COUNT.addr e m) v) :=
    congrArg Host.Outcome.next ((if_pos ⟨he, hm⟩).trans (State.evalWaits_idle (by rwa [State.ep_setReg])))
  refine ⟨_, k, ?_, fun a ha => s.reg_setReg_ne ha v, rfl⟩
  rw [State.fget, s.reg_setReg (State.krising_of_regsWf hw)]
  have hv := v.isLt
  simp only [bitsOf]
  omega

/-- A wait of the chiplet's end-point that ends and drops no line completes with its status. -/
theorem State.waitEnd_chip {w : MsWait} {st : Nat} (h : st ≠ ST.OK ∨ w.keep = true) : s.waitEnd 17 w st =
    (s.setEp 17 { s.ep 17 with waits := (s.ep 17).waits.filter (·.id != w.id) }).emit (.complete w.observer w.tag st []) := by
  have hk : ∀ t : State, (if st = ST.OK then t.reachCache 17 w.observer w.ctx w.scope w.keep else t) = t := by
    intro t
    split
    · next hs => rw [State.reachCache, h.resolve_left (absurd hs), Bool.true_or, if_pos rfl]
    · rfl
  simp only [State.waitEnd, hk]
  rfl

theorem milestoneSatisfied_completes {w : MsWait} (hf : (s.ep 17).waits.find? (·.id == w.id) = some w)
    (ht : w.target ≤ s.fget (R.MS_COUNT.COUNT 17 w.ms)) (hk : w.keep = true) : Answers (.milestoneSatisfied 17 w.id) s fun t =>
      (∀ x ∈ (t.ep 17).waits, x.id ≠ w.id) ∧
        t = { s with eps := t.eps, out := .complete w.observer w.tag ST.OK [] :: s.out } := by
  have k : exec (.milestoneSatisfied 17 w.id) s = .next (s.waitEnd 17 w ST.OK) := by
    refine congrArg Host.Outcome.next ?_
    rw [hf]
    exact if_pos ⟨by decide, decide_eq_true ht⟩
  rw [State.waitEnd_chip (.inr hk)] at k
  exact ⟨_, k, by simp, rfl⟩

theorem waitDeadline_completes {w : MsWait} (hw : (s.ep 17).waits = [w]) (ht : s.fget (R.MS_COUNT.COUNT 17 w.ms) < w.target)
    (hd : w.deadline ≠ 0) (hl : w.issued + w.deadline < s.now) : Answers (.waitDeadline 17) s fun t => (t.ep 17).waits = [] ∧
      t = { s with eps := t.eps, out := .complete w.observer w.tag ST.PENDING [] :: s.out } := by
  have hm : s.waitMet 17 w = false := decide_eq_false (by omega)
  have k : exec (.waitDeadline 17) s = .next (s.waitEnd 17 w ST.PENDING) := by
    refine congrArg Host.Outcome.next ?_
    rw [if_neg (by decide), hw]
    simp [State.forEach, hm, hd, hl]
  rw [State.waitEnd_chip (.inl (by decide))] at k
  exact ⟨_, k, by simp [hw], rfl⟩

/-! ## Fences and tokens (R217, R218, R221) -/

/-- A fence of the chiplet's end-point that covered a loss, or follows one, completes with ST_FENCE_LOST. -/
def State.fenceLost (s : State) (w : Fence) : Bool := w.lostCov || s.lostPending 17 w.observer w.ctx

/-- The chiplet's end-point without a fence. -/
def State.unfenced (s : State) (w : Fence) : State :=
  s.setEp 17 { s.ep 17 with fences := (s.ep 17).fences.filter (·.id != w.id) }

theorem execFenceComplete_chip {w : Fence} (hf : (s.ep 17).fences.find? (·.id == w.id) = some w)
    (ha : s.allDone 17 w.covers = true) (hx : w.xfers = []) (h0 : w.kind = 0) (hk : w.keep = true) :
    exec (.fenceComplete 17 w.id) s = .next
      (if s.fenceLost w then (((s.unfenced w).setLost 17 w.observer w.ctx false).finc (R.CH_ORDER.FENCE_LOST w.observer) 1).emit
          (.complete w.observer w.tag ST.FENCE_LOST [])
        else (s.unfenced w).emit (.complete w.observer w.tag ST.OK [])) := by
  have hl : (s.unfenced w).lostPending 17 w.observer w.ctx = s.lostPending 17 w.observer w.ctx := by
    simp [State.lostPending, State.unfenced]
  have hr (t : State) : t.reachCache 17 w.observer w.ctx w.scope w.keep = t := by
    rw [State.reachCache, hk, Bool.true_or, if_pos rfl]
  refine congrArg Host.Outcome.next ?_
  rw [hf]
  refine (if_pos ⟨by decide, by simp [State.fenceMet, ha, hx]⟩).trans ?_
  have hu : s.setEp 17 { s.ep 17 with fences := (s.ep 17).fences.filter (·.id != w.id) } = s.unfenced w := rfl
  have hd : (w.lostCov || s.lostPending 17 w.observer w.ctx) = s.fenceLost w := rfl
  simp only [State.fenceEnd, h0, hr, hu, hl, hd]
  cases s.fenceLost w <;> rfl

theorem fenceComplete_completes {w : Fence} (hf : (s.ep 17).fences.find? (·.id == w.id) = some w)
    (ha : s.allDone 17 w.covers = true) (hx : w.xfers = []) (h0 : w.kind = 0) (hk : w.keep = true) (hc : w.lostCov = false)
    (hp : s.lostPending 17 w.observer w.ctx = false) : Answers (.fenceComplete 17 w.id) s fun t =>
      (∀ x ∈ (t.ep 17).fences, x.id ≠ w.id) ∧
        t = { s with eps := t.eps, out := .complete w.observer w.tag ST.OK [] :: s.out } := by
  have hl : s.fenceLost w = false := by rw [State.fenceLost, hc, hp, Bool.or_self]
  refine ⟨_, (execFenceComplete_chip hf ha hx h0 hk).trans (by rw [hl]), ?_, rfl⟩
  simp [State.unfenced]

theorem fenceComplete_lost {w : Fence} (hf : (s.ep 17).fences.find? (·.id == w.id) = some w)
    (ha : s.allDone 17 w.covers = true) (hx : w.xfers = []) (h0 : w.kind = 0) (hk : w.keep = true)
    (hp : s.lostPending 17 w.observer w.ctx = true) : Answers (.fenceComplete 17 w.id) s fun t =>
      (∀ x ∈ (t.ep 17).fences, x.id ≠ w.id) ∧ t.lostPending 17 w.observer w.ctx = false ∧
        t.out = .complete w.observer w.tag ST.FENCE_LOST [] :: s.out ∧ t.mem = s.mem := by
  have hl : s.fenceLost w = true := by rw [State.fenceLost, hp, Bool.or_true]
  refine ⟨_, (execFenceComplete_chip hf ha hx h0 hk).trans (by rw [hl, if_pos rfl]), ?_, ?_, ?_, ?_⟩
  · simp [State.unfenced, State.setLost]
  · have h := (s.unfenced w).lostPending_setLost 17 w.observer w.ctx false
    rw [State.lostPending] at h ⊢
    rwa [State.ep_emit, State.ep_finc]
  · simp [State.unfenced, State.setLost]
  · simp [State.unfenced, State.setLost]

/-- A core's engine whose token has reached its target waits for nothing. -/
theorem tokenWaitDone_wakes {c g : Nat} {x : Engine} (hc : c < 256) (hg : g < 2) (hx : (s.core c).run.engines[g]? = some x)
    (h4 : x.wait = 4) (ht : tokenMet (kgetD (s.core c).run.tokens x.waitToken 0) x.waitTarget = true) :
    Answers (.tokenWaitDone c g) s fun t => (t.core c).run.engines[g]? = some { x with wait := 0 } ∧
      (t.core c).run.tokens = (s.core c).run.tokens ∧ (∀ k, k ≠ c → t.core k = s.core k) ∧ t = { s with cores := t.cores } := by
  have k : exec (.tokenWaitDone c g) s = .next (s.setCore c { s.core c with
      run := onEngine g (fun e => { e with wait := 0 }) (s.core c).run }) := by
    refine congrArg Host.Outcome.next ((if_neg (by omega)).trans ?_)
    simp only [hx, h4, ht, State.wake, State.when, State.withSet, show (g == 2) = false from beq_false_of_ne (by omega),
      show ¬256 ≤ c by omega, show g ≠ 2 by omega, Bool.false_and, if_false, and_self, if_true, Bool.false_eq_true]
  refine ⟨_, k, ?_, ?_, fun j hj => s.core_setCore_ne hj _, rfl⟩
  · rw [State.core_setCore]
    simp [onEngine, hx]
  · rw [State.core_setCore]
    rfl

/-- Settles O16: each clause is what its command's meaning gives on its premises; a wait, a fence and a token that end are taken
out and complete once. -/
theorem endpointWaits : Obligations.EndpointWaits := by
  refine ⟨fun s e he => ⟨replyRecordExpiry_forgets he, fun _ _ => seqWindowExpiry_forgets he, startupQuietEnd_ends he,
      fun _ _ _ _ hw hc h10 hr _ => demotionNotice_demotes he hw hc h10 hr, fun _ hw hi => demoteClr_clears he hw hi,
      fun v hw => volatileSet_sets he v hw⟩,
    fun s hw => ⟨fun _ _ v he hm h => msCountWrite_writes v hw he hm h, fun _ => milestoneSatisfied_completes,
      fun _ => waitDeadline_completes⟩,
    fun s => ⟨fun _ => fenceComplete_completes, fun _ => fenceComplete_lost, fun _ _ _ => tokenWaitDone_wakes⟩⟩

end Sys2Proof.Machine
end

/-! # Home memory of the chiplet -/
section
namespace Sys2Proof.Machine
open Sys2Proof.Laws

variable {s t : State} {line k : Nat} {x : StoreLine} {c a : Cell} {data : BitVec 512} {l : List (Nat × Cell)}

/-! ## The line store (R536) -/

theorem State.findLine_useLine (s : State) (x : StoreLine) : (s.useLine x).findLine x.line = some x := by
  simp [State.findLine, State.useLine]

@[simp] theorem State.findLine_emit (s : State) (o : Out) (line : Nat) : (s.emit o).findLine line = s.findLine line := rfl

theorem State.findLine_dropLine (s : State) (line : Nat) : (s.dropLine line).findLine line = none := by
  simp [State.findLine, State.dropLine]

theorem State.line_of_findLine (h : s.findLine line = some x) : x.line = line := find?_key h

theorem execHomeDone_found (hx : s.findLine line = some x) : Answers (.homeDone line) s fun t =>
    t.findLine line = some { x with awaitDone := x.awaitDone - 1 } ∧ (∀ l, l ≠ line → t.findLine l = s.findLine l) ∧
      t = { s with chip := t.chip } := by
  have hl := State.line_of_findLine hx
  have k : exec (.homeDone line) s = .next { s with chip := { s.chip with store := s.chip.store.map fun y =>
      if y.line = x.line then { y with awaitDone := y.awaitDone - 1 } else y } } := by
    refine congrArg Host.Outcome.next ?_
    rw [hx]
  have hfun (j : Nat) : ((fun y : StoreLine => y.line == j) ∘ fun y : StoreLine =>
      if y.line = x.line then { y with awaitDone := y.awaitDone - 1 } else y) = fun y => y.line == j := by
    funext y
    dsimp only [Function.comp]
    split <;> rfl
  refine ⟨_, k, ?_, fun j hj => ?_, rfl⟩
  · have h := hx
    rw [State.findLine] at h
    rw [State.findLine, List.find?_map, hfun, h]
    simp
  · rw [State.findLine, State.findLine, List.find?_map, hfun]
    cases hf : s.chip.store.find? (·.line == j) with
    | none => rfl
    | some y =>
      have hy : y.line = j := find?_key hf
      rw [Option.map_some, if_neg (by rw [hy, hl]; exact hj)]

/-! ## Answers of the home (R558) -/

/-- From s to t the home answered with a cell on a plane's port. -/
structure State.Answered (s t : State) (k : Nat) (a : Cell) : Prop where
  cells : CellsGo t (160 + k) [a]
  frame : t = { s with ports := t.ports, sw := t.sw, out := t.out }
  out : ∀ o ∈ s.out, o ∈ t.out

theorem State.homeAnswer_port (hk : k < 16) (hu : s.planeUsable 17 k = true) (a : Cell) : s.Answered (s.homeAnswer k a) k a := by
  have h : s.homeAnswer k a = s.portSend (160 + k) a := by
    rw [State.homeAnswer, if_neg (by omega), if_neg (by omega), if_pos hu]
  obtain ⟨hf, l, hl⟩ := s.portSend_only (160 + k) a
  rw [h]
  refine ⟨s.cellsGo_forEach_portSend (160 + k) [a], ?_, fun o ho => ?_⟩
  · generalize s.portSend (160 + k) a = u at hf
    rw [hf]
  · rw [hl]
    exact List.mem_append_right _ ho

theorem State.Answered.chip_eq (h : s.Answered t k a) : t.chip = s.chip := by rw [h.frame]

theorem State.Answered.findLine_eq (h : s.Answered t k a) (line : Nat) : t.findLine line = s.findLine line := by
  rw [State.findLine, State.findLine, h.chip_eq]

/-- Nothing waits for what home memory answered. -/
theorem State.homePump_idle (ha : s.chip.selfAns = []) (hm : (s.ep 17).members = []) (hr : (s.ep 17).roots = []) :
    s.homePump = s := by rw [State.homePump, State.selfPump_idle ha, State.collPump_idle hm hr]

theorem State.Answered.homePump_eq (h : s.Answered t k a) (ha : s.chip.selfAns = []) (hm : (s.ep 17).members = [])
    (hr : (s.ep 17).roots = []) : t.homePump = t := by
  have he : t.ep 17 = s.ep 17 := by rw [h.frame]; rfl
  exact State.homePump_idle (by rw [h.chip_eq, ha]) (by rw [he, hm]) (by rw [he, hr])

/-- A READ of a line that the store holds (R535). -/
theorem State.performHome_read (hc : c.typ = T.READ) (s : State) (x : StoreLine) (k : Nat) : s.performHome x k c =
    (s.useLine x).homeAnswer k (respOf c (bytesAt (lineBytes x.data) (c.offset % 64) c.bytes)) := by
  rw [State.performHome, if_neg (by rw [hc]; decide), if_pos hc]

/-- A line once a WRITE is performed on it. -/
def StoreLine.written (x : StoreLine) (c : Cell) (now : Nat) : StoreLine :=
  { x with data := mergeLine x.data c.payload c.mask, valid := true, awaitDone := x.awaitDone + 1, since := now }

theorem StoreLine.line_written (x : StoreLine) (c : Cell) (now : Nat) : (x.written c now).line = x.line := by
  simp only [StoreLine.written]

/-- A WRITE of a line that the store holds, or makes (R535, R536). -/
theorem State.performHome_write (hc : c.typ = T.WRITE) (s : State) (x : StoreLine) (k : Nat) : s.performHome x k c =
    ((s.useLine (x.written c s.now)).emit (.homeWrite x.line c.mask (mergeLine x.data c.payload c.mask))).homeAnswer k
      (ackOf c) := by
  rw [State.performHome, if_pos hc]
  rfl

/-! ## Home memory answers, or does not (R198, R536) -/

/-- A line as home memory's answer fills it. -/
def StoreLine.filled (x : StoreLine) (data : BitVec 512) : StoreLine :=
  { x with data := data, valid := true, awaitData := false, waiting := [] }

theorem StoreLine.line_filled (x : StoreLine) (data : BitVec 512) : (x.filled data).line = x.line := by
  simp only [StoreLine.filled]

/-- The one cell that waits for a line is performed on it. -/
theorem State.homeData_fills (hx : s.findLine line = some x) (hd : x.awaitData = true) (hw : x.waiting = [(k, c)]) :
    s.homeData line data false = (s.useLine (x.filled data)).performHome (x.filled data) k c := by
  have hf : (s.useLine (x.filled data)).findLine line = some (x.filled data) := by
    rw [← State.line_of_findLine hx]
    exact s.findLine_useLine (x.filled data)
  simp only [State.homeData, hx, hd, Bool.not_true, Bool.false_eq_true, if_false, hw, State.homeWaiters, State.forEach,
    List.foldl_cons, List.foldl_nil]
  rw [show ({ x with data := data, valid := true, awaitData := false, waiting := [] } : StoreLine) = x.filled data from rfl, hf]

/-- The one cell that waits for a line that did not come is answered, but a full-line WRITE is performed. -/
theorem State.homeGone_one (s : State) (line k : Nat) (c : Cell) : s.homeGone line [(k, c)] =
    if c.typ = T.WRITE ∧ c.bytes = 64 then (s.dropLine line).performHome { line := line } k c
    else (s.dropLine line).homeAnswer k (nackOf c ST.POISON false 0) := by
  simp only [State.homeGone, State.forEach, List.foldl_cons, List.foldl_nil, State.findLine_dropLine]

theorem State.homeData_lost (hx : s.findLine line = some x) (hd : x.awaitData = true) :
    s.homeData line data true = s.homeGone line x.waiting := by
  simp [State.homeData, hx, hd]

theorem State.homeTimeout_lost (hx : s.findLine line = some x) (hd : x.awaitData = true) (hs : x.since + 64 ≤ s.now) :
    s.homeTimeout line = (s.fsetb R.CH_STATUS.HOME_TIMEOUT true).homeGone line x.waiting := by
  have h : ¬s.now < x.since + 64 := by omega
  simp [State.homeTimeout, hx, hd, h]

/-- The flag of a time-out is no port's state. -/
theorem State.planeUsable_homeTimeout (s : State) (k : Nat) :
    (s.fsetb R.CH_STATUS.HOME_TIMEOUT true).planeUsable 17 k = s.planeUsable 17 k := by
  have h : (R.OP_PORT_STATUS.STATE (160 + k)).addr ≠ R.CH_STATUS.HOME_TIMEOUT.addr := by
    simp only [R.OP_PORT_STATUS.addr, opBase, R.CH_STATUS.addr]
    split <;> omega
  have hf : (s.fsetb R.CH_STATUS.HOME_TIMEOUT true).portState (160 + k) = s.portState (160 + k) := s.fget_fset_ne h 1
  rw [State.planeUsable, State.planeUsable, hf]
  rfl

/-- A line within its 64 frames waits on. -/
theorem homeTimeout_early (ha : s.chip.selfAns = []) (hm : (s.ep 17).members = []) (hr : (s.ep 17).roots = [])
    (hx : s.findLine line = some x) (hs : s.now < x.since + 64) : Answers (.homeTimeout line) s fun t => t = s := by
  have h : s.homeTimeout line = s := by simp [State.homeTimeout, hx, hs]
  exact ⟨s, congrArg Host.Outcome.next ((congrArg State.homePump h).trans (State.homePump_idle ha hm hr)), rfl⟩

/-! ## Cells that wait for the store (R536) -/

theorem takeFirst_holds {α : Type} {p : α → Bool} {l r : List α} {y : α} (h : takeFirst p l = some (y, r)) : p y = true := by
  induction l generalizing r with
  | nil => cases h
  | cons z l ih =>
    rw [takeFirst] at h
    split at h
    · next hp =>
      cases h
      exact hp
    · obtain ⟨w, hw, he⟩ := Option.map_eq_some_iff.1 h
      cases he
      exact ih hw

/-- The chiplet with another queue of cells for the store. -/
def State.dequeue (s : State) (l : List (Nat × Cell)) : State := { s with chip := { s.chip with storeQueue := l } }

theorem State.homeLine_dequeue (s : State) (l : List (Nat × Cell)) (off : Nat) : (s.dequeue l).homeLine off = s.homeLine off := rfl

theorem homeLine_of_takeFirst (hq : takeFirst (fun a : Nat × Cell => s.homeLine a.2.offset == line) s.chip.storeQueue =
    some ((k, c), l)) : s.homeLine c.offset = line := by
  simpa using takeFirst_holds hq

/-- The oldest cell that waits for a line is taken up when the line is there or can enter. -/
theorem State.lineAdmit_goes (hq : takeFirst (fun a : Nat × Cell => s.homeLine a.2.offset == line) s.chip.storeQueue =
    some ((k, c), l)) (hg : ¬((s.findLine line).isNone && s.homeRoom.isNone) = true) :
    s.lineAdmit line = (s.dequeue l).homePlace k c := by
  rw [State.lineAdmit, hq]
  exact if_neg hg

section
variable (ha : s.chip.selfAns = []) (hm : (s.ep 17).members = []) (hr : (s.ep 17).roots = []) (hk : k < 16)
  (hu : s.planeUsable 17 k = true)
include ha hm hr hk hu

/-- A step whose last act is an answer on a usable plane. -/
theorem answers_home {u : State} {i : Instr} (h : exec i s = .next (u.homeAnswer k a).homePump)
    (hc : u = { s with chip := { s.chip with store := u.chip.store, storeQueue := u.chip.storeQueue }, out := u.out }) :
    ∃ t, exec i s = .next t ∧ u.Answered t k a ∧ t = { s with chip := t.chip, ports := t.ports, sw := t.sw, out := t.out } := by
  have hp : u.planeUsable 17 k = true := by rw [hc]; exact hu
  have j := State.homeAnswer_port hk hp a
  rw [j.homePump_eq (by rw [hc]; exact ha) (by rw [hc]; exact hm) (by rw [hc]; exact hr)] at h
  refine ⟨_, h, j, ?_⟩
  generalize u.homeAnswer k a = t at j
  rw [j.chip_eq]
  refine j.frame.trans ?_
  rw [hc]

theorem homeData_read (hx : s.findLine line = some x) (hd : x.awaitData = true) (hw : x.waiting = [(k, c)])
    (hc : c.typ = T.READ) : Answers (.homeData line data false) s fun t =>
      t.findLine line = some { x with data := data, valid := true, awaitData := false, waiting := [] } ∧
        CellsGo t (160 + k) [respOf c (bytesAt (lineBytes data) (c.offset % 64) c.bytes)] ∧
        t = { s with chip := t.chip, ports := t.ports, sw := t.sw, out := t.out } := by
  have h : exec (.homeData line data false) s = .next (((s.useLine (x.filled data)).useLine (x.filled data)).homeAnswer k
      (respOf c (bytesAt (lineBytes data) (c.offset % 64) c.bytes))).homePump := by
    refine congrArg (fun u : State => Host.Outcome.next u.homePump) ?_
    rw [State.homeData_fills hx hd hw, State.performHome_read hc]
    rfl
  obtain ⟨t, e, j, hfr⟩ := answers_home ha hm hr hk hu h rfl
  refine ⟨t, e, ?_, j.cells, hfr⟩
  rw [j.findLine_eq, ← State.line_of_findLine hx]
  exact State.findLine_useLine _ (x.filled data)

theorem homeData_write (hx : s.findLine line = some x) (hd : x.awaitData = true) (hw : x.waiting = [(k, c)])
    (hc : c.typ = T.WRITE) : Answers (.homeData line data false) s fun t =>
      t.findLine line = some { x with data := mergeLine data c.payload c.mask, valid := true, awaitData := false,
                                      waiting := [], awaitDone := x.awaitDone + 1, since := s.now } ∧
        CellsGo t (160 + k) [ackOf c] ∧ .homeWrite x.line c.mask (mergeLine data c.payload c.mask) ∈ t.out ∧
        t = { s with chip := t.chip, ports := t.ports, sw := t.sw, out := t.out } := by
  have h : exec (.homeData line data false) s = .next
      ((((s.useLine (x.filled data)).useLine ((x.filled data).written c s.now)).emit
        (.homeWrite x.line c.mask (mergeLine data c.payload c.mask))).homeAnswer k (ackOf c)).homePump := by
    refine congrArg (fun u : State => Host.Outcome.next u.homePump) ?_
    rw [State.homeData_fills hx hd hw, State.performHome_write hc]
    rfl
  obtain ⟨t, e, j, hfr⟩ := answers_home ha hm hr hk hu h rfl
  have hf := (s.useLine (x.filled data)).findLine_useLine ((x.filled data).written c s.now)
  rw [StoreLine.line_written, StoreLine.line_filled, State.line_of_findLine hx] at hf
  refine ⟨t, e, ?_, j.cells, j.out _ List.mem_cons_self, hfr⟩
  rw [j.findLine_eq, State.findLine_emit, hf]
  rfl

theorem homeData_poisons (hx : s.findLine line = some x) (hd : x.awaitData = true) (hw : x.waiting = [(k, c)])
    (hc : c.typ ≠ T.WRITE ∨ c.bytes < 64) : Answers (.homeData line data true) s fun t => t.findLine line = none ∧
      CellsGo t (160 + k) [nackOf c ST.POISON false 0] ∧
      t = { s with chip := t.chip, ports := t.ports, sw := t.sw, out := t.out } := by
  have h : exec (.homeData line data true) s = .next ((s.dropLine line).homeAnswer k (nackOf c ST.POISON false 0)).homePump := by
    refine congrArg (fun u : State => Host.Outcome.next u.homePump) ?_
    rw [State.homeData_lost hx hd, hw, State.homeGone_one, if_neg (by omega)]
  obtain ⟨t, e, j, hfr⟩ := answers_home ha hm hr hk hu h rfl
  exact ⟨t, e, by rw [j.findLine_eq, State.findLine_dropLine], j.cells, hfr⟩

theorem homeTimeout_poisons (hx : s.findLine line = some x) (hd : x.awaitData = true) (hw : x.waiting = [(k, c)])
    (hc : c.typ ≠ T.WRITE ∨ c.bytes < 64) (hwf : s.regsWf = true) (hs : x.since + 64 ≤ s.now) :
    Answers (.homeTimeout line) s fun t => t.findLine line = none ∧ Sets s t [(R.CH_STATUS.HOME_TIMEOUT, 1)] ∧
      CellsGo t (160 + k) [nackOf c ST.POISON false 0] ∧
      t = { s with regs := t.regs, chip := t.chip, ports := t.ports, sw := t.sw, out := t.out } := by
  have hv : Sets s (s.fsetb R.CH_STATUS.HOME_TIMEOUT true) [(R.CH_STATUS.HOME_TIMEOUT, 1)] :=
    sets_fsetb hwf (by simp) (by simp) true
  have hp := (s.planeUsable_homeTimeout k).trans hu
  have h : exec (.homeTimeout line) s = .next (((s.fsetb R.CH_STATUS.HOME_TIMEOUT true).dropLine line).homeAnswer k
      (nackOf c ST.POISON false 0)).homePump := by
    refine congrArg (fun u : State => Host.Outcome.next u.homePump) ?_
    rw [State.homeTimeout_lost hx hd hs, hw, State.homeGone_one, if_neg (by omega)]
  have hfr : s.fsetb R.CH_STATUS.HOME_TIMEOUT true = { s with regs := (s.fsetb R.CH_STATUS.HOME_TIMEOUT true).regs } := rfl
  generalize s.fsetb R.CH_STATUS.HOME_TIMEOUT true = v at hv hp h hfr
  have j := State.homeAnswer_port (s := v.dropLine line) hk hp (nackOf c ST.POISON false 0)
  have hpump := j.homePump_eq (by rw [hfr]; exact ha) (by rw [hfr]; exact hm) (by rw [hfr]; exact hr)
  rw [hpump] at h
  generalize (v.dropLine line).homeAnswer k (nackOf c ST.POISON false 0) = t at h j
  have hregs : t.regs = v.regs := by rw [j.frame]; rfl
  refine ⟨t, h, ?_, Sets.congr hv hregs (by rw [j.frame]; rfl), j.cells, ?_⟩
  · rw [j.findLine_eq, State.findLine_dropLine]
  · rw [hregs, j.chip_eq]
    refine j.frame.trans ?_
    rw [hfr]
    rfl

theorem homeData_fullLine (hx : s.findLine line = some x) (hd : x.awaitData = true) (hw : x.waiting = [(k, c)])
    (hc : c.typ = T.WRITE) (hb : c.bytes = 64) : Answers (.homeData line data true) s fun t =>
      (t.findLine line).any (·.valid) = true ∧ CellsGo t (160 + k) [ackOf c] ∧
        .homeWrite line c.mask (mergeLine 0 c.payload c.mask) ∈ t.out ∧
        t = { s with chip := t.chip, ports := t.ports, sw := t.sw, out := t.out } := by
  have h : exec (.homeData line data true) s = .next ((((s.dropLine line).useLine
      (StoreLine.written { line := line } c s.now)).emit (.homeWrite line c.mask (mergeLine 0 c.payload c.mask))).homeAnswer k
        (ackOf c)).homePump := by
    refine congrArg (fun u : State => Host.Outcome.next u.homePump) ?_
    rw [State.homeData_lost hx hd, hw, State.homeGone_one, if_pos ⟨hc, hb⟩, State.performHome_write hc]
    rfl
  obtain ⟨t, e, j, hfr⟩ := answers_home ha hm hr hk hu h rfl
  have hf : t.findLine line = some (StoreLine.written { line := line } c s.now) :=
    (j.findLine_eq line).trans ((s.dropLine line).findLine_useLine (StoreLine.written { line := line } c s.now))
  exact ⟨t, e, by rw [hf]; rfl, j.cells, j.out _ List.mem_cons_self, hfr⟩

/-- A READ that waited for the store proceeds on its line. -/
theorem lineStoreAdmit_reads (hx : s.findLine line = some x)
    (hq : takeFirst (fun a => s.homeLine a.2.offset == line) s.chip.storeQueue = some ((k, c), l)) (hv : x.valid = true)
    (hw : x.waiting = []) (hc : c.typ = T.READ) : Answers (.lineStoreAdmit line) s fun t => t.chip.storeQueue = l ∧
      CellsGo t (160 + k) [respOf c (bytesAt (lineBytes x.data) (c.offset % 64) c.bytes)] ∧
      t = { s with chip := t.chip, ports := t.ports, sw := t.sw, out := t.out } := by
  have h : exec (.lineStoreAdmit line) s = .next (((s.dequeue l).useLine x).homeAnswer k
      (respOf c (bytesAt (lineBytes x.data) (c.offset % 64) c.bytes))).homePump := by
    refine congrArg (fun u : State => Host.Outcome.next u.homePump) ?_
    have hf : (s.dequeue l).findLine line = some x := hx
    have hg : ¬((s.findLine line).isNone && s.homeRoom.isNone) = true := by simp [hx]
    rw [State.lineAdmit_goes hq hg, State.homePlace, State.homeLine_dequeue, homeLine_of_takeFirst hq]
    simp only [hf, hv, hw, List.isEmpty_nil, Bool.and_self, if_true]
    exact State.performHome_read hc _ _ _
  obtain ⟨t, e, j, hfr⟩ := answers_home ha hm hr hk hu h rfl
  exact ⟨t, e, by rw [j.chip_eq]; rfl, j.cells, hfr⟩

end

/-! ## Lines that enter (R536) -/

theorem lineStoreAdmit_waits (ha : s.chip.selfAns = []) (hm : (s.ep 17).members = []) (hr : (s.ep 17).roots = [])
    (hx : s.findLine line = none) (hn : s.homeRoom = none) : exec (.lineStoreAdmit line) s = .next s := by
  have h : s.lineAdmit line = s := by
    unfold State.lineAdmit
    split
    · rfl
    · exact if_pos (by simp [hx, hn])
  exact congrArg Host.Outcome.next ((congrArg State.homePump h).trans (State.homePump_idle ha hm hr))

theorem lineStoreAdmit_fetches (ha : s.chip.selfAns = []) (hm : (s.ep 17).members = []) (hr : (s.ep 17).roots = [])
    (hx : s.findLine line = none) (hq : takeFirst (fun a => s.homeLine a.2.offset == line) s.chip.storeQueue = some ((k, c), l))
    (hn : s.chip.store.length < 8192) (hc : c.typ = T.READ) : Answers (.lineStoreAdmit line) s fun t => t.chip.storeQueue = l ∧
      t.findLine line = some { line := line, awaitData := true, since := s.now, waiting := [(k, c)] } ∧
      t.out = .homeRead line :: s.out ∧ t = { s with chip := t.chip, out := t.out } := by
  have hroom : (s.dequeue l).homeRoom = some (s.dequeue l) := if_pos hn
  have hf : (s.dequeue l).findLine line = none := hx
  have h : s.lineAdmit line =
      ((s.dequeue l).useLine { line := line, awaitData := true, since := s.now, waiting := [(k, c)] }).emit (.homeRead line) := by
    have hg : ¬((s.findLine line).isNone && s.homeRoom.isNone) = true := by
      rw [show s.homeRoom = some s from if_pos hn]
      simp
    have hw : ¬(c.typ = T.WRITE ∧ c.bytes = 64) := fun h => absurd (hc.symm.trans h.1) (by decide)
    rw [State.lineAdmit_goes hq hg, State.homePlace, State.homeLine_dequeue, homeLine_of_takeFirst hq]
    simp only [hf, hroom, if_neg hw]
    rfl
  refine ⟨_, congrArg Host.Outcome.next ((congrArg State.homePump h).trans (State.homePump_idle ha hm hr)), rfl, ?_, rfl, rfl⟩
  exact (s.dequeue l).findLine_useLine { line := line, awaitData := true, since := s.now, waiting := [(k, c)] }

/-- Settles O49: the atomic unit performs on a line what waited for it and answers it, with ST_POISON where the line did not come;
a cell that waited for the store proceeds when its line is there or can enter. -/
theorem homeMemoryServes : Obligations.HomeMemoryServes := fun s _ _ ha hm hr =>
  ⟨fun hx =>
    ⟨fun _ _ _ hd hw hk hu =>
      ⟨fun hc => homeData_read ha hm hr hk hu hx hd hw hc, fun hc => homeData_write ha hm hr hk hu hx hd hw hc,
        fun hc => ⟨homeData_poisons ha hm hr hk hu hx hd hw hc,
          fun hwf hs => homeTimeout_poisons ha hm hr hk hu hx hd hw hc hwf hs⟩,
        fun hc hb _ => homeData_fullLine ha hm hr hk hu hx hd hw hc hb⟩,
      fun hs => homeTimeout_early ha hm hr hx hs, execHomeDone_found hx,
      fun _ _ _ hq hv hw hc hk hu => lineStoreAdmit_reads ha hm hr hk hu hx hq hv hw hc⟩,
    fun hx _ _ _ hq => ⟨fun hn => ⟨s, lineStoreAdmit_waits ha hm hr hx hn, rfl⟩,
      fun hn hc => lineStoreAdmit_fetches ha hm hr hx hq hn hc⟩⟩

end Sys2Proof.Machine
end

/-! # A wait that is met while 256 waits are pending -/
section
namespace Sys2Proof.Machine

/-- A wait on a milestone of its own context that comes while 256 waits are pending is refused with ST_BUSY (R189). -/
theorem State.syncWait_full {s : State} {rq ctx scope ms : Nat} (hr : rq < 64) (hb : s.holdsBack rq = false) (hx : ctx < 64)
    (hs : scope < 8) (hm : ms < 4096) (ho : s.fget (R.MS_INFO.OWNER 17 ms) = ctx) (hw : 256 ≤ (s.ep 17).waits.length)
    (tag deadline : Nat) (keep : Bool) (v : W64) :
    exec (.syncWait rq tag ctx scope keep ms v deadline false) s = .next (s.emit (.complete rq tag ST.BUSY [])) := by
  refine congrArg Host.Outcome.next ((if_neg ?_).trans ((if_neg ?_).trans ((if_neg (not_not_intro ho)).trans (if_pos hw))))
  · simp [hb, hr]
  · simp only [Bool.false_eq_true, false_or]
    omega

/-- A chiplet at which requester 1 has 256 waits pending. -/
def waitsFull : State := { eps := [(17, { waits := List.replicate 256 { observer := 1 } })] }

/-- Refutes O48: with 256 waits pending a wait is refused with ST_BUSY even when its target is reached, and the clause of such a
wait says ST_OK whatever the number of waits. -/
theorem not_chipletMessages : ¬ Obligations.ChipletMessages := by
  intro h
  have hb : waitsFull.holdsBack 0 = false := by decide +kernel
  have ho : waitsFull.fget (R.MS_INFO.OWNER 17 0) = 0 := by decide +kernel
  obtain ⟨-, -, -, hsync, -⟩ := h waitsFull (by decide +kernel)
  obtain ⟨-, -, -, hwait⟩ := hsync 0 0 0 0 true (by decide) (by decide) (by decide) hb
  obtain ⟨-, hmet, -⟩ := hwait 0 0 0 (by decide)
  obtain ⟨t, ht, hok, -⟩ := hmet ho (by decide +kernel)
  have hbusy := State.syncWait_full (scope := 0) (by decide) hb (by decide) (by decide) (by decide) ho (by decide +kernel) 0 0 true 0
  obtain rfl : waitsFull.emit (.complete 0 0 ST.BUSY []) = t := by simpa using hbusy.symm.trans ht
  exact absurd hok (by decide +kernel)

end Sys2Proof.Machine
end

/-! # Engines of a running set -/
section
namespace Sys2Proof.Machine
open Sys2Proof.Laws

variable {s : State} {c e : Nat}

/-- Engine i of a register set. -/
def RegSet.eng (r : RegSet) (i : Nat) : Engine := (r.engines[i]?).getD {}

theorem State.eng_eq (s : State) (c e : Nat) : s.eng c e = (s.core c).run.eng e := rfl

theorem onEngine_eng {r : RegSet} {i : Nat} (h : i < r.engines.length) (f : Engine → Engine) :
    (onEngine i f r).eng i = f (r.eng i) := by
  simp [RegSet.eng, onEngine, h]

theorem onEngine_eng_ne {i j : Nat} (h : j ≠ i) (f : Engine → Engine) (r : RegSet) : (onEngine i f r).eng j = r.eng j := by
  simp only [RegSet.eng, onEngine, List.getElem?_mapIdx]
  cases r.engines[j]? <;> simp [h]

@[simp] theorem onEngine_length (i : Nat) (f : Engine → Engine) (r : RegSet) :
    (onEngine i f r).engines.length = r.engines.length := by
  simp [onEngine]

/-- A change of an engine that keeps its PC keeps every PC. -/
theorem onEngine_pc {f : Engine → Engine} (h : ∀ g, (f g).pc = g.pc) (i j : Nat) (r : RegSet) :
    ((onEngine i f r).eng j).pc = (r.eng j).pc := by
  simp only [RegSet.eng, onEngine, List.getElem?_mapIdx]
  cases r.engines[j]? with
  | none => rfl
  | some g => by_cases hj : j = i <;> simp [hj, h]

theorem State.core_setEng (s : State) (c e : Nat) (f : Engine → Engine) :
    (s.setEng c e f).core c = { s.core c with run := onEngine e f (s.core c).run } := s.core_setCore c _

theorem State.eng_setEng (h : e < (s.core c).run.engines.length) (f : Engine → Engine) :
    (s.setEng c e f).eng c e = f (s.eng c e) := by
  rw [State.eng_eq, State.core_setEng, onEngine_eng h, State.eng_eq]

theorem State.pass_eq (h : s.ahead c e = false) : s.pass c e = s.setEng c e fun g => { g with pc := (s.eng c e).pc + 1 } := by
  simp [State.pass, State.nextPc, h]

end Sys2Proof.Machine
end

/-! # An engine that executes its word -/
section
namespace Sys2Proof
open Machine Laws

variable {s : State} {c e op : Nat} {w : W64}

/-! ## What an engine that executes a word is (R325, R337, R343) -/

/-- The engine goes on with the meaning of its word. -/
theorem Runs.go (h : Runs s c e op w) (regs : List Nat) (f : State → State) :
    s.go { c := c, e := e, op := op, w := w, access := true, regs := regs } f = f s := by
  obtain ⟨hmay, ha, hp, hpc, hf, hc, hw, ho⟩ := h
  have hm : s.mayIssue { c := c, e := e, op := op, w := w, access := true, regs := regs } = true := by
    simpa [State.mayIssue, hp] using hmay
  simp [State.go, hm, hf, hc, hw, ho, Nat.not_le.2 hpc]

theorem Runs.not_ahead (h : Runs s c e op w) : s.ahead c e = false := h.2.1

theorem Runs.not_pending (h : Runs s c e op w) : (s.core c).run.pendingRegs = [] := h.2.2.1

theorem Runs.core_lt (h : Runs s c e op w) : c < 256 := by
  have hm := h.1
  simp only [State.mayIssue, Bool.and_eq_true, decide_eq_true_eq] at hm
  tauto

theorem Runs.not_stopped (h : Runs s c e op w) : (s.eng c e).stopped = false := by
  have hm := h.1
  simp only [State.mayIssue, Bool.and_eq_true, Bool.not_eq_true'] at hm
  tauto

/-- An engine that the running set does not have counts as stopped. -/
theorem Runs.engine_lt (h : Runs s c e op w) : e < (s.core c).run.engines.length := by
  by_contra hn
  have k := h.not_stopped
  rw [State.eng_eq, RegSet.eng, List.getElem?_eq_none (by omega)] at k
  exact absurd k (by decide)

/-- Nothing holds the engine. -/
theorem Runs.not_waiting (h : Runs s c e op w) : (s.eng c e).wait = 0 := by
  have hm := h.1
  simp only [State.mayIssue, h.not_ahead, Bool.and_eq_true] at hm
  simpa using hm.2

/-! ## The next word (R327) -/

theorem Runs.pc_pass (h : Runs s c e op w) : ((s.pass c e).eng c e).pc = (s.eng c e).pc + 1 := by
  rw [State.pass_eq h.not_ahead, State.eng_setEng h.engine_lt]

/-- Going on changes the core's engines alone. -/
theorem Runs.core_pass (h : Runs s c e op w) : (s.pass c e).core c =
    { s.core c with run := onEngine e (fun g => { g with pc := (s.eng c e).pc + 1 }) (s.core c).run } := by
  rw [State.pass_eq h.not_ahead, State.core_setEng]

theorem Runs.pass_frame (h : Runs s c e op w) : s.pass c e = { s with cores := (s.pass c e).cores } := by
  rw [State.pass_eq h.not_ahead]
  rfl

/-! ## Requests (R85, R209, R210) -/

/-- TYPE of the cells of a request. -/
def MemReq.cellTyp (r : MemReq) : Nat :=
  if r.op ≤ 2 then T.READ else if r.op ≤ 4 then T.WRITE else if r.op = 5 then T.ATOMIC else T.INVALIDATE

/-- What the engine waits for once its request is outstanding: 1 an acquire, 5 a release. -/
def MemReq.holds (r : MemReq) : Nat := if reqAcquire r then 1 else if reqRelease r then 5 else 0

end Sys2Proof
end

/-! # Requests that the scalar engine presents -/
section
namespace Sys2Proof.Machine
open Sys2Proof.Laws

variable {s t u : State} {c e : Nat} {r : MemReq} {q : Request} {x : Xlat}

/-! ## Cells of a request (R85, R173) -/

/-- At most 64 bytes go in one cell. -/
theorem lenCells_of_le {n : Nat} (h : n ≤ 64) : lenCells ((lenCode n).getD 0) = 1 := by
  have hk : (lenCode n).getD 0 ≤ 6 := by
    cases hc : lenCode n with
    | none => exact Nat.zero_le _
    | some k =>
      have h2 : 2 ^ k = n := by simpa using List.find?_some hc
      exact (Nat.pow_le_pow_iff_right (a := 2) (by decide)).1 (by rw [Option.getD_some]; omega)
  rw [lenCells, if_neg (by omega), if_neg (by omega)]

/-- The one cell of a request of at most 64 bytes. -/
theorem cellsOf_single (hl : r.len ≤ 64) (src dst base sp v : Nat) : ∃ d,
    cellsOf r src dst base sp v false = [d] ∧ d.typ = r.cellTyp ∧ d.ctx = r.ctx ∧ d.src = src := by
  simp only [cellsOf, Bool.false_eq_true, if_false, lenCells_of_le hl]
  exact ⟨_, rfl, rfl, rfl, rfl⟩

/-! ## Cached lines that a write drops (R193, R228) -/

/-- From s to t lines of e's cache are gone, requests know of it, and run-ahead may be marked; what waits to leave e and what
every core otherwise holds stands. -/
structure State.LinesGone (s t : State) (e : Nat) : Prop where
  frame : t = { s with eps := t.eps, cores := t.cores }
  ort : (t.ep e).ort = (s.ep e).ort
  quiet : (t.ep e).quietUntil = (s.ep e).quietUntil
  core : ∀ c, ∃ ra, t.core c = { s.core c with run := { (s.core c).run with ra := ra } }

theorem State.LinesGone.rfl_ (s : State) (e : Nat) : s.LinesGone s e := ⟨rfl, rfl, rfl, fun _ => ⟨_, rfl⟩⟩

/-- A change of every core that leaves an empty core as it is. -/
theorem kgetD_map {α : Type} {g : Nat → α → α} {d : α} (m : KV α) (k : Nat) (hd : g k d = d) :
    kgetD (m.map fun a => (a.1, g a.1 a.2)) k d = g k (kgetD m k d) := by
  induction m with
  | nil => exact hd.symm
  | cons a m ih =>
    simp only [kgetD, List.map_cons, kget] at ih ⊢
    by_cases h : a.1 = k
    · simp [h]
    · simpa [h] using ih

/-- What dropping lines of engine e does to core c: a run-ahead that has read one of them is squashed. -/
def raMark (e : Nat) (p : Nat × Nat × Nat × Nat → Bool) (c : Nat) (k : Core) : Core :=
  if c / 16 ≠ e then k
  else match k.run.ra with
    | none => k
    | some a =>
      { k with run := { k.run with
          ra := some { a with squash := a.squash || a.lines.any fun l => p (k.run.ctx, l.1, l.2.1, l.2.2) } } }

theorem State.linesGone_dropLines (s : State) (e : Nat) (p : Nat × Nat × Nat × Nat → Bool) : s.LinesGone (s.dropLines e p) e where
  frame := rfl
  ort := by simp [State.dropLines, State.ep, State.setEp]
  quiet := by simp [State.dropLines, State.ep, State.setEp]
  core c := by
    have k := kgetD_map (g := raMark e p) (d := {}) s.cores c (by unfold raMark; split <;> rfl)
    rw [State.core, State.core]
    change ∃ ra, kgetD (s.cores.map fun a => (a.1, raMark e p a.1 a.2)) c {} = _
    rw [k]
    unfold raMark
    split
    · exact ⟨_, rfl⟩
    · split
      · exact ⟨_, rfl⟩
      · exact ⟨_, rfl⟩

/-! ## Issue (R164, R172, R208) -/

/-- At a quiet end-point, and for a request that waits for others, cells are entered and none is sent. -/
theorem State.enterCells_waits (hq : s.now < (s.ep e).quietUntil) (d : Cell) (i : Bool) (far : Nat) :
    ∃ o : Outst, o.sent = none ∧ o.cell = d ∧ s.enterCells e q [d] i far = s.setEp e { s.ep e with
      reqs := (s.ep e).reqs ++ [{ q with cells := 1 }], ort := (s.ep e).ort ++ [o], nextKey := (s.ep e).nextKey + 1 } := by
  by_cases hc : q.covered = []
  · obtain ⟨os, hlen, hos, k⟩ := State.enterCells_quiet hq hc [d] i far
    obtain ⟨o, rfl⟩ := List.length_eq_one_iff.1 hlen
    obtain ⟨hs, -, hd⟩ := hos o (List.mem_singleton_self o)
    exact ⟨o, hs, List.mem_singleton.1 hd, k⟩
  · refine ⟨{ key := (s.ep e).nextKey, req := q.id, cell := d, interRack := i, held := true, orBe := q.dest.mirrors
              plane := (s.choosePlane e far (q.ga % 2 ^ 44)).getD 0 }, rfl, rfl, ?_⟩
    have hh : (!q.covered.isEmpty) = true := by simp [hc]
    rw [State.enterCells]
    simp only [hh, if_true]
    rfl

/-- A request to another end-point that no cache serves is entered as one cell, once the lines it writes are gone. -/
theorem State.issueAt_enters (hl : r.op = 6 ∨ r.len ≤ 64) (hr : q.r = r) (hc : s.checkAt e r x = ST.OK)
    (hid : x.ga / 2 ^ 44 % 1024 ≠ s.epId e) (hcache : s.fbit (R.EP_CTL.CACHE_EN e) = false) (f : LineFault) :
    ∃ (u : State) (q' : Request) (d : Cell) (i : Bool) (far : Nat), s.issueAt e q x f = u.enterCells e q' [d] i far ∧
      s.LinesGone u e ∧ q'.id = q.id ∧ d.typ = r.cellTyp ∧ d.ctx = r.ctx ∧ d.src = s.epId e := by
  subst hr
  have hid' : (x.ga / 2 ^ 44 % 1024 == s.epId e) = false := beq_false_of_ne hid
  unfold State.issueAt
  extract_lets _ id rack sp off inter q' a b u _ _ _ _ cached hit plane base dst cs
  have hu : s.LinesGone u e := by
    dsimp only [u]
    split
    · exact s.linesGone_dropLines e _
    · exact .rfl_ s e
  have hreg : u.fbit (R.EP_CTL.CACHE_EN e) = false := by
    rw [hu.frame]
    exact hcache
  have hown : u.epId e = s.epId e := by
    rw [hu.frame]
    rfl
  rw [if_neg (not_not_intro hc)]
  by_cases h6 : q.r.op = 6
  · rw [if_pos h6]
    exact ⟨u, _, _, _, _, rfl, hu, rfl, by simp [invalCell, MemReq.cellTyp, h6], rfl, hown⟩
  · have hnot : cached = false := by simp [cached, hreg]
    have hmiss : hit = none := by simp [hit, hnot]
    obtain ⟨d, hd, ht, hx, hs⟩ : ∃ d, cs = [d] ∧ d.typ = q.r.cellTyp ∧ d.ctx = q.r.ctx ∧ d.src = s.epId e := by
      simp only [cs, hnot, hown]
      exact cellsOf_single (hl.resolve_left h6) _ _ _ _ _
    rw [if_neg h6, hown, hid', Bool.and_false, Bool.false_and, Bool.false_and, if_neg Bool.false_ne_true,
      if_neg Bool.false_ne_true, hmiss, hd]
    exact ⟨u, _, d, _, _, rfl, hu, rfl, ht, hx, hs⟩

/-- From s to t a request entered e as one cell, which waits, and its id is among e's requests. -/
structure State.EntersCell (s t : State) (e : Nat) (r : MemReq) : Prop where
  frame : t = { s with eps := t.eps, cores := t.cores }
  ort : ∃ o, (t.ep e).ort = (s.ep e).ort ++ [o] ∧ o.sent = none ∧ o.cell.typ = r.cellTyp ∧ o.cell.ctx = r.ctx ∧
    o.cell.src = s.epId e
  req : ∃ q ∈ (t.ep e).reqs, q.id = (s.ep e).nextKey
  core : ∀ c, ∃ ra, t.core c = { s.core c with run := { (s.core c).run with ra := ra } }

/-- A request whose milestone is one of the 4,096 is kept as it came. -/
theorem State.r_newReq_of_lt (hm : ∀ m ∈ r.ms, m < 4096) (s : State) (e core : Nat) (d : Dest) :
    (s.newReq e r core d).r = r := by
  have h : r.ms.map (· % 4096) = r.ms := by
    cases hr : r.ms with
    | none => rfl
    | some m => exact congrArg some (Nat.mod_eq_of_lt (hm m hr))
  rw [State.newReq, h]

theorem State.issue_enters (hm : ∀ m ∈ r.ms, m < 4096) (hl : r.op = 6 ∨ r.len ≤ 64) (hq : s.now < (s.ep e).quietUntil)
    (hcache : s.fbit (R.EP_CTL.CACHE_EN e) = false) (hb : ∀ v ∈ s.transEntries e, s.badEntry e v = false)
    (hc : s.check e r = (ST.OK, some x)) (hid : x.ga / 2 ^ 44 % 1024 ≠ s.epId e) (core : Nat) (d : Dest) (f : LineFault) :
    s.EntersCell (s.issue e r core d f) e r := by
  obtain ⟨hp, hk⟩ := State.permitted_of_check hc
  have hr := State.r_newReq_of_lt hm s e core d
  have hp' : (s.takeKey e).permitted e r = some x := hp
  obtain ⟨u, q, a, i, far, hi, hu, hid', ht, hx, hs⟩ :=
    State.issueAt_enters (s := s.takeKey e) (q := s.newReq e r core d) hl hr hk hid hcache f
  have h : s.issue e r core d f = u.enterCells e q [a] i far := by
    simp only [State.issue, State.markBad_none hb, hr, hp', hi]
  have hquiet : u.now < (u.ep e).quietUntil := by
    rw [hu.quiet, hu.frame]
    simpa [State.takeKey, State.now] using hq
  obtain ⟨o, hsent, rfl, hen⟩ := State.enterCells_waits (q := q) hquiet a i far
  rw [h, hen]
  refine ⟨?_, ⟨o, ?_, hsent, ht, hx, hs⟩, ⟨{ q with cells := 1 }, ?_, hid'⟩, fun c => hu.core c⟩
  · rw [hu.frame]
    rfl
  · rw [State.ep_setEp, hu.ort]
    simp [State.takeKey]
  · rw [State.ep_setEp]
    simp

/-! ## The engine that presents it (R209, R210, R343) -/

/-- The running set of a core whose request for s[d] is outstanding. -/
def RegSet.owed (k : RegSet) (r : MemReq) (d : Nat) : RegSet :=
  let k := if reqReturns r && d != 0 then { k with pendingRegs := addNew k.pendingRegs d } else k
  if r.holds = 0 then k else onEngine (r.observer % 4) (fun g => { g with wait := r.holds }) k

theorem State.withSet_run {ctx : Nat} (hc : c < 256) (hx : (s.core c).run.ctx = ctx) (f : RegSet → RegSet) :
    s.withSet c ctx f = s.setCore c { s.core c with run := f (s.core c).run } := by
  rw [State.withSet]
  simp only [if_neg (Nat.not_le.2 hc), if_pos hx]

/-- The running set of an outstanding request owes its value. -/
theorem State.holdEngine_owed {id ctx d : Nat} (hq : ∃ q ∈ (s.ep e).reqs, q.id = id) (hc : c < 256)
    (hx : (s.core c).run.ctx = ctx) :
    s.holdEngine e id c ctx d r = s.setCore c { s.core c with run := (s.core c).run.owed r d } := by
  have hn : ¬(s.ep e).reqs.all (·.id != id) = true := by simpa using hq
  rw [State.holdEngine, if_neg hn]
  exact State.withSet_run hc hx _

theorem RegSet.owed_pendingRegs {k : RegSet} (h : k.pendingRegs = []) (r : MemReq) (d : Nat) :
    (k.owed r d).pendingRegs = if reqReturns r = true ∧ d ≠ 0 then [d] else [] := by
  unfold RegSet.owed
  extract_lets l
  have hl : l.pendingRegs = if reqReturns r = true ∧ d ≠ 0 then [d] else [] := by
    by_cases hd : reqReturns r = true ∧ d ≠ 0
    · simp [l, hd, h, addNew]
    · have hn : ¬(reqReturns r && d != 0) = true := by simpa using hd
      simp only [l, if_neg hn, if_neg hd, h]
  split
  · exact hl
  · exact hl

theorem RegSet.owed_s (k : RegSet) (r : MemReq) (d : Nat) : (k.owed r d).s = k.s := by
  unfold RegSet.owed
  dsimp only [onEngine]
  split <;> split <;> rfl

theorem RegSet.owed_engines (k : RegSet) (r : MemReq) (d : Nat) : (k.owed r d).engines =
    if r.holds = 0 then k.engines else (onEngine (r.observer % 4) (fun g => { g with wait := r.holds }) k).engines := by
  unfold RegSet.owed
  dsimp only [onEngine]
  split <;> split <;> rfl

/-- The engine that presents the request waits for it as an acquire or a release does. -/
theorem RegSet.owed_eng {k : RegSet} {i : Nat} (ho : r.observer % 4 = i) (hi : i < k.engines.length)
    (hw : (k.eng i).wait = 0) (d : Nat) : (k.owed r d).eng i = { k.eng i with wait := r.holds } := by
  rw [RegSet.eng, RegSet.owed_engines, ho]
  split
  · next h0 =>
    rw [h0]
    exact congrArg (fun n => ({ k.eng i with wait := n } : Engine)) hw
  · exact onEngine_eng hi _

theorem State.sendReq_owed {d : Nat} (hc : c < 256) (hm : ∀ m ∈ r.ms, m < 4096) (hl : r.op = 6 ∨ r.len ≤ 64)
    (hq : s.now < (s.ep (c / 16)).quietUntil) (hcache : s.fbit (R.EP_CTL.CACHE_EN (c / 16)) = false)
    (hb : ∀ v ∈ s.transEntries (c / 16), s.badEntry (c / 16) v = false)
    (hk : s.check (c / 16) r = (ST.OK, some x)) (hid : x.ga / 2 ^ 44 % 1024 ≠ s.epId (c / 16)) :
    ∃ u, s.EntersCell u (c / 16) r ∧ s.sendReq c d r = u.setCore c { u.core c with run := (u.core c).run.owed r d } := by
  have k := State.issue_enters hm hl hq hcache hb hk hid c (.sreg c (s.core c).run.ctx d) .clean
  refine ⟨_, k, ?_⟩
  obtain ⟨ra, hcore⟩ := k.core c
  exact State.holdEngine_owed k.req hc (by rw [hcore])

/-! ## Instructions of format Q (R206, R346, R348) -/

variable {kind hint op : Nat} {w : W64}

/-- The milestone that a word names is one of the 4,096. -/
theorem State.qReq_ms (s : State) (c : Nat) (w : W64) (kind hint : Nat) : ∀ m ∈ (s.qReq c w kind hint).ms, m < 4096 := by
  intro m hm
  simp only [State.qReq, Option.mem_def, Option.ite_none_right_eq_some, Option.some.injEq] at hm
  rw [← hm.2]
  exact bitsOf_lt _ _ _

theorem subWidth_le (n : Nat) : subWidth n ≤ 8 := by
  unfold subWidth
  split <;> decide

/-- Every request of the scalar engine but an INVALIDATE is of at most 8 bytes. -/
theorem State.qReq_small (s : State) (c : Nat) (w : W64) (kind hint : Nat) :
    (s.qReq c w kind hint).op = 6 ∨ (s.qReq c w kind hint).len ≤ 64 := by
  by_cases h6 : kind = 6
  · exact .inl h6
  · right
    simp only [State.qReq, if_neg h6]
    split
    · exact (subWidth_le _).trans (by decide)
    · have hs : (fmtQ w).sz < 4 := bitsOf_lt _ _ _
      exact (Nat.pow_le_pow_right (by decide) (by omega : (fmtQ w).sz ≤ 3)).trans (by decide)

/-- An engine that does not run ahead presents its request and goes on. -/
theorem State.memOp_runs (h : Runs s c 2 op w) (kind hint : Nat) :
    s.memOp c op kind hint w = (s.pass c 2).sendReq c (fmtQ w).d (s.qReq c w kind hint) := by
  rw [State.memOp, h.go]
  exact if_neg (by simp [h.not_ahead])

theorem State.memOp_requested (h : Runs s c 2 op w) (hq : s.now < (s.ep (c / 16)).quietUntil)
    (hcache : s.fbit (R.EP_CTL.CACHE_EN (c / 16)) = false)
    (hb : ∀ v ∈ s.transEntries (c / 16), s.badEntry (c / 16) v = false) (hr : s.qReq c w kind hint = r)
    (hk : s.check (c / 16) r = (ST.OK, some x)) (hid : x.ga / 2 ^ 44 % 1024 ≠ s.epId (c / 16)) :
    Requested s (s.memOp c op kind hint w) c r.cellTyp r.holds (reqReturns r) (fmtQ w).d := by
  have hv := h.pass_frame
  have hvc := h.core_pass
  have hlen := h.engine_lt
  have hpc := h.pc_pass
  have hwait : ((s.pass c 2).eng c 2).wait = 0 := by
    rw [State.pass_eq h.not_ahead, State.eng_setEng hlen]
    exact h.not_waiting
  rw [State.memOp_runs h, hr]
  generalize s.pass c 2 = v at hv hvc hpc hwait ⊢
  obtain ⟨u, k, hu⟩ := State.sendReq_owed (s := v) (r := r) (x := x) (d := (fmtQ w).d) h.core_lt (hr ▸ s.qReq_ms c w kind hint)
    (hr ▸ s.qReq_small c w kind hint) (by rw [hv]; exact hq) (by rw [hv]; exact hcache) (by rw [hv]; exact hb)
    (by rw [hv]; exact hk) (by rw [hv]; exact hid)
  obtain ⟨ra, hcore⟩ := k.core c
  obtain ⟨o, hort, hsent, htyp, hctx, hsrc⟩ := k.ort
  have hobs : r.observer % 4 = 2 := by
    rw [← hr]
    simp [State.qReq, obsOf]
  have heng : (v.core c).run.eng 2 = (u.core c).run.eng 2 := by rw [hcore]; rfl
  have hown := RegSet.owed_eng (k := (u.core c).run) hobs (by rw [hcore, hvc]; simpa using hlen) (heng ▸ hwait) (fmtQ w).d
  rw [hu]
  refine ⟨?_, ?_, ?_, ?_, ⟨o, ?_, hsent, htyp, ?_, ?_⟩, ?_, ?_⟩
  · rw [State.eng_eq, State.core_setCore, hown, ← heng]
    exact hpc
  · rw [State.eng_eq, State.core_setCore, hown]
  · rw [State.core_setCore]
    exact RegSet.owed_pendingRegs (by rw [hcore, hvc]; exact h.not_pending) r _
  · rw [State.core_setCore]
    exact (RegSet.owed_s _ r _).trans (by rw [hcore, hvc]; rfl)
  · rw [State.ep_setCore, hort, hv]
    rfl
  · rw [hctx, ← hr]
    rfl
  · rw [hsrc, hv]
    rfl
  · rw [State.setCore_mem, k.frame, hv]
  · rw [State.setCore_regs, k.frame, hv]

/-- A request that returns no value owes none, whatever register its word names. -/
theorem Requested.unowed {typ wait d : Nat} (h : Requested s t c typ wait false d) : Requested s t c typ wait false 0 := h

end Sys2Proof.Machine
end

/-! # What a core's transfers are, while requests run -/
section
namespace Sys2Proof.Machine
open Sys2Proof.Laws

variable {s t u : State} {α : Type} {e : Nat}

/-- A transfer as it was started: without what its pieces have brought. -/
def Xfer.start (x : Xfer) : Xfer := { x with issued := 0, open_ := 0, status := 0 }

/-- From core k to core l no transfer came, ended or became another, and the DMA engine did not go on. -/
structure Core.DmaStands (k l : Core) : Prop where
  next : l.nextXfer = k.nextXfer
  pc : (l.run.eng 3).pc = (k.run.eng 3).pc
  xfers : l.xfers.map Xfer.start = k.xfers.map Xfer.start

theorem Core.DmaStands.rfl_ (k : Core) : k.DmaStands k := ⟨rfl, rfl, rfl⟩

theorem Core.DmaStands.trans {k l m : Core} (h : k.DmaStands l) (j : l.DmaStands m) : k.DmaStands m :=
  ⟨j.next.trans h.next, j.pc.trans h.pc, j.xfers.trans h.xfers⟩

/-- From s to t this holds of every core. An update of anything but the cores keeps it as it is. -/
def State.DmaStands (s t : State) : Prop := ∀ c, (s.core c).DmaStands (t.core c)

theorem State.DmaStands.rfl_ (s : State) : s.DmaStands s := fun _ => .rfl_ _

/-! ## The ways updates are put together -/

theorem State.DmaStands.of_cores (h : s.DmaStands t) (hc : u.cores = t.cores) : s.DmaStands u := by
  intro c
  have e : u.core c = t.core c := by rw [State.core, State.core, hc]
  exact e ▸ h c

theorem State.DmaStands.ite {c : Prop} [Decidable c] (h : s.DmaStands t) (k : s.DmaStands u) :
    s.DmaStands (if c then t else u) := by
  split
  · exact h
  · exact k

theorem State.DmaStands.when {c} {f : State → State} (h : s.DmaStands t) (hf : ∀ {u}, s.DmaStands u → s.DmaStands (f u)) :
    s.DmaStands (t.when c f) := .ite (hf h) h

theorem State.DmaStands.forEach {l : List α} {f : State → α → State} (h : s.DmaStands t)
    (hf : ∀ {u} a, s.DmaStands u → s.DmaStands (f u a)) : s.DmaStands (t.forEach l f) :=
  State.forEach_keeps (fun _ a => hf a) l t h

theorem State.DmaStands.setCore {c : Nat} {x : Core} (h : s.DmaStands t) (hx : (t.core c).DmaStands x) :
    s.DmaStands (t.setCore c x) := by
  intro k
  by_cases hk : k = c
  · rw [hk, State.core_setCore]
    exact (h c).trans hx
  · rw [State.core_setCore_ne _ hk]
    exact h k

/-! ## Updates of anything but the cores -/

theorem State.DmaStands.setEp {x} (h : s.DmaStands t) : s.DmaStands (t.setEp e x) := h
theorem State.DmaStands.setHub {n x} (h : s.DmaStands t) : s.DmaStands (t.setHub n x) := h
theorem State.DmaStands.emit {o} (h : s.DmaStands t) : s.DmaStands (t.emit o) := h
theorem State.DmaStands.hubWrite {n o b} (h : s.DmaStands t) : s.DmaStands (t.hubWrite n o b) := h
theorem State.DmaStands.setDirty {n i p v} (h : s.DmaStands t) : s.DmaStands (t.setDirty n i p v) := h
theorem State.DmaStands.fset {f v} (h : s.DmaStands t) : s.DmaStands (t.fset f v) := h
theorem State.DmaStands.fsetb {f v} (h : s.DmaStands t) : s.DmaStands (t.fsetb f v) := h
theorem State.DmaStands.almAdd {a b o n} (h : s.DmaStands t) : s.DmaStands (t.almAdd a b o n) := h
theorem State.DmaStands.finc {f n} (h : s.DmaStands t) : s.DmaStands (t.finc f n) := .ite h h

theorem State.DmaStands.hubOnly {n} (h : s.DmaStands t) (k : t.HubOnly u n) : s.DmaStands u :=
  h.of_cores (by rw [k.frame])

/-- A read that finds no fault changes nothing but what is counted. -/
theorem State.DmaStands.performLine {n c} (h : s.DmaStands t) : s.DmaStands (t.performLine n c .clean).s := by
  dsimp only [State.performLine]
  split
  · exact ((State.DmaStands.ite h h.almAdd).hubOnly (.lineWrite _ n _ _ _)).almAdd
  · split
    · exact h
    · split
      · exact h
      · exact ((h.hubWrite (t := (t.lineRead n c.offset .clean).almAdd 5 n 0 64)).hubOnly (.markDirty _ n _)).almAdd

theorem State.DmaStands.directLine {d : Direct} {n addr c k} (h : s.DmaStands d.s) : s.DmaStands (d.line n addr .clean c k).s := by
  unfold Direct.line
  split
  · exact h.hubOnly (.lineWrite _ n _ _ _)
  · exact h.performLine

theorem State.DmaStands.directPerform {n r} (h : s.DmaStands t) : s.DmaStands (t.directPerform n r .clean).s := by
  unfold State.directPerform
  split
  · exact h
  · exact List.foldlRecOn (motive := fun d : Direct => s.DmaStands d.s) _ _ h fun _ k _ _ => k.directLine

theorem State.DmaStands.msAdvance {m n st} (h : s.DmaStands t) : s.DmaStands (t.msAdvance e m n st) := by
  dsimp only [State.msAdvance]
  split
  · exact h.fset
  · split
    · exact h.fset.finc.fset
    · exact h.fset.finc

theorem State.DmaStands.countFenceLost {o} (h : s.DmaStands t) : s.DmaStands (t.countFenceLost e o) :=
  .ite h.finc (.ite h.finc h)

theorem State.DmaStands.mirrorAck {n w p st} (h : s.DmaStands t) : s.DmaStands (t.mirrorAck n w p st) := by
  dsimp only [State.mirrorAck]
  split
  · exact h.setHub
  · exact h.setHub.setDirty.fsetb.setHub.forEach fun _ k => k.msAdvance

theorem State.DmaStands.ownPut {o b} (he : e < 16) (h : s.DmaStands t) : s.DmaStands (t.ownPut e o b) :=
  h.hubOnly (.ownPut he t o b)

theorem State.DmaStands.bcastLine {slot chunk off st data} (he : e < 16) (h : s.DmaStands t) :
    s.DmaStands (t.bcastLine e slot chunk off st data) :=
  ((h.when fun k => k.ownPut he).when fun k => k.ownPut he).setEp

/-! ## Updates of register sets and of scratch -/

theorem State.DmaStands.dropLines {p} (h : s.DmaStands t) : s.DmaStands (t.dropLines e p) := by
  intro c
  obtain ⟨ra, hc⟩ := (t.linesGone_dropLines e p).core c
  rw [hc]
  exact (h c).trans ⟨rfl, rfl, rfl⟩

theorem State.DmaStands.reachCache {o x sc keep} (h : s.DmaStands t) : s.DmaStands (t.reachCache e o x sc keep) :=
  .ite h (.ite h.dropLines.finc h.dropLines)

/-- A change of a register set that keeps the DMA engine's PC. -/
theorem State.DmaStands.withSet {c x} {f : RegSet → RegSet} (h : s.DmaStands t) (hf : ∀ r, ((f r).eng 3).pc = (r.eng 3).pc) :
    s.DmaStands (t.withSet c x f) := by
  dsimp only [State.withSet]
  split
  · exact h
  · split
    · exact h.setCore ⟨rfl, hf _, rfl⟩
    · split
      · split <;> exact h.setCore ⟨rfl, rfl, rfl⟩
      · exact h.setCore ⟨rfl, rfl, rfl⟩

/-- The end of run-ahead moves the scalar engine alone. -/
theorem RegSet.endAhead_pc (ok : Bool) (r : RegSet) : ((r.endAhead ok).eng 3).pc = (r.eng 3).pc := by
  unfold RegSet.endAhead
  split
  · rfl
  · split
    · rfl
    · rw [onEngine_eng_ne (by decide)]
      rfl

theorem State.DmaStands.wake {c x i ok} (h : s.DmaStands t) : s.DmaStands (t.wake c x i ok) :=
  (h.when fun k => k.finc.almAdd).withSet fun r => by
    refine (onEngine_pc ?_ i 3 _).trans ?_
    · exact fun _ => rfl
    · split
      · exact r.endAhead_pc ok
      · rfl

theorem State.DmaStands.askBanks {c o n} (h : s.DmaStands t) : s.DmaStands (t.askBanks c o n) := h.setCore ⟨rfl, rfl, rfl⟩

theorem State.DmaStands.scratchWrite {c x i o b} (h : s.DmaStands t) : s.DmaStands (t.scratchWrite c x i o b) :=
  h.setCore ⟨rfl, rfl, rfl⟩

/-- A change of the count of pieces and of the status of transfers. -/
theorem map_start {f : Xfer → Xfer} (hf : ∀ x, (f x).start = x.start) (l : List Xfer) :
    (l.map f).map Xfer.start = l.map Xfer.start := by
  rw [List.map_map]
  exact List.map_congr_left fun x _ => hf x

theorem noteStatus_pc (st : Nat) (g : Engine) : (noteStatus st g).pc = g.pc := by
  unfold noteStatus
  split <;> rfl

theorem RegSet.retS_engines (r : RegSet) (d : Nat) (v : W64) : (r.retS d v).engines = r.engines := by
  dsimp only [RegSet.retS, RegSet.setS]
  split <;> rfl

/-! ## Requests and their cells -/

theorem State.DmaStands.deliver {q st data} (he : e < 16) (h : s.DmaStands t) : s.DmaStands (t.deliver e q st data) := by
  dsimp only [State.deliver]
  split
  · exact h
  · refine State.DmaStands.withSet (.ite h.wake (.ite (h.withSet (onEngine_pc (fun g => by split <;> rfl) _ _)) h)) fun r => ?_
    rw [← onEngine_pc (noteStatus_pc st) (q.r.observer % 4) 3 r]
    split
    · rfl
    · split
      · rw [RegSet.eng, RegSet.retS_engines]
        rfl
      · rfl
  · exact State.DmaStands.setCore (.ite (h.askBanks.forEach fun _ k => k.scratchWrite) h)
      ⟨rfl, rfl, map_start (fun x => by split <;> rfl) _⟩
  · exact h.emit
  · exact h
  · exact h
  · exact h.mirrorAck
  · exact h.bcastLine he

theorem State.DmaStands.requestDone {q st data} (he : e < 16) (h : s.DmaStands t) : s.DmaStands (t.requestDone e q st data) := by
  unfold State.requestDone
  extract_lets _ _ v1 _ v2 v3 v4
  have h1 : s.DmaStands v1 := .ite h.setEp.countFenceLost h
  have h2 : s.DmaStands v2 := .ite h1.setEp.finc.setEp h1
  have h3 : s.DmaStands v3 := .ite h2.reachCache h2
  have h4 : s.DmaStands v4 := by
    dsimp only [v4]
    split
    · split
      · exact h3
      · exact h3.msAdvance
    · exact h3
  exact h4.deliver he

theorem State.DmaStands.cacheFill {l} (h : s.DmaStands t) : s.DmaStands (t.cacheFill e l) := by
  dsimp only [State.cacheFill]
  split
  · exact h
  · exact State.DmaStands.setEp (by split; exacts [h.dropLines, h])

theorem State.DmaStands.finish {q} (he : e < 16) (h : s.DmaStands t) : s.DmaStands (t.finish e q) :=
  State.DmaStands.requestDone he (.ite (h.setEp.forEach fun _ k => k.cacheFill) h.setEp)

theorem State.DmaStands.cellDone {key req st un line} (he : e < 16) (h : s.DmaStands t) :
    s.DmaStands (t.cellDone e key req st un line) := by
  dsimp only [State.cellDone]
  split
  · split
    · exact h.setEp.setEp
    · exact h.setEp
  · exact .ite (h.setEp.finish he) h.setEp.setEp

theorem State.DmaStands.useResv {i} (h : s.DmaStands t) : s.DmaStands (t.useResv e i) := by
  dsimp only [State.useResv]
  split
  · exact h
  · exact h.setEp

theorem State.DmaStands.epSend {q c} (he : e < 16) (h : s.DmaStands t) : s.DmaStands (t.epSend e q c) := by
  rw [State.epSend, if_pos he]
  exact h.emit

theorem State.DmaStands.transmit {key} (he : e < 16) (h : s.DmaStands t) : s.DmaStands (t.transmit e key) := by
  dsimp only [State.transmit]
  split
  · exact h
  · refine .ite h (.ite (h.cellDone he) ?_)
    split
    · exact h
    · refine .ite h.setEp ?_
      split
      · exact h.setEp
      · exact h.setEp.useResv.epSend he

theorem State.DmaStands.enterCells {q cs inter far} (he : e < 16) (h : s.DmaStands t) :
    s.DmaStands (t.enterCells e q cs inter far) :=
  .ite h.setEp (h.setEp.forEach fun _ k => k.transmit he)

theorem State.DmaStands.directGo {q} (he : e < 16) (h : s.DmaStands t) : s.DmaStands (t.directGo e q .clean) :=
  .ite h.setHub (h.directPerform.setEp.requestDone he)

theorem State.DmaStands.issueAt {q x} (he : e < 16) (h : s.DmaStands t) : s.DmaStands (t.issueAt e q x .clean) := by
  unfold State.issueAt
  extract_lets r id rack sp off inter q' a b v _ _ _ _ cached hit
  clear_value hit
  have hv : s.DmaStands v := .ite h.dropLines h
  refine .ite (h.requestDone he) (.ite (hv.enterCells he) (.ite (.ite (hv.setEp.directGo he) hv.setEp) ?_))
  rw [if_neg (by simp [show e ≠ 17 by omega])]
  split
  · exact hv.setEp.finc.requestDone he
  · exact hv.enterCells he

theorem State.DmaStands.takeKey (h : s.DmaStands t) : s.DmaStands (t.takeKey e) := h.setEp

/-! ## Pieces of transfers (R350, R351) -/

theorem State.DmaStands.updXfer {c id} {f : Xfer → Xfer} (hf : ∀ x, (f x).start = x.start) (h : s.DmaStands t) :
    s.DmaStands (t.updXfer c id f) :=
  h.setCore ⟨rfl, rfl, map_start (fun x => by split; exacts [hf x, rfl]) _⟩

theorem State.DmaStands.issuePiece {c x} (hc : c < 256) (h : s.DmaStands t) : s.DmaStands (t.issuePiece c x) := by
  unfold State.issuePiece
  extract_lets e _ _ q v1 v2
  have h1 : s.DmaStands v1 := h.updXfer fun _ => rfl
  have h2 : s.DmaStands v2 := h1.when fun k => k.askBanks
  exact State.DmaStands.issueAt (e := e) (by omega) h2.takeKey

theorem State.DmaStands.pumpXfer {c id n} (hc : c < 256) (h : s.DmaStands t) : s.DmaStands (t.pumpXfer c id n) := by
  induction n generalizing t with
  | zero => exact h
  | succ n ih =>
    unfold State.pumpXfer
    split
    · exact .ite h (ih (h.issuePiece hc))
    · exact h

end Sys2Proof.Machine
end

/-! # Requests of the scalar engine and DMA of a core -/
section
namespace Sys2Proof.Machine
open Sys2Proof.Laws

variable {s t : State} {c op : Nat} {w : W64} {x y z : Xfer}

/-! ## Memory requests (R206, R208, R210, R346 to R348) -/

/-- The conditions under which a request of core c enters one cell at its hub. -/
structure State.Reaches (s : State) (c : Nat) (r : MemReq) (x : Xlat) : Prop where
  quiet : s.now < (s.ep (c / 16)).quietUntil
  uncached : s.fbit (R.EP_CTL.CACHE_EN (c / 16)) = false
  entries : ∀ v ∈ s.transEntries (c / 16), s.badEntry (c / 16) v = false
  passes : s.check (c / 16) r = (ST.OK, some x)
  distant : x.ga / 2 ^ 44 % 1024 ≠ s.epId (c / 16)

theorem State.Reaches.requested {kind hint : Nat} {x : Xlat} (k : s.Reaches c (s.qReq c w kind hint) x) (h : Runs s c 2 op w) :
    Requested s (s.memOp c op kind hint w) c (s.qReq c w kind hint).cellTyp (s.qReq c w kind hint).holds
      (reqReturns (s.qReq c w kind hint)) (fmtQ w).d :=
  State.memOp_requested h k.quiet k.uncached k.entries rfl k.passes k.distant

/-! ## A memory DMA instruction (R350, R352) -/

/-- The instruction of an opcode that starts a memory transfer. -/
theorem exec_dmaMem {i : Instr} (h : (op = 0xA0 ∧ i = .dmain c w) ∨ (op = 0xA1 ∧ i = .dmainv c w) ∨
    (op = 0xA2 ∧ i = .dmaout c w) ∨ (op = 0xA3 ∧ i = .dmaadd c w)) (s : State) : exec i s = .next (s.dmaMem c op w) := by
  obtain ⟨rfl, rfl⟩ | ⟨rfl, rfl⟩ | ⟨rfl, rfl⟩ | ⟨rfl, rfl⟩ := h <;> rfl

/-- The scratch range of a memory transfer passes its checks (R344, R350). -/
structure State.RangeOk (s : State) (c op sub : Nat) (y : Xfer) : Prop where
  aligned : y.scratch % 32 = y.addr % 32
  whole : op = 0xA3 → y.scratch % subWidth sub = 0
  within : y.scratch + y.len ≤ s.scratchLimit c y.ctx

theorem State.RangeOk.not_misplaced {sub : Nat} (k : s.RangeOk c op sub y) :
    ¬(y.scratch % 32 ≠ y.addr % 32 ∨ (op = 0xA3 ∧ y.scratch % subWidth sub ≠ 0)) := by
  rintro (ha | ⟨ho, hs⟩)
  exacts [ha k.aligned, hs (k.whole ho)]

/-- With its range in order the instruction waits while transfers are too many. -/
theorem State.dmaMem_full (h : Runs s c 3 op w) (k : s.RangeOk c op (fmtD w).sub (s.newXfer c op (fmtD w)))
    (hf : s.dmaFull c = true) : s.dmaMem c op w = s.dmaWait c := by
  rw [State.dmaMem, h.go]
  dsimp only
  rw [if_neg k.not_misplaced, if_neg (Nat.not_lt.2 k.within), if_pos hf]

/-- The state in which a core has one transfer more. -/
def State.addXfer (s : State) (c : Nat) (z : Xfer) : State :=
  s.setCore c { s.core c with xfers := (s.core c).xfers ++ [z], nextXfer := (s.core c).nextXfer + 1 }

/-- With its range in order and translated the instruction starts its transfer, whose first pieces issue. -/
theorem State.dmaMem_starts (h : Runs s c 3 op w) (k : s.RangeOk c op (fmtD w).sub (s.newXfer c op (fmtD w)))
    (hf : s.dmaFull c = false) (hb : ∀ v ∈ s.transEntries (c / 16), s.badEntry (c / 16) v = false)
    (hz : s.xferXlat c (s.newXfer c op (fmtD w)) = some z) :
    s.dmaMem c op w = ((s.pass c 3).addXfer c z).pumpXfer c z.id (z.len / 128 + 16) := by
  have hb' : ∀ v ∈ (s.pass c 3).transEntries (c / 16), (s.pass c 3).badEntry (c / 16) v = false := by
    rw [h.pass_frame]
    exact hb
  have hz' : (s.pass c 3).xferXlat c (s.newXfer c op (fmtD w)) = some z := by
    rw [h.pass_frame]
    exact hz
  rw [State.dmaMem, h.go]
  dsimp only
  rw [if_neg k.not_misplaced, if_neg (Nat.not_lt.2 k.within), if_neg (by simp [hf]), State.markBad_none hb', hz']
  rfl

/-- A transfer that is started is the one asked for, at the address of its translation. -/
theorem State.xferXlat_some (h : s.xferXlat c y = some z) : ∃ t, s.lookup (c / 16) y.ctx y.addr = some t ∧
    z = { y with ga := t.ga, cacheOk := t.cache, window := t.window } := by
  obtain ⟨t, ht, rfl⟩ := Option.map_eq_some_iff.1 h
  exact ⟨t, (Option.filter_eq_some_iff.1 ht).1, rfl⟩

/-- A transfer of core k is one of core l, perhaps with pieces issued. -/
theorem Core.DmaStands.mem {k l : Core} (h : k.DmaStands l) (hx : x ∈ k.xfers) : ∃ z ∈ l.xfers, z.start = x.start := by
  have hm : x.start ∈ l.xfers.map Xfer.start := h.xfers ▸ List.mem_map_of_mem hx
  exact List.mem_map.1 hm

theorem State.dmaMem_started (h : Runs s c 3 op w) (k : s.RangeOk c op (fmtD w).sub (s.newXfer c op (fmtD w)))
    (hf : s.dmaFull c = false) (hb : ∀ v ∈ s.transEntries (c / 16), s.badEntry (c / 16) v = false)
    (hz : (s.xferXlat c (s.newXfer c op (fmtD w))).isSome = true) (hy : s.newXfer c op (fmtD w) = y)
    (ht : s.dmaMem c op w = t) : (t.eng c 3).pc = (s.eng c 3).pc + 1 ∧ (t.core c).nextXfer = (s.core c).nextXfer + 1 ∧
      ∃ z ∈ (t.core c).xfers, z.id = y.id ∧ z.op = y.op ∧ z.addr = y.addr ∧ z.scratch = y.scratch ∧ z.len = y.len ∧
        some z.ga = (s.lookup (c / 16) y.ctx y.addr).map (·.ga) := by
  obtain ⟨z, hz⟩ := Option.isSome_iff_exists.1 hz
  obtain ⟨a, ha, hza⟩ := State.xferXlat_some hz
  have hpc := h.pc_pass
  have hcore := h.core_pass
  rw [State.dmaMem_starts h k hf hb hz] at ht
  have l := (State.DmaStands.rfl_ ((s.pass c 3).addXfer c z)).pumpXfer (id := z.id) (n := z.len / 128 + 16) h.core_lt c
  rw [ht, State.addXfer, State.core_setCore] at l
  obtain ⟨v, hv, hs⟩ := l.mem (x := z) (by simp)
  refine ⟨l.pc.trans hpc, l.next.trans (by rw [hcore]), v, hv, ?_⟩
  rw [hy] at hza ha
  have hstart : v.start = { y with ga := a.ga, cacheOk := a.cache, window := a.window, issued := 0, open_ := 0, status := 0 } := by
    rw [hs, hza]
    rfl
  simp only [Xfer.start, Xfer.mk.injEq] at hstart
  obtain ⟨hid, -, hop, hscr, hadr, hlen, -, -, -, hga, -⟩ := hstart
  exact ⟨hid, hop, hadr, hscr, hlen, by rw [ha, hga]; rfl⟩

/-- A seventeenth instruction notes the oldest transfer (R352). -/
theorem State.dmaWait_notes (ho : (s.eng c 3).oldest = none) :
    s.dmaWait c = s.setEng c 3 fun g => { g with oldest := (s.core c).xfers.head?.map (·.id) } := by
  rw [State.dmaWait, ho]
  exact if_neg (by simp)

theorem dmaMem_waits {i : Instr} (he : exec i s = .next (s.dmaMem c op w)) (h : Runs s c 3 op w)
    (k : s.RangeOk c op (fmtD w).sub (s.newXfer c op (fmtD w))) (hn : 16 ≤ (s.core c).xfers.length)
    (ho : (s.eng c 3).oldest = none) : Answers i s fun t =>
      (t.eng c 3).oldest = (s.core c).xfers.head?.map (·.id) ∧ (t.eng c 3).pc = (s.eng c 3).pc ∧
      (t.core c).xfers = (s.core c).xfers ∧ t = { s with cores := t.cores } := by
  have hd : s.dmaMem c op w = _ := (State.dmaMem_full h k (by simp [State.dmaFull, hn])).trans (State.dmaWait_notes ho)
  have heng := State.eng_setEng h.engine_lt fun g => { g with oldest := (s.core c).xfers.head?.map (·.id) }
  exact ⟨_, he.trans (congrArg Host.Outcome.next hd), by rw [heng], by rw [heng], by rw [State.core_setEng], rfl⟩

/-! ## A transfer completes (R188, R345, R351) -/

/-- In an idle frame no piece issues (R336). -/
theorem State.dmaPump_idle (h : s.fget (R.CO_STATUS.KIND c) = 0) : s.dmaPump c = s := if_pos h

/-- A field takes the low bits of what is stored in it. -/
theorem State.fset_mod (s : State) (f : Fld) (v : Nat) : s.fset f (v % 2 ^ (f.hi + 1 - f.lo)) = s.fset f v := by
  simp only [State.fset, splice, Nat.mod_mod]

theorem State.msAdvance_ok (s : State) (e m n : Nat) : s.msAdvance e m n ST.OK =
    s.fset (R.MS_COUNT.COUNT e m) (s.fget (R.MS_COUNT.COUNT e m) + n) := by
  rw [State.msAdvance]
  exact if_pos rfl

/-- Core c without a transfer. -/
def State.dropXfer (s : State) (c id : Nat) : State :=
  s.setCore c { s.core c with xfers := (s.core c).xfers.filter (·.id != id) }

/-- Storing a value sets the field to its low bits, and that field alone. -/
theorem State.sets_fset_mod (hw : s.regsWf = true) {f : Fld} (hl : f.lo ≤ f.hi) (hh : f.hi < 64) (v : Nat) :
    Sets s (s.fset f v) [(f, v % 2 ^ (f.hi + 1 - f.lo))] :=
  s.fset_mod f v ▸ State.sets_fset hw hl hh (Nat.mod_lt _ (Nat.two_pow_pos _))

/-- A transfer that ended well leaves its core, advances its milestone and gives no status to note. -/
theorem State.xferDone_ok {m : Nat} (hs : x.status = ST.OK) (hcut : x.cut = false) (hm : x.ms = some m) :
    s.xferDone c x = ((s.dropXfer c x.id).msAdvance (c / 16) m 1 ST.OK).withSet c x.ctx (onEngine 3 (noteStatus ST.OK)) := by
  have hl : (ST.OK == ST.LOST) = false := by decide
  simp only [State.xferDone, hs, hcut, hm, hl, State.when, Bool.false_eq_true, if_false]
  rfl

/-- No register of a core is a milestone of a hub's end-point. -/
theorem apart_coStatus_msCount (hc : c < 256) (m : Nat) : R.CO_STATUS.addr c ≠ R.MS_COUNT.addr (c / 16) m := by
  simp only [R.CO_STATUS.addr, R.MS_COUNT.addr, epBase, if_neg (show c / 16 ≠ 17 by omega)]
  omega

theorem State.sets_msAdvance (hw : s.regsWf = true) (e m n : Nat) : Sets s (s.msAdvance e m n ST.OK)
    [(R.MS_COUNT.COUNT e m, (s.fget (R.MS_COUNT.COUNT e m) + n) % 2 ^ 64)] := by
  rw [State.msAdvance_ok]
  exact State.sets_fset_mod hw (Nat.zero_le 63) (show 63 < 64 by decide) _

theorem State.msAdvance_frame (s : State) (e m n : Nat) :
    s.msAdvance e m n ST.OK = { s with regs := (s.msAdvance e m n ST.OK).regs } := by
  rw [State.msAdvance_ok]
  rfl

theorem State.fget_dropXfer (s : State) (c id : Nat) (f : Fld) : (s.dropXfer c id).fget f = s.fget f := s.fget_setCore c _ f

/-- The completion of a transfer that ended well changes nothing but its core and its milestone. -/
theorem State.xferDone_counted {m : Nat} (hc : c < 256) (hs : x.status = ST.OK) (hcut : x.cut = false) (hm : x.ms = some m)
    (hx : x.ctx = (s.core c).run.ctx) : ∃ k : Core, (∀ y ∈ k.xfers, y.id ≠ x.id) ∧
      s.xferDone c x = ((s.dropXfer c x.id).msAdvance (c / 16) m 1 ST.OK).setCore c k := by
  have hk : ((s.dropXfer c x.id).msAdvance (c / 16) m 1 ST.OK).core c =
      { s.core c with xfers := (s.core c).xfers.filter (·.id != x.id) } := by
    rw [State.msAdvance_ok, State.core_fset, State.dropXfer, State.core_setCore]
  rw [State.xferDone_ok hs hcut hm, State.withSet_run hc (by rw [hk]; exact hx.symm), hk]
  exact ⟨_, fun y hy => by simpa using (List.mem_filter.1 hy).2, rfl⟩

/-- A transfer that has no piece left completes when its command comes in an idle frame. -/
theorem exec_dmaTransferComplete (hc : c < 256) (hk : s.fget (R.CO_STATUS.KIND c) = 0)
    (hk' : (s.xferDone c x).fget (R.CO_STATUS.KIND c) = 0)
    (hf : (s.core c).xfers.find? (·.id == x.id) = some x) (hl : x.len ≤ x.issued) (ho : x.open_ = 0) :
    exec (.dmaTransferComplete c x.id) s = .next (s.xferDone c x) := by
  refine congrArg Host.Outcome.next ((if_neg (Nat.not_le.2 hc)).trans ?_)
  rw [State.dmaPump_idle hk]
  simp only [hf]
  rw [if_pos ⟨hl, ho⟩, State.dmaPump_idle hk']

theorem dmaTransferComplete_counts {m : Nat} (hw : s.regsWf = true) (hc : c < 256) (hk : s.fget (R.CO_STATUS.KIND c) = 0)
    (hf : (s.core c).xfers.find? (·.id == x.id) = some x) (hl : x.len ≤ x.issued) (ho : x.open_ = 0) (hs : x.status = ST.OK)
    (hcut : x.cut = false) (hm : x.ms = some m) (hx : x.ctx = (s.core c).run.ctx) :
    Answers (.dmaTransferComplete c x.id) s fun t => (∀ y ∈ (t.core c).xfers, y.id ≠ x.id) ∧
      Sets s t [(R.MS_COUNT.COUNT (c / 16) m, (s.fget (R.MS_COUNT.COUNT (c / 16) m) + 1) % 2 ^ 64)] ∧
      t = { s with regs := t.regs, cores := t.cores } := by
  obtain ⟨k, hy, hd⟩ := State.xferDone_counted hc hs hcut hm hx
  have hset := State.sets_msAdvance (s := s.dropXfer c x.id) hw (c / 16) m 1
  have hfr := (s.dropXfer c x.id).msAdvance_frame (c / 16) m 1
  have hkind : ((s.dropXfer c x.id).msAdvance (c / 16) m 1 ST.OK).fget (R.CO_STATUS.KIND c) = 0 := by
    rw [State.msAdvance_ok, State.fget_fset_ne _ (apart_coStatus_msCount hc m), State.fget_dropXfer]
    exact hk
  simp only [Sets, State.fget_dropXfer] at hset
  -- What the field's bits are is settled: unfolding them again is what the kernel cannot afford.
  generalize (s.dropXfer c x.id).msAdvance (c / 16) m 1 ST.OK = v at hd hset hfr hkind
  refine ⟨_, exec_dmaTransferComplete hc hk ?_ hf hl ho, ?_, ?_, ?_⟩
  · rw [hd, State.fget_setCore]
    exact hkind
  · rw [hd, State.core_setCore]
    exact hy
  · rw [hd]
    exact Sets.congr hset (State.setCore_regs _ _ _) rfl
  · rw [hd, hfr]
    rfl

/-! ## A copy within scratch (R207, R352) -/

/-- Writing scratch changes its bytes, and of the running set what run-ahead has read alone. -/
theorem State.core_scratchWrite (s : State) (c ctx e off : Nat) (b : List Byte) : ∃ ra,
    (s.scratchWrite c ctx e off b).core c = { s.core c with
      scratch := Memory.write (s.core c).scratch (s.scratchAt c ctx off) b, run := { (s.core c).run with ra := ra } } :=
  ⟨_, s.core_setCore c _⟩

/-- The state after a DMACP whose ranges are the same or apart: both ranges asked for, the bytes written. -/
def State.copied (s : State) (c a b n : Nat) : State :=
  ((s.askBanks c a n).askBanks c b n).sput c 3 b (s.sget c a n)

theorem State.core_copied (s : State) (c a b n : Nat) : ∃ ra asked, (s.copied c a b n).core c = { s.core c with
    scratch := Memory.write (s.core c).scratch (s.scratchAt c (s.core c).run.ctx b)
      (Memory.read (s.core c).scratch (s.scratchAt c (s.core c).run.ctx a) n)
    run := { (s.core c).run with ra := ra }, asked := asked } := by
  obtain ⟨ra, k⟩ := ((s.askBanks c a n).askBanks c b n).core_scratchWrite c (s.core c).run.ctx 3 b (s.sget c a n)
  have hq : ((s.askBanks c a n).askBanks c b n).core c =
      { s.core c with asked := (((s.askBanks c a n).askBanks c b n).core c).asked } := by
    simp [State.askBanks]
  refine ⟨ra, (((s.askBanks c a n).askBanks c b n).core c).asked, ?_⟩
  have hx : (((s.askBanks c a n).askBanks c b n).core c).run.ctx = (s.core c).run.ctx := by rw [hq]
  rw [State.copied, State.sput, hx, k, hq]
  rfl

theorem execDmacp_copies {x : FD} {a b : Nat} (h : Runs s c 3 0xA4 w) (hx : x = fmtD w) (ha : a = (s.xv c 3 x.xm).toNat)
    (hb : b = (s.xv c 3 x.xs).toNat) (hla : a + x.len ≤ s.scratchLimit c (s.core c).run.ctx)
    (hlb : b + x.len ≤ s.scratchLimit c (s.core c).run.ctx) (hf : s.dmaFull c = false)
    (hr : s.scratchBusy c (s.core c).run.ctx (s.core c).nextXfer a x.len false = false)
    (hw : s.scratchBusy c (s.core c).run.ctx (s.core c).nextXfer b x.len true = false)
    (hd : a = b ∨ a + x.len ≤ b ∨ b + x.len ≤ a) :
    exec (.dmacp c w) s = .next ((s.copied c a b x.len).pass c 3) := by
  have hm : ¬(a ≠ b ∧ a < b + x.len ∧ b < a + x.len) := by omega
  have hl : ¬(s.scratchLimit c (s.core c).run.ctx < a + x.len ∨ s.scratchLimit c (s.core c).run.ctx < b + x.len) := by omega
  subst hx ha hb
  refine congrArg Host.Outcome.next ((h.go [] _).trans ?_)
  dsimp only
  rw [if_neg hl, if_neg (by simp [hf]), if_neg (by simp [hr, hw]), if_neg hm, decide_eq_false hm]
  rfl

theorem dmacp_copies {x : FD} {a b n : Nat} (h : Runs s c 3 0xA4 w) (hx : x = fmtD w) (ha : a = (s.xv c 3 x.xm).toNat)
    (hb : b = (s.xv c 3 x.xs).toNat) (hn : n = x.len) (hla : a + n ≤ s.scratchLimit c (s.core c).run.ctx)
    (hlb : b + n ≤ s.scratchLimit c (s.core c).run.ctx) (hf : s.dmaFull c = false)
    (hr : s.scratchBusy c (s.core c).run.ctx (s.core c).nextXfer a n false = false)
    (hw : s.scratchBusy c (s.core c).run.ctx (s.core c).nextXfer b n true = false)
    (hwf : Memory.wf (s.core c).scratch = true) (hd : a = b ∨ a + n ≤ b ∨ b + n ≤ a) : Answers (.dmacp c w) s fun t =>
      (t.eng c 3).pc = (s.eng c 3).pc + 1 ∧ Stored s t c (s.scratchAt c (s.core c).run.ctx b)
        (Memory.read (s.core c).scratch (s.scratchAt c (s.core c).run.ctx a) n) ∧ t = { s with cores := t.cores } := by
  subst hn
  obtain ⟨ra, asked, k⟩ := s.core_copied c a b x.len
  have heng (e : Nat) : (s.copied c a b x.len).eng c e = s.eng c e := by
    rw [State.eng_eq, k, State.eng_eq]
    rfl
  have hahead : (s.copied c a b x.len).ahead c 3 = false := rfl
  have hput := Memory.Puts.write hwf (s.scratchAt c (s.core c).run.ctx b)
    (Memory.read (s.core c).scratch (s.scratchAt c (s.core c).run.ctx a) x.len)
  refine ⟨_, execDmacp_copies h hx ha hb hla hlb hf hr hw hd, ?_, ?_, ?_⟩
  · rw [State.pass_eq hahead, State.eng_setEng (by rw [k]; exact h.engine_lt), heng]
  · rw [Stored, State.pass_eq hahead, State.core_setEng, k]
    exact ⟨hput.read, fun v hv => hput.get_apart hv⟩
  · rw [State.pass_eq hahead]
    rfl

/-- Settles O28: a request enters one cell whatever its kind; the pieces that issue leave every transfer what it was started as;
a completed transfer advances its milestone; a copy of ranges that do not overlap writes what it read. -/
theorem coreRequests : Obligations.CoreRequests := by
  intro s c w hw
  refine ⟨fun kind hint x hq hcache hb hk hid => ?_, fun op i x y hi hx hy h ha hs hl hf hb hz => ?_,
    fun op i x y hi hx hy h ha hs hl hn ho => ?_,
    fun x m hc hk hf hl ho hs hcut hm _ hx => dmaTransferComplete_counts hw hc hk hf hl ho hs hcut hm hx,
    fun x a b n hx ha hb hn h hla hlb hf hr hw' hwf hd => dmacp_copies h hx ha hb hn hla hlb hf hr hw' hwf hd⟩
  · have k : s.Reaches c (s.qReq c w kind hint) x := ⟨hq, hcache, hb, hk, hid⟩
    exact ⟨by rintro h - rfl rfl; exact ⟨_, rfl, k.requested h⟩,
      by rintro h - rfl rfl; exact ⟨_, rfl, k.requested h⟩,
      by rintro h rfl rfl; exact ⟨_, rfl, k.requested h⟩,
      by rintro h - rfl rfl; exact ⟨_, rfl, Requested.unowed (k.requested h)⟩,
      by rintro h rfl rfl; exact ⟨_, rfl, Requested.unowed (k.requested h)⟩,
      by rintro h - rfl rfl; exact ⟨_, rfl, k.requested h⟩,
      by rintro h rfl rfl; exact ⟨_, rfl, k.requested h⟩,
      by rintro h rfl rfl; exact ⟨_, rfl, k.requested h⟩,
      by rintro h - rfl rfl; exact ⟨_, rfl, Requested.unowed (k.requested h)⟩⟩
  · subst hx hy
    exact ⟨_, exec_dmaMem hi s, State.dmaMem_started h ⟨ha, hs, hl⟩ hf hb hz rfl rfl⟩
  · subst hx hy
    exact dmaMem_waits (exec_dmaMem hi s) h ⟨ha, hs, hl⟩ hn ho

end Sys2Proof.Machine
end
